-- ==== Sys2Proof/Word.lean ====
section
/-! DEFINITION. The word types of the model: bytes, byte strings and the fixed-width register words. -/

namespace Sys2Proof

/-- The smallest addressable unit (R6, R7). -/
abbrev Byte := BitVec 8
/-- A byte string, lowest address first. -/
abbrev Bytes := List (BitVec 8)
/-- 16, 32 and 64 bit register words. -/
abbrev W16 := BitVec 16
abbrev W32 := BitVec 32
abbrev W64 := BitVec 64

end Sys2Proof
end

