-- ==== Sys2Proof/Syntax.lean ====
section
/-! DEFINITION. The commands and events of the LB24 block: one constructor of `Instr` per row of
spec/opcode_table.json, in the table's order, with the operands the rules give each row. -/

namespace Sys2Proof

/-- A mailbox slot: 0 to 63 are the host's, 64 + n is core SCn's (R484). -/
abbrev SlotId := Fin 160

/-- Who issues a register access (R454, R484). -/
inductive Issuer where
  | host
  | core (n : Fin 96)
  deriving DecidableEq, Repr

/-- A bus access: a read of `n` bytes or a write of the bytes. -/
inductive Access where
  | read (n : Nat)
  | write (d : Bytes)
  deriving DecidableEq, Repr

/-- A unit of the device by its kind code and number (R506, R564, R601). -/
structure UnitRef where
  kind : Nat
  num : Nat
  deriving DecidableEq, Repr

/-- A line of the self-test report: unit and result, 0x01 failed, 0x02 did not train (R506). -/
structure SelfTestEntry where
  unit : UnitRef
  result : Nat
  deriving DecidableEq, Repr

/-- What the outside gives a start-up (R571, R577): the answers of the identity buses, the units that
steps 9 to 11 find failed, and the step (6 to 12) that does not end within its bound, if any. -/
structure StartInputs where
  /-- Bytes of the carrier identity memory at 0x50, none when nothing answers (R597, R598). -/
  carrier : Option Bytes
  /-- Bytes of the power stage identity at 0x52 (R599). -/
  power : Option Bytes
  /-- Per present cable module: lane group and whether it answers (R600). -/
  modules : List (Nat × Bool)
  /-- Units found failed or untrained by steps 9 to 11. -/
  failed : List SelfTestEntry
  /-- A step that exceeds its bound: the start stops before it. -/
  stall : Option Nat
  deriving DecidableEq, Repr

/-- A block that monitors its own temperature (R561). -/
inductive ThermalBlock where
  | canopy (n : Fin 8)
  | floor (n : Fin 2)
  | server (n : Fin 2)
  | stack (n : Fin 24)
  deriving DecidableEq, Repr

/-- A block's low-power state of R554 (a stack's self-refresh has its own row). -/
inductive LowPowerBlock where
  | groveClock (n : Fin 192)
  | grovePower (n : Fin 192)
  | sapling (n : Fin 4)
  | lane (n : Fin 32)
  | core (n : Fin 96)
  | ranger (n : Fin 2)
  deriving DecidableEq, Repr

/-- Why the host link is lost (R467). -/
inductive LinkLossCause where
  | surpriseDown
  | hotReset
  | secondaryBusReset
  | functionLevelReset
  | cxlReset
  | recoveryTimeout
  deriving DecidableEq, Repr

/-- The atomic memory operations of the A extension (R535, R542). -/
inductive AmoOp where
  | add
  | swap
  | xor
  | and
  | or
  | min
  | max
  | minu
  | maxu
  deriving DecidableEq, Repr

/-- The element format of a memory-side add (R214). -/
inductive AddFmt where
  | b32
  | b16
  | i32
  | i64
  deriving DecidableEq, Repr

/-- What a request to the home asks for (R264, R269, R270, R542). -/
inductive CohOp where
  /-- Read of a line for a shared copy (a core) or for the current value (an agent without a cache). -/
  | read
  /-- Read for exclusive use by a core, with the store of the bytes at the offset in the line; an empty
  string takes ownership only. -/
  | store (off : Nat) (d : Bytes)
  /-- A core's atomic memory operation on `width` bytes, 4 or 8, at the offset, with operand `v`. -/
  | amo (op : AmoOp) (width off v : Nat)
  /-- Load-reserved. -/
  | lr
  /-- Store-conditional of the bytes at the offset. -/
  | sc (off : Nat) (d : Bytes)
  /-- A core sends a writeback of a modified line; it is then in flight (R266). -/
  | writebackIssue
  /-- The writeback reaches the home. -/
  | writebackArrive
  /-- The requester's final acknowledgement of its transaction (R264). -/
  | ack
  /-- The directory evicts the line's entry to free room (R263). -/
  | evict
  /-- A memory-side add of a code at the offset in the line (R214, R267). -/
  | madd (fmt : AddFmt) (off v : Nat)
  deriving DecidableEq, Repr

/-- The agent that makes a coherence request. -/
inductive CohAgent where
  | core (n : Fin 96)
  | agent (n : Nat)
  deriving DecidableEq, Repr

/-- How the ECC check of a line read ends (R221, R223). -/
inductive Ecc where
  | ok
  | corrected
  | uncorrectable
  deriving DecidableEq, Repr

/-- A core's input or output access (R541). -/
inductive CoreAccess where
  | load (n : Nat)
  | store (d : Bytes)
  | vector (store : Bool)
  | amo
  deriving DecidableEq, Repr

/-- Which timer compare register DEV_TICK reaches; `s` carries the core's own stimecmp (R550, R535). -/
inductive TimerCmp where
  | m
  | s (v : BitVec 64)
  deriving DecidableEq, Repr

/-- The axes of the torus (R365). -/
inductive Axis where
  | x
  | y
  | z
  deriving DecidableEq, Repr

/-- An identity exchange message (R391); `addr` is none when the far end has no address (R368), and
`joined` marks a far end whose member set has formed (R398). -/
structure IdentityMsg where
  addr : Option Nat
  sx : Nat
  sy : Nat
  sz : Nat
  bundle : Nat
  port : Nat
  devid : BitVec 64
  joined : Bool
  deriving DecidableEq, Repr

/-- One bundle's state in a link-state record: 0 up, 1 down, 2 unused, and its verified ports. -/
structure BundleState where
  state : Nat
  verified : Nat
  deriving DecidableEq, Repr

/-- A link-state record (R389). -/
structure LinkState where
  addr : Nat
  seq : BitVec 32
  devid : BitVec 64
  bundles : List BundleState
  deriving DecidableEq, Repr

/-- A message of a barrier's chain or broadcast along one axis (R392, R395, R603). `set` is the bitmap
as an ascending list of addresses; a readiness barrier carries none. -/
structure BarrierMsg where
  axis : Axis
  bcast : Bool
  src : Nat
  set : List Nat
  deriving DecidableEq, Repr

/-- A join notice (R603). -/
structure JoinNotice where
  addr : Nat
  devid : BitVec 64
  sx : Nat
  sy : Nat
  sz : Nat
  cls : Nat
  major : Nat
  deriving DecidableEq, Repr

/-- What reaches a device of a join notice: the notice itself on a bundle, or, at the LATE device, a
member neighbour's reply with the member set (R603). -/
inductive JoinMsg where
  | notice (n : JoinNotice) (bundle : Nat)
  | reply (members : List Nat)
  deriving DecidableEq, Repr

/-- One plan's entry of a continuity record (R605): the range-policy word and the escalated
descriptors with their formats (TD_FORMAT in bits [3:0], SCALE_MODE in bits [5:4]). -/
structure ContinuityPlan where
  lsExp : Int
  clean : Nat
  formats : List (Nat × Nat)
  deriving DecidableEq, Repr

/-- A donor's continuity record (R605), with the donor's device ring (R604). -/
structure Continuity where
  ring : Nat
  stamp : BitVec 64
  plans : List ContinuityPlan
  deriving DecidableEq, Repr

/-- A step verdict (R337); the check word is formed when it is written as bytes. -/
structure Verdict where
  ring : Nat
  round : Nat
  sumsq : Nat
  nonfinite : Nat
  unsealed : Nat
  twinMiss : Nat
  diverged : Nat
  devices : Nat
  modeLo : Nat
  modeHi : Nat
  hold : Nat
  holdCode : Nat
  clip : Nat
  deriving DecidableEq, Repr

/-- A watch entry (R340). -/
structure WatchEntry where
  plan : Nat
  size : Nat
  desc : Nat
  sat : Nat
  conv : Nat
  deriving DecidableEq, Repr

/-- A verdict on one axis with the watch list that follows it in round 0 (R339, R341). -/
structure VerdictMsg where
  axis : Axis
  bcast : Bool
  src : Nat
  v : Verdict
  watch : List WatchEntry
  deriving DecidableEq, Repr

/-- A message of the verdict's context: a verdict, or a part of the watch list that follows one of round 0, the last part marked
(R341, R419). DESIGN CHOICE, log 39. -/
inductive VerdictPart where
  | verdict (axis : Axis) (bcast : Bool) (src : Nat) (v : Verdict)
  | watch (axis : Axis) (bcast : Bool) (src : Nat) (es : List WatchEntry) (last : Bool)
  deriving DecidableEq, Repr

/-- Traffic of the referee and of a twin repair (R315, R345, R354): a request for a shard's committed slot at a ring and its
g_red, data that arrives back (the committed slot whole, the g_red area and the
segment records of the pending slot, and the pending blaze), a referee's result or that the twins agree, or the winner's
pending slot. -/
inductive RefereeMsg where
  | request (src shard ring : Nat)
  | data (src shard : Nat) (selRing : Nat) (slot pendCtl gred : Bytes) (blaze : BitVec 64)
  | poisoned (src shard : Nat)
  | result (shard : Nat) (winner : Option Nat)
  | agreed (shard : Nat)
  | winnerSlot (src shard : Nat) (slot : Bytes)
  deriving DecidableEq, Repr

/-- A resuming device's request for the last verdicts, or a neighbour's answer: each verdict with
whether it allowed commit (R355). -/
inductive HistoryMsg where
  | request (src : Nat)
  | answer (src : Nat) (vs : List Verdict)
  deriving DecidableEq, Repr

/-- A piece of a tile move: address and length in bytes (R245). -/
structure Piece where
  va : Nat
  len : Nat
  deriving DecidableEq, Repr

/-- Pieces of the tile records that one row stripe of a task's instance uses (R148, R149). -/
structure StripePieces where
  stripe : Nat
  pieces : List Piece
  deriving DecidableEq, Repr

/-- One transfer of a bridge group (R30 to R32). -/
structure BridgeTransfer where
  group : Fin 16
  transfer : Nat
  deriving DecidableEq, Repr

/-- Where an instance or a block runs (R18, R105): Grove and task context. -/
structure Place where
  grove : Fin 192
  task : Fin 4
  deriving DecidableEq, Repr

/-- The consumer of a flow context's messages, which their bytes do not name: the chain reductions and gathers, with
which of its shard's gathers a gather message belongs to (DEDUCED, log 28), or a peer MOVE, with the tile's destination address
(R206). -/
inductive Delivery where
  | chain (gather : Nat)
  | tile (va : Nat)
  deriving DecidableEq, Repr

/-- What the destination of a flow context says of it beside an FL_CSEQ: that it is the next one expected, with the credits
it returns (R384, R385); that the message which began there failed its CRC and is to be sent again (R386); that no context
was free for the flit (R383); that the context has failed there (R387). DEDUCED, log 161. -/
inductive E2eMsg where
  | ack (credits : Nat)
  | resend
  | refused
  | failed
  deriving DecidableEq, Repr

/-- What a decode lane's codec gives for the streams a sample uses (R427): pixels or elements are
computed by the model; this says how many local ticks the lane worked (R435). -/
structure LaneResult where
  ticks : Nat
  deriving DecidableEq, Repr

/-- The commands and events, one constructor per row of the operation table. -/
inductive Instr where
  /-- MBX_OWN_WRITE, R487. -/
  | mbxOwnWrite (slot : SlotId)
  /-- SLOT_WRITE, R486: an access to BAR0 (host) or to the core slot area (core) at a byte address. -/
  | slotWrite (by_ : Issuer) (addr : Nat) (acc : Access)
  /-- HELLO, R512. -/
  | hello (slot : SlotId)
  /-- INFO, R507. -/
  | info (slot : SlotId)
  /-- QUERY, R501. -/
  | query (slot : SlotId)
  /-- ABORT, R515. -/
  | abort (slot : SlotId)
  /-- DEVICE_RESET with DR_KIND CONTEXT, R516. -/
  | deviceResetContext (slot : SlotId)
  /-- DEVICE_RESET with DR_KIND WARM, R516; the start-up inputs of the warm reset it runs. -/
  | deviceResetWarm (slot : SlotId) (inp : StartInputs)
  /-- REGION_CREATE, R187. -/
  | regionCreate (slot : SlotId)
  /-- REGION_REGISTER, R460. -/
  | regionRegister (slot : SlotId)
  /-- BIAS_SET to shared, R258. -/
  | biasSetShared (slot : SlotId)
  /-- BIAS_SET to device, R259. -/
  | biasSetDevice (slot : SlotId)
  /-- BACK_INVALIDATE_ANSWER, R256: host physical address of the line, data if the copy was modified. -/
  | backInvalidateAnswer (hpa : Nat) (data : Option Bytes)
  /-- OBJECT_PIN, R198. -/
  | objectPin (slot : SlotId)
  /-- MAP, R236. -/
  | map (slot : SlotId)
  /-- UNMAP, R241. -/
  | unmap (slot : SlotId)
  /-- REGION_INFO, R252. -/
  | regionInfo (slot : SlotId)
  /-- PLAN_LOAD, R520. -/
  | planLoad (slot : SlotId)
  /-- PLAN_DROP, R330. -/
  | planDrop (slot : SlotId)
  /-- STEP_SUBMIT, R331. -/
  | stepSubmit (slot : SlotId)
  /-- STEP_REPLAY, R357. -/
  | stepReplay (slot : SlotId)
  /-- MODE_SCHEDULE, R348. -/
  | modeSchedule (slot : SlotId)
  /-- RING_QUERY, R524. -/
  | ringQuery (slot : SlotId)
  /-- STEP_RECORD, R525. -/
  | stepRecord (slot : SlotId)
  /-- SHARD_DEFINE, R275. -/
  | shardDefine (slot : SlotId)
  /-- STATE_EXPORT, R286. -/
  | stateExport (slot : SlotId)
  /-- STATE_IMPORT, R287. -/
  | stateImport (slot : SlotId)
  /-- SHARD_REPAIR, R529. -/
  | shardRepair (slot : SlotId)
  /-- BLAZE_READ, R301. -/
  | blazeRead (slot : SlotId)
  /-- GLADE_SOURCE, R422. -/
  | gladeSource (slot : SlotId)
  /-- GLADE_DISPOSE with GD_ACTION 0, R441. -/
  | gladeDisposeSet (slot : SlotId)
  /-- GLADE_DISPOSE with GD_ACTION 1, R441. -/
  | gladeDisposeSubstitute (slot : SlotId)
  /-- GLADE_STATS, R507. -/
  | gladeStats (slot : SlotId)
  /-- FABRIC_STATUS, R402. -/
  | fabricStatus (slot : SlotId)
  /-- FABRIC_MAP_LOAD, R401. -/
  | fabricMapLoad (slot : SlotId)
  /-- PORT_INFO, R507. -/
  | portInfo (slot : SlotId)
  /-- DMA_SUBMIT, R483. -/
  | dmaSubmit (slot : SlotId)
  /-- DMA_STATUS, R474. -/
  | dmaStatus (slot : SlotId)
  /-- CTR_CONFIG, R615. -/
  | ctrConfig (slot : SlotId)
  /-- CTR_SNAPSHOT, R619. -/
  | ctrSnapshot (slot : SlotId)
  /-- TRACE_CONFIG with TC_ACTION SET, R629. -/
  | traceSet (slot : SlotId)
  /-- TRACE_CONFIG with TC_ACTION STOP, R629. -/
  | traceStop (slot : SlotId)
  /-- TRACE_CONFIG with TC_ACTION COPY, R629. -/
  | traceCopy (slot : SlotId)
  /-- SAMPLE_CONFIG with SC_EN 1, R624. -/
  | sampleStart (slot : SlotId)
  /-- SAMPLE_CONFIG with SC_EN 0, R624. -/
  | sampleStop (slot : SlotId)
  /-- ATTEST, R595. -/
  | attest (slot : SlotId)
  /-- ID_READ, R601: what the source's bus answers, none when no memory answers. -/
  | idRead (slot : SlotId) (answer : Option Bytes)
  /-- FW_STAGE, R590. -/
  | fwStage (slot : SlotId)
  /-- FW_ACTIVATE, R591; the start-up inputs of the warm reset it runs. -/
  | fwActivate (slot : SlotId) (inp : StartInputs)
  /-- CORES_LOAD, R545. -/
  | coresLoad (slot : SlotId)
  /-- CORES_START, R546. -/
  | coresStart (slot : SlotId)
  /-- CORES_STOP, R547. -/
  | coresStop (slot : SlotId)
  /-- PWRGD_RISE, R571. -/
  | pwrgdRise
  /-- PWRGD_FALL, R576. -/
  | pwrgdFall
  /-- RESET_N_RISE, R571. -/
  | resetNRise (inp : StartInputs)
  /-- START_BOUND_EXCEEDED, R573: the units concerned. -/
  | startBoundExceeded (units : List SelfTestEntry)
  /-- WARM_RESET, R577: RESET_N has been low for 10 µs. -/
  | warmReset
  /-- THERMAL_TRIP, R561: the block and its junction temperature in units of 0.125 °C. -/
  | thermalTrip (b : ThermalBlock) (temp : Nat)
  /-- THERMAL_RESTORE, R561. -/
  | thermalRestore (b : ThermalBlock) (temp : Nat)
  /-- THERMAL_CRITICAL, R563. -/
  | thermalCritical (b : ThermalBlock) (temp : Nat)
  /-- LOW_POWER_ENTRY, R554. -/
  | lowPowerEntry (b : LowPowerBlock)
  /-- STACK_SELF_REFRESH_ENTRY, R220. -/
  | stackSelfRefreshEntry (n : Fin 24)
  /-- HOST_PERST_ASSERT, R569. -/
  | hostPerstAssert
  /-- HOST_LINK_RETRAIN, R467: the width after the recovery. -/
  | hostLinkRetrain (width : Nat)
  /-- HOST_LINK_LOSS, R469. -/
  | hostLinkLoss (cause : LinkLossCause)
  /-- HOST_LINK_UP, R575: the trained width. -/
  | hostLinkUp (width : Nat)
  /-- HDM_DECODER_COMMIT, R456: base and interleave ways. -/
  | hdmDecoderCommit (base ways : Nat)
  /-- HOST_HDM_ACCESS, R457: host physical address of a line; `caching` when a read takes a copy. -/
  | hostHdmAccess (hpa : Nat) (caching : Bool) (acc : Access)
  /-- HOST_SNOOP, R265: host physical address of a line; `inv` when the snoop invalidates. -/
  | hostSnoop (hpa : Nat) (inv : Bool)
  /-- COHERENCE_REQUEST, R264: the agent, the region and offset of the access, and what it asks. -/
  | coherenceRequest (who : CohAgent) (region off : Nat) (op : CohOp)
  /-- BAR2_WINDOW_ACCESS, R462: the requester id, the window offset and the access. -/
  | bar2WindowAccess (requester : Nat) (off : Nat) (acc : Access)
  /-- ADAPTER_WINDOW_ACCESS, R465: the port, the bus address and the access. -/
  | adapterWindowAccess (port : Fin 4) (addr : Nat) (acc : Access)
  /-- ADAPTER_INTERRUPT_MSG, R549: the port, the core physical address and the data word. -/
  | adapterInterruptMsg (port : Fin 4) (addr data : Nat)
  /-- ADAPTER_LINK_DOWN, R466. -/
  | adapterLinkDown (port : Fin 4)
  /-- ADAPTER_PERST_TIMEOUT, R635. -/
  | adapterPerstTimeout (port : Fin 4)
  /-- ADAPTER_LINK_UP, R635: width and lane rate trained. -/
  | adapterLinkUp (port : Fin 4) (width rate : Nat)
  /-- BRIDGE_CRC_FAIL, R30: the group and the transfer that has failed its CRC. -/
  | bridgeCrcFail (failed : BridgeTransfer)
  /-- MATMUL, R100: operation, micro-batch and where its blocks run. -/
  | matmul (op mb : Nat) (places : List Place)
  /-- CONV, R142. -/
  | conv (op mb : Nat) (places : List Place)
  /-- POOL, R152. -/
  | pool (op mb : Nat) (place : Place)
  /-- BOXDECODE, R159. -/
  | boxDecode (op mb : Nat) (place : Place)
  /-- SUPPRESS, R161. -/
  | suppress (op mb : Nat) (place : Place)
  /-- SAPLING_CONV, R156: the engines over which the primary Ranger spreads it (R158). -/
  | saplingConv (op mb : Nat) (engines : List (Fin 4))
  /-- VECTOR in ELEMENTWISE mode, R169. -/
  | vectorElementwise (op mb : Nat) (place : Place)
  /-- VECTOR in REDUCE mode, R170. -/
  | vectorReduce (op mb : Nat) (place : Place)
  /-- VECTOR in GATHER mode, R171. -/
  | vectorGather (op mb : Nat) (place : Place)
  /-- VECTOR in SCATTER mode, R171. -/
  | vectorScatter (op mb : Nat) (place : Place)
  /-- ACT_BACKWARD, R179. -/
  | actBackward (op mb : Nat) (place : Place)
  /-- GRAD_GATHER, R182. -/
  | gradGather (op mb : Nat) (place : Place)
  /-- CHAIN_REDUCE, R408. -/
  | chainReduce (op : Nat) (place : Place)
  /-- ALLGATHER, R416. -/
  | allGather (op : Nat)
  /-- VERDICT, R419. -/
  | verdict (op : Nat)
  /-- ARRIVAL_UPDATE, R299. -/
  | arrivalUpdate (op : Nat) (place : Place)
  /-- GLADE_BATCH, R434. -/
  | gladeBatch (op mb : Nat)
  /-- MOVE, R205; `data` is what the peer answers to a peer MOVE: IN0's pieces, or that it has taken the tiles; an empty
  list is its refusal (R206). -/
  | move (op mb : Nat) (data : Option (List Bytes))
  /-- PREFETCH, R208. -/
  | prefetch (op mb : Nat)
  /-- INSTANCE_COMPLETE, R326. -/
  | instanceComplete (op mb : Nat)
  /-- PASS, R87: the block, its segment and the Grove and task that issue it. -/
  | pass (op mb block seg : Nat) (place : Place)
  /-- SEGMENT_COMBINE, R102. -/
  | segmentCombine (op mb block : Nat)
  /-- OUTPUT_STAGE_DRAIN, R129. -/
  | outputStageDrain (op mb block : Nat)
  /-- TILE_MOVE, R246: the Grove and task, the instance, a store or a load, and the pieces of a stripe. -/
  | tileMove (place : Place) (op mb : Nat) (store : Bool) (work : StripePieces)
  /-- WALK_COMPLETE, R234: the translation cache (0 to 191 Groves, 192 East, 193 West) and the address. -/
  | walkComplete (cache va : Nat) (store : Bool)
  /-- DEMAND_FAULT_RESOLVE, R248. -/
  | demandFaultResolve (va : Nat)
  /-- TILE_MOVE_COMPLETE, R185: the ECC outcome of each piece's lines and the latencies in Floor cycles. -/
  | tileMoveComplete (place : Place) (ecc : List Ecc) (lat xlat : Nat)
  /-- MIGRATION_COPY_DONE, R195: region and page. -/
  | migrationCopyDone (region page : Nat)
  /-- PREFETCH_FETCH, R201: the task whose prefetch runs, the instance and the tile records' pieces of a stripe. -/
  | prefetchFetch (place : Place) (op mb : Nat) (work : StripePieces)
  /-- WC_DRAIN_AGE, R217: the memory line whose entry is old. -/
  | wcDrainAge (region off : Nat)
  /-- MEMORY_SIDE_ADD, R214: region, offset, element format and the addend's code. -/
  | memorySideAdd (region off : Nat) (fmt : AddFmt) (v : Nat)
  /-- HEAT_DECAY, R194. -/
  | heatDecay
  /-- BANDWIDTH_WINDOW, R212: per controller the partition of each waiting request in arrival order. -/
  | bandwidthWindow (waiting : List (Nat × List Nat))
  /-- PATROL_SCRUB, R222: the stack and the lines read (region, offset) with their ECC outcome; a region that does not
  exist stands for a line outside every region. -/
  | patrolScrub (stack : Fin 24) (lines : List (Nat × Nat × Ecc))
  /-- STEP_START, R332. -/
  | stepStart
  /-- VOTE_RECORD_WRITE, R336: the blazes that the other twin of shards held here has reported (R278). -/
  | voteRecordWrite (twins : List (Nat × BitVec 64))
  /-- VERDICT_MESSAGE, R338. -/
  | verdictMessage (m : VerdictPart)
  /-- VERDICT_TIMEOUT, R343. -/
  | verdictTimeout
  /-- HOLD_NOTICE, R634: ring, attempt, round and the bundle it came on. -/
  | holdNotice (ring attempt round bundle : Nat)
  /-- SEGMENT_UPDATE_DONE, R299: shard and segment. -/
  | segmentUpdateDone (shard seg : Nat)
  /-- CHAIN_MESSAGE, R412: header and payload bytes as R411 lays them out. -/
  | chainMessage (msg : Bytes)
  /-- GATHER_REQUEST, R416: requesting member, shard, attempt and the ring gathered, and which of the shard's gathers
  (DEDUCED, log 28). -/
  | gatherRequest (src shard attempt ring gather : Nat)
  /-- GATHER_MESSAGE, R417: which of the shard's gathers (DEDUCED, log 28), header and payload bytes as R411 lays them out. -/
  | gatherMessage (gather : Nat) (msg : Bytes)
  /-- PEER_READ_REQUEST, R421: requester, ring of the requesting step, address and length. -/
  | peerReadRequest (src ring va len : Nat)
  /-- FLIT_RECEIVE, R374: the port, the 256 bytes, and what the FEC reports for the codewords and lanes. -/
  | flitReceive (port : Fin 36) (flit : Bytes) (corrected uncorrectable : Nat) (laneErr : List Nat)
  /-- NAK_RECEIVE, R375: the FL_SEQ named. -/
  | nakReceive (port : Fin 36) (seq : BitVec 8)
  /-- FLIT_ACK_TIMEOUT, R375. -/
  | flitAckTimeout (port : Fin 36)
  /-- RETRAIN_TIMEOUT, R376. -/
  | retrainTimeout (port : Fin 36)
  /-- PORT_RETRY_TIMER, R377. -/
  | portRetryTimer (port : Fin 36)
  /-- PORT_TRAINED, R394. -/
  | portTrained (port : Fin 36)
  /-- PORT_PROBATION_END, R377. -/
  | portProbationEnd (port : Fin 36)
  /-- IDENTITY_EXCHANGE, R391. -/
  | identityExchange (port : Fin 36) (far : IdentityMsg)
  /-- UNVERIFIED_RETRY, R368. -/
  | unverifiedRetry (port : Fin 36)
  /-- LINK_STATE_RECORD, R389: the record and the bundle it arrives on. -/
  | linkStateRecord (bundle : Nat) (r : LinkState)
  /-- DISCOVERY_FLOOD_TIMEOUT, R392. -/
  | discoveryFloodTimeout
  /-- READINESS_BARRIER_MESSAGE, R392. -/
  | readinessBarrierMessage (m : BarrierMsg)
  /-- PARTIAL_WAIT_EXPIRY, R395. -/
  | partialWaitExpiry
  /-- PARTIAL_BARRIER_MESSAGE, R395. -/
  | partialBarrierMessage (m : BarrierMsg)
  /-- FLOW_MESSAGE_COMPLETE, R386: source, context, and the consumer of what the context carries. -/
  | flowMessageComplete (src ctx : Nat) (dest : Delivery)
  /-- E2E_ACK, R385: the context, an FL_CSEQ, and what the destination says of it. -/
  | e2eAck (ctx cseq : Nat) (m : E2eMsg)
  /-- CONTEXT_STALL_TIMEOUT, R385. -/
  | contextStallTimeout (ctx : Nat)
  /-- JOIN_NOTICE, R603. -/
  | joinNotice (m : JoinMsg)
  /-- JOIN_BARRIER_MESSAGE, R604. -/
  | joinBarrierMessage (m : BarrierMsg)
  /-- JOIN_RETRY_TIMER, R604. -/
  | joinRetryTimer
  /-- CONTINUITY_RECORD, R605. -/
  | continuityRecord (r : Continuity)
  /-- DMA_CHUNK, R475. -/
  | dmaChunk (ch : Fin 128)
  /-- DMA_TRANSFER_END, R479. -/
  | dmaTransferEnd (ch : Fin 128)
  /-- MANIFEST_READY, R424. -/
  | manifestReady (source ring : Nat)
  /-- GLADE_PREPARE_STEP, R433. -/
  | gladePrepareStep (source ring : Nat)
  /-- GLADE_LANE_START, R432. -/
  | gladeLaneStart (lane : Fin 32) (source : Nat)
  /-- SAMPLE_DONE, R432. -/
  | sampleDone (lane : Fin 32) (r : LaneResult)
  /-- SAMPLE_ABANDON, R436. -/
  | sampleAbandon (lane : Fin 32)
  /-- RELEASE_WORD, R449: the GLADE_BATCH instance. -/
  | releaseWord (op mb : Nat)
  /-- CORE_IO_ACCESS, R541. -/
  | coreIoAccess (core : Fin 96) (pa : Nat) (acc : CoreAccess)
  /-- CORE_TIMER_COMPARE, R550. -/
  | coreTimerCompare (core : Fin 96) (which : TimerCmp)
  /-- CORE_WFI, R548. -/
  | coreWfi (core : Fin 96)
  /-- UNIT_FAILURE, R44. -/
  | unitFailure (u : UnitRef)
  /-- DISCOVERY_BOUND_EXPIRY, R394: the discovery step whose bound runs out. -/
  | discoveryBoundExpiry (step : Nat)
  /-- FLOW_ACK_INTERVAL, R385: the receive context's source and number. -/
  | flowAckInterval (src ctx : Nat)
  /-- HOST_PORT_DOWN_AT_START, R452. -/
  | hostPortDownAtStart
  /-- HOST_PERST_RELEASE, R575. -/
  | hostPerstRelease
  /-- REFEREE_FETCH, R354. -/
  | refereeFetch (m : RefereeMsg)
  /-- VERDICT_HISTORY_REQUEST, R355. -/
  | verdictHistoryRequest (m : HistoryMsg)
  deriving DecidableEq, Repr

end Sys2Proof
end

