-- ==== Sys2Proof/Decode.lean ====
section
/-! DEFINITION. Words of the operation table. No row of spec/opcode_table.json gives bits: the block's
operations are named commands and events, not instruction words. -/

namespace Sys2Proof

/-- The command that a word spells by the table's bits: none, since no row has bits. DEDUCED, log 31. -/
def decodeTableWord (_nbits _w : Nat) : Option Instr := none

end Sys2Proof
end

