-- ==== Sys2Proof/Machine/Bits.lean ====
section
/-! DEFINITION. Byte order, bit fields and the sparse byte store. Little-endian throughout (R6). -/

namespace Sys2Proof.Machine

/-- The number a byte string spells, lowest address first (R6). -/
def leNat : Bytes → Nat
  | [] => 0
  | b :: r => b.toNat + 256 * leNat r

/-- `n` bytes that spell `v` modulo `256 ^ n`, lowest address first (R6). -/
def leBytes : Nat → Nat → Bytes
  | 0, _ => []
  | n + 1, v => BitVec.ofNat 8 v :: leBytes n (v / 256)

/-- `n` zero bytes. -/
def zeros (n : Nat) : Bytes := List.replicate n 0#8

/-- Bits `[hi:lo]` of a number. -/
def bits (v hi lo : Nat) : Nat := v / 2 ^ lo % 2 ^ (hi + 1 - lo)

/-- Bit `i` of a number. -/
def bit (v i : Nat) : Bool := v / 2 ^ i % 2 == 1

/-- A flag as a number. -/
def b2n (b : Bool) : Nat := if b then 1 else 0

/-- The field of `n` bytes at offset `off` of a byte string; bytes beyond the end read as zero. -/
def fld (l : Bytes) (off n : Nat) : Nat := leNat ((l.drop off).take n)

/-- One byte of a byte string, as a number; zero beyond the end. -/
def byteAt (l : Bytes) (off : Nat) : Nat := (l.getD off 0#8).toNat

/-- Every byte of the part of `l` from `off` on, `n` bytes long, is zero. -/
def allZero (l : Bytes) (off n : Nat) : Bool := ((l.drop off).take n).all (· == 0#8)

/-- A byte string cut or padded with zeros to `n` bytes. -/
def padTo (n : Nat) (l : Bytes) : Bytes := l.take n ++ zeros (n - l.length)

/-- `l` with the bytes of `d` written over it from offset `off` on. -/
def overlay (l : Bytes) (off : Nat) (d : Bytes) : Bytes :=
  l.take off ++ d ++ l.drop (off + d.length)

/-- The numbers `lo`, `lo + 1`, … below `lo + n`. -/
def upFrom (lo n : Nat) : List Nat := (List.range n).map (lo + ·)

/-- `a / b` rounded up. -/
def ceilDiv (a b : Nat) : Nat := (a + b - 1) / b

/-- `a` rounded up to a multiple of `b`. -/
def roundUp (a b : Nat) : Nat := ceilDiv a b * b

/-- Inserts an element into a list sorted by a key, after the elements whose key is not above its own. -/
def insertBy {α : Type} (key : α → Nat) (x : α) : List α → List α
  | [] => [x]
  | y :: r => if key x < key y then x :: y :: r else y :: insertBy key x r

/-- A list sorted by a key, equal keys in their order. -/
def sortBy {α : Type} (key : α → Nat) : List α → List α := fun l => l.foldl (fun acc x => insertBy key x acc) []

/-! ### The sparse byte store

A store is a list of (address, byte) pairs with strictly rising addresses and no zero byte; an address
that is not listed reads as zero. Equal stores are equal lists. -/

/-- A sparse byte store. -/
abbrev Store := List (Nat × Byte)

/-- The canonical form: addresses strictly rising, no zero byte listed. -/
def Store.wfFrom : Nat → Store → Bool
  | _, [] => true
  | lo, (a, b) :: r => decide (lo ≤ a) && b != 0#8 && Store.wfFrom (a + 1) r

/-- The canonical form of a whole store. -/
def Store.wf (m : Store) : Bool := Store.wfFrom 0 m

/-- The byte at an address. -/
def Store.read : Store → Nat → Byte
  | [], _ => 0#8
  | (a, b) :: r, x => if x == a then b else if x < a then 0#8 else Store.read r x

/-- The byte at an address becomes `v`; writing zero removes the entry. -/
def Store.write : Store → Nat → Byte → Store
  | [], x, v => if v == 0#8 then [] else [(x, v)]
  | (a, b) :: r, x, v =>
    if x < a then (if v == 0#8 then (a, b) :: r else (x, v) :: (a, b) :: r)
    else if x == a then (if v == 0#8 then r else (a, v) :: r)
    else (a, b) :: Store.write r x v

/-- `n` bytes from address `x` on. -/
def Store.readN (m : Store) (x : Nat) : Nat → Bytes
  | 0 => []
  | n + 1 => m.read x :: m.readN (x + 1) n

/-- A byte string written from address `x` on. -/
def Store.writeN (m : Store) (x : Nat) : Bytes → Store
  | [] => m
  | b :: r => Store.writeN (m.write x b) (x + 1) r

/-- Every byte of `[lo, lo + n)` becomes zero. -/
def Store.zero (m : Store) (lo n : Nat) : Store := m.filter fun c => !(decide (lo ≤ c.1) && decide (c.1 < lo + n))

end Sys2Proof.Machine
end

