-- ==== Sys2Proof/Machine/Crypto.lean ====
section
/-! DEFINITION. The checksums and the cryptography the spec names by their standards: CRC-32C,
CRC-64 (R301), SHA-512 (FIPS 180-4, R585) and pure Ed25519 (RFC 8032, R587, R596). PRESUMED where a
standard that the spec only names gives the constants (PRESUMED, log 5). -/

namespace Sys2Proof.Machine

/-- A function of a number; an evaluator has the number before it goes on. -/
def eager {α : Type} (n : Nat) (f : Nat → α) : α :=
  match n with
  | 0 => f 0
  | k + 1 => f (k + 1)

theorem eager_eq {α : Type} (n : Nat) (f : Nat → α) : eager n f = f n := by cases n <;> rfl

/-! ### Cyclic redundancy checks -/

/-- Eight shift steps of a reflected 32-bit CRC. -/
def crc32Shift : Nat → Nat → Nat
  | 0, c => c
  | n + 1, c => crc32Shift n (if c % 2 = 1 then (c / 2) ^^^ 0x82F63B78 else c / 2)

/-- CRC-32C register update over a byte string (Castagnoli polynomial, reflected). -/
def crc32cUpd : Nat → Bytes → Nat
  | c, [] => c
  | c, b :: r => eager (crc32Shift 8 (c ^^^ b.toNat)) fun x => crc32cUpd x r

/-- CRC-32C of a byte string: register starts at all ones, result complemented. -/
def crc32c (l : Bytes) : Nat := crc32cUpd 0xFFFFFFFF l ^^^ 0xFFFFFFFF

/-- Eight shift steps of an unreflected 64-bit CRC with polynomial 0x42F0_E1EB_A9EA_3693. -/
def crc64Shift : Nat → Nat → Nat
  | 0, c => c
  | n + 1, c =>
    crc64Shift n (if c / 2 ^ 63 = 1 then (c * 2 % 2 ^ 64) ^^^ 0x42F0E1EBA9EA3693 else c * 2)

/-- CRC-64 register update over a byte string. -/
def crc64Upd : Nat → Bytes → Nat
  | c, [] => c
  | c, b :: r => eager (crc64Shift 8 (c ^^^ (b.toNat * 2 ^ 56))) fun x => crc64Upd x r

/-- The blaze digest: CRC-64 with the register starting at all ones and the result complemented (R301). -/
def crc64 (l : Bytes) : Nat := crc64Upd (2 ^ 64 - 1) l ^^^ (2 ^ 64 - 1)

/-! ### SHA-512 (FIPS 180-4) -/

/-- SHA-512 round constants 0 to 19. -/
def sha512K0 : List Nat :=
  [0x428a2f98d728ae22, 0x7137449123ef65cd, 0xb5c0fbcfec4d3b2f, 0xe9b5dba58189dbbc,
   0x3956c25bf348b538, 0x59f111f1b605d019, 0x923f82a4af194f9b, 0xab1c5ed5da6d8118,
   0xd807aa98a3030242, 0x12835b0145706fbe, 0x243185be4ee4b28c, 0x550c7dc3d5ffb4e2,
   0x72be5d74f27b896f, 0x80deb1fe3b1696b1, 0x9bdc06a725c71235, 0xc19bf174cf692694,
   0xe49b69c19ef14ad2, 0xefbe4786384f25e3, 0x0fc19dc68b8cd5b5, 0x240ca1cc77ac9c65]

/-- SHA-512 round constants 20 to 39. -/
def sha512K1 : List Nat :=
  [0x2de92c6f592b0275, 0x4a7484aa6ea6e483, 0x5cb0a9dcbd41fbd4, 0x76f988da831153b5,
   0x983e5152ee66dfab, 0xa831c66d2db43210, 0xb00327c898fb213f, 0xbf597fc7beef0ee4,
   0xc6e00bf33da88fc2, 0xd5a79147930aa725, 0x06ca6351e003826f, 0x142929670a0e6e70,
   0x27b70a8546d22ffc, 0x2e1b21385c26c926, 0x4d2c6dfc5ac42aed, 0x53380d139d95b3df,
   0x650a73548baf63de, 0x766a0abb3c77b2a8, 0x81c2c92e47edaee6, 0x92722c851482353b]

/-- SHA-512 round constants 40 to 59. -/
def sha512K2 : List Nat :=
  [0xa2bfe8a14cf10364, 0xa81a664bbc423001, 0xc24b8b70d0f89791, 0xc76c51a30654be30,
   0xd192e819d6ef5218, 0xd69906245565a910, 0xf40e35855771202a, 0x106aa07032bbd1b8,
   0x19a4c116b8d2d0c8, 0x1e376c085141ab53, 0x2748774cdf8eeb99, 0x34b0bcb5e19b48a8,
   0x391c0cb3c5c95a63, 0x4ed8aa4ae3418acb, 0x5b9cca4f7763e373, 0x682e6ff3d6b2b8a3,
   0x748f82ee5defb2fc, 0x78a5636f43172f60, 0x84c87814a1f0ab72, 0x8cc702081a6439ec]

/-- SHA-512 round constants 60 to 79. -/
def sha512K3 : List Nat :=
  [0x90befffa23631e28, 0xa4506cebde82bde9, 0xbef9a3f7b2c67915, 0xc67178f2e372532b,
   0xca273eceea26619c, 0xd186b8c721c0c207, 0xeada7dd6cde0eb1e, 0xf57d4f7fee6ed178,
   0x06f067aa72176fba, 0x0a637dc5a2c898a6, 0x113f9804bef90dae, 0x1b710b35131c471b,
   0x28db77f523047d84, 0x32caab7b40c72493, 0x3c9ebe0a15c9bebc, 0x431d67c49c100d4c,
   0x4cc5d4becb3e42b6, 0x597f299cfc657e2a, 0x5fcb6fab3ad6faec, 0x6c44198c4a475817]

/-- The eighty SHA-512 round constants. -/
def sha512K : List Nat := sha512K0 ++ sha512K1 ++ sha512K2 ++ sha512K3

/-- The SHA-512 initial hash value. -/
def sha512H0 : List Nat :=
  [0x6a09e667f3bcc908, 0xbb67ae8584caa73b, 0x3c6ef372fe94f82b, 0xa54ff53a5f1d36f1,
   0x510e527fade682d1, 0x9b05688c2b3e6c1f, 0x1f83d9abfb41bd6b, 0x5be0cd19137e2179]

/-- 64-bit rotate right. -/
def ror64 (x n : Nat) : Nat := (x >>> n) ||| (x <<< (64 - n) % 2 ^ 64)

/-- 64-bit complement. -/
def not64 (x : Nat) : Nat := 2 ^ 64 - 1 - x

/-- One SHA-512 round over the working variables. -/
def shaRound (v : List Nat) (kw : Nat × Nat) : List Nat :=
  match v with
  | [a, b, c, d, e, f, g, h] =>
    let t1 := h + (ror64 e 14 ^^^ ror64 e 18 ^^^ ror64 e 41) + ((e &&& f) ^^^ (not64 e &&& g)) + kw.1 + kw.2
    let t2 := (ror64 a 28 ^^^ ror64 a 34 ^^^ ror64 a 39) + ((a &&& b) ^^^ (a &&& c) ^^^ (b &&& c))
    [(t1 + t2) % 2 ^ 64, a, b, c, (d + t1) % 2 ^ 64, e, f, g]
  | v => v

/-- Extends a message schedule held newest first by `n` words. -/
def shaExtend : Nat → List Nat → List Nat
  | 0, w => w
  | n + 1, w =>
    let w2 := w.getD 1 0
    let w15 := w.getD 14 0
    let s1 := ror64 w2 19 ^^^ ror64 w2 61 ^^^ (w2 >>> 6)
    let s0 := ror64 w15 1 ^^^ ror64 w15 8 ^^^ (w15 >>> 7)
    shaExtend n ((s1 + w.getD 6 0 + s0 + w.getD 15 0) % 2 ^ 64 :: w)

/-- The number a byte string spells, highest byte first. -/
def beNat (l : Bytes) : Nat := leNat l.reverse

/-- `n` bytes that spell `v`, highest byte first. -/
def beBytes (n v : Nat) : Bytes := (leBytes n v).reverse

/-- The sixteen words of a 128-byte block, newest first. -/
def shaWords (n : Nat) (l : Bytes) (acc : List Nat) : List Nat :=
  match n with
  | 0 => acc
  | n + 1 => shaWords n (l.drop 8) (beNat (l.take 8) :: acc)

/-- The hash value after one 128-byte block. -/
def shaBlock (h : List Nat) (blk : Bytes) : List Nat :=
  let w := (shaExtend 64 (shaWords 16 blk [])).reverse
  List.zipWith (fun x y => (x + y) % 2 ^ 64) h ((sha512K.zip w).foldl shaRound h)

/-- The hash value after `n` blocks. -/
def shaBlocks : Nat → List Nat → Bytes → List Nat
  | 0, h, _ => h
  | n + 1, h, l => shaBlocks n (shaBlock h (l.take 128)) (l.drop 128)

/-- SHA-512 of a byte string: 64 bytes. -/
def sha512 (l : Bytes) : Bytes :=
  let len := l.length
  let blocks := (len + 17 + 127) / 128
  let m := l ++ 0x80#8 :: (zeros (blocks * 128 - len - 17) ++ beBytes 16 (8 * len))
  (shaBlocks blocks sha512H0 m).flatMap (beBytes 8)

/-! ### Ed25519 (RFC 8032) -/

/-- The field prime. -/
def edP : Nat := 2 ^ 255 - 19
/-- The group order. -/
def edL : Nat := 2 ^ 252 + 27742317777372353535851937790883648493
/-- The curve constant. -/
def edD : Nat := 37095705934669439343138083508754565189542113879843219016388785533085940283555
/-- A square root of minus one. -/
def edI : Nat := 19681161376707505956807079304988542015446066515923890162744021073123829784752

/-- `b ^ e` modulo the field prime, low bit of `e` first, over `n` bits. -/
def edPow : Nat → Nat → Nat → Nat
  | 0, _, _ => 1
  | n + 1, b, e =>
    let r := edPow n (b * b % edP) (e / 2)
    if e % 2 = 1 then r * b % edP else r

/-- The inverse in the field. -/
def edInv (x : Nat) : Nat := edPow 255 x (edP - 2)

/-- Subtraction in the field. -/
def edSub (x y : Nat) : Nat := (x + edP - y % edP) % edP

/-- A point in extended coordinates. -/
structure EdPoint where
  x : Nat
  y : Nat
  z : Nat
  t : Nat
  deriving DecidableEq, Repr

/-- The neutral point. -/
def edZero : EdPoint := ⟨0, 1, 1, 0⟩

/-- Point addition (complete for this curve). -/
def edAdd (p q : EdPoint) : EdPoint :=
  let a := edSub p.y p.x * edSub q.y q.x % edP
  let b := (p.y + p.x) * (q.y + q.x) % edP
  let c := 2 * p.t * q.t % edP * edD % edP
  let d := 2 * p.z * q.z % edP
  let e := edSub b a
  let f := edSub d c
  let g := (d + c) % edP
  let h := (b + a) % edP
  ⟨e * f % edP, g * h % edP, f * g % edP, e * h % edP⟩

/-- `k` times a point, over `n` bits of `k`. -/
def edMul : Nat → Nat → EdPoint → EdPoint
  | 0, _, _ => edZero
  | n + 1, k, p =>
    let r := edMul n (k / 2) (edAdd p p)
    if k % 2 = 1 then edAdd r p else r

/-- Two points are equal. -/
def edEq (p q : EdPoint) : Bool :=
  p.x * q.z % edP == q.x * p.z % edP && p.y * q.z % edP == q.y * p.z % edP

/-- The x coordinate that goes with `y` and a sign bit, if there is one. -/
def edRecoverX (y sign : Nat) : Option Nat :=
  if edP ≤ y then none else
  let u := edSub (y * y) 1
  let v := (edD * (y * y % edP) + 1) % edP
  let x2 := u * edInv v % edP
  if x2 = 0 then (if sign = 1 then none else some 0) else
  let x := edPow 255 x2 ((edP + 3) / 8)
  let x := if x * x % edP = x2 then x else x * edI % edP
  if x * x % edP = x2 then some (if x % 2 = sign then x else edP - x) else none

/-- Decodes a point. -/
def edDecode (b : Bytes) : Option EdPoint :=
  let v := leNat b
  let y := v % 2 ^ 255
  (edRecoverX y (v / 2 ^ 255)).map fun x => ⟨x, y, 1, x * y % edP⟩

/-- Encodes a point. -/
def edEncode (p : EdPoint) : Bytes :=
  let zi := edInv p.z
  leBytes 32 (p.y * zi % edP + p.x * zi % edP % 2 * 2 ^ 255)

/-- The base point. -/
def edBase : EdPoint :=
  let y := 4 * edInv 5 % edP
  let x := (edRecoverX y 0).getD 0
  ⟨x, y, 1, x * y % edP⟩

/-- The clamped scalar of a private seed. -/
def edScalar (seed : Bytes) : Nat :=
  let a := leNat ((sha512 seed).take 32)
  a % 2 ^ 254 / 8 * 8 + 2 ^ 254

/-- The public key of a private seed. -/
def edPublic (seed : Bytes) : Bytes := edEncode (edMul 256 (edScalar seed) edBase)

/-- Pure Ed25519 signature. -/
def edSign (seed msg : Bytes) : Bytes :=
  let a := edScalar seed
  let pk := edPublic seed
  let r := leNat (sha512 ((sha512 seed).drop 32 ++ msg)) % edL
  let rp := edEncode (edMul 256 r edBase)
  let k := leNat (sha512 (rp ++ pk ++ msg)) % edL
  rp ++ leBytes 32 ((r + k * a) % edL)

/-- Pure Ed25519 verification, with the cofactored group equation of RFC 8032. -/
def edVerify (pk msg sig : Bytes) : Bool :=
  let s := leNat (sig.drop 32)
  if pk.length != 32 || sig.length != 64 || edL ≤ s then false else
  match edDecode pk, edDecode (sig.take 32) with
  | some a, some r =>
    let k := leNat (sha512 (sig.take 32 ++ pk ++ msg)) % edL
    edEq (edMul 4 8 (edMul 256 s edBase)) (edMul 4 8 (edAdd r (edMul 256 k a)))
  | _, _ => false

end Sys2Proof.Machine
end

