-- ==== Sys2Proof/Config.lean ====
section
/-! DEFINITION. What an implementation fixes and the free values: constants without a body, so that no
proof can see a value of them. -/

namespace Sys2Proof.Config

/-- A byte the spec calls undefined (R190, R328, R470, R636) or gives no contents to, by draw and place (DESIGN CHOICE, log 6). -/
opaque freeByte : Nat → Nat → BitVec 8

/-- A number the spec does not state (a measured count, a value left open), by draw (DESIGN CHOICE, log 4). -/
opaque freeNat : Nat → Nat

/-- The stack (0 to 23) and the channel of it (0 to 31) that hold a 64-byte line of a HASH-ALL or
HASH-HALF region, by region id and line number (R188: the hash is not promised; DESIGN CHOICE, log 8). -/
opaque hashChannel : Nat → Nat → Nat

/-- DEV_VERSION bits [15:0]: stepping letter and number (R505), fixed by the silicon. -/
opaque stepping : BitVec 16

/-- SHA-512 of the boot ROM (AR_ROM_DIGEST, R595). -/
opaque romDigest : List (BitVec 8)

/-- The certificate chain area of the device information block, 56 KiB (R594). -/
opaque certChain : List (BitVec 8)

/-- A pixel of a colour image as the one channel of a GLADE_BATCH with GB_CHANNELS = 1, by its three channels: the spec
gives no conversion (DESIGN CHOICE, log 22). -/
opaque greyOf : Nat → Nat → Nat → Nat

end Sys2Proof.Config
end

