-- ==== Sys2Proof/Machine/State.lean ====
section
/-! DEFINITION. The state of the block as plain data: one structure per part of the device, the queue of
waiting commands, and the state right after power is first applied. -/

namespace Sys2Proof.Machine

/-- An association list keyed by numbers. -/
abbrev AL (α : Type) := List (Nat × α)

/-! ### Always-on domain -/

/-- What a Ranger does (R552, R554, R571): off before the first cold start, running its boot ROM only,
asleep, awake. -/
inductive RangerState where
  | off
  | rom
  | asleep
  | awake
  deriving DecidableEq, Repr

/-- DEV_STATE.STATE (R505). -/
inductive DevMode where
  | boot
  | selftest
  | ready
  | failed
  deriving DecidableEq, Repr

/-- Why FAILED was entered (R494): critical temperature (R563) or start-up (R573). -/
inductive FailCause where
  | thermal
  | start
  deriving DecidableEq, Repr

/-- An attention entry (R498). -/
structure AttnEntry where
  seq : BitVec 16
  cls : Nat
  code : Nat
  tag : Nat
  tick : BitVec 64
  arg0 : Nat
  arg1 : Nat
  deriving DecidableEq, Repr

/-- The attention list, oldest first, and ASEQ (R496, R498, R500). -/
structure Att where
  aseq : BitVec 16
  list : List AttnEntry
  deriving DecidableEq, Repr

/-- One of the two copies of the bank selector (R588). DESIGN CHOICE, log 137. -/
structure SelCopy where
  bank : Nat
  seq : Nat
  valid : Bool
  deriving DecidableEq, Repr

/-- The always-on domain: lands, clock, Rangers, fuses, firmware banks, thermal and power states
(R552, R554, R561, R567, R585, R588). -/
structure Aon where
  pwrgd : Bool
  resetN : Bool
  perstN : Bool
  faultN : Bool
  coldArmed : Bool
  resetWait : Bool
  tick : BitVec 64
  tickOn : Bool
  primary : RangerState
  mate : RangerState
  fzKeys : List Bytes
  fzRevoke : BitVec 4
  fzRollback : BitVec 128
  fzIdKey : Bytes
  fzSerial : Bytes
  banks : List Bytes
  selCopies : List SelCopy
  activating : Bool
  halved : List ThermalBlock
  stopped : List ThermalBlock
  lowPower : List LowPowerBlock
  deriving DecidableEq, Repr

/-! ### Device state and identity -/

/-- The header fields of the running firmware image (R586, R595) and its digest. -/
structure Running where
  version : Nat
  rollback : Nat
  keySlot : Nat
  revoke : Nat
  bank : Nat
  digest : Bytes
  deriving DecidableEq, Repr

/-- A start-up that has not ended: the step of R571 it is at (6 to 12), and whether it is a cold start (R571, R577). -/
structure Starting where
  step : Nat
  cold : Bool
  deriving DecidableEq, Repr

/-- Device state, self-test report, identity copies and attestation flags. -/
structure Dev where
  mode : DevMode
  failCause : Option FailCause
  serving : Bool
  starting : Option Starting
  topo : BitVec 32
  selfTest : List SelfTestEntry
  carrier : Bytes
  carrierValid : Bool
  psUnderrated : Bool
  joined : Bool
  fallback : Bool
  romOnly : Bool
  running : Option Running
  bridgeFails : AL (Nat × Nat)
  haltSteps : Bool
  deriving DecidableEq, Repr

/-! ### Mailboxes -/

/-- A configuration command in progress that waits for the outside (R510): BIAS_SET to device (R259) on a
page range, or SHARD_REPAIR (R529). -/
inductive ProgWork where
  | biasDevice (region first count : Nat)
  | shardRepair (shard : Nat)
  deriving DecidableEq, Repr

/-- The slot, the tag and the work of a command in progress; `lost` when the host link was lost during
it (R261). -/
structure Prog where
  slot : Nat
  tag : Nat
  work : ProgWork
  lost : Bool
  deriving DecidableEq, Repr

/-- The 160 slots' bytes (key slot × 4,096 + offset), the latch queue and the command in progress. -/
structure Mbx where
  cells : Store
  latch : List Nat
  prog : Option Prog
  deriving DecidableEq, Repr

/-! ### Memory -/

/-- A write-combining entry (R217): its line and the bytes written, one bit each; the memory bytes
themselves always read as merged (R218). -/
structure WcEntry where
  line : Nat
  mask : BitVec 64
  deriving DecidableEq, Repr

/-- Memory keys `[lo, lo + n)` whose bytes the spec calls undefined: free values, one draw for the range, the first byte
being byte `off` of the draw (DESIGN CHOICE, log 6). -/
structure FreeRange where
  lo : Nat
  n : Nat
  draw : Nat
  off : Nat
  deriving DecidableEq, Repr

/-- Memory: the bytes of the stacks (key region × 2^42 + offset) and of host memory (key 2^56 + host
physical address), those that hold undefined values (`free`), write combining, ECC and bandwidth state; `corrected` lists the corrected reads by stack and
tick (R224), `badLines` the lines by stack whose reads were uncorrectable (R225), `served` the transfers of the
last bandwidth window by controller and partition (R212). -/
structure Mem where
  cells : Store
  free : List FreeRange
  wc : List WcEntry
  poison : List Nat
  corrected : List (Nat × Nat)
  badLines : List (Nat × Nat)
  selfRefresh : List Nat
  bwCeil : List Nat
  bwFloor : List Nat
  served : List (Nat × Nat × Nat)
  deriving DecidableEq, Repr

/-! ### Regions and translation -/

/-- A mapping of a region (R236). -/
structure Mapping where
  base : Nat
  write : Bool
  demand : Bool
  deriving DecidableEq, Repr

/-- A registration of a region (R460). -/
structure Registration where
  barOff : Nat
  sources : Nat
  read : Bool
  write : Bool
  deriving DecidableEq, Repr

/-- A region (R187) and everything held per page of it (R193, R194, R198, R254, R258). -/
structure Region where
  id : Nat
  kind : Nat
  mode : Nat
  target : Nat
  pages : Nat
  t2Pages : Nat
  hostBase : Nat
  part : Nat
  cache : Nat
  hdmOff : Nat
  map : Option Mapping
  reg : Option Registration
  stale : Bool
  inT2 : List Nat
  pinned : List Nat
  heat : AL Nat
  shared : List Nat
  flipping : List Nat
  deriving DecidableEq, Repr

/-- A translation cache entry (R242): cache number, base address of the leaf's span, level, entry. -/
structure TcEntry where
  cache : Nat
  base : Nat
  level : Nat
  entry : Nat
  deriving DecidableEq, Repr

/-- An outstanding miss (R243) or an agent that waits on a demand fault (R248). -/
structure Miss where
  cache : Nat
  va : Nat
  store : Bool
  deriving DecidableEq, Repr

/-- A page migration in flight (R195). -/
structure Migration where
  region : Nat
  page : Nat
  toT2 : Bool
  deriving DecidableEq, Repr

/-- Regions, table space, translation caches, walks, demand faults, migrations and the HDM decoder. -/
structure Rgn where
  regions : List Region
  tbl : Store
  tables : List (Nat × Nat)
  tcache : List TcEntry
  walks : List Miss
  demands : List Miss
  migrations : List Migration
  hdmBase : Option Nat
  deriving DecidableEq, Repr

/-! ### Coherence -/

/-- A directory entry (R262): the core that holds the line modified or exclusive, the cores that share
it, the host bit, and whether the host's copy is known to be unmodified (R270). -/
structure DirEntry where
  line : Nat
  owner : Option Nat
  sharers : List Nat
  host : Bool
  clean : Bool
  deriving DecidableEq, Repr

/-- A line in a core's caches (R537). -/
structure CoreLine where
  core : Nat
  line : Nat
  dirty : Bool
  data : Bytes
  deriving DecidableEq, Repr

/-- A transaction or waiting request of a line (R264), `who` none for a host's CXL.mem request; `held` while it
waits for a host's answer, a host-stale page (R471) or a flipping page (R260). -/
structure Txn where
  who : Option CohAgent
  region : Nat
  off : Nat
  op : CohOp
  caching : Bool
  held : Bool
  deriving DecidableEq, Repr

/-- An outstanding back-invalidation (R256): the line and the bytes that an agent without a cache has
written since, which the host's older data does not replace; `keep` when only the data is asked for and the
host keeps its copy, no longer modified (R270). -/
structure BackInv where
  line : Nat
  mask : BitVec 64
  keep : Bool
  deriving DecidableEq, Repr

/-- Directories, core caches, Floor cache placement (home Floor and line, the first to be replaced first), transactions,
writebacks in flight, back-invalidations and reservations. -/
structure Coh where
  dir : List DirEntry
  cached : List CoreLine
  t1 : List (Nat × Nat)
  txns : List Txn
  waiting : List Txn
  wbs : List CoreLine
  binv : List BackInv
  resv : List (Nat × Nat)
  deriving DecidableEq, Repr

/-! ### Plans -/

/-- An escalation at a ring (R73): descriptor, old and new format with mode bits, ring. -/
structure Escalation where
  desc : Nat
  old : Nat
  fmt : Nat
  ring : Nat
  deriving DecidableEq, Repr

/-- A replacement of MODE_SCHEDULE (R523): operation, field, value. -/
structure ModeEntry where
  op : Nat
  field : Nat
  value : Nat
  deriving DecidableEq, Repr

/-- A loaded plan: its handle, its container, its number in load order, the state kept with it (R73 to R78, R294, R310,
R348, R349, R383, R605): `base` are the formats it was loaded with, `formats` those in force; `before` are the modes that
were in force at the ring before the latest step (R315). -/
structure Plan where
  handle : Nat
  bytes : Bytes
  loadNo : Nat
  base : AL Nat
  formats : AL Nat
  escalations : List Escalation
  modes : List (Nat × ModeEntry)
  inForce : List ModeEntry
  before : List ModeEntry
  stampRing : Nat
  stampCount : Nat
  lsExp : Int
  clean : Nat
  continuityBad : Bool
  deriving DecidableEq, Repr

/-- Loaded plans, the last handle, and the continuity record still to be applied (R521, R605); whether the record, or
the donor's ring, is still awaited (R604). -/
structure Pln where
  plans : List Plan
  lastHandle : Nat
  loads : Nat
  continuity : Option Continuity
  awaitContinuity : Bool
  awaitRing : Bool
  deriving DecidableEq, Repr

/-! ### Steps -/

/-- How far an instance is (R326): issued and working, waiting for a host-stale page (R471),
waiting for what a peer answers (R206), work done
with a code and not yet fenced, complete with a code, stopped (R634). -/
inductive InstState where
  | issued
  | waitHost
  | sent
  | computed (code : Nat)
  | done (code : Nat)
  | stopped
  deriving DecidableEq, Repr

/-- An instance of the active step. -/
structure Inst where
  op : Nat
  mb : Nat
  st : InstState
  deriving DecidableEq, Repr

/-- State of a state word (R332). -/
inductive WordState where
  | queued
  | running
  | voted
  | done (code : Nat)
  deriving DecidableEq, Repr

/-- The state word of a tag (R332). -/
structure StateWord where
  tag : Nat
  st : WordState
  deriving DecidableEq, Repr

/-- The verdict round a device takes part in (R339): the axis its chain is on, the value it carries
there, the watch list with it, and whether its contribution on this axis has gone out. -/
structure VRound where
  round : Nat
  axis : Axis
  v : Verdict
  watch : List WatchEntry
  sent : Bool
  deriving DecidableEq, Repr

/-- A step, queued or active. `k` is the clip factor once a clip round runs, else 0; `disputes` are the shards
held here whose twins' blazes differ: 0 awaiting the referee, 1 a mismatch (R354); `watch` counts saturations and
conversions by descriptor (R632); `crossings` are plan handle, descriptor and the summed counts (R341). -/
structure Step where
  tag : Nat
  plan : Nat
  ring : Nat
  attempt : Nat
  replay : Bool
  fromAttempt : Nat
  source : List Bytes
  verdictFree : Bool
  st : WordState
  round : Nat
  stamp : BitVec 64
  lsExp : Int
  insts : List Inst
  phases : List (Nat × Nat × Nat)
  entries : List Bytes
  watch : List (Nat × Nat × Nat)
  crossings : List (Nat × Nat × Nat × Nat)
  nonfinite : AL Nat
  disputes : List (Nat × Nat)
  holdCode : Nat
  released : Bool
  stopped : Bool
  k : Option Nat
  vround : Option VRound
  last : Option Verdict
  resumed : Bool
  digests : List (Nat × Nat × Nat × Nat)
  diverged : Nat
  tick : Nat
  deriving DecidableEq, Repr

/-- A step record (R361, R362): its key, whether it is decided, and its bytes once it is. -/
structure StepRecord where
  ring : Nat
  attempt : Nat
  decided : Bool
  bytes : Bytes
  deriving DecidableEq, Repr

/-- A vote record (R336). -/
structure VoteRecord where
  v : Verdict
  attempt : Nat
  deriving DecidableEq, Repr

/-- A hold notice kept (R634). -/
structure Notice where
  ring : Nat
  attempt : Nat
  round : Nat
  deriving DecidableEq, Repr

/-- A recovery that the device owes after a warm reset or an admission (R355, R356): the ring N, the step that was
interrupted, whether the neighbours have been asked, those still to answer, the verdicts they told. -/
structure Resume where
  ring : Nat
  step : Option Step
  begun : Bool
  awaiting : List Nat
  heard : List Verdict
  deriving DecidableEq, Repr

/-- Steps, state words, records, votes and verdicts. -/
structure Stp where
  active : Option Step
  queued : Option Step
  words : List StateWord
  records : List StepRecord
  attempts : AL Nat
  vote : Option VoteRecord
  verdicts : List (Verdict × Bool)
  notices : List Notice
  partVerdicts : List VerdictMsg
  waitVerdict : List VerdictMsg
  resume : Option Resume
  deriving DecidableEq, Repr

/-! ### Training state -/

/-- A shard definition (R275). -/
structure ShardDef where
  shard : Nat
  params : Nat
  moments : Nat
  owner : Nat
  twinEn : Bool
  twin : Nat
  region : Nat
  va : Nat
  deriving DecidableEq, Repr

/-- A selector word (R284). -/
structure Selector where
  ring : Nat
  valid : Bool
  slot : Nat
  deriving DecidableEq, Repr

/-- The residue selector word (R289). -/
structure ResSel where
  ring : Nat
  lsExp : Int
  valid : Bool
  slot : Nat
  deriving DecidableEq, Repr

/-- Progress of a shard's arrival update in the current round (R299): the ring, whether the header is
written, the g_red segments arrived, the segments updated, with the non-finite count and the sums of
squares of each segment, and whether the seal is written. -/
structure Update where
  shard : Nat
  ring : Nat
  header : Bool
  arrived : List Nat
  updated : List Nat
  nonfinite : AL Nat
  sumsq : AL Nat
  sealed : Bool
  deriving DecidableEq, Repr

/-- A referee's work on a shard (R354): what it holds from the owner and the twin. -/
structure Referee where
  shard : Nat
  owner : Option (Nat × Bytes × Bytes × Bytes × BitVec 64)
  twin : Option (Nat × Bytes × Bytes × Bytes × BitVec 64)
  failed : Bool
  deriving DecidableEq, Repr

/-- Training state kept in reserved memory; the slots' bytes lie in memory. -/
structure Trn where
  shards : List ShardDef
  sel : AL Selector
  resSel : ResSel
  commit : Option (Nat × Nat)
  ring : Nat
  lost : List Nat
  losses : List Nat
  updates : List Update
  referees : List Referee
  repairing : List Nat
  fetches : List (Nat × Nat × Nat)
  deriving DecidableEq, Repr

/-! ### Engines -/

/-- A block segment's run (R87, R100, R108, R120): where it runs, its retry level, the chunks done, and its partial sums
row by row over the block's valid elements, as binary32 codes or as two's-complement 32-bit integers (R109); `rowTaint`,
`colTaint` and `elemTaint` are the rows, columns and elements of the block whose operands read so far hold an infinity or
a NaN (R118). -/
structure Run where
  op : Nat
  mb : Nat
  block : Nat
  seg : Nat
  place : Place
  level : Nat
  chunk : Nat
  sums : List Nat
  rowTaint : List Nat
  colTaint : List Nat
  elemTaint : List Nat
  finished : Bool
  failed : Bool
  deriving DecidableEq, Repr

/-- A finished block (R102, R123, R129): the level it finished at and its sums; once the output stage has drained it,
the values for OUT0 and OUT1 as binary32 codes until its tile is whole. -/
structure Block where
  op : Nat
  mb : Nat
  block : Nat
  place : Place
  level : Nat
  sums : List Nat
  failed : Bool
  drained : Bool
  out0 : List Nat
  out1 : List Nat
  deriving DecidableEq, Repr

/-- A tile record in a task's scratchpad partition (R90, R92, R184): the instance and, in a CONV, the stripe it was
fetched for (R148), the address of its elements, its 256 cells of 8 × 8 elements in the order of `cellIndex`, its
per-block data and codebook in the scale area; `result` when the output stage wrote it and it is still to be stored. -/
structure ScratchTile where
  grove : Nat
  task : Nat
  op : Nat
  mb : Nat
  stripe : Nat
  va : Nat
  cells : List Bytes
  side : Bytes
  result : Bool
  deriving DecidableEq, Repr

/-- A tile move in flight (R245, R246): the stripe it fetches for (R148); `count` is the sampler's count of it, 0 when it
is not counted; `demand` while it waits for a demand fault's resolution. -/
structure TileMove where
  place : Place
  op : Nat
  mb : Nat
  store : Bool
  stripe : Nat
  pieces : List Piece
  count : Nat
  demand : Bool
  deriving DecidableEq, Repr

/-- A task context that runs a tile program (R92 to R95): its instance, whether it waits on a fault, the program's
internal id (R627), and its scratchpad partition, `extent` bytes from `base` on. DESIGN CHOICE, log 106. -/
structure Task where
  grove : Nat
  task : Nat
  op : Nat
  mb : Nat
  waiting : Bool
  prog : Nat
  base : Nat
  extent : Nat
  deriving DecidableEq, Repr

/-- The engines' state; `lastTask` is the context of each Grove that issued last (R93). -/
structure Eng where
  runs : List Run
  blocks : List Block
  scratch : List ScratchTile
  moves : List TileMove
  tasks : List Task
  lastTask : AL Nat
  deriving DecidableEq, Repr

/-! ### Fabric -/

/-- FS_STATE (R402). -/
inductive FsState where
  | start
  | training
  | mapping
  | ready
  | partly
  | isolated
  deriving DecidableEq, Repr

/-- A flit's content above the link (R373), and the virtual channel it travels on (R380). -/
structure Flit where
  kind : Nat
  alt : Bool
  dir : Nat
  first : Bool
  last : Bool
  dest : Nat
  src : Nat
  ctx : Nat
  cseq : Nat
  data : Bytes
  vc : Nat
  deriving DecidableEq, Repr

/-- An unacknowledged flit of a port with its FL_SEQ and how often it was replayed (R375, R376). -/
structure SentFlit where
  seq : BitVec 8
  replays : Nat
  flit : Flit
  deriving DecidableEq, Repr

/-- A fabric port (R368 to R377, R391 and PORT_INFO). PI_STATE as its code. -/
structure Port where
  bundle : Nat
  unused : Bool
  absent : Bool
  pi : Nat
  trained : Bool
  verified : Bool
  inBundle : Bool
  probation : Bool
  expect : BitVec 8
  next : BitVec 8
  unacked : List SentFlit
  waiting : List Flit
  nakSent : Bool
  retrains : List Nat
  downs : Nat
  fecCorr : Nat
  fecUncorr : Nat
  replays : Nat
  retrainCount : Nat
  laneErr : List Nat
  far : Option IdentityMsg
  deriving DecidableEq, Repr

/-- A send context (R383 to R387): `kept` are acknowledged flits of a message whose last flit is not, which a CRC failure has
sent again from the first (R386). -/
structure SendCtx where
  ctx : Nat
  dst : Nat
  plan : Nat
  op : Nat
  mb : Nat
  next : Nat
  credits : Nat
  kept : List Flit
  unacked : List Flit
  waiting : List Flit
  resends : Nat
  failed : Bool
  deriving DecidableEq, Repr

/-- A receive context (R383 to R387): the next FL_CSEQ, flits held ahead of order, bytes of the message in
progress and the FL_CSEQ of its first flit, complete messages not yet consumed, flits received and flits consumed since the last
acknowledgement, CRC failures in a row. -/
structure RecvCtx where
  src : Nat
  ctx : Nat
  next : Nat
  held : List (Nat × Flit)
  msg : Bytes
  start : Nat
  complete : List Bytes
  unacked : Nat
  freed : Nat
  fails : Nat
  deriving DecidableEq, Repr

/-- A barrier the device takes part in: 0 readiness (R392), 1 partial (R395), 2 join (R603); the axis its chain
is on, its own bitmap, the combined one it carries there, whether that has gone out. -/
structure Barrier where
  kind : Nat
  axis : Axis
  own : List Nat
  set : List Nat
  sent : Bool
  deriving DecidableEq, Repr

/-- Chain or gather state of a shard in the current attempt (R408 to R418), from the issue of its instance on: the
operation, whether the successor on the gather path has asked, the digest entries by segment (SG_WDIG, SG_SDIG, copy
digest) with the header terms and the blaze, whether they have passed their check, the segments added or written,
those sent on (DIGEST messages as `digestSent`), the TWIN segments taken in, and the fetches repeated by segment
(2^32 for the digests). -/
structure Chain where
  shard : Nat
  op : Nat
  reduce : Bool
  gather : Nat
  requested : Bool
  entries : AL (Nat × Nat × Nat)
  c1 : Nat
  c2 : Nat
  blaze : Nat
  checked : Bool
  written : List Nat
  digestSent : Bool
  sent : List Nat
  twin : List Nat
  retries : AL Nat
  deriving DecidableEq, Repr

/-- A gather request held (R416): requesting member, shard, which of its gathers (DEDUCED, log 28), attempt, ring gathered. -/
structure GatherReq where
  src : Nat
  shard : Nat
  gather : Nat
  attempt : Nat
  ring : Nat
  deriving DecidableEq, Repr

/-- A peer read held (R421). -/
structure PeerRead where
  src : Nat
  ring : Nat
  va : Nat
  len : Nat
  deriving DecidableEq, Repr

/-- The fabric engines. -/
structure Fab where
  fs : FsState
  reason : Nat
  readyTick : Nat
  startTick : Nat
  trainOver : Bool
  devid : BitVec 64
  addr : Option Nat
  sx : Nat
  sy : Nat
  sz : Nat
  ports : AL Port
  lsSeq : BitVec 32
  records : List LinkState
  conflicts : List Nat
  fmWait : Nat
  retired : List Nat
  members : Option (List Nat)
  barrier : Option Barrier
  heldBarrier : List (Nat × BarrierMsg)
  expired : Bool
  floodLate : Bool
  notices : List JoinNotice
  joinSet : List Nat
  send : List SendCtx
  recv : List RecvCtx
  ctxFailed : BitVec 32
  chains : List Chain
  earlyMsgs : List (Nat × Bytes)
  peerReads : List PeerRead
  gatherReqs : List GatherReq
  deriving DecidableEq, Repr

/-! ### Glade -/

/-- A sample source (R422) and its statistics (GLADE_STATS). `state`: 0 taking entries, 2 halted at the sample of
`haltRing`, `haltIndex` for `haltReason`, 3 manifest rejected for `reason`. -/
structure Source where
  id : Nat
  stageRegion : Nat
  lookahead : Nat
  substitute : Bool
  straggle : Nat
  abandon : Nat
  maxEntries : Nat
  spares : Nat
  abandonUs : Nat
  manifestVa : Nat
  spareVa : Nat
  prepVa : Nat
  prepBytes : Nat
  state : Nat
  reason : Nat
  haltRing : Nat
  haltIndex : Nat
  haltReason : Nat
  delivered : Nat
  mean : Int
  completed : Nat
  stragglers : Nat
  substitutions : Nat
  corrupt : List Nat
  dropRing : Nat
  dropped : List Nat
  deriving DecidableEq, Repr

/-- What an entry's sample decodes to: formats and codes for OUT0 and OUT1; token ids as OUT0's codes. -/
structure SampleOut where
  fmt0 : Nat
  out0 : List Nat
  fmt1 : Nat
  out1 : List Nat
  deriving DecidableEq, Repr

/-- A disposition that an entry has before its record is read (R440, R441): halted again, the recorded spare, or a
substitute by order. -/
inductive Forced where
  | halt (reason : Nat)
  | spare (reason index pos : Nat)
  | order (reason : Nat)
  deriving DecidableEq, Repr

/-- An entry of a prepared step: 0 waiting, 1 in a lane, 2 complete, 3 halted; its group, and what it decoded to. -/
structure PrepEntry where
  index : Nat
  off : Nat
  len : Nat
  group : Nat
  st : Nat
  forced : Option Forced
  out : SampleOut
  deriving DecidableEq, Repr

/-- Why a group of a GLADE_BATCH fails: its code and, for a fault, what its FAULT entry says (R250, R633); kind 0 is no fault. -/
structure BatchFault where
  code : Nat
  kind : Nat
  va : Nat
  region : Nat
  page : Nat
  line : Nat
  deriving DecidableEq, Repr

/-- A prepared step slot (R433): source, ring, the plan and operation whose parameters it was prepared with, the
entries, how far delivery is, step-record entries not yet taken over by a step, the groups that fail with a code, the
instances whose copies are done. DESIGN CHOICE, log 95. -/
structure Prep where
  source : Nat
  ring : Nat
  plan : Nat
  op : Nat
  entries : List PrepEntry
  delivered : Nat
  records : List Bytes
  halted : Bool
  rejected : Bool
  fails : AL BatchFault
  copied : List Nat
  deriving DecidableEq, Repr

/-- A decode lane at work (R432): source, ring, entry. -/
structure LaneJob where
  source : Nat
  ring : Nat
  entry : Nat
  start : Nat
  deriving DecidableEq, Repr

/-- The Glades: sources, prepared steps, lanes, SUBSTITUTE orders by source, index and reason (R441), manifest slots found ready, and the plan of
the latest accepted step (R433). -/
structure Gld where
  sources : List Source
  preps : List Prep
  lanes : AL LaneJob
  orders : List (Nat × Nat × Nat)
  manifests : List (Nat × Nat)
  latest : Option Nat
  deriving DecidableEq, Repr

/-! ### DMA -/

/-- A register set of a DMA channel (R474). -/
structure DmaSet where
  src : Nat
  dst : Nat
  len : Nat
  flagVa : Nat
  flagVal : Nat
  tag : Nat
  valid : Bool
  crcMode : Nat
  flagEn : Bool
  done : Nat
  ended : Bool
  code : Nat
  crc : Nat
  deriving DecidableEq, Repr

/-- A DMA channel: DMA_CH, its sets, and the running CRC of the transfer in progress (R477, R478). `state`:
0 IDLE, 1 RUNNING, 2 WAITING. -/
structure Chan where
  okCount : BitVec 16
  state : Nat
  runCrc : Nat
  active : DmaSet
  shadow : DmaSet
  crcNow : Nat
  usedHost : Bool
  deriving DecidableEq, Repr

/-- The DMA channels that differ from their reset values. -/
structure Dma where
  chans : AL Chan
  deriving DecidableEq, Repr

/-! ### Host port and adapters -/

/-- State of the host link (R467, R575). -/
inductive LinkSt where
  | down
  | training
  | up
  deriving DecidableEq, Repr

/-- An adapter port (R36, R635). -/
structure Adapter where
  lg : Nat
  pi : Nat
  perstHigh : Bool
  downs : Nat
  width : Nat
  rate : Nat
  deriving DecidableEq, Repr

/-- A window access that waits, by its source (0 the host port, 1 to 4 the adapters) and requester, with the region and offset
at which a registration admitted it when it arrived (R260, R273, R461). -/
structure HeldWindow where
  source : Nat
  requester : Nat
  off : Nat
  acc : Access
  place : Option (Nat × Nat)
  deriving DecidableEq, Repr

/-- The host port, the adapter ports and the window accesses that wait. -/
structure Hst where
  link : LinkSt
  width : Nat
  downs : Nat
  retrains : Nat
  helloSeen : Bool
  adapters : AL Adapter
  held : List HeldWindow
  deriving DecidableEq, Repr

/-! ### Server cores -/

/-- A server core (R535 to R550). DESIGN CHOICE, log 142. -/
structure CoreSt where
  running : Bool
  sleeping : Bool
  mode : Nat
  pc : BitVec 64
  x : List (BitVec 64)
  f : List (BitVec 64)
  v : List (BitVec 512)
  satp : BitVec 64
  mstatus : BitVec 64
  mie : BitVec 64
  pmp : List (BitVec 64)
  mtimecmp : BitVec 64
  stimecmp : BitVec 64
  mtip : Bool
  stip : Bool
  imsicM : List Nat
  imsicS : List Nat
  waiting : Bool
  deriving DecidableEq, Repr

/-- The server cores that differ from their reset values. -/
structure Cor where
  cores : AL CoreSt
  deriving DecidableEq, Repr

/-! ### Observation -/

/-- A counter (R612, R615, R616). `mode`: 0 OFF, 1 EVENT, 2 CHAIN. -/
structure Counter where
  mode : Nat
  event : Nat
  scope : Nat
  value : BitVec 48
  ovf : Bool
  deriving DecidableEq, Repr

/-- A snapshot slot (R617). -/
structure Snapshot where
  seq : Nat
  tick : Nat
  ctrs : AL Counter
  deriving DecidableEq, Repr

/-- The sampling setting (R621 to R624). -/
structure Sampler where
  loads : Bool
  stores : Bool
  wrap : Bool
  period : Nat
  va : Nat
  bytes : Nat
  groves : List Nat
  counts : AL Nat
  written : Nat
  lost : Nat
  deriving DecidableEq, Repr

/-- A debug trace target (R629). -/
structure TraceTarget where
  op : Nat
  row : Nat
  block : Nat
  deriving DecidableEq, Repr

/-- Counters, snapshots, the sampler and Tracks. -/
structure Obs where
  ctrs : AL Counter
  snaps : AL Snapshot
  snapSeq : BitVec 32
  sampler : Option Sampler
  trkRun : Nat
  trkDebug : Bool
  trkWrap : Bool
  trkClasses : Nat
  trkTargets : List TraceTarget
  eastNext : Nat
  westNext : Nat
  trkLost : Nat
  trace : Store
  deriving DecidableEq, Repr

/-! ### What the device emits -/

/-- What crosses the block's boundary outward, oldest first (DESIGN CHOICE, log 3). DESIGN CHOICE, log 38. -/
inductive Output where
  /-- Data that a bus read returns, with the requester's port: 0 host, 1 to 4 adapters, 5 + n core SCn. -/
  | data (port : Nat) (d : Bytes)
  /-- A read that completes with Unsupported Request, or a poisoned completion. -/
  | unsupported (port : Nat)
  | poisoned (port : Nat)
  /-- A core's access fault: true for a store or AMO access fault (R543). -/
  | coreFault (core : Nat) (store : Bool)
  /-- A core's access below adapter port Ai, configuration space or memory window (R539). -/
  | adapterAccess (port : Nat) (config : Bool) (off : Nat) (acc : CoreAccess)
  /-- The answer to a host snoop: the data when it was modified (R265). -/
  | snoopAnswer (hpa : Nat) (data : Option Bytes)
  /-- A back-invalidation sent to the host (R256); `keep` when the host keeps an unmodified copy (R270). -/
  | backInvalidate (hpa : Nat) (keep : Bool)
  /-- A flag write that has become visible (R272). -/
  | flag (va : Nat)
  /-- A flit's 256 bytes, sent on a port (R373). -/
  | flit (port : Nat) (b : Bytes)
  /-- Messages on reserved contexts whose layout the spec does not give. -/
  | verdict (dst : Nat) (axis : Axis) (bcast : Bool) (b : Bytes)
  | watch (dst : Nat) (axis : Axis) (bcast : Bool) (b : Bytes) (last : Bool)
  | barrier (dst : Nat) (kind : Nat) (m : BarrierMsg)
  | linkState (bundle : Nat) (r : LinkState)
  | identity (port : Nat) (m : IdentityMsg)
  | joinNotice (port : Nat) (n : JoinNotice)
  | joinReply (bundle : Nat) (members : List Nat)
  | holdNotice (bundle ring attempt round : Nat)
  | gatherRequest (dst shard attempt ring gather : Nat)
  | gatherRefetch (dst shard gather seg : Nat)
  | gatherData (dst gather : Nat) (d : Bytes)
  | e2e (dst ctx cseq : Nat) (m : E2eMsg)
  | referee (dst : Nat) (m : RefereeMsg)
  | history (dst : Nat) (m : HistoryMsg)
  | peerData (dst : Nat) (d : Bytes)
  | peerReadRequest (dst ring va len : Nat)
  | peerRefuse (dst : Nat)
  deriving DecidableEq, Repr

/-- Reasons a step stops with a fault. None: every command and event of this block has its effect in every
state (NOTES.md, Stops). -/
inductive Fault where
  deriving DecidableEq, Repr

/-- Reasons a step is refused. -/
inductive Refusal where
  /-- Raised by an arm of Machine/Dispatch.lean whose command has no meaning yet; safe. -/
  | notModelled (mnemonic : String)
  deriving DecidableEq, Repr

/-! ### The whole state -/

/-- The state of the block. -/
structure State where
  pending : List Instr
  out : List Output
  fresh : Nat
  aon : Aon
  att : Att
  dev : Dev
  mbx : Mbx
  mem : Mem
  rgn : Rgn
  coh : Coh
  pln : Pln
  stp : Stp
  trn : Trn
  eng : Eng
  fab : Fab
  gld : Gld
  dma : Dma
  hst : Hst
  cor : Cor
  obs : Obs
  deriving DecidableEq, Repr

/-! ### Reset values -/

/-- The always-on domain before power: lands low, fuses and banks as PRESUMED, log 5 says. -/
def Aon.reset : Aon :=
  { pwrgd := false, resetN := false, perstN := false, faultN := false, coldArmed := false,
    resetWait := false, tick := 0, tickOn := false, primary := .off, mate := .off,
    fzKeys := [[], [], [], []], fzRevoke := 0, fzRollback := 0, fzIdKey := [], fzSerial := [],
    banks := [[], []], selCopies := [⟨0, 1, true⟩, ⟨0, 0, true⟩], activating := false,
    halved := [], stopped := [], lowPower := [] }

/-- DEV_STATE BOOT, nothing read yet. -/
def Dev.reset : Dev :=
  { mode := .boot, failCause := none, serving := false, starting := none, topo := 0, selfTest := [],
    carrier := [], carrierValid := false, psUnderrated := false, joined := false, fallback := false,
    romOnly := false, running := none, bridgeFails := [],
    haltSteps := false }

/-- Slots read zero (R493). -/
def Mbx.reset : Mbx := { cells := [], latch := [], prog := none }

/-- Memory with nothing listed; every partition with floor 0 and no ceiling (R213). -/
def Mem.reset : Mem :=
  { cells := [], free := [], wc := [], poison := [], corrected := [], badLines := [], selfRefresh := [],
    bwCeil := List.replicate 16 0, bwFloor := List.replicate 16 0, served := [] }

/-- No region, an empty root table (R571 step 12). -/
def Rgn.reset : Rgn :=
  { regions := [], tbl := [], tables := [], tcache := [], walks := [], demands := [], migrations := [],
    hdmBase := none }

/-- No cached line, no transaction. -/
def Coh.reset : Coh :=
  { dir := [], cached := [], t1 := [], txns := [], waiting := [], wbs := [], binv := [], resv := [] }

/-- No plan; handles count from 1 (R521). -/
def Pln.reset : Pln :=
  { plans := [], lastHandle := 0, loads := 0, continuity := none, awaitContinuity := false, awaitRing := false }

/-- No step. -/
def Stp.reset : Stp :=
  { active := none, queued := none, words := [], records := [], attempts := [], vote := none,
    verdicts := [], notices := [], partVerdicts := [], waitVerdict := [], resume := none }

/-- No shard, residue selector word 0, ring 0 (R289, R580). -/
def Trn.reset : Trn :=
  { shards := [], sel := [], resSel := ⟨0, 0, false, 0⟩, commit := none, ring := 0, lost := [],
    losses := [], updates := [], referees := [], repairing := [], fetches := [] }

/-- No work in an engine. -/
def Eng.reset : Eng :=
  { runs := [], blocks := [], scratch := [], moves := [], tasks := [], lastTask := [] }

/-- Discovery before its first step (R402: START); FM_WAIT 60,000 ms (R400). -/
def Fab.reset : Fab :=
  { fs := .start, reason := 0, readyTick := 0, startTick := 0, trainOver := false, devid := 0, addr := none,
    sx := 0, sy := 0, sz := 0, ports := [],
    lsSeq := 0, records := [], conflicts := [], fmWait := 60000, retired := [], members := none,
    barrier := none, heldBarrier := [], expired := false, floodLate := false, notices := [],
    joinSet := [], send := [], recv := [], ctxFailed := 0, chains := [],
    earlyMsgs := [], peerReads := [], gatherReqs := [] }

/-- No source. -/
def Gld.reset : Gld := { sources := [], preps := [], lanes := [], orders := [], manifests := [], latest := none }

/-- A register set with every field 0 (R474). -/
def DmaSet.reset : DmaSet :=
  { src := 0, dst := 0, len := 0, flagVa := 0, flagVal := 0, tag := 0, valid := false, crcMode := 0,
    flagEn := false, done := 0, ended := false, code := 0, crc := 0 }

/-- A channel at its reset values: DMA_CH.RUN_CRC 0xFFFF_FFFF. -/
def Chan.reset : Chan :=
  { okCount := 0, state := 0, runCrc := 0xFFFFFFFF, active := DmaSet.reset, shadow := DmaSet.reset,
    crcNow := 0xFFFFFFFF, usedHost := false }

/-- Every channel at its reset values. -/
def Dma.reset : Dma := { chans := [] }

/-- The host port down, no adapter port present. -/
def Hst.reset : Hst :=
  { link := .down, width := 0, downs := 0, retrains := 0, helloSeen := false, adapters := [], held := [] }

/-- A stopped core (R580); registers 0, timer compares all ones (DESIGN CHOICE, log 7). -/
def CoreSt.reset : CoreSt :=
  { running := false, sleeping := false, mode := 3, pc := 0, x := List.replicate 32 0,
    f := List.replicate 32 0, v := List.replicate 32 0, satp := 0, mstatus := 0, mie := 0,
    pmp := List.replicate 16 0, mtimecmp := BitVec.allOnes 64, stimecmp := BitVec.allOnes 64,
    mtip := false, stip := false, imsicM := [], imsicS := [], waiting := false }

/-- Every core stopped. -/
def Cor.reset : Cor := { cores := [] }

/-- A counter OFF at 0 (R612). -/
def Counter.reset : Counter := { mode := 0, event := 0, scope := 0, value := 0, ovf := false }

/-- Counters OFF, no snapshot, no sampling, Tracks idle (R612, R617, R625). -/
def Obs.reset : Obs :=
  { ctrs := [], snaps := [], snapSeq := 0, sampler := none, trkRun := 0, trkDebug := false,
    trkWrap := false, trkClasses := 0, trkTargets := [], eastNext := 0, westNext := 0, trkLost := 0,
    trace := [] }

/-- The block before the first rise of PWRGD: every register at its Reset value, everything kept empty,
and the lands low (DESIGN CHOICE, log 1). -/
def State.reset : State :=
  { pending := [], out := [], fresh := 0, aon := Aon.reset, att := { aseq := 0, list := [] },
    dev := Dev.reset, mbx := Mbx.reset, mem := Mem.reset, rgn := Rgn.reset, coh := Coh.reset,
    pln := Pln.reset, stp := Stp.reset, trn := Trn.reset, eng := Eng.reset, fab := Fab.reset,
    gld := Gld.reset, dma := Dma.reset, hst := Hst.reset, cor := Cor.reset, obs := Obs.reset }

end Sys2Proof.Machine
end

