-- ==== Sys2Proof/WellFormed.lean ====
section
/-! DEFINITION. Which commands and events can occur: the ranges that the rules give to operands whose type is wider.
Nothing in the machine relies on it: every command has a meaning whatever its operands. -/

namespace Sys2Proof

/-- A bus access moves 1 to 64 bytes (R455, R541). -/
def Access.wf : Access → Bool
  | .read n => decide (1 ≤ n) && decide (n ≤ 64)
  | .write d => decide (1 ≤ d.length) && decide (d.length ≤ 64)

/-- Units of each kind of R506 that the device holds (R19); scratchpad banks are numbered Grove × 64 + bank. -/
def unitCount (kind : Nat) : Nat :=
  [0, 192, 192 * 64, 96, 24, 768, 18, 16, 24, 96, 4, 2, 32, 4, 1, 2].getD kind 0

/-- A unit that the device holds. -/
def UnitRef.wf (u : UnitRef) : Bool := decide (u.num < unitCount u.kind)

/-- A line of the self-test report: 0x01 failed or 0x02 did not train (R506). -/
def SelfTestEntry.wf (e : SelfTestEntry) : Bool := e.unit.wf && (e.result == 1 || e.result == 2)

/-- What the outside gives a start-up: bus areas of their size (R597, R599), lane groups below 18 (R33), a step of
R571. -/
def StartInputs.wf (i : StartInputs) : Bool :=
  (match i.carrier with | some b => decide (b.length ≤ 4096) | none => true)
    && (match i.power with | some b => decide (b.length ≤ 64) | none => true)
    && i.modules.all (fun m => decide (m.1 < 18))
    && i.failed.all SelfTestEntry.wf
    && (match i.stall with | some k => decide (6 ≤ k) && decide (k ≤ 12) | none => true)

/-- A device virtual address (R227). -/
def isVa (a : Nat) : Bool := decide (a < 2 ^ 56)

/-- A fabric address of at most 14 bits (R365). -/
def isAddr (a : Nat) : Bool := decide (a < 16384)

/-- A region id and an offset in it (R187). -/
def isRegionOff (r o : Nat) : Bool := decide (r < 64) && decide (o < 2 ^ 42)

/-- A request's bytes lie in their line, with the widths of R214 and R542. -/
def CohOp.wf : CohOp → Bool
  | .store o d | .sc o d => decide (o + d.length ≤ 64)
  | .amo _ w o _ => (w == 4 || w == 8) && decide (o + w ≤ 64)
  | .madd f o _ => decide (o + (match f with | .b32 | .i32 => 4 | .b16 => 2 | .i64 => 8) ≤ 64)
  | _ => true

/-- An answer of line data is one line. -/
def lineData : Option Bytes → Bool
  | some d => d.length == 64
  | none => true

/-- A core's access moves 1, 2, 4 or 8 bytes, or more in a vector access (R541). -/
def CoreAccess.wf : CoreAccess → Bool
  | .load n => [1, 2, 4, 8].contains n
  | .store d => [1, 2, 4, 8].contains d.length
  | _ => true

/-- Fields of an identity message (R365, R369, R391). -/
def IdentityMsg.wf (m : IdentityMsg) : Bool :=
  (match m.addr with | some a => isAddr a | none => true) && decide (m.sx ≤ 32) && decide (m.sy ≤ 32)
    && decide (m.sz ≤ 16) && decide (m.bundle < 8) && decide (m.port < 36)

/-- A link-state record: six bundles, each up, down or unused with at most 36 ports (R389). -/
def LinkState.wf (r : LinkState) : Bool :=
  isAddr r.addr && r.bundles.length == 6 && r.bundles.all fun b => decide (b.state ≤ 2) && decide (b.verified ≤ 36)

/-- A barrier message's bitmap as ascending addresses (R392, R395, R603). -/
def BarrierMsg.wf (m : BarrierMsg) : Bool := isAddr m.src && m.set.all isAddr && decide (m.set.Pairwise (· < ·))

/-- Field widths of a verdict (R337). -/
def Verdict.wf (v : Verdict) : Bool :=
  decide (v.ring < 2 ^ 48) && decide (v.round ≤ 1) && decide (v.holdCode < 256) && decide (v.modeLo < 2 ^ 64)
    && decide (v.modeHi < 2 ^ 64)
    && [v.sumsq, v.nonfinite, v.unsealed, v.twinMiss, v.diverged, v.devices, v.hold, v.clip].all (decide <| · < 2 ^ 32)

/-- A piece of a tile move lies in the address space and has bytes (R245). -/
def Piece.wf (p : Piece) : Bool := decide (1 ≤ p.len) && isVa (p.va + p.len - 1)

/-- A verdict-history answer carries at most four verdicts (R355). -/
def HistoryMsg.wf : HistoryMsg → Bool
  | .request a => isAddr a
  | .answer a vs => isAddr a && decide (vs.length ≤ 4) && vs.all Verdict.wf

/-- A join notice or a reply with the member set (R603). -/
def JoinMsg.wf : JoinMsg → Bool
  | .notice n b => isAddr n.addr && decide (b < 6)
  | .reply ms => ms.all isAddr && decide (ms.Pairwise (· < ·))

/-- Operands in the ranges that the rules give them. -/
def Instr.wf : Instr → Bool
  | .slotWrite _ _ acc => acc.wf
  | .deviceResetWarm _ i | .fwActivate _ i | .resetNRise i => i.wf
  | .backInvalidateAnswer _ d => lineData d
  | .idRead _ a => match a with | some b => decide (b.length ≤ 1984) | none => true
  | .startBoundExceeded us => us.all SelfTestEntry.wf
  | .thermalTrip _ t | .thermalRestore _ t | .thermalCritical _ t => decide (t < 2 ^ 32)
  | .hostLinkRetrain w | .hostLinkUp w => [16, 8, 4].contains w
  | .hostHdmAccess hpa _ acc =>
    acc.wf && decide (hpa % 64 + (match acc with | .read n => n | .write d => d.length) ≤ 64)
  | .coherenceRequest _ r o op => isRegionOff r o && op.wf
  | .bar2WindowAccess _ o acc => decide (o < 2 ^ 42) && acc.wf
  | .adapterWindowAccess _ _ acc => acc.wf
  | .adapterInterruptMsg _ _ d => decide (d < 2 ^ 32)
  | .adapterLinkUp _ w r => [8, 4].contains w && [64, 32, 16].contains r
  | .tileMove _ _ _ _ w | .prefetchFetch _ _ _ w => w.pieces.all Piece.wf
  | .walkComplete c va _ => decide (c < 194) && isVa va
  | .demandFaultResolve va => isVa va
  | .migrationCopyDone r p => decide (r < 64) && decide (p < 2 ^ 26)
  | .wcDrainAge r o | .memorySideAdd r o _ _ => isRegionOff r o
  | .bandwidthWindow w => w.all fun c => decide (c.1 < 24) && c.2.all fun p => decide (p < 17)
  | .patrolScrub _ l => l.all fun x => isRegionOff x.1 x.2.1 || (x.1 == 64 && decide (x.2.1 < 2 ^ 29))
  | .verdictMessage (.verdict _ _ a v) => isAddr a && v.wf
  | .verdictMessage (.watch _ _ a _ _) => isAddr a
  | .holdNotice _ _ r b => decide (r ≤ 1) && decide (b < 6)
  | .gatherRequest a _ _ _ _ => isAddr a
  | .peerReadRequest a _ va n => isAddr a && isVa va && decide (1 ≤ n)
  | .flitReceive _ f _ _ l => f.length == 256 && l.all fun i => decide (i < 4)
  | .identityExchange _ m => m.wf
  | .linkStateRecord b r => decide (b < 6) && r.wf
  | .readinessBarrierMessage m | .partialBarrierMessage m | .joinBarrierMessage m => m.wf
  | .e2eAck _ n (.ack c) => decide (n < 16384) && decide (c ≤ 16384)
  | .e2eAck _ n _ => decide (n < 16384)
  | .joinNotice m => m.wf
  | .manifestReady g _ | .gladePrepareStep g _ | .gladeLaneStart _ g => decide (g < 16)
  | .coreIoAccess _ _ a => a.wf
  | .unitFailure u => u.wf
  | .discoveryBoundExpiry k => decide (1 ≤ k) && decide (k ≤ 7)
  | .verdictHistoryRequest m => m.wf
  | .chainMessage b | .gatherMessage _ b => decide (64 ≤ b.length)
  | .mbxOwnWrite _ | .hello _ | .info _ | .query _ | .abort _ | .deviceResetContext _ | .regionCreate _
  | .regionRegister _ | .biasSetShared _ | .biasSetDevice _ | .objectPin _ | .map _ | .unmap _ | .regionInfo _
  | .planLoad _ | .planDrop _ | .stepSubmit _ | .stepReplay _ | .modeSchedule _ | .ringQuery _ | .stepRecord _
  | .shardDefine _ | .stateExport _ | .stateImport _ | .shardRepair _ | .blazeRead _ | .gladeSource _
  | .gladeDisposeSet _ | .gladeDisposeSubstitute _ | .gladeStats _ | .fabricStatus _ | .fabricMapLoad _ | .portInfo _
  | .dmaSubmit _ | .dmaStatus _ | .ctrConfig _ | .ctrSnapshot _ | .traceSet _ | .traceStop _ | .traceCopy _
  | .sampleStart _ | .sampleStop _ | .attest _ | .fwStage _ | .coresLoad _ | .coresStart _ | .coresStop _
  | .pwrgdRise | .pwrgdFall | .warmReset | .lowPowerEntry _ | .stackSelfRefreshEntry _ | .hostPerstAssert
  | .hostLinkLoss _ | .hdmDecoderCommit _ _ | .hostSnoop _ _ | .adapterLinkDown _ | .adapterPerstTimeout _
  | .bridgeCrcFail _ | .matmul _ _ _ | .conv _ _ _ | .pool _ _ _ | .boxDecode _ _ _ | .suppress _ _ _
  | .saplingConv _ _ _ | .vectorElementwise _ _ _ | .vectorReduce _ _ _ | .vectorGather _ _ _ | .vectorScatter _ _ _
  | .actBackward _ _ _ | .gradGather _ _ _ | .chainReduce _ _ | .allGather _ | .verdict _ | .arrivalUpdate _ _
  | .gladeBatch _ _ | .move _ _ _ | .prefetch _ _ | .instanceComplete _ _ | .pass _ _ _ _ _ | .segmentCombine _ _ _
  | .outputStageDrain _ _ _ | .tileMoveComplete _ _ _ _ | .heatDecay | .stepStart | .voteRecordWrite _
  | .verdictTimeout | .segmentUpdateDone _ _ | .nakReceive _ _ | .flitAckTimeout _ | .retrainTimeout _
  | .portRetryTimer _ | .portTrained _ | .portProbationEnd _ | .unverifiedRetry _ | .discoveryFloodTimeout
  | .partialWaitExpiry | .flowMessageComplete _ _ _ | .contextStallTimeout _ | .joinRetryTimer | .continuityRecord _
  | .dmaChunk _ | .dmaTransferEnd _ | .sampleDone _ _ | .sampleAbandon _ | .releaseWord _ _ | .coreTimerCompare _ _
  | .coreWfi _ | .flowAckInterval _ _ | .hostPortDownAtStart | .hostPerstRelease | .refereeFetch _ => true

end Sys2Proof
end

