-- ==== Sys2Proof/Machine/Flags.lean ====
section
/-! DEFINITION. Completion codes (R504), the status word (R496, R497), the attention list (R498 to R500),
counters (R613, R616) and trace records (R626, R627). -/

namespace Sys2Proof.Machine

/-! ### Association lists -/

/-- The value at a key. -/
def AL.get {α : Type} (l : AL α) (k : Nat) : Option α := (l.find? (·.1 == k)).map (·.2)

/-- The value at a key, or a default. -/
def AL.getD {α : Type} (l : AL α) (k : Nat) (d : α) : α := (l.get k).getD d

/-- The list without a key. -/
def AL.erase {α : Type} (l : AL α) (k : Nat) : AL α := l.filter (·.1 != k)

/-- The list with a key set; the order of the other keys stays, a new key goes to the end. -/
def AL.set {α : Type} (l : AL α) (k : Nat) (v : α) : AL α :=
  if l.any (·.1 == k) then l.map fun e => if e.1 == k then (k, v) else e else l ++ [(k, v)]

/-! ### Completion codes (R504) -/

def cOK : Nat := 0x00
def cACCEPTED : Nat := 0x01
def cABORTED : Nat := 0x02
def cTOO_LATE : Nat := 0x03
def cBAD_OPCODE : Nat := 0x10
def cBAD_ARG : Nat := 0x11
def cBAD_PLAN : Nat := 0x12
def cBAD_WINDOW : Nat := 0x13
def cNO_RESOURCE : Nat := 0x14
def cBUSY : Nat := 0x15
def cNOT_READY : Nat := 0x16
def cFAULT_XLATE : Nat := 0x20
def cRANGE : Nat := 0x21
def cNONFINITE : Nat := 0x22
def cDIVERGED : Nat := 0x23
def cMODE_SPLIT : Nat := 0x24
def cSAMPLE_BAD : Nat := 0x25
def cHOST_LOST : Nat := 0x26
def cFABRIC_PARTIAL : Nat := 0x27
def cAUTH_FAIL : Nat := 0x30
def cVERSION : Nat := 0x31
def cINTERNAL : Nat := 0xFF

/-! ### Attention classes (R499) and unit kinds (R506, R564, R601) -/

def aFW_NOTE : Nat := 1
def aLOG : Nat := 2
def aSTEP_DONE : Nat := 3
def aSAMPLE : Nat := 4
def aFABRIC : Nat := 5
def aHOST_LINK : Nat := 6
def aSTEP_HELD : Nat := 7
def aTHERMAL : Nat := 8
def aFAULT : Nat := 9

def uGrove : Nat := 0x01
def uStack : Nat := 0x04
def uLane : Nat := 0x06
def uBridge : Nat := 0x07
def uMc : Nat := 0x08
def uCore : Nat := 0x09
def uSapling : Nat := 0x0A
def uGlade : Nat := 0x0B
def uWalker : Nat := 0x0C
def uDma : Nat := 0x0D
def uHostPort : Nat := 0x0E
def uRanger : Nat := 0x0F
def uCanopy : Nat := 0x10
def uFloor : Nat := 0x11
def uServer : Nat := 0x12
def uCarrier : Nat := 0x13
def uPower : Nat := 0x14
def uModule : Nat := 0x15

/-- A unit field: kind in [63:48], number in [47:32], detail in [31:0] (R499). -/
def unitField (kind num detail : Nat) : Nat :=
  kind * 2 ^ 48 + num % 2 ^ 16 * 2 ^ 32 + detail % 2 ^ 32

/-- AE_TAG of a condition that concerns no command (R498). -/
def noTag : Nat := 0xFFFFFFFF

/-! ### The attention list -/

/-- The lowest class present in a list of entries; 0 when it is empty. -/
def lowestClass : List AttnEntry → Nat
  | [] => 0
  | [e] => e.cls
  | e :: r => min e.cls (lowestClass r)

/-- The list without its oldest entry of a class. -/
def dropOldest (c : Nat) : List AttnEntry → List AttnEntry
  | [] => []
  | e :: r => if e.cls == c then r else e :: dropOldest c r

/-- Raising a condition: ASEQ increments, and the entry is recorded, records over a lower class, or is
discarded (R498, R500). -/
def Att.raise (a : Att) (tick : BitVec 64) (cls code tag arg0 arg1 : Nat) : Att :=
  let seq := a.aseq + 1
  let e : AttnEntry := ⟨seq, cls, code, tag, tick, arg0, arg1⟩
  let low := lowestClass a.list
  { aseq := seq
    list := if a.list.length < 256 then a.list ++ [e]
      else if low < cls then dropOldest low a.list ++ [e] else a.list }

/-- Highest class pending, 0 when none (R496). -/
def highestClass (l : List AttnEntry) : Nat := l.foldl (fun m e => max m e.cls) 0

/-- MBX_STATUS (R496). -/
def statusWord (a : Att) (code : Nat) : Nat :=
  a.aseq.toNat * 2 ^ 16 + highestClass a.list * 2 ^ 9 + b2n (!a.list.isEmpty) * 2 ^ 8 + code

/-- d(x) of R501 for an entry. -/
def attnDist (a : Att) (x : BitVec 16) : Nat := (a.aseq - x).toNat

/-- Acknowledging with A removes every entry e with d(AE_SEQ of e) ≥ d(A) (R501). -/
def Att.ack (a : Att) (x : BitVec 16) : Att :=
  { a with list := a.list.filter fun e => decide (attnDist a e.seq < attnDist a x) }

/-- The 32 bytes of an entry (R498). -/
def AttnEntry.bytes (e : AttnEntry) : Bytes :=
  leBytes 2 e.seq.toNat ++ leBytes 1 e.cls ++ leBytes 1 e.code ++ leBytes 4 e.tag
    ++ leBytes 8 e.tick.toNat ++ leBytes 8 e.arg0 ++ leBytes 8 e.arg1

/-! ### Counters -/

/-- Adds `n` to counter `i`; a wrap increments a chained successor or sets OVF (R616). -/
def bumpCounter : Nat → AL Counter → Nat → Nat → AL Counter
  | 0, l, _, _ => l
  | f + 1, l, i, n =>
    match l.get i with
    | none => l
    | some c =>
      let v := c.value.toNat + n
      let wraps := v / 2 ^ 48
      let c' := { c with value := BitVec.ofNat 48 v }
      if wraps = 0 then l.set i c' else
      match l.get (i + 1) with
      | some d =>
        if d.mode == 2 then bumpCounter f (l.set i c') (i + 1) wraps else l.set i { c' with ovf := true }
      | none => l.set i { c' with ovf := true }

/-- Counts `n` events of a unit in every counter of mode EVENT that covers it (R613). -/
def countEvent (l : AL Counter) (ev unit n : Nat) : AL Counter :=
  l.foldl (fun acc e =>
    if e.2.mode == 1 && e.2.event == ev && (e.2.scope == 0xFFFF || e.2.scope == unit)
    then bumpCounter 1024 acc e.1 n else acc) l

/-! ### Trace records -/

/-- Records a half's trace buffer holds (R625). -/
def traceCap : Nat := 524288

/-- Writes one 32-byte record of a half at its next number k; a full buffer without wrap drops it and
stops the trace (R625, R626; DEDUCED, log 10). `seqField` is what stands at 0x04 in debug records. -/
def Obs.put (o : Obs) (west : Bool) (ty kind unit : Nat) (seqField : Option Nat) (tick : BitVec 64)
    (payload : Bytes) : Obs :=
  let k := if west then o.westNext else o.eastNext
  if o.trkRun == 2 || (decide (traceCap ≤ k) && !o.trkWrap) then
    { o with trkRun := 2, trkLost := o.trkLost + 1 }
  else
    let rec32 := leBytes 1 ty ++ leBytes 1 kind ++ leBytes 2 unit ++ leBytes 4 (seqField.getD k)
      ++ leBytes 8 tick.toNat ++ padTo 16 payload
    let base := b2n west * 0x1000000 + 32 * (k % traceCap)
    { o with
      trace := o.trace.writeN base rec32
      eastNext := if west then o.eastNext else k + 1
      westNext := if west then k + 1 else o.westNext }

/-- Writes a record of a class when tracing runs with the class enabled (R626, R629). DEDUCED, log 139. -/
def Obs.record (o : Obs) (cls : Nat) (west : Bool) (ty kind unit : Nat) (tick : BitVec 64)
    (payload : Bytes) : Obs :=
  if o.trkRun != 0 && bit o.trkClasses cls then o.put west ty kind unit none tick payload else o

/-! ### The same on the state -/

/-- The state with something emitted. -/
def State.emit (s : State) (o : Output) : State := { s with out := s.out ++ [o] }

/-- The state with several things emitted, in order. -/
def State.emits (s : State) (os : List Output) : State := { s with out := s.out ++ os }

/-- The state with an attention condition raised (R498) and, with class 4 enabled, traced (R627). DEDUCED, log 138. -/
def State.raise (s : State) (cls : Nat) (code : Nat := 0) (tag : Nat := noTag) (arg0 : Nat := 0)
    (arg1 : Nat := 0) : State :=
  let a := s.att.raise s.aon.tick cls code tag arg0 arg1
  { s with
    att := a
    obs := s.obs.record 4 false 0x08 uRanger 0 s.aon.tick
      (leBytes 4 (a.aseq.toNat + cls % 16 * 2 ^ 16 + code % 256 * 2 ^ 24)) }

/-- The state with `n` events of a unit counted (R613). -/
def State.count (s : State) (ev unit : Nat) (n : Nat := 1) : State :=
  { s with obs := { s.obs with ctrs := countEvent s.obs.ctrs ev unit n } }

/-- The state with a trace record of a class (R626). -/
def State.trace (s : State) (cls : Nat) (west : Bool) (ty kind unit : Nat) (payload : Bytes) : State :=
  { s with obs := s.obs.record cls west ty kind unit s.aon.tick payload }

/-- `n` free bytes (DESIGN CHOICE, log 6) and the state with the draw used up. -/
def State.freeBytes (s : State) (n : Nat) : Bytes × State :=
  ((List.range n).map (Config.freeByte s.fresh), { s with fresh := s.fresh + 1 })

/-- A free number (DESIGN CHOICE, log 4) and the state with the draw used up. -/
def State.freeNat (s : State) : Nat × State :=
  (Config.freeNat s.fresh, { s with fresh := s.fresh + 1 })

/-! ### DEV_STATE -/

/-- The code of DEV_STATE.STATE (R505). -/
def DevMode.code : DevMode → Nat
  | .boot => 0
  | .selftest => 1
  | .ready => 2
  | .failed => 3

/-- The code of FS_STATE (R402). -/
def FsState.code : FsState → Nat
  | .start => 0
  | .training => 1
  | .mapping => 2
  | .ready => 3
  | .partly => 4
  | .isolated => 5

/-- A block leaves its low-power state (R554). DEDUCED, log 135. -/
def State.wakeBlock (s : State) (b : LowPowerBlock) : State :=
  { s with aon := { s.aon with lowPower := s.aon.lowPower.filter (· != b) } }

/-- A block has stopped its clocks, or, a stack, every access to it (R563); `p` picks the block. -/
def State.blockStopped (s : State) (p : ThermalBlock → Bool) : Bool := s.aon.stopped.any p

/-- The server die of a core has stopped (R563). -/
def State.dieStopped (s : State) (core : Nat) : Bool :=
  s.blockStopped fun b => match b with | .server n => n.val == core / 48 | _ => false

/-- Canopy die of a Grove, and the Grove's local index on it (R20). -/
def groveDie (g : Nat) : Nat := g / 24
def groveLocal (g : Nat) : Nat := g % 24

/-- The clocks of a Grove have stopped with its Canopy die (R20, R563). -/
def State.groveStopped (s : State) (g : Nat) : Bool :=
  s.blockStopped fun b => match b with | .canopy n => n.val == groveDie g | _ => false

/-- A Floor has stopped (R563). -/
def State.floorStopped (s : State) (half : Nat) : Bool :=
  s.blockStopped fun b => match b with | .floor n => n.val == half | _ => false

/-- Power is good and the device is out of reset, so its blocks can act. -/
def State.powered (s : State) : Bool := s.aon.pwrgd && s.aon.resetN && !s.aon.resetWait

end Sys2Proof.Machine
end

