-- ==== Sys2Proof/Machine/Ops.lean ====
section
/-! DEFINITION. The shared operations over memory: regions and placement (R187 to R198), the page tables and
the walk (R228 to R249), agents' reads and writes with their effect on cached copies (R217, R218, R223,
R269, R270), fences (R219). -/

namespace Sys2Proof.Machine

/-- Bytes of a page. -/
def pageBytes : Nat := 65536

/-! ### Regions -/

/-- Bytes of a region. -/
def Region.size (r : Region) : Nat := r.pages * pageBytes

/-- A page lies in T2: every page of a STACK region, the listed pages of a TIERED region (R187, R193). -/
def Region.pageInT2 (r : Region) (page : Nat) : Bool :=
  r.kind == 0 || (r.kind == 1 && r.inT2.contains page)

/-- The memory key of a byte of a region: its stack byte, or its byte of the host backing. DEDUCED, log 141. -/
def Region.key (r : Region) (off : Nat) : Nat :=
  if r.pageInT2 (off / pageBytes) then r.id * 2 ^ 42 + off else 2 ^ 56 + r.hostBase + off

/-- An access to this page of the region waits because the region is host-stale (R471). -/
def Region.stalePage (r : Region) (page : Nat) : Bool := r.stale && !r.pageInT2 page

/-- The region with an id. -/
def Rgn.get (g : Rgn) (id : Nat) : Option Region := g.regions.find? (·.id == id)

/-- Replaces the region of the same id. -/
def Rgn.put (g : Rgn) (r : Region) : Rgn :=
  { g with regions := g.regions.map fun x => if x.id == r.id then r else x }

/-- The region mapped where a device virtual address lies, with the offset (R236). -/
def Rgn.byVa (g : Rgn) (va : Nat) : Option (Region × Nat) :=
  g.regions.findSome? fun r =>
    match r.map with
    | some m => if m.base ≤ va && va < m.base + r.size then some (r, va - m.base) else none
    | none => none

/-- A range lies wholly inside one mapping. -/
def Rgn.inMapping (g : Rgn) (va len : Nat) : Option Region :=
  match g.byVa va with
  | some (r, off) => if off + len ≤ r.size then some r else none
  | none => none

/-- A range lies wholly inside one writable mapping. -/
def Rgn.inWritable (g : Rgn) (va len : Nat) : Option Region :=
  (g.inMapping va len).filter fun r => match r.map with | some m => m.write | none => false

/-- A region with HASH-ALL, HASH-HALF, STACK or CHANNEL interleave uses a channel (R188). -/
def usesChannel (mode target ch : Nat) : Bool :=
  mode == 0 || (mode == 1 && ch / 384 == target) || (mode == 2 && ch / 32 == target)
    || (mode == 3 && ch == target)

/-- Pages that a region of `p` T2 pages takes from each channel it uses (R188). -/
def channelShare (mode p : Nat) : Nat :=
  if mode = 0 then ceilDiv p 768 else if mode = 1 then ceilDiv p 384
  else if mode = 2 then ceilDiv p 32 else p

/-- T2 pages that a region may take (R188). -/
def Region.t2Need (r : Region) : Nat := if r.kind = 0 then r.pages else if r.kind = 1 then r.t2Pages else 0

/-- Pages of a channel that regions have taken. -/
def channelUsed (rs : List Region) (ch : Nat) : Nat :=
  rs.foldl (fun n r => if r.kind != 2 && usesChannel r.mode r.target ch then n + channelShare r.mode r.t2Need else n) 0

/-- Free region pages of a channel, of 24,560 (R188). -/
def channelFree (rs : List Region) (ch : Nat) : Nat := 24560 - channelUsed rs ch

/-- Channels whose regions differ only in what STACK, CHANNEL and HASH-HALF regions name: the first channel
of each stack and every channel a CHANNEL region names. The fewest free pages lie on one of them. -/
def channelSamples (rs : List Region) : List Nat :=
  (List.range 24).map (· * 32 + 31) ++ (List.range 24).map (· * 32)
    ++ (rs.filter (·.mode == 3)).map (·.target)

/-- The stack that holds a line of a region (R188); the hash of the HASH modes is free (DESIGN CHOICE, log 8). -/
def Region.stackOf (r : Region) (off : Nat) : Nat :=
  if r.mode = 2 then r.target
  else if r.mode = 3 then r.target / 32
  else if r.mode = 1 then r.target * 12 + Config.hashChannel r.id (off / 64) % 384 / 32
  else Config.hashChannel r.id (off / 64) % 768 / 32

/-- The stack of a memory line by its key; none for host memory. -/
def Rgn.stackOfLine (g : Rgn) (line : Nat) : Option Nat :=
  if line * 64 < 2 ^ 48 then (g.get (line * 64 / 2 ^ 42)).map fun r => r.stackOf (line * 64 % 2 ^ 42) else none

/-- The half of a stack: 0 East, 1 West. -/
def halfOfStack (st : Nat) : Nat := if st < 12 then 0 else 1

/-- The stacks that a region's lines may lie in (R188). -/
def Region.stacks (r : Region) : List Nat :=
  if r.mode = 2 then [r.target] else if r.mode = 3 then [r.target / 32]
  else if r.mode = 1 then upFrom (12 * r.target) 12 else List.range 24

/-- The Floor that homes a line: its stack's half, the East for host memory (R25, R26). -/
def Rgn.homeOf (g : Rgn) (line : Nat) : Nat :=
  match g.stackOfLine line with
  | some k => halfOfStack k
  | none => 0

/-- A page of a region is migrating (R195). -/
def Rgn.migrating (g : Rgn) (id page : Nat) : Bool := g.migrations.any fun m => m.region == id && m.page == page

/-! ### Floor caches (R26, R183, R191) -/

/-- Lines that a Floor cache holds: 384 MiB. -/
def floorLines : Nat := 6291456

/-- Takes a Floor's first entries out of a list, as many as asked. -/
def dropHome (h : Nat) : Nat → List (Nat × Nat) → List (Nat × Nat)
  | 0, l => l
  | _, [] => []
  | n + 1, x :: l => if x.1 == h then dropHome h n l else x :: dropHome h (n + 1) l

/-- A Floor cache's entries with room for more of them, the first to be replaced gone. -/
def roomHome (h more : Nat) (l : List (Nat × Nat)) : List (Nat × Nat) :=
  dropHome h ((l.filter (·.1 == h)).length + more - floorLines) l

/-- Places lines in their homing Floor caches under a region's policy: ALLOCATE as the last to be replaced, STREAM as the
first, NONE not at all (R191). DEDUCED, log 54. -/
def Coh.place (c : Coh) (g : Rgn) (r : Region) (first n : Nat) : Coh :=
  if r.cache = 2 then c else
  let new := (upFrom first n).map fun l => (g.homeOf l, l)
  let rest := c.t1.filter fun x => !(decide (first ≤ x.2) && decide (x.2 < first + n))
  let of := fun (h : Nat) => (new.filter (·.1 == h)).length
  let rest := if rest.length + n ≤ floorLines then rest else roomHome 1 (of 1) (roomHome 0 (of 0) rest)
  { c with t1 := if r.cache = 1 then new ++ rest else rest ++ new }

/-- The lines of a range of memory keys enter the Floor caches, unless their page is migrating (R195). -/
def State.placeKey (s : State) (r : Region) (off k n : Nat) : State :=
  if n = 0 || s.rgn.migrating r.id (off / pageBytes) then s
  else { s with coh := s.coh.place s.rgn r (k / 64) ((k + n - 1) / 64 + 1 - k / 64) }

/-- A range of a region has bytes in a stack that a critical temperature has closed to every access, or behind a Floor
that has stopped (R563). DEDUCED, log 132. -/
def State.memStopped (s : State) (r : Region) (off len : Nat) : Bool :=
  if s.aon.stopped.isEmpty then false
  else (upFrom (off / 64) ((off + len - 1) / 64 + 1 - off / 64)).any fun l =>
    if r.pageInT2 (l * 64 / pageBytes) then
      let t := r.stackOf (l * 64)
      s.floorStopped (halfOfStack t) || s.blockStopped fun b => match b with | .stack n => n.val == t | _ => false
    else s.floorStopped 0

/-- The same for a range of device virtual addresses. -/
def State.vaStopped (s : State) (va len : Nat) : Bool :=
  !s.aon.stopped.isEmpty && (match s.rgn.byVa va with
    | some (r, off) => s.memStopped r off (min len (r.size - off))
    | none => false)

/-! ### Page tables (R228 to R235) -/

/-- Bytes that one entry of a table level spans. -/
def levelSpan : Nat → Nat
  | 0 => 2 ^ 16
  | 1 => 2 ^ 21
  | 2 => 2 ^ 30
  | _ => 2 ^ 39

/-- The index field of an address for a level (R228). -/
def levelIndex (lvl va : Nat) : Nat :=
  match lvl with
  | 0 => bits va 20 16
  | 1 => bits va 29 21
  | 2 => bits va 38 30
  | _ => bits va 55 39

/-- Bytes of a table of a level (R229). -/
def tableBytes : Nat → Nat
  | 0 => 256
  | 3 => 2 ^ 20
  | _ => 4096

/-- The key of table space lines among the poisoned lines. -/
def tblLine (off : Nat) : Nat := 2 ^ 60 + off / 64

/-- Fault kinds as the trace and the samples code them: 1 DEMAND, 2 UNMAPPED, 3 WRITE, 4 TABLE. -/
inductive WalkRes where
  | leaf (level entry : Nat)
  | fault (kind : Nat)
  deriving DecidableEq, Repr

/-- Reserved bits of a leaf entry are zero (R231). -/
def leafReservedOk (e : Nat) : Bool := bits e 31 5 == 0 && !bit e 4 && !bit e 3

/-- Reserved bits of a table entry are zero (R232). -/
def tableReservedOk (e : Nat) : Bool := bits e 63 29 == 0 && bits e 7 5 == 0 && !bit e 4 && bits e 3 2 == 0

/-- One entry of table space; none when its line is poisoned (R235). -/
def readEntry (tbl : Store) (poison : List Nat) (off : Nat) : Option Nat :=
  if poison.contains (tblLine off) then none else some (leNat (tbl.readN off 8))

/-- The walk from a table of a level on (R234). -/
def walkFrom (tbl : Store) (poison : List Nat) (va : Nat) (store : Bool) : Nat → Nat → WalkRes
  | lvl, base =>
    match readEntry tbl poison (base + 8 * levelIndex lvl va) with
    | none => .fault 4
    | some e =>
      if !bit e 0 then (if bit e 4 then .fault 1 else .fault 2)
      else if !bit e 1 then
        match lvl with
        | 0 => .fault 4
        | l + 1 =>
          if tableReservedOk e then walkFrom tbl poison va store l (bits e 28 8 * 256) else .fault 4
      else if lvl ≥ 3 || bits e 57 32 % (levelSpan lvl / pageBytes) != 0 || !leafReservedOk e then .fault 4
      else if store && !bit e 2 then .fault 3
      else .leaf lvl e

/-- The walk of R234 from the root. -/
def Rgn.walk (g : Rgn) (poison : List Nat) (va : Nat) (store : Bool) : WalkRes :=
  walkFrom g.tbl poison va store 3 0

/-! ### Translation caches (R242, R244) -/

/-- Half of the agent that a translation cache serves: 0 East, 1 West. Caches 0 to 191 are the Groves', 192 and 193 the
Floors' agent caches. -/
def cacheHalf (c : Nat) : Nat := if c < 96 then 0 else if c < 192 then 1 else c - 192

/-- The agent translation cache of a half's Floor. -/
def agentCache (half : Nat) : Nat := 192 + half

/-- Entries a translation cache holds. -/
def cacheSize (c : Nat) : Nat := if c < 192 then 512 else 2048

/-- A translation cache's leaf for an address. -/
def Rgn.cached (g : Rgn) (c va : Nat) : Option TcEntry :=
  g.tcache.find? fun e => e.cache == c && decide (e.base ≤ va) && decide (va < e.base + levelSpan e.level)

/-- A leaf enters a translation cache; a full cache gives up its oldest (DESIGN CHOICE, log 23). -/
def Rgn.fillCache (g : Rgn) (c va lvl entry : Nat) : Rgn :=
  if (g.cached c va).isSome then g else
  let mine := g.tcache.filter (·.cache == c)
  let kept := if mine.length < cacheSize c then g.tcache else
    match mine with
    | old :: _ => g.tcache.filter (· != old)
    | [] => g.tcache
  { g with tcache := kept ++ [⟨c, va / levelSpan lvl * levelSpan lvl, lvl, entry⟩] }

/-- The leaf that maps an address by its level and number; a page where the walk gives none (R243). -/
def State.leafOf (s : State) (va : Nat) : Nat × Nat :=
  match s.rgn.walk s.mem.poison va false with
  | .leaf lvl _ => (lvl, va / levelSpan lvl)
  | .fault _ => (0, va / pageBytes)

/-- An agent looks an address up: on a miss in its cache the leaf of the walk enters it. -/
def State.look (s : State) (c va : Nat) : State :=
  if (s.rgn.cached c va).isSome then s
  else match s.rgn.walk s.mem.poison va false with
    | .leaf lvl e => { s with rgn := s.rgn.fillCache c va lvl e }
    | .fault _ => s

/-- Region and offset that a leaf gives an address (R234). -/
def leafTarget (lvl e va : Nat) : Nat × Nat := (bits e 63 58, bits e 57 32 * pageBytes + va % levelSpan lvl)

/-! ### Writing the tables (R236 to R241, R248) -/

/-- Writes one 8-byte entry of table space. -/
def writeEntry (g : Rgn) (off v : Nat) : Rgn := { g with tbl := g.tbl.writeN off (leBytes 8 v) }

/-- The lowest free table offset for a table of a size, above the root, in 512 MiB (R230; DESIGN CHOICE, log 11). -/
def allocFrom (size : Nat) : List (Nat × Nat) → Nat → Option Nat
  | [], at_ => if at_ + size ≤ 2 ^ 29 then some at_ else none
  | (o, n) :: r, at_ =>
    if at_ + size ≤ o then (if at_ + size ≤ 2 ^ 29 then some at_ else none)
    else allocFrom size r (roundUp (o + n) size)

/-- Inserts a table in the list of tables, ordered by offset. -/
def insertTable (t : Nat × Nat) : List (Nat × Nat) → List (Nat × Nat)
  | [] => [t]
  | u :: r => if t.1 < u.1 then t :: u :: r else u :: insertTable t r

/-- Takes a table of a level out of free table space; none when there is no room. -/
def allocTable (g : Rgn) (lvl : Nat) : Option (Nat × Rgn) :=
  (allocFrom (tableBytes lvl) g.tables (2 ^ 20)).map fun o =>
    (o, { g with tables := insertTable (o, tableBytes lvl) g.tables })

/-- A table entry that points to a table (R232). -/
def tableEntry (off : Nat) : Nat := off / 256 * 256 + 1

/-- A leaf entry (R231). -/
def leafEntry (region page : Nat) (w : Bool) : Nat := region * 2 ^ 58 + page * 2 ^ 32 + b2n w * 4 + 3

/-- A demand entry (R233). -/
def demandEntry : Nat := 16

/-- Maps the part of `[lo, hi)` that entry `i` of a table spans, with leaves of the largest page R237 allows
or, with `demand`, demand entries at the highest level R238 allows. `sub` maps inside a lower table. -/
def mapOne (lvl : Nat) (sub : Option (Rgn → Nat → Nat → Option Rgn)) (id : Nat) (m : Mapping) (lo hi : Nat)
    (tblOff tblBase : Nat) (g : Rgn) (i : Nat) : Option Rgn :=
  let span := levelSpan lvl
  let b := tblBase + i * span
  let whole := decide (lo ≤ b) && decide (b + span ≤ hi)
  if m.demand && whole then some (writeEntry g (tblOff + 8 * i) demandEntry)
  else if !m.demand && whole && decide (lvl < 3) && (b - m.base) % span == 0 then
    some (writeEntry g (tblOff + 8 * i) (leafEntry id ((b - m.base) / pageBytes) m.write))
  else
    match sub with
    | none => some g
    | some f =>
      let e := leNat (g.tbl.readN (tblOff + 8 * i) 8)
      if bit e 0 then f g (bits e 28 8 * 256) b
      else
        match allocTable g (lvl - 1) with
        | none => none
        | some (o, g') => f (writeEntry g' (tblOff + 8 * i) (tableEntry o)) o b

/-- Maps `[lo, hi)` inside one table of a level (R237, R238); none when table space runs out. -/
def mapTable (id : Nat) (m : Mapping) (lo hi : Nat) : Nat → Rgn → Nat → Nat → Option Rgn
  | 0, g, off, base =>
    let a := max lo base
    let z := min hi (base + 32 * levelSpan 0)
    (upFrom ((a - base) / levelSpan 0) (ceilDiv (z - a) (levelSpan 0))).foldlM
      (fun g i => mapOne 0 none id m lo hi off base g i) g
  | l + 1, g, off, base =>
    let span := levelSpan (l + 1)
    let n := if l + 1 = 3 then 131072 else 512
    let a := max lo base
    let z := min hi (base + n * span)
    (upFrom ((a - base) / span) ((z - 1 - base) / span + 1 - (a - base) / span)).foldlM
      (fun g i => mapOne (l + 1) (some fun g o b => mapTable id m lo hi l g o b) id m lo hi off base g i) g

/-- Clears the part of `[lo, hi)` that one entry of a table spans: unmapped entries in place of the
mapping's, and lower tables freed once they hold nothing (R241). -/
def unmapOne (lvl : Nat) (sub : Option (Rgn → Nat → Nat → Rgn)) (tblOff tblBase : Nat) (g : Rgn)
    (i : Nat) : Rgn :=
  let e := leNat (g.tbl.readN (tblOff + 8 * i) 8)
  match sub with
  | none => writeEntry g (tblOff + 8 * i) 0
  | some f =>
    if bit e 0 && !bit e 1 then
      let o := bits e 28 8 * 256
      let g' := f g o (tblBase + i * levelSpan lvl)
      if (g'.tbl.filter fun c => decide (o ≤ c.1) && decide (c.1 < o + tableBytes (lvl - 1))).isEmpty then
        writeEntry { g' with tables := g'.tables.filter (·.1 != o) } (tblOff + 8 * i) 0
      else g'
    else writeEntry g (tblOff + 8 * i) 0

/-- Clears `[lo, hi)` inside one table of a level. -/
def unmapTable (lo hi : Nat) : Nat → Rgn → Nat → Nat → Rgn
  | 0, g, off, base =>
    let a := max lo base
    let z := min hi (base + 32 * levelSpan 0)
    (upFrom ((a - base) / levelSpan 0) (ceilDiv (z - a) (levelSpan 0))).foldl
      (fun g i => unmapOne 0 none off base g i) g
  | l + 1, g, off, base =>
    let span := levelSpan (l + 1)
    let n := if l + 1 = 3 then 131072 else 512
    let a := max lo base
    let z := min hi (base + n * span)
    (upFrom ((a - base) / span) ((z - 1 - base) / span + 1 - (a - base) / span)).foldl
      (fun g i => unmapOne (l + 1) (some fun g o b => unmapTable lo hi l g o b) off base g i) g

/-- The largest leaf level whose span around an address lies inside the mapping with an aligned offset
(R237), at most `top`. -/
def leafLevelAt (m : Mapping) (size va : Nat) : Nat → Nat
  | 0 => 0
  | l + 1 =>
    let span := levelSpan (l + 1)
    let b := va / span * span
    if decide (l + 1 < 3) && decide (m.base ≤ b) && decide (b + span ≤ m.base + size) && (b - m.base) % span == 0
    then l + 1 else leafLevelAt m size va l

/-- Fills a new table with demand entries for the parts of the mapping it spans: the rest of a demand entry
that is resolved in part (R248). -/
def fillDemand (g : Rgn) (lvl off base lo hi : Nat) : Rgn :=
  let n := if lvl = 0 then 32 else 512
  (List.range n).foldl (fun g i =>
    let b := base + i * levelSpan lvl
    if lo ≤ b && b + levelSpan lvl ≤ hi then writeEntry g (off + 8 * i) demandEntry else g) g

/-- Builds the tables and the leaf for an address in place of the demand entry met at a level (R248). -/
def resolveAt (r : Region) (m : Mapping) (va target : Nat) : Nat → Rgn → Nat → Option Rgn
  | lvl, g, off =>
    let i := levelIndex lvl va
    let e := leNat (g.tbl.readN (off + 8 * i) 8)
    if lvl ≤ target then
      let b := va / levelSpan lvl * levelSpan lvl
      some (writeEntry g (off + 8 * i) (leafEntry r.id ((b - m.base) / pageBytes) m.write))
    else
      match lvl with
      | 0 => none
      | l + 1 =>
        if bit e 0 then resolveAt r m va target l g (bits e 28 8 * 256)
        else
          match allocTable g l with
          | none => none
          | some (o, g') =>
            let b := va / levelSpan (l + 1) * levelSpan (l + 1)
            let g' := fillDemand g' l o b m.base (m.base + r.size)
            resolveAt r m va target l (writeEntry g' (off + 8 * i) (tableEntry o)) o

/-- Resolves the demand fault of an address; none when table space has no room (R248, R249). -/
def Rgn.resolve (g : Rgn) (va : Nat) : Option Rgn :=
  match g.byVa va with
  | some (r, _) =>
    match r.map with
    | some m => resolveAt r m va (leafLevelAt m r.size va 2) 3 g 0
    | none => none
  | none => none

/-- Table space not taken by tables, in units of 256 B (IN_TABLE_FREE). -/
def Rgn.tableFree (g : Rgn) : Nat := (2 ^ 29 - 2 ^ 20 - (g.tables.map (·.2)).sum) / 256

/-! ### Agents' accesses by memory key -/

/-- The parts of a range of `len` bytes from an address on that lie in one page each. -/
def pageChunks (len : Nat) : Nat → Nat → List (Nat × Nat)
  | _, 0 => []
  | va, n + 1 =>
    if len = 0 then [] else
    let k := min len (pageBytes - va % pageBytes)
    (va, k) :: pageChunks (len - k) (va + k) n

/-- The parts of a range, page by page. -/
def chunksOf (va len : Nat) : List (Nat × Nat) := pageChunks len va (len / pageBytes + 2)

/-- The keys of a region range, page by page. -/
def Region.chunks (r : Region) (off len : Nat) : List (Nat × Nat) :=
  (chunksOf off len).map fun c => (r.key c.1, c.2)

/-- Lines of `[lo, lo + n)`. -/
def inRange (lo n line : Nat) : Bool := decide (lo / 64 ≤ line) && decide (line * 64 < lo + n)

/-- A byte of a range of undefined bytes. -/
def FreeRange.at (f : FreeRange) (a : Nat) : Option Byte :=
  if f.lo ≤ a ∧ a < f.lo + f.n then some (Config.freeByte f.draw (f.off + (a - f.lo))) else none

/-- What a range of undefined bytes keeps when `[lo, lo + n)` is written. -/
def FreeRange.cut (lo n : Nat) (f : FreeRange) : List FreeRange :=
  let hi := max f.lo (lo + n)
  [{ f with n := min (f.lo + f.n) lo - f.lo }, ⟨hi, f.lo + f.n - hi, f.draw, f.off + (hi - f.lo)⟩].filter (·.n != 0)

/-- The part of a range of undefined bytes in `[lo, lo + n)`, moved to `dst` on. -/
def FreeRange.moved (lo n dst : Nat) (f : FreeRange) : FreeRange :=
  let a := max f.lo lo
  ⟨a - lo + dst, min (f.lo + f.n) (lo + n) - a, f.draw, f.off + (a - f.lo)⟩

/-- The byte memory holds at a key; an undefined one is a free value (DESIGN CHOICE, log 6). -/
def Mem.byte (m : Mem) (a : Nat) : Byte := (m.free.findSome? (·.at a)).getD (m.cells.read a)

/-- `n` bytes of memory from a key on. -/
def Mem.read (m : Mem) (a n : Nat) : Bytes :=
  match m.free with
  | [] => m.cells.readN a n
  | _ => (upFrom a n).map m.byte

/-- Bytes written to memory from a key on. -/
def Mem.write (m : Mem) (a : Nat) (d : Bytes) : Mem :=
  { m with cells := m.cells.writeN a d, free := m.free.flatMap (·.cut a d.length) }

/-- The bytes of a range become undefined, with a draw of their own. -/
def Mem.undefine (m : Mem) (a n draw : Nat) : Mem :=
  { m with free := m.free.flatMap (·.cut a n) ++ [⟨a, n, draw, 0⟩] }

/-- Writes a whole line back: a full-line write, so that poison and its write-combining entry go (R217, R223). -/
def Mem.putLine (m : Mem) (line : Nat) (d : Bytes) : Mem :=
  { m.write (line * 64) d with
    wc := m.wc.filter fun e => e.line != line
    poison := m.poison.filter fun l => l != line }

/-- Before an agent reads: modified core copies of the range go to memory and stay, unmodified (R270); the data of
a writeback in flight comes with the core's answer, and the writeback is later discarded (R266). -/
def State.cleanRange (s : State) (lo n : Nat) : State :=
  let ds := (s.coh.cached ++ s.coh.wbs).filter fun c => c.dirty && inRange lo n c.line
  let clean := fun (c : CoreLine) => if inRange lo n c.line then { c with dirty := false } else c
  let woken := ds.filterMap fun c => s.rgn.stackOfLine c.line
  let mem := { s.mem with selfRefresh := s.mem.selfRefresh.filter fun t => !woken.contains t }
  { s with
    mem := ds.foldl (fun m c => m.putLine c.line c.data) mem
    coh := { s.coh with cached := s.coh.cached.map clean, wbs := s.coh.wbs.map clean } }

/-- The host physical address of a line of a shared-bias STACK page or of host memory (R251, R252). -/
def Rgn.hpaOfLine (g : Rgn) (line : Nat) : Nat :=
  let k := line * 64
  if k < 2 ^ 48 then
    match g.get (k / 2 ^ 42), g.hdmBase with
    | some r, some b => b + r.hdmOff + k % 2 ^ 42
    | _, _ => 0
  else k - 2 ^ 56

/-- Before an agent without a cache writes: every core copy of the range is written back and invalidated,
reservations go, and each line the host may hold is back-invalidated (R269). `wlo`, `wn` is the range
written. -/
def State.invalRange (s : State) (lo n : Nat) : State :=
  let s := s.cleanRange lo n
  let held := s.coh.dir.filter fun e => e.host && inRange lo n e.line
  let mask := fun (l : Nat) => BitVec.ofNat 64
    (((List.range 64).filter fun i => decide (lo ≤ l * 64 + i) && decide (l * 64 + i < lo + n)).foldl
      (fun m i => m + 2 ^ i) 0)
  { s with
    coh := { s.coh with
      cached := s.coh.cached.filter fun c => !inRange lo n c.line
      resv := s.coh.resv.filter fun c => !inRange lo n c.2
      dir := (s.coh.dir.map fun e =>
        if inRange lo n e.line then { e with owner := none, sharers := [], host := false } else e).filter
          fun e => e.owner.isSome || !e.sharers.isEmpty || e.host
      binv := s.coh.binv.map (fun b =>
          if inRange lo n b.line then { b with mask := b.mask ||| mask b.line, keep := false } else b)
        ++ held.map fun e => ⟨e.line, mask e.line, false⟩ }
    out := s.out ++ held.map fun e => Output.backInvalidate (s.rgn.hpaOfLine e.line) false }

/-- The bytes of a range of memory keys, as an agent reads them. -/
def State.readKey (s : State) (k n : Nat) : Bytes := (s.cleanRange k n).mem.read k n

/-- A line of a range is poisoned: the first such line. -/
def Mem.poisonIn (m : Mem) (lo n : Nat) : Option Nat := m.poison.find? (inRange lo n)

/-- Mask of the bytes of `[lo, lo + n)` in a line. -/
def lineMask (lo n line : Nat) : BitVec 64 :=
  let a := max lo (line * 64) - line * 64
  let z := min (lo + n) (line * 64 + 64) - line * 64
  BitVec.ofNat 64 ((2 ^ (z - a) - 1) * 2 ^ a)

/-- A write of a line's part reaches the controller's write-combining buffer: it merges into the line's
entry; a full line drains as a full-line write and replaces poison; a full buffer drains its oldest entry
(R217, R223). Host memory has no such buffer. -/
def State.combine (s : State) (line : Nat) (mask : BitVec 64) : State :=
  if 2 ^ 48 ≤ line * 64 then s else
  let old := ((s.mem.wc.find? (·.line == line)).map (·.mask)).getD 0
  let new := old ||| mask
  let rest := s.mem.wc.filter (·.line != line)
  if new = BitVec.allOnes 64 then
    { s with mem := { s.mem with wc := rest, poison := s.mem.poison.filter (· != line) } }
  else
    let wc := if old = 0 then rest ++ [⟨line, new⟩]
      else s.mem.wc.map fun e => if e.line == line then ⟨line, new⟩ else e
    let ctl := s.rgn.stackOfLine line
    let same := wc.filter fun e => s.rgn.stackOfLine e.line == ctl
    let wc := if 256 < same.length then
        match same with
        | e :: _ => wc.filter (·.line != e.line)
        | [] => wc
      else wc
    { s with mem := { s.mem with wc := wc } }

/-- Write combining for a range: whole lines drain at once, the partial lines at its ends merge. -/
def State.combineRange (s : State) (lo n : Nat) : State :=
  if n = 0 then s else
  let first := lo / 64
  let last := (lo + n - 1) / 64
  let inner := fun (l : Nat) => decide (lo ≤ l * 64) && decide (l * 64 + 64 ≤ lo + n)
  let s := { s with mem := { s.mem with
    wc := s.mem.wc.filter fun e => !inner e.line
    poison := s.mem.poison.filter fun l => !inner l } }
  let s := if inner first then s else s.combine first (lineMask lo n first)
  if first = last || inner last then s else s.combine last (lineMask lo n last)

/-- A stack leaves self-refresh at the next request (R220): all that a region's lines may lie in. -/
def State.wakeRegion (s : State) (r : Region) : State :=
  { s with mem := { s.mem with selfRefresh := s.mem.selfRefresh.filter fun t => !r.stacks.contains t } }

/-- A stack leaves self-refresh at the next request: those of a range of memory keys. -/
def State.wakeRange (s : State) (lo n : Nat) : State :=
  if s.mem.selfRefresh.isEmpty then s else
  let lines := upFrom (lo / 64) ((lo + n - 1) / 64 + 1 - lo / 64)
  let hit := lines.filterMap s.rgn.stackOfLine
  { s with mem := { s.mem with selfRefresh := s.mem.selfRefresh.filter fun t => !hit.contains t } }

/-- Heat of the pages of a range of a TIERED region rises by one for each 64-byte access (R194). -/
def Region.heatUp (r : Region) (off len : Nat) : Region :=
  if r.kind != 1 then r else
  { r with heat := (chunksOf off len).foldl (fun h c =>
      let p := c.1 / pageBytes
      h.set p (min 255 (h.getD p 0 + ((c.1 + c.2 - 1) / 64 + 1 - c.1 / 64)))) r.heat }

/-- A page's migration is in flight no longer: abandoned, or done (R196). -/
def Rgn.abandonMigration (g : Rgn) (id page : Nat) : Rgn :=
  { g with migrations := g.migrations.filter fun m => !(m.region == id && m.page == page) }

/-- Starts the promotion of a hot page, after a demotion of the coldest page, the first listed on a tie, when the region's T2
share is full (R194). DESIGN CHOICE, log 166. -/
def Rgn.promote (g : Rgn) (id page : Nat) : Rgn :=
  match g.get id with
  | none => g
  | some r =>
    let heat := r.heat.getD page 0
    let busy := g.migrations.any fun m => m.region == id && m.page == page
    let free := r.inT2.length + (g.migrations.filter fun m => m.region == id && m.toT2).length < r.t2Pages
    if r.kind != 1 || r.inT2.contains page || r.pinned.contains page || heat < 32 || busy || r.stale
        || 64 ≤ g.migrations.length then g
    else if free then { g with migrations := g.migrations ++ [⟨id, page, true⟩] }
    else
      let cold := (r.inT2.filter fun p => !r.pinned.contains p).foldl
        (fun best p => match best with
          | none => some p
          | some q => if r.heat.getD p 0 < r.heat.getD q 0 then some p else some q) (none : Option Nat)
      match cold with
      | none => g
      | some q =>
        if r.heat.getD q 0 + 16 ≤ heat && g.migrations.length + 2 ≤ 64
            && !(g.migrations.any fun m => m.region == id && m.page == q)
        then { g with migrations := g.migrations ++ [⟨id, q, false⟩, ⟨id, page, true⟩] } else g

/-- Promotions that the limit of 64 has held back start once it allows them (R194). -/
def Rgn.promoteHot (g : Rgn) : Rgn :=
  g.regions.foldl (fun g r => if r.kind != 1 then g
    else (r.heat.filter fun h => decide (32 ≤ h.2)).foldl (fun g h => g.promote r.id h.1) g) g

/-- A write that reaches a migrating page's home abandons the migration; the place it held is free for a page held back (R194,
R196). -/
def Rgn.writeAbandons (g : Rgn) (id page : Nat) : Rgn :=
  if g.migrating id page then (g.abandonMigration id page).promoteHot else g

/-- The heat and promotion effects of an access to a region range (R194). -/
def State.heatAccess (s : State) (id off len : Nat) : State :=
  match s.rgn.get id with
  | none => s
  | some r =>
    if r.kind != 1 then s else
    let g := s.rgn.put (r.heatUp off len)
    { s with rgn := (chunksOf off len).foldl (fun g c => g.promote id (c.1 / pageBytes)) g }

/-- An agent without a cache reads a range of a region: bytes and the state after (R191, R270). -/
def State.readRegion (s : State) (r : Region) (off len : Nat) : Bytes × State :=
  let s := (chunksOf off len).foldl (fun s c =>
    ((s.cleanRange (r.key c.1) c.2).wakeRange (r.key c.1) c.2).placeKey r c.1 (r.key c.1) c.2) s
  let d := (r.chunks off len).flatMap fun c => s.mem.read c.1 c.2
  (d, s.heatAccess r.id off len)

/-- An agent without a cache writes bytes to memory keys: copies are invalidated, then the bytes are written
(R269). -/
def State.writeKey (s : State) (k : Nat) (d : Bytes) : State :=
  let s := (s.invalRange k d.length).wakeRange k d.length
  let s := { s with mem := s.mem.write k d }
  s.combineRange k d.length

/-- An agent without a cache writes bytes at an offset of a region. -/
def State.writeRegion (s : State) (r : Region) (off : Nat) (d : Bytes) : State :=
  let s := (chunksOf off d.length).foldl (fun (a : State × Bytes) c =>
    (((a.1.writeKey (r.key c.1) (a.2.take c.2)).placeKey r c.1 (r.key c.1) c.2), a.2.drop c.2)) (s, d)
  let s := s.1
  let g := (chunksOf off d.length).foldl
    (fun (g : Rgn) (c : Nat × Nat) => g.writeAbandons r.id (c.1 / pageBytes)) s.rgn
  { s with rgn := g }.heatAccess r.id off d.length

/-- Every write-combining entry drains (R219). -/
def State.fence (s : State) : State := { s with mem := { s.mem with wc := [] } }

/-! ### Accesses by device virtual address -/

/-- How an access to a range would end: it can proceed, the first translation fault with its address, a
host-stale page (R471), a wait at the home for a flipping page or a line's outstanding transaction (R260, R264), a line
whose host copy must go or give its data first (R256, R269, R270), a poisoned line (region, page, line within the page). -/
inductive AccRes where
  | ok
  | fault (kind va : Nat)
  | stale
  | waits
  | hostHeld
  | poison (region page line : Nat)
  deriving DecidableEq, Repr

/-- The region and offset that the tables give an address, or the fault, with lines poisoned. -/
def Rgn.place (g : Rgn) (poison : List Nat) (va : Nat) (store : Bool) : Except Nat (Region × Nat) :=
  match g.walk poison va store with
  | .fault k => .error k
  | .leaf lvl e =>
    let t := leafTarget lvl e va
    match g.get t.1 with
    | some r => .ok (r, t.2)
    | none => .error 4

/-- The region and offset an address translates to, or the fault. -/
def State.xlate (s : State) (va : Nat) (store : Bool) : Except Nat (Region × Nat) := s.rgn.place s.mem.poison va store

/-- Where the bytes of an address lie that an agent has been permitted to access: a leaf in its cache serves it whatever
has become of the table's line (R242). -/
def State.spot (s : State) (va : Nat) (store : Bool) : Except Nat (Region × Nat) := s.rgn.place [] va store

/-- An access to the range waits for the host: it may hold a line modified, or for a write at all, or an answer is
outstanding (R256, R269, R270). -/
def Coh.awaitsHost (c : Coh) (store : Bool) (lo n : Nat) : Bool :=
  c.dir.any (fun e => e.host && (store || !e.clean) && inRange lo n e.line) || c.binv.any fun b => inRange lo n b.line

/-- A transaction is outstanding on a line of a region's range (R264). -/
def Coh.busyIn (c : Coh) (region off n : Nat) : Bool := c.txns.any fun t => t.region == region && inRange off n (t.off / 64)

/-- Checks one page's part of an access. -/
def State.accessChunk (s : State) (store : Bool) (c : Nat × Nat) : AccRes :=
  match s.xlate c.1 store with
  | .error k => .fault k c.1
  | .ok (r, off) =>
    let page := off / pageBytes
    let k := r.key off
    if r.stalePage page then .stale
    else if r.flipping.contains page || s.coh.busyIn r.id off c.2 then .waits
    else if s.coh.awaitsHost store k c.2 then .hostHeld
    else if store then .ok
    else match s.mem.poisonIn k c.2 with
      | some l => .poison r.id page (l % 1024)
      | none => .ok

/-- Checks a range: translation of every page first (R245, R246, R476), then the rest in address order. -/
def State.access (s : State) (va len : Nat) (store : Bool) : AccRes :=
  let cs := chunksOf va len
  match cs.findSome? (fun c => match s.xlate c.1 store with | .error k => some (AccRes.fault k c.1) | .ok _ => none) with
  | some f => f
  | none =>
    match cs.findSome? (fun c => match s.accessChunk store c with | .ok => none | f => some f) with
    | some f => f
    | none => .ok

/-- The same for an agent with a translation cache: pages in its cache need no walk (R242, R244). -/
def State.accessIn (s : State) (c va len : Nat) (store : Bool) : AccRes :=
  (if (chunksOf va len).all fun x => (s.rgn.cached c x.1).isSome
    then { s with mem := { s.mem with poison := s.mem.poison.filter fun l => decide (l < 2 ^ 60) } } else s).access va len
      store

/-- The first access of a list that cannot proceed, for an agent with a cache. -/
def State.firstObstacle (s : State) (c : Nat) : List (Nat × Nat × Bool) → Option (AccRes × Nat × Nat × Bool)
  | [] => none
  | (va, n, st) :: r =>
    match s.accessIn c va n st with
    | .ok => s.firstObstacle c r
    | o => some (o, va, n, st)

/-- The pages of a range enter an agent's cache. -/
def State.lookRange (s : State) (c va len : Nat) : State := (chunksOf va len).foldl (fun s x => s.look c x.1) s

/-- Reads a range by device virtual address; untranslatable pages give nothing. -/
def State.readVa (s : State) (va len : Nat) : Bytes × State :=
  (chunksOf va len).foldl (fun (a : Bytes × State) c =>
    match a.2.spot c.1 false with
    | .ok (r, off) => let x := a.2.readRegion r off c.2; (a.1 ++ x.1, x.2)
    | .error _ => (a.1 ++ zeros c.2, a.2)) ([], s)

/-- The bytes a range reads as, without the access's side effects. -/
def State.peekVa (s : State) (va len : Nat) : Bytes := (s.readVa va len).1

/-- Writes bytes by device virtual address. DESIGN CHOICE, log 43. -/
def State.writeVa (s : State) (va : Nat) (d : Bytes) : State :=
  ((chunksOf va d.length).foldl (fun (a : State × Bytes) c =>
    ((match a.1.spot c.1 true with
      | .ok (r, off) => a.1.writeRegion r off (a.2.take c.2)
      | .error _ => a.1), a.2.drop c.2)) (s, d)).1

/-- The bytes of a range of memory keys become undefined (DESIGN CHOICE, log 6), as after a write of unknown bytes (R269). -/
def State.undefine (s : State) (k n : Nat) : State :=
  let s := s.invalRange k n
  { s with fresh := s.fresh + 1, mem := s.mem.undefine k n s.fresh }

/-- The bytes of a range of device virtual addresses become undefined, where they translate for a store. -/
def State.undefineVa (s : State) (va len : Nat) : State :=
  (chunksOf va len).foldl (fun s c =>
    match s.spot c.1 true with
    | .ok (r, off) => s.undefine (r.key off) c.2
    | .error _ => s) s

/-- The bytes of a range of a region become undefined. -/
def State.undefineRegion (s : State) (r : Region) (off len : Nat) : State :=
  (r.chunks off len).foldl (fun s c => s.undefine c.1 c.2) s

/-- The host backing of every TIERED region holds undefined bytes when the regions end (R190, R192). -/
def State.freeBacking (s : State) : State :=
  (s.rgn.regions.filter (·.kind == 1)).foldl (fun s r =>
    { s with fresh := s.fresh + 1, mem := s.mem.undefine (2 ^ 56 + r.hostBase) r.size s.fresh }) s

/-- Recalls the host copies of a range of memory keys so that a waiting access can go on: for a read the data, the copy
staying unmodified (R270), for a write the copy (R256, R269). DEDUCED, log 42. -/
def State.recallKey (s : State) (store : Bool) (k n : Nat) : State :=
  let held := s.coh.dir.filter fun e => e.host && (store || !e.clean) && inRange k n e.line
    && !(s.coh.binv.any (·.line == e.line))
  { s with
    coh := { s.coh with binv := s.coh.binv ++ held.map fun e => ⟨e.line, 0, !store⟩ }
    out := s.out ++ held.map fun e => Output.backInvalidate (s.rgn.hpaOfLine e.line) (!store) }

/-- The same for a range of device virtual addresses. -/
def State.recallHost (s : State) (va len : Nat) (store : Bool) : State :=
  (chunksOf va len).foldl (fun s c =>
    match s.spot c.1 false with
    | .error _ => s
    | .ok (r, off) => s.recallKey store (r.key off) c.2) s

/-- An access to a range of a region by its offset waits at its home, or for the host: the state with the recalls sent. -/
def State.regionWait (s : State) (r : Region) (off n : Nat) (store : Bool) : Option State :=
  if s.coh.dir.isEmpty && s.coh.binv.isEmpty && s.coh.txns.isEmpty && r.flipping.isEmpty then none
  else if (chunksOf off n).any (fun c => r.flipping.contains (c.1 / pageBytes)) || s.coh.busyIn r.id off n then some s
  else if (r.chunks off n).any (fun c => s.coh.awaitsHost store c.1 c.2) then
    some ((r.chunks off n).foldl (fun s c => s.recallKey store c.1 c.2) s)
  else none

/-- The tables change: the lines of tables newly taken from free space are written whole, which ends their poison (R223,
R235). -/
def State.withTables (s : State) (g : Rgn) : State :=
  let new := g.tables.filter fun t => !s.rgn.tables.contains t
  { s with
    rgn := g
    mem := { s.mem with poison := s.mem.poison.filter fun l => !new.any fun t => inRange (2 ^ 66 + t.1) t.2 l } }

/-- Resolves the demand faults of a range one after another (R248); none when table space has no room. -/
def State.resolveRange (s : State) (va len : Nat) : Option State :=
  (chunksOf va len).foldlM (fun s c =>
    match s.xlate c.1 false with
    | .error 1 => (s.rgn.resolve c.1).map s.withTables
    | _ => some s) s

end Sys2Proof.Machine
end

