-- ==== Sys2Proof/Machine/Operands.lean ====
section
/-! DEFINITION. The operands of mailbox commands: the request a slot holds (R484), its checks before a
command's own (R490, R492, R494, R507, R509), the order of commands (R487, R491, R510), and the reply
(R487 step 5, R496, R507). -/

namespace Sys2Proof.Machine

/-! ### Requests -/

/-- A request read from a slot. -/
structure Req where
  slot : Nat
  opcode : Nat
  flags : Nat
  tag : Nat
  len : Nat
  headerZero : Bool
  pay : Bytes
  deriving DecidableEq, Repr

/-- First byte of a slot among the slots' bytes. -/
def slotBase (k : Nat) : Nat := k * 4096

/-- The request in a slot (R484). -/
def Mbx.req (m : Mbx) (k : Nat) : Req :=
  let b := slotBase k
  let len := leNat (m.cells.readN (b + 8) 4)
  { slot := k
    opcode := leNat (m.cells.readN b 2)
    flags := leNat (m.cells.readN (b + 2) 2)
    tag := leNat (m.cells.readN (b + 4) 4)
    len := len
    headerZero := (m.cells.readN (b + 12) 44).all (· == 0#8)
    pay := m.cells.readN (b + 0x40) (min len 1984) }

/-- The OWN bit of a slot. -/
def Mbx.own (m : Mbx) (k : Nat) : Bool := m.cells.read (slotBase k + 0x38) == 1#8

/-- A request's payload field: `n` bytes at an offset, as a number (R6). -/
def Req.f (r : Req) (off n : Nat) : Nat := fld r.pay off n

/-- Bits `[hi:lo]` of the `n` bytes at an offset are zero (R12). -/
def Req.rz (r : Req) (off n hi lo : Nat) : Bool := bits (r.f off n) hi lo == 0

/-- `n` bytes at an offset are zero (R12). -/
def Req.zb (r : Req) (off n : Nat) : Bool := allZero r.pay off n

/-- The request came from a core slot (R484). -/
def Req.fromCore (r : Req) : Bool := decide (64 ≤ r.slot)

/-! ### The command table (R507, R509, R510) -/

/-- Opcodes that Porip 1.0 defines (R507). -/
def opcodes : List Nat :=
  [0x0101, 0x0102, 0x0103, 0x0104, 0x0105, 0x0201, 0x0202, 0x0203, 0x0204, 0x0205, 0x0206, 0x0207,
   0x0301, 0x0302, 0x0303, 0x0304, 0x0305, 0x0306, 0x0307, 0x0401, 0x0402, 0x0403, 0x0404, 0x0405,
   0x0501, 0x0502, 0x0503, 0x0601, 0x0602, 0x0603, 0x0701, 0x0702, 0x0801, 0x0802, 0x0803, 0x0804,
   0x0901, 0x0902, 0x0903, 0x0904, 0x0A01, 0x0A02, 0x0A03]

/-- Configuration commands (kind C of the command table, R510). -/
def configOpcodes : List Nat :=
  [0x0105, 0x0201, 0x0202, 0x0203, 0x0204, 0x0205, 0x0206, 0x0301, 0x0302, 0x0401, 0x0402, 0x0403,
   0x0404, 0x0501, 0x0602, 0x0801, 0x0803, 0x0804, 0x0903, 0x0904, 0x0A01, 0x0A02, 0x0A03]

/-- Commands for the host only (kind H, R509). -/
def hostOpcodes : List Nat := [0x0105, 0x0602, 0x0903, 0x0904, 0x0A01, 0x0A02, 0x0A03]

/-- Commands that execute in BOOT, SELFTEST and FAILED (R494). -/
def earlyOpcodes : List Nat := [0x0101, 0x0102, 0x0103, 0x0902, 0x0901, 0x0903, 0x0904, 0x0105]

/-- Request length of a command (R507, R630). -/
def requestLen (r : Req) : Nat :=
  let op := r.opcode
  if op = 0x0102 || op = 0x0601 then 0
  else if op = 0x0101 || op = 0x0104 || op = 0x0105 || op = 0x0206 || op = 0x0207 || op = 0x0302
    || op = 0x0404 || op = 0x0405 || op = 0x0503 || op = 0x0603 || op = 0x0702 || op = 0x0902
    || op = 0x0904 then 8
  else if op = 0x0103 || op = 0x0202 || op = 0x0203 || op = 0x0204 || op = 0x0205 || op = 0x0301
    || op = 0x0306 || op = 0x0502 || op = 0x0802 || op = 0x0903 || op = 0x0A03 then 16
  else if op = 0x0303 || op = 0x0304 || op = 0x0307 || op = 0x0402 || op = 0x0403 then 24
  else if op = 0x0201 || op = 0x0401 || op = 0x0A01 || op = 0x0A02 then 32
  else if op = 0x0305 then 16 + 8 * r.f 2 2
  else if op = 0x0801 then 16 + 8 * r.f 0 2
  else if op = 0x0901 then 40
  else if op = 0x0804 then 48
  else if op = 0x0602 then 1040
  else 64

/-- The step that is running or voted: the active one, or the one that a warm reset has interrupted and that awaits its
recovery (R332, R355). -/
def Stp.current (t : Stp) : Option Step := t.active.orElse fun _ => t.resume.bind (·.step)

/-- A step is active. -/
def State.stepActive (s : State) : Bool := s.stp.current.isSome

/-- Tags of commands accepted and not yet DONE (R492): the command in progress, the steps queued and
active, the transfers in DMA channels that have not ended. -/
def State.liveTags (s : State) : List Nat :=
  (s.mbx.prog.map (·.tag)).toList
    ++ ((s.stp.current.toList ++ s.stp.queued.toList).map (·.tag)).filter (fun t =>
        !(s.stp.words.any fun w => w.tag == t && (match w.st with | .done _ => true | _ => false)))
    ++ s.dma.chans.flatMap fun c =>
      (if c.2.active.valid && !c.2.active.ended then [c.2.active.tag] else [])
        ++ (if c.2.shadow.valid && !c.2.shadow.ended then [c.2.shadow.tag] else [])

/-- A command may not execute in this DEV_STATE (R494). -/
def State.gated (s : State) (op : Nat) : Bool :=
  s.dev.mode != .ready
    && (!earlyOpcodes.contains op
      || (s.dev.failCause == some .thermal && (op == 0x0904 || op == 0x0105)))

/-- Header, DEV_STATE, tag, length and issuer checks in the order of R490; the code of the first that
fails. DEDUCED, log 34. -/
def State.preCheck (s : State) (r : Req) : Option Nat :=
  if r.flags ≠ 0 || !r.headerZero || 1984 < r.len then some cBAD_ARG
  else if s.gated r.opcode then some cNOT_READY
  else if s.liveTags.contains r.tag then some cBAD_ARG
  else if r.len ≠ requestLen r then some cBAD_ARG
  else if r.fromCore && hostOpcodes.contains r.opcode then some cBAD_ARG
  else none

/-! ### Order and reply -/

/-- Commands are answered: the front end and a Ranger run, and cold-start step 8 has completed (R572). -/
def State.serves (s : State) : Bool := s.aon.pwrgd && !s.aon.resetWait && s.dev.serving

/-- The slot whose command starts next: QUERY and ABORT ahead of every command not yet started, otherwise
latch order, where a configuration command waits for the one in progress (R491, R510; DEDUCED, log 12). -/
def State.front (s : State) : Option Nat :=
  match s.mbx.latch.find? (fun k => let op := (s.mbx.req k).opcode; op == 0x0103 || op == 0x0104) with
  | some k => some k
  | none =>
    match s.mbx.latch with
    | [] => none
    | k :: _ =>
      if configOpcodes.contains (s.mbx.req k).opcode && s.mbx.prog.isSome then none else some k

/-- The reply bytes of a slot: status word, tag, length, payload; OWN clears (R487 step 5, R496). DEDUCED, log 140. -/
def Mbx.putReply (m : Mbx) (k tag status : Nat) (d : Bytes) : Mbx :=
  let b := slotBase k
  let c := m.cells.writeN (b + 0x800) (leBytes 4 status ++ leBytes 4 tag ++ leBytes 4 d.length)
  let c := c.writeN (b + 0x840) (d.take 1984)
  { m with cells := c.write (b + 0x38) 0#8 }

/-- The reply of a command, with the pending list as it stands (R497). -/
def State.reply (s : State) (k tag code : Nat) (d : Bytes) : State :=
  { s with mbx := s.mbx.putReply k tag (statusWord s.att code) d }

/-- The latch queue without a slot. -/
def Mbx.unlatch (m : Mbx) (k : Nat) : Mbx := { m with latch := m.latch.filter (· != k) }

/-- Commands with an undefined opcode that come to the front are answered BAD_OPCODE (R490; no row of the
table names them). -/
def serveUndefined : Nat → State → State
  | 0, s => s
  | n + 1, s =>
    if !s.serves then s else
    match s.front with
    | some k =>
      let r := s.mbx.req k
      if opcodes.contains r.opcode then s
      else serveUndefined n ({ s with mbx := s.mbx.unlatch k }.reply k r.tag cBAD_OPCODE [])
    | none => s

/-- The same for as many as are latched. -/
def State.drainUndefined (s : State) : State := serveUndefined s.mbx.latch.length s

/-- What a command's body answers: a code and the reply payload, or nothing yet. -/
abbrev Resp := Option (Nat × Bytes)

/-- A reply with a code and no payload. -/
def rcode (c : Nat) : Resp := some (c, [])

/-- What a command's body answers when an access of it waits at its home or for the host (R256, R260, R270): no completion
code. -/
def cWAIT : Nat := 0x100

/-- The primary Ranger takes the request of a slot and runs its command: the slot must be at the front and
hold a request this row serves (`mine`), otherwise nothing happens; then the checks of R490 and the
command's own `body`. A command that must wait for a line stays in its slot. DESIGN CHOICE, log 33. DESIGN CHOICE, log 112.
DESIGN CHOICE, log 156. -/
def State.take (s : State) (k : Nat) (mine : Req → Bool) (body : Req → State → State × Resp) : State :=
  let r := s.mbx.req k
  if !s.serves || s.front != some k || !mine r then s else
  let s1 := { s with mbx := s.mbx.unlatch k, aon := { s.aon with primary := if s.aon.primary = RangerState.rom then .rom else .awake } }
  match s1.preCheck r with
  | some c => (s1.reply k r.tag c []).drainUndefined
  | none =>
    let x := body r s1
    match x.2 with
    | some (c, d) => if c = cWAIT then { x.1 with mbx := s.mbx } else (x.1.reply k r.tag c d).drainUndefined
    | none => x.1

/-- The command in progress replies (R510), and what waited behind it may start. -/
def State.finishProg (s : State) (code : Nat) (d : Bytes) : State :=
  match s.mbx.prog with
  | none => s
  | some p => ({ s with mbx := { s.mbx with prog := none } }.reply p.slot p.tag code d).drainUndefined

/-- A 64-bit address field of a request is a device virtual address (R227). -/
def vaOk (a : Nat) : Bool := a / 2 ^ 56 == 0

/-- A command's access has failed with a code: after NO_RESOURCE and INTERNAL the bytes it was to write are undefined
(R636; DESIGN CHOICE, log 6). -/
def State.cmdFailed (s : State) (code : Nat) (undef : State → State) : State × Resp :=
  (if code = cNO_RESOURCE || code = cINTERNAL then undef s else s, rcode code)

/-- Memory failures of commands before they move a byte (R636): the code, and whether FAULT attention goes
with it; otherwise the state with the range's demand faults resolved. UNMAPPED and WRITE faults give
`unmapped`. -/
def State.cmdAccess (s : State) (va len : Nat) (store : Bool) (unmapped : Nat) : Except (Nat × State) State :=
  let stale := (chunksOf va len).any fun c =>
    match s.rgn.byVa c.1 with
    | some (r, off) => r.stalePage (off / pageBytes)
    | none => false
  if stale then .error (cHOST_LOST, s)
  else if s.vaStopped va len then .error (cINTERNAL, s) else
  match s.resolveRange va len with
  | none => .error (cNO_RESOURCE, s)
  | some s =>
    match s.access va len store with
    | .ok => .ok s
    | .waits => .error (cWAIT, s)
    | .hostHeld => .error (cWAIT, s.recallHost va len store)
    | .stale => .error (cHOST_LOST, s)
    | .fault 4 a => .error (cINTERNAL, s.raise aFAULT cINTERNAL noTag (unitField uWalker 0 0) a)
    | .fault _ _ => .error (unmapped, s)
    | .poison reg page line =>
      .error (cINTERNAL, s.raise aFAULT cINTERNAL noTag
        (unitField uStack (match s.rgn.get reg with | some r => r.stackOf (page * pageBytes + line * 64) | none => 0) 0)
        (page * pageBytes + line * 64))

end Sys2Proof.Machine
end

