-- ==== Sys2Proof/Machine/PlanView.lean ====
section
/-! DEFINITION. What a plan's container says: sections, descriptors, operations, settings (R317 to R324), the
geometry of tiles and tensors (R79 to R84), and what else names memory (R240). -/

namespace Sys2Proof.Machine

/-! ### Formats and tiles -/

/-- Bits of an element of a format (R46). -/
def formatBits (f : Nat) : Nat :=
  if f = 0 then 32 else if f = 1 || f = 2 then 16
  else if f = 3 || f = 4 || f = 6 || f = 7 then 8
  else if f = 11 then 3 else if f = 12 then 2 else 4

/-- Bytes of a tile's elements. -/
def elemBytes (f : Nat) : Nat := 2048 * formatBits f

/-- A codebook format: K4, K3 or K2. -/
def isCodebook (f : Nat) : Bool := f == 10 || f == 11 || f == 12

/-- Bytes of a tile's per-block data by scale mode: NONE, E8, SZP. -/
def blockBytes (mode : Nat) : Nat := if mode = 1 then 512 else if mode = 2 then 2048 else 0

/-- Bytes of a tile's codebook field. -/
def bookBytes (f : Nat) : Nat := if isCodebook f then 64 else 0

/-- A tensor descriptor (R84). -/
structure TD where
  format : Nat
  rank : Nat
  trailing : Bool
  top : Bool
  axis1 : Bool
  mode : Nat
  cbF8 : Bool
  col : Bool
  region : Nat
  rw : Nat
  va : Nat
  dims : List Nat
  strides : List Nat
  deriving DecidableEq, Repr

/-- The descriptor that 64 bytes hold. -/
def TD.ofBytes (b : Bytes) : TD :=
  { format := bits (byteAt b 0) 3 0
    rank := bits (byteAt b 1) 2 0
    trailing := bit (byteAt b 2) 4
    top := bit (byteAt b 2) 3
    axis1 := bit (byteAt b 2) 2
    mode := bits (byteAt b 2) 1 0
    cbF8 := bit (byteAt b 3) 1
    col := bit (byteAt b 3) 0
    region := bits (byteAt b 4) 5 0
    rw := fld b 6 2
    va := fld b 8 7
    dims := (List.range 6).map fun i => fld b (0x10 + 4 * i) 4
    strides := (List.range 6).map fun i => fld b (0x28 + 4 * i) 4 }

/-- Size of a dimension. -/
def TD.dim (t : TD) (i : Nat) : Nat := t.dims.getD i 1

/-- Stride of a dimension in tile pitches. -/
def TD.stride (t : TD) (i : Nat) : Nat := t.strides.getD i 0

/-- Bytes of a tile record's element area. -/
def TD.elems (t : TD) : Nat := elemBytes t.format

/-- Bytes of a tile's per-block data and codebook field. -/
def TD.side (t : TD) : Nat := blockBytes t.mode + bookBytes t.format

/-- The tile pitch (R79). -/
def TD.pitch (t : TD) : Nat := if t.trailing then t.elems else t.elems + t.side

/-- Tile steps along a dimension: tiles for dimensions 0 and 1, elements for the others (R84). -/
def TD.steps (t : TD) (i : Nat) : Nat := if i < 2 then ceilDiv (t.dim i) 128 else t.dim i

/-- The tile index of a tile's coordinates (R82, R84). -/
def TD.tileIndex (t : TD) (c : List Nat) : Nat :=
  ((List.range 6).map fun i => c.getD i 0 * t.stride i).sum

/-- The highest tile index (R82). -/
def TD.topIndex (t : TD) : Nat := ((List.range 6).map fun i => (t.steps i - 1) * t.stride i).sum

/-- Bytes from TD_VA to the end of the last record and the trailing area (R82, R85). -/
def TD.extent (t : TD) : Nat := (t.topIndex + 1) * (t.elems + t.side)

/-- Every tile's coordinates, dimension 5 outermost, dimension 0 fastest. -/
def TD.tiles (t : TD) : List (List Nat) :=
  (List.range 6).foldr (fun i acc => acc.flatMap fun c => (List.range (t.steps i)).map fun k => k :: c) [[]]

/-- Where the elements and the side data of the tile with an index lie: addresses (R82, R84). -/
def TD.recordAt (t : TD) (idx : Nat) : Nat × Nat :=
  let e := t.va + t.pitch * idx
  (e, if t.trailing then t.va + t.pitch * (t.topIndex + 1) + t.side * idx else e + t.elems)

/-- The byte ranges of a tile record: elements, then side data. -/
def TD.recordPieces (t : TD) (idx : Nat) : List Piece :=
  let r := t.recordAt idx
  if t.side = 0 then [⟨r.1, t.elems⟩]
  else if t.trailing then [⟨r.1, t.elems⟩, ⟨r.2, t.side⟩]
  else [⟨r.1, t.elems + t.side⟩]

/-- Number of elements of a tensor. -/
def TD.count (t : TD) : Nat := (t.dims).foldl (· * ·) 1

/-! ### The container -/

/-- Offset and entry count of a section (R318). -/
def sectOf (b : Bytes) (i : Nat) : Nat × Nat := (fld b (0x40 + 8 * i) 4, fld b (0x44 + 8 * i) 4)

/-- Bytes of a section entry (R319). -/
def sectEntry (i : Nat) : Nat := [64, 8, 64, 1, 8, 4, 128, 4].getD i 1

/-- Entry `k` of a section. -/
def entryOf (b : Bytes) (i k : Nat) : Bytes :=
  (b.drop ((sectOf b i).1 + sectEntry i * k)).take (sectEntry i)

/-- Number of entries of a section of the plan. -/
def Plan.count (p : Plan) (i : Nat) : Nat := (sectOf p.bytes i).2

/-- A field of the settings section (R320). -/
def Plan.setting (p : Plan) (off n : Nat) : Nat := fld (entryOf p.bytes 6 0) off n

/-- MB_COUNT. -/
def Plan.mbCount (p : Plan) : Nat := bits (p.setting 1 1) 5 0

/-- PL_NONDET. -/
def Plan.nondet (p : Plan) : Bool := bit (fld p.bytes 6 2) 0

/-- PL_SEED. -/
def Plan.seed (p : Plan) : Nat := fld p.bytes 8 8

/-- PL_SIZE and PL_CHECK. -/
def Plan.size (p : Plan) : Nat := fld p.bytes 0x10 4
def Plan.check (p : Plan) : Nat := fld p.bytes 0x14 4

/-- The descriptor with an id as the container holds it. -/
def Plan.rawTd (p : Plan) (id : Nat) : TD := TD.ofBytes (entryOf p.bytes 0 id)

/-- A descriptor with the format in force (R76, R78). -/
def TD.inFormat (t : TD) (fm : Option Nat) : TD :=
  match fm with
  | some f => { t with format := bits f 3 0, mode := bits f 5 4, top := t.top && bits f 5 4 == 1 }
  | none => t

/-- The descriptor that micro-batch `b` of an operation uses: format in force, moved by the micro-batch
offset (R323). -/
def Plan.td (p : Plan) (id b : Nat) : TD :=
  let t := (p.rawTd id).inFormat (p.formats.get id)
  { t with va := t.va + b * leNat (entryOf p.bytes 1 id) }

/-- An operation header (R321). -/
structure OpHdr where
  code : Nat
  bwd : Bool
  perMb : Bool
  layer : Nat
  ins : List Nat
  outs : List Nat
  param : Nat
  paramLen : Nat
  deriving DecidableEq, Repr

/-- The header that 64 bytes hold. -/
def OpHdr.ofBytes (b : Bytes) : OpHdr :=
  { code := fld b 0 2
    bwd := bit (fld b 2 2) 1
    perMb := bit (fld b 2 2) 0
    layer := fld b 4 2
    ins := (List.range 4).map fun i => fld b (8 + 2 * i) 2
    outs := (List.range 2).map fun i => fld b (0x10 + 2 * i) 2
    param := fld b 0x14 4
    paramLen := fld b 0x18 4 }

/-- The operation with an index. -/
def Plan.op (p : Plan) (i : Nat) : OpHdr := OpHdr.ofBytes (entryOf p.bytes 2 i)

/-- The parameter block of an operation (R322). -/
def Plan.param (p : Plan) (i : Nat) : Bytes :=
  let h := p.op i
  (p.bytes.drop ((sectOf p.bytes 3).1 + h.param)).take h.paramLen

/-- The slot of an operation that lies on a peer: its inputs' or its outputs' (R204, R206). -/
def Plan.peerIn (p : Plan) (i : Nat) : Bool := (p.op i).code == 0x0060 && bits (byteAt (p.param i) 0) 1 0 == 3
def Plan.peerOut (p : Plan) (i : Nat) : Bool := (p.op i).code == 0x0060 && bits (byteAt (p.param i) 0) 1 0 == 1

/-- A descriptor id stands for no tensor. -/
def absent : Nat := 0xFFFF

/-- Input `j` of an operation's instance; none when absent. -/
def Plan.inTd (p : Plan) (i j b : Nat) : Option TD :=
  let d := (p.op i).ins.getD j absent
  if d = absent then none else some (p.td d b)

/-- Output `j` of an operation's instance; none when absent. -/
def Plan.outTd (p : Plan) (i j b : Nat) : Option TD :=
  let d := (p.op i).outs.getD j absent
  if d = absent then none else some (p.td d b)

/-- Indices of the operations of a class. -/
def Plan.opsOf (p : Plan) (code : Nat) : List Nat :=
  (List.range (p.count 2)).filter fun i => (p.op i).code == code

/-- The plan with a handle. -/
def Pln.get (l : Pln) (h : Nat) : Option Plan := l.plans.find? (·.handle == h)

/-- A plan with its entry of the donor's continuity record: its formats, its word, the donor's stamp (R605). -/
def Plan.continued (p : Plan) (c : Continuity) : Plan :=
  match c.plans[p.loadNo]? with
  | none => { p with continuityBad := true }
  | some e =>
    { p with
      lsExp := e.lsExp, clean := e.clean, base := e.formats, formats := e.formats
      stampRing := c.stamp.toNat % 2 ^ 48, stampCount := c.stamp.toNat / 2 ^ 48
      continuityBad := e.formats.any fun x => decide (p.count 0 ≤ x.1) }

/-- Replaces the plan with the same handle. -/
def Pln.put (l : Pln) (p : Plan) : Pln :=
  { l with plans := l.plans.map fun q => if q.handle == p.handle then p else q }

/-- A plan holds an operation of class VERDICT, so that its steps advance the ring (R331). -/
def Plan.hasVerdict (p : Plan) : Bool := !(p.opsOf 0x0032).isEmpty

/-! ### What names a region (R240) -/

/-- Two byte ranges share a byte. -/
def overlaps (a n b m : Nat) : Bool := decide (a < b + m) && decide (b < a + n) && decide (0 < n) && decide (0 < m)

/-- A plan names a region by a descriptor that is not only a peer's (R186), or by a GLADE_BATCH's ready or release words. -/
def Plan.namesRegion (p : Plan) (r : Region) (hits : Nat → Nat → Bool) : Bool :=
  let ops := List.range (p.count 2)
  let own := fun (id : Nat) => ops.any fun i =>
    (!p.peerIn i && (p.op i).ins.contains id) || (!p.peerOut i && (p.op i).outs.contains id)
  let peers := fun (id : Nat) => ops.any fun i =>
    (p.peerIn i && (p.op i).ins.contains id) || (p.peerOut i && (p.op i).outs.contains id)
  ((List.range (p.count 0)).any fun id => (p.rawTd id).region == r.id && (own id || !peers id))
    || ops.any fun i => (p.op i).code == 0x0050 && [0x58, 0x60].any fun off =>
      let va := fld (p.param i) off 8
      va != 0 && hits va (8 * if (p.op i).perMb then p.mbCount else 1)

/-- A loaded plan, a queued or active DMA transfer or a Glade source names the region. -/
def State.regionNamed (s : State) (r : Region) : Bool :=
  let hits := fun (va len : Nat) =>
    match r.map with
    | some m => overlaps va len m.base r.size
    | none => false
  s.pln.plans.any (fun p => p.namesRegion r hits)
    || s.dma.chans.any (fun c =>
        let inSet := fun (d : DmaSet) => d.valid && !d.ended
          && (hits d.src d.len || hits d.dst (d.len + if d.crcMode = 0 then 0 else 4)
            || (d.flagEn && hits d.flagVa 8))
        inSet c.2.active || inSet c.2.shadow)
    || s.gld.sources.any (fun g =>
        g.stageRegion == r.id || hits g.manifestVa 1 || (g.spares != 0 && hits g.spareVa 1)
          || hits g.prepVa g.prepBytes)

end Sys2Proof.Machine
end

