-- ==== Sys2Proof/Machine/Regions.lean ====
section
/-! DEFINITION. The region commands: REGION_CREATE, REGION_REGISTER, BIAS_SET, OBJECT_PIN, MAP, UNMAP and
REGION_INFO (R187 to R198, R236 to R241, R254 to R261, R460, R461, R517, R518). -/

namespace Sys2Proof.Machine

/-! ### REGION_CREATE -/

/-- Highest legal RG_TARGET of an interleave mode, plus one (R187). -/
def targetBound (mode : Nat) : Nat := if mode = 0 then 1 else if mode = 1 then 2 else if mode = 2 then 24 else 768

/-- Every attribute of a request lies within its legal values (R187). -/
def regionLegal (kind mode target pages t2 base cache : Nat) : Bool :=
  decide (kind < 3) && decide (cache < 3) && (kind != 2 || mode == 0) && decide (target < targetBound mode)
    && decide (1 ≤ pages) && decide (pages ≤ 67108864)
    && (if kind = 1 then decide (t2 ≤ pages) else t2 == 0)
    && (if kind = 0 then base == 0 else base % pageBytes == 0)

/-- Lowest id from 0 to 63 that no region holds (R517). -/
def freeRegionId (g : Rgn) : Nat := ((List.range 64).find? fun i => (g.get i).isNone).getD 64

/-- RG_HDM_OFF of the next STACK region: the sizes of the STACK regions before it (R253). -/
def nextHdmOff (g : Rgn) : Nat := ((g.regions.filter (·.kind == 0)).map Region.size).sum

/-- Every channel the region needs has the pages it takes (R188, R189). -/
def channelsSuffice (g : Rgn) (mode target need : Nat) : Bool :=
  ((target % 768) :: channelSamples g.regions).all fun ch =>
    !usesChannel mode target ch || decide (channelShare mode need ≤ channelFree g.regions ch)

/-- The bytes of a range of memory keys become zero as full-line writes; cached copies, entries of the
write-combining buffers and poison of the range go (R190, R223, R269). -/
def State.zeroRange (s : State) (lo n : Nat) : State :=
  { s with
    mem := { s.mem with
      cells := s.mem.cells.zero lo n
      free := s.mem.free.flatMap (·.cut lo n)
      wc := s.mem.wc.filter fun e => !inRange lo n e.line
      poison := s.mem.poison.filter fun l => !inRange lo n l }
    coh := { s.coh with
      cached := s.coh.cached.filter fun c => !inRange lo n c.line
      dir := s.coh.dir.filter fun e => !inRange lo n e.line
      resv := s.coh.resv.filter fun c => !inRange lo n c.2 } }

/-- The body of REGION_CREATE. -/
def regionCreateBody (r : Req) (s : State) : State × Resp :=
  let kind := bits (r.f 0 1) 1 0
  let mode := bits (r.f 0 1) 3 2
  let cache := bits (r.f 0 1) 5 4
  let target := r.f 2 2
  let pages := r.f 4 4
  let t2 := r.f 8 4
  let base := r.f 0x10 8
  if !(r.rz 0 1 7 6 && r.rz 1 1 7 4 && r.zb 0x0C 4 && r.zb 0x18 8) then (s, rcode cBAD_ARG)
  else if !regionLegal kind mode target pages t2 base cache then (s, rcode cBAD_ARG)
  else
    let need := if kind = 0 then pages else if kind = 1 then t2 else 0
    if 64 ≤ s.rgn.regions.length || (kind != 2 && !channelsSuffice s.rgn mode target need) then
      (s, rcode cNO_RESOURCE)
    else
      let id := freeRegionId s.rgn
      let off := if kind = 0 then nextHdmOff s.rgn else 0
      let reg : Region :=
        { id := id, kind := kind, mode := mode, target := target, pages := pages, t2Pages := t2,
          hostBase := base, part := r.f 1 1, cache := cache, hdmOff := off, map := none, reg := none,
          stale := false, inT2 := [], pinned := [], heat := [], shared := [], flipping := [] }
      let s := if kind = 2 then s else (s.wakeRegion reg).zeroRange (id * 2 ^ 42) reg.size
      ({ s with rgn := { s.rgn with regions := s.rgn.regions ++ [reg] } },
        some (cOK, leBytes 1 id ++ zeros 7 ++ leBytes 8 off))

/-- REGION_CREATE (R187 to R190, R253, R517). -/
def execRegionCreate (k : SlotId) (s : State) : Host.Outcome State Fault Refusal :=
  .next (s.take k (·.opcode == 0x0201) regionCreateBody)

/-! ### REGION_REGISTER -/

/-- The window of a registration overlaps `[off, off + n)`. -/
def Region.windowHits (r : Region) (off n : Nat) : Bool :=
  match r.reg with
  | some g => overlaps g.barOff r.size off n
  | none => false

/-- The body of REGION_REGISTER (R460, R461); RR_SOURCES 0 removes the registration. It waits for the accesses that the
region's registration has admitted. -/
def regionRegisterBody (q : Req) (s : State) : State × Resp :=
  let sources := q.f 1 1
  let off := q.f 8 8
  if !(q.rz 0 1 7 6 && q.rz 2 1 7 2 && q.zb 3 5) then (s, rcode cBAD_ARG) else
  match s.rgn.get (bits (q.f 0 1) 5 0) with
  | none => (s, rcode cBAD_ARG)
  | some r =>
    if r.kind = 2 || 32 ≤ sources || off % pageBytes ≠ 0 || 2 ^ 42 < off + r.size then (s, rcode cBAD_ARG)
    else if sources ≠ 0 && s.rgn.regions.any (fun x => x.id != r.id && x.windowHits off r.size) then
      (s, rcode cBAD_ARG)
    else if s.hst.held.any fun w => w.place.any (·.1 == r.id) then (s, rcode cWAIT)
    else
      let reg := if sources = 0 then none
        else some ⟨off, sources, bit (q.f 2 1) 0, bit (q.f 2 1) 1⟩
      ({ s with rgn := s.rgn.put { r with reg := reg } }, rcode cOK)

/-- REGION_REGISTER (R460, R461). -/
def execRegionRegister (k : SlotId) (s : State) : Host.Outcome State Fault Refusal :=
  .next (s.take k (·.opcode == 0x0202) regionRegisterBody)

/-! ### BIAS_SET -/

/-- The pages of a page-range request. -/
def rangePages (q : Req) : List Nat := upFrom (q.f 4 4) (q.f 8 4)

/-- The region of a page-range request whose reserved bits are zero and whose range lies inside it. -/
def Rgn.pageRange (g : Rgn) (q : Req) : Option Region :=
  if !(q.rz 0 1 7 6 && q.rz 1 1 7 2 && q.zb 2 2 && q.zb 0x0C 4) then none else
  (g.get (bits (q.f 0 1) 5 0)).filter fun r => decide (1 ≤ q.f 8 4) && decide (q.f 4 4 + q.f 8 4 ≤ r.pages)

/-- First key and length of a page range of a STACK region. -/
def pageSpan (region first count : Nat) : Nat × Nat :=
  (region * 2 ^ 42 + first * pageBytes, count * pageBytes)

/-- Pages take a bias, and flipping ends (R258 step 4, R259). -/
def Rgn.setBias (g : Rgn) (region first count : Nat) (sharedBias : Bool) : Rgn :=
  match g.get region with
  | none => g
  | some r =>
    let out := r.shared.filter fun p => !(decide (first ≤ p) && decide (p < first + count))
    g.put { r with
      shared := if sharedBias then out ++ upFrom first count else out
      flipping := r.flipping.filter fun p => !(decide (first ≤ p) && decide (p < first + count)) }

/-- The body of BIAS_SET to shared: modified copies are written back, a fence, the pages become shared. -/
def biasSharedBody (q : Req) (s : State) : State × Resp :=
  match s.rgn.pageRange q with
  | none => (s, rcode cBAD_ARG)
  | some r =>
    if r.kind ≠ 0 || bits (q.f 1 1) 1 0 ≠ 1 then (s, rcode cBAD_ARG)
    else
      let sp := pageSpan r.id (q.f 4 4) (q.f 8 4)
      let s := (s.cleanRange sp.1 sp.2).fence
      ({ s with rgn := s.rgn.setBias r.id (q.f 4 4) (q.f 8 4) true }, rcode cOK)

/-- BIAS_SET to shared, and with a reserved target (R257, R258). -/
def execBiasSetShared (k : SlotId) (s : State) : Host.Outcome State Fault Refusal :=
  .next (s.take k (fun q => q.opcode == 0x0203 && bits (q.f 1 1) 1 0 != 0) biasSharedBody)

/-- Lines of a key range that the host may hold. -/
def Coh.hostHeld (c : Coh) (lo n : Nat) : List DirEntry := c.dir.filter fun e => e.host && inRange lo n e.line

/-- Sends back-invalidations for the lines of a range that the host may hold (R256). -/
def State.backInvalidate (s : State) (lo n : Nat) : State :=
  let held := (s.coh.hostHeld lo n).filter fun e => !(s.coh.binv.any (·.line == e.line))
  { s with
    coh := { s.coh with binv := s.coh.binv ++ held.map fun e => ⟨e.line, 0, false⟩ }
    out := s.out ++ held.map fun e => Output.backInvalidate (s.rgn.hpaOfLine e.line) false }

/-- The body of BIAS_SET to device: back-invalidates what the host may hold and waits for the answers. -/
def biasDeviceBody (q : Req) (s : State) : State × Resp :=
  match s.rgn.pageRange q with
  | none => (s, rcode cBAD_ARG)
  | some r =>
    if r.kind = 2 then (s, rcode cBAD_ARG)
    else if r.kind = 1 then (s, rcode cOK)
    else
      let first := q.f 4 4
      let count := q.f 8 4
      let sp := pageSpan r.id first count
      let s := ((s.cleanRange sp.1 sp.2).backInvalidate sp.1 sp.2).fence
      if (s.coh.hostHeld sp.1 sp.2).isEmpty && !(s.coh.binv.any fun b => inRange sp.1 sp.2 b.line) then
        ({ s with rgn := s.rgn.setBias r.id first count false }, rcode cOK)
      else
        ({ s with
            rgn := s.rgn.put { r with flipping := r.flipping ++ rangePages q }
            mbx := { s.mbx with prog := some ⟨q.slot, q.tag, .biasDevice r.id first count, false⟩ } }, none)

/-- BIAS_SET to device (R257, R259). -/
def execBiasSetDevice (k : SlotId) (s : State) : Host.Outcome State Fault Refusal :=
  .next (s.take k (fun q => q.opcode == 0x0203 && bits (q.f 1 1) 1 0 == 0) biasDeviceBody)

/-- A BIAS_SET to device in progress ends once the host holds no line of its range and no back-invalidation of it is
outstanding; copies that the host kept or took meanwhile are back-invalidated too. The pages take device bias; HOST_LOST when the link was lost during it (R259, R261). -/
def State.settleBias (s : State) : State :=
  match s.mbx.prog with
  | some ⟨_, _, .biasDevice reg first count, lost⟩ =>
    let sp := pageSpan reg first count
    if s.coh.binv.any fun b => inRange sp.1 sp.2 b.line then s
    else if !(s.coh.hostHeld sp.1 sp.2).isEmpty then s.backInvalidate sp.1 sp.2
    else ({ s with rgn := s.rgn.setBias reg first count false }).finishProg
      (if lost then cHOST_LOST else cOK) []
  | _ => s

/-! ### OBJECT_PIN -/

/-- Moves a store's bytes of `[src, src + n)` to `dst` on; what was at the destination goes. -/
def Store.moveRange (m : Store) (src dst n : Nat) : Store :=
  (m.filter fun c => decide (src ≤ c.1) && decide (c.1 < src + n)).foldl
    (fun acc c => acc.write (c.1 - src + dst) c.2) (m.zero dst n)

/-- Copies a page's 64 KiB between its tiers and switches its entry: cached copies are recalled first, and
poison travels with the data (R195). -/
def State.migrate (s : State) (id page : Nat) (toT2 : Bool) : State :=
  match s.rgn.get id with
  | none => s
  | some r =>
    let t2 := id * 2 ^ 42 + page * pageBytes
    let t3 := 2 ^ 56 + r.hostBase + page * pageBytes
    let src := if toT2 then t3 else t2
    let dst := if toT2 then t2 else t3
    let s := ((s.invalRange src pageBytes).wakeRange src pageBytes).wakeRange dst pageBytes
    let hit := (s.mem.poison.filter (inRange src pageBytes)).map fun l => l - src / 64 + dst / 64
    let kept := s.mem.poison.filter fun l => !inRange dst pageBytes l
    { s with
      mem := { s.mem with
        cells := s.mem.cells.moveRange src dst pageBytes
        free := s.mem.free.flatMap (·.cut dst pageBytes)
          ++ (s.mem.free.map (·.moved src pageBytes dst)).filter (·.n != 0)
        poison := kept ++ hit
        wc := s.mem.wc.filter fun e => !inRange src pageBytes e.line && !inRange dst pageBytes e.line }
      coh := { s.coh with t1 := s.coh.t1.filter fun x => !inRange src pageBytes x.2 }
      rgn := s.rgn.put { r with
        inT2 := if toT2 then r.inT2 ++ [page] else r.inT2.filter (· != page) } }

/-- The coldest unpinned T2 page of a region outside a list, the first listed on a tie. DESIGN CHOICE, log 166. -/
def Region.coldest (r : Region) (but : List Nat) : Option Nat :=
  (r.inT2.filter fun p => !r.pinned.contains p && !but.contains p).foldl
    (fun best p => match best with
      | none => some p
      | some q => if r.heat.getD p 0 < r.heat.getD q 0 then some p else some q) none

/-- Moves one page of a pin range to T2; a full share first loses its coldest unpinned page (R198). DEDUCED, log 44. -/
def State.pinPage (s : State) (id : Nat) (range : List Nat) (page : Nat) : State :=
  match s.rgn.get id with
  | none => s
  | some r =>
    if r.inT2.contains page then s
    else if r.inT2.length < r.t2Pages then s.migrate id page true
    else match r.coldest range with
      | some q => (s.migrate id q false).migrate id page true
      | none => s

/-- The body of OBJECT_PIN (R198, R518). -/
def objectPinBody (q : Req) (s : State) : State × Resp :=
  match s.rgn.pageRange q with
  | none => (s, rcode cBAD_ARG)
  | some r =>
    let target := bits (q.f 1 1) 1 0
    let range := rangePages q
    if r.kind ≠ 1 || target = 3 then (s, rcode cBAD_ARG)
    else if target = 0 then
      ({ s with rgn := s.rgn.put { r with pinned := r.pinned.filter fun p => !range.contains p } }, rcode cOK)
    else
      let toT2 := target == 1
      let others := (r.pinned.filter fun p => r.inT2.contains p && !range.contains p).length
      let moves := range.any fun p => r.inT2.contains p != toT2
      if toT2 && r.t2Pages < others + range.length then (s, rcode cNO_RESOURCE)
      else if moves && r.stale then (s, rcode cHOST_LOST)
      else
        let g := range.foldl (fun (g : Rgn) p => g.abandonMigration r.id p) s.rgn
        let s := { s with rgn := g.put { r with pinned := (r.pinned.filter fun p => !range.contains p) ++ range } }
        let s := if toT2 then range.foldl (fun s p => s.pinPage r.id range p) s
          else range.foldl (fun s p => if r.inT2.contains p then s.migrate r.id p false else s) s
        (s, rcode cOK)

/-- OBJECT_PIN (R198, R518). -/
def execObjectPin (k : SlotId) (s : State) : Host.Outcome State Fault Refusal :=
  .next (s.take k (·.opcode == 0x0204) objectPinBody)

/-! ### MAP and UNMAP -/

/-- The body of MAP (R236 to R238). -/
def mapBody (q : Req) (s : State) : State × Resp :=
  let d := q.f 8 8
  if !(q.rz 0 1 7 6 && q.rz 1 1 7 2 && q.zb 2 6 && vaOk d) then (s, rcode cBAD_ARG) else
  match s.rgn.get (bits (q.f 0 1) 5 0) with
  | none => (s, rcode cBAD_ARG)
  | some r =>
    if r.map.isSome || d % pageBytes ≠ 0 || 2 ^ 56 < d + r.size then (s, rcode cBAD_ARG)
    else if s.rgn.regions.any (fun x => match x.map with
        | some m => overlaps m.base x.size d r.size
        | none => false) then (s, rcode cBAD_ARG)
    else
      let m : Mapping := ⟨d, bit (q.f 1 1) 0, bit (q.f 1 1) 1⟩
      match mapTable r.id m d (d + r.size) 3 s.rgn 0 0 with
      | none => (s, rcode cNO_RESOURCE)
      | some g => (s.withTables (g.put { r with map := some m }), rcode cOK)

/-- MAP (R236 to R238). -/
def execMap (k : SlotId) (s : State) : Host.Outcome State Fault Refusal :=
  .next (s.take k (·.opcode == 0x0205) mapBody)

/-- The mapping's entries become unmapped, its tables are free, and every cached translation of the range
goes (R241). -/
def Rgn.unmap (g : Rgn) (r : Region) : Rgn :=
  match r.map with
  | none => g
  | some m =>
    let hi := m.base + r.size
    let g := (unmapTable m.base hi 3 g 0 0).put { r with map := none }
    { g with tcache := g.tcache.filter fun e => !(decide (m.base ≤ e.base) && decide (e.base < hi)) }

/-- The body of UNMAP (R240, R241). -/
def unmapBody (q : Req) (s : State) : State × Resp :=
  if !(q.rz 0 1 7 6 && q.zb 1 7) then (s, rcode cBAD_ARG) else
  match s.rgn.get (bits (q.f 0 1) 5 0) with
  | none => (s, rcode cBAD_ARG)
  | some r =>
    if r.map.isNone then (s, rcode cBAD_ARG)
    else if s.regionNamed r then (s, rcode cBUSY)
    else ({ s with rgn := s.rgn.unmap r }, rcode cOK)

/-- UNMAP (R240, R241). -/
def execUnmap (k : SlotId) (s : State) : Host.Outcome State Fault Refusal :=
  .next (s.take k (·.opcode == 0x0206) unmapBody)

/-! ### REGION_INFO -/

/-- H of R252; 0 when there is none. -/
def Rgn.hostView (g : Rgn) (r : Region) : Nat :=
  if r.kind = 0 then (match g.hdmBase with | some b => b + r.hdmOff | none => 0)
  else if r.kind = 2 then r.hostBase else 0

/-- The REGION_INFO reply. -/
def Rgn.infoBytes (g : Rgn) (r : Region) : Bytes :=
  let base := match r.map with | some m => m.base | none => 0
  let flags := b2n r.stale * 8 + (match r.map with
    | some m => b2n m.demand * 4 + b2n m.write * 2 + 1
    | none => 0)
  leBytes 1 (r.cache * 16 + r.mode * 4 + r.kind) ++ leBytes 1 r.part ++ leBytes 2 r.target
    ++ leBytes 4 r.pages ++ leBytes 4 r.t2Pages ++ zeros 4 ++ leBytes 8 r.hostBase
    ++ leBytes 8 r.hdmOff ++ leBytes 8 base ++ leBytes 8 (g.hostView r)
    ++ leBytes 4 (if r.kind = 0 then r.pages else r.inT2.length)
    ++ leBytes 4 r.pinned.length
    ++ leBytes 1 ((r.reg.map (·.sources)).getD 0) ++ leBytes 1 flags ++ zeros 6

/-- The body of REGION_INFO. -/
def regionInfoBody (q : Req) (s : State) : State × Resp :=
  if !(q.rz 0 1 7 6 && q.zb 1 7) then (s, rcode cBAD_ARG) else
  match s.rgn.get (bits (q.f 0 1) 5 0) with
  | none => (s, rcode cBAD_ARG)
  | some r => (s, some (cOK, s.rgn.infoBytes r))

/-- REGION_INFO (R252). -/
def execRegionInfo (k : SlotId) (s : State) : Host.Outcome State Fault Refusal :=
  .next (s.take k (·.opcode == 0x0207) regionInfoBody)

end Sys2Proof.Machine
end

