-- ==== Sys2Proof/Machine/Dma.lean ====
section
/-! DEFINITION. The DMA engines (R474 to R483): channels and their register sets, DMA_SUBMIT, DMA_STATUS, the
chunks and the end of a transfer, and what ends transfers from outside. -/

namespace Sys2Proof.Machine

/-- The channel with a number. -/
def Dma.ch (d : Dma) (n : Nat) : Chan := d.chans.getD n Chan.reset

/-- The state with a channel changed. -/
def State.setChan (s : State) (n : Nat) (c : Chan) : State := { s with dma := { chans := s.dma.chans.set n c } }

/-- The active set holds a transfer that has not ended. -/
def Chan.busy (c : Chan) : Bool := c.active.valid && !c.active.ended

/-- The shadow set's transfer becomes the active one and starts (R474, R477); one that has ended already
leaves the channel idle. -/
def Chan.promote (c : Chan) : Chan :=
  if !c.shadow.valid || c.busy then c else
  { c with
    active := c.shadow
    shadow := DmaSet.reset
    state := if c.shadow.ended then 0 else 1
    crcNow := if c.shadow.crcMode = 1 then 0xFFFFFFFF else c.runCrc
    usedHost := false }

/-- A set's transfer as it ends with a code other than OK. -/
def DmaSet.fail (d : DmaSet) (code : Nat) : DmaSet := { d with ended := true, code := code, crc := 0 }

/-- The active transfer ends with a code other than OK; the next one starts (R478, R480). -/
def Chan.fail (c : Chan) (code : Nat) : Chan := { c with active := c.active.fail code, state := 0 }.promote

/-- The unit of the engine of a channel's half: 0 read, 1 write (R506; DEDUCED, log 14). -/
def dmaUnit (n w : Nat) : Nat := n / 64 * 2 + w

/-- The agent translation cache of a channel's half (R242). -/
def dmaCache (n : Nat) : Nat := 192 + n / 64

/-- The active transfer ends with FAULT_XLATE, NO_RESOURCE or INTERNAL at an address: LOG attention, and for
INTERNAL FAULT attention before it (R247, R480). -/
def State.dmaFault (s : State) (n code va : Nat) : State :=
  let tag := (s.dma.ch n).active.tag
  let s := if code = cINTERNAL then s.raise aFAULT code tag (unitField uDma (dmaUnit n 0) 0) va else s
  (s.setChan n ((s.dma.ch n).fail code)).raise aLOG code tag (unitField uDma (dmaUnit n 0) 0) va

/-- A mapped address lies in host memory now: tier T3 (R272). -/
def Rgn.inHost (g : Rgn) (va : Nat) : Option Bool :=
  (g.byVa va).map fun x => !x.1.pageInT2 (x.2 / pageBytes)

/-- A range touches host memory. -/
def Rgn.touchesHost (g : Rgn) (va len : Nat) : Bool := (chunksOf va len).any fun c => g.inHost c.1 == some true

/-- Bytes a transfer writes at its destination, with its CRC. -/
def DmaSet.dstLen (d : DmaSet) : Nat := d.len + if d.crcMode = 0 then 0 else 4

/-- A transfer needs the host port (R469 step 4). -/
def Rgn.needsHost (g : Rgn) (d : DmaSet) : Bool :=
  g.touchesHost d.src d.len || g.touchesHost d.dst d.dstLen || (d.flagEn && g.touchesHost d.flagVa 8)

/-! ### DMA_SUBMIT and DMA_STATUS -/

/-- A range lies in a HOST region that is host-stale, with any byte. -/
def Rgn.staleHost (g : Rgn) (va len : Nat) : Bool :=
  (chunksOf va len).any fun c => match g.byVa c.1 with
    | some (r, _) => r.kind == 2 && r.stale
    | none => false

/-- The transfer that a request names (R482). -/
def dmaOf (q : Req) : DmaSet :=
  { src := q.f 8 8, dst := q.f 0x10 8, len := q.f 0x18 8, flagVa := q.f 0x20 8, flagVal := q.f 0x28 8,
    tag := q.tag, valid := true, crcMode := bits (q.f 4 1) 7 6, flagEn := bit (q.f 4 1) 5, done := 0,
    ended := false, code := 0, crc := 0 }

/-- The flag's direction differs from the destination's (R272, R483). -/
def Rgn.flagAstray (g : Rgn) (d : DmaSet) : Bool :=
  match g.inHost d.flagVa, g.inHost d.dst with
  | some a, some b => a != b
  | _, _ => false

/-- The body of DMA_SUBMIT: the first row of R483 that matches. DEDUCED, log 58. -/
def dmaSubmitBody (q : Req) (s : State) : State × Resp :=
  let d := dmaOf q
  let n := bits (q.f 0 2) 6 0
  if !(q.rz 0 2 15 7 && q.zb 2 2 && q.rz 4 4 31 8 && q.rz 4 4 4 0 && q.zb 0x30 16) || d.crcMode = 3
      || d.len = 0 || 2 ^ 36 ≤ d.len || !(vaOk d.src && vaOk d.dst && vaOk d.flagVa)
      || (!d.flagEn && (d.flagVa != 0 || d.flagVal != 0)) then (s, rcode cBAD_ARG)
  else if overlaps d.src d.len d.dst d.dstLen then (s, rcode cBAD_ARG)
  else if d.flagEn && (d.flagVa % 8 != 0 || s.rgn.flagAstray d) then (s, rcode cBAD_ARG)
  else if (s.dma.ch n).shadow.valid then (s, rcode cBUSY)
  else if s.rgn.staleHost d.src d.len || s.rgn.staleHost d.dst d.dstLen || (d.flagEn && s.rgn.staleHost d.flagVa 8)
    then (s, rcode cHOST_LOST)
  else (s.setChan n ({ (s.dma.ch n) with shadow := d }.promote), rcode cACCEPTED)

/-- DMA_SUBMIT (R474, R482, R483). -/
def execDmaSubmit (k : SlotId) (s : State) : Host.Outcome State Fault Refusal :=
  .next (s.take k (·.opcode == 0x0701) dmaSubmitBody)

/-- The 64 bytes of a register set. -/
def DmaSet.bytes (d : DmaSet) : Bytes :=
  leBytes 8 d.src ++ leBytes 8 d.dst ++ leBytes 8 d.len ++ leBytes 8 d.flagVa ++ leBytes 8 d.flagVal
    ++ leBytes 8 (d.tag * 2 ^ 32 + b2n d.valid * 2 ^ 31 + d.crcMode * 64 + b2n d.flagEn * 32)
    ++ leBytes 8 d.done ++ leBytes 8 (d.crc * 2 ^ 32 + b2n d.ended * 256 + d.code)

/-- The 192 bytes of DMA_STATUS (R474). -/
def Chan.bytes (c : Chan) : Bytes :=
  leBytes 8 (c.okCount.toNat * 2 ^ 48 + c.state * 2 ^ 32 + c.runCrc) ++ zeros 56 ++ c.active.bytes ++ c.shadow.bytes

/-- The body of DMA_STATUS: the channel at request byte 0x00. -/
def dmaStatusBody (q : Req) (s : State) : State × Resp :=
  if !(q.rz 0 1 7 7 && q.zb 1 7) then (s, rcode cBAD_ARG)
  else (s, some (cOK, (s.dma.ch (q.f 0 1)).bytes))

/-- DMA_STATUS (R474). -/
def execDmaStatus (k : SlotId) (s : State) : Host.Outcome State Fault Refusal :=
  .next (s.take k (·.opcode == 0x0702) dmaStatusBody)

/-! ### Chunks -/

/-- Length of the next chunk. -/
def DmaSet.chunk (d : DmaSet) : Nat := min 65536 (d.len - d.done)

/-- What the channel accesses next: its chunk's source and destination, or, after the last chunk, the CRC and
the flag. Whether each is a store. -/
def DmaSet.nextAccesses (d : DmaSet) : List (Nat × Nat × Bool) :=
  if d.done < d.len then [(d.src + d.done, d.chunk, false), (d.dst + d.done, d.chunk, true)]
  else (if d.crcMode = 0 then [] else [(d.dst + d.len, 4, true)]) ++ (if d.flagEn then [(d.flagVa, 8, true)] else [])

/-- A channel meets an obstacle: it waits, or its transfer ends (R247, R471, R476). -/
def State.dmaObstacle (s : State) (n : Nat) (o : AccRes × Nat × Nat × Bool) : State :=
  let wait := fun (s : State) => s.setChan n { (s.dma.ch n) with state := 2 }
  match o with
  | (.fault 1 va, _, _, st) =>
    let m : Miss := ⟨dmaCache n, va, st⟩
    wait { s with rgn := { s.rgn with
      demands := if s.rgn.demands.contains m then s.rgn.demands else s.rgn.demands ++ [m] } }
  | (.fault 4 va, _, _, _) => s.dmaFault n cINTERNAL va
  | (.fault _ va, _, _, _) => s.dmaFault n cFAULT_XLATE va
  | (.stale, _, _, _) => wait s
  | (.waits, _, _, _) => s
  | (.hostHeld, va, len, st) => s.recallHost va len st
  | (.poison r page line, _, _, _) =>
    let va := match s.rgn.get r with
      | some x => (match x.map with | some m => m.base | none => 0) + page * pageBytes + line * 64
      | none => 0
    s.dmaFault n cINTERNAL va
  | (.ok, _, _, _) => s

/-- The channel's next access waits on a demand fault or a host-stale page. -/
def State.dmaWaits (s : State) (n : Nat) (d : DmaSet) : Bool :=
  match s.firstObstacle (agentCache (n / 64)) d.nextAccesses with
  | some (.fault 1 _, _) | some (.stale, _) => true
  | _ => false

/-- Channels whose wait is over run again (R248, R472). -/
def State.wakeChans (s : State) : State :=
  { s with dma := { chans := s.dma.chans.map fun c =>
    if c.2.state == 2 && !s.dmaWaits c.1 c.2.active then (c.1, { c.2 with state := 1 }) else c } }

/-- A channel's Floor, or memory that it accesses next, has stopped (R563). -/
def State.dmaStopped (s : State) (n : Nat) (d : DmaSet) : Bool :=
  s.floorStopped (n / 64) || d.nextAccesses.any fun a => s.vaStopped a.1 a.2.1

/-- The pages that a channel accesses next enter its half's agent cache (R242). -/
def State.dmaLook (s : State) (n : Nat) (d : DmaSet) : State :=
  d.nextAccesses.foldl (fun s a => s.lookRange (agentCache (n / 64)) a.1 a.2.1) s

/-- DMA_CHUNK (R475 to R477): the next chunk of the active transfer moves. -/
def execDmaChunk (ch : Fin 128) (s : State) : Host.Outcome State Fault Refusal :=
  .next (
    let c := s.dma.ch ch.val
    let d := c.active
    if !s.powered || !c.busy || d.len ≤ d.done || s.dmaStopped ch.val d then s else
    match s.firstObstacle (agentCache (ch.val / 64)) d.nextAccesses with
    | some o => s.dmaObstacle ch.val o
    | none =>
      let s := s.dmaLook ch.val d
      let host := s.rgn.touchesHost (d.src + d.done) d.chunk || s.rgn.touchesHost (d.dst + d.done) d.chunk
      let x := s.readVa (d.src + d.done) d.chunk
      let s := (x.2.writeVa (d.dst + d.done) x.1).count 0x700 (dmaUnit ch.val 1) ((d.chunk + 63) / 64)
      s.setChan ch.val { c with
        state := 1
        usedHost := c.usedHost || host
        crcNow := if d.crcMode = 0 then c.crcNow else crc32cUpd c.crcNow x.1
        active := { d with done := d.done + d.chunk } })

/-- DMA_TRANSFER_END (R272, R477 to R480): the CRC is written, a fence passes, the flag is written, and the
transfer ends OK. -/
def execDmaTransferEnd (ch : Fin 128) (s : State) : Host.Outcome State Fault Refusal :=
  .next (
    let c := s.dma.ch ch.val
    let d := c.active
    if !s.powered || !c.busy || d.done < d.len || s.dmaStopped ch.val d then s else
    match s.firstObstacle (agentCache (ch.val / 64)) d.nextAccesses with
    | some o => s.dmaObstacle ch.val o
    | none =>
      let s := s.dmaLook ch.val d
      let final := c.crcNow ^^^ 0xFFFFFFFF
      let s := if d.crcMode = 0 then s else s.writeVa (d.dst + d.len) (leBytes 4 final)
      let s := if d.flagEn then (s.fence.writeVa d.flagVa (leBytes 8 d.flagVal)).emit (.flag d.flagVa) else s
      s.setChan ch.val { c with
        okCount := c.okCount + 1
        state := 0
        runCrc := if d.crcMode = 0 then c.runCrc else c.crcNow
        active := { d with ended := true, code := cOK, crc := if d.crcMode = 0 then 0 else final } }.promote)

/-! ### Ends from outside -/

/-- Every transfer that has not ended ends with a code, without CRC or flag (R516, R577). -/
def Dma.endAll (d : Dma) (code : Nat) : Dma :=
  { chans := d.chans.map fun c =>
      let sh := if c.2.shadow.valid && !c.2.shadow.ended then c.2.shadow.fail code else c.2.shadow
      let c' := { c.2 with shadow := sh }
      (c.1, (if c'.busy then c'.fail code else c'.promote)) }

/-- The destination bytes of transfers that end HOST_LOST are undefined (R470). -/
def State.undefineDst (s : State) (sets : List DmaSet) : State := sets.foldl (fun s d => s.undefineVa d.dst d.dstLen) s

/-- The transfers of a channel that end with HOST_LOST at a link loss: those that have used the host port or need it
(R469 step 4). -/
def Chan.hostLost (g : Rgn) (c : Chan) : List DmaSet :=
  (if c.shadow.valid && !c.shadow.ended && g.needsHost c.shadow then [c.shadow] else [])
    ++ if c.busy && (c.usedHost || g.needsHost c.active) then [c.active] else []

/-- Transfers that have used the host port or need it end with HOST_LOST (R469 step 4, R470). DEDUCED, log 59. -/
def State.dmaHostLost (s : State) : State :=
  { s.undefineDst (s.dma.chans.flatMap fun c => c.2.hostLost s.rgn) with dma := { chans := s.dma.chans.map fun c =>
      let sh := if c.2.shadow.valid && !c.2.shadow.ended && s.rgn.needsHost c.2.shadow
        then c.2.shadow.fail cHOST_LOST else c.2.shadow
      let c' := { c.2 with shadow := sh }
      (c.1, (if c'.busy && (c'.usedHost || s.rgn.needsHost c'.active) then c'.fail cHOST_LOST else c')) } }

/-- The transfer of a channel waits at a host-stale page. -/
def State.waitsStale (s : State) (n : Nat) (c : Chan) : Bool :=
  c.busy && c.state == 2 && match s.firstObstacle (agentCache (n / 64)) c.active.nextAccesses with
    | some (.stale, _) => true
    | _ => false

/-- Transfers that wait at a host-stale page fail with HOST_LOST (R470, R472). -/
def State.dmaStaleLost (s : State) : State :=
  { s.undefineDst (s.dma.chans.flatMap fun c => if s.waitsStale c.1 c.2 then [c.2.active] else []) with
    dma := { chans := s.dma.chans.map fun c => if s.waitsStale c.1 c.2 then (c.1, c.2.fail cHOST_LOST) else c } }

/-- The channel and set of a tag: true for the active set. -/
def Dma.byTag (d : Dma) (tag : Nat) : Option (Nat × Bool) :=
  d.chans.findSome? fun c =>
    if c.2.shadow.valid && c.2.shadow.tag == tag then some (c.1, false)
    else if c.2.active.valid && c.2.active.tag == tag then some (c.1, true) else none

/-- ABORT of a transfer's tag: code and payload (R481); none when no channel holds the tag. -/
def State.dmaAbort (s : State) (tag : Nat) : Option (State × Nat × Nat) :=
  (s.dma.byTag tag).map fun x =>
    let c := s.dma.ch x.1
    if !x.2 then
      if c.shadow.ended then (s, cTOO_LATE, c.shadow.code) else (s.setChan x.1 { c with shadow := DmaSet.reset }, cOK, 0)
    else if c.active.ended then (s, cTOO_LATE, c.active.code)
    else (s.setChan x.1 (c.fail cABORTED), cOK, 0)

end Sys2Proof.Machine
end

