-- ==== Sys2Proof/Machine/Num.lean ====
section
/-! DEFINITION. Arithmetic: the exact values of the number formats (R46 to R57), one rounding to each format
(R63 to R67), block scales (R68), IEEE 754 addition and the pairwise tree (R110, R112), and the functions of
the vector engine (R165, R166). -/

namespace Sys2Proof.Machine

/-- An exact value: sign, magnitude and a power of two; an infinity; a NaN with its sign (R47). -/
inductive Val where
  | fin (neg : Bool) (m : Nat) (e : Int)
  | inf (neg : Bool)
  | nan (neg : Bool)
  deriving DecidableEq, Repr

/-! ### Exact operations (R112) -/

/-- Exclusive or of signs. -/
def xorB (a b : Bool) : Bool := a != b

/-- `m · 2^e` as a multiple of `2^q`, for `q ≤ e`. -/
def scaleTo (m : Nat) (e q : Int) : Nat := m * 2 ^ (e - q).toNat

/-- The exact sum, with the signs of zeros of R112. -/
def Val.add : Val → Val → Val
  | .nan _, _ | _, .nan _ => .nan false
  | .inf a, .inf b => if a == b then .inf a else .nan false
  | .inf a, _ => .inf a
  | _, .inf b => .inf b
  | .fin s m e, .fin t n f =>
    let q := min e f
    let x := scaleTo m e q
    let y := scaleTo n f q
    if s == t then .fin s (x + y) q
    else if y < x then .fin s (x - y) q
    else if x < y then .fin t (y - x) q
    else .fin false 0 q

/-- The exact product. -/
def Val.mul : Val → Val → Val
  | .nan _, _ | _, .nan _ => .nan false
  | .inf a, .inf b => .inf (xorB a b)
  | .inf a, .fin t n _ => if n = 0 then .nan false else .inf (xorB a t)
  | .fin s m _, .inf b => if m = 0 then .nan false else .inf (xorB s b)
  | .fin s m e, .fin t n f => .fin (xorB s t) (m * n) (e + f)

/-- The value times `2^k`. -/
def Val.shift (v : Val) (k : Int) : Val :=
  match v with
  | .fin s m e => .fin s m (e + k)
  | v => v

/-- The value with its sign flipped. -/
def Val.neg : Val → Val
  | .fin s m e => .fin (!s) m e
  | .inf s => .inf (!s)
  | .nan s => .nan (!s)

/-- The value is finite. -/
def Val.finite : Val → Bool
  | .fin .. => true
  | _ => false

/-- The value is zero. -/
def Val.isZero : Val → Bool
  | .fin _ m _ => m == 0
  | _ => false

/-- Order of magnitudes: `m·2^e ≤ n·2^f`. -/
def magLe (m : Nat) (e : Int) (n : Nat) (f : Int) : Bool :=
  let q := min e f
  decide (scaleTo m e q ≤ scaleTo n f q)

/-- A finite or infinite value is below another; false with a NaN, and for zeros of either sign. -/
def Val.lt : Val → Val → Bool
  | .nan _, _ | _, .nan _ => false
  | .inf a, .inf b => a && !b
  | .inf a, _ => a
  | _, .inf b => !b
  | .fin s m e, .fin t n f =>
    let q := min e f
    let x : Int := if s then -(scaleTo m e q : Int) else scaleTo m e q
    let y : Int := if t then -(scaleTo n f q : Int) else scaleTo n f q
    decide (x < y)

/-- Equal values; −0 equals +0, a NaN equals nothing. -/
def Val.eqv : Val → Val → Bool
  | .nan _, _ | _, .nan _ => false
  | .inf a, .inf b => a == b
  | .fin s m e, .fin t n f => !((Val.fin s m e).lt (.fin t n f)) && !((Val.fin t n f).lt (.fin s m e))
  | _, _ => false

/-! ### Rounding -/

/-- `m / 2^s` to nearest, ties to even. -/
def rne (m s : Nat) : Nat :=
  if s = 0 then m else
  let d := m / 2 ^ s
  let r := m % 2 ^ s
  if 2 ^ (s - 1) < r || (r == 2 ^ (s - 1) && d % 2 == 1) then d + 1 else d

/-- Magnitude code of `m·2^e` rounded once to a format with `fb` fraction bits whose smallest subnormal is
`2^qmin`; codes beyond the format's largest finite one mean overflow. -/
def magCode (fb : Nat) (qmin : Int) (m : Nat) (e : Int) : Nat :=
  if m = 0 then 0 else
  let q := max qmin (e + (Nat.log2 m : Int) - fb)
  let n := if q ≤ e then m * 2 ^ (e - q).toNat else rne m (q - e).toNat
  (q - qmin).toNat * 2 ^ fb + n

/-- A floating-point format (R46, R47): fraction bits, smallest subnormal's exponent, position of the sign,
largest finite code, code of infinity if it has one, canonical NaN if it has one. -/
structure FloatFmt where
  fb : Nat
  qmin : Int
  signBit : Nat
  maxCode : Nat
  infCode : Option Nat
  nanCode : Option Nat
  deriving DecidableEq, Repr

def fmtB32 : FloatFmt := ⟨23, -149, 31, 0x7F7FFFFF, some 0x7F800000, some 0x7FC00000⟩
def fmtB16 : FloatFmt := ⟨7, -133, 15, 0x7F7F, some 0x7F80, some 0x7FC0⟩
def fmtG16 : FloatFmt := ⟨6, -260, 15, 0x7FBF, some 0x7FC0, some 0x7FE0⟩
def fmtF8e4 : FloatFmt := ⟨3, -9, 7, 0x7E, none, some 0x7F⟩
def fmtF8e5 : FloatFmt := ⟨2, -16, 7, 0x7B, some 0x7C, some 0x7E⟩
def fmtF4e2 : FloatFmt := ⟨1, -1, 3, 7, none, none⟩

/-- The float format of a format code; none for integers and codebooks. -/
def floatFmt (f : Nat) : Option FloatFmt :=
  if f = 0 then some fmtB32 else if f = 1 then some fmtB16 else if f = 2 then some fmtG16
  else if f = 3 then some fmtF8e4 else if f = 4 then some fmtF8e5 else if f = 5 then some fmtF4e2 else none

/-- The value of a code of a float format (R46, R47). -/
def FloatFmt.decode (t : FloatFmt) (c : Nat) : Val :=
  let s := bit c t.signBit
  let m := c % 2 ^ t.signBit
  if m ≤ t.maxCode then
    let x := m / 2 ^ t.fb
    let fr := m % 2 ^ t.fb
    if x = 0 then .fin s fr t.qmin else .fin s (2 ^ t.fb + fr) (t.qmin + x - 1)
  else if t.infCode == some m then .inf s
  else .nan s

/-- A magnitude code with a sign. -/
def FloatFmt.signed (t : FloatFmt) (s : Bool) (m : Nat) : Nat := b2n s * 2 ^ t.signBit + m

/-- One rounding to a float format (R63 to R67): the code and whether it saturated. Infinities and NaNs of
a format that has none give 0 here; R68 makes their block a NaN block. -/
def FloatFmt.encode (t : FloatFmt) : Val → Nat × Bool
  | .nan s => (match t.nanCode with | some n => t.signed s n | none => 0, false)
  | .inf s => (match t.infCode, t.nanCode with
      | some i, _ => t.signed s i
      | none, some n => t.signed s n
      | none, none => 0, false)
  | .fin s m e =>
    let c := magCode t.fb t.qmin m e
    if c ≤ t.maxCode then (t.signed s c, false)
    else match t.infCode with
      | some i => (t.signed s i, false)
      | none => (t.signed s t.maxCode, true)

/-- The integer nearest to `m·2^e`, ties to even. -/
def roundInt (m : Nat) (e : Int) : Nat := if 0 ≤ e then m * 2 ^ e.toNat else rne m (-e).toNat

/-- Bits and signedness of an integer format: I8, U8, I4, U4. -/
def intFmt (f : Nat) : Nat × Bool :=
  if f = 6 then (8, true) else if f = 7 then (8, false) else if f = 8 then (4, true) else (4, false)

/-- One rounding to an integer format (R48, R65, R66): the code and whether it saturated: a rounded magnitude above the
largest finite value, 127 or 7, saturates to the nearest limit, −128 or −8 for a negative value. DEDUCED, log 149. -/
def intEncode (f : Nat) : Val → Nat × Bool
  | .fin s m e =>
    let w := intFmt f
    let n := roundInt m e
    if s then
      if w.2 then (if n < 2 ^ (w.1 - 1) then ((2 ^ w.1 - n) % 2 ^ w.1, false) else (2 ^ (w.1 - 1), true))
      else (0, n != 0)
    else
      let top := if w.2 then 2 ^ (w.1 - 1) - 1 else 2 ^ w.1 - 1
      if n ≤ top then (n, false) else (top, true)
  | _ => (0, false)

/-- The value of an integer code. -/
def intDecode (f c : Nat) : Val :=
  let w := intFmt f
  if w.2 && decide (2 ^ (w.1 - 1) ≤ c) then .fin true (2 ^ w.1 - c) 0 else .fin false c 0

/-- The value of a code of a format other than a codebook format. -/
def decodeCode (f c : Nat) : Val :=
  match floatFmt f with
  | some t => t.decode c
  | none => intDecode f c

/-- One rounding to a format (R63): code and saturation. -/
def encodeVal (f : Nat) (v : Val) : Nat × Bool :=
  match floatFmt f with
  | some t => t.encode v
  | none => intEncode f v

/-! ### Block scales (R68) -/

/-- maxf of a narrow format as mantissa and exponent, and emax (R68). DEDUCED, log 77. -/
def narrowMax (f : Nat) : Nat × Int × Int :=
  if f = 3 then (448, 0, 8) else if f = 4 then (57344, 0, 15) else if f = 5 then (6, 0, 2)
  else if f = 6 then (127, 0, 6) else if f = 7 then (255, 0, 7) else if f = 8 then (7, 0, 2) else (15, 0, 3)

/-- The largest magnitude among the finite elements, as mantissa and exponent. -/
def amax : List Val → Nat × Int
  | [] => (0, 0)
  | .fin _ m e :: r => let b := amax r; if magLe m e b.1 b.2 then b else (m, e)
  | _ :: r => amax r

/-- The scale code of a block of values (R68). -/
def scaleCode (f : Nat) (top : Bool) (vs : List Val) : Nat :=
  let a := amax vs
  if vs.any (fun v => !v.finite) && f != 3 && f != 4 then 0xFF
  else if a.1 = 0 then 127
  else
    let mx := narrowMax f
    let k := a.2 + (Nat.log2 a.1 : Int) - mx.2.2
    let k := if top then k else if magLe a.1 (a.2 - k) mx.1 mx.2.1 then k else k + 1
    (max 0 (min 254 (k + 127))).toNat

/-- A block of values written in a narrow format with a computed scale: scale code, element codes and the
saturations among finite elements (R65, R68, R632). DEDUCED, log 150. -/
def encodeBlock (f : Nat) (top : Bool) (vs : List Val) : Nat × List Nat × Nat :=
  let sc := scaleCode f top vs
  if sc = 0xFF then (sc, vs.map fun _ => 0, 0)
  else
    let cs := vs.map fun v => encodeVal f (v.shift (127 - (sc : Int)))
    (sc, cs.map (·.1), (cs.filter (·.2)).length)

/-! ### binary32 arithmetic -/

/-- A binary32 code's value. -/
def d32 (c : Nat) : Val := fmtB32.decode c

/-- round32 (R110, R65): one rounding to binary32; a NaN gives the canonical NaN with its sign. -/
def r32 (v : Val) : Nat := (fmtB32.encode v).1

/-- The canonical NaN. -/
def qNaN : Nat := 0x7FC00000

def isNan32 (c : Nat) : Bool := decide (0x7F800000 < c % 2 ^ 31)
def isFin32 (c : Nat) : Bool := decide (c % 2 ^ 31 < 0x7F800000)

/-- Sum, difference, product and fused multiply-add of binary32 codes, each rounded once (R112). -/
def fadd (a b : Nat) : Nat := r32 ((d32 a).add (d32 b))
def fneg (a : Nat) : Nat := if a < 2 ^ 31 then a + 2 ^ 31 else a - 2 ^ 31
def fsub (a b : Nat) : Nat := r32 ((d32 a).add (d32 b).neg)
def fmul (a b : Nat) : Nat := r32 ((d32 a).mul (d32 b))
def ffma (a b c : Nat) : Nat := r32 (((d32 a).mul (d32 b)).add (d32 c))

/-- Quotient of binary32 codes, correctly rounded (R165): 40 quotient bits beyond the divisor's and a
sticky bit decide the rounding. -/
def fdiv (a b : Nat) : Nat :=
  match d32 a, d32 b with
  | .nan _, _ | _, .nan _ => qNaN
  | .inf _, .inf _ => qNaN
  | .inf s, .fin t _ _ => r32 (.inf (xorB s t))
  | .fin s _ _, .inf t => r32 (.fin (xorB s t) 0 0)
  | .fin s m e, .fin t n f =>
    if n = 0 then (if m = 0 then qNaN else r32 (.inf (xorB s t)))
    else
      let x := m * 2 ^ 80
      let q := x / n
      r32 (.fin (xorB s t) (2 * q + b2n (x % n != 0)) (e - f - 81))

/-- The integer square root, bit by bit. -/
def isqrtFrom (n : Nat) : Nat → Nat → Nat
  | 0, r => r
  | k + 1, r => if (r + 2 ^ k) * (r + 2 ^ k) ≤ n then isqrtFrom n k (r + 2 ^ k) else isqrtFrom n k r

/-- The integer square root of a number below `4^96`. -/
def isqrt (n : Nat) : Nat := isqrtFrom n 96 0

/-- Square root, correctly rounded. -/
def fsqrt (a : Nat) : Nat :=
  match d32 a with
  | .nan _ => qNaN
  | .inf s => if s then qNaN else a
  | .fin s m e =>
    if m = 0 then a else if s then qNaN else
    let odd := e % 2 != 0
    let n := (if odd then 2 * m else m) * 2 ^ 80
    let h := ((if odd then e - 1 else e) - 80) / 2
    let r := isqrt n
    r32 (.fin false (2 * r + b2n (r * r != n)) (h - 1))

/-- Reciprocal square root, correctly rounded (R165). -/
def frsqrt (a : Nat) : Nat :=
  match d32 a with
  | .nan _ => qNaN
  | .inf s => if s then qNaN else 0
  | .fin s m e =>
    if m = 0 then r32 (.inf s) else if s then qNaN else
    let odd := e % 2 != 0
    let m' := if odd then 2 * m else m
    let h := (if odd then e - 1 else e) / 2
    let r := isqrt (2 ^ 160 / m')
    r32 (.fin false (2 * r + b2n (r * r * m' != 2 ^ 160)) (-80 - h - 1))

/-! ### Transcendental functions, in fixed point with 256 fraction bits -/

/-- Fraction bits of the fixed-point numbers. -/
def fixP : Nat := 256

/-- Fixed point of `m·2^e`. -/
def toFix (m : Nat) (e : Int) : Nat :=
  if 0 ≤ e + fixP then m * 2 ^ (e + fixP).toNat else m / 2 ^ (-(e + fixP)).toNat

/-- Taylor sum of e^x for a fixed-point x below one half: terms from `n` on. -/
def expTerms (x : Nat) : Nat → Nat → Nat → Nat
  | 0, _, _ => 0
  | f + 1, n, t => t + expTerms x f (n + 1) (t * x / (2 ^ fixP * n))

/-- A fixed-point number squared `k` times. -/
def sqTimes : Nat → Nat → Nat
  | 0, x => x
  | k + 1, x => sqTimes k (x * x / 2 ^ fixP)

/-- e^x of a fixed-point x below 2^8. -/
def expFix (x : Nat) : Nat := sqTimes 9 (expTerms (x / 2 ^ 9) 60 1 (2 ^ fixP))

/-- EXP (R165): correctly rounded; e^a is irrational for every a other than 0. -/
def fexp (a : Nat) : Nat :=
  match d32 a with
  | .nan _ => qNaN
  | .inf s => if s then 0 else a
  | .fin s m e =>
    if m = 0 then 0x3F800000
    else if magLe 128 0 m e then (if s then 0 else 0x7F800000)
    else
      let x := expFix (toFix m e)
      let y := if s then 2 ^ (2 * fixP) / x else x
      r32 (.fin false (2 * y + 1) (-(fixP : Int) - 1))

/-- Sum of z^(2i+1) / (2i+1) from i on, for a fixed-point z. -/
def atanhTerms (z2 : Nat) : Nat → Nat → Nat → Nat
  | 0, _, _ => 0
  | f + 1, i, t => t / (2 * i + 1) + atanhTerms z2 f (i + 1) (t * z2 / 2 ^ fixP)

/-- ln of n/d for d ≤ n ≤ 2d, in fixed point. -/
def lnFix (n d : Nat) : Nat :=
  let z := (n - d) * 2 ^ fixP / (n + d)
  2 * atanhTerms (z * z / 2 ^ fixP) 90 0 z

/-- LOG (R165): correctly rounded; ln a is irrational for every a other than 1. -/
def flog (a : Nat) : Nat :=
  match d32 a with
  | .nan _ => qNaN
  | .inf s => if s then qNaN else a
  | .fin s m e =>
    if m = 0 then 0xFF800000 else if s then qNaN else if a = 0x3F800000 then 0 else
    let k : Int := e + (Nat.log2 m : Int)
    let f : Int := lnFix m (2 ^ Nat.log2 m)
    let v : Int := k * (lnFix 2 1 : Int) + f
    r32 (.fin (decide (v < 0)) (2 * v.natAbs + 1) (-(fixP : Int) - 1))

/-- TANH (R165): below 2^-30 the nearest binary32 value is a itself, from 16 on it is 1. -/
def ftanh (a : Nat) : Nat :=
  match d32 a with
  | .nan _ => qNaN
  | .inf s => if s then 0xBF800000 else 0x3F800000
  | .fin s m e =>
    if m = 0 || magLe m e 1 (-30) then a
    else if magLe 16 0 m e then (if s then 0xBF800000 else 0x3F800000)
    else
      let x := expFix (toFix m (e + 1))
      let q := (x - 2 ^ fixP) * 2 ^ fixP / (x + 2 ^ fixP)
      r32 (.fin s (2 * q + 1) (-(fixP : Int) - 1))

/-- SIGMOID, SILU and GELU (R166). -/
def fsigmoid (x : Nat) : Nat :=
  if isNan32 x then qNaN else fdiv 0x3F800000 (fadd 0x3F800000 (fexp (fneg x)))

def fsilu (x : Nat) : Nat := if x = 0xFF800000 then 0x80000000 else fmul x (fsigmoid x)

/-- The constants of GELU (R166). -/
def geluC1 : Nat := 0x3F4C422A
def geluC2 : Nat := 0x3D372713

/-- The intermediate values of GELU: t1, u's source t3, tt, a, h. -/
def geluParts (x : Nat) : Nat × Nat × Nat × Nat × Nat :=
  let t1 := fmul x x
  let t3 := ffma geluC2 (fmul t1 x) x
  let tt := ftanh (fmul geluC1 t3)
  (t1, t3, tt, fadd 0x3F800000 tt, fmul 0x3F000000 x)

def fgelu (x : Nat) : Nat :=
  if x = 0xFF800000 then 0x80000000 else
  let p := geluParts x
  fmul p.2.2.2.2 p.2.2.2.1

/-- a is above 0: false for a NaN and for zeros. -/
def fpos (a : Nat) : Bool := (Val.fin false 0 0).lt (d32 a)

/-- RELU and LEAKY (R165). -/
def frelu (a : Nat) : Nat := if isNan32 a then qNaN else if fpos a then a else 0
def fleaky (a b : Nat) : Nat :=
  if isNan32 a || (isNan32 b) then qNaN else if fpos a then a else fmul b a

/-- MIN and MAX with ordered zeros; a NaN operand gives the canonical NaN (R165). -/
def fmin (a b : Nat) : Nat :=
  if isNan32 a || isNan32 b then qNaN
  else if (d32 a).lt (d32 b) then a
  else if (d32 b).lt (d32 a) then b
  else if a = 0x80000000 then a else b

def fmax (a b : Nat) : Nat :=
  if isNan32 a || isNan32 b then qNaN
  else if (d32 b).lt (d32 a) then a
  else if (d32 a).lt (d32 b) then b
  else if a = 0x80000000 then b else a

/-- FLOOR and RINT (R165): the sign of zero is kept. -/
def ffloor (a : Nat) : Nat :=
  match d32 a with
  | .nan _ => qNaN
  | .inf _ => a
  | .fin s m e =>
    if 0 ≤ e || m = 0 then a else
    let k := (-e).toNat
    let q := m / 2 ^ k
    r32 (.fin s (if s && m % 2 ^ k != 0 then q + 1 else q) 0)

def frint (a : Nat) : Nat :=
  match d32 a with
  | .nan _ => qNaN
  | .inf _ => a
  | .fin s m e => if 0 ≤ e || m = 0 then a else r32 (.fin s (rne m (-e).toNat) 0)

/-- A whole number as binary32, rounded once. -/
def b32OfNat (n : Nat) : Nat := r32 (.fin false n 0)

/-- A binary32 code that holds a whole number of at most the bound; none otherwise. -/
def natOfB32 (c : Nat) : Option Nat :=
  match d32 c with
  | .fin s m e =>
    let q := if 0 ≤ e then m * 2 ^ e.toNat else m / 2 ^ (-e).toNat
    let exact := 0 ≤ e || m % 2 ^ (-e).toNat == 0
    if exact && (!s || q == 0) then some q else none
  | _ => none

/-! ### The pairwise tree (R110) -/

/-- One level of the tree over exact values, each node rounded to binary32. -/
def treeLevel : List Val → List Val
  | a :: b :: r => d32 (r32 (a.add b)) :: treeLevel r
  | [a] => [a]
  | [] => []

/-- The tree's levels until one value is left; `f` bounds them. -/
def treeLevels : Nat → List Val → Val
  | _, [] => .fin false 0 0
  | _, [a] => a
  | 0, a :: _ => a
  | f + 1, l => treeLevels f (treeLevel l)

/-- The sum of a chunk of exact values whose number is a power of two (R110), as a binary32 code. -/
def treeSum (l : List Val) : Nat := r32 (treeLevels 12 l)

/-- Sum of binary32 codes in order from +0. -/
def sumInOrder (l : List Nat) : Nat := l.foldl fadd 0

/-- The tree sum of chunks of 512 codes completed with +0, chunk sums added in order from +0 (R170 SUM). -/
def chunkSums : Nat → List Nat → List Nat
  | 0, _ => []
  | _, [] => []
  | f + 1, l =>
    let c := l.take 512
    treeSum ((c ++ List.replicate (512 - c.length) 0).map d32) :: chunkSums f (l.drop 512)

def reduceSum (l : List Nat) : Nat := sumInOrder (chunkSums l.length l)

/-- One function of the vector engine (R165) on operands a, b and c. -/
def vecFn (op a b c : Nat) : Nat :=
  if op = 0x01 then a
  else if op = 0x02 then fadd a b
  else if op = 0x03 then fsub a b
  else if op = 0x04 then fmul a b
  else if op = 0x05 then ffma a b c
  else if op = 0x06 then fdiv a b
  else if op = 0x07 then fsqrt a
  else if op = 0x08 then frsqrt a
  else if op = 0x09 then fmin a b
  else if op = 0x0A then fmax a b
  else if op = 0x0B then a % 2 ^ 31
  else if op = 0x0C then fneg a
  else if op = 0x0D then fexp a
  else if op = 0x0E then flog a
  else if op = 0x0F then ftanh a
  else if op = 0x10 then fsigmoid a
  else if op = 0x11 then (if isNan32 a then qNaN else fsilu a)
  else if op = 0x12 then (if isNan32 a then qNaN else fgelu a)
  else if op = 0x13 then frelu a
  else if op = 0x14 then fleaky a b
  else if op = 0x15 then (if (d32 a).lt (d32 b) then 0x3F800000 else 0)
  else if op = 0x16 then (if (d32 a).eqv (d32 b) then 0x3F800000 else 0)
  else if op = 0x17 then (if !isNan32 a && a % 2 ^ 31 != 0 then b else c)
  else if op = 0x18 then ffloor a
  else if op = 0x19 then frint a
  else 0

/-- Cost of a function in Grove cycles per 512 elements (R165). -/
def vecCost (op : Nat) : Nat :=
  if op = 0x06 || op = 0x07 || op = 0x08 || op = 0x0D || op = 0x0E || op = 0x0F then 4
  else if op = 0x10 then 9 else if op = 0x11 then 10 else if op = 0x12 then 11 else 1

/-! ### Vector programs (R167) -/

/-- The steps of a VECTOR parameter block. -/
def vecSteps (blk : Bytes) : List Nat :=
  (List.range (byteAt blk 0 % 32)).map fun i => fld blk (0x20 + 4 * i) 4

/-- The scalars S0 to S3 of a VECTOR parameter block. -/
def vecScalars (blk : Bytes) : List Nat := (List.range 4).map fun i => fld blk (4 + 4 * i) 4

/-- One step on the 16 value slots (R167). -/
def vecStep (slots : List Nat) (w : Nat) : List Nat :=
  slots.set (bits w 11 8)
    (vecFn (bits w 7 0) (slots.getD (bits w 15 12) 0) (slots.getD (bits w 19 16) 0) (slots.getD (bits w 23 20) 0))

/-- The value slots after a program, from the four inputs and the four scalars. -/
def vecRun (steps ins scalars : List Nat) : List Nat :=
  steps.foldl vecStep ((List.range 4).map (fun i => ins.getD i 0) ++ scalars ++ List.replicate 8 0)

/-- Cost of a program in Grove cycles per 512 elements (R172). -/
def vecProgCost (steps : List Nat) : Nat := (steps.map fun w => vecCost (bits w 7 0)).sum

end Sys2Proof.Machine
end

