-- ==== Sys2Proof/Machine/Torus.lean ====
section
/-! DEFINITION. The torus: addresses, neighbours, lines of members, bundles (R365 to R371, R396, R397, R403). -/

namespace Sys2Proof.Machine

/-- A coordinate of a fabric address (R366). -/
def coordOf (a : Nat) (ax : Axis) : Nat :=
  match ax with
  | .x => a / 512 % 32
  | .y => a / 16 % 32
  | .z => a % 16

/-- The fabric address of a coordinate (R366). -/
def addrOf (x y z : Nat) : Nat := x * 512 + y * 16 + z

/-- An address with one coordinate replaced. -/
def withCoord (a : Nat) (ax : Axis) (c : Nat) : Nat :=
  match ax with
  | .x => addrOf c (coordOf a .y) (coordOf a .z)
  | .y => addrOf (coordOf a .x) c (coordOf a .z)
  | .z => addrOf (coordOf a .x) (coordOf a .y) c

/-- Size of an axis. -/
def Fab.sizeOf (f : Fab) (ax : Axis) : Nat :=
  match ax with
  | .x => f.sx
  | .y => f.sy
  | .z => f.sz

/-- The address names a device (R366). -/
def Fab.names (f : Fab) (a : Nat) : Bool :=
  decide (a < 16384) && decide (coordOf a .x < f.sx) && decide (coordOf a .y < f.sy) && decide (coordOf a .z < f.sz)

/-- Every address of the torus, ascending. -/
def Fab.allAddrs (f : Fab) : List Nat :=
  (List.range f.sx).flatMap fun x => (List.range f.sy).flatMap fun y => (List.range f.sz).map fun z => addrOf x y z

/-- Membership: every address before a set has formed otherwise (R394, R396). -/
def Fab.isMember (f : Fab) (a : Nat) : Bool :=
  match f.members with
  | some l => l.contains a
  | none => true

/-- The axis of a bundle code and whether it is the minus direction (R368). -/
def bundleAxis (b : Nat) : Axis := if b < 2 then .x else if b < 4 then .y else .z
def bundleMinus (b : Nat) : Bool := b % 2 == 1

/-- The bundle of a direction. -/
def bundleOf (ax : Axis) (minus : Bool) : Nat :=
  (match ax with | .x => 0 | .y => 2 | .z => 4) + b2n minus

/-- The neighbour of an address on a bundle (R367). -/
def Fab.neighbour (f : Fab) (a b : Nat) : Nat :=
  let ax := bundleAxis b
  let n := f.sizeOf ax
  withCoord a ax ((coordOf a ax + (if bundleMinus b then n - 1 else 1)) % n)

/-- Verified ports in a bundle. -/
def Fab.verifiedPorts (f : Fab) (b : Nat) : List Nat :=
  (f.ports.filter fun p => p.2.bundle == b && p.2.verified && p.2.inBundle).map (·.1)

/-- The bundle is up (R371). -/
def Fab.bundleUp (f : Fab) (b : Nat) : Bool := !(f.verifiedPorts b).isEmpty

/-- The bundle is unused: every port of it is, or its axis has size 1 (R370). -/
def Fab.bundleUnused (f : Fab) (b : Nat) : Bool :=
  f.sizeOf (bundleAxis b) == 1 || f.ports.all fun p => p.2.bundle != b || p.2.unused || p.2.absent

/-- Bundles that are up. -/
def Fab.upBundles (f : Fab) : List Nat := (List.range 6).filter f.bundleUp

/-- Members on the line of an address along an axis, in ascending coordinate (R339, R397). -/
def Fab.line (f : Fab) (a : Nat) (ax : Axis) : List Nat :=
  ((List.range (f.sizeOf ax)).map fun c => withCoord a ax c).filter f.isMember

/-- Index of an address in a list. -/
def indexOf (l : List Nat) (a : Nat) : Option Nat := l.findIdx? (· == a)

/-- The next address of a chain along a line, none at its end. -/
def chainNext (l : List Nat) (a : Nat) : Option Nat :=
  match indexOf l a with
  | some i => l[i + 1]?
  | none => none

/-- Whether an address begins the chain along a line. -/
def chainFirst (l : List Nat) (a : Nat) : Bool := l.head? == some a

/-- Where a broadcast from the end of a line of `n` goes on from index `i`: down from the end to the middle
and, over the wrap, up from index 0, so that ⌊n/2⌋ hops reach everyone (R342). -/
def bcastNext (n i : Nat) : List Nat :=
  let down := fun j => decide (n - 1 - j ≤ j + 1)
  if i + 1 = n then
    (if 2 ≤ n && down (n - 2) then [n - 2] else []) ++ (if 2 ≤ n && !down 0 then [0] else [])
  else if down i then (if 1 ≤ i && down (i - 1) then [i - 1] else [])
  else (if !down (i + 1) then [i + 1] else [])

/-- The addresses a device passes a line's broadcast on to. -/
def bcastTargets (l : List Nat) (a : Nat) : List Nat :=
  match indexOf l a with
  | some i => (bcastNext l.length i).filterMap fun j => l[j]?
  | none => []

end Sys2Proof.Machine
end

