-- ==== Sys2Proof/Machine/Slots.lean ====
section
/-! DEFINITION. A shard's slots in memory (R276 to R283), digests and the blaze (R301), the update of a
segment (R295 to R299, R304) and the modes in force (R294, R350). -/

namespace Sys2Proof.Machine

/-! ### Layout -/

/-- Number of segments (R276). -/
def ShardDef.segs (d : ShardDef) : Nat := ceilDiv d.params 32768

/-- Offset of the g_red area (R279). -/
def ShardDef.gredOff (d : ShardDef) : Nat := roundUp (128 + 32 * d.segs) 65536

/-- Offset of the first moment area. -/
def ShardDef.mOff (d : ShardDef) : Nat := d.gredOff + roundUp (2 * d.params) 65536

/-- Offset of the second moment area, where there is one. -/
def ShardDef.vOff (d : ShardDef) : Nat := d.mOff + roundUp (4 * d.params) 65536

/-- Offset of the weights. -/
def ShardDef.wOff (d : ShardDef) : Nat := d.mOff + d.moments * roundUp (4 * d.params) 65536

/-- Z, the length of a slot (R276). -/
def ShardDef.slotBytes (d : ShardDef) : Nat := d.wOff + roundUp (4 * d.params) 65536

/-- First parameter and parameter count of a segment (R276). -/
def ShardDef.segFirst (_d : ShardDef) (j : Nat) : Nat := 32768 * j
def ShardDef.segCount (d : ShardDef) (j : Nat) : Nat := min 32768 (d.params - 32768 * j)

/-- The shard with an id. -/
def Trn.shard (t : Trn) (id : Nat) : Option ShardDef := t.shards.find? (·.shard == id)

/-- The device owns, twin-owns a shard (R275). -/
def State.owns (s : State) (d : ShardDef) : Bool := s.fab.addr == some d.owner
def State.twins (s : State) (d : ShardDef) : Bool := d.twinEn && s.fab.addr == some d.twin

/-- Shards owned or twin-owned here, ascending id. -/
def State.held (s : State) : List ShardDef :=
  sortBy (·.shard) (s.trn.shards.filter fun d => s.owns d || s.twins d)

/-- The selector word of a shard (R284); reset 0. -/
def Trn.selOf (t : Trn) (id : Nat) : Selector := t.sel.getD id ⟨0, false, 0⟩

/-- A selector word's 64 bits. -/
def Selector.word (x : Selector) : Nat := x.ring * 65536 + b2n x.valid * 2 + x.slot

/-- The residue selector word's 64 bits (R289). -/
def byteOfInt (i : Int) : Nat := (i % 256).toNat
def ResSel.word (x : ResSel) : Nat := x.ring * 65536 + byteOfInt x.lsExp * 256 + b2n x.valid * 2 + x.slot

/-- A signed byte. -/
def intOfByte (n : Nat) : Int := if n < 128 then n else (n : Int) - 256

/-- The region and region offset where a slot of the shard begins. -/
def State.slotAt (s : State) (d : ShardDef) (slot : Nat) : Option (Region × Nat) :=
  match s.rgn.get d.region with
  | some r => r.map.map fun m => (r, d.va - m.base + slot * d.slotBytes)
  | none => none

/-- Bytes of a slot. DESIGN CHOICE, log 50. -/
def State.slotRead (s : State) (d : ShardDef) (slot off n : Nat) : Bytes :=
  match s.slotAt d slot with
  | some (r, o) => (s.readRegion r (o + off) n).1
  | none => zeros n

/-- Writes bytes of a slot. -/
def State.slotWrite (s : State) (d : ShardDef) (slot off : Nat) (b : Bytes) : State :=
  match s.slotAt d slot with
  | some (r, o) => s.writeRegion r (o + off) b
  | none => s

/-- An access to the slots held here waits at its home for a flipping page, a line's transaction or a copy of the host's: the
state with the recalls sent (R256, R260, R264, R269, R270). -/
def State.slotsWait (s : State) : Option State :=
  s.held.findSome? fun d => (s.slotAt d 0).bind fun a => s.regionWait a.1 a.2 (2 * d.slotBytes) true

/-- An event whose work reads or writes slots: while an access would wait it takes no effect but for the recalls, and is
presented again. DESIGN CHOICE, log 157. -/
def State.onSlots (s : State) (f : State → State) : State :=
  match s.slotsWait with
  | some s => s
  | none => f s

/-- A line of a slot's range is poisoned. -/
def State.slotPoison (s : State) (d : ShardDef) (slot off n : Nat) : Bool :=
  match s.slotAt d slot with
  | some (r, o) => (s.mem.poisonIn (r.key (o + off)) n).isSome
  | none => false

/-- The first poisoned line in a range of a region. -/
def State.regionPoison (s : State) (r : Region) (off n : Nat) : Option Nat :=
  (r.chunks off n).findSome? fun c => s.mem.poisonIn c.1 c.2

/-- The first poisoned line of a slot's range. -/
def State.slotPoisonAt (s : State) (d : ShardDef) (slot off n : Nat) : Option Nat :=
  (s.slotAt d slot).bind fun a => s.regionPoison a.1 (a.2 + off) n

/-- A poisoned line that recomputing a slot's blaze reads: header and seal, moments and weights (R301, R315). -/
def State.blazePoison (s : State) (d : ShardDef) (slot : Nat) : Bool :=
  s.slotPoison d slot 0 128 || s.slotPoison d slot d.mOff (d.slotBytes - d.mOff)

/-- The first poisoned line that a recomputation of a slot reads: the source's header, moments and weights, the slot's own
segment records and g_red (R223, R314). -/
def State.redoPoison (s : State) (d : ShardDef) (src dst : Nat) : Option Nat :=
  (s.slotPoisonAt d src 0 64).orElse fun _ => (s.slotPoisonAt d src d.mOff (d.slotBytes - d.mOff)).orElse fun _ =>
    (s.slotPoisonAt d dst 0 64).orElse fun _ => (s.slotPoisonAt d dst 0x80 (32 * d.segs)).orElse fun _ =>
      s.slotPoisonAt d dst d.gredOff (2 * d.params)

/-- Full-line writes that end the poison of a slot's moments and weights before they are written again (R223). -/
def State.freshLines (s : State) (d : ShardDef) (slot : Nat) : State :=
  match s.slotAt d slot with
  | none => s
  | some (r, o) =>
    let lines := s.mem.poison.filter fun l =>
      decide (r.key (o + d.mOff) ≤ l * 64) && decide (l * 64 < r.key (o + d.slotBytes))
    lines.foldl (fun s l => s.writeRegion r (l * 64 - r.key 0) (zeros 64)) s

/-! ### Header, seal, segment records -/

/-- The slot header line (R280). -/
structure SlotHdr where
  state : Nat
  round : Nat
  program : Nat
  lsExp : Int
  ring : Nat
  shard : Nat
  params : Nat
  c1 : Nat
  c2 : Nat
  k : Nat
  segs : Nat
  deriving DecidableEq, Repr

/-- The 64 bytes of a header line. -/
def SlotHdr.bytes (h : SlotHdr) : Bytes :=
  let b := leBytes 4 0x534C0001 ++ leBytes 1 h.state ++ leBytes 1 h.round ++ leBytes 1 h.program
    ++ leBytes 1 (byteOfInt h.lsExp) ++ leBytes 8 h.ring ++ leBytes 4 h.shard ++ leBytes 4 h.params
    ++ leBytes 4 h.c1 ++ leBytes 4 h.c2 ++ leBytes 4 h.k ++ leBytes 4 h.segs ++ zeros 20
  b ++ leBytes 4 (crc32c b)

/-- The header that 64 bytes hold; a check that does not match counts as absent (R283). -/
def SlotHdr.parse (b : Bytes) : Option SlotHdr :=
  if fld b 0x3C 4 = crc32c (b.take 0x3C) && fld b 0 4 == 0x534C0001 then
    some { state := byteAt b 4, round := byteAt b 5, program := byteAt b 6, lsExp := intOfByte (byteAt b 7),
           ring := fld b 8 8, shard := fld b 0x10 4, params := fld b 0x14 4, c1 := fld b 0x18 4,
           c2 := fld b 0x1C 4, k := fld b 0x20 4, segs := fld b 0x24 4 }
  else none

/-- The seal line (R281). -/
structure Seal where
  state : Nat
  round : Nat
  nonfinite : Nat
  ring : Nat
  blaze : Nat
  mode : Nat
  sumsq : Nat
  deriving DecidableEq, Repr

/-- The 64 bytes of a seal line. -/
def Seal.bytes (x : Seal) : Bytes :=
  let b := leBytes 1 x.state ++ leBytes 1 x.round ++ zeros 2 ++ leBytes 4 x.nonfinite ++ leBytes 8 x.ring
    ++ leBytes 8 x.blaze ++ leBytes 8 x.mode ++ leBytes 4 x.sumsq ++ zeros 24
  b ++ leBytes 4 (crc32c b)

/-- The seal that 64 bytes hold: SEALED with a matching check (R281, R283). -/
def Seal.parse (b : Bytes) : Option Seal :=
  if fld b 0x3C 4 = crc32c (b.take 0x3C) && byteAt b 0 == 2 then
    some { state := 2, round := byteAt b 1, nonfinite := fld b 4 4, ring := fld b 8 8,
           blaze := fld b 0x10 8, mode := fld b 0x18 8, sumsq := fld b 0x20 4 }
  else none

/-- Header and seal of a slot. -/
def State.slotHdr (s : State) (d : ShardDef) (slot : Nat) : Option SlotHdr := SlotHdr.parse (s.slotRead d slot 0 64)
def State.slotSeal (s : State) (d : ShardDef) (slot : Nat) : Option Seal := Seal.parse (s.slotRead d slot 64 64)

/-- A segment record (R282). -/
def State.segRecord (s : State) (d : ShardDef) (slot j : Nat) : Bytes := s.slotRead d slot (0x80 + 32 * j) 32

/-- Bytes of a segment in the g_red, w, m and v areas. -/
def State.gredSeg (s : State) (d : ShardDef) (slot j : Nat) : Bytes :=
  s.slotRead d slot (d.gredOff + 2 * d.segFirst j) (2 * d.segCount j)
def State.wSeg (s : State) (d : ShardDef) (slot j : Nat) : Bytes :=
  s.slotRead d slot (d.wOff + 4 * d.segFirst j) (4 * d.segCount j)
def State.momSeg (s : State) (d : ShardDef) (slot j : Nat) : Bytes × Bytes :=
  (s.slotRead d slot (d.mOff + 4 * d.segFirst j) (4 * d.segCount j),
   if d.moments = 2 then s.slotRead d slot (d.vOff + 4 * d.segFirst j) (4 * d.segCount j) else [])

/-- The g_red area of a slot is complete at ring N (R283). -/
def State.gredComplete (s : State) (d : ShardDef) (slot ring : Nat) : Bool :=
  (List.range d.segs).all fun j =>
    let r := s.segRecord d slot j
    fld r 4 4 == ring % 2 ^ 32 && fld r 0 4 == crc32c (s.gredSeg d slot j)

/-- SG_WDIG and SG_SDIG of a segment, computed from its bytes (R301). -/
def State.segDigests (s : State) (d : ShardDef) (slot j : Nat) : Nat × Nat :=
  let m := s.momSeg d slot j
  (crc64 (s.wSeg d slot j), crc64 (m.1 ++ m.2))

/-- The blaze of a ring, the bias-correction terms and the digests (R301). -/
def blazeOf (ring c1 c2 : Nat) (digs : List (Nat × Nat)) : Nat :=
  crc64 (leBytes 8 ring ++ leBytes 4 c1 ++ leBytes 4 c2 ++ digs.flatMap fun x => leBytes 8 x.1 ++ leBytes 8 x.2)

/-- A slot's blaze recomputed from its bytes (R301). -/
def State.recomputeBlaze (s : State) (d : ShardDef) (slot : Nat) : Nat :=
  let h := s.slotRead d slot 0 64
  blazeOf (fld h 8 8) (fld h 0x18 4) (fld h 0x1C 4) ((List.range d.segs).map (s.segDigests d slot))

/-! ### Parameters in force -/

/-- The value of a field of an ARRIVAL_UPDATE, replaced by a mode entry when one is in force (R294). -/
def modeField (ms : List ModeEntry) (op field value : Nat) : Nat :=
  match ms.find? fun e => e.op == op && e.field == field with
  | some e => e.value
  | none => value

/-- ARRIVAL_UPDATE parameters (R292). -/
structure AuParams where
  shard : Nat
  program : Nat
  lr : Nat
  decay : Nat
  b1 : Nat
  b2 : Nat
  eps : Nat
  gscale : Nat
  clip : Nat
  steps : List Nat
  scalars : List Nat
  deriving DecidableEq, Repr

/-- The parameters of an ARRIVAL_UPDATE as the plan gives them, with the modes in force (R294, R350). -/
def Plan.au (p : Plan) (op : Nat) : AuParams :=
  let b := p.param op
  let f := fun field off => modeField p.inForce op field (fld b off 4)
  { shard := fld b 0 4
    program := bits (byteAt b 4) 1 0
    lr := f 1 8, decay := f 2 0x0C, b1 := f 3 0x10, b2 := f 4 0x14, eps := f 5 0x18, gscale := f 6 0x1C
    clip := f 7 0x20
    steps := vecSteps (b.drop 0x40)
    scalars := (List.range 4).map fun i => f (8 + i) (0x44 + 4 * i) }

/-- The ARRIVAL_UPDATE of a shard in a plan. -/
def Plan.auOf (p : Plan) (shard : Nat) : Option Nat :=
  (p.opsOf 0x0040).find? fun i => fld (p.param i) 0 4 == shard

/-! ### The update of a segment -/

/-- The constants of R295. -/
structure AuConst where
  sEff : Nat
  omb1 : Nat
  omb2 : Nat
  c1 : Nat
  c2 : Nat
  r1 : Nat
  r2 : Nat
  deriving DecidableEq, Repr

def one32 : Nat := 0x3F800000

/-- Forms the constants from the committed header's C1 and C2 and the loss-scale exponent (R295). -/
def auConst (a : AuParams) (c10 c20 : Nat) (ls : Int) : AuConst :=
  let c1 := if a.program = 2 then fmul c10 a.b1 else one32
  let c2 := if a.program = 2 then fmul c20 a.b2 else one32
  { sEff := r32 ((d32 a.gscale).shift (-ls))
    omb1 := fsub one32 a.b1, omb2 := fsub one32 a.b2, c1 := c1, c2 := c2
    r1 := fdiv one32 (fsub one32 c1), r2 := fdiv one32 (fsub one32 c2) }

/-- One element's update (R296, R297): t, and the new m, v, w. `k` is the clip factor in a clip round. -/
def auElem (a : AuParams) (c : AuConst) (k : Option Nat) (gred m0 v0 w0 : Nat) : Nat × Nat × Nat × Nat :=
  let t := fmul (r32 (fmtG16.decode gred)) c.sEff
  let g := match k with | some k => fmul t k | none => t
  if a.program = 3 then
    let o := vecRun a.steps [g, w0, m0, v0] a.scalars
    (t, o.getD 15 0, o.getD 13 0, o.getD 14 0)
  else
    let x := if a.program = 2 then
        let m := ffma a.b1 m0 (fmul c.omb1 g)
        let v := ffma a.b2 v0 (fmul (fmul c.omb2 g) g)
        (m, v, fdiv (fmul m c.r1) (fadd (fsqrt (fmul v c.r2)) a.eps))
      else
        let m := ffma a.b1 m0 g
        (m, 0, if a.program = 1 then ffma a.b1 m g else m)
    (t, x.1, x.2.1, ffma (fneg a.lr) x.2.2 (ffma (fneg a.decay) w0 w0))

/-- Numbers of `n` bytes each that a byte string spells. -/
def wordsOf (n : Nat) : Nat → Bytes → List Nat
  | 0, _ => []
  | k + 1, b => leNat (b.take n) :: wordsOf n k (b.drop n)

/-- The element results of a segment. -/
def auSeg (a : AuParams) (c : AuConst) (k : Option Nat) (g m v w : List Nat) : List (Nat × Nat × Nat × Nat) :=
  (List.range g.length).map fun i => auElem a c k (g.getD i 0) (m.getD i 0) (v.getD i 0) (w.getD i 0)

/-- Sum of squares of a segment's t values (R304). -/
def segSumsq (ts : List Nat) : Nat := reduceSum (ts.map fun t => fmul t t)

/-- The committed and the pending slot of a shard. -/
def Trn.committed (t : Trn) (d : ShardDef) : Nat := (t.selOf d.shard).slot
def Trn.pending (t : Trn) (d : ShardDef) : Nat := 1 - (t.selOf d.shard).slot

/-- SG_CRC and SG_RING of a segment of a slot (R299 step 3). -/
def State.writeSegCrc (s : State) (d : ShardDef) (slot j ring : Nat) : State :=
  s.slotWrite d slot (0x80 + 32 * j) (leBytes 4 (crc32c (s.gredSeg d slot j)) ++ leBytes 4 (ring % 2 ^ 32))

/-- Steps 4 and 5 of R299 for one segment, from the source slot's state and the destination slot's g_red:
writes moments, weights, digests. Also the count of non-finite parameters and the sum of squares. -/
def State.updateSeg (s : State) (d : ShardDef) (a : AuParams) (c : AuConst) (k : Option Nat)
    (src dst j : Nat) : State × Nat × Nat :=
  let n := d.segCount j
  let g := wordsOf 2 n (s.gredSeg d dst j)
  let mo := s.momSeg d src j
  let es := auSeg a c k g (wordsOf 4 n mo.1) (wordsOf 4 n mo.2) (wordsOf 4 n (s.wSeg d src j))
  let at4 := fun (area : Nat) => area + 4 * d.segFirst j
  let s := s.slotWrite d dst (at4 d.mOff) (es.flatMap fun e => leBytes 4 e.2.1)
  let s := if d.moments = 2 then s.slotWrite d dst (at4 d.vOff) (es.flatMap fun e => leBytes 4 e.2.2.1) else s
  let s := s.slotWrite d dst (at4 d.wOff) (es.flatMap fun e => leBytes 4 e.2.2.2)
  let dg := s.segDigests d dst j
  let s := s.slotWrite d dst (0x88 + 32 * j) (leBytes 8 dg.1 ++ leBytes 8 dg.2)
  let bad := (List.range n).filter fun i =>
    let e := es.getD i (0, 0, 0, 0)
    !(fmtG16.decode (g.getD i 0)).finite || !isFin32 e.2.1 || (d.moments == 2 && !isFin32 e.2.2.1) || !isFin32 e.2.2.2
  (s, bad.length, segSumsq (es.map (·.1)))

/-- The seal line of a slot whose segments are done (R299 step 6). -/
def State.writeSeal (s : State) (d : ShardDef) (slot : Nat) (h : SlotHdr) (mode nonfinite sumsq : Nat) : State :=
  let digs := (List.range d.segs).map fun j =>
    let r := s.segRecord d slot j
    (fld r 8 8, fld r 0x10 8)
  s.slotWrite d slot 64 (Seal.bytes
    { state := 2, round := h.round, nonfinite := min nonfinite 0xFFFFFFFF, ring := h.ring,
      blaze := blazeOf h.ring h.c1 h.c2 digs, mode := mode, sumsq := sumsq })

/-- The recomputation of a whole slot from another slot and the slot's own g_red (R305, R306, R314, R315):
header, segments and seal. SL_SUMSQ is kept from `keep` in a clip round. -/
def State.recompute (s : State) (d : ShardDef) (a : AuParams) (src dst : Nat) (h : SlotHdr) (mode : Nat)
    (keep : Option Nat) : State :=
  let src0 := s.slotRead d src 0 64
  let c := { auConst a (fld src0 0x18 4) (fld src0 0x1C 4) h.lsExp with c1 := h.c1, c2 := h.c2 }
  let c := { c with r1 := fdiv one32 (fsub one32 h.c1), r2 := fdiv one32 (fsub one32 h.c2) }
  let s := s.slotWrite d dst 64 (Seal.bytes ⟨0, 0, 0, 0, 0, 0, 0⟩)
  let s := s.slotWrite d dst 0 h.bytes
  let k := if h.round = 1 then some h.k else none
  let x := (List.range d.segs).foldl (fun (acc : State × Nat × List Nat) j =>
    let r := acc.1.updateSeg d a c k src dst j
    (r.1, acc.2.1 + r.2.1, acc.2.2 ++ [r.2.2])) (s, 0, [])
  x.1.writeSeal d dst h mode x.2.1 (keep.getD (sumInOrder x.2.2))

end Sys2Proof.Machine
end

