-- ==== Sys2Proof/Machine/Verdict.lean ====
section
/-! DEFINITION. The verdict: contributions and their combination along the axes (R303, R336 to R342), the
decision (R344), clip and referee rounds (R305, R354), commit (R312), skip (R307), hold, the end of a step and
its record (R334, R346, R361 to R363), local holds and hold notices (R356, R634). -/

namespace Sys2Proof.Machine

/-! ### Verdicts as data -/

/-- The rows of R344, with the clip round that may share a referee round. -/
inductive Decision where
  | hold (row code : Nat)
  | skip
  | referee (clip : Bool)
  | clip
  | commit
  deriving DecidableEq, Repr

end Sys2Proof.Machine

namespace Sys2Proof

open Machine

/-- The 64 bytes of a verdict (R337). -/
def Verdict.bytes (v : Verdict) : Bytes :=
  let b := leBytes 8 (v.round % 256 * 2 ^ 48 + v.ring % 2 ^ 48) ++ leBytes 4 v.sumsq ++ leBytes 4 v.nonfinite
    ++ leBytes 4 v.unsealed ++ leBytes 4 v.twinMiss ++ leBytes 4 v.diverged ++ leBytes 4 v.devices
    ++ leBytes 8 v.modeLo ++ leBytes 8 v.modeHi ++ leBytes 4 v.hold ++ leBytes 1 v.holdCode ++ zeros 3
    ++ leBytes 4 v.clip
  b ++ leBytes 4 (crc32c b)

/-- A sum that saturates at 0xFFFF_FFFF (R338). -/
def satAdd (a b : Nat) : Nat := min 0xFFFFFFFF (a + b)

/-- The combination of two verdicts of one ring and round (R338). -/
def Verdict.combine (a b : Verdict) : Verdict :=
  { ring := a.ring, round := a.round
    sumsq := fadd a.sumsq b.sumsq
    nonfinite := satAdd a.nonfinite b.nonfinite
    unsealed := satAdd a.unsealed b.unsealed
    twinMiss := satAdd a.twinMiss b.twinMiss
    diverged := satAdd a.diverged b.diverged
    devices := satAdd a.devices b.devices
    modeLo := min a.modeLo b.modeLo, modeHi := max a.modeHi b.modeHi
    hold := satAdd a.hold b.hold, holdCode := max a.holdCode b.holdCode
    clip := max a.clip b.clip }

/-- The key order of watch entries (R340). -/
def WatchEntry.key (e : WatchEntry) : Nat := e.plan * 2 ^ 48 + e.size * 2 ^ 16 + e.desc

/-- A sum that saturates at 2^64 − 1 (R341). -/
def satAdd64 (a b : Nat) : Nat := min (2 ^ 64 - 1) (a + b)

/-- The global norm n (R305). -/
def Verdict.norm (v : Verdict) : Nat := fsqrt v.sumsq

/-- Row 8's condition. -/
def Verdict.clips (v : Verdict) : Bool :=
  v.round == 0 && v.clip % 2 ^ 31 != 0 && (d32 v.clip).lt (d32 v.norm)

/-- The first row of R344 that matches. -/
def Verdict.rule (v : Verdict) : Decision :=
  if v.modeLo ≠ v.modeHi then .hold 1 cMODE_SPLIT
  else if 0 < v.hold then .hold 2 v.holdCode
  else if 0 < v.diverged then .hold 3 cDIVERGED
  else if 0 < v.nonfinite || !isFin32 v.norm then .skip
  else if 0 < v.unsealed then .hold 5 cINTERNAL
  else if 0 < v.twinMiss && v.round = 0 then .referee v.clips
  else if 0 < v.twinMiss then .hold 7 cDIVERGED
  else if v.clips then .clip
  else .commit

end Sys2Proof

namespace Sys2Proof.Machine

/-- Adds an entry to a list in ascending key order (R341). -/
def addWatch (e : WatchEntry) : List WatchEntry → List WatchEntry
  | [] => [e]
  | x :: r =>
    if e.key = x.key then { x with sat := satAdd64 x.sat e.sat, conv := satAdd64 x.conv e.conv } :: r
    else if e.key < x.key then e :: x :: r
    else x :: addWatch e r

/-- Two watch lists combined (R341). -/
def mergeWatch (a b : List WatchEntry) : List WatchEntry := b.foldl (fun l e => addWatch e l) a

/-- The row number of a decision. -/
def Decision.row : Decision → Nat
  | .hold r _ => r
  | .skip => 4
  | .referee _ => 6
  | .clip => 8
  | .commit => 9

/-! ### Steps -/

/-- The state with the active step changed. -/
def State.onStep (s : State) (f : Step → Step) : State :=
  { s with stp := { s.stp with active := s.stp.active.map f } }

/-- The active step and its plan. -/
def State.stepPlan (s : State) : Option (Step × Plan) :=
  s.stp.active.bind fun st => (s.pln.get st.plan).map fun p => (st, p)

/-- The device ring (R346). -/
def State.deviceRing (s : State) : Nat :=
  match s.held.head? with
  | some d => (s.trn.selOf d.shard).ring
  | none => s.trn.ring

/-- Sets a tag's state word. -/
def Stp.setWord (t : Stp) (tag : Nat) (w : WordState) : Stp :=
  { t with words := t.words.map fun x => if x.tag == tag then ⟨tag, w⟩ else x }

/-- The state word of an accepted request: the newest; the last 64 tags are kept (R332). -/
def Stp.newWord (t : Stp) (tag : Nat) (w : WordState) : Stp :=
  let l := t.words.filter (·.tag != tag) ++ [⟨tag, w⟩]
  { t with words := l.drop (l.length - 64) }

/-- The word of a tag is DONE with a code (R332). -/
def Stp.doneCode (t : Stp) (tag : Nat) : Option Nat :=
  (t.words.find? (·.tag == tag)).bind fun w => match w.st with
    | .done c => some c
    | _ => none

/-- A step changes its state word; one that ABORT has ended stays DONE (R332, R333). -/
def Stp.moveWord (t : Stp) (tag : Nat) (w : WordState) : Stp :=
  if (t.doneCode tag).isSome then t else t.setWord tag w

/-- An entry of a step record, 32 bytes (R363, R633). -/
def recEntry (ty : Nat) (b : Bytes) : Bytes := padTo 32 (leBytes 1 ty ++ b)

/-- Adds an entry to the active step's record. DEDUCED, log 116. -/
def State.addEntry (s : State) (e : Bytes) : State := s.onStep fun st => { st with entries := st.entries ++ [e] }

/-- The micro-batch number of a record entry. -/
def Plan.mbByte (p : Plan) (op mb : Nat) : Nat := if (p.op op).perMb then mb else 0xFF

/-- Keeps the FAULT entry of the lowest-numbered operation, its lowest address (R250). -/
def addFault (es : List Bytes) (e : Bytes) : List Bytes :=
  let key := fun (b : Bytes) => fld b 1 2 * 2 ^ 64 + fld b 5 7
  match es.find? fun b => byteAt b 0 == 9 with
  | none => es ++ [e]
  | some old => if key e < key old then es.map fun b => if b == old then e else b else es

/-- The state with a FAULT entry recorded (R633). -/
def State.faultEntry (s : State) (op mb kind va region page line : Nat) : State :=
  match s.stepPlan with
  | none => s
  | some (_, p) =>
    let e := recEntry 9 (leBytes 2 op ++ leBytes 1 (p.mbByte op mb) ++ leBytes 1 kind ++ leBytes 7 va
      ++ leBytes 1 region ++ leBytes 4 page ++ leBytes 2 line)
    s.onStep fun st => { st with entries := addFault st.entries e }

/-- Marks a phase's start, when its first instance is issued, and traces it (R335, R627). -/
def State.phaseStart (s : State) (i : Nat) : State :=
  match s.stp.active with
  | none => s
  | some st =>
    if st.phases.any (·.1 == i) then s
    else (s.onStep fun st => { st with phases := st.phases ++ [(i, s.aon.tick.toNat, 0)] }).trace 3 false 0x06 uRanger 0
      (leBytes 2 i ++ leBytes 6 st.ring)

/-- Marks a phase's end. -/
def State.phaseEnd (s : State) (i : Nat) : State :=
  match s.stp.active with
  | none => s
  | some st => (s.onStep fun st => { st with
      phases := st.phases.map fun p => if p.1 == i then (i, p.2.1, s.aon.tick.toNat) else p }).trace 3 false 0x06 uRanger 0
        (leBytes 2 (i + 256) ++ leBytes 6 st.ring)

/-- The bytes of a step record (R362). DEDUCED, log 48. -/
def Step.record (st : Step) (code : Nat) (lsNext : Int) (planLoaded advances : Bool) : Bytes :=
  let es := st.entries.take 4096
  leBytes 8 (st.attempt * 2 ^ 48 + st.ring) ++ leBytes 1 code ++ leBytes 1 (if advances then st.round + 1 else 0)
    ++ leBytes 1 (byteOfInt st.lsExp) ++ leBytes 1 (byteOfInt lsNext)
    ++ leBytes 4 (b2n st.resumed * 4 + b2n st.replay * 2 + b2n planLoaded)
    ++ leBytes 8 st.stamp.toNat ++ leBytes 4 es.length ++ leBytes 4 (st.entries.length - 4096)
    ++ leBytes 2 st.plan ++ leBytes 2 (if st.replay then st.fromAttempt else 0) ++ zeros 28
    ++ ((List.range 9).flatMap fun i =>
      match st.phases.find? (·.1 == i) with
      | some p => leBytes 8 p.2.1 ++ leBytes 8 p.2.2
      | none => zeros 16)
    ++ zeros 0x30
    ++ (match st.last with | some v => v.bytes | none => zeros 64)
    ++ es.flatten

/-- Makes the record of an attempt readable (R346, R361). -/
def Stp.decideRecord (t : Stp) (ring attempt : Nat) (b : Bytes) : Stp :=
  { t with records := t.records.map fun r =>
      if r.ring == ring && r.attempt == attempt then { r with decided := true, bytes := b } else r }

/-- A gather request belongs to the active step's attempt. -/
def Step.asked (st : Step) (g : GatherReq) : Bool := g.ring + 1 == st.ring && g.attempt == st.attempt

/-- The work of the step in the engines and the chains stops and is dropped (R413, R634). -/
def State.dropWork (s : State) : State :=
  let mine := fun g => match s.stp.active with
    | some st => st.asked g
    | none => false
  { s with
    eng := { Eng.reset with lastTask := s.eng.lastTask }
    fab := { s.fab with chains := [], gatherReqs := s.fab.gatherReqs.filter fun g => !mine g }
    trn := { s.trn with updates := [], referees := [] } }

/-- Prepared slots become free, and the lanes at work on them idle (R433). -/
def Gld.freePreps (g : Gld) (gone : Prep → Bool) : Gld :=
  let lost := g.preps.filter gone
  { g with
    preps := g.preps.filter fun r => !gone r
    lanes := g.lanes.filter fun l => !(lost.any fun r => r.source == l.2.source && r.ring == l.2.ring) }

/-- The prepared slots of a step that has ended become free (R433). -/
def State.freeSlots (s : State) (st : Step) : State :=
  { s with gld := s.gld.freePreps fun r => r.plan == st.plan && r.ring == st.ring }

/-- A queued step that never ran ends ABORTED (R334). -/
def State.abortQueued (s : State) : State :=
  match s.stp.queued with
  | none => s
  | some q => { s.freeSlots q with stp :=
      (({ s.stp with queued := none }.moveWord q.tag (.done cABORTED)).decideRecord q.ring q.attempt
        (q.record cABORTED q.lsExp true (!q.verdictFree))) }

/-- The active step ends with a code: its state word, its record, attention, and, unless it committed, its
queued successor (R332, R334, R346, R328). -/
def State.endStep (s : State) (code cls : Nat) (lsNext : Int) : State :=
  match s.stp.active with
  | none => s
  | some st =>
    let code := (s.stp.doneCode st.tag).getD code
    let t := { s.stp with active := none }
    let t := if st.plan = 0 then t
      else (t.moveWord st.tag (.done code)).decideRecord st.ring st.attempt
        (st.record code lsNext ((s.pln.get st.plan).isSome) (!st.verdictFree))
    let s := { (s.dropWork).freeSlots st with stp := t }
    let s := if code = cOK then s else s.abortQueued
    s.raise cls code st.tag st.ring st.attempt

/-- The range-policy word of a plan after a verdict (R310). -/
def Plan.policyAfter (p : Plan) (committed skipped : Bool) : Plan :=
  if !bit (p.setting 0x10 1) 0 then p else
  let lo := intOfByte (p.setting 0x12 1)
  let hi := intOfByte (p.setting 0x13 1)
  let growth := if p.setting 0x14 2 = 0 then 2000 else p.setting 0x14 2
  if skipped then { p with lsExp := max (p.lsExp - 1) lo, clean := 0 }
  else if committed then
    (if p.clean + 1 = growth then { p with lsExp := min (p.lsExp + 1) hi, clean := 0 }
     else { p with clean := p.clean + 1 })
  else p

/-- Applies a verdict's outcome to the range-policy word, with the LOSS_SCALE entry; L after it. A replay goes from its
attempt's L, so that it records the same entry (R358, R363). DEDUCED, log 154. -/
def State.policy (s : State) (committed skipped : Bool) : State × Int :=
  match s.stp.active with
  | none => (s, 0)
  | some st =>
    match s.pln.get st.plan with
    | none => (s, st.lsExp)
    | some p =>
      let p := if st.replay && (committed || skipped) then { p with lsExp := st.lsExp } else p
      let p' := p.policyAfter committed skipped
      let s := { s with pln := s.pln.put p' }
      (if p'.lsExp = p.lsExp then s
       else s.addEntry (recEntry 0x0C (leBytes 1 (byteOfInt p.lsExp) ++ leBytes 1 (byteOfInt p'.lsExp))),
       if bit (p.setting 0x10 1) 0 then p'.lsExp else st.lsExp)

/-- The escalation format of a format, as TD_FORMAT with SCALE_MODE in bits [5:4] (R76). -/
def escalated (f : Nat) : Option Nat :=
  if f = 5 then some (3 + 16) else if f = 3 then some 1 else if f = 8 then some (6 + 16)
  else if f = 9 then some (7 + 16) else if f = 6 || f = 7 then some 1 else none

/-- Schedules the escalations of the step's crossings two rings on (R73, R75). -/
def Pln.schedule (l : Pln) (cross : List (Nat × Nat × Nat × Nat)) (ring : Nat) : Pln :=
  cross.foldl (fun l c =>
    match l.get c.1 with
    | none => l
    | some p =>
      let t := p.td c.2.1 0
      match escalated t.format with
      | some f => l.put { p with escalations := p.escalations ++ [⟨c.2.1, t.format + 16 * t.mode, f, ring + 2⟩] }
      | none => l) l

/-- Steps 1 to 3 of R312: the commit record, the selectors of the shards held here but for those a recovery
leaves, the residue selector. -/
def State.commitState (s : State) (ring round : Nat) (ls : Int) (but : List Nat) : State :=
  let sel := s.held.foldl (fun (l : AL Selector) d =>
    if but.contains d.shard then l
    else let x := s.trn.selOf d.shard; l.set d.shard ⟨ring, x.valid, 1 - x.slot⟩) s.trn.sel
  { s.fence with trn := { s.trn with
      commit := some (ring, round)
      sel := sel
      resSel := ⟨ring, ls, true, 1 - s.trn.resSel.slot⟩
      ring := ring } }

/-- The last four verdicts of the device (R355). -/
def Stp.addVerdict (t : Stp) (v : Verdict) (allow : Bool) : Stp :=
  let l := t.verdicts ++ [(v, allow)]
  { t with verdicts := l.drop (l.length - 4) }

/-- A decided step commits ring N (R312, R73). -/
def State.commitStep (s : State) (v : Verdict) : State :=
  match s.stp.active with
  | none => s
  | some st =>
    let s := s.phaseStart 8
    let s := s.commitState st.ring v.round st.lsExp []
    let s := { s with gld := { s.gld with manifests := s.gld.manifests.filter fun m => decide (st.ring < m.2) } }
    let s := { s with pln := s.pln.schedule st.crossings st.ring }
    let x := s.policy true false
    (x.1.phaseEnd 8).endStep cOK aSTEP_DONE x.2

/-! ### Contributions (R303, R340) -/

/-- The seal of a shard's pending slot for the step's ring and round; a round in which only a referee works
rewrites no slot, so its seals stay those of round 0. -/
def State.sealOf (s : State) (st : Step) (d : ShardDef) : Option Seal :=
  (s.slotSeal d (s.trn.pending d)).filter fun x =>
    x.ring == st.ring && x.round == (if st.k.isNone then 0 else st.round)

/-- The largest AU_CLIP in force among the step's ARRIVAL_UPDATEs (R303); -0 counts as +0 (R338). -/
def Plan.clipMax (p : Plan) : Nat := (p.opsOf 0x0040).foldl (fun m i => max m ((p.au i).clip % 2 ^ 31)) 0

/-- The device's contribution for the active step's round (R303, R337). -/
def State.contribution (s : State) (st : Step) : Verdict :=
  let p := s.pln.get st.plan
  let seals := s.held.map fun d => (d, s.sealOf st d)
  let modes := seals.filterMap fun x => x.2.map (·.mode)
  let listed := match p with
    | some p => (List.range (p.count 7)).map fun i => leNat (entryOf p.bytes 7 i)
    | none => []
  { ring := st.ring, round := st.round
    sumsq := (seals.filter fun x => s.owns x.1).foldl (fun a x => match x.2 with
      | some q => fadd a q.sumsq
      | none => a) 0
    nonfinite := min 0xFFFFFFFF ((seals.filterMap fun x => x.2.map (·.nonfinite)).sum
      + (listed.map fun d => st.nonfinite.getD d 0).sum)
    unsealed := (seals.filter (·.2.isNone)).length
    twinMiss := (st.disputes.filter fun x => st.round = 0 || x.2 = 1).length
    diverged := st.diverged
    devices := 1
    modeLo := modes.foldl min st.stamp.toNat
    modeHi := modes.foldl max st.stamp.toNat
    hold := 0, holdCode := 0
    clip := match p with | some p => p.clipMax | none => 0 }

/-- The device's own watch list (R340). -/
def State.ownWatch (s : State) (st : Step) : List WatchEntry :=
  match s.pln.get st.plan with
  | none => []
  | some p =>
    ((List.range (p.count 0)).filter fun id => (p.rawTd id).rw != 0).map fun id =>
      let w := st.watch.find? (·.1 == id)
      ⟨p.check, p.size, id, satAdd64 0 ((w.map (·.2.1)).getD 0), satAdd64 0 ((w.map (·.2.2)).getD 0)⟩

/-- The crossings that the summed watch list shows for the loaded plans (R72, R75, R341). -/
def State.crossings (s : State) (ring : Nat) (watch : List WatchEntry) : List (Nat × Nat × Nat × Nat) :=
  s.pln.plans.flatMap fun p =>
    (watch.filter fun e => e.plan == p.check && e.size == p.size).filterMap fun e =>
      let t := p.td e.desc 0
      if (p.escalations.any fun x => x.desc == e.desc && decide (ring < x.ring)) || (escalated t.format).isNone || t.rw = 0 then none
      else if t.rw * e.conv < e.sat * 65536 then some (p.handle, e.desc, e.sat, e.conv) else none

/-! ### Clip and referee rounds -/

/-- A recomputation meets a poisoned line: FAULT attention, a FAULT entry of kind POISON of the shard's ARRIVAL_UPDATE, and
the step is to be held (R223, R316). -/
def State.redoFails (s : State) (d : ShardDef) (op l : Nat) : State :=
  let off := l * 64 % 2 ^ 42
  let st := match s.rgn.get d.region with
    | some r => r.stackOf off
    | none => 0
  let s := s.raise aFAULT cINTERNAL noTag (unitField uStack st 0) off
  (s.faultEntry op 0 5 0 d.region (off / pageBytes) (l % 1024)).onStep fun st => { st with
    holdCode := if st.holdCode = 0 then cINTERNAL else st.holdCode }

/-- A clip round on the shards held here (R305, R306), none recomputed past a poisoned line. -/
def State.clipRound (s : State) (st : Step) (k : Nat) : State :=
  match s.pln.get st.plan with
  | none => s
  | some p => s.held.foldl (fun s d =>
      match p.auOf d.shard, s.slotHdr d (s.trn.pending d) with
      | some op, some h =>
        (match s.redoPoison d (s.trn.committed d) (s.trn.pending d) with
        | some l => s.redoFails d op l
        | none =>
          let keep := ((s.slotSeal d (s.trn.pending d)).map (·.sumsq)).getD 0
          s.recompute d (p.au op) (s.trn.committed d) (s.trn.pending d) { h with round := 1, k := k } st.stamp.toNat
            (some keep))
      | _, _ => s) s

/-- The referee of a shard (R354): the first candidate on the owner's Y, Z, X lines that is a member and neither
twin. -/
def Fab.referee (f : Fab) (owner twin : Nat) : Option Nat :=
  let along := fun (ax : Axis) => (upFrom 1 (f.sizeOf ax - 1)).map fun j =>
    withCoord owner ax ((coordOf owner ax + j) % f.sizeOf ax)
  (along .y ++ along .z ++ along .x).find? fun a => f.isMember a && a != owner && a != twin

/-- The device begins its referee work: it asks both twins of every shard it is the referee of. DEDUCED, log 45. -/
def State.refereeRound (s : State) : State :=
  match s.fab.addr, s.stp.active with
  | none, _ | _, none => s
  | some me, some st =>
    let mine := s.trn.shards.filter fun d => d.twinEn && s.fab.referee d.owner d.twin == some me
    { s with
      trn := { s.trn with referees := mine.map (fun d => (⟨d.shard, none, none, false⟩ : Referee)) }
      out := s.out ++ mine.flatMap fun d =>
        [Output.referee d.owner (RefereeMsg.request me d.shard (st.ring - 1)),
          Output.referee d.twin (RefereeMsg.request me d.shard (st.ring - 1))] }

/-- Disputed shards that no device can referee report a mismatch (R354). -/
def State.hopeless (s : State) : State :=
  let none' := fun (id : Nat) => match s.trn.shard id with
    | some d => (s.fab.referee d.owner d.twin).isNone
    | none => false
  s.onStep fun st => { st with disputes := st.disputes.map fun x => if none' x.1 then (x.1, 1) else x }

/-! ### The verdict engine (R339, R341, R344) -/

/-- The decision on the machine's verdict. DEDUCED, log 49. -/
def State.decideVerdict (s : State) (v : Verdict) (watch : List WatchEntry) : State :=
  match s.stp.active with
  | none => s
  | some st =>
    let dec := v.rule
    let s := s.onStep fun st => { st with vround := none, last := some v }
    let s := { s with stp := s.stp.addVerdict v (v.rule == Decision.commit) }
    let s := s.phaseEnd (if v.round = 0 then 6 else 7)
    let s := s.trace 3 false 0x07 uRanger 0 (leBytes 1 v.round ++ leBytes 1 dec.row ++ leBytes 6 v.ring)
    let s := if v.round = 0 then
        let cs := s.crossings st.ring watch
        (s.onStep fun st => { st with
          crossings := cs
          entries := st.entries ++ cs.map fun c =>
            recEntry 0x03 (leBytes 2 c.2.1 ++ leBytes 2 c.1 ++ leBytes 8 c.2.2.1 ++ leBytes 8 c.2.2.2) })
      else s
    let again := fun (s : State) (k : Option Nat) =>
      let s := s.phaseStart 7
      let t := (s.onStep fun st => { st with round := 1, k := k, st := .running }).stp
      { s with stp := if st.plan = 0 then t else t.moveWord st.tag .running }
    let kOf := fdiv v.clip v.norm
    let clipped := fun (s : State) =>
      ((again s (some kOf)).addEntry (recEntry 0x0D (leBytes 4 v.norm ++ leBytes 4 kOf))).clipRound st kOf
    match dec with
    | .commit => s.commitStep v
    | .skip =>
      let x := s.policy false true
      x.1.endStep cNONFINITE aSTEP_DONE x.2
    | .hold _ code => let x := s.policy false false; x.1.endStep code aSTEP_HELD x.2
    | .clip => clipped s
    | .referee c => ((if c then clipped s else again s none).refereeRound).hopeless

/-- The 32 bytes of a watch entry (R340). -/
def WatchEntry.bytes (e : WatchEntry) : Bytes :=
  leBytes 4 e.plan ++ leBytes 4 e.size ++ leBytes 2 e.desc ++ zeros 6 ++ leBytes 8 e.sat ++ leBytes 8 e.conv

/-- A watch list in parts of seven entries, which with their CRC fill one flit, the last part marked; an empty list is one
empty part. DESIGN CHOICE, log 39. -/
def watchParts : Nat → List WatchEntry → List (List WatchEntry × Bool)
  | 0, _ => []
  | n + 1, l => if l.length ≤ 7 then [(l, true)] else (l.take 7, false) :: watchParts n (l.drop 7)

/-- A message with its CRC-32C (R386). -/
def withCrc (b : Bytes) : Bytes := b ++ leBytes 4 (crc32c b)

/-- The messages that carry a verdict to a device: 68 bytes, and in round 0 the watch list after it (R341, R419). -/
def verdictMsgs (dst : Nat) (axis : Axis) (bcast : Bool) (v : Verdict) (w : List WatchEntry) : List Output :=
  .verdict dst axis bcast (withCrc v.bytes) ::
    (if v.round = 0 then (watchParts (w.length + 1) w).map fun x =>
      .watch dst axis bcast (withCrc (x.1.flatMap WatchEntry.bytes)) x.2 else [])

/-- One move of the verdict on the device: its own combination on an axis once the predecessor's message is
there, or a line's broadcast; the end of the last axis decides. -/
def State.verdictMove (s : State) : Option State :=
  match s.stp.active, s.fab.addr with
  | some st, some me =>
    match st.vround with
    | none => none
    | some r =>
      let line := s.fab.line me r.axis
      let wanted := fun (b : Bool) (m : VerdictMsg) =>
        m.axis == r.axis && m.bcast == b && m.v.ring == st.ring && m.v.round == r.round
      let consume := fun (s : State) (m : VerdictMsg) =>
        { s with stp := { s.stp with waitVerdict := s.stp.waitVerdict.erase m } }
      let finish := fun (s : State) (v : Verdict) (w : List WatchEntry) =>
        let s := { s with out := s.out ++ (bcastTargets line me).flatMap fun a => verdictMsgs a r.axis true v w }
        match r.axis with
        | .z => s.onStep fun st => { st with vround := some ⟨r.round, .y, v, w, false⟩ }
        | .y => s.onStep fun st => { st with vround := some ⟨r.round, .x, v, w, false⟩ }
        | .x => s.decideVerdict v w
      if r.sent then
        match s.stp.waitVerdict.find? (wanted true) with
        | none => none
        | some m => some (finish (consume s m) m.v m.watch)
      else
        let go := fun (s : State) (v : Verdict) (w : List WatchEntry) =>
          match chainNext line me with
          | some nx =>
            { (s.onStep fun st => { st with vround := some ⟨r.round, r.axis, v, w, true⟩ }) with
              out := s.out ++ verdictMsgs nx r.axis false v w }
          | none => finish s v w
        if chainFirst line me then some (go s r.v r.watch)
        else match s.stp.waitVerdict.find? (wanted false) with
          | none => none
          | some m => some (go (consume s m) (m.v.combine r.v) (mergeWatch m.watch r.watch))
  | _, _ => none

/-- Moves of the verdict until nothing more can move. -/
def verdictMoves : Nat → State → State
  | 0, s => s
  | n + 1, s => match s.verdictMove with
    | some s' => verdictMoves n s'
    | none => s

/-- The device votes: vote record, state word VOTED, and the contribution goes out (R336, R342). -/
def State.vote (s : State) (v : Verdict) (clear : Bool) : State :=
  match s.stp.active with
  | none => s
  | some st =>
    let s := s.phaseStart (if st.round = 0 then 6 else 7)
    let w := if st.round = 0 then s.ownWatch st else []
    let s := (s.fence).onStep fun st => { st with
      st := .voted, vround := some ⟨st.round, .z, v, w, false⟩, released := clear, tick := s.aon.tick.toNat }
    let t := if st.plan = 0 then s.stp else s.stp.moveWord st.tag .voted
    let s := { s with stp := { t with vote := some ⟨v, st.attempt⟩ } }
    verdictMoves 8 s

/-! ### Local holds (R356, R634) -/

/-- Sends a hold notice on every bundle that is up, but one. -/
def State.floodNotice (s : State) (ring attempt round but : Nat) : State :=
  s.emits ((s.fab.upBundles.filter (· != but)).map fun b => .holdNotice b ring attempt round)

/-- The instances of the active step stop, and its chains and gathers are abandoned. -/
def State.stopStep (s : State) : State :=
  (s.dropWork).onStep fun st => { st with
    stopped := true
    insts := st.insts.map fun i => match i.st with
      | .done _ => i
      | _ => { i with st := .stopped } }

/-- A verdict-free step ends with a code (R328). -/
def State.endFree (s : State) (code : Nat) : State :=
  match s.stp.active with
  | none => s
  | some st => s.endStep code (if code = cOK then aSTEP_DONE else aSTEP_HELD) st.lsExp

/-- The current attempt cannot reach its VERDICT, for a local reason: it stops, and a hold vote and a hold
notice go out; a verdict-free step ends (R634, R328). Once the device has voted in the round, the code is kept for the
round that may follow, in which it holds (R44, R336). -/
def State.localHold (s : State) (code : Nat) : State :=
  match s.stp.active with
  | none => s
  | some st =>
    if st.st == .voted then s.onStep fun st => { st with holdCode := if st.holdCode = 0 then code else st.holdCode }
    else if st.st != .running then s
    else if st.verdictFree then s.endFree code
    else
      let c := if st.holdCode = 0 then code else st.holdCode
      let s := (s.stopStep).onStep fun st => { st with holdCode := c }
      let v := { s.contribution st with hold := 1, holdCode := c }
      (s.floodNotice st.ring st.attempt st.round 6).vote v false

/-- A step that another verdict round has begun for holds in it, for a reason met since its last vote (R44, R223). -/
def State.owedHold (s : State) : State :=
  match s.stp.active with
  | some st => if st.st == .running && st.round == 1 && !st.stopped && st.holdCode != 0 then s.localHold st.holdCode else s
  | none => s

/-- A step the device has no plan for: a vote it owes the machine without running the step (R356, R604).
DESIGN CHOICE, log 65. -/
def ghostStep (ring tick : Nat) : Step :=
  { tag := noTag, plan := 0, ring := ring, attempt := 0, replay := false, fromAttempt := 0, source := [],
    verdictFree := false, st := .running, round := 0, stamp := 0, lsExp := 0, insts := [], phases := [],
    entries := [], watch := [], crossings := [], nonfinite := [], disputes := [], holdCode := 0,
    released := false, stopped := true, k := none, vround := none, last := none, resumed := false, digests := [],
    diverged := 0, tick := tick }

/-- A device without an active step sends a hold vote for a ring (R356). -/
def State.ghostVote (s : State) (ring code : Nat) : State :=
  if s.stp.active.isSome then s else
  let st := { ghostStep ring s.aon.tick.toNat with holdCode := code }
  let s := { s with stp := { s.stp with active := some st } }
  (s.floodNotice ring 0 0 6).vote { s.contribution st with hold := 1, holdCode := code } false

/-- A unit fails while the device runs: FAULT_N goes low, FAULT attention, and the step in progress does not
commit (R44). DEDUCED, log 70. -/
def State.unitFails (s : State) (u : UnitRef) : State :=
  let s := { s with aon := { s.aon with faultN := false } }
  (s.raise aFAULT 0 noTag (unitField u.kind u.num 0) 0).localHold cINTERNAL

/-- A line of a stack whose read was uncorrectable: the sixteenth since cold start fails the stack (R225). -/
def State.badLine (s : State) (k line : Nat) : State :=
  if s.mem.badLines.contains (k, line) then s
  else
    let s := { s with mem := { s.mem with badLines := s.mem.badLines ++ [(k, line)] } }
    if (s.mem.badLines.filter (·.1 == k)).length = 16 then s.unitFails ⟨uStack, k⟩ else s

/-- A line is poisoned (R223). -/
def State.markPoison (s : State) (line : Nat) : State :=
  { s with mem := { s.mem with poison := if s.mem.poison.contains line then s.mem.poison else s.mem.poison ++ [line] } }

/-- An uncorrectable read error counts for the line's stack (R225). -/
def State.countBad (s : State) (line : Nat) : State :=
  match s.rgn.stackOfLine line with
  | none => s
  | some k => s.badLine k line

/-- An uncorrectable read error poisons a line (R223, R225). -/
def State.poisonLine (s : State) (line : Nat) : State := (s.markPoison line).countBad line

/-- A corrected read of a stack: counted, with LOG attention when the count over 24 h of local time comes to
exceed 4,096 (R221, R224). -/
def State.correctIn (s : State) (k : Nat) : State :=
  let now := s.aon.tick.toNat
  let old := s.mem.corrected.filter fun c => decide (now < c.2 + 8640000000000)
  let mine := (old.filter (·.1 == k)).length
  let s := { s with mem := { s.mem with corrected := old ++ [(k, now)] } }
  let s := s.count 0x302 k
  if mine = 4096 then s.raise aLOG 0 noTag (unitField uStack k 0) 0 else s

/-- The same for the stack that a line lies in. -/
def State.correctLine (s : State) (line : Nat) : State :=
  match s.rgn.stackOfLine line with
  | none => s
  | some k => s.correctIn k

/-- The ECC outcome of a line read (R221, R223). -/
def State.eccRead (s : State) (line : Nat) (e : Ecc) : State :=
  match e with
  | .ok => s
  | .corrected => s.correctLine line
  | .uncorrectable => s.poisonLine line

end Sys2Proof.Machine
end

