-- ==== Sys2Proof/Machine/Inst.lean ====
section
/-! DEFINITION. Instances of a step: the task graph (R323 to R326), issue and completion (R219, R326, R335), and
how an instance waits or fails (R247, R249, R250, R471, R473, R633, R634). -/

namespace Sys2Proof.Machine

/-! ### The task graph -/

/-- Instance numbers of an operation (R323). -/
def Plan.mbs (p : Plan) (op : Nat) : List Nat := if (p.op op).perMb then List.range p.mbCount else [0]

/-- Every instance of the plan, by operation. -/
def Plan.instances (p : Plan) : List (Nat × Nat) :=
  (List.range (p.count 2)).flatMap fun op => (p.mbs op).map fun b => (op, b)

/-- A dependency edge (R324). -/
structure Edge where
  src : Nat
  dst : Nat
  kind : Nat
  deriving DecidableEq, Repr

/-- The edges of the plan. -/
def Plan.edges (p : Plan) : List Edge :=
  (List.range (p.count 4)).map fun k =>
    let b := entryOf p.bytes 4 k
    ⟨fld b 0 2, fld b 2 2, bits (byteAt b 4) 1 0⟩

/-- Input slots that an operation also writes: the residues of a CHAIN_REDUCE (R406). -/
def OpHdr.rewritten (h : OpHdr) : List Nat := if h.code = 0x0030 then [1, 2] else []

/-- The tensors of an instance on this device, each with whether it is written. -/
def Plan.touches (p : Plan) (op mb : Nat) : List (Bool × TD) :=
  let h := p.op op
  (if p.peerIn op then [] else (List.range 4).filterMap fun j => (p.inTd op j mb).map fun t => (h.rewritten.contains j, t))
    ++ (if p.peerOut op then [] else (List.range 2).filterMap fun j => (p.outTd op j mb).map fun t => (true, t))

/-- The byte ranges of a tensor's tile records (R325). -/
def TD.spans (t : TD) : List Piece := t.tiles.flatMap fun c => t.recordPieces (t.tileIndex c)

/-- A dense tensor of a size, at an address, in another's format (R444). -/
def TD.dense (t : TD) (dims : List Nat) (va : Nat) : TD :=
  let u := { t with dims := dims ++ List.replicate (6 - dims.length) 1, rank := dims.length, va := va }
  { u with strides := (List.range 6).map fun i =>
      if i < dims.length then ((List.range i).map u.steps).foldl (· * ·) 1 else 0 }

/-- Size of a pyramid level along an axis. -/
def levelSize : Nat → Nat → Nat
  | 0, n => n
  | l + 1, n => ceilDiv (levelSize l n) 2

/-- The tensors of the pyramid's levels (R444): OUT0 itself, and dense tensors at the level offsets. -/
def pyramid (b : Bytes) (o : TD) : List TD :=
  let planar := bit (byteAt b 2) 4
  let c := byteAt b 6
  (List.range (byteAt b 3 % 8)).map fun l =>
    let w := levelSize l (fld b 8 2)
    let h := levelSize l (fld b 0x0A 2)
    let n := fld b 4 2
    if l = 0 then o else o.dense (if planar then [w, h, c, n] else [c, w, h, n]) (o.va + 512 * fld b (0x64 + 4 * l) 4)

/-- The output tensors of a GLADE_BATCH instance. -/
def gladeOuts (b : Bytes) (o : TD) (o1 : Option TD) : List TD :=
  (if bits (byteAt b 1) 7 6 = 0 then pyramid b o else [o]) ++ o1.toList

/-- Two tensors share a byte. -/
def TD.meets (t u : TD) : Bool :=
  overlaps t.va t.extent u.va u.extent
    && t.spans.any fun a => u.spans.any fun b => overlaps a.va a.len b.va b.len

/-- Two instances conflict (R325). DEDUCED, log 82. -/
def Plan.conflict (p : Plan) (a b : Nat × Nat) : Bool :=
  (p.touches a.1 a.2).any fun x => (p.touches b.1 b.2).any fun y => (x.1 || y.1) && x.2.meets y.2

/-- The instances directly before an instance: by the given edges, and earlier instances of its operation that conflict
with it (R324, R325). -/
def Plan.predsBy (p : Plan) (es : List Edge) (op mb : Nat) : List (Nat × Nat) :=
  ((es.filter (·.dst == op)).flatMap fun e =>
    if e.kind = 0 then (p.mbs e.src).map fun b => (e.src, b)
    else if e.kind = 1 then [(e.src, mb)]
    else if 0 < mb then [(e.src, mb - 1)] else [])
  ++ ((List.range mb).filter fun b => p.conflict (op, b) (op, mb)).map fun b => (op, b)

/-- The instances directly before an instance in the task graph. -/
def Plan.preds (p : Plan) (op mb : Nat) : List (Nat × Nat) := p.predsBy p.edges op mb

/-! ### Instances of the active step -/

/-- Everything that comes before the instances to visit. -/
def ancestors (pre : Nat × Nat → List (Nat × Nat)) : Nat → List (Nat × Nat) → List (Nat × Nat) → List (Nat × Nat)
  | 0, _, seen => seen
  | _, [], seen => seen
  | n + 1, x :: r, seen =>
    if seen.contains x then ancestors pre n r seen else ancestors pre n (pre x ++ r) (x :: seen)

/-- The instances before an instance in the task graph. -/
def Plan.before_ (p : Plan) (x : Nat × Nat) : List (Nat × Nat) :=
  let pre := fun (y : Nat × Nat) => p.preds y.1 y.2
  ancestors pre ((p.instances.map fun y => (pre y).length).sum + p.instances.length + 1) (pre x) []

/-- The instance of a step, when it has issued. -/
def Step.inst (st : Step) (op mb : Nat) : Option Inst := st.insts.find? fun i => i.op == op && i.mb == mb

/-- The instance has completed OK. -/
def Step.finished (st : Step) (i : Nat × Nat) : Bool :=
  match st.inst i.1 i.2 with
  | some x => x.st == .done cOK
  | none => false

/-- The phase of an operation of a class (R335); VERDICT opens its phases itself. -/
def OpHdr.phase (h : OpHdr) : Option Nat :=
  if h.code = 0x0031 then some 0 else if h.code = 0x0050 then some 1 else if h.code = 0x0030 then some 4
  else if h.code = 0x0040 then some 5 else if h.code = 0x0032 then none
  else if h.bwd then some 3 else some 2

/-- Sets how far an instance is. -/
def State.setInst (s : State) (op mb : Nat) (x : InstState) : State :=
  s.onStep fun st => { st with insts := st.insts.map fun i => if i.op == op && i.mb == mb then { i with st := x } else i }

/-- The instance may issue now: its step runs and its predecessors have completed (R326). -/
def Step.mayIssue (st : Step) (p : Plan) (code op mb : Nat) : Bool :=
  st.st == .running && !st.stopped && st.round == 0 && decide (op < p.count 2) && (p.op op).code == code
    && (p.mbs op).contains mb && (st.inst op mb).isNone && (p.preds op mb).all st.finished

/-- The instance issues: it is recorded, its phase starts, and it is traced (R326, R335, R627). -/
def State.issue (s : State) (p : Plan) (st : Step) (op mb : Nat) : State :=
  let s := s.onStep fun st => { st with insts := st.insts ++ [⟨op, mb, .issued⟩] }
  let s := match (p.op op).phase with
    | some i => s.phaseStart i
    | none => s
  s.trace 0 false 0x01 uRanger 0 (leBytes 2 op ++ leBytes 1 mb ++ zeros 1 ++ leBytes 4 st.ring)

/-- Work on an instance begins, or goes on after a wait: the state with the instance issued, its step and its
plan; none when it may not. -/
def State.enter (s : State) (code op mb : Nat) : Option (State × Step × Plan) :=
  match s.stepPlan with
  | none => none
  | some (st, p) =>
    if !s.powered then none
    else if st.mayIssue p code op mb then some (s.issue p st op mb, st, p)
    else match st.inst op mb with
      | some i =>
        if (p.op op).code == code && st.st == .running && !st.stopped && (i.st == .issued || i.st == .waitHost)
        then some (s.setInst op mb .issued, st, p) else none
      | none => none

/-- A TILE_PROG record (R627): the start or the end of a tile program. -/
def State.traceTask (s : State) (t : Task) (ended : Bool) : State :=
  s.trace 1 (decide (96 ≤ t.grove)) 0x03 uGrove t.grove
    (leBytes 2 t.op ++ leBytes 1 t.task ++ leBytes 1 (b2n ended) ++ leBytes 4 t.prog)

/-- Bytes of a task's scratchpad partition: a quarter of the 64 banks of 128 KiB (R86, R92). DESIGN CHOICE, log 106. -/
def partBytes : Nat := 64 * 131072 / 4

/-- A task context takes up a tile program of an instance, once, with its partition of the scratchpad; its internal id is a
free number (R92, R627). -/
def State.startTask (s : State) (a : Place) (op mb : Nat) : State :=
  if s.groveStopped a.grove || s.eng.tasks.any fun t => t.grove == a.grove.val && t.task == a.task.val then s
  else
    let x := ((s.wakeBlock (.groveClock a.grove)).wakeBlock (.grovePower a.grove)).freeNat
    let t : Task := ⟨a.grove, a.task, op, mb, false, x.1, a.task * partBytes, partBytes⟩
    { x.2 with eng := { x.2.eng with tasks := x.2.eng.tasks ++ [t] } }.traceTask t false

/-- The tile programs of an instance end, and their scratchpad partitions are free. -/
def State.endTasks (s : State) (op mb : Nat) : State :=
  let mine := s.eng.tasks.filter fun t => t.op == op && t.mb == mb
  mine.foldl (fun s t => s.traceTask t true) { s with eng := { s.eng with
    tasks := s.eng.tasks.filter fun t => !(t.op == op && t.mb == mb)
    moves := s.eng.moves.filter fun m => !(m.op == op && m.mb == mb)
    runs := s.eng.runs.filter fun r => !(r.op == op && r.mb == mb)
    blocks := s.eng.blocks.filter fun b => !(b.op == op && b.mb == mb)
    scratch := s.eng.scratch.filter fun t => !(t.op == op && t.mb == mb) } }

/-- The instance's work is done with OK; its completion follows its fence (R219, R326). -/
def State.computed (s : State) (op mb : Nat) : State := s.setInst op mb (.computed cOK)

/-- The instance completes with a code: traced, and its phase ends with its last instance. -/
def State.instDone (s : State) (op mb code : Nat) : State :=
  let s := (s.fence.setInst op mb (.done code)).trace 0 false 0x02 uRanger 0
    (leBytes 2 op ++ leBytes 1 mb ++ leBytes 1 code)
  let s := s.endTasks op mb
  match s.stepPlan with
  | none => s
  | some (st, p) =>
    match (p.op op).phase with
    | none => s
    | some i =>
      if p.instances.all fun x => (p.op x.1).phase != some i || (match st.inst x.1 x.2 with
          | some y => (match y.st with | .done _ => true | _ => false)
          | none => false) then s.phaseEnd i else s

/-- The instance fails: it completes with a local hold code, which holds its step (R634). -/
def State.instFails (s : State) (op mb code : Nat) : State := (s.instDone op mb code).localHold code

/-- An instance meets an obstacle that does not resolve: it waits for the host (R471), for a flip (R260) or an
answer (R270), or it fails (R223, R247, R249). -/
def State.obstacle (s : State) (op mb : Nat) (o : AccRes × Nat × Nat × Bool) : State :=
  match o with
  | (.stale, _, _, _) => s.setInst op mb .waitHost
  | (.hostHeld, va, len, st) => s.recallHost va len st
  | (.waits, _, _, _) | (.ok, _, _, _) => s
  | (.fault k va, _, _, _) =>
    let code := if k = 1 then cNO_RESOURCE else if k = 4 then cINTERNAL else cFAULT_XLATE
    let s := if k = 4 then s.raise aFAULT cINTERNAL noTag (unitField uWalker 0 0) va else s
    ((s.trace 2 false 0x04 uWalker 0 (leBytes 7 va ++ leBytes 1 k ++ leBytes 2 op)).faultEntry op mb k va 0 0 0).instFails
      op mb code
  | (.poison r page line, _, _, _) =>
    let st := match s.rgn.get r with
      | some x => x.stackOf (page * pageBytes + line * 64)
      | none => 0
    ((s.raise aFAULT cINTERNAL noTag (unitField uStack st 0) (page * pageBytes + line * 64)).faultEntry op mb 5 0 r page
      line).instFails op mb cINTERNAL

/-- An agent translates a range page by page: demand faults are resolved (R248), each counted at its Floor, and the leaves
enter its cache (R242). -/
def State.resolveCount (s : State) (cache : Nat) (a : Nat × Nat × Bool) : Option State :=
  (chunksOf a.1 a.2.1).foldlM (fun s c =>
    if (s.rgn.cached cache c.1).isSome then some s
    else (match s.xlate c.1 false with
      | .error 1 => (s.rgn.resolve c.1).map fun g => (s.withTables g).count 0x602 (cacheHalf cache)
      | _ => some s).map fun (s : State) => s.look cache c.1) s

/-- An instance's agent, by its cache, accesses ranges: with their demand faults resolved it may go on (true), or it waits or
has failed. -/
def State.permit (s : State) (op mb cache : Nat) (accs : List (Nat × Nat × Bool)) : State × Bool :=
  match accs.foldlM (fun s a => s.resolveCount cache a) s with
  | none =>
    let va := (accs.findSome? fun a => match s.accessIn cache a.1 a.2.1 a.2.2 with | .fault 1 va => some va | _ => none).getD 0
    (s.obstacle op mb (.fault 1 va, 0, 0, false), false)
  | some s =>
    match s.firstObstacle cache accs with
    | none => (s, true)
    | some o => (s.obstacle op mb o, false)

/-- The accesses of reading the picked tiles of a tensor. -/
def TD.someAccs (t : TD) (keep : List Nat → Bool) : List (Nat × Nat × Bool) :=
  ((t.tiles.filter keep).flatMap fun c => t.recordPieces (t.tileIndex c)).map fun p => (p.va, p.len, false)

/-- The accesses of reading or writing whole tensors. -/
def TD.accs (t : TD) (store : Bool) : List (Nat × Nat × Bool) := t.spans.map fun p => (p.va, p.len, store)

/-- A step's instances that wait for the host run again, or fail when the host's memory was not kept (R472).
DEDUCED, log 40. -/
def State.endHostWait (s : State) (kept : Bool) : State :=
  match s.stp.active with
  | none => s
  | some st =>
    (st.insts.filter (·.st == .waitHost)).foldl (fun s i =>
      if kept then s.setInst i.op i.mb .issued else s.instFails i.op i.mb cHOST_LOST) s

end Sys2Proof.Machine
end

