-- ==== Sys2Proof/Machine/Links.lean ====
section
/-! DEFINITION. Fabric ports and links: port states (R368 to R371), routes (R378 to R381), sending, replay and
retraining (R374 to R377), the link-state record and its flooding (R389, R390), flow contexts of the sending
side (R383 to R387). -/

namespace Sys2Proof.Machine

/-! ### Ports -/

/-- The port with a number. -/
def Fab.port (f : Fab) (n : Nat) : Option Port := f.ports.get n

/-- The state with a port changed. -/
def State.setPort (s : State) (n : Nat) (p : Port) : State := { s with fab := { s.fab with ports := s.fab.ports.set n p } }

/-- A port enters a PI_STATE, traced as a LINK record (R627). -/
def State.portState (s : State) (n : Nat) (p : Port) (pi : Nat) : State :=
  let s' := s.setPort n { p with pi := pi }
  if p.pi = pi then s' else s'.trace 5 (decide (18 ≤ n)) 0x09 uLane (n / 2) (leBytes 1 n ++ leBytes 1 pi)

/-- PI_STATE of a port in link retry: a port outside its bundle keeps its own. -/
def Port.inRetry (p : Port) : Nat := if p.inBundle then 4 else p.pi

/-- FABRIC attention: the address concerned, the ports concerned (R499). -/
def State.fabricNote (s : State) (addr : Nat) (ports : List Nat) (code : Nat := 0) : State :=
  s.raise aFABRIC code noTag addr ((ports.map fun n => 2 ^ n).sum)

/-- The clocks that cold-start step 9 starts run, so that ports may train (R553, R572). -/
def State.clocks (s : State) : Bool :=
  s.powered && (match s.dev.starting with
    | some x => decide (9 < x.step)
    | none => s.dev.mode != .boot)

/-! ### Link state and routes -/

/-- The record held for an address. -/
def Fab.record (f : Fab) (a : Nat) : Option LinkState := f.records.find? (·.addr == a)

/-- Keeps a record in place of the one of its address. -/
def Fab.putRecord (f : Fab) (r : LinkState) : Fab :=
  { f with records := sortBy (·.addr) (f.records.filter (·.addr != r.addr) ++ [r]) }

/-- The device's own record as its bundles stand. -/
def Fab.ownRecord (f : Fab) (a : Nat) : LinkState :=
  { addr := a, seq := f.lsSeq, devid := f.devid
    bundles := (List.range 6).map fun b =>
      let n := (f.verifiedPorts b).length
      ⟨if n ≠ 0 then 0 else if f.bundleUnused b then 2 else 1, n⟩ }

/-- Sends a record on every bundle that is up but one (R389). -/
def State.floodRecord (s : State) (r : LinkState) (but : Nat) : State :=
  s.emits ((s.fab.upBundles.filter (· != but)).map fun b => .linkState b r)

/-- The device takes part in the exchange of link state. -/
def FsState.mapped : FsState → Bool
  | .mapping | .ready | .partly => true
  | _ => false

/-- A change of the device's bundles: once it has a record, a new one with the next LS_SEQ goes out (R389). -/
def State.linkChange (s : State) : State :=
  match s.fab.addr with
  | none => s
  | some a =>
    if (s.fab.record a).isNone then s
    else
      let f := { s.fab with lsSeq := s.fab.lsSeq + 1 }
      let r := f.ownRecord a
      let s := { s with fab := f.putRecord r }
      if s.fab.fs.mapped then s.floodRecord r 6 else s

/-- An address's bundle is up by its record; one in CONFLICT counts as missing (R390). -/
def Fab.reportsUp (f : Fab) (a b : Nat) : Bool :=
  !f.conflicts.contains a && (match f.record a with
    | some r => (match r.bundles[b]? with | some x => x.state == 0 | none => false)
    | none => false)

/-- The other direction of a bundle. -/
def opposite (b : Nat) : Nat := if b % 2 = 0 then b + 1 else b - 1

/-- A link is whole (R378). -/
def Fab.whole (f : Fab) (a b : Nat) : Bool :=
  let n := f.neighbour a b
  f.isMember a && f.isMember n && f.reportsUp a b && f.reportsUp n (opposite b)

/-- Walks `k` links in one direction; the address reached when every link is whole. -/
def Fab.walkLinks (f : Fab) (b : Nat) : Nat → Nat → Option Nat
  | 0, a => some a
  | k + 1, a => if f.whole a b then f.walkLinks b k (f.neighbour a b) else none

/-- Hops of a segment: offset and direction. -/
def segHops (n d : Nat) (minus : Bool) : Nat := if minus then n - d else d

/-- Follows a route: its segments are axes with a direction (R378). -/
def Fab.follow (f : Fab) (dst : Nat) : List (Axis × Bool) → Nat → Bool
  | [], _ => true
  | (ax, minus) :: r, a =>
    let n := f.sizeOf ax
    let d := (coordOf dst ax + n - coordOf a ax) % n
    match f.walkLinks (bundleOf ax minus) (segHops n d minus) a with
    | some a' => f.follow dst r a'
    | none => false

/-- The sets of segments that a route may switch, in the order in which they are tried (R378, rule 2). -/
def switchSets (n : Nat) : List (List Nat) :=
  [[], [0], [1], [2], [0, 1], [0, 2], [1, 2], [0, 1, 2]].filter fun l => l.all (· < n)

/-- The direction bits of a route's segments: bit 0 X, bit 1 Y, bit 2 Z. -/
def dirBits (segs : List (Axis × Bool)) : Nat :=
  (segs.map fun g => if g.2 then (match g.1 with | .x => 1 | .y => 2 | .z => 4) else 0).sum

/-- The route from one address to another: whether it uses the fall-back order, and its direction bits; none
when the destination is unreachable (R378). -/
def Fab.route (f : Fab) (src dst : Nat) : Option (Bool × Nat) :=
  let segsOf := fun (axes : List Axis) => (axes.filter fun ax => coordOf src ax != coordOf dst ax).map fun ax =>
    let n := f.sizeOf ax
    let d := (coordOf dst ax + n - coordOf src ax) % n
    (ax, !decide (d ≤ n - d))
  let tryOrder := fun (axes : List Axis) =>
    let segs := segsOf axes
    ((switchSets segs.length).map fun flips =>
      (List.range segs.length).zip segs |>.map fun x => (x.2.1, x.2.2 != flips.contains x.1)).find? fun c => f.follow dst c src
  match tryOrder [.x, .y, .z] with
  | some c => some (false, dirBits c)
  | none => (tryOrder [.z, .y, .x]).map fun c => (true, dirBits c)

/-- A member that no route reaches (R378). -/
def Fab.unreachable (f : Fab) (dst : Nat) : Bool :=
  match f.addr with
  | some me => me != dst && (!f.isMember dst || (f.route me dst).isNone)
  | none => true

/-- The bundle and the virtual channel of a flit's next hop from an address; none at its destination (R379,
R380). -/
def Flit.nextHop (x : Flit) (at_ : Nat) : Option (Nat × Nat) :=
  let axes := if x.alt then [Axis.z, .y, .x] else [Axis.x, .y, .z]
  (axes.find? fun ax => coordOf at_ ax != coordOf x.dest ax).map fun ax =>
    let minus := bit x.dir (match ax with | .x => 0 | .y => 1 | .z => 2)
    let crossed := if minus then decide (coordOf x.src ax < coordOf at_ ax) else decide (coordOf at_ ax < coordOf x.src ax)
    (bundleOf ax minus, (if x.alt then 2 else 0) + b2n crossed)

/-! ### Sending on a port -/

/-- Link credit of a port on a channel: what is left of 64 flits (R375, R380, R381; DEDUCED, log 18). -/
def Port.credit (p : Port) (vc : Nat) : Nat :=
  64 - (p.unacked.filter fun x => x.flit.vc == vc).length - (p.waiting.filter (·.vc == vc)).length

/-- The 256 bytes of a flit under an FL_SEQ, with the FL_ACK that goes with it (R373). -/
def Flit.bytes (x : Flit) (seq ack : BitVec 8) : Bytes :=
  let b := leBytes 1 seq.toNat ++ leBytes 1 ack.toNat
    ++ leBytes 1 (x.kind * 64 + b2n x.alt * 32 + x.dir * 4 + b2n x.first * 2 + b2n x.last) ++ leBytes 1 x.data.length
    ++ leBytes 2 x.dest ++ leBytes 2 x.src ++ leBytes 4 (x.cseq * 2 ^ 18 + x.ctx) ++ padTo 240 x.data
  b ++ leBytes 4 (crc32c b)

/-- The bytes that a port sends for a flit: FL_ACK names the last flit received in order. -/
def Port.sent (p : Port) (seq : BitVec 8) (x : Flit) : Bytes := x.bytes seq (p.expect - 1)

/-- The CONTROL flit of a NAK: its payload is the FL_SEQ expected (R374). DESIGN CHOICE, log 162. -/
def nakFlit (expect : BitVec 8) : Flit :=
  { kind := 1, alt := false, dir := 0, first := true, last := true, dest := 0, src := 0, ctx := 0, cseq := 0
    data := leBytes 1 expect.toNat, vc := 0 }

/-- A port sends a flit under its next FL_SEQ, or keeps it while 64 are unacknowledged (R375). DEDUCED, log 60. -/
def State.portSend (s : State) (n : Nat) (x : Flit) : State :=
  match s.fab.port n with
  | none => s
  | some p =>
    if p.unacked.length < 64 && p.trained then
      ((s.setPort n { p with unacked := p.unacked ++ [⟨p.next, 0, x⟩], next := p.next + 1 }).emit
        (.flit n (p.sent p.next x))).count 0x400 n
    else s.setPort n { p with waiting := p.waiting ++ [x] }

/-- The port of a bundle with the most credit on a channel, the lowest number on a tie; trained ports first. -/
def Fab.pickPort (f : Fab) (b vc : Nat) : Option Nat :=
  let ports := f.verifiedPorts b
  let trained := ports.filter fun n => match f.port n with | some p => p.trained | none => false
  let credit : Nat → Nat := fun n => match f.port n with | some p => p.credit vc | none => 0
  (sortBy id (if trained.isEmpty then ports else trained)).foldl (fun best n => match best with
    | none => some n
    | some m => if credit m < credit n then some n else some m) none

/-- A flit leaves on a bundle, or is discarded when the bundle is down (R379, R381). -/
def State.sendFlit (s : State) (b vc : Nat) (x : Flit) : State :=
  match s.fab.pickPort b vc with
  | some n => s.portSend n { x with vc := vc }
  | none => s

/-- Waiting flits of a port go out while it may send. -/
def drainPort : Nat → State → Nat → State
  | 0, s, _ => s
  | k + 1, s, n =>
    match s.fab.port n with
    | some p =>
      match p.waiting with
      | x :: r => if p.unacked.length < 64 && p.trained then
          drainPort k ((s.setPort n { p with waiting := r }).portSend n x) n
        else s
      | [] => s
    | none => s

/-- The same for all that waits. -/
def State.drain (s : State) (n : Nat) : State :=
  match s.fab.port n with
  | some p => drainPort p.waiting.length s n
  | none => s

/-! ### Lines (R405) -/

/-- A line of members: axis, first coordinate, number of devices. -/
structure ChainLine where
  axis : Axis
  base : Nat
  count : Nat
  deriving DecidableEq, Repr

/-- The axis of a code. -/
def axisOf (n : Nat) : Axis := if n = 0 then .x else if n = 1 then .y else .z

/-- The line of a CHAIN_REDUCE or an ALLGATHER. -/
def Plan.lineOf (p : Plan) (op : Nat) : ChainLine :=
  let b := p.param op
  ⟨axisOf (bits (byteAt b 4) 1 0), byteAt b 5, byteAt b 6⟩

/-- The shard of one. -/
def Plan.shardOf (p : Plan) (op : Nat) : Nat := fld (p.param op) 0 4

/-- The line index of an address. -/
def ChainLine.index (l : ChainLine) (a : Nat) : Nat := coordOf a l.axis - l.base

/-- The address at a line index of the line that an address lies on. -/
def ChainLine.at (l : ChainLine) (a i : Nat) : Nat := withCoord a l.axis (l.base + i % l.count)

/-- An address lies on the line through another. -/
def ChainLine.holds (l : ChainLine) (me a : Nat) : Bool :=
  decide (l.base ≤ coordOf a l.axis) && decide (coordOf a l.axis < l.base + l.count)
    && withCoord a l.axis (coordOf me l.axis) == me

/-- A device's place on the path of a reduction: contributions before its own (R408). -/
def ChainLine.reducePos (l : ChainLine) (owner me : Nat) : Nat :=
  (l.index me + 2 * l.count - (l.index owner + 1)) % l.count

/-- A device's hops from the owner on the gather path (R416). -/
def ChainLine.gatherPos (l : ChainLine) (owner me : Nat) : Nat := (l.index me + l.count - l.index owner) % l.count

/-- The member with the next line index. -/
def ChainLine.next (l : ChainLine) (me : Nat) : Nat := l.at me (l.index me + 1)

/-- The member before it. -/
def ChainLine.prev (l : ChainLine) (me : Nat) : Nat := l.at me (l.index me + l.count - 1)

/-! ### Sending on a flow context -/

/-- Flow contexts that are free (R383). -/
def Fab.ctxFree (f : Fab) : Nat :=
  262144 - 1024 - (f.send.filter fun c => decide (1024 ≤ c.ctx)).length - f.recv.length

/-- The send context with a number. -/
def Fab.ctx (f : Fab) (n : Nat) : Option SendCtx := f.send.find? (·.ctx == n)

/-- The state with a send context replaced. -/
def State.setCtx (s : State) (c : SendCtx) : State :=
  { s with fab := { s.fab with send := s.fab.send.map fun x => if x.ctx == c.ctx then c else x } }

/-- FABRIC attention for a context that fails, with the completion code concerned (R387, R498). -/
def State.ctxFailNote (s : State) (dst : Nat) : State :=
  let s := s.raise aFABRIC cINTERNAL noTag dst 0
  { s with fab := { s.fab with ctxFailed := s.fab.ctxFailed + 1 } }

/-- A context is used no more: the instance that uses it, unless it is over, completes with a code. -/
def State.endCtx (s : State) (c : SendCtx) (code : Nat) : State :=
  let s := s.setCtx { c with failed := true, kept := [], waiting := [], unacked := [] }
  match s.stepPlan with
  | some (st, p) =>
    if p.handle == c.plan && (match st.inst c.op c.mb with
      | some i => (match i.st with | .done _ | .stopped => false | _ => true)
      | none => false) then s.instFails c.op c.mb code else s
  | none => s

/-- A context fails: FABRIC attention, and the instance that uses it completes with INTERNAL (R387). -/
def State.failCtx (s : State) (c : SendCtx) : State := (s.ctxFailNote c.dst).endCtx c cINTERNAL

/-- A flit with its route, sent on its first hop (R379). -/
def State.launch (s : State) (me : Nat) (r : Bool × Nat) (x : Flit) : State :=
  let x := { x with alt := r.1, dir := r.2 }
  match x.nextHop me with
  | some (b, vc) => s.sendFlit b vc x
  | none => s

/-- Flits of a context go out while it holds credits (R384). -/
def pumpCtx : Nat → State → Nat → State
  | 0, s, _ => s
  | k + 1, s, n =>
    match s.fab.ctx n, s.fab.addr with
    | some c, some me =>
      match c.waiting with
      | [] => s
      | x :: r =>
        if c.credits = 0 || c.failed then s else
        match s.fab.route me c.dst with
        | none => s.failCtx c
        | some rt =>
          pumpCtx k ((s.setCtx { c with waiting := r, unacked := c.unacked ++ [x], credits := c.credits - 1 }).launch
            me rt x) n
    | _, _ => s

/-- The same for all that waits. -/
def State.pump (s : State) (n : Nat) : State :=
  match s.fab.ctx n with
  | some c => pumpCtx c.waiting.length s n
  | none => s

/-- A byte string in pieces of 240 bytes. -/
def pieces240 : Nat → Bytes → List Bytes
  | 0, _ => []
  | k + 1, b => if b.isEmpty then [] else b.take 240 :: pieces240 k (b.drop 240)

/-- A message on a send context: its content and the CRC-32C of it, in flits (R383, R386). -/
def State.sendMessage (s : State) (n : Nat) (content : Bytes) : State :=
  match s.fab.ctx n, s.fab.addr with
  | some c, some me =>
    if c.failed then s else
    let b := content ++ leBytes 4 (crc32c content)
    let ps := pieces240 (b.length / 240 + 1) b
    let flits := ((List.range ps.length).zip ps).map fun x =>
      ({ kind := 0, alt := false, dir := 0, first := x.1 == 0, last := x.1 + 1 == ps.length, dest := c.dst,
         src := me, ctx := n, cseq := (c.next + x.1) % 16384, data := x.2, vc := 0 } : Flit)
    (s.setCtx { c with next := (c.next + ps.length) % 16384, waiting := c.waiting ++ flits }).pump n
  | _, _ => s

/-- The send context of an instance's plan, operation, micro-batch and destination. -/
def Fab.ctxOf (f : Fab) (plan op mb dst : Nat) : Option Nat :=
  (f.send.find? fun c => c.plan == plan && c.op == op && c.mb == mb && c.dst == dst).map (·.ctx)

/-- An instance whose request on a reserved context cannot reach its destination completes with INTERNAL (R383, R387;
DEDUCED, log 27). -/
def State.askFails (s : State) (op mb dst : Nat) : State := (s.ctxFailNote dst).instFails op mb cINTERNAL

/-- The device that an instance waits for over a reserved context: a gather's predecessor, once its request has gone
(R416), or the peer that a MOVE reads from (R421). -/
def State.askedOf (s : State) (p : Plan) (i : Inst) : Option Nat :=
  match s.fab.addr with
  | none => none
  | some me =>
    if (p.op i.op).code == 0x0031 && i.st == .issued
        && (s.fab.chains.any fun c => !c.reduce && c.op == i.op) then
      some ((p.lineOf i.op).prev me)
    else if p.peerIn i.op && i.st == .sent then some (fld (p.param i.op) 2 2)
    else none

/-- Contexts with work whose destination has become unreachable fail, the reserved ones of the active step among them
(R387). -/
def State.checkReach (s : State) : State :=
  let s := (s.fab.send.filter fun c =>
    !c.failed && (!c.waiting.isEmpty || !c.unacked.isEmpty) && s.fab.unreachable c.dst).foldl (fun s c => s.failCtx c) s
  match s.stepPlan with
  | none => s
  | some (st, p) => st.insts.foldl (fun s i =>
      match s.askedOf p i with
      | some dst => if s.fab.unreachable dst then s.askFails i.op i.mb dst else s
      | none => s) s

/-! ### Ports that go down or retrain -/

/-- A port's unacknowledged and waiting flits go to the other verified ports of its bundle as new flits; they
stay when there are none (R376). Its CONTROL flits concern its own link and go with it. -/
def State.handOffFlits (s : State) (n : Nat) (drop : Bool) : State :=
  match s.fab.port n with
  | none => s
  | some p =>
    let flits := (p.unacked.map (·.flit) ++ p.waiting).filter (·.kind == 0)
    let others := (s.fab.verifiedPorts p.bundle).filter (· != n)
    if others.isEmpty then s.setPort n { p with unacked := [], waiting := if drop then [] else flits }
    else
      let s := s.setPort n { p with unacked := [], waiting := [], inBundle := false }
      let s := flits.foldl (fun s x => s.sendFlit p.bundle x.vc x) s
      match s.fab.port n with
      | some q => s.setPort n { q with inBundle := p.inBundle }
      | none => s

/-- A port goes down: it leaves its bundle, with FABRIC attention (R376). DEDUCED, log 61. -/
def State.portDown (s : State) (n : Nat) : State :=
  let s := s.handOffFlits n true
  match s.fab.port n with
  | none => s
  | some p =>
    let s := s.portState n { p with
      trained := false, verified := false, inBundle := false, probation := false, nakSent := false
      downs := p.downs + 1 } 2
    (s.fabricNote 0xFFFF [n]).linkChange.checkReach

/-- Local ticks of an hour. -/
def hourTicks : Nat := 360000000000

/-- A port retrains; the third time within an hour takes it down (R376). -/
def State.portRetrain (s : State) (n : Nat) : State :=
  match s.fab.port n with
  | none => s
  | some p =>
    let now := s.aon.tick.toNat
    let l := (p.retrains.filter fun t => decide (now < t + hourTicks)) ++ [now]
    let s := s.setPort n { p with retrains := l, retrainCount := p.retrainCount + 1 }
    if 3 ≤ l.length then s.portDown n
    else
      let s := s.handOffFlits n false
      match s.fab.port n with
      | some q => s.portState n { q with trained := false, nakSent := false } 4
      | none => s

/-- A port replays from a flit on, in order; the eighth replay of a flit retrains the port (R375, R376). -/
def State.replay (s : State) (n : Nat) (seq : BitVec 8) : State :=
  match s.fab.port n with
  | none => s
  | some p =>
    let keep := p.unacked.takeWhile (·.seq != seq)
    let again := (p.unacked.drop keep.length).map fun x => { x with replays := x.replays + 1 }
    if again.isEmpty || !p.trained then s
    else
      let s := (s.portState n { p with unacked := keep ++ again, replays := p.replays + again.length } p.inRetry).count
        0x401 n again.length
      let s := s.emits (again.map fun x => .flit n (p.sent x.seq x.flit))
      if again.any fun x => 8 ≤ x.replays then s.portRetrain n else s

/-- NAK_RECEIVE (R375). -/
def execNakReceive (port : Fin 36) (seq : BitVec 8) (s : State) : Host.Outcome State Fault Refusal :=
  .next (if s.powered then s.replay port seq else s)

/-- FLIT_ACK_TIMEOUT (R375, R376): replay from the oldest unacknowledged flit. -/
def execFlitAckTimeout (port : Fin 36) (s : State) : Host.Outcome State Fault Refusal :=
  .next (match s.fab.port port with
    | some p => (match p.unacked with
      | x :: _ => if s.powered then s.replay port x.seq else s
      | [] => s)
    | none => s)

/-- RETRAIN_TIMEOUT (R376): the retrain has not succeeded within 100 ms. -/
def execRetrainTimeout (port : Fin 36) (s : State) : Host.Outcome State Fault Refusal :=
  .next (match s.fab.port port with
    | some p => if s.powered && p.pi == 4 && !p.trained then s.portDown port else s
    | none => s)

/-- PORT_RETRY_TIMER (R377): a port that is down tries to train again, but not after three times down. -/
def execPortRetryTimer (port : Fin 36) (s : State) : Host.Outcome State Fault Refusal :=
  .next (match s.fab.port port with
    | some p => if s.clocks && p.pi == 2 && decide (p.downs < 3) then s.portState port p 3 else s
    | none => s)

/-! ### The destination's answers -/

/-- Flits from the first to the first that ends a message. -/
def throughLast : List Flit → List Flit
  | [] => []
  | x :: r => if x.last then [x] else x :: throughLast r

/-- Acknowledged flits of the message that is acknowledged only in part: what follows the last flit that ends one. -/
def openTail (l : List Flit) : List Flit := (l.reverse.takeWhile fun x => !x.last).reverse

/-- E2E_ACK (R383 to R387): flits below the one expected are acknowledged and credits return; a message is sent again from its
first flit; a context that was refused or has failed ends its operation. DEDUCED, log 161. -/
def execE2eAck (ctx cseq : Nat) (m : E2eMsg) (s : State) : Host.Outcome State Fault Refusal :=
  .next (
    match s.fab.ctx ctx with
    | none => s
    | some c =>
      if !s.powered || c.failed then s else
      match m with
      | .ack credits =>
        let ahead := fun (x : Flit) => decide ((x.cseq + 16384 - cseq % 16384) % 16384 < 8192)
        let rest := c.unacked.filter ahead
        let progress := decide (rest.length < c.unacked.length)
        (s.setCtx { c with
          kept := openTail (c.kept ++ c.unacked.filter fun x => !ahead x)
          unacked := rest
          credits := min 256 (c.credits + credits)
          resends := if progress then 0 else c.resends }).pump ctx
      | .resend =>
        let again := throughLast ((c.kept ++ c.unacked).dropWhile fun x => x.cseq != cseq)
        (s.setCtx { c with
          kept := [], unacked := c.unacked.filter fun x => !again.contains x, waiting := again ++ c.waiting }).pump ctx
      | .refused => s.endCtx c cNO_RESOURCE
      | .failed => s.failCtx c)

/-- CONTEXT_STALL_TIMEOUT (R385, R387): every unacknowledged flit goes again over the current route; a context
without a route, or after 64 resends without progress, fails. DEDUCED, log 64. -/
def execContextStallTimeout (ctx : Nat) (s : State) : Host.Outcome State Fault Refusal :=
  .next (
    match s.fab.ctx ctx, s.fab.addr with
    | some c, some me =>
      if !s.powered || c.failed || c.unacked.isEmpty then s
      else match s.fab.route me c.dst with
        | none => s.failCtx c
        | some rt =>
          if 64 ≤ c.resends then s.failCtx c
          else
            let s := (s.setCtx { c with resends := c.resends + 1 }).count 0x403 (ctx / 131072)
            c.unacked.foldl (fun s x => s.launch me rt x) s
    | _, _ => s)

end Sys2Proof.Machine
end

