-- ==== Sys2Proof/Machine/Flits.lean ====
section
/-! DEFINITION. Receiving flits: the flit's layout (R373), a port's acceptance and acknowledgement (R372, R374,
R375), forwarding (R379), and the receiving side of flow contexts (R383 to R386). -/

namespace Sys2Proof.Machine

/-- What 256 bytes say: FL_SEQ, FL_ACK and the flit (R373). -/
def flitOf (b : Bytes) : BitVec 8 × BitVec 8 × Flit :=
  let k := byteAt b 2
  let ctx := fld b 8 4
  (BitVec.ofNat 8 (byteAt b 0), BitVec.ofNat 8 (byteAt b 1),
    { kind := bits k 7 6, alt := bit k 5, dir := bits k 4 2, first := bit k 1, last := bit k 0,
      dest := bits (fld b 4 2) 13 0, src := bits (fld b 6 2) 13 0, ctx := bits ctx 17 0, cseq := bits ctx 31 18,
      data := (b.drop 0x0C).take (min 240 (byteAt b 3)), vc := 0 })

/-- A flit's CRC matches. -/
def flitCrcOk (b : Bytes) : Bool := b.length == 256 && fld b 0xFC 4 == crc32c (b.take 0xFC)

/-! ### Flow contexts, receiving (R383 to R386) -/

/-- The receive context of a source and a number. -/
def Fab.rctx (f : Fab) (src ctx : Nat) : Option RecvCtx := f.recv.find? fun c => c.src == src && c.ctx == ctx

/-- The state with a receive context replaced. -/
def State.setRctx (s : State) (c : RecvCtx) : State :=
  { s with fab := { s.fab with recv := s.fab.recv.map fun x => if x.src == c.src && x.ctx == c.ctx then c else x } }

/-- Acknowledges what a context has received in order, and returns the credits of the flits it has consumed (R384, R385). -/
def State.ackCtx (s : State) (c : RecvCtx) : State :=
  (s.setRctx { c with unacked := 0, freed := 0 }).emit (.e2e c.src c.ctx c.next (.ack c.freed))

/-- Consumes the flits that are next in order, while no complete message waits for its consumer: content grows, a last flit
completes a message whose CRC is checked; after a mismatch the message is expected again from its first flit (R384, R386).
The context, whether a message failed its check. DEDUCED, log 161. -/
def takeFlits : Nat → RecvCtx → RecvCtx × Bool
  | 0, c => (c, false)
  | k + 1, c =>
    if !c.complete.isEmpty then (c, false) else
    match c.held.find? (·.1 == c.next) with
    | none => (c, false)
    | some (q, x) =>
      let c := { c with
        next := (c.next + 1) % 16384, held := c.held.filter (·.1 != q), freed := c.freed + 1
        msg := (if x.first then [] else c.msg) ++ x.data, start := if x.first then q else c.start }
      if !x.last then takeFlits k c
      else
        let n := c.msg.length - 4
        if 4 ≤ c.msg.length && fld c.msg n 4 == crc32c (c.msg.take n) then
          takeFlits k { c with msg := [], complete := c.complete ++ [c.msg.take n], fails := 0 }
        else ({ c with msg := [], next := c.start, fails := c.fails + 1 }, true)

/-- A context after it has consumed what it could: a message that failed its check is asked for again, and the fourth failure in
a row fails the context on both sides (R386, R387). -/
def State.settleRctx (s : State) (r : RecvCtx × Bool) : State :=
  let s := s.setRctx r.1
  if !r.2 then s
  else if r.1.fails = 4 then (s.emit (.e2e r.1.src r.1.ctx r.1.next .failed)).ctxFailNote r.1.src
  else s.emit (.e2e r.1.src r.1.ctx r.1.next .resend)

/-- A DATA flit reaches its destination (R383 to R387). -/
def State.ctxFlit (s : State) (x : Flit) : State :=
  let s := if (s.fab.rctx x.src x.ctx).isSome || s.fab.ctxFree = 0 then s
    else { s with fab := { s.fab with recv := s.fab.recv ++ [⟨x.src, x.ctx, 0, [], [], 0, [], 0, 0, 0⟩] } }
  match s.fab.rctx x.src x.ctx with
  | none => s.emit (.e2e x.src x.ctx x.cseq .refused)
  | some c =>
    if 4 ≤ c.fails then s else
    let old := decide (8192 ≤ (x.cseq + 16384 - c.next) % 16384) || c.held.any (·.1 == x.cseq)
    let c := if old then c else { c with held := c.held ++ [(x.cseq, x)], unacked := c.unacked + 1 }
    let r := takeFlits c.held.length c
    let s := s.settleRctx r
    if old || 32 ≤ r.1.unacked then s.ackCtx r.1 else s

/-- FLOW_ACK_INTERVAL (R385): 2 µs have passed with flits received, or consumed, and not acknowledged. -/
def execFlowAckInterval (src ctx : Nat) (s : State) : Host.Outcome State Fault Refusal :=
  .next (match s.fab.rctx src ctx with
    | some c => if s.powered && (0 < c.unacked || 0 < c.freed) then s.ackCtx c else s
    | none => s)

/-! ### A port receives -/

/-- FL_ACK releases the flits up to the one it names (R375). -/
def Port.acked (p : Port) (ack : BitVec 8) : Port :=
  if p.unacked.any (·.seq == ack) then
    { p with unacked := (p.unacked.dropWhile (·.seq != ack)).drop 1 }
  else p

/-- A port discards a flit: one NAK names the flit it expects, in a CONTROL flit that is numbered and kept like any other
(R374, R375). -/
def State.nakPort (s : State) (n : Nat) : State :=
  match s.fab.port n with
  | some p => if p.nakSent then s else (s.portState n { p with nakSent := true } p.inRetry).portSend n (nakFlit p.expect)
  | none => s

/-- A port's link retry is over once nothing replayed is unacknowledged and nothing is missing. -/
def State.settlePort (s : State) (n : Nat) : State :=
  match s.fab.port n with
  | some p =>
    if p.pi == 4 && p.trained && p.inBundle && !p.nakSent && p.unacked.all (·.replays == 0) then s.portState n p 5 else s
  | none => s

/-- A DATA flit is delivered here or forwarded along its route (R379, R381). -/
def State.routeFlit (s : State) (x : Flit) : State :=
  match s.fab.addr with
  | none => s
  | some me =>
    if x.dest = me then s.ctxFlit x
    else match x.nextHop me with
      | some (b, vc) => s.sendFlit b vc x
      | none => s

/-- FLIT_RECEIVE (R372 to R375, R379, R384 to R387); what a CONTROL flit of a NAK does is NAK_RECEIVE. -/
def execFlitReceive (port : Fin 36) (flit : Bytes) (corrected uncorrectable : Nat) (laneErr : List Nat)
    (s : State) : Host.Outcome State Fault Refusal :=
  .next (
    match s.fab.port port with
    | none => s
    | some p =>
      if !s.powered || !p.trained then s else
      let p := { p with
        fecCorr := p.fecCorr + corrected, fecUncorr := p.fecUncorr + uncorrectable
        laneErr := (List.range 4).map fun i => min 65535 (p.laneErr.getD i 0 + laneErr.getD i 0) }
      let s := (s.setPort port p).count 0x402 port corrected
      if uncorrectable ≠ 0 || !flitCrcOk flit then s.nakPort port
      else
        let (seq, ack, x) := flitOf flit
        let p := p.acked ack
        let s := ((s.setPort port p).drain port).settlePort port
        if x.kind = 2 then s
        else if seq ≠ p.expect then s.nakPort port
        else
          let q := (s.fab.port port).getD p
          let s := (s.setPort port { q with expect := q.expect + 1, nakSent := false }).settlePort port
          if x.kind = 0 && p.inBundle then s.routeFlit x else s)

end Sys2Proof.Machine
end

