-- ==== Sys2Proof/Machine/Tensor.lean ====
section
/-! DEFINITION. Tensors as values: elements of a tile record (R46 to R58, R79 to R83), whole tensors read and written
(R63 to R70, R83), flat tensors (R403) and the counts of range watch (R632). -/

namespace Sys2Proof.Machine

/-! ### Reading tiles -/

/-- Element code `i` of `b` bits in an area given by its bytes (R80). -/
def codeAt (byte : Nat → Nat) (b i : Nat) : Nat :=
  let o := i * b
  let k := o / 8
  if b ≤ 8 && o % 8 + b ≤ 8 then byte k / 2 ^ (o % 8) % 2 ^ b
  else (byte k + 256 * byte (k + 1) + 65536 * byte (k + 2) + 16777216 * byte (k + 3)) / 2 ^ (o % 8) % 2 ^ b

/-- A byte of an array. -/
def arrByte (a : Array Byte) (k : Nat) : Nat := (a.getD k 0#8).toNat

/-- Element index of a row and a column in a tile (R80). -/
def TD.elemIndex (t : TD) (r c : Nat) : Nat := if t.col then c * 128 + r else r * 128 + c

/-- Block number of a row and a column in a tile (R81). -/
def TD.blockIndex (t : TD) (r c : Nat) : Nat := if t.axis1 then c * 4 + r / 32 else r * 4 + c / 32

/-- Scale and zero point of an SZP record that is not a NaN block (R56, R57). -/
def szpOf (f : Nat) (rec : Nat) : Option (Val × Int) :=
  let s := fmtB16.decode (rec % 65536)
  let z := intOfByte (bits rec 23 16)
  let inRange := if f = 8 then decide (-8 ≤ z) && decide (z ≤ 7) else decide (0 ≤ z) && decide (z ≤ 15)
  if inRange && s.finite then some (s, z) else none

/-- A whole number as an exact value. -/
def intVal (i : Int) : Val := .fin (decide (i < 0)) i.natAbs 0

/-- The value of an element of a tile from its code and the bytes of the tile's per-block data with codebook
(R50 to R57). -/
def TD.valueOf (t : TD) (code : Nat) (side : Nat → Nat) (r c : Nat) : Val :=
  let raw :=
    if isCodebook t.format then
      let e := side (blockBytes t.mode + code)
      if t.cbF8 then fmtF8e4.decode e else fmtF4e2.decode (e % 16)
    else decodeCode t.format code
  if t.mode = 1 then
    let sc := side (t.blockIndex r c)
    if sc = 255 then .nan false else raw.shift ((sc : Int) - 127)
  else if t.mode = 2 then
    match szpOf t.format (codeAt side 32 (t.blockIndex r c)) with
    | some (s, z) =>
      let q : Int := if t.format = 8 && 8 ≤ code then (code : Int) - 16 else code
      s.mul (intVal (q - z))
    | none => .nan false
  else raw

/-- The same from the bytes of the tile's element area. -/
def TD.valueBy (t : TD) (el side : Nat → Nat) (r c : Nat) : Val :=
  t.valueOf (codeAt el (formatBits t.format) (t.elemIndex r c)) side r c

/-- The same from arrays. -/
def TD.value (t : TD) (el side : Array Byte) (r c : Nat) : Val := t.valueBy (arrByte el) (arrByte side) r c

/-- Rows and columns of a tile that hold elements, by its coordinates (R83). -/
def TD.rowsIn (t : TD) (c : List Nat) : Nat := min 128 (t.dim 1 - 128 * c.getD 1 0)
def TD.colsIn (t : TD) (c : List Nat) : Nat := min 128 (t.dim 0 - 128 * c.getD 0 0)

/-- The 16,384 values of a tile, row by row; padding reads as zero (R83). -/
def TD.tileVals (t : TD) (c : List Nat) (el side : Array Byte) : Array Val :=
  ((List.range 16384).map fun i =>
    if i / 128 < t.rowsIn c && i % 128 < t.colsIn c then t.value el side (i / 128) (i % 128) else .fin false 0 0).toArray

/-! ### Whole tensors -/

/-- A tensor's values: its descriptor, and its tiles in the order of `TD.tiles`. -/
structure Loaded where
  td : TD
  tiles : Array (Array Val)

/-- Position of a tile's coordinates in the order of `TD.tiles`. -/
def TD.tileNo (t : TD) (c : List Nat) : Nat :=
  (List.range 6).foldr (fun i acc => acc * t.steps i + c.getD i 0) 0

/-- Coordinates of the tile that holds an element. -/
def tileOf (e : List Nat) : List Nat := [e.getD 0 0 / 128, e.getD 1 0 / 128, e.getD 2 0, e.getD 3 0, e.getD 4 0, e.getD 5 0]

/-- The value of an element by its coordinates. -/
def Loaded.at (l : Loaded) (e : List Nat) : Val :=
  (l.tiles.getD (l.td.tileNo (tileOf e)) #[]).getD (e.getD 1 0 % 128 * 128 + e.getD 0 0 % 128) (.fin false 0 0)

/-- An element as a binary32 code (R64). -/
def Loaded.at32 (l : Loaded) (e : List Nat) : Nat := r32 (l.at e)

/-- Reads a tile record: element area and side data. -/
def State.readTile (s : State) (t : TD) (idx : Nat) : Bytes × Bytes × State :=
  let a := t.recordAt idx
  let x := s.readVa a.1 t.elems
  let y := if t.side = 0 then ([], x.2) else x.2.readVa a.2 t.side
  (x.1, y.1, y.2)

/-- Reads the tiles of a tensor that `keep` picks by their coordinates; the others stay empty. -/
def State.loadSome (s : State) (keep : List Nat → Bool) (t : TD) : Loaded × State :=
  let x := t.tiles.foldl (fun (a : Array (Array Val) × State) c =>
    if keep c then
      let r := a.2.readTile t (t.tileIndex c)
      (a.1.push (t.tileVals c r.1.toArray r.2.1.toArray), r.2.2)
    else (a.1.push #[], a.2)) (#[], s)
  (⟨t, x.1⟩, x.2)

/-- Reads a whole tensor. -/
def State.load (s : State) (t : TD) : Loaded × State := s.loadSome (fun _ => true) t

/-- Reads the picked tiles of a tensor that may be absent. -/
def State.loadOpt (s : State) (t : Option TD) (keep : List Nat → Bool := fun _ => true) : Option Loaded × State :=
  match t with
  | some t => let x := s.loadSome keep t; (some x.1, x.2)
  | none => (none, s)

/-- A byte of a mapped address as it stands, without an access's effects. -/
def State.byteOf (s : State) (va : Nat) : Nat :=
  match s.rgn.byVa va with
  | some (r, off) => byteAt (s.readKey (r.key off) 1) 0
  | none => 0

/-- The value of a tensor's element as memory holds it. -/
def State.elemAt (s : State) (t : TD) (e : List Nat) : Val :=
  let a := t.recordAt (t.tileIndex (tileOf e))
  t.valueBy (fun i => s.byteOf (a.1 + i)) (fun i => s.byteOf (a.2 + i)) (e.getD 1 0 % 128) (e.getD 0 0 % 128)

/-! ### Writing tiles -/

/-- Codes of `b` bits, two or more to a byte where they are narrow, as bytes (R80). -/
def packCodes (b : Nat) (cs : List Nat) : Bytes :=
  if b = 4 then pairs cs else cs.flatMap (leBytes (b / 8))
where
  /-- Two 4-bit codes to a byte. -/
  pairs : List Nat → Bytes
    | x :: y :: r => BitVec.ofNat 8 (x + 16 * y) :: pairs r
    | [x] => [BitVec.ofNat 8 x]
    | [] => []

/-- Places a list of values given by block into element order. -/
def TD.unblock (t : TD) (blocks : Array (Array Nat)) : List Nat :=
  (List.range 16384).map fun i =>
    let r := if t.col then i % 128 else i / 128
    let c := if t.col then i / 128 else i % 128
    (blocks.getD (t.blockIndex r c) #[]).getD (if t.axis1 then r % 32 else c % 32) 0

/-- A tile written: element area, side data, conversions and saturations (R63 to R70, R83, R632). -/
def TD.encodeTile (t : TD) (c : List Nat) (f : Nat → Nat → Val) : Bytes × Bytes × Nat × Nat :=
  let rows := t.rowsIn c
  let cols := t.colsIn c
  let inside := fun (r k : Nat) => decide (r < rows) && decide (k < cols)
  let v := fun (r k : Nat) => if inside r k then f r k else .fin false 0 0
  let conv := rows * cols
  if t.mode = 1 then
    let blocks := (List.range 512).map fun j =>
      let place := fun (i : Nat) => if t.axis1 then (j % 4 * 32 + i, j / 4) else (j / 4, j % 4 * 32 + i)
      encodeBlock t.format t.top ((List.range 32).map fun i => v (place i).1 (place i).2)
    let el := packCodes (formatBits t.format) (t.unblock ((blocks.map fun b => b.2.1.toArray).toArray))
    (el, blocks.map fun b => BitVec.ofNat 8 b.1, conv, (blocks.map fun b => b.2.2).sum)
  else
    let cs := (List.range 16384).map fun i =>
      let r := if t.col then i % 128 else i / 128
      let k := if t.col then i / 128 else i % 128
      encodeVal t.format (v r k)
    (packCodes (formatBits t.format) (cs.map (·.1)), [], conv, (cs.filter (·.2)).length)

/-- Writes a tile record. -/
def State.writeTile (s : State) (t : TD) (idx : Nat) (el side : Bytes) : State :=
  let a := t.recordAt idx
  let s := s.writeVa a.1 el
  if side.isEmpty then s else s.writeVa a.2 side

/-- Writes the tiles with the coordinates given; the elements come by coordinates. The state, conversions and
saturations. -/
def State.storeTiles (s : State) (t : TD) (cs : List (List Nat)) (f : List Nat → Val) : State × Nat × Nat :=
  cs.foldl (fun (a : State × Nat × Nat) c =>
    let x := t.encodeTile c fun r k =>
      f [128 * c.getD 0 0 + k, 128 * c.getD 1 0 + r, c.getD 2 0, c.getD 3 0, c.getD 4 0, c.getD 5 0]
    (a.1.writeTile t (t.tileIndex c) x.1 x.2.1, a.2.1 + x.2.2.1, a.2.2 + x.2.2.2)) (s, 0, 0)

/-- Adds conversions and saturations of a descriptor to the step's range watch (R632). -/
def State.watchAdd (s : State) (desc conv sat : Nat) : State :=
  s.onStep fun st =>
    if st.watch.any (·.1 == desc) then
      { st with watch := st.watch.map fun w => if w.1 == desc then (desc, w.2.1 + sat, w.2.2 + conv) else w }
    else { st with watch := st.watch ++ [(desc, sat, conv)] }

/-- Writes a whole output tensor of an operation, with its range-watch counts. -/
def State.storeOut (s : State) (p : Plan) (op slot : Nat) (t : TD) (f : List Nat → Val) : State :=
  let x := s.storeTiles t t.tiles f
  x.1.watchAdd ((p.op op).outs.getD slot absent) x.2.1 x.2.2

/-- Elements written as infinity or NaN in a tile of a G16 or F8e5 tensor (R174). -/
def TD.nonfiniteIn (t : TD) (c : List Nat) (el side : Bytes) : Nat :=
  if t.format = 2 || t.format = 4 then
    let e := el.toArray
    let d := side.toArray
    ((List.range (t.rowsIn c * t.colsIn c)).filter fun i =>
      !(t.value e d (i / t.colsIn c) (i % t.colsIn c)).finite).length
  else 0

/-- Counts the non-finite elements of a written G16 or F8e5 tensor (R174); the verdict gathers the counts of the tensors
that the plan lists (R303). -/
def State.nonfiniteAdd (s : State) (desc n : Nat) : State :=
  if n = 0 then s else s.onStep fun st => { st with nonfinite := st.nonfinite.set desc (st.nonfinite.getD desc 0 + n) }

/-! ### The scratchpad's layout (R90) -/

/-- The bank of a tile's cell (R90). -/
def cellBank (i j : Nat) : Nat := 4 * ((i + j) % 16) + i % 4

/-- The place of a cell among a tile's 256: bank by bank, the four cells of a bank by ascending row. -/
def cellIndex (i j : Nat) : Nat := 4 * cellBank i j + i / 4

/-- The cell at a place. -/
def cellAt (n : Nat) : Nat × Nat :=
  let i := n % 4 * 4 + n / 4 % 4
  (i, (n / 16 + 16 - i) % 16)

/-- A string cut into parts of `n` bytes. -/
def cutBytes (n : Nat) : Nat → Bytes → List Bytes
  | 0, _ => []
  | k + 1, d => d.take n :: cutBytes n k (d.drop n)

/-- A tile's element area as the cells of the scratchpad: each holds eight runs of eight elements in the tile's own
order (R90). DESIGN CHOICE, log 145. -/
def TD.toCells (t : TD) (el : Bytes) : List Bytes :=
  let runs := (cutBytes (formatBits t.format) 2048 el).toArray
  (List.range 256).map fun n =>
    let x := cellAt n
    (List.range 8).flatMap fun k => runs.getD (if t.col then (8 * x.2 + k) * 16 + x.1 else (8 * x.1 + k) * 16 + x.2) []

/-- The element area that the cells hold. -/
def TD.fromCells (t : TD) (cells : List Bytes) : Bytes :=
  let a := cells.toArray
  let b := formatBits t.format
  (List.range 2048).flatMap fun m =>
    let n := if t.col then cellIndex (m % 16) (m / 128) else cellIndex (m / 128) (m % 16)
    ((a.getD n []).drop (m / 16 % 8 * b)).take b

/-- The code of an element in the scratchpad. -/
def TD.cellCode (t : TD) (cells : Array Bytes) (r c : Nat) : Nat :=
  let cell := cells.getD (cellIndex (r / 8) (c / 8)) []
  codeAt (byteAt cell) (formatBits t.format) (if t.col then c % 8 * 8 + r % 8 else r % 8 * 8 + c % 8)

/-! ### Flat tensors (R403) -/

/-- The tile records of a shard's segment in a flat tensor (R404). -/
def segTiles (params j : Nat) : List Nat := (List.range (min 2 (params / 16384 - 2 * j))).map (2 * j + ·)

/-- Coordinates of a flat tensor's tile record. -/
def flatTile (k : Nat) : List Nat := [0, k, 0, 0, 0, 0]

/-- The values of a tile record of a flat tensor, in parameter order. -/
def State.flatVals (s : State) (t : TD) (k : Nat) : Array Val × State :=
  let r := s.readTile t (t.tileIndex (flatTile k))
  (t.tileVals (flatTile k) r.1.toArray r.2.1.toArray, r.2.2)

end Sys2Proof.Machine
end

