-- ==== Sys2Proof/Machine/Mailbox.lean ====
section
/-! DEFINITION. The mailbox front end and the BAR0 areas (R454, R455, R484 to R493, R505, R506, R617, R625),
INFO and QUERY. -/

namespace Sys2Proof.Machine

/-! ### What BAR0 and the core I/O space read as -/

/-- The bytes of the device information block, as pieces by offset (R505, R506). -/
def State.infoPieces (s : State) : List (Nat × Bytes) :=
  let run := s.dev.running
  [ (0x0000, leBytes 4 0x4C423234
      ++ leBytes 4 (1 * 2 ^ 24 + 0 * 2 ^ 16 + Config.stepping.toNat)
      ++ leBytes 4 1
      ++ leBytes 4 s.dev.mode.code
      ++ leBytes 4 s.dev.topo.toNat),
    (0x0018, leBytes 8 s.aon.tick.toNat),
    (0x0020, leBytes 4 ((run.map (·.rollback)).getD 0) ++ leBytes 4 ((run.map (·.version)).getD 0)),
    (0x0100, leBytes 4 (min 479 s.dev.selfTest.length)),
    (0x0108, (s.dev.selfTest.take 479).flatMap fun e =>
      leBytes 8 (e.unit.kind * 2 ^ 48 + e.unit.num * 2 ^ 32 + e.result * 2 ^ 24)),
    (0x1000, s.dev.carrier.take 4096),
    (0x2000, Config.certChain.take 0xE000) ]

/-- A byte of an area given in pieces; zero where no piece lies. -/
def pieceByte (ps : List (Nat × Bytes)) (off : Nat) : Byte :=
  match ps.find? fun p => decide (p.1 ≤ off) && decide (off < p.1 + p.2.length) with
  | some p => p.2.getD (off - p.1) 0#8
  | none => 0#8

/-- `n` bytes of the device information block. -/
def State.infoRead (s : State) (off n : Nat) : Bytes := (upFrom off n).map (pieceByte s.infoPieces)

/-- The 8 bytes of a snapshot entry (R617). -/
def Counter.entry (c : Counter) : Nat :=
  c.mode * 2 ^ 62 + c.event * 2 ^ 50 + b2n c.ovf * 2 ^ 49 + c.value.toNat

/-- The 8,256 bytes of a snapshot (R617). -/
def Snapshot.bytes (p : Snapshot) : Bytes :=
  leBytes 4 p.seq ++ zeros 4 ++ leBytes 8 p.tick ++ zeros 48
    ++ (List.range 1024).flatMap fun n => leBytes 8 ((p.ctrs.getD n Counter.reset).entry)

/-- `n` bytes of the snapshot window (R617). -/
def State.snapRead (s : State) (off n : Nat) : Bytes :=
  match s.obs.snaps.get (off / 0x8000) with
  | some p => padTo n (((p.bytes).drop (off % 0x8000)).take n)
  | none => zeros n

/-- The Tracks status registers (R625). -/
def Obs.trkStatus (o : Obs) : Bytes :=
  leBytes 8 (b2n o.trkDebug * 4 + o.trkRun) ++ leBytes 8 o.eastNext ++ leBytes 8 o.westNext
    ++ leBytes 8 o.trkLost ++ zeros 32

/-- `n` bytes of the trace read window, by offset in BAR0 (R625). -/
def State.traceRead (s : State) (off n : Nat) : Bytes :=
  (upFrom off n).map fun a =>
    if 0x100000 ≤ a && a < 0x100040 then s.obs.trkStatus.getD (a - 0x100000) 0#8
    else if 0x200000 ≤ a && a < 0x2200000 then s.obs.trace.read (a - 0x200000)
    else 0#8

/-- `n` bytes of BAR0 (R454). -/
def State.bar0Read (s : State) (off n : Nat) : Bytes :=
  if off < 0x40000 then s.mbx.cells.readN off n
  else if off < 0x80000 then s.infoRead (off - 0x40000) n
  else if off < 0x100000 then s.snapRead (off - 0x80000) n
  else if off < 0x4000000 then s.traceRead off n
  else zeros n

/-! ### Hand-over and slot writes -/

/-- The front end takes a hand-over: OWN is set, the slot joins the latch queue, the primary Ranger wakes
(R487 step 2); a write of 1 while OWN is 1 is discarded with LOG (R486). -/
def State.handOver (s : State) (k : Nat) : State :=
  if !s.aon.tickOn then s else
  if s.mbx.own k then s.raise aLOG 0 noTag 0 (slotBase k + 0x38) else
  { s with
    mbx := { s.mbx with
      cells := s.mbx.cells.write (slotBase k + 0x38) 1#8
      latch := s.mbx.latch ++ [k] }
    aon := { s.aon with primary := if s.aon.primary == RangerState.asleep then RangerState.awake else s.aon.primary } }.drainUndefined

/-- Bytes written to a slot at an offset (R484, R486): reply areas discard, a slot handed over discards with
LOG, reserved bytes after MBX_OWN and its bits [31:1] stay zero, and a 1 written to OWN hands over. -/
def State.slotStore (s : State) (k off : Nat) (d : Bytes) : State :=
  if 0x800 ≤ off then s
  else if s.mbx.own k then s.raise aLOG 0 noTag 0 (slotBase k + off)
  else
    let cells := ((upFrom 0 d.length).foldl (fun (c : Store) i =>
      let o := off + i
      if 0x800 ≤ o || (decide (0x38 ≤ o) && decide (o < 0x40)) then c
      else c.write (slotBase k + o) (d.getD i 0#8)) s.mbx.cells)
    let s' := { s with mbx := { s.mbx with cells := cells } }
    let hands := decide (off ≤ 0x38) && decide (0x38 < off + d.length) && (d.getD (0x38 - off) 0#8).getLsbD 0
    if hands then s'.handOver k else s'

/-- A host access of BAR0 has a size and an alignment R455 admits. -/
def bar0SizeOk (off n : Nat) (write : Bool) : Bool :=
  ((n == 4 || n == 8) && off % n == 0)
    || (write && decide (off < 0x40000) && decide (off % 4096 + n ≤ 0x800) && decide (1 ≤ n) && decide (n ≤ 64)
        && off / 64 == (off + n - 1) / 64)

/-- A host access to BAR0 (R454, R455, R486). -/
def State.bar0Access (s : State) (off : Nat) (acc : Access) : State :=
  if s.hst.link != .up || !s.powered || 0x4000000 ≤ off then s else
  match acc with
  | .read n =>
    if bar0SizeOk off n false then s.emit (.data 0 (s.bar0Read off n))
    else (s.emit (.unsupported 0)).raise aLOG 0 noTag (unitField uHostPort 0 0) off
  | .write d =>
    if bar0SizeOk off d.length true then
      if off < 0x40000 then s.slotStore (off / 4096) (off % 4096) d else s
    else (s.emit (.unsupported 0)).raise aLOG 0 noTag (unitField uHostPort 0 0) off

/-- A core's access to the core slot area, by offset from its base (R484, R485, R541). -/
def State.coreSlotAccess (s : State) (n off : Nat) (acc : Access) : State :=
  let own := off / 4096 == n
  match acc with
  | .read k =>
    if (k == 4 || k == 8) && off % k == 0 then
      s.emit (.data (5 + n) (s.mbx.cells.readN (slotBase 64 + off) k))
    else s.emit (.coreFault n false)
  | .write d =>
    let k := d.length
    let sized := ((k == 4 || k == 8) && off % k == 0)
      || ((k == 1 || k == 2) && off % k == 0 && decide (off % 4096 < 0x800))
    if own && sized then s.slotStore (64 + n) (off % 4096) d else s.emit (.coreFault n true)

/-- MBX_OWN_WRITE (R487): a host's hand-over needs the host link. -/
def execMbxOwnWrite (k : SlotId) (s : State) : Host.Outcome State Fault Refusal :=
  .next (if k.val < 64 && s.hst.link != .up then s else s.handOver k)

/-- SLOT_WRITE (R454, R455, R485, R486): the host by BAR0 offset, a core by core physical address. DEDUCED, log 35. -/
def execSlotWrite (by_ : Issuer) (addr : Nat) (acc : Access) (s : State) :
    Host.Outcome State Fault Refusal :=
  .next (match by_ with
    | .host => s.bar0Access addr acc
    | .core n =>
      if decide (0x00F000000000 ≤ addr) && decide (addr < 0x00F000060000) then
        s.coreSlotAccess n (addr - 0x00F000000000) acc
      else s)

/-! ### INFO and QUERY -/

/-- Number of shards that this device owns or twin-owns (R275). -/
def State.ownsShard (s : State) (d : ShardDef) : Bool :=
  s.fab.addr == some d.owner || (d.twinEn && s.fab.addr == some d.twin)

/-- Fewest free region pages in any stack channel (IN_PAGES_FREE, R188). -/
def fewestFree (rs : List Region) : Nat := (channelSamples rs).foldl (fun m c => min m (channelFree rs c)) 24560

/-- The INFO reply (R507). -/
def State.infoReply (s : State) : Bytes :=
  let bitsOf := fun (l : List Nat) => l.foldl (fun m i => m + 2 ^ i) 0
  let cores := (s.cor.cores.filter (·.2.running)).map (·.1)
  leBytes 1 s.rgn.regions.length ++ leBytes 1 s.pln.plans.length
    ++ leBytes 2 (bitsOf (s.gld.sources.map (·.id)))
    ++ leBytes 4 s.trn.shards.length
    ++ leBytes 4 (s.trn.shards.filter s.ownsShard).length
    ++ leBytes 4 s.rgn.tableFree
    ++ leBytes 4 (262144 - 1024 - (s.fab.send.filter fun c => decide (1024 ≤ c.ctx)).length - s.fab.recv.length)
    ++ leBytes 4 (128 - (s.dma.chans.filter (·.2.shadow.valid)).length)
    ++ leBytes 4 (fewestFree s.rgn.regions)
    ++ zeros 4
    ++ leBytes 8 (bitsOf (cores.filter (· < 64)))
    ++ leBytes 4 (bitsOf ((cores.filter (64 ≤ ·)).map (· - 64)))
    ++ zeros 4

/-- INFO (R507). -/
def execInfo (k : SlotId) (s : State) : Host.Outcome State Fault Refusal :=
  .next (s.take k (·.opcode == 0x0102) fun _ s => (s, some (cOK, s.infoReply)))

/-- QR_TSTATE and QR_TCODE of a state word. -/
def WordState.query : WordState → Nat × Nat
  | .queued => (1, 0)
  | .running => (2, 0)
  | .voted => (3, 0)
  | .done c => (4, c)

/-- What QUERY reports for a tag (R514). -/
def State.tagState (s : State) (tag : Nat) : Nat × Nat :=
  let live := s.dma.chans.any fun c => (c.2.shadow.valid && !c.2.shadow.ended && c.2.shadow.tag == tag)
    || (c.2.active.valid && !c.2.active.ended && c.2.active.tag == tag)
  let over_ := fun (w : StateWord) => live && (match w.st with | .done _ => true | _ => false)
  match (s.stp.words.find? (·.tag == tag)).filter fun w => !over_ w with
  | some w => w.st.query
  | none =>
    let sets := s.dma.chans.flatMap fun c =>
      (if c.2.shadow.valid && c.2.shadow.tag == tag then [if c.2.shadow.ended then (4, c.2.shadow.code) else (1, 0)] else [])
        ++ (if c.2.active.valid && c.2.active.tag == tag then
              [if c.2.active.ended then (4, c.2.active.code) else (2, 0)] else [])
    (sets.head?).getD (0, 0)

/-- Entries oldest first, by descending d(AE_SEQ) (R513). -/
def insertByAge (a : Att) (e : AttnEntry) : List AttnEntry → List AttnEntry
  | [] => [e]
  | x :: r => if attnDist a x.seq < attnDist a e.seq then e :: x :: r else x :: insertByAge a e r

/-- The pending list in the order QUERY returns it. -/
def Att.byAge (a : Att) : List AttnEntry := a.list.foldr (insertByAge a) []

/-- The body of QUERY: acknowledge, then list (R501, R513, R514). -/
def queryBody (r : Req) (s : State) : State × Resp :=
  if !(r.rz 6 2 15 1 && r.zb 0x0A 6) then (s, rcode cBAD_ARG)
  else if r.fromCore && bit (r.f 6 2) 0 then (s, rcode cBAD_ARG)
  else
    let s := if bit (r.f 6 2) 0 then { s with att := s.att.ack (BitVec.ofNat 16 (r.f 4 2)) } else s
    let es := (s.att.byAge.drop (r.f 8 2)).take 61
    let t := if r.f 0 4 = noTag then (0, 0) else s.tagState (r.f 0 4)
    (s, some (cOK, leBytes 2 s.att.list.length ++ leBytes 2 es.length ++ leBytes 1 t.1 ++ leBytes 1 t.2
      ++ zeros 2 ++ leBytes 8 s.aon.tick.toNat ++ zeros 16 ++ es.flatMap AttnEntry.bytes))

/-- QUERY (R501, R502, R513, R514). -/
def execQuery (k : SlotId) (s : State) : Host.Outcome State Fault Refusal :=
  .next (s.take k (·.opcode == 0x0103) queryBody)

end Sys2Proof.Machine
end

