-- ==== Sys2Proof/Machine/Recovery.lean ====
section
/-! DEFINITION. Recovery by slot state (R313, R314), repair of a damaged committed slot (R315, R529), the referee
(R354) and the whole-step action of a device that resumes (R355, R356). -/

namespace Sys2Proof.Machine

/-! ### Slots as byte strings -/

/-- Bytes of segment `j` of an area of `unit` bytes an element, in a slot's bytes. -/
def ShardDef.segOf (d : ShardDef) (b : Bytes) (area unit j : Nat) : Bytes :=
  (b.drop (area + unit * d.segFirst j)).take (unit * d.segCount j)

/-- First and second moments of a segment in a slot's bytes; the second empty where there is none. -/
def ShardDef.momOf (d : ShardDef) (b : Bytes) (j : Nat) : Bytes × Bytes :=
  (d.segOf b d.mOff 4 j, if d.moments = 2 then d.segOf b d.vOff 4 j else [])

/-- The blaze recomputed from a slot's bytes (R301). -/
def ShardDef.blazeIn (d : ShardDef) (b : Bytes) : Nat :=
  blazeOf (fld b 8 8) (fld b 0x18 4) (fld b 0x1C 4) ((List.range d.segs).map fun j =>
    let m := d.momOf b j
    (crc64 (d.segOf b d.wOff 4 j), crc64 (m.1 ++ m.2)))

/-- A slot's bytes hold a seal of a ring whose blaze is the one recomputed. -/
def ShardDef.intactIn (d : ShardDef) (b : Bytes) (ring : Nat) : Bool :=
  match Seal.parse ((b.drop 64).take 64) with
  | some x => x.ring == ring && d.blazeIn b == x.blaze
  | none => false

/-- A g_red area's bytes are complete at a ring by the segment records of a control area (R283). -/
def ShardDef.gredIn (d : ShardDef) (ctl gred : Bytes) (ring : Nat) : Bool :=
  (List.range d.segs).all fun j =>
    let r := (ctl.drop (0x80 + 32 * j)).take 32
    fld r 4 4 == ring % 2 ^ 32 && fld r 0 4 == crc32c (d.segOf gred 0 2 j)

/-- The constants of a header line that has been written (R295, R314). -/
def auConstOf (a : AuParams) (h : SlotHdr) : AuConst :=
  { auConst a 0 0 h.lsExp with
    c1 := h.c1, c2 := h.c2
    r1 := fdiv one32 (fsub one32 h.c1), r2 := fdiv one32 (fsub one32 h.c2) }

/-- The blaze that an update from a committed slot and a g_red area gives (R314, R354). -/
def ShardDef.updatedBlaze (d : ShardDef) (a : AuParams) (h : SlotHdr) (slot gred : Bytes) : Nat :=
  let k := if h.round = 1 then some h.k else none
  blazeOf h.ring h.c1 h.c2 ((List.range d.segs).map fun j =>
    let n := d.segCount j
    let m := d.momOf slot j
    let es := auSeg a (auConstOf a h) k (wordsOf 2 n (d.segOf gred 0 2 j)) (wordsOf 4 n m.1) (wordsOf 4 n m.2)
      (wordsOf 4 n (d.segOf slot d.wOff 4 j))
    (crc64 (es.flatMap fun e => leBytes 4 e.2.2.2),
     crc64 ((es.flatMap fun e => leBytes 4 e.2.1) ++
       (if d.moments = 2 then es.flatMap fun e => leBytes 4 e.2.2.1 else []))))

/-! ### Slots in memory -/

/-- The whole slot. -/
def State.wholeSlot (s : State) (d : ShardDef) (slot : Nat) : Bytes := s.slotRead d slot 0 d.slotBytes

/-- A slot's blaze can be recomputed, and it is that of the seal it holds for a ring (R315). -/
def State.slotIntact (s : State) (d : ShardDef) (slot ring : Nat) : Bool :=
  !s.blazePoison d slot && match s.slotSeal d slot with
    | some x => x.ring == ring && s.recomputeBlaze d slot == x.blaze
    | none => false

/-- The stack that holds a shard's first slot, as a unit. -/
def State.shardUnit (s : State) (d : ShardDef) : Nat :=
  match s.slotAt d 0 with
  | some (r, o) => unitField uStack (r.stackOf o) 0
  | none => 0

/-- The shard's other twin. -/
def State.otherTwin (s : State) (d : ShardDef) : Option Nat :=
  if !d.twinEn then none else if s.owns d then some d.twin else some d.owner

/-- Classes of R313. -/
inductive ShardClass where
  | committed
  | interrupted
  | sealed (round : Nat)
  | recomputable
  | needsReduction
  deriving DecidableEq, Repr

/-- The class of a shard for step N (R313). DEDUCED, log 73. -/
def State.classify (s : State) (d : ShardDef) (n : Nat) : ShardClass :=
  let x := s.trn.selOf d.shard
  let slot := s.trn.pending d
  if x.ring = n then .committed
  else if x.ring + 1 = n && (match s.trn.commit with | some c => c.1 == n | none => false) && !s.trn.lost.contains d.shard
      && !s.trn.repairing.contains d.shard then .interrupted
  else match s.slotHdr d slot with
    | none => .needsReduction
    | some h =>
      if h.state ≠ 1 || h.ring ≠ n || !s.gredComplete d slot n then .needsReduction
      else match (s.slotSeal d slot).filter (·.ring == n) with
        | some q => if q.round = h.round then .sealed h.round else .needsReduction
        | none => .recomputable

/-! ### Repair of a committed slot (R315, R529) -/

/-- The update parameters that a shard's repair or recomputation uses: those of the step's plan, or of a loaded
plan that updates the shard. -/
def State.planFor (s : State) (d : ShardDef) (plan : Option Nat) : Option (Plan × Nat) :=
  let ps := match plan.bind s.pln.get with
    | some p => p :: s.pln.plans
    | none => s.pln.plans
  ps.findSome? fun p => (p.auOf d.shard).map fun op => (p, op)

/-- The plan whose step committed a ring, when it is still loaded, and the shard's ARRIVAL_UPDATE in it. -/
def State.planOf (s : State) (d : ShardDef) (ring : Nat) : Option (Plan × Nat) :=
  (s.stp.records.reverse.find? fun r => r.ring == ring && r.decided && byteAt r.bytes 8 == cOK).bind fun r =>
    (s.pln.get (fld r.bytes 0x20 2)).bind fun p => (p.auOf d.shard).map fun op => (p, op)

/-- The highest ring that a shard held here has committed: the ring of the device's state. -/
def State.topRing (s : State) : Nat := s.held.foldl (fun m d => max m (s.trn.selOf d.shard).ring) s.trn.ring

/-- A repair is reported: LOG attention and a REPAIR entry (R315). -/
def State.repairNote (s : State) (d : ShardDef) (row : Nat) : State :=
  (s.raise aLOG 0 noTag (s.shardUnit d) d.va).addEntry (recEntry 0x0A (leBytes 4 d.shard ++ leBytes 1 row))

/-- A poisoned line of a committed slot that cannot be repaired, in a FAULT entry of the shard's ARRIVAL_UPDATE (R223,
R633; DEDUCED, log 29). -/
def State.poisonEntry (s : State) (d : ShardDef) : State :=
  match s.stepPlan.bind fun x => x.2.auOf d.shard, s.slotPoisonAt d (s.trn.committed d) 0 d.slotBytes with
  | some op, some k => s.faultEntry op 0 5 0 d.region (k * 64 % 2 ^ 42 / pageBytes) (k % 1024)
  | _, _ => s

/-- A shard is lost on this device (R315 row 3). -/
def State.loseShard (s : State) (d : ShardDef) : State :=
  let s := { s with trn := { s.trn with
    lost := if s.trn.lost.contains d.shard then s.trn.lost else s.trn.lost ++ [d.shard]
    repairing := s.trn.repairing.filter (· != d.shard) } }
  (((s.poisonEntry d).raise aFAULT cINTERNAL noTag (s.shardUnit d) d.va).addEntry
    (recEntry 0x0A (leBytes 4 d.shard ++ leBytes 1 3))).localHold cINTERNAL

/-- Asks the other twin for its committed slot at the device's ring. -/
def State.askTwin (s : State) (d : ShardDef) (other : Nat) : State :=
  match s.fab.addr with
  | some me => s.emit (.referee other (.request me d.shard s.topRing))
  | none => s

/-- Restores a shard by row 2 of R315 where it has a twin that can be reached, else by row 3. -/
def State.fetchTwin (s : State) (d : ShardDef) : State :=
  match s.otherTwin d with
  | some o =>
    if s.fab.unreachable o then s.loseShard d
    else
      { (s.askTwin d o) with trn := { s.trn with
          repairing := if s.trn.repairing.contains d.shard then s.trn.repairing else s.trn.repairing ++ [d.shard] } }
  | none => s.loseShard d

/-- The check of a committed slot before the header of the next step goes into the pending slot, and its repair by
row 1, by the plan and the modes of the ring it holds; row 2 waits for the twin (R315). True when the committed slot is
good. -/
def State.readyCommitted (s : State) (d : ShardDef) : State × Bool :=
  let x := s.trn.selOf d.shard
  let slot := x.slot
  let other := 1 - slot
  if s.trn.lost.contains d.shard || s.trn.repairing.contains d.shard then (s, false)
  else if s.slotIntact d slot x.ring then (s, true)
  else
    let h := (s.slotHdr d slot).filter fun h => h.ring == x.ring && h.state == 1
    match h, s.planOf d x.ring with
    | some h, some (p, op) =>
      if 0 < x.ring && s.slotIntact d other (x.ring - 1) && s.gredComplete d slot x.ring
          && (s.redoPoison d other slot).isNone then
        let q := s.slotSeal d slot
        let mode := match q with
          | some q => q.mode
          | none => ((s.stp.verdicts.find? fun v => v.1.ring == x.ring).map (·.1.modeLo)).getD 0
        let a := { p with inForce := p.before }.au op
        (((s.freshLines d slot).recompute d a other slot h mode none).repairNote d 1, true)
      else (s.fetchTwin d, false)
    | _, _ => (s.fetchTwin d, false)

/-- The other twin's committed slot arrives for a repair of R315 or R529. -/
def State.repairData (s : State) (d : ShardDef) (selRing : Nat) (slot : Bytes) : State :=
  let good := selRing == s.topRing && d.intactIn slot selRing && slot.length == d.slotBytes
  let prog := match s.mbx.prog with
    | some ⟨_, _, .shardRepair k, _⟩ => k == d.shard
    | _ => false
  if prog then
    if !good then s.finishProg cDIVERGED []
    else
      let c := s.trn.committed d
      let s := (s.slotWrite d c 0 slot).fence
      ({ s with trn := { s.trn with
          sel := s.trn.sel.set d.shard ⟨selRing, true, c⟩
          lost := s.trn.lost.filter (· != d.shard) } }).finishProg cOK []
  else if s.trn.repairing.contains d.shard then
    if !good then s.loseShard d
    else
      let s := (s.slotWrite d (s.trn.committed d) 0 slot).fence
      let s := { s with trn := { s.trn with
        repairing := s.trn.repairing.filter (· != d.shard)
        sel := s.trn.sel.set d.shard ⟨selRing, true, s.trn.committed d⟩ } }
      s.repairNote d 2
  else s

/-! ### The referee (R354) -/

/-- What one side of a disputed shard sent to its referee. -/
abbrev Side := Nat × Bytes × Bytes × Bytes × BitVec 64

/-- A side's copies pass the checks: the committed slot against its blaze, g_red against its segment records. -/
def ShardDef.sideOk (d : ShardDef) (n : Nat) (x : Side) : Bool :=
  x.1 + 1 == n && d.intactIn x.2.1 x.1 && d.gredIn x.2.2.1 x.2.2.2.1 n

/-- The winner of a settlement, none on a mismatch; the outer none when the twins agree. -/
def ShardDef.judge (d : ShardDef) (a : Option AuParams) (n : Nat) (o t : Side) : Option (Option Nat) :=
  if o.2.2.2.2 = t.2.2.2.2 then none
  else if !(d.sideOk n o && d.sideOk n t) then some none
  else match a, (SlotHdr.parse (o.2.2.1.take 64)).filter (fun h => h.state == 1 && h.ring == n) with
    | some a, some h =>
      let b := d.updatedBlaze a h o.2.1 o.2.2.2.1
      if b = o.2.2.2.2.toNat then some (some d.owner)
      else if b = t.2.2.2.2.toNat then some (some d.twin) else some none
    | _, _ => some none

/-- The referee has heard both twins of a shard: it tells them its result. -/
def State.settleReferee (s : State) (shard : Nat) : State :=
  match s.trn.referees.find? (·.shard == shard), s.trn.shard shard, s.stepPlan with
  | some r, some d, some (st, p) =>
    let tell := fun (w : Option Nat) =>
      { s.emits [.referee d.owner (.result shard w), .referee d.twin (.result shard w)] with
        trn := { s.trn with referees := s.trn.referees.filter (·.shard != shard) } }
    if r.failed then tell none
    else match r.owner, r.twin with
      | some o, some t =>
        match d.judge ((p.auOf shard).map p.au) st.ring o t with
        | some w => tell w
        | none =>
          { s.emits [.referee d.owner (.agreed shard), .referee d.twin (.agreed shard)] with
            trn := { s.trn with referees := s.trn.referees.filter (·.shard != shard) } }
      | _, _ => s
  | _, _, _ => s

/-- A dispute is settled. -/
def State.endDispute (s : State) (shard loser : Nat) : State :=
  (s.onStep fun st => { st with disputes := st.disputes.filter (·.1 != shard) }).addEntry
    (recEntry 0x0B (leBytes 4 shard ++ leBytes 2 loser))

/-- The active step disputes a shard and awaits its referee. -/
def State.disputed (s : State) (shard : Nat) : Bool :=
  match s.stp.active with
  | some st => st.round == 1 && st.disputes.contains (shard, 0)
  | none => false

/-- Answers a request for a shard's copies, or, at a poisoned line, sends none and holds (R223). -/
def State.answerFetch (s : State) (src : Nat) (d : ShardDef) : State :=
  match s.fab.addr with
  | none => s
  | some me =>
    let c := s.trn.committed d
    let q := s.trn.pending d
    if s.slotPoison d c 0 d.slotBytes || s.slotPoison d q 0 d.mOff then
      ((s.raise aFAULT cINTERNAL noTag (s.shardUnit d) d.va).localHold cINTERNAL).emit (.referee src (.poisoned me d.shard))
    else s.emit (.referee src (.data me d.shard (s.trn.selOf d.shard).ring (s.wholeSlot d c)
      (s.slotRead d q 0 d.gredOff) (s.slotRead d q d.gredOff (2 * d.params))
      (BitVec.ofNat 64 (fld (s.slotRead d q 64 64) 0x10 8))))

/-- A request for a ring that the shard has reached is answered; one for a later ring is held back until the device's own
R312 completes (R345). -/
def State.takeFetch (s : State) (src shard ring : Nat) : State :=
  match s.trn.shard shard with
  | none => s
  | some d =>
    if !(s.owns d || s.twins d) then s
    else if (s.trn.selOf shard).ring < ring then
      { s with trn := { s.trn with
        fetches := s.trn.fetches.filter (· != (src, shard, ring)) ++ [(src, shard, ring)] } }
    else s.answerFetch src d

/-- The requests that were held back, tried again. -/
def State.serveFetches (s : State) : State :=
  s.trn.fetches.foldl (fun s x => s.takeFetch x.1 x.2.1 x.2.2) { s with trn := { s.trn with fetches := [] } }

/-- REFEREE_FETCH (R223, R315, R345, R354, R529): a request is answered with the device's copies, or, at a poisoned line, with
a notice; data, results and the winner's slot take effect on the one who asked for them. DEDUCED, log 47.
DEDUCED, log 74. -/
def execRefereeFetch (m : RefereeMsg) (s : State) : Host.Outcome State Fault Refusal :=
  .next (s.onSlots fun s =>
    if !s.powered then s else
    match m with
    | .request src shard ring => s.takeFetch src shard ring
    | .agreed shard =>
      if s.disputed shard then s.onStep fun st => { st with disputes := st.disputes.filter (·.1 != shard) } else s
    | .data src shard selRing slot ctl gred blaze =>
      (match s.trn.shard shard with
      | none => s
      | some d =>
        if s.owns d || s.twins d then (s.repairData d selRing slot).serveFetches
        else
          let x : Side := (selRing, slot, ctl, gred, blaze)
          let s := { s with trn := { s.trn with referees := s.trn.referees.map fun (r : Referee) =>
            if r.shard != shard then r
            else if src = d.owner then { r with owner := some x }
            else if src = d.twin then { r with twin := some x } else r } }
          s.settleReferee shard)
    | .poisoned _ shard =>
      (match s.trn.shard shard with
      | none => s
      | some d =>
        if s.owns d || s.twins d then s.repairData d 0 []
        else ({ s with trn := { s.trn with referees := s.trn.referees.map fun (r : Referee) =>
          if r.shard == shard then { r with failed := true } else r } }).settleReferee shard)
    | .result shard winner =>
      (if !s.disputed shard then s else
      match winner, s.fab.addr, s.trn.shard shard with
      | some w, some me, some d =>
        if w = me then
          match s.otherTwin d with
          | some o => (s.endDispute shard o).emit (.referee o (.winnerSlot me shard (s.wholeSlot d (s.trn.pending d))))
          | none => s
        else s
      | _, _, _ => s.onStep fun st => { st with disputes := st.disputes.map fun x => if x.1 = shard then (shard, 1) else x })
    | .winnerSlot _ shard slot =>
      match s.trn.shard shard, s.fab.addr, s.stp.active with
      | some d, some me, some st =>
        if !s.disputed shard then s else
        let s := ((s.slotWrite d (s.trn.pending d) 0 slot).fence.endDispute shard me).raise aLOG 0 noTag (s.shardUnit d) d.va
        let l := (s.trn.losses.filter fun r => decide (st.ring < r + 1000)) ++ [st.ring]
        let s := { s with trn := { s.trn with losses := l } }
        if l.length = 3 then s.raise aFAULT cDIVERGED noTag (s.shardUnit d) d.va else s
      | _, _, _ => s)

/-! ### The whole-step action (R355) -/

/-- The factor of a clip round of a resumed ring, by the round-0 verdict among those heard, or by what a header of round 1
holds; none in round 0 (R305, R355). -/
def State.resumeClip (s : State) (r : Resume) (round : Nat) : Option Nat :=
  if round = 0 then none
  else match r.heard.find? fun v => v.ring == r.ring && v.round == 0 with
    | some v => if v.clips then some (fdiv v.clip v.norm) else none
    | none =>
      ((s.held.filterMap fun d => s.slotHdr d (s.trn.pending d)).find? fun h => h.ring == r.ring && h.round == 1).map (·.k)

/-- What a recomputation of a shard's pending slot needs: its header, its parameters, and no poisoned line (R223, R314). -/
def State.redoable (s : State) (d : ShardDef) (plan : Option Nat) : Option (SlotHdr × AuParams) :=
  match s.slotHdr d (s.trn.pending d), s.planFor d plan, s.redoPoison d (s.trn.committed d) (s.trn.pending d) with
  | some h, some (p, op), none => some (h, p.au op)
  | _, _, _ => none

/-- Recomputes a shard's pending slot with a factor, or with its header's own (R314). -/
def State.redo (s : State) (d : ShardDef) (step : Option Step) (k : Option (Option Nat)) : State :=
  match s.redoable d (step.map (·.plan)) with
  | none => s
  | some (h, a) =>
    let h := match k with
      | some k => { h with round := b2n k.isSome, k := k.getD one32 }
      | none => h
    let mode := match step, s.slotSeal d (s.trn.pending d) with
      | some st, _ => st.stamp.toNat
      | none, some q => q.mode
      | none, none => 0
    s.recompute d a (s.trn.committed d) (s.trn.pending d) h mode none

/-- A shard that row 1 must rebuild and cannot: it needs its reduction again, or a line that its recomputation reads is
poisoned. -/
def State.staysBehind (s : State) (r : Resume) (want : Nat) (d : ShardDef) : Bool :=
  match s.classify d r.ring with
  | .needsReduction => true
  | .sealed q => q != want && (s.redoable d (r.step.map (·.plan))).isNone
  | .recomputable => (s.redoable d (r.step.map (·.plan))).isNone
  | _ => false

/-- Row 1: ring N is completed at the round that the ALLOW verdict names; a shard that cannot be rebuilt stays behind, and
is restored by row 2 of R315. -/
def State.resumeCommit (s : State) (r : Resume) (round : Nat) : State :=
  let k := s.resumeClip r round
  let want := b2n k.isSome
  let but := s.held.filter (s.staysBehind r want)
  let hdrs := s.held.filterMap fun d => s.slotHdr d (s.trn.pending d)
  let s := s.held.foldl (fun (s : State) d =>
    if but.contains d then s
    else match s.classify d r.ring with
      | .sealed q => if q = want then s else s.redo d r.step (some k)
      | .recomputable => s.redo d r.step (some k)
      | _ => s) s
  let ls := match r.step with
    | some st => st.lsExp
    | none => ((hdrs.find? (·.ring == r.ring)).map (·.lsExp)).getD 0
  let allow := r.heard.find? fun v => v.ring == r.ring && v.round == round && v.rule == Decision.commit
  let s := s.commitState r.ring round ls (but.map (·.shard))
  let s := { s with stp := { s.stp with active := r.step.map fun (st : Step) => { st with round := round, last := allow <|> st.last } } }
  let s := match r.step with
    | some st => { s with pln := s.pln.schedule st.crossings st.ring }
    | none => s
  let s := match (r.step.map (·.plan)).bind s.pln.get with
    | some _ => let y := s.policy true false; y.1.endStep cOK aSTEP_DONE y.2
    | none => (match r.step with
      | some st => s.endStep cOK aSTEP_DONE st.lsExp
      | none => s.raise aSTEP_DONE cOK noTag r.ring 0)
  (but.foldl (fun s d => (s.raise aFAULT cINTERNAL noTag (s.shardUnit d) d.va).fetchTwin d) s).serveFetches

/-- Rows 2 and 5 of R313 for a step that the device is about to replay, or comes to after a warm reset without owing it: a
commit that was interrupted completes, and recomputable shards are recomputed and sealed. -/
def State.settleClasses (s : State) (n : Nat) : State :=
  match s.trn.commit with
  | some (m, round) =>
    if m = n && s.held.any (fun d => s.classify d n == .interrupted) then
      s.resumeCommit ⟨n, none, true, [], s.stp.verdicts.map (·.1)⟩ round
    else again s
  | none => again s
where
  /-- The recomputable shards, one after another. -/
  again (s : State) : State :=
    s.held.foldl (fun s d => if s.classify d n == .recomputable then s.redo d none none else s) s

/-- Row 2: recomputable shards are recomputed, and the stored vote goes out again, with a notice where it holds (R634); a
poisoned line in the way holds the step instead (R223). -/
def State.resumeVote (s : State) (r : Resume) (st : Step) (v : Verdict) : State :=
  let owed := s.held.filter fun d => s.classify d r.ring == .recomputable
  let bad := owed.findSome? fun d => (s.redoPoison d (s.trn.committed d) (s.trn.pending d)).map fun l => (d, l)
  match bad.bind fun x => (s.planFor x.1 (some st.plan)).map fun y => (x.1, y.2, x.2) with
  | some (d, op, l) =>
    (({ s with stp := { s.stp with active := some { st with st := .running, vround := none } } }).redoFails d op l).localHold
      cINTERNAL
  | none =>
    let s := owed.foldl (fun s d => s.redo d (some st) none) s
    let w := if v.round = 0 then s.ownWatch st else []
    let st := { st with
      st := .voted, resumed := true, round := v.round, vround := some ⟨v.round, .z, v, w, false⟩
      tick := s.aon.tick.toNat }
    let s := { s with stp := { s.stp.moveWord st.tag .voted with active := some st } }
    let s := if 0 < v.hold then s.floodNotice st.ring st.attempt v.round 6 else s
    (verdictMoves 8 s).owedHold

/-- Row 3: a hold vote. -/
def State.resumeHold (s : State) (r : Resume) : State :=
  match r.step with
  | none => s.ghostVote r.ring cINTERNAL
  | some st =>
    ({ s with stp := { s.stp with active := some { st with st := .running, vround := none } } }).localHold cINTERNAL

/-- The first row of R355 that matches. -/
def State.applyResume (s : State) (r : Resume) : State :=
  let s := { s with stp := { s.stp with resume := none } }
  let own := (s.trn.commit.filter (·.1 == r.ring)).map (·.2)
  let allow := (r.heard.find? fun v => v.ring == r.ring && v.rule == Decision.commit).map (·.round)
  let r := { r with heard := r.heard ++ s.stp.verdicts.map (·.1) }
  match (if s.held.any (fun d => s.classify d r.ring == .interrupted) then own else none).orElse fun _ => allow with
  | some round => s.resumeCommit r round
  | none =>
    let whole := s.held.all fun d => match s.classify d r.ring with
      | .committed | .sealed _ | .recomputable => true
      | _ => false
    match s.stp.vote.filter (·.v.ring == r.ring), r.step with
    | some v, some st =>
      if whole && st.attempt = v.attempt && (s.stp.doneCode st.tag).isNone then s.resumeVote r st v.v else s.resumeHold r
    | _, _ => s.resumeHold r

/-- A recovery that has heard every neighbour it can reach acts. -/
def State.settleResume (s : State) : State :=
  match s.stp.resume with
  | some r => if r.begun && r.awaiting.all s.fab.unreachable then s.applyResume r else s
  | none => s

/-- A device that owes a recovery and has its fabric asks each neighbour for its last verdicts (R355).
DEDUCED, log 129. -/
def State.beginResume (s : State) : State :=
  match s.stp.resume, s.fab.addr with
  | some r, some me =>
    if r.begun || s.pln.awaitRing then s else
    let ns := ((s.fab.upBundles.map (s.fab.neighbour me)).eraseDups).filter fun a => s.fab.isMember a && a != me
    let s := { s with stp := { s.stp with resume := some { r with begun := true, awaiting := ns } } }
    (s.emits (ns.map fun a => .history a (.request me))).settleResume
  | _, _ => s

/-- VERDICT_HISTORY_REQUEST (R355): a neighbour's request for the last four verdicts, or an answer to the device's
own. -/
def execVerdictHistoryRequest (m : HistoryMsg) (s : State) : Host.Outcome State Fault Refusal :=
  .next (s.onSlots fun s =>
    if !s.powered then s else
    match m with
    | .request src =>
      (match s.fab.addr with
      | some me => s.emit (.history src (.answer me (s.stp.verdicts.map (·.1))))
      | none => s)
    | .answer src vs =>
      match s.stp.resume with
      | some r => ({ s with stp := { s.stp with resume := some { r with
          awaiting := r.awaiting.filter (· != src), heard := r.heard ++ vs } } }).settleResume
      | none => s)

end Sys2Proof.Machine
end

