-- ==== Sys2Proof/Machine/Training.lean ====
section
/-! DEFINITION. Training state: SHARD_DEFINE (R275 to R277, R526), the arrival update (R292 to R302), STATE_EXPORT and
STATE_IMPORT (R285 to R288, R527, R528), SHARD_REPAIR (R529) and BLAZE_READ (R301). -/

namespace Sys2Proof.Machine

/-! ### SHARD_DEFINE -/

/-- The definition a request carries. -/
def shardOfReq (q : Req) : ShardDef :=
  { shard := bits (q.f 0 4) 19 0, params := q.f 4 4, moments := bits (q.f 0x0C 1) 1 0
    owner := bits (q.f 8 2) 13 0, twinEn := bit (q.f 0x0C 1) 2, twin := bits (q.f 0x0A 2) 13 0
    region := bits (q.f 0x0D 1) 5 0, va := q.f 0x10 8 }

/-- Both slots of a shard lie inside a writable mapping of its STACK region (R275, R277). -/
def Rgn.holdsShard (g : Rgn) (d : ShardDef) : Bool :=
  d.va % pageBytes == 0 && (match g.inWritable d.va (2 * d.slotBytes) with
    | some r => r.id == d.region && r.kind == 0
    | none => false)

/-- Every attribute lies within its legal values (R275, R277). -/
def State.shardLegal (s : State) (d : ShardDef) : Bool :=
  decide (1 ≤ d.params) && decide (d.params ≤ 2 ^ 31) && (d.moments == 1 || d.moments == 2)
    && (if d.twinEn then d.twin != d.owner else d.twin == 0)
    && (if s.ownsShard d then vaOk d.va && s.rgn.holdsShard d else d.region == 0 && d.va == 0)

/-- The body of SHARD_DEFINE. -/
def shardDefineBody (q : Req) (s : State) : State × Resp :=
  let d := shardOfReq q
  if !(q.rz 0 4 31 20 && q.rz 8 2 15 14 && q.rz 0x0A 2 15 14 && q.rz 0x0C 1 7 3 && q.rz 0x0D 1 7 6 && q.zb 0x0E 2
      && q.zb 0x18 8) || !s.shardLegal d then (s, rcode cBAD_ARG)
  else match s.trn.shard d.shard with
    | some x => (s, rcode (if x = d then cOK else cBAD_ARG))
    | none =>
      if 4096 ≤ s.trn.shards.length || (s.ownsShard d && decide (1024 ≤ (s.trn.shards.filter s.ownsShard).length)) then
        (s, rcode cNO_RESOURCE)
      else ({ s with trn := { s.trn with shards := s.trn.shards ++ [d] } }, rcode cOK)

/-- SHARD_DEFINE (R275 to R277, R526). -/
def execShardDefine (k : SlotId) (s : State) : Host.Outcome State Fault Refusal :=
  .next (s.take k (·.opcode == 0x0401) shardDefineBody)

/-! ### Memory failures of slot accesses -/

/-- A command that meets a poisoned line at an address ends INTERNAL with FAULT attention (R223, R636). -/
def State.poisonReply (s : State) (r : Region) (line : Nat) : State :=
  let off := line * 64 - r.key 0
  s.raise aFAULT cINTERNAL noTag (unitField uStack (r.stackOf off) 0) off

/-- A range of a region lies in host-stale pages in part (R471). -/
def Region.staleIn (r : Region) (off n : Nat) : Bool := (chunksOf off n).any fun c => r.stalePage (c.1 / pageBytes)

/-! ### STATE_EXPORT and STATE_IMPORT -/

/-- Bytes of a shard image (R527). -/
def ShardDef.imageBytes (d : ShardDef) : Nat := d.slotBytes - (d.mOff - d.gredOff)

/-- The residue tensors of a CHAIN_REDUCE of a plan: the committed one and the other. -/
def State.residues (s : State) (p : Plan) (op : Nat) : Option (TD × TD) :=
  if p.count 2 ≤ op || (p.op op).code != 0x0030 then none else
  match p.inTd op 1 0, p.inTd op 2 0 with
  | some a, some b => some (if s.trn.resSel.slot = 0 then (a, b) else (b, a))
  | _, _ => none

/-- What a state command names: reserved bits, registered region, the offset's alignment. -/
def State.sxRegion (s : State) (q : Req) : Option Region :=
  if !(q.rz 0 1 7 1 && q.rz 1 1 7 6) || q.f 8 8 % 64 ≠ 0 then none
  else (s.rgn.get (bits (q.f 1 1) 5 0)).filter (·.reg.isSome)

/-- The reply of both commands. -/
def sxReply (ring n : Nat) : Resp := some (cOK, leBytes 8 ring ++ leBytes 8 n)

/-- A state command waits for an access to a slot or to its region's range. -/
def State.sxWait (s : State) (r : Region) (off n : Nat) (store : Bool) : Option State :=
  s.slotsWait.orElse fun _ => s.regionWait r off n store

/-- Writes an image into the region and replies, or ends as R636 says. -/
def State.exportTo (s : State) (r : Region) (off ring : Nat) (b : Bytes) : State × Resp :=
  if r.staleIn off b.length then (s, rcode cHOST_LOST)
  else ((s.writeRegion r off b).fence, sxReply ring b.length)

/-- An export that has failed leaves its range of the region undefined, where it could be written (R636). -/
def State.undefineTo (s : State) (r : Region) (off n : Nat) : State :=
  if r.staleIn off n then s else s.undefineRegion r off n

/-- Reads a range by device virtual address for a command. -/
def State.cmdRead (s : State) (va len : Nat) : Except (Nat × State) (Bytes × State) :=
  match s.cmdAccess va len false cFAULT_XLATE with
  | .error e => .error e
  | .ok s => .ok (s.readVa va len)

/-- The body of STATE_EXPORT (R286, R288, R527). -/
def stateExportBody (q : Req) (s : State) : State × Resp :=
  match s.sxRegion q with
  | none => (s, rcode cBAD_ARG)
  | some r =>
    let off := q.f 8 8
    let len := q.f 0x10 8
    let id := q.f 4 4
    if q.f 0 1 % 2 = 0 then
      match s.trn.shard id with
      | none => (s, rcode cBAD_ARG)
      | some d =>
        if q.f 2 2 ≠ 0 || !s.ownsShard d || len < d.imageBytes || r.size < off + d.imageBytes then (s, rcode cBAD_ARG)
        else if s.stepActive then (s, rcode cBUSY)
        else
          let x := s.trn.selOf id
          if !x.valid then (s, rcode cNOT_READY)
          else match s.sxWait r off d.imageBytes true, (s.slotAt d x.slot).bind fun a =>
              ((s.regionPoison a.1 a.2 d.gredOff).orElse fun _ =>
                s.regionPoison a.1 (a.2 + d.mOff) (d.slotBytes - d.mOff)).map fun l => (a.1, l) with
            | some s, _ => (s, rcode cWAIT)
            | none, some (rr, l) => (s.poisonReply rr l).cmdFailed cINTERNAL fun s => s.undefineTo r off d.imageBytes
            | none, none => s.exportTo r off x.ring
                (s.slotRead d x.slot 0 d.gredOff ++ s.slotRead d x.slot d.mOff (d.slotBytes - d.mOff))
    else
      match (s.pln.get (q.f 2 2)).bind fun p => s.residues p id with
      | none => (s, rcode cBAD_ARG)
      | some (t, _) =>
        let n := 64 + t.extent
        if len < n || r.size < off + n then (s, rcode cBAD_ARG)
        else if s.stepActive then (s, rcode cBUSY)
        else if !s.trn.resSel.valid then (s, rcode cNOT_READY)
        else match s.regionWait r off n true with
        | some s => (s, rcode cWAIT)
        | none => match s.cmdRead t.va t.extent with
          | .error (c, s) => s.cmdFailed c fun s => s.undefineTo r off n
          | .ok (b, s) => s.exportTo r off s.trn.resSel.ring (leBytes 8 s.trn.resSel.word ++ zeros 56 ++ b)

/-- STATE_EXPORT (R286, R288, R527). -/
def execStateExport (k : SlotId) (s : State) : Host.Outcome State Fault Refusal :=
  .next (s.take k (·.opcode == 0x0402) stateExportBody)

/-- A program fits the moments a shard keeps (R293). -/
def programFits (program moments : Nat) : Bool :=
  program == 3 || (program == 2 && moments == 2) || (decide (program < 2) && moments == 1)

/-- The checks of R287 on a slot's bytes; the seal when they pass. -/
def ShardDef.importOk (d : ShardDef) (b : Bytes) : Option Seal :=
  match SlotHdr.parse (b.take 64), Seal.parse ((b.drop 64).take 64) with
  | some h, some x =>
    if h.params = d.params && h.segs = d.segs && programFits h.program d.moments && d.blazeIn b = x.blaze then some x
    else none
  | _, _ => none

/-- What an import writes of a slot becomes undefined (R636). -/
def State.undefineSlot (s : State) (d : ShardDef) (slot : Nat) : State :=
  match s.slotAt d slot with
  | some a => (s.undefineRegion a.1 a.2 d.gredOff).undefineRegion a.1 (a.2 + d.mOff) (d.slotBytes - d.mOff)
  | none => s

/-- The body of STATE_IMPORT (R287, R288, R527, R528). -/
def stateImportBody (q : Req) (s : State) : State × Resp :=
  match s.sxRegion q with
  | none => (s, rcode cBAD_ARG)
  | some r =>
    let off := q.f 8 8
    let len := q.f 0x10 8
    let id := q.f 4 4
    let fetch := fun (s : State) (n : Nat) => s.readRegion r off n
    let blocked := fun (s : State) (n : Nat) (undef : State → State) =>
      if r.staleIn off n then some (s, rcode cHOST_LOST)
      else match s.sxWait r off n false with
        | some s => some (s, rcode cWAIT)
        | none => (s.regionPoison r off n).map fun l => (s.poisonReply r l).cmdFailed cINTERNAL undef
    if q.f 0 1 % 2 = 0 then
      match s.trn.shard id with
      | none => (s, rcode cBAD_ARG)
      | some d =>
        let n := d.imageBytes
        if q.f 2 2 ≠ 0 || !s.ownsShard d || len ≠ n || r.size < off + n then (s, rcode cBAD_ARG)
        else if s.stepActive then (s, rcode cBUSY)
        else match blocked s n fun s => s.undefineSlot d (s.trn.pending d) with
          | some x => x
          | none =>
            let x := fetch s n
            let slot := s.trn.pending d
            let s := x.2.slotWrite d slot 0 (x.1.take d.gredOff)
            let s := (s.slotWrite d slot d.mOff (x.1.drop d.gredOff)).fence
            match d.importOk (s.wholeSlot d slot) with
            | none => (s, rcode cBAD_ARG)
            | some y =>
              ({ s with trn := { s.trn with
                  sel := s.trn.sel.set id ⟨y.ring, true, slot⟩
                  lost := s.trn.lost.filter (· != id)
                  repairing := s.trn.repairing.filter (· != id) } }, sxReply y.ring n)
    else
      match (s.pln.get (q.f 2 2)).bind fun p => s.residues p id with
      | none => (s, rcode cBAD_ARG)
      | some (t, _) =>
        let n := 64 + t.extent
        if len ≠ n || r.size < off + n then (s, rcode cBAD_ARG)
        else if s.stepActive then (s, rcode cBUSY)
        else match blocked s n fun s => s.undefineVa t.va t.extent with
          | some x => x
          | none =>
            let x := fetch s n
            let w := fld x.1 0 8
            let ring := w / 65536
            let ls := intOfByte (bits w 15 8)
            let rs := s.trn.resSel
            if rs.valid && (rs.ring != ring || rs.lsExp != ls) then (s, rcode cBAD_ARG)
            else match x.2.cmdAccess t.va t.extent true cFAULT_XLATE with
              | .error (c, s) => s.cmdFailed c fun s => s.undefineVa t.va t.extent
              | .ok s =>
                let s := (s.writeVa t.va (x.1.drop 64)).fence
                ({ s with trn := { s.trn with resSel := { rs with ring := ring, lsExp := ls, valid := true } } },
                  sxReply ring n)

/-- STATE_IMPORT (R287, R288, R527, R528). -/
def execStateImport (k : SlotId) (s : State) : Host.Outcome State Fault Refusal :=
  .next (s.take k (·.opcode == 0x0403) stateImportBody)

/-! ### SHARD_REPAIR and BLAZE_READ -/

/-- SHARD_REPAIR (R529): asks the other twin for its committed slot, and replies when it has come. DEDUCED, log 75. -/
def execShardRepair (k : SlotId) (s : State) : Host.Outcome State Fault Refusal :=
  .next (s.take k (·.opcode == 0x0404) fun q s =>
    if !(q.rz 0 4 31 20 && q.zb 4 4) then (s, rcode cBAD_ARG) else
    match (s.trn.shard (bits (q.f 0 4) 19 0)).filter s.ownsShard with
    | none => (s, rcode cBAD_ARG)
    | some d =>
      match s.otherTwin d with
      | none => (s, rcode cBAD_ARG)
      | some o =>
        if s.stepActive then (s, rcode cBUSY)
        else if s.fab.unreachable o then (s, rcode cINTERNAL)
        else ({ s.askTwin d o with mbx := { s.mbx with prog := some ⟨q.slot, q.tag, .shardRepair d.shard, false⟩ } }, none))

/-- The body of BLAZE_READ (R301, R529). -/
def blazeReadBody (q : Req) (s : State) : State × Resp :=
  if !(q.rz 0 4 31 20 && q.rz 4 1 7 1 && q.zb 5 3) then (s, rcode cBAD_ARG) else
  match (s.trn.shard (bits (q.f 0 4) 19 0)).filter s.ownsShard with
  | none => (s, rcode cBAD_ARG)
  | some d =>
    let x := s.trn.selOf d.shard
    let check := bit (q.f 4 1) 0
    match s.slotsWait, (s.slotAt d x.slot).bind fun a =>
        (s.regionPoison a.1 a.2 (if check then d.slotBytes else 128)).map fun l => (a.1, l) with
    | some s, _ => (s, rcode cWAIT)
    | none, some (r, l) => (s.poisonReply r l, rcode cINTERNAL)
    | none, none =>
      let stored := fld (s.slotRead d x.slot 64 64) 0x10 8
      let comp := if check then s.recomputeBlaze d x.slot else 0
      (s, some (cOK, leBytes 8 x.word ++ leBytes 8 stored ++ leBytes 8 comp
        ++ leBytes 1 (if !check then 0 else if comp = stored then 1 else 2)
        ++ leBytes 1 (if s.owns d then 1 else 2) ++ zeros 6))

/-- BLAZE_READ (R301, R529). -/
def execBlazeRead (k : SlotId) (s : State) : Host.Outcome State Fault Refusal :=
  .next (s.take k (·.opcode == 0x0405) blazeReadBody)

/-! ### The arrival update (R299) -/

/-- The update of a shard in the current round. -/
def Trn.update (t : Trn) (shard : Nat) : Option Update := t.updates.find? (·.shard == shard)

/-- Sets it. -/
def Trn.putUpdate (t : Trn) (u : Update) : Trn :=
  { t with updates := t.updates.filter (·.shard != u.shard) ++ [u] }

/-- The header line of the pending slot for the step (R295, R299 step 1). -/
def State.pendingHeader (s : State) (d : ShardDef) (st : Step) (a : AuParams) : SlotHdr :=
  let old := s.slotRead d (s.trn.committed d) 0 64
  let c := auConst a (fld old 0x18 4) (fld old 0x1C 4) st.lsExp
  { state := 1, round := 0, program := a.program, lsExp := st.lsExp, ring := st.ring, shard := d.shard,
    params := d.params, c1 := c.c1, c2 := c.c2, k := one32, segs := d.segs }

/-- Step 1 of R299, once the committed slot is good (R315), and step 3 for the segments that have arrived. -/
def State.openUpdate (s : State) (d : ShardDef) : State :=
  match s.stepPlan with
  | none => s
  | some (st, p) =>
    match p.auOf d.shard with
    | none => s
    | some op =>
      let u := (s.trn.update d.shard).getD ⟨d.shard, st.ring, false, [], [], [], [], false⟩
      if u.header then s else
      let (s, good) := s.readyCommitted d
      if !good then { s with trn := s.trn.putUpdate u }
      else
        let slot := s.trn.pending d
        let s := (s.slotWrite d slot 0 (s.pendingHeader d st (p.au op)).bytes).fence
        let s := u.arrived.foldl (fun s j => s.writeSegCrc d slot j st.ring) s
        { s with trn := s.trn.putUpdate { u with header := true } }

/-- A segment of g_red arrives: step 2, and, once the header is written, step 3 (R299). DEDUCED, log 72. -/
def State.gredArrive (s : State) (d : ShardDef) (j : Nat) (b : Bytes) : State :=
  match s.stp.active with
  | none => s
  | some st =>
    let slot := s.trn.pending d
    let s := s.slotWrite d slot (d.gredOff + 2 * d.segFirst j) (b.take (2 * d.segCount j))
    let u := (s.trn.update d.shard).getD ⟨d.shard, st.ring, false, [], [], [], [], false⟩
    let s := if u.header then (s.writeSegCrc d slot j st.ring).fence else s
    ({ s with trn := s.trn.putUpdate { u with arrived := u.arrived.filter (· != j) ++ [j] } }).openUpdate d

/-- The arrival update of a shard is sealed: its instance's work is done. -/
def State.updateDone (s : State) (shard : Nat) : State :=
  match s.stepPlan, s.trn.update shard with
  | some (st, p), some u =>
    if !u.sealed then s else
    (match p.auOf shard with
    | some op => (match st.inst op 0 with
      | some i => if i.st == .issued then s.computed op 0 else s
      | none => s)
    | none => s)
  | _, _ => s

/-- ARRIVAL_UPDATE (R292, R299, R302): the instance issues, and the pending slot opens. -/
def execArrivalUpdate (op : Nat) (place : Place) (s : State) : Host.Outcome State Fault Refusal :=
  .next (s.onSlots fun s => match s.enter 0x0040 op 0 with
    | none => s
    | some (s, _, p) =>
      match s.trn.shard (fld (p.param op) 0 4) with
      | none => s
      | some d =>
        ((s.startTask place op 0).openUpdate d).updateDone d.shard)

/-- A poisoned line that the update of a segment reads (R316). -/
def State.segPoison (s : State) (d : ShardDef) (j : Nat) : Option Nat :=
  let c := s.trn.committed d
  [(c, 0, 64), (c, d.mOff + 4 * d.segFirst j, 4 * d.segCount j),
   (c, (if d.moments = 2 then d.vOff else d.mOff) + 4 * d.segFirst j, 4 * d.segCount j),
   (c, d.wOff + 4 * d.segFirst j, 4 * d.segCount j),
   (s.trn.pending d, d.gredOff + 2 * d.segFirst j, 2 * d.segCount j)].findSome? fun x => s.slotPoisonAt d x.1 x.2.1 x.2.2

/-- SEGMENT_UPDATE_DONE (R299 steps 3 to 6, R300, R304): a segment that has arrived is updated; with the last one the
seal line is written. -/
def execSegmentUpdateDone (shard seg : Nat) (s : State) : Host.Outcome State Fault Refusal :=
  .next (s.onSlots fun s =>
    match s.trn.shard shard with
    | none => s
    | some d =>
      let s := if (s.trn.update shard).isSome then s.openUpdate d else s
      match s.stepPlan, s.trn.update shard with
      | some (st, p), some u =>
        match p.auOf shard with
        | none => s
        | some op =>
          if !s.powered || st.stopped || st.st != .running || st.round != 0 || !u.header || !u.arrived.contains seg
              || u.updated.contains seg then s
          else match s.segPoison d seg with
          | some l => s.obstacle op 0 (.poison d.region (l * 64 % 2 ^ 42 / pageBytes) (l % 1024), 0, 0, false)
          | none =>
            let a := p.au op
            let old := s.slotRead d (s.trn.committed d) 0 64
            let c := auConst a (fld old 0x18 4) (fld old 0x1C 4) st.lsExp
            let slot := s.trn.pending d
            let r := s.updateSeg d a c none (s.trn.committed d) slot seg
            let u := { u with
              updated := u.updated ++ [seg], nonfinite := u.nonfinite.set seg r.2.1, sumsq := u.sumsq.set seg r.2.2 }
            let s := r.1.fence
            if u.updated.length < d.segs then { s with trn := s.trn.putUpdate u }
            else
              let order := List.range d.segs
              let s := (s.writeSeal d slot (s.pendingHeader d st a) st.stamp.toNat ((u.nonfinite.map (·.2)).sum)
                (sumInOrder (order.map fun j => u.sumsq.getD j 0))).fence
              ({ s with trn := s.trn.putUpdate { u with sealed := true } }).updateDone shard
      | _, _ => s)

end Sys2Proof.Machine
end

