-- ==== Sys2Proof/Machine/Chains.lean ====
section
/-! DEFINITION. Chain collectives (R403 to R421): the quantiser (R290, R291), the chain reduction (R408 to R413), the
all-gather (R414 to R418), peer reads (R421), and messages that flow contexts deliver (R386). -/

namespace Sys2Proof.Machine

/-! ### Messages (R411) -/

/-- A chain message. -/
structure ChainMsg where
  shard : Nat
  seg : Nat
  attempt : Nat
  ring : Nat
  kind : Nat
  hop : Nat
  entries : Nat
  c1 : Nat
  c2 : Nat
  blaze : Nat
  payload : Bytes
  deriving DecidableEq, Repr

/-- The message that bytes spell. -/
def ChainMsg.parse (b : Bytes) : ChainMsg :=
  { shard := fld b 0 4, seg := fld b 4 4, attempt := fld b 0x0E 2, ring := fld b 8 6, kind := byteAt b 0x10
    hop := byteAt b 0x11, entries := fld b 0x12 2, c1 := fld b 0x18 4, c2 := fld b 0x1C 4, blaze := fld b 0x20 8
    payload := (b.drop 64).take (fld b 0x14 4) }

/-- The bytes of a message. -/
def ChainMsg.bytes (m : ChainMsg) : Bytes :=
  leBytes 4 m.shard ++ leBytes 4 m.seg ++ leBytes 6 m.ring ++ leBytes 2 m.attempt ++ leBytes 1 m.kind ++ leBytes 1 m.hop
    ++ leBytes 2 m.entries ++ leBytes 4 m.payload.length ++ leBytes 4 m.c1 ++ leBytes 4 m.c2 ++ leBytes 8 m.blaze
    ++ zeros 24 ++ m.payload

/-- The step that a message belongs to. -/
def ChainMsg.step (m : ChainMsg) : Nat := if m.kind = 3 || m.kind = 4 then m.ring + 1 else m.ring

/-- How an arriving message stands to the device's steps (R412). -/
inductive Arrival where
  | now
  | wait
  | gone
  deriving DecidableEq, Repr

/-- A step's attempt runs now, is still to come, or is over; a gather's traffic also reaches a step that has voted (R353,
R416). -/
def State.arrival (s : State) (ring attempt : Nat) (gather : Bool := false) : Arrival :=
  let past := s.stp.records.any fun r => r.ring == ring && r.attempt == attempt && r.decided
  if ring ≤ s.deviceRing || past then .gone
  else match s.stp.active with
    | some st =>
      if st.ring = ring then
        if attempt < st.attempt then .gone
        else if st.attempt < attempt then .wait
        else if st.stopped || !(st.st == .running || (gather && st.st == .voted)) then .gone else .now
      else if ring < st.ring then .gone else .wait
    | none => .wait

/-- The chain reduction of a shard. DEDUCED, log 88. -/
def Fab.chain (f : Fab) (shard : Nat) : Option Chain := f.chains.find? fun c => c.shard == shard && c.reduce

/-- A gather of a shard. -/
def Fab.gather (f : Fab) (shard n : Nat) : Option Chain :=
  f.chains.find? fun c => c.shard == shard && !c.reduce && c.gather == n

/-- Which of its shard's gathers an ALLGATHER is, in ascending operation index (DEDUCED, log 28). -/
def Plan.gatherOf (p : Plan) (op : Nat) : Nat :=
  ((List.range op).filter fun i => (p.op i).code == 0x0031 && p.shardOf i == p.shardOf op).length

/-- Sets it. -/
def State.setChain (s : State) (c : Chain) : State :=
  { s with fab := { s.fab with
      chains := s.fab.chains.filter (fun x => !(x.shard == c.shard && x.reduce == c.reduce && x.gather == c.gather)) ++ [c] } }

/-- A chain with nothing done. -/
def Chain.start (shard op : Nat) (reduce : Bool) (gather : Nat) : Chain :=
  { shard := shard, op := op, reduce := reduce, gather := gather, requested := false, entries := [], c1 := 0, c2 := 0, blaze := 0,
    checked := false, written := [], digestSent := false, sent := [], twin := [], retries := [] }

/-- Sends a message on the operation's context to a destination. -/
def State.sendChain (s : State) (p : Plan) (op dst : Nat) (m : ChainMsg) : State :=
  match s.fab.ctxOf p.handle op 0 dst with
  | some n => s.sendMessage n m.bytes
  | none => s

/-! ### The quantiser (R290, R291) -/

/-- One element: the value that enters the stream. -/
def quantIn (g : Nat) (e : Val) (dl : Int) (valid : Bool) : Nat :=
  if valid then fadd g (r32 (e.shift dl)) else fadd g 0

/-- The quantiser on one tile record: the stream's record, with its non-finite elements counted (R174), and the new
residue's. DEDUCED, log 110. -/
def State.quantTile (s : State) (p : Plan) (op : Nat) (g e q eNew : TD) (k : Nat) (dl : Int) (valid : Bool) : State :=
  let (gv, s) := s.flatVals g k
  let (ev, s) := s.flatVals e k
  let at_ := fun (a : Array Val) (r c : Nat) => a.getD (r * 128 + c) (.fin false 0 0)
  let xs := ((List.range 16384).map fun i =>
    quantIn (r32 (at_ gv (i / 128) (i % 128))) (at_ ev (i / 128) (i % 128)) dl valid).toArray
  let x := fun (r c : Nat) => xs.getD (r * 128 + c) 0
  let t := q.encodeTile (flatTile k) fun r c => d32 (x r c)
  let s := (s.writeTile q (q.tileIndex (flatTile k)) t.1 t.2.1).nonfiniteAdd ((p.op op).outs.getD 0 absent)
    (q.nonfiniteIn (flatTile k) t.1 t.2.1)
  let el := t.1.toArray
  let side := t.2.1.toArray
  let u := eNew.encodeTile (flatTile k) fun r c =>
    if isFin32 (x r c) then d32 (r32 ((d32 (x r c)).add (q.value el side r c).neg)) else .fin false 0 0
  s.writeTile eNew (eNew.tileIndex (flatTile k)) u.1 u.2.1

/-- A read of segments of a flat tensor waits, for a flipping page, a line's transaction or the host's answer: the state with the
recalls sent (R260, R264, R270). -/
def State.segsWait (s : State) (t : TD) (params : Nat) (segs : List Nat) : Option State :=
  (segs.flatMap fun j => (segTiles params j).flatMap fun k => t.recordPieces (t.tileIndex (flatTile k))).findSome? fun x =>
    match s.access x.va x.len false with
    | .hostHeld => some (s.recallHost x.va x.len false)
    | .waits | .stale => some s
    | _ => none

/-! ### The reduction (R408 to R413) -/

/-- A member's contribution to a segment as exact values, in parameter order. -/
def State.contribOf (s : State) (q : TD) (params j : Nat) : List Val × State :=
  (segTiles params j).foldl (fun a k => let x := a.2.flatVals q k; (a.1 ++ x.1.toList, x.2)) ([], s)

/-- One hop: contribution added to a running sum of G16 codes. -/
def hopAdd (run : List Nat) (qv : List Val) : List Nat :=
  run.zipWith (fun g v => (fmtG16.encode (d32 (r32 ((d32 (r32 (fmtG16.decode g))).add v)))).1) qv

/-- The first member's running sum. -/
def hopFirst (qv : List Val) : List Nat := qv.map fun v => (fmtG16.encode v).1

/-- The reduction of a shard is over on this device: its instance's work is done. -/
def State.reduceDone (s : State) (d : ShardDef) (c : Chain) (onLine : Bool) : State :=
  let all := fun (l : List Nat) => (List.range d.segs).all l.contains
  if (!onLine || all c.written) && (!s.twins d || all c.twin) then s.computed c.op 0 else s

/-- A segment's sum leaves a member: at the owner it is the finished g_red, for the pending slot and the twin; at any
other member it goes on. -/
def State.passSum (s : State) (st : Step) (p : Plan) (d : ShardDef) (me : Nat) (c : Chain) (j : Nat) (run : List Nat) :
    State :=
  let l := p.lineOf c.op
  let b := run.flatMap (leBytes 2)
  let s := s.setChain { c with written := c.written ++ [j] }
  let msg := fun (kind hop : Nat) =>
    ({ shard := d.shard, seg := j, attempt := st.attempt, ring := st.ring, kind := kind, hop := hop, entries := 0,
       c1 := 0, c2 := 0, blaze := 0, payload := b } : ChainMsg)
  let s := if me = d.owner then
      let s := s.gredArrive d j b
      if d.twinEn then s.sendChain p c.op d.twin (msg 2 0) else s
    else s.sendChain p c.op (l.next me) (msg 1 (l.reducePos d.owner me + 1))
  match s.fab.chain d.shard with
  | some c => s.reduceDone d c true
  | none => s

/-- A step holds with INTERNAL, with FABRIC attention, for a message whose hop is not the device's (R412). -/
def State.badHop (s : State) (src : Nat) : State := (s.fabricNote src []).localHold cINTERNAL

/-- A REDUCE or TWIN message of the current attempt (R412). -/
def State.takeReduce (s : State) (st : Step) (p : Plan) (m : ChainMsg) (raw : Bytes) : State :=
  match s.trn.shard m.shard, s.fab.chain m.shard, s.fab.addr with
  | some d, some c, some me =>
    let l := p.lineOf c.op
    if m.kind = 2 then
      if m.hop ≠ 0 then s.badHop d.owner
      else if !s.twins d || c.twin.contains m.seg then s
      else
        let c := { c with twin := c.twin ++ [m.seg] }
        (((s.setChain c).gredArrive d m.seg m.payload)).reduceDone d c (l.holds d.owner me)
    else if m.hop = 0 || m.hop ≠ l.reducePos d.owner me then s.badHop (l.prev me)
    else if c.written.contains m.seg then s
    else match p.outTd c.op 0 0 with
      | some q =>
        (match s.segsWait q d.params [m.seg] with
        | some s => { s with fab := { s.fab with earlyMsgs := s.fab.earlyMsgs ++ [(0, raw)] } }
        | none =>
          let x := s.contribOf q d.params m.seg
          x.2.passSum st p d me c m.seg (hopAdd (wordsOf 2 (d.segCount m.seg) m.payload) x.1))
      | none => s
  | _, _, _ => { s with fab := { s.fab with earlyMsgs := s.fab.earlyMsgs ++ [(0, raw)] } }

/-! ### The all-gather (R414 to R418) -/

/-- Bytes of a segment's tile records in a flat tensor. -/
def State.segRecords (s : State) (t : TD) (params j : Nat) : Bytes × State :=
  (segTiles params j).foldl (fun (a : Bytes × State) k =>
    let r := a.2.readTile t (t.tileIndex (flatTile k))
    (a.1 ++ r.1 ++ r.2.1, r.2.2)) ([], s)

/-- Writes a segment's tile records. -/
def State.writeSegRecords (s : State) (t : TD) (params j : Nat) (b : Bytes) : State :=
  ((segTiles params j).foldl (fun (a : State × Bytes) k =>
    (a.1.writeTile t (t.tileIndex (flatTile k)) (a.2.take t.elems) ((a.2.drop t.elems).take t.side),
      a.2.drop (t.elems + t.side))) (s, b)).1

/-- The owner converts a segment of its committed w into OUT0 (R415). -/
def State.convertSeg (s : State) (d : ShardDef) (t : TD) (j : Nat) : State :=
  let w := s.wSeg d (s.trn.committed d) j
  if t.format = 0 then s.writeSegRecords t d.params j w
  else
    let a := ((wordsOf 4 (d.segCount j) w).map d32).toArray
    ((segTiles d.params j).foldl (fun (s : State) k =>
      (s.storeTiles t [flatTile k] fun e =>
        a.getD ((k - 2 * j) * 16384 + (e.getD 1 0 % 128) * 128 + e.getD 0 0) (.fin false 0 0)).1) s)

/-- The digest entries as DIGEST messages, from the given number of hops (R411, R416). -/
def Chain.digestMsgs (c : Chain) (st : Step) (segs hop : Nat) : List ChainMsg :=
  (List.range (ceilDiv segs 8192)).map fun k =>
    let idx := upFrom (8192 * k) (min 8192 (segs - 8192 * k))
    { shard := c.shard, seg := 8192 * k, attempt := st.attempt, ring := st.ring - 1, kind := 3, hop := hop
      entries := idx.length, c1 := c.c1, c2 := c.c2, blaze := c.blaze
      payload := idx.flatMap fun j =>
        let e := c.entries.getD j (0, 0, 0)
        leBytes 8 e.1 ++ leBytes 8 e.2.1 ++ leBytes 8 e.2.2 }

/-- A serving read meets a poisoned line (R223). -/
def State.servePoison (s : State) (va : Nat) (reg page line : Nat) : State :=
  let st := match s.rgn.get reg with
    | some x => x.stackOf (page * pageBytes + line * 64)
    | none => 0
  (s.raise aFAULT cINTERNAL noTag (unitField uStack st 0) va).localHold cINTERNAL

/-- Sends what a member has to a destination: all digests, then its segments in ascending order, each read from OUT0. -/
def State.serveSegs (s : State) (st : Step) (d : ShardDef) (t : TD) (c : Chain) (hop : Nat) (digests : Bool)
    (segs : List Nat) (send : State → ChainMsg → State) : State :=
  let s := if digests then (c.digestMsgs st d.segs hop).foldl send s else s
  (sortBy id segs).foldl (fun s j =>
    let spans := (segTiles d.params j).flatMap fun k => t.recordPieces (t.tileIndex (flatTile k))
    match spans.findSome? fun x => match s.access x.va x.len false with
        | .poison r p l => some (x.va, r, p, l)
        | _ => none with
    | some (va, r, p, l) => s.servePoison va r p l
    | none =>
      let x := s.segRecords t d.params j
      send x.2 { shard := d.shard, seg := j, attempt := st.attempt, ring := st.ring - 1, kind := 4, hop := hop, entries := 0,
                 c1 := 0, c2 := 0, blaze := 0, payload := x.1 }) s

/-- A member sends its successor, once it has asked, what has passed its check and has not gone yet (R416, R418), unless a read
of it waits. -/
def State.serveGather (s : State) (shard n : Nat) : State :=
  match s.stepPlan, s.trn.shard shard, s.fab.gather shard n, s.fab.addr with
  | some (st, p), some d, some c, some me =>
    match p.outTd c.op 0 0 with
    | none => s
    | some t =>
      if !c.requested || !c.checked then s else
      let l := p.lineOf c.op
      let segs := c.written.filter fun j => !c.sent.contains j
      match s.segsWait t d.params segs with
      | some s => s
      | none =>
        let s := s.setChain { c with digestSent := true, sent := c.sent ++ segs }
        s.serveSegs st d t c (l.gatherPos d.owner me + 1) (!c.digestSent) segs fun s m => s.sendChain p c.op (l.next me) m
  | _, _, _, _ => s

/-- A segment or the digests are fetched again from the owner, up to three times; then the instance fails (R352).
DEDUCED, log 76. -/
def State.refetch (s : State) (d : ShardDef) (c : Chain) (key : Nat) : State :=
  let n := c.retries.getD key 0
  if 3 ≤ n then
    (s.raise aFAULT cINTERNAL noTag (unitField uFloor 0 0) 0).instFails c.op 0 cINTERNAL
  else (s.setChain { c with retries := c.retries.set key (n + 1) }).emit
    (.gatherRefetch d.owner d.shard c.gather (if key = 2 ^ 32 then 0xFFFFFFFF else key))

/-- The gather is over on this device: its instance's work is done. -/
def State.gatherDone (s : State) (d : ShardDef) (c : Chain) : State :=
  if (List.range d.segs).all c.written.contains && (match s.stp.active.bind fun st => st.inst c.op 0 with
    | some i => i.st == .issued || i.st == .waitHost
    | none => false) then s.computed c.op 0 else s

/-- Reads the entries of a DIGEST payload. -/
def digestEntries (m : ChainMsg) : List (Nat × Nat × Nat × Nat) :=
  (List.range m.entries).map fun i =>
    (m.seg + i, fld m.payload (24 * i) 8, fld m.payload (24 * i + 8) 8, fld m.payload (24 * i + 16) 8)

/-- A DIGEST or GATHER message of the current attempt (R417, R418, R352). -/
def State.takeGather (s : State) (p : Plan) (n : Nat) (m : ChainMsg) (raw : Bytes) : State :=
  let hold := { s with fab := { s.fab with earlyMsgs := s.fab.earlyMsgs ++ [(n, raw)] } }
  match s.trn.shard m.shard, s.fab.gather m.shard n, s.fab.addr with
  | some d, some c, some me =>
    let l := p.lineOf c.op
    let key := if m.kind = 3 then 2 ^ 32 else m.seg
    if me = d.owner || m.hop ≠ l.gatherPos d.owner me then s.badHop (l.prev me)
    else if m.kind = 3 then
      if c.checked then s else
      let es := (digestEntries m).foldl (fun (a : AL (Nat × Nat × Nat)) e => a.set e.1 e.2) c.entries
      let c := { c with entries := es, c1 := m.c1, c2 := m.c2, blaze := m.blaze }
      if !(List.range d.segs).all fun j => (es.get j).isSome then s.setChain c
      else if blazeOf m.ring c.c1 c.c2 ((List.range d.segs).map fun j =>
          let e := es.getD j (0, 0, 0)
          (e.1, e.2.1)) = c.blaze then
        (s.setChain { c with checked := true }).serveGather d.shard n
      else s.refetch d { c with entries := [] } key
    else if !c.checked then hold
    else if c.written.contains m.seg then s
    else if crc64 m.payload ≠ (c.entries.getD m.seg (0, 0, 0)).2.2 then s.refetch d c key
    else match p.outTd c.op 0 0 with
      | none => s
      | some t =>
        let spans := (segTiles d.params m.seg).flatMap fun k => t.recordPieces (t.tileIndex (flatTile k))
        match s.permit c.op 0 (agentCache 0) (spans.map fun x => (x.va, x.len, true)) with
        | (s, false) => { s with fab := { s.fab with earlyMsgs := s.fab.earlyMsgs ++ [(n, raw)] } }
        | (s, true) =>
          let c := { c with written := c.written ++ [m.seg] }
          (((s.writeSegRecords t d.params m.seg m.payload).setChain c).serveGather d.shard n).gatherDone d c
  | _, _, _ => hold

/-! ### Arrival -/

/-- A chain or gather message arrives (R412). -/
def State.chainArrives (s : State) (n : Nat) (b : Bytes) : State :=
  let m := ChainMsg.parse b
  match s.arrival m.step m.attempt (m.kind == 3 || m.kind == 4) with
  | .gone => s
  | .wait => { s with fab := { s.fab with earlyMsgs := s.fab.earlyMsgs ++ [(n, b)] } }
  | .now =>
    match s.stepPlan with
    | none => s
    | some (st, p) =>
      if m.kind = 1 || m.kind = 2 then s.takeReduce st p m b
      else if m.kind = 3 || m.kind = 4 then s.takeGather p n m b
      else s

/-- Messages that waited are taken again. -/
def State.redeliver (s : State) : State :=
  s.fab.earlyMsgs.foldl (fun s x => s.chainArrives x.1 x.2) { s with fab := { s.fab with earlyMsgs := [] } }

/-- CHAIN_MESSAGE (R410 to R413). -/
def execChainMessage (msg : Bytes) (s : State) : Host.Outcome State Fault Refusal :=
  .next (s.onSlots fun s =>
    if s.powered && (byteAt msg 0x10 == 1 || byteAt msg 0x10 == 2) then s.chainArrives 0 msg else s)

/-- GATHER_MESSAGE (R352, R412, R417, R418). -/
def execGatherMessage (gather : Nat) (msg : Bytes) (s : State) : Host.Outcome State Fault Refusal :=
  .next (if s.powered && (byteAt msg 0x10 == 3 || byteAt msg 0x10 == 4) then (s.chainArrives gather msg).redeliver else s)

/-- A gather request that the device can act on: the successor's first opens the flow to it; any other, at the
owner, is a fetch after a failed check, and is answered directly with everything (R416, R352; DEDUCED, log 21). -/
def State.gatherAsked (s : State) (g : GatherReq) : State :=
  let src := g.src
  let shard := g.shard
  let n := g.gather
  match s.stepPlan, s.trn.shard shard, s.fab.gather shard n, s.fab.addr with
  | some (st, p), some d, some c, some me =>
    let l := p.lineOf c.op
    if src = l.next me && !c.requested then (s.setChain { c with requested := true }).serveGather shard n
    else if me = d.owner then
      match p.outTd c.op 0 0 with
      | some t =>
        (match s.segsWait t d.params (List.range d.segs) with
        | some s => { s with fab := { s.fab with gatherReqs := s.fab.gatherReqs ++ [g] } }
        | none => s.serveSegs st d t c (l.gatherPos d.owner src) true (List.range d.segs) fun s m =>
            s.emit (.gatherData src n (withCrc m.bytes)))
      | none => s
    else s
  | _, _, _, _ => s

/-- GATHER_REQUEST (R345, R416): served once the step runs and the device's own instance has issued. -/
def execGatherRequest (src shard attempt ring gather : Nat) (s : State) : Host.Outcome State Fault Refusal :=
  .next (
    if !s.powered then s else
    let g : GatherReq := ⟨src, shard, gather, attempt, ring⟩
    let keep := { s with fab := { s.fab with gatherReqs := s.fab.gatherReqs ++ [g] } }
    match s.arrival (ring + 1) attempt true with
    | .gone => s
    | .wait => keep
    | .now => if (s.fab.gather shard gather).isSome then s.gatherAsked g else keep)

/-! ### The operations -/

/-- CHAIN_REDUCE (R290, R291, R406 to R410): quantises the device's part, starts the sums where the device is first,
and takes the running sums that waited. -/
def execChainReduce (op : Nat) (place : Place) (s : State) : Host.Outcome State Fault Refusal :=
  .next (s.onSlots fun s =>
    match s.enter 0x0030 op 0 with
    | none => s
    | some (s, st, p) =>
      match s.trn.shard (p.shardOf op), s.fab.addr with
      | some d, some me =>
        if (s.fab.chain d.shard).isSome then s else
        let c := Chain.start d.shard op true 0
        match p.inTd op 0 0, s.residues p op, p.outTd op 0 0 with
        | some g, some (e, eNew), some q =>
          (match s.permit op 0 place.grove (g.accs false ++ e.accs false ++ eNew.accs true ++ q.accs true) with
          | (s, false) => s
          | (s, true) =>
            let rs := s.trn.resSel
            let s := (List.range (d.params / 16384)).foldl (fun s k =>
              s.quantTile p op g e q eNew k (st.lsExp - rs.lsExp) rs.valid) s
            let s := (s.startTask place op 0).setChain c
            let s := if (p.lineOf op).reducePos d.owner me = 0 then
                (List.range d.segs).foldl (fun s j =>
                  let x := s.contribOf q d.params j
                  match x.2.fab.chain d.shard with
                  | some c => x.2.passSum st p d me c j (hopFirst x.1)
                  | none => x.2) s
              else s
            s.redeliver)
        | _, _, _ => (s.setChain c).redeliver
      | _, _ => s)

/-- ALLGATHER (R345, R387, R414 to R418): the owner, once its SEL_RING is N - 1, converts and serves; every other member asks its
predecessor. -/
def execAllGather (op : Nat) (s : State) : Host.Outcome State Fault Refusal :=
  .next (s.onSlots fun s =>
    match s.enter 0x0031 op 0 with
    | none => s
    | some (s, st, p) =>
      match s.trn.shard (p.shardOf op), s.fab.addr, p.outTd op 0 0 with
      | some d, some me, some t =>
        let n := p.gatherOf op
        let l := p.lineOf op
        let c := Chain.start d.shard op false n
        let mine := s.fab.gatherReqs.filter fun g => g.shard == d.shard && g.gather == n && st.asked g
        let asked := fun (s : State) => mine.foldl State.gatherAsked
          { s with fab := { s.fab with gatherReqs := s.fab.gatherReqs.filter fun g => !mine.contains g } }
        if (s.fab.gather d.shard n).isSome then ((asked s).serveGather d.shard n).redeliver else
        if me = d.owner then
          if (s.trn.selOf d.shard).ring + 1 ≠ st.ring then s else
          match s.permit op 0 (agentCache 0) (t.accs true) with
          | (s, false) => s
          | (s, true) =>
            let slot := s.trn.committed d
            match s.slotPoisonAt d slot d.wOff (4 * d.params) with
            | some k => s.obstacle op 0 (.poison d.region (k * 64 % 2 ^ 42 / pageBytes) (k % 1024), 0, 0, false)
            | none =>
              let s := (List.range d.segs).foldl (fun s j => s.convertSeg d t j) s
              let h := s.slotRead d slot 0 128
              let entries := (List.range d.segs).map fun j =>
                let r := s.segRecord d slot j
                (j, (fld r 8 8, fld r 0x10 8, crc64 (s.segRecords t d.params j).1))
              let c := { c with
                entries := entries, c1 := fld h 0x18 4, c2 := fld h 0x1C 4, blaze := fld h 0x50 8, checked := true
                written := List.range d.segs }
              (asked (s.setChain c)).gatherDone d c
        else if s.fab.unreachable (l.prev me) then s.askFails op 0 (l.prev me)
        else
          (asked ((s.setChain c).emit (.gatherRequest (l.prev me) d.shard st.attempt (st.ring - 1) n))).redeliver
      | _, _, _ => s)

/-! ### The sweep (R353) -/

/-- Copies received by ALLGATHER whose copy digest no longer matches: gather, segment, owner. DEDUCED, log 94. -/
def State.sweep (s : State) (p : Plan) : List (Chain × Nat × Nat) :=
  (s.fab.chains.filter (!·.reduce)).flatMap fun c =>
    match s.trn.shard c.shard, p.outTd c.op 0 0 with
    | some d, some t =>
      if s.fab.addr = some d.owner then [] else
      (c.written.filter fun j => crc64 (s.segRecords t d.params j).1 != (c.entries.getD j (0, 0, 0)).2.2).map fun j =>
        (c, j, d.owner)
    | _, _ => []

/-! ### Peer reads (R421) and delivered messages (R386) -/

/-- The byte ranges that an instance writes on this device: its outputs, a GLADE_BATCH's pyramid and ready word (R434, R444),
an ARRIVAL_UPDATE's slots (R299). -/
def State.instWrites (s : State) (p : Plan) (i : Nat × Nat) : List Piece :=
  let b := p.param i.1
  (((p.touches i.1 i.2).filter (·.1)).flatMap fun x => x.2.spans)
    ++ (if (p.op i.1).code = 0x0050 then
        (match p.outTd i.1 0 i.2 with
          | some o => (gladeOuts b o (p.outTd i.1 1 i.2)).flatMap TD.spans
          | none => [])
          ++ (if fld b 0x58 8 = 0 then [] else [⟨fld b 0x58 8 + 8 * i.2, 8⟩])
      else if (p.op i.1).code = 0x0040 then
        (match s.trn.shard (fld b 0 4) with
          | some d => if s.owns d || s.twins d then [⟨d.va, 2 * d.slotBytes⟩] else []
          | none => [])
      else [])

/-- Instances of the active step that write a byte of a range have completed. -/
def State.writersDone (s : State) (va len : Nat) : Bool :=
  match s.stepPlan with
  | none => true
  | some (st, p) => p.instances.all fun i =>
      st.finished i || !((s.instWrites p i).any fun y => overlaps y.va y.len va len)

/-- The region that a peer's access lies in, if it is registered and mapped (R206). -/
def State.peerRegion (s : State) (va len : Nat) (store : Bool) : Option Region :=
  (if store then s.rgn.inWritable va len else s.rgn.inMapping va len).filter (·.reg.isSome)

/-- Serves a peer read, or refuses it. -/
def State.servePeer (s : State) (r : PeerRead) : State :=
  match s.peerRegion r.va r.len false, s.resolveCount (agentCache 0) (r.va, r.len, false) with
  | none, _ | _, none => s.emit (.peerRefuse r.src)
  | some _, some s =>
    match s.accessIn (agentCache 0) r.va r.len false with
    | .ok => let x := s.readVa r.va r.len; x.2.emit (.peerData r.src x.1)
    | .hostHeld => { (s.recallHost r.va r.len false) with fab := { s.fab with peerReads := s.fab.peerReads ++ [r] } }
    | .stale | .waits => { s with fab := { s.fab with peerReads := s.fab.peerReads ++ [r] } }
    | .poison reg page line => s.servePoison r.va reg page line
    | .fault 4 a => (s.raise aFAULT cINTERNAL noTag (unitField uWalker 0 0) a).emit (.peerRefuse r.src)
    | .fault .. => s.emit (.peerRefuse r.src)

/-- A peer read may be served: the device has started the step, and the step's writers of the bytes are done. -/
def State.peerReady (s : State) (r : PeerRead) : Bool :=
  r.ring ≤ s.deviceRing || (match s.stp.active with
    | some st => decide (r.ring < st.ring) || (st.ring == r.ring && s.writersDone r.va r.len)
    | none => false)

/-- Serves the held peer reads whose time has come. -/
def State.servePeers (s : State) : State :=
  let now := s.fab.peerReads.filter s.peerReady
  if now.isEmpty then s else
  now.foldl (fun s r => s.servePeer r) { s with fab := { s.fab with peerReads := s.fab.peerReads.filter fun r => !s.peerReady r } }

/-- PEER_READ_REQUEST (R421). -/
def execPeerReadRequest (src ring va len : Nat) (s : State) : Host.Outcome State Fault Refusal :=
  .next (if s.powered then
      ({ s with fab := { s.fab with peerReads := s.fab.peerReads ++ [PeerRead.mk src ring va len] } }).servePeers
    else s)

/-- The oldest complete message of a context has been consumed: the context goes on with the flits behind it. -/
def State.consumed (s : State) (c : RecvCtx) (rest : List Bytes) : State :=
  let r := takeFlits c.held.length { c with complete := rest }
  let s := s.settleRctx r
  if 32 ≤ r.1.freed then s.ackCtx r.1 else s

/-- A peer MOVE's message goes to its address (R206): the state, and whether the message has been consumed. What the walk of a
poisoned table line gives is a TABLE fault of this device (R235, R247). -/
def State.takePush (s : State) (src va : Nat) (b : Bytes) : State × Bool :=
  match s.peerRegion va b.length true, s.resolveCount (agentCache 0) (va, b.length, true) with
  | none, _ | _, none => (s.emit (.peerRefuse src), true)
  | some _, some t =>
    match t.accessIn (agentCache 0) va b.length true with
    | .stale | .waits => (s, false)
    | .hostHeld => (s.recallHost va b.length true, false)
    | .fault 4 a => ((t.raise aFAULT cINTERNAL noTag (unitField uWalker 0 0) a).emit (.peerRefuse src), true)
    | .fault .. => (t.emit (.peerRefuse src), true)
    | _ => (t.writeVa va b, true)

/-- FLOW_MESSAGE_COMPLETE (R206, R384, R386): the oldest complete message of a context goes to its consumer: a peer MOVE's
tile to its address, a chain or gather message to the collectives. One whose time has not come waits in its context, and
holds back what follows (R410, R412). DESIGN CHOICE, log 157. -/
def execFlowMessageComplete (src ctx : Nat) (dest : Delivery) (s : State) : Host.Outcome State Fault Refusal :=
  .next (s.onSlots fun s =>
    match s.fab.rctx src ctx with
    | none => s
    | some c =>
      match c.complete with
      | [] => s
      | b :: rest =>
        if !s.powered then s else
        match dest with
        | .chain n =>
          let t := s.chainArrives n b
          if s.fab.earlyMsgs.length < t.fab.earlyMsgs.length then { t with fab := { t.fab with earlyMsgs := s.fab.earlyMsgs } }
          else (t.consumed c rest).redeliver
        | .tile va =>
          let x := s.takePush src va b
          if x.2 then x.1.consumed c rest else x.1)

end Sys2Proof.Machine
end

