-- ==== Sys2Proof/Machine/Coherence.lean ====
section
/-! DEFINITION. Coherence at the home Floors (R262 to R270), host snoops and host CXL.mem requests (R254 to
R256, R265, R266, R457), atomics (R542), memory-side adders (R214), write combining's age limit (R217), heat
and migration (R194 to R196), bandwidth windows (R212) and patrol scrub (R222). -/

namespace Sys2Proof

/-- Bytes of a memory-side add's element. -/
def AddFmt.width : AddFmt → Nat
  | .b32 => 4
  | .b16 => 2
  | .i32 => 4
  | .i64 => 8

/-- The request takes the line for writing or for exclusive use. -/
def CohOp.exclusive : CohOp → Bool
  | .store .. | .amo .. | .sc .. | .madd .. => true
  | _ => false

/-- The bytes that a request names lie inside its line. -/
def CohOp.fits : CohOp → Bool
  | .store o d | .sc o d => decide (o + d.length ≤ 64)
  | .amo _ w o _ => (w == 4 || w == 8) && o % w == 0 && decide (o < 64)
  | .madd f o _ => o % f.width == 0 && decide (o < 64)
  | _ => true

/-- Bytes that an access names. -/
def Access.len : Access → Nat
  | .read n => n
  | .write d => d.length

/-- The access is a write. -/
def Access.isWrite : Access → Bool
  | .read _ => false
  | .write _ => true

end Sys2Proof

namespace Sys2Proof.Machine

/-! ### Directory -/

/-- The directory entry of a line; an empty one when none is kept. -/
def Coh.dirOf (c : Coh) (line : Nat) : DirEntry := (c.dir.find? (·.line == line)).getD ⟨line, none, [], false, false⟩

/-- Keeps a line's entry; an entry that tracks no copy is not kept. -/
def Coh.setDir (c : Coh) (e : DirEntry) : Coh :=
  let rest := c.dir.filter (·.line != e.line)
  { c with dir := if e.owner.isNone && e.sharers.isEmpty && !e.host then rest else rest ++ [e] }

/-- Every core copy of a line goes, its data to memory first when modified; reservations of the line go, but
for one core's. -/
def State.dropCopies (s : State) (line : Nat) (but : Option Nat) : State :=
  let s := s.cleanRange (line * 64) 64
  let e := s.coh.dirOf line
  { s with coh := { (s.coh.setDir { e with owner := none, sharers := [] }) with
      cached := s.coh.cached.filter (·.line != line)
      resv := s.coh.resv.filter fun x => x.2 != line || some x.1 == but } }

/-- Sends a back-invalidation for a line unless one is outstanding (R256, R270). -/
def State.sendBinv (s : State) (line : Nat) (keep : Bool) : State :=
  if s.coh.binv.any (·.line == line) then s else
  { s with
    coh := { s.coh with binv := s.coh.binv ++ [⟨line, 0, keep⟩] }
    out := s.out ++ [.backInvalidate (s.rgn.hpaOfLine line) keep] }

/-- Entries of a Floor's directory (R262). -/
def dirEntries : Nat := 2097152

/-- A directory entry is given up: what it tracked is invalidated, modified data written back (R263). -/
def State.evictEntry (s : State) (line : Nat) : State :=
  (s.dropCopies line none).count 0x203 (match s.rgn.stackOfLine line with
    | some k => halfOfStack k
    | none => 0)

/-- The home's directory has an entry for a line, or one is freed for it: the oldest that tracks no host copy, or else the
oldest once the host's copy is recalled (R262, R263). DESIGN CHOICE, log 160. -/
def State.makeDirRoom (s : State) (line : Nat) : State × Bool :=
  if s.coh.dir.length < dirEntries || s.coh.dir.any (·.line == line) then (s, true) else
  let mine := s.coh.dir.filter fun e => s.rgn.homeOf e.line == s.rgn.homeOf line
  if mine.length < dirEntries then (s, true)
  else match mine.find? (!·.host) with
    | some e => (s.evictEntry e.line, true)
    | none => (match mine with
      | e :: _ => s.sendBinv e.line false
      | [] => s, false)

/-- A core takes a line for exclusive use and stores bytes at an offset in it, if any. -/
def State.takeOwned (s : State) (n : Nat) (r : Region) (line off o : Nat) (d : Bytes) : State :=
  let s := { (s.dropCopies line (some n)) with rgn := s.rgn.writeAbandons r.id (off / pageBytes) }
  let s := (s.wakeRange (line * 64) 64).heatAccess r.id off 1
  if !d.isEmpty && s.mem.poison.contains line then s.writeKey (line * 64 + o) d
  else
    let data := overlay (s.mem.read (line * 64) 64) o d
    let c := s.coh.setDir { s.coh.dirOf line with owner := some n, sharers := [] }
    { s with coh := { c.place s.rgn r line 1 with cached := c.cached ++ [⟨n, line, !d.isEmpty, data⟩] } }

/-! ### Atomic operations -/

/-- A number of `w` bytes as a signed one. -/
def signedOf (w x : Nat) : Int := if x < 2 ^ (8 * w - 1) then x else (x : Int) - 2 ^ (8 * w)

/-- The new value of an atomic operation on `w` bytes (R535, R542). -/
def amoNew (op : AmoOp) (w a b : Nat) : Nat :=
  let b := b % 2 ^ (8 * w)
  match op with
  | .add => (a + b) % 2 ^ (8 * w)
  | .swap => b
  | .xor => a ^^^ b
  | .and => a &&& b
  | .or => a ||| b
  | .min => if signedOf w a ≤ signedOf w b then a else b
  | .max => if signedOf w a ≤ signedOf w b then b else a
  | .minu => min a b
  | .maxu => max a b

/-- A memory-side add's sum (R214). -/
def addNew (fmt : AddFmt) (a v : Nat) : Nat :=
  match fmt with
  | .b32 => fadd a (v % 2 ^ 32)
  | .b16 => (fmtB16.encode ((fmtB16.decode a).add (fmtB16.decode (v % 2 ^ 16)))).1
  | .i32 => (a + v) % 2 ^ 32
  | .i64 => (a + v) % 2 ^ 64

/-! ### Transactions (R264) -/

/-- How the home ends with a request for now: it waits for the host, for a host-stale or flipping page; it is
complete; it is outstanding until the requester's acknowledgement. -/
inductive Served where
  | held
  | ended
  | stays
  deriving DecidableEq, Repr

/-- Two requests concern one line. -/
def Txn.sameLine (t u : Txn) : Bool := t.region == u.region && t.off / 64 == u.off / 64

/-- A request after which its requester may hold a copy of the line. -/
def Txn.tracked (t : Txn) : Bool :=
  match t.who with
  | some (.core _) => true
  | some (.agent _) => false
  | none => t.caching

/-- Where a request's answer goes; the host's at port 0. -/
def Txn.port (t : Txn) : Nat :=
  match t.who with
  | none => 0
  | some (.core ⟨n, _⟩) => 5 + n
  | some (.agent n) => 101 + n

/-- A read request is answered: the line's data, or the outcome of a poisoned line (R223, R543). -/
def State.answerRead (s : State) (t : Txn) (line : Nat) : State :=
  if s.mem.poison.contains line then
    match t.who with
    | some (.core ⟨n, _⟩) => s.emit (.coreFault n false)
    | _ => s.emit (.poisoned t.port)
  else s.emit (.data t.port (s.mem.read (line * 64) 64))

/-- The home serves a read: modified data is fetched and left unmodified with its holder; a core then shares
the line with those that hold it, and a host that takes a copy holds it alone (DEDUCED, log 13). -/
def State.serveRead (s : State) (t : Txn) (r : Region) (line : Nat) : State :=
  let s := ((s.cleanRange (line * 64) 64).wakeRange (line * 64) 64).heatAccess r.id t.off 1
  let alloc := !s.rgn.migrating r.id (t.off / pageBytes)
  let s := if alloc then { s with coh := s.coh.place s.rgn r line 1 } else s
  let s := s.answerRead t line
  if s.mem.poison.contains line then s else
  match t.who with
  | some (.core ⟨n, _⟩) =>
    if !alloc || s.coh.cached.any (fun c => c.core == n && c.line == line) then s
    else
      let e := s.coh.dirOf line
      let holds := fun (m : Nat) => m != n && s.coh.cached.any fun c => c.core == m && c.line == line
      let c := s.coh.setDir { e with owner := none, sharers := (e.sharers ++ e.owner.toList).filter holds ++ [n] }
      { s with coh := { c with cached := c.cached ++ [⟨n, line, false, s.mem.read (line * 64) 64⟩] } }
  | some (.agent _) => s
  | none =>
    if t.caching then
      let s := s.dropCopies line none
      { s with coh := s.coh.setDir { s.coh.dirOf line with host := true, clean := false } }
    else s

/-- The home serves an atomic operation of a core (R542); the old value is returned. -/
def State.serveAmo (s : State) (n : Nat) (r : Region) (line off : Nat) (op : AmoOp) (w o v : Nat) : State :=
  let s := s.cleanRange (line * 64) 64
  if s.mem.poison.contains line then s.emit (.coreFault n true)
  else
    let k := line * 64 + o
    let old := leNat (s.mem.read k w)
    let new := leBytes w (amoNew op w old v)
    let s := if r.cache = 2 then (s.writeRegion r (off / 64 * 64 + o) new) else s.takeOwned n r line off o new
    s.emit (.data (5 + n) (leBytes w old))

/-- The home serves a request. -/
def State.serveTxn (s : State) (t : Txn) : State × Served :=
  match (s.rgn.get t.region).filter fun r => decide (t.off < r.size) with
  | none =>
    match t.who with
    | some (.core ⟨n, _⟩) => (s.emit (.coreFault n t.op.exclusive), .ended)
    | _ => (s, .ended)
  | some r =>
    let line := r.key t.off / 64
    let page := t.off / pageBytes
    let e := s.coh.dirOf line
    match t.op with
    | .writebackArrive =>
      match t.who with
      | some (.core ⟨n, _⟩) =>
        match s.coh.wbs.find? fun c => c.core == n && c.line == line with
        | none => (s, .ended)
        | some c =>
          let e := if s.coh.cached.any (fun x => x.core == n && x.line == line) then e
            else { e with owner := e.owner.filter (· != n), sharers := e.sharers.filter (· != n) }
          let s := { s with coh := { s.coh.setDir e with wbs := s.coh.wbs.erase c } }
          (if c.dirty then
            ({ s with mem := s.mem.putLine line c.data }.wakeRange (line * 64) 64).heatAccess r.id t.off 1
          else s, .ended)
      | _ => (s, .ended)
    | .writebackIssue | .ack => (s, .ended)
    | .evict =>
      let s := s.evictEntry line
      (if e.host then s.sendBinv line false else s, .ended)
    | op =>
      if s.memStopped r t.off 1 || r.stalePage page || (t.who.isSome && r.flipping.contains page) then (s, .held)
      else if t.who.isSome && s.coh.binv.any (·.line == line) then (s, .held)
      else if t.who.isSome && op.exclusive && e.host then (s.sendBinv line false, .held)
      else if t.who.isSome && e.host && !e.clean then (s.sendBinv line true, .held)
      else
        let x := if t.tracked then s.makeDirRoom line else (s, true)
        let s := x.1
        if !x.2 then (s, .held) else
        match op, t.who with
        | .read, _ => (s.serveRead t r line, if t.who.isSome then .stays else .ended)
        | .store o d, some (.core ⟨n, _⟩) => (s.takeOwned n r line t.off o d, .stays)
        | .store o d, some (.agent _) => (s.writeRegion r (t.off / 64 * 64 + o) d, .stays)
        | .store o d, none =>
          let s := (s.dropCopies line none).wakeRange (line * 64) 64
          let s := { s with mem := s.mem.write (line * 64 + o) d }
          (s.combineRange (line * 64 + o) d.length, .ended)
        | .amo a w o v, some (.core ⟨n, _⟩) =>
          if r.cache = 2 && a != .add then (s.emit (.coreFault n true), .ended)
          else (s.serveAmo n r line t.off a w o v, .stays)
        | .lr, some (.core ⟨n, _⟩) =>
          let s := s.serveRead t r line
          let mine := s.coh.resv.filter (·.1 != n)
          (if s.mem.poison.contains line then { s with coh := { s.coh with resv := mine } }
           else { s with coh := { s.coh with resv := if r.cache = 2 then mine else mine ++ [(n, line)] } }, .stays)
        | .sc o d, some (.core ⟨n, _⟩) =>
          let ok := r.cache != 2 && s.coh.resv.contains (n, line)
          let s := if ok then s.takeOwned n r line t.off o d else s
          let s := { s with coh := { s.coh with resv := s.coh.resv.filter (·.1 != n) } }
          (s.emit (.data (5 + n) (leBytes 8 (b2n !ok))), .stays)
        | .madd f o v, _ =>
          (s.writeRegion r (t.off / 64 * 64 + o)
            (leBytes f.width (addNew f (leNat (s.readKey (line * 64 + o) f.width)) v)), .ended)
        | _, _ => (s, .ended)

/-- A core waits, or no longer waits, for an access (R544). -/
def State.coreWaits (s : State) (t : Txn) (w : Bool) : State :=
  match t.who with
  | some (.core ⟨n, _⟩) =>
    match s.cor.cores.get n with
    | some c => { s with cor := { s.cor with cores := s.cor.cores.set n { c with waiting := w } } }
    | none => s
  | _ => s

/-- The home serves a request, and after one that is complete the next that waits for its line. -/
def runTxn (n : Nat) (s : State) (t : Txn) : State :=
  let x := s.serveTxn t
  let push := fun (held : Bool) =>
    { x.1 with coh := { x.1.coh with txns := x.1.coh.txns ++ [{ t with held := held }] } }
  match x.2 with
  | .held => (push true).coreWaits t true
  | .stays => (push false).coreWaits t false
  | .ended =>
    let s := x.1.coreWaits t false
    match n with
    | 0 => s
    | n + 1 =>
      match s.coh.waiting.find? (·.sameLine t) with
      | some u => runTxn n { s with coh := { s.coh with waiting := s.coh.waiting.erase u } } u
      | none => s

/-- A request reaches the home: behind an outstanding transaction of its line it waits (R264). DEDUCED, log 53. -/
def State.request (s : State) (t : Txn) : State :=
  if s.coh.txns.any (·.sameLine t) then
    ({ s with coh := { s.coh with waiting := s.coh.waiting ++ [t] } }).coreWaits t true
  else runTxn s.coh.waiting.length s t

/-- The next waiting request of a line is served. -/
def State.nextTxn (s : State) (t : Txn) : State :=
  match s.coh.waiting.find? (·.sameLine t) with
  | some u => runTxn s.coh.waiting.length { s with coh := { s.coh with waiting := s.coh.waiting.erase u } } u
  | none => s

/-! ### Windows (R462) -/

/-- The region whose registration a window range lies in and that admits the access, with the offset. -/
def Rgn.admitted (g : Rgn) (source off len : Nat) (write : Bool) : Option (Region × Nat) :=
  g.regions.findSome? fun r =>
    match r.reg with
    | some x =>
      if decide (x.barOff ≤ off) && decide (off + len ≤ x.barOff + r.size) && bit x.sources source
          && (if write then x.write else x.read) then some (r, off - x.barOff) else none
    | none => none

/-- A window access that no row of R462 lets through: a read is unsupported, LOG attention. -/
def State.refuseWindow (s : State) (source off : Nat) (write : Bool) : State :=
  (if write then s else s.emit (.unsupported source)).raise aLOG 0 noTag
    (if source = 0 then unitField uHostPort 0 0 else unitField uLane ((s.hst.adapters.get (source - 1)).map (·.lg) |>.getD 0) 0)
    off

/-- A window access reaches its region (R462), or waits at the home of a flipping page, behind a line's transaction or for
the host's answer (R256, R260, R264, R270): whether it is over. -/
def State.serveWindow (s : State) (w : HeldWindow) : State × Bool :=
  let len := w.acc.len
  match w.place.bind fun x => (s.rgn.get x.1).map fun r => (r, x.2) with
  | none => (s.refuseWindow w.source w.off w.acc.isWrite, true)
  | some (r, o) =>
    if ((chunksOf o len).map fun c => c.1 / pageBytes).any r.stalePage then
      (s.refuseWindow w.source w.off w.acc.isWrite, true)
    else if s.memStopped r o len then (s, true)
    else match s.regionWait r o len w.acc.isWrite with
      | some s => (s, false)
      | none =>
        (match w.acc with
          | .write d => s.writeRegion r o d
          | .read n =>
            let x := s.readRegion r o n
            if (r.chunks o n).any fun c => (x.2.mem.poisonIn c.1 c.2).isSome then x.2.emit (.poisoned w.source)
            else x.2.emit (.data w.source x.1), true)

/-- A window access is served, or waits: behind an earlier one of its source and requester that waits it waits too, so that
writes of one source become visible in the order of receipt (R273). DEDUCED, log 15. -/
def State.takeWindow (s : State) (w : HeldWindow) : State :=
  let x := if s.hst.held.any fun v => v.source == w.source && v.requester == w.requester then (s, false)
    else s.serveWindow w
  if x.2 then x.1 else { x.1 with hst := { x.1.hst with held := x.1.hst.held ++ [w] } }

/-- A window access arrives; the registrations of that moment admit it or not (R461, R462). -/
def State.windowAccess (s : State) (source requester off : Nat) (acc : Access) : State :=
  if acc.len = 0 then s else
  s.takeWindow ⟨source, requester, off, acc, (s.rgn.admitted source off acc.len acc.isWrite).map fun x => (x.1.id, x.2)⟩

/-- The window accesses that wait are tried again, in order of arrival. -/
def State.retryWindows (s : State) : State :=
  s.hst.held.foldl State.takeWindow { s with hst := { s.hst with held := [] } }

/-- Reads that wait from a port whose link is down have no one to answer; writes received from it stay (R466, R469). -/
def Hst.dropReads (h : Hst) (source : Nat) : Hst :=
  { h with held := h.held.filter fun w => w.source != source || w.acc.isWrite }

/-- Every transaction that is held, and every window access that waits, is tried again, in order of arrival. -/
def State.retryHeld (s : State) : State :=
  ((s.coh.txns.filter (·.held)).foldl (fun s t =>
    runTxn s.coh.waiting.length { s with coh := { s.coh with txns := s.coh.txns.erase t } } t) s).retryWindows

/-- A requester exists: a core runs; an agent without a cache asks only what R269 and R270 give it. -/
def State.mayRequest (s : State) (who : CohAgent) (op : CohOp) : Bool :=
  match who with
  | .core ⟨n, _⟩ => !s.dieStopped n && (match s.cor.cores.get n with | some c => c.running | none => false)
      && (match op with | .madd .. => false | _ => true)
  | .agent _ => match op with | .read | .store .. | .ack => true | _ => false

/-- COHERENCE_REQUEST (R262 to R266, R269, R270, R540, R542 to R544). -/
def execCoherenceRequest (who : CohAgent) (region off : Nat) (op : CohOp) (s : State) :
    Host.Outcome State Fault Refusal :=
  .next (
    let t : Txn := ⟨some who, region, off, op, false, false⟩
    if !s.powered then s else
    match op with
    | .ack =>
      match s.coh.txns.find? fun u => u.sameLine t && u.who == some who && !u.held with
      | some u => ({ s with coh := { s.coh with txns := s.coh.txns.erase u } }).nextTxn u |>.retryWindows
      | none => s
    | .evict =>
      if s.coh.txns.any (·.sameLine t) then s else (s.serveTxn t).1
    | .writebackIssue =>
      match who, s.rgn.get region with
      | .core ⟨n, _⟩, some r =>
        match s.coh.cached.find? fun c => c.core == n && c.line == r.key off / 64 && c.dirty with
        | some c => { s with coh := { s.coh with cached := s.coh.cached.erase c, wbs := s.coh.wbs ++ [c] } }
        | none => s
      | _, _ => s
    | .writebackArrive => s.request t
    | op => if s.mayRequest who op && op.fits then s.request t else s)

/-! ### The host -/

/-- HOST_SNOOP (R265, R266): the answer needs no waiting; an outstanding transaction of a core that lost its
copy repeats its request. DEDUCED, log 52. -/
def execHostSnoop (hpa : Nat) (inv : Bool) (s : State) : Host.Outcome State Fault Refusal :=
  .next (
    if !s.powered || s.hst.link != .up then s else
    let line := (2 ^ 56 + hpa) / 64
    let dirty := (s.coh.cached ++ s.coh.wbs).find? fun c => c.line == line && c.dirty
    let s' := if inv then s.dropCopies line none else s.cleanRange (line * 64) 64
    let s' := s'.emit (.snoopAnswer (hpa / 64 * 64) (dirty.map (·.data)))
    match s.coh.txns.find? fun t => !t.held && (match s.rgn.get t.region with
        | some r => r.key t.off / 64 == line
        | none => false) with
    | some t =>
      match t.who, s'.rgn.get t.region with
      | some (.core ⟨n, _⟩), some r =>
        if inv && s.coh.cached.any (fun c => c.core == n && c.line == line) then
          match t.op with
          | .read | .lr => s'.serveRead t r line
          | _ => s'.takeOwned n r line t.off 0 []
        else s'
      | _, _ => s'
    | none => s')

/-- The STACK region and offset that an HDM offset reaches (R457). -/
def Rgn.byHdm (g : Rgn) (x : Nat) : Option (Region × Nat) :=
  (g.regions.find? fun r => r.kind == 0 && decide (r.hdmOff ≤ x) && decide (x < r.hdmOff + r.size)).map
    fun r => (r, x - r.hdmOff)

/-- HOST_HDM_ACCESS (R254, R255, R264, R457, R458). DESIGN CHOICE, log 51. -/
def execHostHdmAccess (hpa : Nat) (caching : Bool) (acc : Access) (s : State) :
    Host.Outcome State Fault Refusal :=
  .next (
    match s.rgn.hdmBase with
    | none => s
    | some b =>
      if !s.powered || s.hst.link != .up || hpa < b || b + 1152 * 2 ^ 30 ≤ hpa then s else
      let len := match acc with | .read n => n | .write d => d.length
      let o := hpa % 64
      if len = 0 || 64 < o + len then s else
      match (s.rgn.byHdm (hpa - b)).filter fun x => x.1.shared.contains (x.2 / pageBytes) with
      | none =>
        let s := s.raise aLOG 0 noTag (unitField uHostPort 0 0) hpa
        (match acc with
          | .read n => s.emit (.data 0 (List.replicate n 0xFF#8))
          | .write _ => s)
      | some (r, off) =>
        s.request ⟨none, r.id, off, (match acc with | .read _ => .read | .write d => .store o d), caching, false⟩)

/-- BACK_INVALIDATE_ANSWER (R256, R259, R270): the host's data, when modified, replaces the bytes that no agent
has written since; what waited for the answer goes on. -/
def execBackInvalidateAnswer (hpa : Nat) (data : Option Bytes) (s : State) :
    Host.Outcome State Fault Refusal :=
  .next (
    match s.coh.binv.find? fun b => s.rgn.hpaOfLine b.line == hpa / 64 * 64 with
    | none => s
    | some b =>
      let s := match data with
        | some d =>
          let old := s.mem.read (b.line * 64) 64
          let merged := (List.range 64).map fun i => if b.mask.getLsbD i then old.getD i 0#8 else d.getD i 0#8
          { s with mem := s.mem.putLine b.line merged }
        | none => s
      let e := s.coh.dirOf b.line
      let c := if e.host then s.coh.setDir (if b.keep then { e with clean := true } else { e with host := false })
        else s.coh
      ({ s with coh := { c with binv := c.binv.erase b } }).settleBias.retryHeld)

/-! ### Memory controllers -/

/-- MEMORY_SIDE_ADD (R214, R218, R264): a request to the line's home. -/
def execMemorySideAdd (region off : Nat) (fmt : AddFmt) (v : Nat) (s : State) :
    Host.Outcome State Fault Refusal :=
  .next (if s.powered && off % fmt.width == 0 then
      s.request ⟨some (.agent 0), region, off, .madd fmt (off % 64) v, false, false⟩
    else s)

/-- WC_DRAIN_AGE (R217): the entry's bytes already read as merged (R218); the entry goes. -/
def execWcDrainAge (region off : Nat) (s : State) : Host.Outcome State Fault Refusal :=
  .next (match s.rgn.get region with
    | some r => { s with mem := { s.mem with wc := s.mem.wc.filter (·.line != r.key off / 64) } }
    | none => s)

/-- HEAT_DECAY (R194): every counter shifts right by one bit. -/
def execHeatDecay (s : State) : Host.Outcome State Fault Refusal :=
  .next { s with rgn := { s.rgn with regions := s.rgn.regions.map fun r =>
    { r with heat := (r.heat.map fun h => (h.1, h.2 / 2)).filter (·.2 != 0) } } }

/-- MIGRATION_COPY_DONE (R194 to R196): the page's entry switches, and a page held back by the limit of 64 is promoted. A
promotion waits for room, also one whose paired demotion was abandoned, and a migration for the end of the page's outstanding
transactions. DESIGN CHOICE, log 158. -/
def execMigrationCopyDone (region page : Nat) (s : State) : Host.Outcome State Fault Refusal :=
  .next (
    match s.rgn.migrations.find? (fun m => m.region == region && m.page == page), s.rgn.get region with
    | some m, some r =>
      let busy := s.coh.txns.any fun t => t.region == region && t.off / pageBytes == page
      if busy || (m.toT2 && decide (r.t2Pages ≤ r.inT2.length)) then s
      else
        let s := { s with rgn := s.rgn.abandonMigration region page }
        let s := s.migrate region page m.toT2
        { s with rgn := s.rgn.promoteHot }.count 0x304 (r.stackOf (page * pageBytes))
    | _, _ => s)

/-- Transfers of a partition that a ceiling admits in a window (R212). -/
def ceilTransfers (ceil : Nat) : Nat := if ceil = 0 then 18204 else ceil * 18204 / 256

/-- One transfer of a window: the first waiting request of a partition below its floor, or else the first of
one below its ceiling; partition 16 is the device's own (R211). DESIGN CHOICE, log 159. -/
def pickTransfer (ceil floor_ : List Nat) (served : List Nat) (waiting : List Nat) : Option Nat :=
  let may := waiting.filter fun p => decide (served.getD p 0 < ceilTransfers (ceil.getD p 0))
  let done := served.sum
  let low := may.find? fun p =>
    decide (served.getD p 0 * 256 < (if p = 16 then 32 else floor_.getD p 0) * done)
  low.orElse fun _ => may.head?

/-- The transfers of a window, one after another; `served` counts by partition. -/
def windowTransfers (ceil floor_ : List Nat) : Nat → List Nat → List Nat → List Nat
  | 0, served, _ => served
  | n + 1, served, waiting =>
    match pickTransfer ceil floor_ served waiting with
    | none => served
    | some p => windowTransfers ceil floor_ n (served.set p (served.getD p 0 + 1)) (waiting.erase p)

/-- BANDWIDTH_WINDOW (R212): what each controller completes of the requests that wait. -/
def execBandwidthWindow (waiting : List (Nat × List Nat)) (s : State) : Host.Outcome State Fault Refusal :=
  .next { s with mem := { s.mem with served := waiting.flatMap fun w =>
    let got := windowTransfers s.mem.bwCeil s.mem.bwFloor (min 18204 w.2.length) (List.replicate 17 0)
      (w.2.filter (· < 17))
    ((List.range 17).filter fun p => got.getD p 0 != 0).map fun p => (w.1, p, got.getD p 0) } }

/-- PATROL_SCRUB (R221 to R225, R235): lines of the stack are read and corrected; an uncorrectable line is poisoned
and recorded, with FAULT attention. Number 64 names the table space; a region that does not exist stands for a line outside
every region (DEDUCED, log 30). An error that another read meets is such a scrub just before it (DEDUCED, log 155). -/
def execPatrolScrub (stack : Fin 24) (lines : List (Nat × Nat × Ecc)) (s : State) :
    Host.Outcome State Fault Refusal :=
  .next (if !s.powered || s.blockStopped (· == .stack stack) then s else lines.foldl (fun s l =>
    match s.rgn.get l.1 with
    | some r =>
      if r.stackOf l.2.1 != stack.val || !r.pageInT2 (l.2.1 / pageBytes) || r.size ≤ l.2.1 then s
      else
        let s := (s.wakeRange (r.key l.2.1) 1).eccRead (r.key l.2.1 / 64) l.2.2
        if l.2.2 == .uncorrectable then
          s.raise aFAULT 0 noTag (unitField uStack stack.val 0) (r.id * 2 ^ 42 + l.2.1 / 64 * 64)
        else s
    | none =>
      let s := { s with mem := { s.mem with selfRefresh := s.mem.selfRefresh.filter (· != stack.val) } }
      match l.2.2 with
      | .ok => s
      | .corrected => s.correctIn stack.val
      | .uncorrectable =>
        let s := if l.1 = 64 then s.markPoison (tblLine l.2.1) else s
        (s.badLine stack.val ((l.1 * 2 ^ 42 + l.2.1) / 64)).raise aFAULT 0 noTag (unitField uStack stack.val 0) 0) s)

end Sys2Proof.Machine
end

