-- ==== Sys2Proof/Machine/Host.lean ====
section
/-! DEFINITION. The host port and its link (R450 to R473, R569, R575), the HDM decoder (R456), BAR2 and adapter
windows (R460 to R465), adapter ports (R466, R635) and interrupt messages (R549). -/

namespace Sys2Proof.Machine

/-! ### Link loss -/

/-- A line of host memory. -/
def isHostLine (line : Nat) : Bool := decide (2 ^ 56 ≤ line * 64)

/-- Step 3 of R469: host bits clear, back-invalidations count as answered with no copy; the host's waiting
requests and the copies of host lines are lost. -/
def State.dropHostCopies (s : State) : State :=
  let prog := s.mbx.prog.map fun p => match p.work with
    | .biasDevice .. => { p with lost := true }
    | _ => p
  { s with
    mbx := { s.mbx with prog := prog }
    coh := { s.coh with
      dir := (s.coh.dir.map fun e => { e with host := false, clean := false }).filter fun e =>
        (e.owner.isSome || !e.sharers.isEmpty) && !isHostLine e.line
      cached := s.coh.cached.filter fun c => !isHostLine c.line
      wbs := s.coh.wbs.filter fun c => !isHostLine c.line
      resv := s.coh.resv.filter fun c => !isHostLine c.2
      txns := s.coh.txns.filter fun t => t.who.isSome
      waiting := s.coh.waiting.filter fun t => t.who.isSome
      binv := [] } }

/-- Step 5 of R469: registrations lose the host port, HOST and TIERED regions become host-stale, the HDM
decoder is uncommitted; every migration is abandoned (R199). DEDUCED, log 41. -/
def Rgn.hostLost (g : Rgn) : Rgn :=
  { g with
    hdmBase := none
    migrations := []
    regions := g.regions.map fun r =>
      { r with
        reg := r.reg.map fun x => { x with sources := x.sources / 2 * 2 }
        stale := r.stale || r.kind != 0 } }

/-- The sequence of R469 on link loss; what waited for the host's copies goes on after step 3, before the registrations change. -/
def State.linkLoss (s : State) : State :=
  let s := s.dropHostCopies.dmaHostLost.settleBias
  let s := ({ s with hst := s.hst.dropReads 0 }).retryHeld
  ({ s with
    rgn := s.rgn.hostLost
    hst := { s.hst with
      link := if s.aon.perstN then .training else .down
      width := 0, downs := s.hst.downs + 1, helloSeen := false } }).raise aHOST_LINK 0 noTag 0 1

/-- HOST_LINK_LOSS (R467, R469): every cause has the same treatment. -/
def execHostLinkLoss (_cause : LinkLossCause) (s : State) : Host.Outcome State Fault Refusal :=
  .next (if s.powered && s.hst.link == .up then s.linkLoss else s)

/-- HOST_PERST_ASSERT (R569): a link loss when the link is up; nothing else is reset. -/
def execHostPerstAssert (s : State) : Host.Outcome State Fault Refusal :=
  .next (
    let up := s.powered && s.hst.link == .up
    let s := { s with aon := { s.aon with perstN := false } }
    let s := if up then s.linkLoss else s
    { s with hst := { s.hst with link := .down } })

/-- HOST_PERST_RELEASE (R575): training begins once cold-start step 6 has completed. -/
def execHostPerstRelease (s : State) : Host.Outcome State Fault Refusal :=
  .next (
    let s := { s with aon := { s.aon with perstN := true } }
    if s.powered && s.aon.tickOn && s.hst.link == .down then { s with hst := { s.hst with link := .training } } else s)

/-- HOST_LINK_UP (R450, R575): the port trains at x16, x8 or x4. -/
def execHostLinkUp (width : Nat) (s : State) : Host.Outcome State Fault Refusal :=
  .next (if s.powered && s.aon.perstN && s.hst.link == .training && [16, 8, 4].contains width then
      { s with hst := { s.hst with link := .up, width := width, helloSeen := false } }
    else s)

/-- HOST_PORT_DOWN_AT_START (R452): the port stays down. -/
def execHostPortDownAtStart (s : State) : Host.Outcome State Fault Refusal :=
  .next (if s.powered && s.aon.perstN && s.hst.link == .training then
      ({ s with hst := { s.hst with link := .down } }).raise aHOST_LINK 0 noTag 0 0
    else s)

/-- HOST_LINK_RETRAIN (R467, R468): invisible at the same width; LOG at a narrower one. -/
def execHostLinkRetrain (width : Nat) (s : State) : Host.Outcome State Fault Refusal :=
  .next (
    if !(s.powered && s.hst.link == .up && [16, 8, 4].contains width && decide (width ≤ s.hst.width)) then s else
    let s' := { s with hst := { s.hst with width := width, retrains := s.hst.retrains + 1 } }
    if width < s.hst.width then s'.raise aLOG 0 noTag (unitField uHostPort 0 0) 0 else s')

/-- HDM_DECODER_COMMIT (R456): a base that is a multiple of 256 MiB and 1 way; otherwise the decoder carries no
traffic. -/
def execHdmDecoderCommit (base ways : Nat) (s : State) : Host.Outcome State Fault Refusal :=
  .next (if s.powered && s.hst.link == .up then
      { s with rgn := { s.rgn with hdmBase := if base % 2 ^ 28 = 0 && ways = 1 then some base else none } }
    else s)

/-! ### Windows (R460 to R465) -/

/-- BAR2_WINDOW_ACCESS (R453, R460 to R463): the requester counts for the order of R273. -/
def execBar2WindowAccess (requester off : Nat) (acc : Access) (s : State) : Host.Outcome State Fault Refusal :=
  .next (if s.powered && s.hst.link == .up && decide (off < 2 ^ 42) then s.windowAccess 0 requester off acc else s)

/-! ### Adapter ports -/

/-- The adapter port with a number. -/
def Hst.adapter (h : Hst) (i : Nat) : Option Adapter := h.adapters.get i

/-- The state with an adapter port changed. -/
def State.setAdapter (s : State) (i : Nat) (a : Adapter) : State :=
  { s with hst := { s.hst with adapters := s.hst.adapters.set i a } }

/-- An adapter port's link is up. -/
def State.adapterUp (s : State) (i : Nat) : Bool :=
  s.powered && (match s.hst.adapter i with | some a => a.pi == 5 | none => false)

/-- An upstream request that the port does not support (R465). -/
def State.refuseUpstream (s : State) (port addr : Nat) : State :=
  (s.emit (.unsupported (port + 1))).raise aLOG 0 noTag
    (unitField uLane ((s.hst.adapter port).map (·.lg) |>.getD 0) 0) addr

/-- ADAPTER_WINDOW_ACCESS (R462, R464, R465). -/
def execAdapterWindowAccess (port : Fin 4) (addr : Nat) (acc : Access) (s : State) :
    Host.Outcome State Fault Refusal :=
  .next (
    if !s.adapterUp port then s
    else if 0x100000000000 ≤ addr && addr < 0x140000000000 then
      s.windowAccess (port.val + 1) 0 (addr - 0x100000000000) acc
    else s.refuseUpstream port.val addr)

/-- A core, stopped or running. -/
def Cor.core (c : Cor) (n : Nat) : CoreSt := c.cores.getD n CoreSt.reset

/-- The state with a core changed; one that runs and does not sleep is out of its low-power state (R554). -/
def State.setCore (s : State) (n : Nat) (c : CoreSt) : State :=
  let s := if c.running && !c.sleeping then s.wakeBlock (.core (Fin.ofNat 96 n)) else s
  { s with cor := { cores := s.cor.cores.set n c } }

/-- A write of an identity to an IMSIC file by core physical address: the identity becomes pending and a core
asleep wakes (R539, R548, R549); none when the address is no file's. -/
def State.imsicWrite (s : State) (addr data : Nat) : Option State :=
  let off := addr - 0x00F100000000
  let n := off / 0x2000
  if addr < 0x00F100000000 || 96 ≤ n || off % 0x1000 ≠ 0 then none else
  let c := s.cor.core n
  let id := data % 2 ^ 32
  if id = 0 || 255 < id then some s else
  let add := fun (l : List Nat) => if l.contains id then l else l ++ [id]
  some (s.setCore n (if off % 0x2000 = 0 then { c with imsicM := add c.imsicM, sleeping := false }
    else { c with imsicS := add c.imsicS, sleeping := false }))

/-- ADAPTER_INTERRUPT_MSG (R465, R549). -/
def execAdapterInterruptMsg (port : Fin 4) (addr data : Nat) (s : State) : Host.Outcome State Fault Refusal :=
  .next (if !s.adapterUp port then s else
    match s.imsicWrite addr data with
    | some s' => s'
    | none => s.refuseUpstream port.val addr)

/-- ADAPTER_LINK_DOWN (R466, R635): the port drives AP_PERST_N low; registrations and the writes received stay. -/
def execAdapterLinkDown (port : Fin 4) (s : State) : Host.Outcome State Fault Refusal :=
  .next (match s.hst.adapter port with
    | some a =>
      if !s.powered || a.pi != 5 then s else
      let s := { s with hst := s.hst.dropReads (port.val + 1) }
      (s.setAdapter port { a with pi := 2, downs := a.downs + 1, perstHigh := false, width := 0, rate := 0 }).raise
        aHOST_LINK 0 noTag (port.val + 1) 2
    | none => s)

/-- ADAPTER_PERST_TIMEOUT (R635): 100 ms after the fall the port trains again. -/
def execAdapterPerstTimeout (port : Fin 4) (s : State) : Host.Outcome State Fault Refusal :=
  .next (match s.hst.adapter port with
    | some a => if s.powered && a.pi == 2 then s.setAdapter port { a with pi := 3, perstHigh := true } else s
    | none => s)

/-- ADAPTER_LINK_UP (R464, R635): x8 or x4 at 64, 32 or 16 GT/s; no attention. -/
def execAdapterLinkUp (port : Fin 4) (width rate : Nat) (s : State) : Host.Outcome State Fault Refusal :=
  .next (match s.hst.adapter port with
    | some a =>
      if s.powered && a.pi == 3 && [8, 4].contains width && [64, 32, 16].contains rate then
        s.setAdapter port { a with pi := 5, width := width, rate := rate }
      else s
    | none => s)

/-- BRIDGE_CRC_FAIL (R31, R32): a transfer on a bridge group fails its CRC and is replayed; with its sixteenth replay in a row
failed too, the group fails and no further step begins. DEDUCED, log 19. -/
def execBridgeCrcFail (failed : BridgeTransfer) (s : State) : Host.Outcome State Fault Refusal :=
  .next (if !s.powered then s else
    let n := match s.dev.bridgeFails.get failed.group with
      | some x => if x.1 = failed.transfer then x.2 + 1 else 1
      | none => 1
    let s := { s with dev := { s.dev with bridgeFails := s.dev.bridgeFails.set failed.group (failed.transfer, n) } }
    if n = 17 then
      { s with dev := { s.dev with haltSteps := true } }.unitFails ⟨uBridge, failed.group⟩
    else s)

end Sys2Proof.Machine
end

