-- ==== Sys2Proof/Machine/Cores.lean ====
section
/-! DEFINITION. The server cores (R535 to R551): loading, starting, stopping, their I/O accesses, timers and
WFI. Cores execute software; of it the block sees the accesses and events that leave a core. -/

namespace Sys2Proof.Machine

/-- Region and offset of a core physical address in memory space (R540). -/
def Rgn.byPa (g : Rgn) (pa : Nat) : Option (Region × Nat) :=
  if pa < 0x0080000000000000 then none else
  let x := pa - 0x0080000000000000
  if 64 ≤ x / 2 ^ 42 then none
  else (g.get (x / 2 ^ 42)).bind fun r => if x % 2 ^ 42 < r.size then some (r, x % 2 ^ 42) else none

/-- Cores that two mask words name. -/
def maskCores (lo hi : Nat) : List Nat := (List.range 96).filter fun n => if n < 64 then bit lo n else bit hi (n - 64)

/-- Some core runs. -/
def Cor.anyRunning (c : Cor) : Bool := c.cores.any (·.2.running)

/-- A core stops (R544, R547): an access that waits is abandoned, one under way ends, its caches are written
back and invalidated. -/
def State.stopCore (s : State) (n : Nat) : State :=
  let mine := fun (t : Txn) => match t.who with
    | some (.core m) => m.val == n
    | _ => false
  let lines := (s.coh.cached ++ s.coh.wbs).filter (·.core == n)
  let mem := lines.foldl (fun (m : Mem) c => if c.dirty then m.putLine c.line c.data else m) s.mem
  let done := s.coh.txns.filter mine
  let dir := (s.coh.dir.map fun e =>
      { e with owner := if e.owner == some n then none else e.owner, sharers := e.sharers.filter (· != n) }).filter
    fun e => e.owner.isSome || !e.sharers.isEmpty || e.host
  let s := { s with
    mem := mem
    coh := { s.coh with
      dir := dir
      cached := s.coh.cached.filter (·.core != n)
      wbs := s.coh.wbs.filter (·.core != n)
      resv := s.coh.resv.filter (·.1 != n)
      waiting := s.coh.waiting.filter fun t => !mine t
      txns := s.coh.txns.filter fun t => !mine t } }
  let s := s.setCore n { (s.cor.core n) with running := false, sleeping := false, waiting := false }
  done.foldl (fun s t => s.nextTxn t) s

/-- Every running core stops. -/
def State.stopCores (s : State) : State :=
  ((s.cor.cores.filter (·.2.running)).map (·.1)).foldl (fun s n => s.stopCore n) s

/-- The body of CORES_LOAD (R530, R545, R636). -/
def coresLoadBody (q : Req) (s : State) : State × Resp :=
  let src := q.f 0 8
  let len := q.f 0x10 8
  if !(q.zb 0x18 8 && vaOk src) || len = 0 || 2 ^ 36 ≤ len then (s, rcode cBAD_ARG) else
  match s.rgn.byPa (q.f 8 8) with
  | none => (s, rcode cBAD_ARG)
  | some (r, off) =>
    if r.kind ≠ 0 || r.size < off + len then (s, rcode cBAD_ARG)
    else if s.cor.anyRunning then (s, rcode cBUSY)
    else match s.cmdAccess src len false cFAULT_XLATE with
      | .error (c, s) => s.cmdFailed c fun s => s.undefineRegion r off len
      | .ok s =>
        let x := s.readVa src len
        ((x.2.writeRegion r off x.1).fence, rcode cOK)

/-- CORES_LOAD (R530, R545). -/
def execCoresLoad (k : SlotId) (s : State) : Host.Outcome State Fault Refusal :=
  .next (s.take k (·.opcode == 0x0A01) coresLoadBody)

/-- The state a core starts with (R546). -/
def CoreSt.started (c : CoreSt) (n entry arg : Nat) : CoreSt :=
  { CoreSt.reset with
    running := true
    pc := BitVec.ofNat 64 entry
    x := ((List.replicate 32 0#64).set 10 (BitVec.ofNat 64 arg)).set 11 (BitVec.ofNat 64 n)
    mtimecmp := c.mtimecmp, stimecmp := c.stimecmp, mtip := c.mtip, stip := c.stip
    imsicM := c.imsicM, imsicS := c.imsicS }

/-- The body of CORES_START (R530, R546). -/
def coresStartBody (q : Req) (s : State) : State × Resp :=
  let ns := maskCores (q.f 0 8) (q.f 8 4)
  let entry := q.f 0x10 8
  if !q.zb 0x0C 4 || entry % 2 = 1 || (s.rgn.byPa entry).isNone then (s, rcode cBAD_ARG)
  else if ns.any fun n => (s.cor.core n).running then (s, rcode cBUSY)
  else (ns.foldl (fun s n => s.setCore n ((s.cor.core n).started n entry (q.f 0x18 8))) s, rcode cOK)

/-- CORES_START (R530, R546). -/
def execCoresStart (k : SlotId) (s : State) : Host.Outcome State Fault Refusal :=
  .next (s.take k (·.opcode == 0x0A02) coresStartBody)

/-- The body of CORES_STOP (R530, R547). -/
def coresStopBody (q : Req) (s : State) : State × Resp :=
  if !q.zb 0x0C 4 then (s, rcode cBAD_ARG) else
  let ns := (maskCores (q.f 0 8) (q.f 8 4)).filter fun n => (s.cor.core n).running
  (ns.foldl (fun s n => s.stopCore n) s, rcode cOK)

/-- CORES_STOP (R530, R544, R547). -/
def execCoresStop (k : SlotId) (s : State) : Host.Outcome State Fault Refusal :=
  .next (s.take k (·.opcode == 0x0A03) coresStopBody)

/-! ### I/O accesses (R539, R541) -/

/-- The access stores. -/
def accStores : CoreAccess → Bool
  | .load _ => false
  | .store _ | .amo => true
  | .vector w => w

/-- A naturally aligned scalar access of 4 or 8 bytes. -/
def ioScalar (pa : Nat) : CoreAccess → Bool
  | .load n => (n == 4 || n == 8) && pa % n == 0
  | .store d => (d.length == 4 || d.length == 8) && pa % d.length == 0
  | _ => false

/-- Bytes written into a compare register. -/
def patch64 (v : BitVec 64) (off : Nat) (d : Bytes) : BitVec 64 :=
  BitVec.ofNat 64 (leNat (overlay (leBytes 8 v.toNat) off d))

/-- A scalar access of a core to an I/O area outside the core slots; none when no area holds the address.
DEDUCED, log 55. DESIGN CHOICE, log 56. -/
def State.coreIo (s : State) (n pa : Nat) (acc : CoreAccess) : Option State :=
  let fault := s.emit (.coreFault n (accStores acc))
  if 0x00F000080000 ≤ pa && pa < 0x00F000090000 then
    some (match acc with
      | .load k => s.emit (.data (5 + n) (s.infoRead (pa - 0x00F000080000) k))
      | _ => fault)
  else if 0x00F100000000 ≤ pa && pa < 0x00F100000000 + 0x2000 * 96 then
    some (match acc with
      | .load k => s.emit (.data (5 + n) (zeros k))
      | .store d => if d.length = 4 then (s.imsicWrite pa (leNat d)).getD s else s
      | _ => fault)
  else if 0x00F200000000 ≤ pa && pa < 0x00F200000000 + 8 * 96 then
    let m := (pa - 0x00F200000000) / 8
    let c := s.cor.core m
    some (match acc with
      | .load k => s.emit (.data (5 + n) (((leBytes 8 c.mtimecmp.toNat).drop (pa % 8)).take k))
      | .store d =>
        let v := patch64 c.mtimecmp (pa % 8) d
        s.setCore m { c with mtimecmp := v, mtip := decide (v.toNat ≤ s.aon.tick.toNat) }
      | _ => fault)
  else if 0x0020000000000000 ≤ pa && pa < 0x0020000000000000 + 4 * 2 ^ 28
      || 0x0040000000000000 ≤ pa && pa < 0x0040000000000000 + 4 * 2 ^ 44 then
    let cfg := decide (pa < 0x0040000000000000)
    let x := if cfg then pa - 0x0020000000000000 else pa - 0x0040000000000000
    let span := if cfg then 2 ^ 28 else 2 ^ 44
    let s' := if s.adapterUp (x / span) then s.emit (.adapterAccess (x / span) cfg (x % span) acc) else s
    some (match acc with
      | .load k => let f := s'.freeBytes k; f.2.emit (.data (5 + n) f.1)
      | _ => s')
  else none

/-- CORE_IO_ACCESS (R485, R539 to R541, R543). An access inside memory space is no I/O access. -/
def execCoreIoAccess (core : Fin 96) (pa : Nat) (acc : CoreAccess) (s : State) :
    Host.Outcome State Fault Refusal :=
  .next (
    let n := core.val
    let fault := s.emit (.coreFault n (accStores acc))
    if !s.powered || s.dieStopped n || !(s.cor.core n).running || (s.cor.core n).waiting then s
    else if 0x00F000000000 ≤ pa && pa < 0x00F000060000 then
      (match acc with
        | .load k => s.coreSlotAccess n (pa - 0x00F000000000) (.read k)
        | .store d => s.coreSlotAccess n (pa - 0x00F000000000) (.write d)
        | _ => fault)
    else if (s.rgn.byPa pa).isSome then s
    else if !ioScalar pa acc then fault
    else (s.coreIo n pa acc).getD fault)

/-! ### Timers and WFI -/

/-- An interrupt is pending for a core. -/
def CoreSt.irq (c : CoreSt) : Bool := c.mtip || c.stip || !c.imsicM.isEmpty || !c.imsicS.isEmpty

/-- CORE_TIMER_COMPARE (R535, R548, R550): DEV_TICK has reached the compare value. -/
def execCoreTimerCompare (core : Fin 96) (which : TimerCmp) (s : State) : Host.Outcome State Fault Refusal :=
  .next (
    let c := s.cor.core core
    let c' := match which with
      | .m => { c with mtip := c.mtip || decide (c.mtimecmp.toNat ≤ s.aon.tick.toNat) }
      | .s v => { c with stimecmp := v, stip := decide (v.toNat ≤ s.aon.tick.toNat) }
    if !s.powered then s
    else s.setCore core { c' with sleeping := c'.sleeping && !c'.irq })

/-- CORE_WFI (R548): the core sleeps until an interrupt is pending for it. DEDUCED, log 57. -/
def execCoreWfi (core : Fin 96) (s : State) : Host.Outcome State Fault Refusal :=
  .next (
    let c := s.cor.core core
    if s.powered && !s.dieStopped core.val && c.running && !c.waiting && !c.irq then s.setCore core { c with sleeping := true } else s)

end Sys2Proof.Machine
end

