-- ==== Sys2Proof/Machine/Discovery.lean ====
section
/-! DEFINITION. How the machine assembles itself: the fabric at start-up (R365 to R370), training and identity
(R368, R377, R391, R394), link-state records (R389, R390), discovery (R392), the barriers (R392, R395, R396), joining
(R398, R602 to R605), FABRIC_STATUS, FABRIC_MAP_LOAD and PORT_INFO (R400 to R402, R507). -/

namespace Sys2Proof.Machine

/-! ### Start-up -/

/-- Axis sizes and coordinate of a carrier record, when they are readable for the fabric (R365). -/
def carrierPlace (b : Bytes) : Option ((Nat × Nat × Nat) × Nat) :=
  let g := byteAt b
  if 1 ≤ g 0x0D && g 0x0D ≤ 32 && 1 ≤ g 0x0E && g 0x0E ≤ 32 && 1 ≤ g 0x0F && g 0x0F ≤ 16
      && g 0x10 < g 0x0D && g 0x11 < g 0x0E && g 0x12 < g 0x0F
  then some ((g 0x0D, g 0x0E, g 0x0F), addrOf (g 0x10) (g 0x11) (g 0x12)) else none

/-- BUNDLE_MAP codes of a record. -/
def bundleCodes (b : Bytes) : List Nat := (List.range 36).map fun p => bits (fld b 0x18 16) (3 * p + 2) (3 * p)

/-- The default map (R369). -/
def defaultCodes : List Nat := (List.range 36).map fun p => p % 18 / 3

/-- The fabric engines after the identity record is read (R365 to R370): `ap` holds bit g for an AP group LGg.
Ports train from step 9 on. DEDUCED, log 66. -/
def Fab.init (record : Option Bytes) (ap : Nat) (devid tick : Nat) : Fab :=
  let place := record.bind carrierPlace
  let sizes := (place.map (·.1)).getD (0, 0, 0)
  let held := match record with | some b => if place.isSome then some (bundleCodes b) else none | none => none
  let codes := match held with
    | some c => if c.contains 7 then defaultCodes else c
    | none => defaultCodes
  let port := fun (p : Nat) =>
    let c := codes.getD p 0
    let one := match bundleAxis c with | .x => sizes.1 == 1 | .y => sizes.2.1 == 1 | .z => sizes.2.2 == 1
    let absent := bit ap (p / 2)
    let unused := absent || c == 6 || one
    (p, ({ bundle := c, unused := unused, absent := absent, pi := if absent then 0 else if unused then 1 else 3,
           trained := false, verified := false, inBundle := false, probation := false, expect := 0, next := 0,
           unacked := [], waiting := [], nakSent := false, retrains := [], downs := 0, fecCorr := 0,
           fecUncorr := 0, replays := 0, retrainCount := 0, laneErr := [0, 0, 0, 0], far := none } : Port))
  { Fab.reset with
    fs := if place.isSome then .training else .isolated
    reason := if place.isSome then 0 else 1
    startTick := tick, devid := BitVec.ofNat 64 devid, addr := place.map (·.2)
    sx := sizes.1, sy := sizes.2.1, sz := sizes.2.2
    ports := (List.range 36).map port }

/-- A record in use whose BUNDLE_MAP holds the reserved code (R369). -/
def badBundleMap (record : Option Bytes) : Bool :=
  match record with
  | some b => (carrierPlace b).isSome && (bundleCodes b).contains 7
  | none => false

/-! ### Members and routes, seen by the host -/

/-- Addresses without a record, or in CONFLICT (R390). -/
def Fab.unrecorded (f : Fab) : List Nat := f.allAddrs.filter fun a => (f.record a).isNone || f.conflicts.contains a

/-- Addresses of the torus that are not members or, before the member set forms, have no record (R402). -/
def Fab.missing (f : Fab) : List Nat :=
  match f.members with
  | some l => f.allAddrs.filter fun a => !l.contains a
  | none => f.unrecorded

/-- Members that are unreachable. -/
def Fab.cutOff (f : Fab) : List Nat :=
  match f.members with
  | some l => l.filter f.unreachable
  | none => []

/-! ### Barriers (R392, R395, R603) -/

/-- The addresses of a barrier's chain along an axis: for a readiness barrier every one, otherwise those of the
device's own bitmap. -/
def Fab.barrierLine (f : Fab) (b : Barrier) (me : Nat) : List Nat :=
  ((List.range (f.sizeOf b.axis)).map fun c => withCoord me b.axis c).filter fun a => b.kind == 0 || b.own.contains a

/-- Addresses in both lists. -/
def meet (a b : List Nat) : List Nat := a.filter b.contains

/-- The device enters READY or PARTIAL. -/
def State.becomeMember (s : State) (members : List Nat) : State :=
  let whole := s.fab.allAddrs.all fun a => members.contains a || s.fab.retired.contains a
  let next := if whole then FsState.ready else FsState.partly
  let s := { s with fab := { s.fab with
    fs := next, reason := 0, members := some members
    readyTick := if s.fab.fs == next then s.fab.readyTick else s.aon.tick.toNat } }
  (s.fabricNote (s.fab.addr.getD 0xFFFF) []).checkReach

/-- The result of a readiness barrier. -/
def State.readyResult (s : State) : State := (s.becomeMember s.fab.allAddrs).beginResume

/-- The result of a partial barrier (R396). -/
def State.partialResult (s : State) (me : Nat) (set : List Nat) : State :=
  if set.contains me then
    let s := s.becomeMember set
    ({ s with fab := { s.fab with fs := .partly } }).beginResume
  else { s with fab := { s.fab with fs := .isolated, reason := 2 } }

/-- The receive contexts of an admitted address go, and send contexts to it start afresh: its package holds none of
their state (DEDUCED, log 20). -/
def Fab.renewContexts (f : Fab) (a : Nat) : Fab :=
  { f with
    recv := f.recv.filter (·.src != a)
    send := f.send.map fun c => if c.dst == a then
      { c with next := 0, credits := 256, kept := [], unacked := [], waiting := [], resends := 0, failed := false } else c }

/-- A LATE device in the result joins: it floods its record and votes for the step that waits for it, with its
donor's ring when it holds no shard (R604, R605, R356). -/
def State.admitted (s : State) : State :=
  let bare := s.held.isEmpty
  let s := { s with
    dev := { s.dev with joined := true }
    pln := { s.pln with
      awaitContinuity := s.pln.plans.isEmpty, awaitRing := bare, loads := 0, continuity := none }
    stp := { s.stp with resume := some (s.stp.resume.getD ⟨s.deviceRing + 1, none, false, [], []⟩) } }
  s.linkChange.checkReach.beginResume

/-- The result of a join barrier (R604). DEDUCED, log 69. -/
def State.joinResult (s : State) (me : Nat) (set : List Nat) : State :=
  if !set.contains me then s
  else
    let late := s.fab.fs == .isolated
    let fresh := s.fab.notices.filter fun n => set.contains n.addr && n.addr != me
    let f := fresh.foldl (fun (f : Fab) n =>
      ({ f.putRecord ⟨n.addr, 0, n.devid, []⟩ with conflicts := f.conflicts.filter (· != n.addr) }).renewContexts n.addr)
      s.fab
    let s := ({ s with fab := { f with notices := [], joinSet := [] } }).becomeMember set
    if late then s.admitted else s.settleResume

/-- The end of a barrier's last axis. -/
def State.barrierResult (s : State) (b : Barrier) (me : Nat) (set : List Nat) : State :=
  let s := { s with fab := { s.fab with
    barrier := none, heldBarrier := s.fab.heldBarrier.filter (·.1 != b.kind) } }
  if b.kind = 0 then s.readyResult
  else if b.kind = 1 then s.partialResult me set
  else s.joinResult me set

/-- One move of the barrier: the device's own combination once the message before it is there, or a broadcast. -/
def State.barrierMove (s : State) : Option State :=
  match s.fab.barrier, s.fab.addr with
  | some b, some me =>
    let line := s.fab.barrierLine b me
    let wanted := fun (bc : Bool) => s.fab.heldBarrier.find? fun m =>
      m.1 == b.kind && m.2.axis == b.axis && m.2.bcast == bc
    let eat := fun (s : State) (m : Nat × BarrierMsg) =>
      { s with fab := { s.fab with heldBarrier := s.fab.heldBarrier.erase m } }
    let next := fun (s : State) (ax : Axis) (set : List Nat) =>
      { s with fab := { s.fab with barrier := some { b with axis := ax, set := set, sent := false } } }
    let finish := fun (s : State) (set : List Nat) =>
      let s := s.emits ((bcastTargets line me).map fun a => .barrier a b.kind ⟨b.axis, true, me, set⟩)
      match b.axis with
      | .z => next s .y set
      | .y => next s .x set
      | .x => s.barrierResult b me set
    let go := fun (s : State) (set : List Nat) =>
      match chainNext line me with
      | some nx =>
        { (s.emit (.barrier nx b.kind ⟨b.axis, false, me, set⟩)) with
          fab := { s.fab with barrier := some { b with set := set, sent := true } } }
      | none => finish s set
    if b.sent then (wanted true).map fun m => finish (eat s m) m.2.set
    else if chainFirst line me then some (go s b.set)
    else (wanted false).map fun m => go (eat s m) (if b.kind = 0 then b.set else meet m.2.set b.set)
  | _, _ => none

/-- Moves of the barrier until nothing more can move. -/
def barrierMoves : Nat → State → State
  | 0, s => s
  | n + 1, s => match s.barrierMove with
    | some s' => barrierMoves n s'
    | none => s

/-- The device enters a barrier with its own bitmap. -/
def State.enterBarrier (s : State) (kind : Nat) (own : List Nat) : State :=
  barrierMoves 8 { s with fab := { s.fab with barrier := some ⟨kind, .z, own, own, false⟩ } }

/-- The device enters the partial barrier, if it has an address and is mapping the machine (R395). -/
def State.enterPartial (s : State) : State :=
  match s.fab.fs, s.fab.barrier with
  | .mapping, some ⟨1, _, _, _, _⟩ => s
  | .mapping, _ => s.enterBarrier 1 (s.fab.allAddrs.filter fun a =>
      (s.fab.record a).isSome && !s.fab.conflicts.contains a && !s.fab.retired.contains a)
  | _, _ => s

/-! ### Discovery (R392) -/

/-- Ports that the device trains. -/
def Fab.usedPorts (f : Fab) : AL Port := f.ports.filter fun p => !p.2.unused && !p.2.absent

/-- Sends a join notice on every verified port (R603). -/
def State.sendNotice (s : State) : State :=
  match s.fab.addr with
  | none => s
  | some me =>
    let n : JoinNotice := ⟨me, s.fab.devid, s.fab.sx, s.fab.sy, s.fab.sz, 1, 1⟩
    s.emits ((s.fab.ports.filter (·.2.verified)).map fun p => .joinNotice p.1 n)

/-- Step 5 is over once every address that is not retired has a record; then routes and the barrier (R392 steps 6
and 7, R395). -/
def State.mapped (s : State) : State :=
  if s.fab.fs != .mapping || s.fab.barrier.isSome then s
  else if s.fab.expired then s.enterPartial
  else if s.fab.allAddrs.any fun a => !s.fab.retired.contains a && ((s.fab.record a).isNone || s.fab.conflicts.contains a)
  then s
  else if s.fab.retired.isEmpty then s.enterBarrier 0 [] else s.enterPartial

/-- Step 4: bundles form and the device's record is originated; a device whose neighbour has joined already is LATE
(R392, R398). -/
def State.formBundles (s : State) : State :=
  match s.fab.addr with
  | none => s
  | some a =>
    let f := { s.fab with lsSeq := s.fab.lsSeq + 1 }
    let r := f.ownRecord a
    let s := { s with fab := f.putRecord r }
    if f.ports.any fun p => p.2.verified && (match p.2.far with | some x => x.joined | none => false) then
      ({ s with fab := { s.fab with fs := .isolated, reason := 4 } }).sendNotice
    else (({ s with fab := { s.fab with fs := .mapping } }).floodRecord r 6).mapped

/-- Steps 2 and 3 are over once every used port has trained, or the time for it has run out, and every trained port
has exchanged identity. -/
def State.discover (s : State) : State :=
  if s.fab.fs == .training then
    let used := s.fab.usedPorts
    if (s.fab.trainOver || used.all (·.2.trained)) && used.all fun p => !p.2.trained || p.2.far.isSome then s.formBundles
    else s
  else s.mapped

/-! ### Ports (R368, R371, R377, R391, R394) -/

/-- The device's identity message for a port. -/
def Fab.identityOf (f : Fab) (n : Nat) (p : Port) : IdentityMsg :=
  { addr := f.addr, sx := f.sx, sy := f.sy, sz := f.sz, bundle := p.bundle, port := n, devid := f.devid
    joined := f.members.isSome }

/-- PORT_TRAINED (R376, R377, R391, R394): a port that trains exchanges identity; a port of a bundle that retrains
goes on with its flits. -/
def execPortTrained (port : Fin 36) (s : State) : Host.Outcome State Fault Refusal :=
  .next (
    match s.fab.port port with
    | none => s
    | some p =>
      if !s.clocks || p.unused || p.trained || !(p.pi == 3 || p.pi == 4) then s else
      let p' := { p with trained := true, expect := 0, next := 0, nakSent := false, unacked := [] }
      if p.pi == 4 && p.inBundle then
        (s.portState port { p' with waiting := p.unacked.map (·.flit) ++ p.waiting } 5).drain port
      else
        ((s.portState port { p' with waiting := [] } 3).emit (.identity port (s.fab.identityOf port p))).discover)

/-- A port passes its identity check and is in its bundle. -/
def State.portJoins (s : State) (n : Nat) (p : Port) : State :=
  let s := (s.portState n { p with probation := false, verified := true, inBundle := true } 5).linkChange.checkReach
  if s.fab.fs == .isolated && s.fab.reason == 4 then s.sendNotice else s

/-- A device that is still mapping the machine, and takes part in no barrier, finds a neighbour that has joined already: it is
LATE (R398). -/
def State.lateBy (s : State) (far : IdentityMsg) : State :=
  if s.fab.fs == .mapping && s.fab.barrier.isNone && far.joined then
    ({ s with fab := { s.fab with fs := .isolated, reason := 4 } }).sendNotice
  else s

/-- IDENTITY_EXCHANGE (R368, R377, R391, R398). -/
def execIdentityExchange (port : Fin 36) (far : IdentityMsg) (s : State) : Host.Outcome State Fault Refusal :=
  .next (
    match s.fab.port port with
    | none => s
    | some p =>
      if !s.powered || !p.trained || p.inBundle then s else
      let q := { p with far := some far }
      match s.fab.addr, far.addr with
      | some me, some a =>
        let ok := far.sx == s.fab.sx && far.sy == s.fab.sy && far.sz == s.fab.sz
          && far.bundle == opposite p.bundle && a == s.fab.neighbour me p.bundle
        if !ok then
          let s' := s.portState port q 6
          (if p.pi = 6 then s' else s'.fabricNote a [port.val]).discover
        else if 0 < p.downs then (s.portState port { q with verified := true, probation := true } 3).discover
        else ((s.portJoins port q).lateBy far).discover
      | _, _ =>
        let s' := s.portState port q 7
        (if p.pi = 7 then s' else s'.fabricNote (far.addr.getD 0xFFFF) [port.val]).discover)

/-- PORT_PROBATION_END (R377): 1 s of IDLE flits without a CRC failure. -/
def execPortProbationEnd (port : Fin 36) (s : State) : Host.Outcome State Fault Refusal :=
  .next (match s.fab.port port with
    | some p => if s.powered && p.trained && p.probation then s.portJoins port p else s
    | none => s)

/-- UNVERIFIED_RETRY (R368): an unverified port repeats the identity exchange. -/
def execUnverifiedRetry (port : Fin 36) (s : State) : Host.Outcome State Fault Refusal :=
  .next (match s.fab.port port with
    | some p => if s.powered && p.pi == 7 then s.emit (.identity port (s.fab.identityOf port p)) else s
    | none => s)

/-- A discovery step runs on the device. -/
def Fab.inStep (f : Fab) (step : Nat) : Bool :=
  if step = 1 then f.fs == .start
  else if step = 2 then f.fs == .training && !f.trainOver && f.usedPorts.any fun p => !p.2.trained
  else if step = 3 || step = 4 then f.fs == .training
  else if step = 6 || step = 7 || step = 8 then f.fs == .mapping && f.barrier.isSome
  else false

/-- DISCOVERY_BOUND_EXPIRY (R392, R394): FABRIC attention; ports that have not trained in step 2, or exchanged
identity in step 3, are no longer waited for. Step 5's overrun is DISCOVERY_FLOOD_TIMEOUT. -/
def execDiscoveryBoundExpiry (step : Nat) (s : State) : Host.Outcome State Fault Refusal :=
  .next (
    if !s.powered || !s.fab.inStep step then s else
    let late := (s.fab.usedPorts.filter fun p => if step = 2 then !p.2.trained else p.2.trained && p.2.far.isNone).map (·.1)
    let s := s.fabricNote (s.fab.addr.getD 0xFFFF) (if step = 2 || step = 3 then late else []) cINTERNAL
    if step = 2 then ({ s with fab := { s.fab with trainOver := true } }).discover
    else if step = 3 then s.formBundles
    else s)

/-- DISCOVERY_FLOOD_TIMEOUT (R392): FABRIC attention once; flooding goes on. -/
def execDiscoveryFloodTimeout (s : State) : Host.Outcome State Fault Refusal :=
  .next (
    if !s.powered || s.fab.fs != .mapping || s.fab.barrier.isSome || s.fab.floodLate then s
    else ({ s with fab := { s.fab with floodLate := true } }).fabricNote (s.fab.unrecorded.head?.getD 0xFFFF) [] cINTERNAL)

/-! ### Link-state records (R389, R390) -/

/-- Two records of one address differ in LS_DEVID: the address is in CONFLICT, with FABRIC attention, and counts as missing
(R390). -/
def State.markConflict (s : State) (a : Nat) : State :=
  if s.fab.conflicts.contains a then s else
  let s := s.fabricNote a []
  let f := { s.fab with conflicts := s.fab.conflicts ++ [a] }
  ({ s with fab := if s.fab.addr == some a then { f with fs := .isolated, reason := 3, barrier := none } else f }).checkReach

/-- A record is kept in place of the one held, and forwarded (R389); the device's own next record follows it. -/
def State.keepRecord (s : State) (bundle : Nat) (r : LinkState) : State :=
  let f := s.fab.putRecord r
  { s with fab := if f.addr = some r.addr && f.lsSeq < r.seq then { f with lsSeq := r.seq } else f }.floodRecord r bundle

/-- LINK_STATE_RECORD (R387, R389, R390, R392): kept and forwarded when none is held or its LS_SEQ is higher; one that shows a
CONFLICT goes on in any case, so that every device sees both. DEDUCED, log 68. -/
def execLinkStateRecord (bundle : Nat) (r : LinkState) (s : State) : Host.Outcome State Fault Refusal :=
  .next (
    if !s.powered || s.fab.addr.isNone || !s.fab.names r.addr then s
    else
      let old := s.fab.record r.addr
      let higher := match old with
        | some o => decide (o.seq < r.seq)
        | none => true
      let clash := (match old with
        | some o => o.devid != r.devid
        | none => false) || (s.fab.addr == some r.addr && s.fab.devid != r.devid)
      if clash then
        (if higher then s.keepRecord bundle r
          else if s.fab.conflicts.contains r.addr then s else s.floodRecord r bundle).markConflict r.addr
      else if higher then ((s.keepRecord bundle r).checkReach.mapped).settleResume
      else s)

/-! ### Barrier messages -/

/-- A barrier message arrives and is kept until the device is at its place. -/
def State.holdBarrier (s : State) (kind : Nat) (m : BarrierMsg) : State :=
  { s with fab := { s.fab with heldBarrier := s.fab.heldBarrier ++ [(kind, m)] } }

/-- READINESS_BARRIER_MESSAGE (R392). -/
def execReadinessBarrierMessage (m : BarrierMsg) (s : State) : Host.Outcome State Fault Refusal :=
  .next (match s.fab.fs with
    | .training | .mapping => if s.powered then barrierMoves 8 (s.holdBarrier 0 m) else s
    | _ => s)

/-- The device enters the partial barrier at once; one that still trains its ports first originates its record from those that
are verified. DEDUCED, log 163. -/
def State.partialNow (s : State) : State :=
  let s := { s with fab := { s.fab with expired := true } }
  if s.fab.fs == .training then s.formBundles else s.enterPartial

/-- PARTIAL_WAIT_EXPIRY (R395). -/
def execPartialWaitExpiry (s : State) : Host.Outcome State Fault Refusal :=
  .next (match s.fab.fs with
    | .training | .mapping => if s.powered then s.partialNow else s
    | _ => s)

/-- PARTIAL_BARRIER_MESSAGE (R395, R396): a device that is not READY enters the barrier at once. -/
def execPartialBarrierMessage (m : BarrierMsg) (s : State) : Host.Outcome State Fault Refusal :=
  .next (match s.fab.fs with
    | .training | .mapping =>
      if s.powered then
        barrierMoves 8 (s.holdBarrier 1 m).partialNow
      else s
    | _ => s)

/-! ### Joining (R602 to R605) -/

/-- A notice's joiner may enter this member's bitmap (R603). -/
def Fab.accepts (f : Fab) (n : JoinNotice) : Bool :=
  f.names n.addr && !f.retired.contains n.addr && (!f.isMember n.addr || f.unreachable n.addr)
    && n.sx == f.sx && n.sy == f.sy && n.sz == f.sz && n.cls == 1 && n.major == 1

/-- The device is a member. -/
def FsState.member : FsState → Bool
  | .ready | .partly => true
  | _ => false

/-- JOIN_NOTICE (R603): a member keeps and floods the notice, answers a neighbour that sent its own, and enters the
join barrier; the LATE device enters it with the member set it is told. -/
def execJoinNotice (m : JoinMsg) (s : State) : Host.Outcome State Fault Refusal :=
  .next (
    match s.fab.addr with
    | none => s
    | some me =>
      if !s.powered then s else
      match m with
      | .notice n bundle =>
        if !s.fab.fs.member || n.addr == me || s.fab.notices.contains n then s else
        let s := { s with fab := { s.fab with notices := s.fab.notices.filter (fun (x : JoinNotice) => x.addr != n.addr) ++ [n] } }
        let s := s.emits ((s.fab.upBundles.filter (· != bundle)).flatMap fun b =>
          ((s.fab.pickPort b 0).map fun p => Output.joinNotice p n).toList)
        let s := if s.fab.neighbour me bundle = n.addr then s.emit (.joinReply bundle (s.fab.members.getD [])) else s
        if s.fab.barrier.isSome then s
        else
          let own := s.fab.members.getD []
          let add := (s.fab.notices.filter fun (x : JoinNotice) => s.fab.accepts x && !own.contains x.addr).map JoinNotice.addr
          s.enterBarrier 2 (sortBy id (own ++ add))
      | .reply members =>
        if !(s.fab.fs == .isolated && s.fab.reason == 4) || s.fab.barrier.isSome then s
        else
          let set := sortBy id ((members.filter (· != me)) ++ [me])
          ({ s with fab := { s.fab with joinSet := set } }).enterBarrier 2 set)

/-- JOIN_BARRIER_MESSAGE (R603, R604). -/
def execJoinBarrierMessage (m : BarrierMsg) (s : State) : Host.Outcome State Fault Refusal :=
  .next (if s.powered && (s.fab.fs.member || (s.fab.fs == .isolated && s.fab.reason == 4)) then
      barrierMoves 8 (s.holdBarrier 2 m)
    else s)

/-- JOIN_RETRY_TIMER (R604): a joiner that was not admitted sends its notice again. -/
def execJoinRetryTimer (s : State) : Host.Outcome State Fault Refusal :=
  .next (if s.powered && s.fab.fs == .isolated && s.fab.reason == 4 && s.fab.barrier.isNone then s.sendNotice else s)

/-- CONTINUITY_RECORD (R604, R605): the donor's record arrives; a joiner without shards takes its ring and votes. -/
def execContinuityRecord (r : Continuity) (s : State) : Host.Outcome State Fault Refusal :=
  .next (
    if !s.powered || !(s.pln.awaitContinuity || s.pln.awaitRing) then s else
    let ring := s.pln.awaitRing
    let s := { s with
      pln := { s.pln with
        awaitContinuity := false, awaitRing := false
        plans := if s.pln.awaitContinuity then s.pln.plans.map fun p => p.continued r else s.pln.plans
        continuity := if s.pln.awaitContinuity then some r else s.pln.continuity } }
    if !ring then s
    else ({ s with
      trn := { s.trn with ring := r.ring }
      stp := { s.stp with resume := s.stp.resume.map fun (x : Resume) => { x with ring := r.ring + 1 } } }).beginResume)

/-! ### FABRIC_MAP_LOAD -/

/-- The retired entries of a request. -/
def retireList (q : Req) : List Nat := (List.range (q.f 8 2)).map fun i => q.f (0x10 + 2 * i) 2

/-- The body of FABRIC_MAP_LOAD (R400, R401). -/
def fabricMapLoadBody (q : Req) (s : State) : State × Resp :=
  let f := s.fab
  let n := q.f 8 2
  if !(q.zb 7 1 && q.zb 0x0A 6 && (List.range 512).all fun i => q.rz (0x10 + 2 * i) 2 15 14) then (s, rcode cBAD_ARG)
  else if f.fs.member || f.fs == .isolated then (s, rcode cTOO_LATE)
  else
    let l := retireList q
    let size := fun off have_ => q.f off 1 != 0 && q.f off 1 != have_
    if size 4 f.sx || size 5 f.sy || size 6 f.sz || 3600000 < q.f 0 4 || 512 < n then (s, rcode cBAD_ARG)
    else if !q.zb (0x10 + 2 * n) (1024 - 2 * n) then (s, rcode cBAD_ARG)
    else if l.any (fun a => !f.names a || f.addr == some a) || !decide l.Nodup then (s, rcode cBAD_ARG)
    else
      let wait := if q.f 0 4 = 0 then 60000 else q.f 0 4
      let s := { s with fab := { f with fmWait := wait, retired := sortBy id l } }
      if f.startTick + wait * 100000 ≤ s.aon.tick.toNat then
        (s.partialNow, rcode cOK)
      else (match s.fab.barrier with
        | some b => if b.kind = 0 && !l.isEmpty then s.enterPartial else s
        | none => s.mapped, rcode cOK)

/-- FABRIC_MAP_LOAD (R400, R401). -/
def execFabricMapLoad (k : SlotId) (s : State) : Host.Outcome State Fault Refusal :=
  .next (s.take k (·.opcode == 0x0602) fabricMapLoadBody)

/-! ### FABRIC_STATUS and PORT_INFO -/

/-- The FABRIC_STATUS reply (R402). DEDUCED, log 67. -/
def Fab.statusBytes (f : Fab) : Bytes :=
  let bundle := fun (b : Nat) =>
    let n := (f.verifiedPorts b).length
    let state := if n ≠ 0 then 0 else if f.bundleUnused b then 2 else 1
    state * 2 ^ 14 + n * 2 ^ 8 + (f.ports.filter fun p => p.2.bundle == b && !p.2.absent).length
  let missing := f.missing
  let cut := f.cutOff
  let list := (missing ++ cut).take 512
  leBytes 1 f.fs.code ++ leBytes 1 f.reason
    ++ leBytes 2 (match f.addr with | some a => 2 ^ 15 + a | none => 0)
    ++ leBytes 1 f.sx ++ leBytes 1 f.sy ++ leBytes 1 f.sz ++ zeros 1
    ++ leBytes 8 f.readyTick
    ++ ((List.range 6).flatMap fun b => leBytes 2 (bundle b))
    ++ leBytes 4 ((f.members.map List.length).getD 0)
    ++ leBytes 4 missing.length ++ leBytes 4 cut.length
    ++ leBytes 4 (f.ports.filter (·.2.pi == 6)).length
    ++ leBytes 4 f.ctxFailed.toNat
    ++ leBytes 8 ((f.ports.filter fun p => p.2.verified && p.2.inBundle).map fun p => 2 ^ p.1).sum
    ++ leBytes 8 f.lsSeq.toNat
    ++ leBytes 2 list.length ++ zeros 6
    ++ padTo 1024 (list.flatMap (leBytes 2))

/-- FABRIC_STATUS (R402). -/
def execFabricStatus (k : SlotId) (s : State) : Host.Outcome State Fault Refusal :=
  .next (s.take k (·.opcode == 0x0601) fun _ s => (s, some (cOK, s.fab.statusBytes)))

/-- The PORT_INFO reply of a fabric port. -/
def Port.infoBytes (p : Port) : Bytes :=
  leBytes 1 p.pi ++ leBytes 1 (if p.trained then 4 else 0) ++ leBytes 1 (if p.trained then 212 else 0)
    ++ leBytes 1 p.bundle ++ leBytes 4 p.downs ++ leBytes 8 p.fecCorr ++ leBytes 8 p.fecUncorr
    ++ leBytes 8 p.replays ++ leBytes 4 p.retrainCount
    ++ ((List.range 16).flatMap fun i => leBytes 2 (p.laneErr.getD i 0))
    ++ (match p.far with
      | some x => leBytes 2 (match x.addr with | some a => 2 ^ 15 + a | none => 0) ++ leBytes 1 x.port
          ++ leBytes 1 x.bundle ++ leBytes 8 x.devid.toNat
      | none => zeros 12)
    ++ zeros 16

/-- The PORT_INFO reply of a port without a bundle or a far end. -/
def plainPort (pi width rate downs retrains : Nat) : Bytes :=
  leBytes 1 pi ++ leBytes 1 width ++ leBytes 1 rate ++ zeros 1 ++ leBytes 4 downs ++ zeros 24
    ++ leBytes 4 retrains ++ zeros 60

/-- The PORT_INFO reply for a port number; none where no port has it. -/
def State.portInfo (s : State) (n : Nat) : Option Bytes :=
  if n < 36 then
    some (match s.fab.port n with
      | some p => p.infoBytes
      | none => zeros 96)
  else if 0x40 ≤ n && n < 0x44 then
    some (match s.hst.adapter (n - 0x40) with
      | some a => plainPort a.pi a.width a.rate a.downs 0
      | none => zeros 96)
  else if n = 0x80 then
    some (plainPort (match s.hst.link with | .up => 5 | .training => 3 | .down => 2) s.hst.width
      (if s.hst.link == .up then 64 else 0) s.hst.downs s.hst.retrains)
  else none

/-- PORT_INFO (R507). -/
def execPortInfo (k : SlotId) (s : State) : Host.Outcome State Fault Refusal :=
  .next (s.take k (·.opcode == 0x0603) fun q s =>
    if !q.zb 1 7 then (s, rcode cBAD_ARG) else
    match s.portInfo (q.f 0 1) with
    | some b => (s, some (cOK, b))
    | none => (s, rcode cBAD_ARG))

end Sys2Proof.Machine
end

