-- ==== Sys2Proof/Machine/PlanCheck.lean ====
section
/-! DEFINITION. What PLAN_LOAD checks of a container: header, sections, settings and descriptors (R13, R52 to R85, R200,
R211, R239, R308, R309, R317 to R320, R328, R520). Each check gives the first failure as the failure reply names it. -/

namespace Sys2Proof.Machine

/-! ### Failures -/

/-- A failure of PLAN_LOAD: its code and the fields of the failure reply (R520). -/
structure PlanErr where
  code : Nat
  item : Nat
  index : Nat
  mb : Nat
  off : Nat
  deriving DecidableEq, Repr

/-- No micro-batch instance, no place in the container. -/
def peNone : Nat := 0xFFFFFFFF

/-- A failure when the condition holds. -/
def failIf (c : Bool) (e : PlanErr) : Option PlanErr := if c then some e else none

/-- The first failure among a list's elements. -/
def firstFail {α : Type} (l : List α) (f : α → Option PlanErr) : Option PlanErr := l.findSome? f

/-- The 16 bytes of a failure reply (R520). -/
def PlanErr.bytes (e : PlanErr) : Bytes :=
  leBytes 1 e.item ++ zeros 3 ++ leBytes 4 e.index ++ leBytes 4 e.mb ++ leBytes 4 e.off

/-! ### 1: the header (R317, R318) -/

/-- A header failure at an offset. -/
def headErr (code off : Nat) : PlanErr := ⟨code, 1, 0, peNone, off⟩

/-- The checks of the header. DEDUCED, log 78. -/
def checkHeader (b : Bytes) : Option PlanErr :=
  failIf (decide (268435456 < b.length) || decide (b.length < 128)) (headErr cBAD_PLAN 0x10)
  <|> failIf (fld b 0 4 != 0x504C0001) (headErr cBAD_PLAN 0)
  <|> failIf (byteAt b 5 != 1 || byteAt b 4 != 0) (headErr cVERSION 4)
  <|> failIf (crc32c (overlay b 0x14 (zeros 4)) != fld b 0x14 4) (headErr cBAD_PLAN 0x14)
  <|> failIf (bits (fld b 6 2) 15 1 != 0) (headErr cBAD_PLAN 6)
  <|> failIf (!allZero b 0x18 40) (headErr cBAD_PLAN 0x18)

/-! ### 2: sections (R317 to R319) -/

/-- A failure of a section. -/
def sectErr (i off : Nat) : PlanErr := ⟨cBAD_PLAN, 2, i, peNone, off⟩

/-- Greatest entry count of a section (R317). -/
def sectLimit (i : Nat) : Nat :=
  if i = 0 || i = 2 then 65535 else if i = 4 then 1048576 else if i = 7 then 4096 else 2 ^ 32

/-- Bytes of a section. -/
def sectBytes (b : Bytes) (i : Nat) : Nat := sectEntry i * (sectOf b i).2

/-- The checks of one section's entry. -/
def checkSection (b : Bytes) (i : Nat) : Option PlanErr :=
  let x := sectOf b i
  failIf (x.1 % 64 != 0 || decide (sectLimit i < x.2)
      || (x.2 != 0 && (decide (x.1 < 128) || decide (b.length < x.1 + sectBytes b i)
        || (List.range i).any fun j => overlaps x.1 (sectBytes b i) (sectOf b j).1 (sectBytes b j))))
    (sectErr i (0x40 + 8 * i))

/-- Numbers of `w` bytes each that a section holds. -/
def sectWords (b : Bytes) (i w : Nat) : List Nat := wordsOf w (sectOf b i).2 (b.drop (sectOf b i).1)

/-- The checks across the sections. -/
def checkSections (b : Bytes) : Option PlanErr :=
  let nd := (sectOf b 0).2
  let nops := (sectOf b 2).2
  let order := sectWords b 5 4
  let verdicts := sectWords b 7 4
  firstFail (List.range 8) (checkSection b)
  <|> failIf ((sectOf b 1).2 != nd) (sectErr 1 0x48)
  <|> failIf ((sectOf b 6).2 != 1) (sectErr 6 0x70)
  <|> failIf (order.length != nops || !(List.range nops).all order.contains) (sectErr 5 0x68)
  <|> firstFail (List.range verdicts.length) (fun k =>
    failIf (decide (nd ≤ verdicts.getD k 0) || (verdicts.take k).contains (verdicts.getD k 0))
      (sectErr 7 ((sectOf b 7).1 + 4 * k)))
  <|> firstFail (List.range nd) (fun k =>
    failIf (leNat (entryOf b 1 k) % 512 != 0) (sectErr 1 ((sectOf b 1).1 + 8 * k)))

/-! ### 2: settings (R200, R211, R308, R309, R320, R328) -/

/-- A plan that has not been given its handle. -/
def rawPlan (b : Bytes) : Plan :=
  { handle := 0, bytes := b, loadNo := 0, base := [], formats := [], escalations := [], modes := [], inForce := [], before := [], stampRing := 0
    stampCount := 0, lsExp := 0, clean := 0, continuityBad := false }

/-- The quantised streams of the plan's CHAIN_REDUCEs. -/
def Plan.streams (p : Plan) : List Nat := (p.opsOf 0x0030).map fun i => (p.op i).outs.getD 0 absent

/-- The checks of the settings entry and of the training block. -/
def checkSettings (p : Plan) : Option PlanErr :=
  let b := entryOf p.bytes 6 0
  let bad := fun (c : Bool) (off : Nat) => failIf c ⟨cBAD_PLAN, 6, 0, peNone, (sectOf p.bytes 6).1 + off⟩
  let s8 := fun (off : Nat) => intOfByte (byteAt b off)
  let floorOf := fun (k : Nat) => byteAt b (0x40 + 4 * k)
  let ceilOf := fun (k : Nat) => byteAt b (0x41 + 4 * k)
  bad (decide (64 < byteAt b 0)) 0
  <|> bad (decide (63 < byteAt b 1) || byteAt b 1 == 0 || decide (32 < byteAt b 1)) 1
  <|> bad (!allZero b 2 2) 2
  <|> bad (!allZero b 8 8) 8
  <|> bad (decide (1 < byteAt b 0x10)) 0x10
  <|> bad (!allZero b 0x16 2) 0x16
  <|> bad (decide (3 < byteAt b 0x1C)) 0x1C
  <|> bad (!allZero b 0x1D 3) 0x1D
  <|> bad (!allZero b 0x20 32) 0x20
  <|> (if !p.hasVerdict then bad (!allZero b 0x10 16) 0x10
    else if byteAt b 0x10 = 0 then
      bad (!allZero b 0x11 15) 0x11
      <|> bad ((List.range (p.count 0)).any fun id => (p.rawTd id).format == 4 && !p.streams.contains id) 0x10
    else
      bad (decide (s8 0x11 < -32) || decide (32 < s8 0x11)) 0x11
      <|> bad (decide (s8 0x12 < -32) || decide (s8 0x11 < s8 0x12)) 0x12
      <|> bad (decide (s8 0x13 < s8 0x11) || decide (32 < s8 0x13)) 0x13
      <|> bad (!(p.opsOf 0x0020).contains (fld b 0x18 4)) 0x18)
  <|> firstFail (List.range 16) (fun k =>
    bad (!allZero b (0x42 + 4 * k) 2) (0x42 + 4 * k)
    <|> bad (ceilOf k != 0 && decide (ceilOf k < floorOf k)) (0x40 + 4 * k))
  <|> bad (decide (224 < ((List.range 16).map floorOf).sum)) 0x40

/-! ### 3: descriptors (R13, R52, R58, R69, R71, R77, R85, R239, R323, R328) -/

/-- A format admits a scale mode (R52). -/
def modeAdmitted (f m : Nat) : Bool :=
  if f < 3 then m == 0
  else if f = 6 || f = 7 then decide (m < 2)
  else if f = 8 || f = 9 then decide (m < 3)
  else m == 1

/-- Formats that permit SCALE_RULE TOP (R69), and range watch (R71). -/
def topAdmitted (f : Nat) : Bool := f == 3 || f == 5 || (decide (6 ≤ f) && decide (f ≤ 9))

/-- No two tile records of a tensor share an address (R85): strides that each exceed the reach of the smaller ones, or
else every index compared. -/
def TD.apart (t : TD) : Bool :=
  let ds := sortBy (·.2) (((List.range 6).map fun i => (t.steps i, t.stride i)).filter fun x => decide (1 < x.1))
  let quick := ds.foldl (fun (a : Bool × Nat) x => (a.1 && decide (a.2 < x.2), a.2 + (x.1 - 1) * x.2)) (true, 0)
  quick.1 ||
    let idx := sortBy id (t.tiles.map t.tileIndex)
    (idx.zip (idx.drop 1)).all fun x => x.1 != x.2

/-- The formats an escalated tensor can reach (R76), as descriptors. -/
def escChain : Nat → TD → List TD
  | 0, _ => []
  | n + 1, t => match escalated t.format with
    | some f => let u := t.inFormat (some f); u :: escChain n u
    | none => []

/-- Where a descriptor's fields break their own rules: the offset of the field. -/
def TD.faulty (t : TD) (raw : Bytes) (written verdictFree : Bool) : Option Nat :=
  let bad := fun (c : Bool) (off : Nat) => if c then some off else none
  let live := List.range t.rank
  let idle := upFrom t.rank (6 - t.rank)
  bad (decide (12 < byteAt raw 0)) 0
  <|> bad (decide (6 < byteAt raw 1) || byteAt raw 1 == 0) 1
  <|> bad (decide (31 < byteAt raw 2) || !modeAdmitted t.format t.mode) 2
  <|> bad (t.top && (t.mode != 1 || !topAdmitted t.format)) 2
  <|> bad (t.trailing && t.mode == 0 && !isCodebook t.format) 2
  <|> bad (decide (3 < byteAt raw 3) || (t.cbF8 && !isCodebook t.format)) 3
  <|> bad (decide (63 < byteAt raw 4)) 4
  <|> bad (byteAt raw 5 != 0) 5
  <|> bad (t.rw != 0 && (!topAdmitted t.format || t.mode == 2 || verdictFree)) 6
  <|> bad (t.va % 512 != 0) 8
  <|> bad (byteAt raw 0x0F != 0) 0x0F
  <|> (live.findSome? fun i => bad (t.dim i == 0 || decide (2 ^ 31 < t.dim i)) (0x10 + 4 * i))
  <|> (idle.findSome? fun i => bad (t.dim i != 1) (0x10 + 4 * i))
  <|> (idle.findSome? fun i => bad (t.stride i != 0) (0x28 + 4 * i))
  <|> (if written then live.findSome? fun i => bad (t.stride i == 0) (0x28 + 4 * i) else none)

/-- Where a tensor does not lie as R85 and R239 demand: the offset of the field. -/
def State.misplaced (s : State) (t : TD) (written : Bool) : Option Nat :=
  match s.rgn.get t.region with
  | none => some 4
  | some r =>
    match r.map with
    | none => some 4
    | some m =>
      if written && !m.write then some 4
      else if t.va < m.base || m.base + r.size < t.va + t.extent then some 8 else none

/-- Ids of the tensors that operations write (R406 among them), that operations with one instance per micro-batch name,
and that lie on a peer (R206). -/
def Plan.writtenIds (p : Plan) : List Nat :=
  (List.range (p.count 2)).flatMap fun i =>
    let h := p.op i
    h.outs ++ (if h.code = 0x0030 then (h.ins.drop 1).take 2 else [])
def Plan.perMbIds (p : Plan) : List Nat :=
  ((List.range (p.count 2)).filter fun i => (p.op i).perMb).flatMap fun i => (p.op i).ins ++ (p.op i).outs

/-- Ids that operations name on this device. -/
def Plan.localIds (p : Plan) : List Nat :=
  (List.range (p.count 2)).flatMap fun i =>
    (if p.peerIn i then [] else (p.op i).ins) ++ (if p.peerOut i then [] else (p.op i).outs)

/-- A descriptor that only a peer's address space gives a meaning (R206). -/
def Plan.peerOnly (p : Plan) (id : Nat) : Bool :=
  ((List.range (p.count 2)).any fun i =>
      (p.peerIn i && (p.op i).ins.contains id) || (p.peerOut i && (p.op i).outs.contains id))
    && !p.localIds.contains id

/-- The checks of one descriptor: its fields, then its place at each instance, in its own and every format it can
escalate to. DEDUCED, log 79. -/
def State.checkDesc (s : State) (p : Plan) (id : Nat) : Option PlanErr :=
  let raw := entryOf p.bytes 0 id
  let t := TD.ofBytes raw
  let base := (sectOf p.bytes 0).1 + 64 * id
  let err := fun (mb off : Nat) => (⟨cBAD_PLAN, 3, id, mb, base + off⟩ : PlanErr)
  let written := p.writtenIds.contains id
  let step := leNat (entryOf p.bytes 1 id)
  let each := p.perMbIds.contains id && step != 0
  (t.faulty raw written (!p.hasVerdict)).map (err peNone)
  <|> failIf (t.rw != 0 && decide (256 < ((List.range (id + 1)).filter fun k => (p.rawTd k).rw != 0).length))
    (err peNone 6)
  <|> (if p.peerOnly id then none else
    firstFail (List.range (if each then p.mbCount else 1)) (fun b =>
      let at_ := fun (u : TD) => { u with va := u.va + b * step }
      firstFail (t :: if t.rw = 0 then [] else escChain 3 t) (fun u =>
        (s.misplaced (at_ u) written).map (err (if each then b else peNone)))))
  <|> failIf (written && !t.apart) (err peNone 0x28)

end Sys2Proof.Machine
end

