-- ==== Sys2Proof/Machine/Window.lean ====
section
/-! DEFINITION. Window operators' geometry (R134 to R137, R139, R140, R150, R155): the window block, output sizes, padding
positions, and the sizes of a convolution's tensors. -/

namespace Sys2Proof.Machine

/-- The window block (R134). -/
structure Win where
  kh : Nat
  kw : Nat
  sy : Nat
  sx : Nat
  dy : Nat
  dx : Nat
  mode : Nat
  pt : Nat
  pb : Nat
  pl : Nat
  pr : Nat
  deriving DecidableEq, Repr

/-- The window block that 16 bytes hold. -/
def Win.ofBytes (b : Bytes) : Win :=
  { kh := byteAt b 0, kw := byteAt b 1, sy := byteAt b 2, sx := byteAt b 3, dy := byteAt b 4, dx := byteAt b 5
    mode := bits (byteAt b 6) 1 0, pt := fld b 8 2, pb := fld b 0x0A 2, pl := fld b 0x0C 2, pr := fld b 0x0E 2 }

/-- The output size along an axis; none when the numerator is negative (R136). -/
def outSize (n before after k d st : Nat) : Option Nat :=
  if n + before + after < (k - 1) * d + 1 then none else some ((n + before + after - (k - 1) * d - 1) / st + 1)

/-- Output height and width. -/
def Win.outH (w : Win) (n : Nat) : Option Nat := outSize n w.pt w.pb w.kh w.dy w.sy
def Win.outW (w : Win) (n : Nat) : Option Nat := outSize n w.pl w.pr w.kw w.dx w.sx

/-- The input position of an output position and a tap along an axis, before padding is taken off (R137). -/
def tapAt (o k st d before : Nat) : Int := ((o * st + k * d : Nat) : Int) - before

/-- A tap along an axis that reads the input: the index. -/
def tapIn (o k st d before n : Nat) : Option Nat :=
  let i := tapAt o k st d before
  if 0 ≤ i && decide (i < n) then some i.toNat else none

/-- The index that edge (2) and reflect (3) padding read in place of one outside the input (R137). -/
def tapPad (mode : Nat) (i : Int) (n : Nat) : Nat :=
  if mode = 2 then (if i < 0 then 0 else n - 1)
  else (if i < 0 then (-i).toNat else (2 * ((n : Int) - 1) - i).toNat)

/-- Channels, columns, rows and images of an activation in channel-inner or planar layout. -/
structure Act where
  c : Nat
  w : Nat
  h : Nat
  n : Nat
  deriving DecidableEq, Repr

/-- The sizes of an activation tensor. -/
def TD.act (t : TD) (planar : Bool) : Act :=
  if planar then ⟨t.dim 2, t.dim 0, t.dim 1, t.dim 3⟩ else ⟨t.dim 0, t.dim 1, t.dim 2, t.dim 3⟩

/-- The coordinates of an activation's element. -/
def actCoord (planar : Bool) (c w h n : Nat) : List Nat := if planar then [w, h, c, n, 0, 0] else [c, w, h, n, 0, 0]

/-- What a CONV or a SAPLING_CONV says of itself (R139, R155). -/
structure ConvOp where
  win : Win
  padVal : Nat
  dir : Nat
  groups : Nat
  split : Nat
  stripe : Nat
  planarIn : Bool
  planarOut : Bool
  sapling : Bool
  deriving DecidableEq, Repr

/-- The parameters of a CONV (R139). -/
def convOp (b : Bytes) : ConvOp :=
  { win := Win.ofBytes b, padVal := fld b 0x10 2, dir := bits (byteAt b 0x12) 1 0, groups := max 1 (fld b 0x14 2)
    split := max 1 (byteAt b 0x13), stripe := fld b 0x16 2, planarIn := false, planarOut := false, sapling := false }

/-- The parameters of a SAPLING_CONV (R155). DEDUCED, log 85. -/
def saplingOp (b : Bytes) : ConvOp :=
  { win := Win.ofBytes b, padVal := fld b 0x10 2, dir := bits (byteAt b 0x12) 1 0, groups := 1, split := 1, stripe := 0
    planarIn := bit (byteAt b 0x12) 2, planarOut := bit (byteAt b 0x12) 3, sapling := true }

/-- Of a convolution's IN0, IN1 and OUT0: the one that holds the layer's input side, its output side, its weights
(R140). -/
def ConvOp.roles (v : ConvOp) (i0 i1 o : TD) : TD × TD × TD :=
  if v.dir = 0 then (i0, o, i1) else if v.dir = 1 then (o, i0, i1) else (i0, i1, o)

/-- Layout of the layer's input side and of its output side. -/
def ConvOp.xPlanar (v : ConvOp) : Bool := if v.dir = 1 then v.planarOut else v.planarIn
def ConvOp.yPlanar (v : ConvOp) : Bool := if v.dir = 0 then v.planarOut else v.planarIn

/-! ### Operand classes (R59, R62) -/

/-- The K-chunk of a matrix operand's class. -/
def TD.kc (t : TD) : Nat :=
  if t.format = 1 || t.format = 2 then 64
  else if t.format = 5 || ((t.format = 8 || t.format = 9) && t.mode != 2) || (isCodebook t.format && !t.cbF8) then 256
  else 128

/-- The K-chunk of a pass: that of the wider class. -/
def chunkOf (a b : TD) : Nat := min a.kc b.kc

/-- A pass over two operands accumulates in 32-bit integers (R62). -/
def intPath (a b : TD) : Bool :=
  let i := fun (t : TD) => decide (6 ≤ t.format) && decide (t.format ≤ 9) && t.mode == 0
  i a && i b

/-- Chunks of the innermost index and the number of runs of it in a convolution's reduction (R142). -/
def ConvOp.chunks (v : ConvOp) (x y : Act) (kc : Nat) : Nat :=
  if v.dir = 0 then v.win.kh * v.win.kw * ceilDiv (x.c / v.groups) kc
  else if v.dir = 1 then v.win.kh * v.win.kw * ceilDiv (y.c / v.groups) kc
  else y.n * y.h * ceilDiv y.w kc

end Sys2Proof.Machine
end

