-- ==== Sys2Proof/Machine/PlanOps.lean ====
section
/-! DEFINITION. PLAN_LOAD's checks of operations: headers and slots (R321 to R323), and every class's parameter block
(R96 to R99, R127, R128, R135 to R141, R150 to R155, R159, R160, R167 to R173, R177 to R182, R204 to R208, R292, R293,
R403 to R407, R414, R419, R447, R448). -/

namespace Sys2Proof.Machine

/-! ### Slots and parameter blocks of the classes -/

/-- What a class's header holds: length of its parameter block, inputs it requires and admits, outputs likewise. -/
structure ClassRow where
  len : Nat
  needIn : List Nat
  mayIn : List Nat
  needOut : List Nat
  mayOut : List Nat
  deriving DecidableEq, Repr

/-- The classes (R322). -/
def classRow (code : Nat) : Option ClassRow :=
  if code = 0x0001 then some ⟨64, [0, 1], [2, 3], [0], [1]⟩
  else if code = 0x0010 then some ⟨64, [0, 1], [3], [0], [1]⟩
  else if code = 0x0011 then some ⟨32, [0], [1], [0], []⟩
  else if code = 0x0012 then some ⟨64, [0, 1], [], [0], []⟩
  else if code = 0x0013 then some ⟨16, [0, 1], [2], [0, 1], []⟩
  else if code = 0x0014 then some ⟨64, [0, 1], [3], [0], [1]⟩
  else if code = 0x0020 then some ⟨96, [], [0, 1, 2, 3], [0], [1]⟩
  else if code = 0x0021 then some ⟨32, [0, 1], [], [0], []⟩
  else if code = 0x0022 then some ⟨16, [0, 1], [2, 3], [0], []⟩
  else if code = 0x0030 then some ⟨16, [], [0, 1, 2], [], [0]⟩
  else if code = 0x0031 then some ⟨16, [], [], [0], []⟩
  else if code = 0x0032 then some ⟨16, [], [], [], []⟩
  else if code = 0x0040 then some ⟨160, [], [], [], []⟩
  else if code = 0x0050 then some ⟨128, [], [], [0], [1]⟩
  else if code = 0x0060 then some ⟨64, [0], [], [0], []⟩
  else if code = 0x0061 then some ⟨16, [0], [], [], []⟩
  else none

/-- A check that fails gives the offset of its field in the parameter block, or in the header with 2^16 added; code. -/
abbrev OpFault := Option (Nat × Nat)

/-- BAD_PLAN at a parameter offset. -/
def bp (c : Bool) (off : Nat) : OpFault := if c then some (cBAD_PLAN, off) else none
/-- BAD_WINDOW at a parameter offset. -/
def bw (c : Bool) (off : Nat) : OpFault := if c then some (cBAD_WINDOW, off) else none
/-- BAD_PLAN at a header offset. -/
def bh (c : Bool) (off : Nat) : OpFault := if c then some (cBAD_PLAN, 2 ^ 16 + off) else none
/-- BAD_PLAN at the header's input or output slot. -/
def bIn (c : Bool) (j : Nat) : OpFault := bh c (8 + 2 * j)
def bOut (c : Bool) (j : Nat) : OpFault := bh c (0x10 + 2 * j)

/-- Every dimension of two tensors agrees. -/
def sameShape (t u : TD) : Bool := (List.range 6).all fun i => t.dim i == u.dim i

/-- Dimensions from `k` on have size 1. -/
def TD.flatFrom (t : TD) (k : Nat) : Bool := (upFrom k (6 - k)).all fun i => t.dim i == 1

/-- A tensor has another's size in a dimension, or broadcasts over it. -/
def fits (t : TD) (n i : Nat) : Bool := t.dim i == n || (t.dim i == 1 && t.stride i == 0)

/-- A tensor that an operation other than MOVE writes may not be in a codebook format or in SZP mode (R55, R58). -/
def writable (t : TD) : Bool := !isCodebook t.format && t.mode != 2

/-- A binary32 field is infinite or NaN. -/
def wild (b : Bytes) (off : Nat) : Bool := !isFin32 (fld b off 4)

/-- A binary32 code is below zero, above zero. -/
def fneg? (c : Nat) : Bool := (d32 c).lt (.fin false 0 0)

/-- The tensor of a header slot, at micro-batch 0 and in the format of the container. -/
def Plan.slotIn (p : Plan) (i j : Nat) : Option TD :=
  let d := (p.op i).ins.getD j absent
  if d = absent then none else some (p.rawTd d)
def Plan.slotOut (p : Plan) (i j : Nat) : Option TD :=
  let d := (p.op i).outs.getD j absent
  if d = absent then none else some (p.rawTd d)

/-- The bytes of two slots' tensors meet at some instance. -/
def Plan.slotsMeet (p : Plan) (i : Nat) (a b : Nat → Option TD) : Bool :=
  (List.range (if (p.op i).perMb then p.mbCount else 1)).any fun k =>
    match a k, b k with
    | some t, some u => t.meets u
    | _, _ => false

/-! ### The output stage (R126 to R128) -/

/-- The checks of an output-stage block at an offset of the parameter block; `d` is OUT0 and `n` the channel count. -/
def Plan.checkOut (p : Plan) (i : Nat) (b : Bytes) (off n : Nat) (d : TD) (ids : Nat × Nat) : OpFault :=
  let f0 := byteAt b 0
  let scale := bits f0 1 0
  let bias := bit f0 2
  let act := bits f0 5 3
  let save := bits f0 7 6
  let uses := bias || scale == 2
  bp (scale == 3 || act == 7 || save == 3) off
  <|> bp (!allZero b 1 3) (off + 1)
  <|> bp ((scale != 1 && fld b 4 4 != 0) || wild b 4) (off + 4)
  <|> bp ((act != 2 && fld b 8 4 != 0) || wild b 8) (off + 8)
  <|> bp (!allZero b 0x0C 20) (off + 0x0C)
  <|> bIn (uses != (p.slotIn i 3).isSome) 3
  <|> (match p.slotIn i 3 with
    | some t => bIn (!(t.format == 0 || t.format == 1) || t.dim 0 != n
        || t.dim 1 != (if scale == 2 && bias then 2 else 1)) 3
    | none => none)
  <|> bOut ((save != 0) != (p.slotOut i 1).isSome) 1
  <|> (match p.slotOut i 1 with
    | some t => bOut (!sameShape t d || !writable t || ids.1 == ids.2
        || p.slotsMeet i (fun k => p.outTd i 0 k) (fun k => p.outTd i 1 k)) 1
    | none => none)

/-! ### MATMUL (R96 to R99) -/

/-- Batch sizes agree with D's (R98). -/
def batchOk (t d : TD) : Bool := (upFrom 2 4).all fun i => fits t (d.dim i) i

/-- The checks of a MATMUL. -/
def Plan.checkMatmul (p : Plan) (i : Nat) : OpFault :=
  let b := p.param i
  let h := p.op i
  let m := fld b 0 4
  let n := fld b 4 4
  let k := fld b 8 4
  let ta := bit (byteAt b 0x0C) 0
  let tb := bit (byteAt b 0x0C) 1
  let acc := bit (byteAt b 0x0C) 2
  match p.slotIn i 0, p.slotIn i 1, p.slotOut i 0 with
  | some x, some y, some d =>
    bp (decide (7 < byteAt b 0x0C)) 0x0C
    <|> bp (!allZero b 0x0E 2) 0x0E
    <|> bp (!allZero b 0x10 16) 0x10
    <|> bIn (x.format == 0) 0 <|> bIn (y.format == 0) 1
    <|> bp (m == 0 || m != (if ta then x.dim 0 else x.dim 1) || m != d.dim 1) 0
    <|> bp (n == 0 || n != (if tb then y.dim 1 else y.dim 0) || n != d.dim 0) 4
    <|> bp (k == 0 || k != (if ta then x.dim 1 else x.dim 0) || k != (if tb then y.dim 0 else y.dim 1)
        || decide (2 ^ 31 < k)) 8
    <|> bp (decide (64 < byteAt b 0x0D) || decide (ceilDiv k (chunkOf x y) < byteAt b 0x0D)) 0x0D
    <|> bp (acc != (p.slotIn i 2).isSome || (acc && intPath x y)) 0x0C
    <|> (match p.slotIn i 2 with
      | some c => bIn (isCodebook c.format || c.dim 0 != n || c.dim 1 != m || !batchOk c d) 2
      | none => none)
    <|> bOut (!writable d) 0
    <|> bIn (!batchOk x d) 0 <|> bIn (!batchOk y d) 1
    <|> (match p.slotIn i 3 with
      | some t => bIn (!batchOk t d) 3
      | none => none)
    <|> p.checkOut i (b.drop 0x20) 0x20 n d (h.outs.getD 0 absent, h.outs.getD 1 absent)
    <|> bOut (p.slotsMeet i (fun k => p.outTd i 0 k) (fun k => p.inTd i 0 k)
        || p.slotsMeet i (fun k => p.outTd i 0 k) (fun k => p.inTd i 1 k)
        || (h.ins.getD 2 absent != h.outs.getD 0 absent
          && p.slotsMeet i (fun k => p.outTd i 0 k) (fun k => p.inTd i 2 k))) 0
  | _, _, _ => bp true 0

/-! ### Windows (R135, R136, R138, R141, R151, R154) -/

/-- The checks of a window block against the input's size. -/
def checkWin (b : Bytes) (h w : Nat) : OpFault :=
  let out := fun (v lo hi : Nat) => decide (v < lo) || decide (hi < v)
  let n := Win.ofBytes b
  bp (decide (3 < byteAt b 6)) 6 <|> bp (byteAt b 7 != 0) 7
  <|> bw (out n.kh 1 15) 0 <|> bw (out n.kw 1 15) 1 <|> bw (out n.sy 1 16) 2 <|> bw (out n.sx 1 16) 3
  <|> bw (n.dy == 0) 4 <|> bw (n.dx == 0) 5
  <|> bw (decide (4095 < n.pt) || (n.mode == 3 && decide (h ≤ n.pt))) 8
  <|> bw (decide (4095 < n.pb) || (n.mode == 3 && decide (h ≤ n.pb))) 0x0A
  <|> bw (decide (4095 < n.pl) || (n.mode == 3 && decide (w ≤ n.pl))) 0x0C
  <|> bw (decide (4095 < n.pr) || (n.mode == 3 && decide (w ≤ n.pr))) 0x0E
  <|> bw ((n.outH h).isNone || (n.outW w).isNone) 0

/-- A B16 code is a whole number that an integer format holds (R138). -/
def padInt (f c : Nat) : Bool :=
  match fmtB16.decode c with
  | .fin s m e =>
    let q := if 0 ≤ e then m * 2 ^ e.toNat else m / 2 ^ (-e).toNat
    (decide (0 ≤ e) || m % 2 ^ (-e).toNat == 0)
      && (let w := intFmt f
        if w.2 then (if s then decide (q ≤ 2 ^ (w.1 - 1)) else decide (q < 2 ^ (w.1 - 1)))
        else (if s then q == 0 else decide (q < 2 ^ w.1)))
  | _ => false

/-- The checks of a convolution (R55, R60, R135 to R141, R154, R155). DEDUCED, log 86. DEDUCED, log 151. DEDUCED, log 152. -/
def Plan.checkConv (p : Plan) (i : Nat) (v : ConvOp) : OpFault :=
  let b := p.param i
  let h := p.op i
  match p.slotIn i 0, p.slotIn i 1, p.slotOut i 0 with
  | some i0, some i1, some o =>
    let r := v.roles i0 i1 o
    let x := r.1.act v.xPlanar
    let y := r.2.1.act v.yPlanar
    let wt := r.2.2
    let g := v.groups
    let cst := bits (byteAt (b.drop 0x20) 0) 5 3
    let save := bits (byteAt (b.drop 0x20) 0) 7 6
    (if v.sapling then bp (decide (15 < byteAt b 0x12)) 0x12 <|> bp (!allZero b 0x13 13) 0x13
      else bp (decide (3 < byteAt b 0x12)) 0x12 <|> bp (!allZero b 0x18 8) 0x18)
    <|> bp (v.dir == 3) 0x12
    <|> checkWin b x.h x.w
    <|> bw (v.dir == 1 && (v.win.mode == 2 || v.win.mode == 3)) 6
    <|> bIn (i0.format == 0) 0 <|> bIn (i1.format == 0) 1
    <|> bIn (v.sapling && isCodebook i0.format) 0 <|> bIn (v.sapling && isCodebook i1.format) 1
    <|> bp (decide (65536 < x.c) || decide (65536 < y.c) || x.c % g != 0 || y.c % g != 0) 0x14
    <|> bp (v.sapling && decide (16 < x.c) && decide (16 < y.c)) 0
    <|> bIn (!i0.flatFrom 4) 0 <|> bIn (!i1.flatFrom 4) 1
    <|> bh (wt.dim 0 != y.c || wt.dim 1 != x.c / g || wt.dim 2 != v.win.kw || wt.dim 3 != v.win.kh)
        (if v.dir = 2 then 0x10 else 0x0A)
    <|> bOut (!o.flatFrom 4 || x.n != y.n || v.win.outH x.h != some y.h || v.win.outW x.w != some y.w) 0
    <|> bp ((v.win.mode != 1 && v.padVal != 0)
        || (v.win.mode == 1 && (!(fmtB16.decode v.padVal).finite || (!v.sapling && intPath i0 i1 && !padInt i0.format v.padVal)))) 0x10
    <|> bp (!v.sapling && (decide (64 < byteAt b 0x13)
        || decide (v.chunks x y (chunkOf i0 i1) < byteAt b 0x13))) 0x13
    <|> bOut (!writable o) 0
    <|> bp (v.dir != 0 && (cst != 0 || save != 0)) 0x20
    <|> (match p.slotIn i 3 with
      | some t => bIn (!t.flatFrom 2) 3
      | none => none)
    <|> p.checkOut i (b.drop 0x20) 0x20 (if v.dir = 1 then x.c else y.c) o (h.outs.getD 0 absent, h.outs.getD 1 absent)
  | _, _, _ => bp true 0

/-- Every output position along an axis has a tap inside the input. -/
def covered (n out k st d before : Nat) : Bool :=
  (List.range out).all fun o => (List.range k).any fun t => (tapIn o t st d before n).isSome

/-- The checks of a POOL (R150, R151). -/
def Plan.checkPool (p : Plan) (i : Nat) : OpFault :=
  let b := p.param i
  let back := bit (byteAt b 0x11) 0
  let mode := bits (byteAt b 0x10) 1 0
  let w := Win.ofBytes b
  match p.slotIn i 0, (if back then p.slotIn i 1 else p.slotOut i 0), p.slotOut i 0 with
  | some x, some y, some o =>
    bp (decide (2 < byteAt b 0x10)) 0x10
    <|> bp (decide (1 < byteAt b 0x11)) 0x11
    <|> bp (!allZero b 0x12 14) 0x12
    <|> bIn (!back && (p.slotIn i 1).isSome) 1
    <|> checkWin b (x.dim 2) (x.dim 1)
    <|> bw (w.mode != 0) 6
    <|> bIn (isCodebook x.format || !x.flatFrom 4) 0
    <|> bh (isCodebook y.format || !y.flatFrom 4 || y.dim 0 != x.dim 0 || y.dim 3 != x.dim 3
        || w.outW (x.dim 1) != some (y.dim 1) || w.outH (x.dim 2) != some (y.dim 2)) (if back then 0x0A else 0x10)
    <|> bOut (!writable o || (back && !sameShape o x)) 0
    <|> bw (mode != 1 && (!covered (x.dim 2) (y.dim 2) w.kh w.sy w.dy w.pt
        || !covered (x.dim 1) (y.dim 1) w.kw w.sx w.dx w.pl)) 0
  | _, _, _ => bIn true 1

/-! ### Box programs (R159, R160) -/

/-- The checks of a BOXDECODE. -/
def Plan.checkBox (p : Plan) (i : Nat) : OpFault :=
  let ok := fun (t : TD) => (t.format == 0 || t.format == 1) && t.dim 0 == 4 && decide (t.dim 1 ≤ 65536) && t.flatFrom 2
  match p.slotIn i 0, p.slotIn i 1, p.slotOut i 0 with
  | some a, some d, some o =>
    bp (!allZero (p.param i) 0x1C 36) 0x1C
    <|> bIn (!ok a) 0 <|> bIn (!ok d || d.dim 1 != a.dim 1) 1
    <|> bOut (o.format != 0 || !sameShape o a) 0
  | _, _, _ => bp true 0

/-- The checks of a SUPPRESS. -/
def Plan.checkSuppress (p : Plan) (i : Nat) : OpFault :=
  let b := p.param i
  let iou := d32 (fld b 0 4)
  match p.slotIn i 0, p.slotIn i 1, p.slotOut i 0, p.slotOut i 1 with
  | some x, some sc, some o, some cnt =>
    let n := x.dim 1
    bp (!((Val.fin false 0 0).lt iou) || (d32 one32).lt iou) 0
    <|> bp (isNan32 (fld b 4 4)) 4
    <|> bp (fld b 8 4 == 0 || decide (65536 < fld b 8 4)) 8
    <|> bp (!allZero b 0x0C 4) 0x0C
    <|> bIn (x.format != 0 || x.dim 0 != 4 || decide (65536 < n) || !x.flatFrom 2) 0
    <|> bIn (!(sc.format == 0 || sc.format == 1) || sc.dim 0 != 1 || sc.dim 1 != n || !sc.flatFrom 2) 1
    <|> (match p.slotIn i 2 with
      | some c => bIn (c.format != 7 || c.dim 0 != 1 || c.dim 1 != n || !c.flatFrom 2) 2
      | none => none)
    <|> bOut (o.format != 0 || o.dim 0 != 1 || o.dim 1 != fld b 8 4 || !o.flatFrom 2) 0
    <|> bOut (cnt.format != 0 || !cnt.flatFrom 0) 1
  | _, _, _, _ => bp true 0

/-! ### VECTOR (R167 to R171) -/

/-- Operands a function takes; 0 for reserved opcodes (R165). -/
def arity (op : Nat) : Nat :=
  if op = 0x05 || op = 0x17 then 3
  else if op = 0x02 || op = 0x03 || op = 0x04 || op = 0x06 || op = 0x09 || op = 0x0A || op = 0x14 || op = 0x15 || op = 0x16
    then 2
  else if 1 ≤ op && op ≤ 0x19 then 1 else 0

/-- The slots a step reads. -/
def stepReads (w : Nat) : List Nat := ([bits w 15 12, bits w 19 16, bits w 23 20]).take (arity (bits w 7 0))

/-- A step word is well formed, and every slot it reads is named or written before (R168). -/
def stepOk (named : List Nat) (before : List Nat) (w : Nat) : Bool :=
  let k := arity (bits w 7 0)
  let dst := bits w 11 8
  k != 0 && decide (w < 2 ^ 24) && decide (8 ≤ dst)
    && (decide (3 ≤ k) || bits w 23 20 == 0) && (decide (2 ≤ k) || bits w 19 16 == 0)
    && (stepReads w).all fun r =>
      if r < 4 then named.contains r else if r < 8 then true
        else (before.map fun x => bits x 11 8).contains r

/-- The checks of R168 on a VECTOR parameter block at an offset: named inputs, whether OUT1 is named, and whether the
block's mode is known to be REDUCE. -/
def checkVec (b : Bytes) (off : Nat) (named : List Nat) (out1 : Bool) : OpFault :=
  let mode := bits (byteAt b 1) 7 6
  let red := bits (byteAt b 1) 5 4
  let steps := vecSteps b
  let n := steps.length
  let writes := fun (d : Nat) => steps.any fun w => bits w 11 8 == d
  bp (n == 0 || decide (16 < byteAt b 0)) off
  <|> bp (mode == 3 || (mode != 1 && red != 0) || (mode != 2 && bit (byteAt b 1) 3)
      || (if mode = 1 then decide (5 < bits (byteAt b 1) 2 0) else bits (byteAt b 1) 2 0 != 0)) (off + 1)
  <|> bp (!allZero b 2 2) (off + 2)
  <|> ((List.range 4).findSome? fun k => bp (wild b (4 + 4 * k)) (off + 4 + 4 * k))
  <|> bp (!allZero b 0x14 12) (off + 0x14)
  <|> ((List.range n).findSome? fun k =>
    bp (!stepOk named (steps.take k) (steps.getD k 0)) (off + 0x20 + 4 * k))
  <|> ((upFrom n (16 - n)).findSome? fun k => bp (fld b (0x20 + 4 * k) 4 != 0) (off + 0x20 + 4 * k))
  <|> bp (!writes 14) (off + 0x20)
  <|> (if mode = 1 then bp (writes 15 || (out1 && (red == 0 || red == 3))) (off + 1)
    else bp (writes 15 != out1) (off + 0x20))

/-- The checks of a VECTOR operation. -/
def Plan.checkVector (p : Plan) (i : Nat) : OpFault :=
  let b := p.param i
  let mode := bits (byteAt b 1) 7 6
  let red := bits (byteAt b 1) 5 4
  let ax := bits (byteAt b 1) 2 0
  let ins := (List.range 4).filterMap fun j => (p.slotIn i j).map fun t => (j, t)
  let reads := fun (j : Nat) => (vecSteps b).any fun w => (stepReads w).contains j
  match p.slotOut i 0 with
  | none => bOut true 0
  | some o =>
    checkVec b 0 (ins.map (·.1)) (p.slotOut i 1).isSome
    <|> (ins.findSome? fun x => bIn (isCodebook x.2.format) x.1)
    <|> bOut (!writable o) 0
    <|> (match p.slotOut i 1 with
      | some t => bOut (!writable t || !sameShape t o) 1
      | none => none)
    <|> (if mode = 0 then
        ins.findSome? fun x => bIn (!(List.range 6).all fun d => fits x.2 (o.dim d) d) x.1
      else if mode = 1 then
        match p.slotIn i 0 with
        | none => bIn true 0
        | some x =>
          let size := fun (d : Nat) => if d = ax then x.dim ax else o.dim d
          bIn (!(List.range 6).all fun d => d == ax || fits x (o.dim d) d) 0
          <|> (ins.findSome? fun y => bIn (y.1 != 0 && !(List.range 6).all fun d => fits y.2 (size d) d) y.1)
          <|> bOut (o.dim ax != (if red = 3 then x.dim ax else 1)) 0
      else
        match p.slotIn i 0, p.slotIn i 3 with
        | some x, some idx =>
          let rows := if bit (byteAt b 1) 3 then x.dim 1 else o.dim 1
          (ins.findSome? fun y => bIn (!y.2.flatFrom 2) y.1)
          <|> bIn (idx.format != 0 || idx.dim 0 != 1 || idx.dim 1 != rows) 3
          <|> bOut (!o.flatFrom 2 || o.dim 0 != x.dim 0) 0
          <|> (([1, 2] : List Nat).findSome? fun j =>
            match p.slotIn i j with
            | some t => bIn (reads j && !t.flatFrom 0) j
            | none => none)
        | none, _ => bIn true 0
        | _, none => bIn true 3)

/-! ### The backward pass (R173, R177, R178, R181) -/

/-- The checks of an ACT_BACKWARD; its output is an activation gradient, G16 or F8e5. DEDUCED, log 84. -/
def Plan.checkActB (p : Plan) (i : Nat) : OpFault :=
  let b := p.param i
  let act := bits (byteAt b 0) 5 3
  let src := bit (byteAt b 0) 2
  match p.slotIn i 0, p.slotIn i 1, p.slotOut i 0 with
  | some dy, some y, some o =>
    bp (decide (63 < byteAt b 0) || bits (byteAt b 0) 1 0 != 0 || act == 0 || act == 7
        || (!src && (act == 5 || act == 6)) || (!src && act == 2 && !fpos (fld b 4 4))) 0
    <|> bp (!allZero b 1 3) 1
    <|> bp (wild b 4 || (act != 2 && fld b 4 4 != 0)) 4
    <|> bp (!allZero b 8 24) 8
    <|> bIn (isCodebook dy.format || !sameShape dy o) 0
    <|> bIn (isCodebook y.format || !sameShape y o) 1
    <|> bOut (!(o.format == 2 || o.format == 4)) 0
  | _, _, _ => bp true 0

/-- The checks of a GRAD_GATHER; its output is a weight gradient: binary32, G16 or F8e5. -/
def Plan.checkGather (p : Plan) (i : Nat) : OpFault :=
  let b := p.param i
  let n := byteAt b 0
  match p.slotOut i 0 with
  | none => bOut true 0
  | some o =>
    bp (decide (n < 2) || decide (4 < n)) 0
    <|> bp (!allZero b 1 15) 1
    <|> ((List.range 4).findSome? fun j =>
      match p.slotIn i j with
      | some t => bIn (decide (n ≤ j) || !(t.format == 0 || t.format == 1 || t.format == 2 || t.format == 4)
          || !sameShape t o) j
      | none => bIn (decide (j < n)) j)
    <|> bOut (!(o.format == 0 || o.format == 2 || o.format == 4)) 0

/-! ### MOVE and PREFETCH (R204 to R208) -/

/-- The offsets of a MOVE, in elements of each dimension. -/
def moveOff (b : Bytes) (d : Nat) : Nat := fld b (8 + 4 * d) 4 * (if d < 2 then 128 else 1)

/-- The checks of a MOVE. -/
def Plan.checkMove (p : Plan) (i : Nat) : OpFault :=
  let b := p.param i
  let peer := bit (byteAt b 0) 0
  let add := bit (byteAt b 0) 2
  match p.slotIn i 0, p.slotOut i 0 with
  | some x, some o =>
    bp (decide (7 < byteAt b 0) || (!peer && bit (byteAt b 0) 1)) 0
    <|> bp (byteAt b 1 != 0) 1
    <|> bp (decide (16383 < fld b 2 2) || (!peer && fld b 2 2 != 0)) 2
    <|> bp (!allZero b 4 4) 4
    <|> bp (!allZero b 0x20 32) 0x20
    <|> bOut (x.format != o.format || x.mode != o.mode || x.cbF8 != o.cbF8 || x.axis1 != o.axis1) 0
    <|> ((List.range 6).findSome? fun d => bp (decide (x.dim d < moveOff b d + o.dim d)) (8 + 4 * d))
    <|> bOut (!peer && p.slotsMeet i (fun k => p.inTd i 0 k) (fun k => p.outTd i 0 k)) 0
    <|> bp (add && (peer || !(x.format == 0 || x.format == 1))) 0
  | _, _ => bp true 0

/-- The checks of a PREFETCH. -/
def State.checkPrefetch (s : State) (p : Plan) (i : Nat) : OpFault :=
  let b := p.param i
  match p.slotIn i 0 with
  | none => bIn true 0
  | some x =>
    bp (decide (1 < byteAt b 0)) 0
    <|> bp (!allZero b 1 15) 1
    <|> bIn (byteAt b 0 == 1 && (match s.rgn.get x.region with
      | some r => r.kind != 1
      | none => true)) 0

/-! ### Collectives and the update (R292, R293, R403 to R407, R414, R419) -/

/-- A flat tensor that holds a shard's parameters (R403). -/
def TD.isFlat (t : TD) (params : Nat) : Bool :=
  t.rank == 2 && t.dim 0 == 128 && t.dim 1 == params / 128 && t.stride 0 == 1 && t.stride 1 == 1 && !t.col && !t.trailing

/-- Operations that name a shard's line. -/
def Plan.lineOps (p : Plan) (shard : Nat) : List Nat :=
  (p.opsOf 0x0030 ++ p.opsOf 0x0031).filter fun i => p.shardOf i == shard

/-- The checks of a line's block; `outside` when this device is the twin and lies off the line. DEDUCED, log 83. -/
def State.checkLine (s : State) (p : Plan) (i : Nat) (d : ShardDef) (outside : Bool) : OpFault :=
  let b := p.param i
  let l := p.lineOf i
  bp (decide (3 ≤ byteAt b 4)) 4
  <|> bp (l.count == 0 || decide (s.fab.sizeOf l.axis < l.base + l.count)) 6
  <|> bp (!allZero b 7 9) 7
  <|> bp (d.params % 16384 != 0) 0
  <|> bp (!l.holds d.owner d.owner || (d.twinEn && withCoord d.twin l.axis (coordOf d.owner l.axis) == d.owner
      && !l.holds d.owner d.twin)) 5
  <|> bp (!outside && (match s.fab.addr with | some me => !l.holds d.owner me | none => true)) 5
  <|> bp ((p.lineOps d.shard).any fun j => p.lineOf j != l) 4

/-- This device is a shard's twin and lies outside the line of an operation. -/
def State.offLine (s : State) (p : Plan) (i : Nat) (d : ShardDef) : Bool :=
  match s.fab.addr with
  | some me => s.twins d && !(p.lineOf i).holds d.owner me
  | none => false

/-- The checks of a CHAIN_REDUCE. -/
def State.checkReduce (s : State) (p : Plan) (i : Nat) : OpFault :=
  match s.trn.shard (p.shardOf i) with
  | none => bp true 0
  | some d =>
    let off := s.offLine p i d
    let flat := fun (j : Nat) (f : Nat) => match p.slotIn i j with
      | some t => t.format == f && t.mode == 0 && t.isFlat d.params
      | none => false
    s.checkLine p i d off
    <|> (if off then
        ((List.range 3).findSome? fun j => bIn (p.slotIn i j).isSome j) <|> bOut (p.slotOut i 0).isSome 0
      else
        bIn (!flat 0 0) 0 <|> bIn (!flat 1 1) 1 <|> bIn (!flat 2 1) 2
        <|> bOut (match p.slotOut i 0 with
          | some t => !(t.format == 4 && t.mode == 1 && !t.top && t.isFlat d.params)
          | none => true) 0)
    <|> bp ((s.owns d || s.twins d) && (p.auOf d.shard).isNone) 0

/-- The checks of an ALLGATHER. -/
def State.checkGather (s : State) (p : Plan) (i : Nat) : OpFault :=
  match s.trn.shard (p.shardOf i), p.slotOut i 0 with
  | some d, some t =>
    s.checkLine p i d false
    <|> bOut (!t.isFlat d.params || t.rw != 0
        || !((t.mode == 0 && (t.format == 0 || t.format == 1)) || (t.mode == 1 && (t.format == 3 || t.format == 5)))) 0
  | none, _ => bp true 0
  | _, none => bOut true 0

/-- The checks of an ARRIVAL_UPDATE but for the order of R293. -/
def State.checkUpdate (s : State) (p : Plan) (i : Nat) : OpFault :=
  let b := p.param i
  let prog := bits (byteAt b 4) 1 0
  let unit := fun (off : Nat) => fneg? (fld b off 4) || !(d32 (fld b off 4)).lt (d32 one32)
  match s.trn.shard (fld b 0 4) with
  | none => bp true 0
  | some d =>
    bp (decide (3 < byteAt b 4)) 4
    <|> bp (!allZero b 5 3) 5
    <|> ((List.range 7).findSome? fun k => bp (wild b (8 + 4 * k)) (8 + 4 * k))
    <|> bp (fneg? (fld b 8 4)) 8 <|> bp (fneg? (fld b 0x0C 4)) 0x0C
    <|> bp (unit 0x10) 0x10
    <|> bp (if prog = 2 then unit 0x14 else fld b 0x14 4 != 0) 0x14
    <|> bp (if prog = 2 then !fpos (fld b 0x18 4) else fld b 0x18 4 != 0) 0x18
    <|> bp (!fpos (fld b 0x1C 4)) 0x1C
    <|> bp (fneg? (fld b 0x20 4)) 0x20
    <|> bp (!allZero b 0x24 28) 0x24
    <|> bp ((prog == 2 && d.moments != 2) || (decide (prog < 2) && d.moments != 1)) 4
    <|> (if prog = 3 then
        checkVec (b.drop 0x40) 0x40 [0, 1, 2, 3] true
        <|> bp (bits (byteAt b 0x41) 7 6 != 0) 0x41
        <|> bp (d.moments == 2 && !(vecSteps (b.drop 0x40)).any fun w => bits w 11 8 == 13) 0x60
      else bp (!allZero b 0x40 96) 0x40)
    <|> bp (((p.opsOf 0x0030).filter fun j => p.shardOf j == d.shard).length != 1) 0
    <|> bp ((p.opsOf 0x0040).any fun j => j != i && fld (p.param j) 0 4 == d.shard) 0

/-! ### GLADE_BATCH (R447, R448) -/

/-- Bytes of a tensor's tile records. -/
def TD.recordBytes (t : TD) : Nat := ((List.range 6).map t.steps).foldl (· * ·) (t.elems + t.side)

/-- The checks of a GLADE_BATCH. DEDUCED, log 87. -/
def State.checkBatch (s : State) (p : Plan) (i : Nat) : OpFault :=
  let b := p.param i
  let kind := bits (byteAt b 1) 7 6
  let levels := byteAt b 3
  let samples := fld b 4 2
  let src := s.gld.sources.find? fun (g : Source) => g.id == bits (byteAt b 0) 3 0
  match src, p.slotOut i 0 with
  | none, _ => bp true 0
  | _, none => bOut true 0
  | some g, some o =>
    let o1 := p.slotOut i 1
    bp (decide (15 < byteAt b 0)) 0
    <|> bp (kind == 3 || (kind != 2 && bits (byteAt b 1) 2 0 != 0)) 1
    <|> bp (decide (31 < byteAt b 2) || (kind != 0 && byteAt b 2 / 2 != 0) || (kind != 1 && bit (byteAt b 2) 0)) 2
    <|> bp (levels == 0 || decide (6 < levels) || (kind != 0 && levels != 1)) 3
    <|> bp (samples == 0) 4
    <|> bp (if kind = 0 then !([1, 3, 4] : List Nat).contains (byteAt b 6) else byteAt b 6 != 0) 6
    <|> bp (byteAt b 7 != 0) 7
    <|> bp (if kind = 0 then fld b 8 2 == 0 || fld b 0x0A 2 == 0 else fld b 8 4 != 0) 8
    <|> (if kind = 0 then
        (([0x0C, 0x10, 0x14, 0x18, 0x1C, 0x20, 0x24, 0x28, 0x30, 0x34, 0x38, 0x3C, 0x40, 0x44] : List Nat).findSome?
          fun k => bp (wild b k) k)
        <|> bp (!fpos (fld b 0x0C 4) || (d32 (fld b 0x10 4)).lt (d32 (fld b 0x0C 4))) 0x0C
        <|> bp (!fpos (fld b 0x14 4) || (d32 (fld b 0x18 4)).lt (d32 (fld b 0x14 4))) 0x14
        <|> bp (fneg? (fld b 0x1C 4) || (d32 one32).lt (d32 (fld b 0x1C 4))) 0x1C
      else bp (!allZero b 0x0C 32) 0x0C <|> bp (!allZero b 0x30 24) 0x30)
    <|> bp (!allZero b 0x2C 4) 0x2C
    <|> bp (if kind = 1 then decide (2 ^ 24 ≤ fld b 0x48 4) else fld b 0x48 4 != 0) 0x48
    <|> bp (if kind = 1 then fld b 0x4C 4 == 0 || decide (1048576 < fld b 0x4C 4) else fld b 0x4C 4 != 0) 0x4C
    <|> bp (kind != 2 && fld b 0x50 4 != 0) 0x50
    <|> bp (if kind = 2 then fld b 0x54 2 == 0 else fld b 0x54 2 != 0) 0x54
    <|> bp (!allZero b 0x56 2) 0x56
    <|> bp (!vaOk (fld b 0x58 8)) 0x58 <|> bp (!vaOk (fld b 0x60 8)) 0x60
    <|> ((upFrom levels (6 - levels)).findSome? fun l => bp (fld b (0x64 + 4 * l) 4 != 0) (0x64 + 4 * l))
    <|> bp (!allZero b 0x7C 4) 0x7C
    <|> bp ((p.opsOf 0x0050).any fun j => decide (j < i) && bits (byteAt (p.param j) 0) 3 0 == g.id) 0
    <|> bOut (!writable o || (if kind = 0 then
          !(o.act (bit (byteAt b 2) 4) == ⟨byteAt b 6, fld b 8 2, fld b 0x0A 2, samples⟩ && o.flatFrom 4)
        else if kind = 1 then
          o.format != 0 || o.dim 0 != 1 || o.dim 1 != samples * fld b 0x4C 4 || !o.flatFrom 2
        else decide (o.rank < 2) || decide (5 < o.rank) || o.dim (o.rank - 2) != fld b 0x54 2
          || o.dim (o.rank - 1) != samples)) 0
    <|> (match o1 with
      | none => bOut (kind == 2 || (kind == 1 && bit (byteAt b 2) 0)) 1
      | some t => bOut (!writable t || kind == 0 || (if kind = 1 then
            !bit (byteAt b 2) 0 || t.format != 0 || !sameShape t o
          else decide (t.rank < 2) || decide (5 < t.rank) || t.dim (t.rank - 2) != fld b 0x54 2
            || t.dim (t.rank - 1) != samples)) 1)
    <|> ((List.range levels).findSome? fun l =>
      bp ((List.range p.mbCount).any fun k =>
        match p.outTd i 0 k with
        | some t =>
          let ls := pyramid b t
          let u := if kind = 0 then ls.getD l t else t
          (s.misplaced u true).isSome || (ls.take l).any (fun v => u.meets v)
            || (match p.outTd i 1 k with | some v => u.meets v | none => false)
        | none => true) (0x64 + 4 * l))
    <|> bp (decide (g.prepBytes < (g.lookahead + 1) * (p.mbCount * ((gladeOuts b o o1).map TD.recordBytes).sum))) 0

/-! ### Every operation -/

/-- The checks of an operation's class. -/
def State.checkClass (s : State) (p : Plan) (i : Nat) : OpFault :=
  let c := (p.op i).code
  if c = 0x0001 then p.checkMatmul i
  else if c = 0x0010 then p.checkConv i (convOp (p.param i))
  else if c = 0x0011 then p.checkPool i
  else if c = 0x0012 then p.checkBox i
  else if c = 0x0013 then p.checkSuppress i
  else if c = 0x0014 then p.checkConv i (saplingOp (p.param i))
  else if c = 0x0020 then p.checkVector i
  else if c = 0x0021 then p.checkActB i
  else if c = 0x0022 then p.checkGather i
  else if c = 0x0030 then s.checkReduce p i
  else if c = 0x0031 then s.checkGather p i
  else if c = 0x0032 then bp (!allZero (p.param i) 0 16) 0
  else if c = 0x0040 then s.checkUpdate p i
  else if c = 0x0050 then s.checkBatch p i
  else if c = 0x0060 then p.checkMove i
  else s.checkPrefetch p i

/-- The checks of an operation's header (R321 to R323, R327, R447). -/
def Plan.checkHeader (p : Plan) (i : Nat) : OpFault :=
  let raw := entryOf p.bytes 2 i
  let h := OpHdr.ofBytes raw
  match classRow h.code with
  | none => bh true 0
  | some c =>
    let used := fun (l : List Nat) (j : Nat) => l.getD j absent != absent
    bh (decide (3 < fld raw 2 2) || (h.perMb && ([0x30, 0x31, 0x32, 0x40] : List Nat).contains h.code)
        || (!h.perMb && h.code == 0x0050)) 2
    <|> bh (!allZero raw 6 2) 6
    <|> ((List.range 4).findSome? fun j =>
      bIn (if used h.ins j then decide (p.count 0 ≤ h.ins.getD j 0) || !(c.needIn ++ c.mayIn).contains j
        else c.needIn.contains j) j)
    <|> ((List.range 2).findSome? fun j =>
      bOut (if used h.outs j then decide (p.count 0 ≤ h.outs.getD j 0) || !(c.needOut ++ c.mayOut).contains j
        else c.needOut.contains j) j)
    <|> bh (h.param % 16 != 0) 0x14
    <|> bh (h.paramLen != c.len || decide (p.count 3 < h.param + h.paramLen)) 0x18
    <|> bh (!allZero raw 0x1C 36) 0x1C
    <|> bh (decide (2097152 < ((List.range (i + 1)).map fun j => if (p.op j).perMb then p.mbCount else 1).sum)) 2
    <|> bh (h.code == 0x0032 && (p.opsOf 0x0032).head? != some i) 0
    <|> bh (h.code == 0x0040 && !p.hasVerdict) 0

/-- The checks of one operation. -/
def State.checkOp (s : State) (p : Plan) (i : Nat) : Option PlanErr :=
  (p.checkHeader i <|> s.checkClass p i).map fun e =>
    ⟨e.1, 4, i, peNone, if 2 ^ 16 ≤ e.2 then (sectOf p.bytes 2).1 + 64 * i + (e.2 - 2 ^ 16)
      else (sectOf p.bytes 3).1 + (p.op i).param + e.2⟩

end Sys2Proof.Machine
end

