-- ==== Sys2Proof/Machine/Plans.lean ====
section
/-! DEFINITION. PLAN_LOAD and PLAN_DROP (R317, R324, R325, R327, R330, R383, R420, R519 to R521, R605, R636): edges, the task
graph, resources, and what a loaded plan holds. -/

namespace Sys2Proof.Machine

/-! ### 5 and 6: edges and the task graph (R324, R325, R327, R420, R293) -/

/-- A failure of an edge. -/
def edgeErr (p : Plan) (k : Nat) : PlanErr := ⟨cBAD_PLAN, 5, k, peNone, (sectOf p.bytes 4).1 + 8 * k⟩

/-- The checks of one edge. -/
def Plan.checkEdge (p : Plan) (k : Nat) : Option PlanErr :=
  let w := leNat (entryOf p.bytes 4 k)
  let a := w % 65536
  let b := w / 65536 % 65536
  let kind := w / 2 ^ 32
  failIf (decide (2 < kind) || decide (p.count 2 ≤ a) || decide (p.count 2 ≤ b)
    || (kind != 0 && !((p.op a).perMb && (p.op b).perMb))) (edgeErr p k)

/-- The instances left after those without a predecessor among them have been taken away, round by round. -/
def peel (pre : Nat × Nat → List (Nat × Nat)) : Nat → List (Nat × Nat) → List (Nat × Nat)
  | 0, l => l
  | n + 1, l =>
    let rest := l.filter fun x => (pre x).any l.contains
    if rest.length = l.length then l else peel pre n rest

/-- The graph of the given edges and the orders of R325 has no cycle among instances. -/
def Plan.acyclic (p : Plan) (es : List Edge) : Bool :=
  (peel (fun x => p.predsBy es x.1 x.2) p.instances.length p.instances).isEmpty

/-- The first edge in section order whose addition makes a cycle. DEDUCED, log 80. -/
def Plan.checkCycle (p : Plan) : Option PlanErr :=
  if p.acyclic p.edges then none
  else ((List.range p.edges.length).find? fun k => !p.acyclic (p.edges.take (k + 1))).map (edgeErr p)

/-- The operation is a MOVE with MV_ADD. -/
def Plan.adds (p : Plan) (i : Nat) : Bool := (p.op i).code == 0x0060 && bit (byteAt (p.param i) 0) 2

/-- Two instances conflict and must be ordered (R216, R325). -/
def Plan.clash (p : Plan) (a b : Nat × Nat) : Bool :=
  let free := p.nondet && p.adds a.1 && p.adds b.1
  (p.touches a.1 a.2).any fun x => (p.touches b.1 b.2).any fun y =>
    (x.1 || y.1) && !(free && x.1 && y.1) && x.2.meets y.2

/-- The first pair of conflicting instances that no path orders (R325, R520). DEDUCED, log 81. -/
def Plan.checkOrder (p : Plan) : Option PlanErr :=
  firstFail p.instances fun v =>
    ((p.instances.takeWhile (· != v)).find? fun u =>
      u.1 != v.1 && p.clash u v && !(p.before_ v).contains u && !(p.before_ u).contains v).map fun u =>
        ⟨cBAD_PLAN, 4, v.1, if (p.op v.1).perMb then v.2 else peNone, (sectOf p.bytes 2).1 + 64 * u.1⟩

/-- Every instance of an operation comes before every instance of another. -/
def Plan.opBefore (p : Plan) (i j : Nat) : Bool :=
  (p.mbs j).all fun b => (p.mbs i).all fun a => (p.before_ (j, b)).contains (i, a)

/-- Operations that the VERDICT must follow (R327, R420). -/
def Plan.underVerdict (p : Plan) (i : Nat) : Bool :=
  let h := p.op i
  let watched := fun (id : Nat) => id != absent
    && ((List.range (p.count 7)).any (fun k => leNat (entryOf p.bytes 7 k) == id) || (p.rawTd id).rw != 0)
  h.code == 0x0040 || h.code == 0x0031 || p.peerIn i
    || (h.outs ++ (if h.code = 0x0030 then (h.ins.drop 1).take 2 else [])).any watched

/-- The orders that R293, R327 and R420 demand, by ascending operation. -/
def Plan.checkPaths (p : Plan) : Option PlanErr :=
  firstFail (List.range (p.count 2)) fun i =>
    failIf (((p.opsOf 0x0032).any fun v => p.underVerdict i && !p.opBefore i v)
        || ((p.op i).code == 0x0040
          && (p.opsOf 0x0030).any fun c => p.shardOf c == fld (p.param i) 0 4 && !p.opBefore c i))
      ⟨cBAD_PLAN, 4, i, peNone, (sectOf p.bytes 2).1 + 64 * i⟩

/-! ### 7: resources (R330, R383) -/

/-- The send contexts that a plan takes: operation, instance, destination (R383). -/
def State.planCtxs (s : State) (p : Plan) : List (Nat × Nat × Nat) :=
  (List.range (p.count 2)).flatMap fun i =>
    let c := (p.op i).code
    if p.peerOut i then (p.mbs i).map fun b => (i, b, fld (p.param i) 2 2)
    else if c = 0x0030 || c = 0x0031 then
      match s.trn.shard (p.shardOf i), s.fab.addr with
      | some d, some me =>
        let next := (p.lineOf i).next me
        if s.offLine p i d then []
        else if c = 0x0031 then (if next = d.owner then [] else [(i, 0, next)])
        else if me ≠ d.owner then [(i, 0, next)]
        else if d.twinEn then [(i, 0, d.twin)] else []
      | _, _ => []
    else []

/-- The lowest free context numbers. DEDUCED, log 36. -/
def Fab.freeCtxs (f : Fab) (n : Nat) : List Nat :=
  ((upFrom 1024 (n + f.send.length)).filter fun k => !(f.send.any (·.ctx == k))).take n

/-- A failure for want of resources. -/
def resErr (off : Nat) : PlanErr := ⟨cNO_RESOURCE, 7, 0, peNone, off⟩

/-- Every check of a container in the order of R520. -/
def State.checkPlan (s : State) (b : Bytes) : Option PlanErr :=
  let p := rawPlan b
  checkHeader b <|> checkSections b <|> checkSettings p
  <|> firstFail (List.range (p.count 0)) (s.checkDesc p)
  <|> firstFail (List.range (p.count 2)) (s.checkOp p)
  <|> firstFail (List.range (p.count 4)) p.checkEdge
  <|> p.checkCycle <|> p.checkOrder <|> p.checkPaths
  <|> failIf (decide (4 ≤ s.pln.plans.length) || decide (s.fab.ctxFree < (s.planCtxs p).length)) (resErr peNone)

/-! ### Loading -/

/-- The handle after the last one given out (R521). -/
def nextHandle (l : Pln) : Nat :=
  let after := fun (n : Nat) => if n = 0xFFFF then 1 else n + 1
  let ok := fun (n : Nat) => !(l.plans.any (·.handle == n))
  let h := after l.lastHandle
  ((List.range 5).foldl (fun n _ => if ok n then n else after n) h)

/-- The notes of a plan: operations without an error bound (R117, R143). -/
def Plan.notes (p : Plan) : List Nat :=
  (List.range (p.count 2)).filter fun i =>
    match (p.op i).code, p.slotIn i 0, p.slotIn i 1, p.slotOut i 0 with
    | 0x0001, _, _, _ => decide (2 ^ 20 < fld (p.param i) 8 4)
    | 0x0010, some a, some b, some o =>
      let v := convOp (p.param i)
      let r := v.roles a b o
      decide (2 ^ 20 < chunkOf a b * v.chunks (r.1.act false) (r.2.1.act false) (chunkOf a b))
    | _, _, _, _ => false

/-- A loaded plan as PLAN_LOAD leaves it, with the k-th continuity entry after an admission (R310, R605). -/
def State.newPlan (s : State) (b : Bytes) (h : Nat) : Plan :=
  let p := rawPlan b
  let p := { p with handle := h, loadNo := s.pln.loads, lsExp := intOfByte (p.setting 0x11 1) }
  match s.pln.continuity with
  | none => { p with continuityBad := s.pln.awaitContinuity }
  | some c => p.continued c

/-- The state with a checked container loaded, and the reply (R520, R521). -/
def State.loadPlan (s : State) (b : Bytes) : State × Resp :=
  let h := nextHandle s.pln
  let p := s.newPlan b h
  let want := s.planCtxs p
  let ctxs := (s.fab.freeCtxs want.length).zip want
  let notes := p.notes
  ({ s with
      pln := { s.pln with plans := s.pln.plans ++ [p], lastHandle := h, loads := s.pln.loads + 1 }
      fab := { s.fab with send := s.fab.send ++ ctxs.map fun c =>
        { ctx := c.1, dst := c.2.2.2, plan := h, op := c.2.1, mb := c.2.2.1, next := 0, credits := 256, kept := [], unacked := []
          waiting := [], resends := 0, failed := false } } },
    some (cOK, leBytes 2 h ++ leBytes 2 notes.length ++ leBytes 4 p.instances.length ++ leBytes 4 want.length ++ zeros 4
      ++ (notes.take 492).flatMap fun i => leBytes 4 (0x10000 + i)))

/-- The first byte of a range whose demand fault finds no table space. -/
def State.unresolved (s : State) (va len : Nat) : Nat :=
  let cs := chunksOf va len
  let n := (List.range cs.length).find? fun k => ((cs.take (k + 1)).foldlM (fun (s : State) (c : Nat × Nat) =>
    s.resolveRange c.1 c.2) s).isNone
  match n with
  | some k => (cs.getD k (va, 0)).1 - va
  | none => 0

/-- The body of PLAN_LOAD (R519, R520, R636). -/
def planLoadBody (q : Req) (s : State) : State × Resp :=
  let va := q.f 0 8
  let len := q.f 8 4
  if !(q.zb 0x0C 4 && vaOk va) || va % 64 ≠ 0 || len < 0x14
      || (chunksOf va len).any (fun c => (s.rgn.byVa c.1).isNone) then (s, rcode cBAD_ARG) else
  match s.cmdAccess va len false cBAD_ARG with
  | .error (c, t) => (t, some (c, if c = cNO_RESOURCE then (resErr (s.unresolved va len)).bytes else []))
  | .ok s =>
    let x := s.readVa va len
    if fld x.1 0x10 4 ≠ len then (x.2, rcode cBAD_ARG) else
    match x.2.checkPlan x.1 with
    | some e => (x.2, some (e.code, e.bytes))
    | none => x.2.loadPlan x.1

/-- PLAN_LOAD (R317 to R330, R519 to R521). -/
def execPlanLoad (k : SlotId) (s : State) : Host.Outcome State Fault Refusal :=
  .next (s.take k (·.opcode == 0x0301) planLoadBody)

/-- The body of PLAN_DROP (R330, R383, R521): the plan and its contexts go, and what the Glade prepared for it. -/
def planDropBody (q : Req) (s : State) : State × Resp :=
  let h := q.f 0 2
  if !q.zb 2 6 || (s.pln.get h).isNone then (s, rcode cBAD_ARG)
  else if (s.stp.current.toList ++ s.stp.queued.toList).any fun st => st.plan == h then (s, rcode cBUSY)
  else
    ({ s with
        pln := { s.pln with plans := s.pln.plans.filter fun p => p.handle != h }
        fab := { s.fab with send := s.fab.send.filter fun c => c.plan != h }
        gld := s.gld.freePreps fun r => r.plan == h },
      rcode cOK)

/-- PLAN_DROP (R330, R521). -/
def execPlanDrop (k : SlotId) (s : State) : Host.Outcome State Fault Refusal :=
  .next (s.take k (·.opcode == 0x0302) planDropBody)

end Sys2Proof.Machine
end

