-- ==== Sys2Proof/Machine/Huffman.lean ====
section
/-! DEFINITION. Canonical Huffman codes and bit streams, shared by JPEG and PNG (R427): the codes of ISO/IEC 10918-1
and of the deflate method, which the spec names but does not restate (PRESUMED, log 9). -/

namespace Sys2Proof.Machine

/-- Why an image is not decoded (R427, R431). -/
inductive ImageErr where
  | malformed
  | unsupported

/-- The bits of a number of `n` bits, most significant first. -/
def bitsHigh : Nat → Nat → List Bool
  | 0, _ => []
  | n + 1, v => bit v n :: bitsHigh n v

/-- The bits of a number of `n` bits, least significant first. -/
def bitsLow : Nat → Nat → List Bool
  | 0, _ => []
  | n + 1, v => (v % 2 == 1) :: bitsLow n (v / 2)

/-- A number of `n` bits taken from a stream, most significant first. -/
def takeHigh : Nat → List Bool → Option (Nat × List Bool)
  | 0, l => some (0, l)
  | _ + 1, [] => none
  | n + 1, b :: r => (takeHigh n r).map fun x => (b2n b * 2 ^ n + x.1, x.2)

/-- A number of `n` bits taken from a stream, least significant first. -/
def takeLow : Nat → List Bool → Option (Nat × List Bool)
  | 0, l => some (0, l)
  | _ + 1, [] => none
  | n + 1, b :: r => (takeLow n r).map fun x => (b2n b + 2 * x.1, x.2)

/-- A canonical code: how many codes of each length there are, from length 1 on, and their symbols in order. -/
structure Huff where
  counts : List Nat
  syms : Array Nat

/-- The code space that the codes use, in units of codes of the greatest length. -/
def Huff.used (h : Huff) : Nat := h.counts.foldl (fun a c => 2 * a + c) 0

/-- Looks a code up bit by bit: `code` is what is read, `first` the first code of this length, `index` its symbol. -/
def huffFrom (syms : Array Nat) : List Nat → Nat → Nat → Nat → List Bool → Option (Nat × List Bool)
  | c :: cs, code, first, index, b :: r =>
    let code := code + b2n b
    if code < first + c then (syms[index + (code - first)]?).map fun s => (s, r)
    else huffFrom syms cs (2 * code) (2 * (first + c)) (index + c) r
  | _, _, _, _, _ => none

/-- The next symbol of a stream. PRESUMED, log 9. -/
def Huff.get (h : Huff) (l : List Bool) : Option (Nat × List Bool) := huffFrom h.syms h.counts 0 0 0 l

end Sys2Proof.Machine
end

