-- ==== Sys2Proof/Machine/Jpeg.lean ====
section
/-! DEFINITION. JPEG streams down to their coefficients: marker segments, baseline and progressive scans, restart
intervals (R427), by ISO/IEC 10918-1 (PRESUMED, log 9). -/

namespace Sys2Proof.Machine

/-- What a JPEG stream holds: its size, and per component its sampling factors and its 8 × 8 blocks of dequantised
coefficients in raster order, coefficient `8 * v + u` for vertical frequency v and horizontal u. -/
structure JpegScan where
  width : Nat
  height : Nat
  comps : List (Nat × Nat × List (List Int))

/-- A component of the frame: identifier, sampling factors, quantisation table number, the table once a scan has taken
it, the blocks of a row and of a column with the padding of whole MCUs, its coefficients block by block in zigzag
order, and the bit position that each of the 64 has reached (255 where no scan has given it). -/
structure JpegComp where
  id : Nat
  h : Nat
  v : Nat
  tq : Nat
  q : Option (Array Nat)
  wide : Nat
  high : Nat
  coefs : Array Int
  levels : Array Nat

/-- The tables and the frame while a stream is read. -/
structure Jpeg where
  quant : List (Nat × Array Nat)
  dc : List (Nat × Huff)
  ac : List (Nat × Huff)
  restart : Nat
  progressive : Bool
  width : Nat
  height : Nat
  comps : Array JpegComp
  framed : Bool

/-- The raster place, `8 * v + u`, of each coefficient in zigzag order. -/
def zigzag : List Nat :=
  (List.range 15).flatMap fun d =>
    let l := ((List.range 8).filter fun v => decide (v ≤ d) && decide (d < v + 8)).map fun v => 8 * v + (d - v)
    if d % 2 = 0 then l.reverse else l

/-! ### Tables -/

/-- The tables of a DQT segment: one byte a value, as 8-bit precision demands. -/
def dqtTables : Nat → Bytes → List (Nat × Array Nat) → Option (List (Nat × Array Nat))
  | 0, _, _ => none
  | n + 1, b, t =>
    if b.isEmpty then some t
    else
      let v := ((b.drop 1).take 64).map (·.toNat)
      if byteAt b 0 < 4 && v.length == 64 && v.all (· != 0) then
        dqtTables n (b.drop 65) ((byteAt b 0, v.toArray) :: t)
      else none

/-- The tables of a DHT segment: class and number, the count of each length from 1 to 16, the symbols. No code is all
ones. -/
def dhtTables : Nat → Bytes → Jpeg → Option Jpeg
  | 0, _, _ => none
  | n + 1, b, j =>
    if b.isEmpty then some j
    else
      let counts := ((b.drop 1).take 16).map (·.toNat)
      let total := counts.foldl (· + ·) 0
      let syms := ((b.drop 17).take total).map (·.toNat)
      let h : Huff := { counts := counts, syms := syms.toArray }
      let id := byteAt b 0 % 16
      if byteAt b 0 < 32 && id < 4 && counts.length == 16 && syms.length == total && h.used < 2 ^ 16 then
        dhtTables n (b.drop (17 + total))
          (if byteAt b 0 < 16 then { j with dc := (id, h) :: j.dc } else { j with ac := (id, h) :: j.ac })
      else none

/-! ### Frame -/

/-- The ratios of the first component's sampling factors to another's that R427 supports. -/
def ratioFits (y c : Nat × Nat) : Bool :=
  ([(1, 1), (2, 1), (2, 2), (1, 2)] : List (Nat × Nat)).any fun r => y.1 == r.1 * c.1 && y.2 == r.2 * c.2

/-- The frame header of a baseline (SOF0) or progressive (SOF2) frame. A height of 0, which a DNL segment would give,
is no option that R427 shows. PRESUMED, log 9. -/
def sofFrame (progressive : Bool) (b : Bytes) (j : Jpeg) : Except ImageErr Jpeg :=
  let beNat := fun (o : Nat) => byteAt b o * 256 + byteAt b (o + 1)
  let n := byteAt b 5
  let h := beNat 1
  let w := beNat 3
  let comp := fun (i : Nat) => (byteAt b (6 + 3 * i), byteAt b (7 + 3 * i) / 16, byteAt b (7 + 3 * i) % 16, byteAt b (8 + 3 * i))
  let cs := (List.range n).map comp
  if j.framed || b.length ≠ 6 + 3 * n || n = 0 then .error .malformed
  else if byteAt b 0 ≠ 8 || (n ≠ 1 && n ≠ 3) || h = 0 || 16384 < w || 16384 < h then .error .unsupported
  else if w = 0 || !(cs.map (·.1)).Nodup || cs.any fun c => c.2.1 = 0 || 4 < c.2.1 || c.2.2.1 = 0 || 4 < c.2.2.1 || 3 < c.2.2.2 then
    .error .malformed
  else
    let cs := if n = 1 then cs.map fun c => (c.1, 1, 1, c.2.2.2) else cs
    let y := match cs with | c :: _ => (c.2.1, c.2.2.1) | [] => (1, 1)
    if (cs.drop 1).any (fun c => !ratioFits y (c.2.1, c.2.2.1)) || (cs.drop 1).any (fun c => decide ((c.2.1, c.2.2.1) ≠ ((cs.getD 1 c).2.1, (cs.getD 1 c).2.2.1))) then
      .error .unsupported
    else
      let mw := ceilDiv w (8 * y.1)
      let mh := ceilDiv h (8 * y.2)
      .ok { j with
        framed := true, progressive := progressive, width := w, height := h
        comps := (cs.map fun c =>
          { id := c.1, h := c.2.1, v := c.2.2.1, tq := c.2.2.2, q := none, wide := mw * c.2.1, high := mh * c.2.2.1
            coefs := Array.replicate (mw * c.2.1 * (mh * c.2.2.1) * 64) 0
            levels := Array.replicate 64 255 }).toArray }

/-! ### Blocks -/

/-- The signed value of `t` bits. -/
def extended (v t : Nat) : Int := if t = 0 then 0 else if v < 2 ^ (t - 1) then (v : Int) - 2 ^ t + 1 else v

/-- The bits that are left, the coefficients of the component, the DC predictor, and the blocks of a run that end early. -/
structure ScanAt where
  rest : List Bool
  coefs : Array Int
  pred : Int
  eob : Nat

/-- A DC coefficient of a first scan: the difference from the one before. -/
def dcFirst (h : Huff) (al base : Nat) (s : ScanAt) : Option ScanAt := do
  let (t, r) ← h.get s.rest
  if 11 < t then none
  let (v, r) ← takeHigh t r
  let p := s.pred + extended v t
  pure { s with rest := r, pred := p, coefs := s.coefs.set! base (p * 2 ^ al) }

/-- A DC coefficient of a later scan: one more bit. -/
def dcRefine (al base : Nat) (s : ScanAt) : Option ScanAt := do
  let (v, r) ← takeHigh 1 s.rest
  pure { s with rest := r, coefs := s.coefs.set! base (s.coefs.getD base 0 + (v : Int) * 2 ^ al) }

/-- The AC coefficients of a first scan from place `k` to `se`; a run of ended blocks stands in progressive scans alone. -/
def acFirst (h : Huff) (prog : Bool) (al base se : Nat) : Nat → Nat → ScanAt → Option ScanAt
  | 0, k, s => if se < k then some s else none
  | n + 1, k, s =>
    if se < k then some s
    else do
      let (rs, r) ← h.get s.rest
      let run := rs / 16
      let size := rs % 16
      if size = 0 then
        if run = 15 then
          if se < k + 15 then none else acFirst h prog al base se n (k + 16) { s with rest := r }
        else if run = 0 then pure { s with rest := r }
        else if !prog then none
        else
          let (v, r) ← takeHigh run r
          pure { s with rest := r, eob := 2 ^ run + v - 1 }
      else if 10 < size || se < k + run then none
      else
        let (v, r) ← takeHigh size r
        acFirst h prog al base se n (k + run + 1) { s with rest := r, coefs := s.coefs.set! (base + k + run) (extended v size * 2 ^ al) }

/-- One more bit of each coefficient that is not 0, from place `k` on, past `run` coefficients that are 0 and to the next
such; all of the rest where `run` is none. Answers the place it stopped at, `k + n` at the end. -/
def refineRun (al base : Nat) (run : Option Nat) : Nat → Nat → ScanAt → Option (Nat × ScanAt)
  | 0, k, s => some (k, s)
  | n + 1, k, s =>
    let c := s.coefs.getD (base + k) 0
    if c = 0 then
      match run with
      | some 0 => some (k, s)
      | some (m + 1) => refineRun al base (some m) n (k + 1) s
      | none => refineRun al base none n (k + 1) s
    else do
      let (v, r) ← takeHigh 1 s.rest
      let d : Int := if v = 0 then 0 else if c < 0 then -2 ^ al else 2 ^ al
      refineRun al base run n (k + 1) { s with rest := r, coefs := s.coefs.set! (base + k) (c + d) }

/-- The AC coefficients of a later scan from place `k` to `se`. -/
def acRefine (h : Huff) (al base se : Nat) : Nat → Nat → ScanAt → Option ScanAt
  | 0, k, s => if se < k then some s else none
  | n + 1, k, s =>
    if se < k then some s
    else do
      let (rs, r) ← h.get s.rest
      let run := rs / 16
      if rs % 16 = 0 then
        if run = 15 then
          let (k', s) ← refineRun al base (some 15) (se + 1 - k) k { s with rest := r }
          if se < k' then none else acRefine h al base se n (k' + 1) s
        else
          let (v, r) ← takeHigh run r
          let (_, s) ← refineRun al base none (se + 1 - k) k { s with rest := r }
          pure { s with eob := 2 ^ run + v - 1 }
      else if rs % 16 ≠ 1 then none
      else
        let (v, r) ← takeHigh 1 r
        let (k', s) ← refineRun al base (some run) (se + 1 - k) k { s with rest := r }
        if se < k' then none
        else
          let x : Int := if v = 0 then -2 ^ al else 2 ^ al
          acRefine h al base se n (k' + 1) { s with coefs := s.coefs.set! (base + k') x }

/-- The coefficients that a scan gives, and how: from `ss` to `se`, down to bit position `al`, from `ah` in a later scan. -/
structure ScanKind where
  prog : Bool
  ss : Nat
  se : Nat
  ah : Nat
  al : Nat

/-- One block of a scan; `base` is its first coefficient. -/
def scanBlock (k : ScanKind) (dc ac : Option Huff) (base : Nat) (s : ScanAt) : Option ScanAt := do
  let s ← if k.ss ≠ 0 then some s else if k.ah = 0 then dc.bind fun h => dcFirst h k.al base s else dcRefine k.al base s
  if k.se = 0 then pure s
  else
    let first := max 1 k.ss
    if s.eob ≠ 0 then
      let s := { s with eob := s.eob - 1 }
      if k.ah = 0 then pure s else (refineRun k.al base none (k.se + 1 - first) first s).map (·.2)
    else ac.bind fun h => if k.ah = 0 then acFirst h k.prog k.al base k.se 64 first s else acRefine h k.al base k.se 64 first s

/-! ### Scans -/

/-- A component's part in a scan: its place in the frame and its tables. -/
structure ScanComp where
  at_ : Nat
  dc : Option Huff
  ac : Option Huff

/-- The blocks of each MCU of a scan: the component's place in the scan and the block's number. A scan of one component
takes its own blocks one by one, without the padding. -/
def mcus (j : Jpeg) (cs : List ScanComp) : List (List (Nat × Nat)) :=
  match cs, (j.comps[0]?) with
  | [c], some y =>
    match j.comps[c.at_]? with
    | some p =>
      let w := ceilDiv (ceilDiv (j.width * p.h) y.h) 8
      let h := ceilDiv (ceilDiv (j.height * p.v) y.v) 8
      (List.range (w * h)).map fun i => [(0, i / w * p.wide + i % w)]
    | none => []
  | _, some y =>
    let mw := ceilDiv j.width (8 * y.h)
    let mh := ceilDiv j.height (8 * y.v)
    (List.range (mw * mh)).map fun m => cs.zipIdx.flatMap fun c =>
      match j.comps[c.1.at_]? with
      | some p => (List.range (p.h * p.v)).map fun i =>
          (c.2, (m / mw * p.v + i / p.h) * p.wide + (m % mw * p.h + i % p.h))
      | none => []
  | _, none => []

/-- A restart interval of a scan: the parts' predictors and coefficients go through its blocks in order. -/
def interval (k : ScanKind) (cs : Array ScanComp) (blocks : List (Nat × Nat)) (rest : List Bool)
    (coefs : Array (Array Int)) : Option (Array (Array Int)) :=
  let go := fun (a : Option (List Bool × Nat × Array Int × Array (Array Int))) (b : Nat × Nat) =>
    match a, cs[b.1]? with
    | some (rest, eob, preds, coefs), some c =>
      let own := coefs.getD b.1 #[]
      let coefs := coefs.set! b.1 #[]
      (scanBlock k c.dc c.ac (b.2 * 64)
        { rest := rest, coefs := own, pred := preds.getD b.1 0, eob := eob }).map fun s =>
          (s.rest, s.eob, preds.set! b.1 s.pred, coefs.set! b.1 s.coefs)
    | _, _ => none
  match blocks.foldl go (some (rest, 0, Array.replicate cs.size 0, coefs)) with
  | some (rest, 0, _, coefs) => if (rest.drop 7).isEmpty then some coefs else none
  | _ => none

/-- Entropy-coded data up to the marker that ends it: the bytes of each restart interval with stuffing taken out, and
what follows, from the marker on. -/
def coded : Nat → Bytes → Nat → List Nat → Option (List (List Nat) × Bytes)
  | 0, _, _, _ => none
  | n + 1, l, m, acc =>
    match l with
    | a :: b :: r =>
      if a.toNat ≠ 255 then coded n (b :: r) m (a.toNat :: acc)
      else if b.toNat = 0 then coded n r m (255 :: acc)
      else if b.toNat = 255 then coded n (b :: r) m acc
      else if 0xD0 ≤ b.toNat && b.toNat ≤ 0xD7 then
        if b.toNat - 0xD0 ≠ m % 8 then none
        else (coded n r (m + 1) []).map fun x => (acc.reverse :: x.1, x.2)
      else some ([acc.reverse], l)
    | _ => none

/-- Cuts a list into pieces of `k`, at least one. -/
def pieces {α : Type} (k : Nat) : Nat → List α → List (List α)
  | 0, l => [l]
  | n + 1, l => if l.length ≤ k || k = 0 then [l] else l.take k :: pieces k n (l.drop k)

/-- The parts of a scan header of `n` components, in the order of the frame; the tables a baseline scan names are 0 or 1. -/
def scanComps (j : Jpeg) (b : Bytes) (n : Nat) : Option (List ScanComp) :=
  (List.range n).foldr (fun i acc => acc.bind fun l =>
    let id := byteAt b (1 + 2 * i)
    let t := byteAt b (2 + 2 * i)
    match j.comps.toList.findIdx? (·.id == id) with
    | some p =>
      if (match l with | c :: _ => decide (c.at_ ≤ p) | [] => false) || 3 < t / 16 || 3 < t % 16
          || (!j.progressive && (1 < t / 16 || 1 < t % 16)) then none
      else some ({ at_ := p, dc := j.dc.lookup (t / 16), ac := j.ac.lookup (t % 16) } :: l)
    | none => none) (some [])

/-- Whether a scan follows those before it: a first scan of a coefficient finds it without bits, a later one takes the
bit below those it has; AC coefficients come after the component's DC. -/
def JpegComp.follows (c : JpegComp) (k : ScanKind) : Bool :=
  (upFrom k.ss (k.se + 1 - k.ss)).all (fun i => c.levels.getD i 255 == (if k.ah = 0 then 255 else k.ah))
    && (k.ss == 0 || c.levels.getD 0 255 != 255)

/-- A scan: its header `b` and the data after it; answers what follows. -/
def scan (j : Jpeg) (b data : Bytes) : Option (Jpeg × Bytes) := do
  let n := byteAt b 0
  let ss := byteAt b (1 + 2 * n)
  let se := byteAt b (2 + 2 * n)
  let ah := byteAt b (3 + 2 * n) / 16
  let al := byteAt b (3 + 2 * n) % 16
  let k : ScanKind := { prog := j.progressive, ss := ss, se := se, ah := ah, al := al }
  if !j.framed || n = 0 || 4 < n || b.length ≠ 4 + 2 * n then none
  let cs ← scanComps j b n
  let parts := cs.filterMap fun c => j.comps[c.at_]?
  if (if j.progressive then
        63 < se || se < ss || (ss = 0 && se ≠ 0) || (ss ≠ 0 && n ≠ 1) || 13 < al || (ah ≠ 0 && ah ≠ al + 1)
      else ss ≠ 0 || se ≠ 63 || ah ≠ 0 || al ≠ 0) then none
  if !parts.all (·.follows k) || (1 < n && 10 < (parts.map fun c => c.h * c.v).foldl (· + ·) 0) then none
  let (segs, rest) ← coded (data.length + 1) data 0 []
  let ms := mcus j cs
  let groups := pieces j.restart ms.length ms
  if groups.length ≠ segs.length then none
  let coefs ← (groups.zip segs).foldlM (fun a g =>
    interval k cs.toArray g.1.flatten (g.2.flatMap (bitsHigh 8)) a) (parts.map (·.coefs)).toArray
  let comps ← cs.zipIdx.foldlM (fun (a : Array JpegComp) c => do
    let p ← a[c.1.at_]?
    let q ← p.q.or (j.quant.lookup p.tq)
    pure (a.set! c.1.at_ { p with
      q := some q, coefs := coefs.getD c.2 #[]
      levels := (upFrom ss (se + 1 - ss)).foldl (fun l i => l.set! i al) p.levels })) j.comps
  pure ({ j with comps := comps }, rest)

/-! ### Streams -/

/-- A component's blocks, dequantised, in raster order. -/
def JpegComp.blocks (c : JpegComp) : List (List Int) :=
  let q := c.q.getD #[]
  let place := ((List.range 64).map fun i => (zigzag.findIdx? (· == i)).getD 0)
  (List.range (c.wide * c.high)).map fun b => place.map fun z => c.coefs.getD (b * 64 + z) 0 * (q.getD z 0 : Nat)

/-- What a whole stream holds: every component has had its DC. -/
def Jpeg.result (j : Jpeg) : Except ImageErr JpegScan :=
  if !j.framed || j.comps.any fun c => c.levels.getD 0 255 == 255 then .error .malformed
  else .ok { width := j.width, height := j.height, comps := j.comps.toList.map fun c => (c.h, c.v, c.blocks) }

/-- The marker segments of a stream up to EOI. PRESUMED, log 9. -/
def segments : Nat → Bytes → Jpeg → Except ImageErr JpegScan
  | 0, _, _ => .error .malformed
  | n + 1, l, j =>
    let m := byteAt l 1
    let len := byteAt l 2 * 256 + byteAt l 3
    let body := (l.drop 4).take (len - 2)
    let rest := l.drop (2 + len)
    let on := fun (x : Option Jpeg) => match x with | some j => segments n rest j | none => .error .malformed
    if l.length < 2 || byteAt l 0 ≠ 255 then .error .malformed
    else if m = 255 then segments n (l.drop 1) j
    else if m = 0xD9 then j.result
    else if m = 1 then segments n (l.drop 2) j
    else if m = 0 || (0xD0 ≤ m && m ≤ 0xD8) || len < 2 || l.length < 2 + len then .error .malformed
    else if m = 0xDB then on ((dqtTables (body.length + 1) body j.quant).map fun q => { j with quant := q })
    else if m = 0xC4 then on (dhtTables (body.length + 1) body j)
    else if m = 0xDD then on (if body.length = 2 then some { j with restart := byteAt body 0 * 256 + byteAt body 1 } else none)
    else if m = 0xC0 || m = 0xC2 then
      match sofFrame (m == 0xC2) body j with
      | .ok j => segments n rest j
      | .error e => .error e
    else if m = 0xDA then
      match scan j body rest with
      | some (j, rest) => segments n rest j
      | none => .error .malformed
    else if (0xE0 ≤ m && m ≤ 0xEF) || m = 0xFE then segments n rest j
    else .error .unsupported

/-- What a JPEG stream holds (R427). Bytes after EOI do not count. PRESUMED, log 9. -/
def jpegScan (b : Bytes) : Except ImageErr JpegScan :=
  if byteAt b 0 = 255 && byteAt b 1 = 0xD8 then
    segments (b.length + 1) (b.drop 2) { quant := [], dc := [], ac := [], restart := 0, progressive := false, width := 0, height := 0, comps := #[], framed := false }
  else .error .malformed

end Sys2Proof.Machine
end

