-- ==== Sys2Proof/Machine/Png.lean ====
section
/-! DEFINITION. PNG streams down to their samples: chunks and their checks, inflation, unfiltering and Adam7 (R427), by
ISO/IEC 15948 and the zlib and deflate formats it names (PRESUMED, log 9). -/

namespace Sys2Proof.Machine

/-- What a PNG stream holds: size, bit depth, colour type, palette, tRNS values and the samples, pixel by pixel. -/
structure PngScan where
  width : Nat
  height : Nat
  depth : Nat
  colour : Nat
  palette : List (List Nat)
  trns : Option (List Nat)
  samples : List Nat

/-! ### Inflation -/

/-- The canonical code of a list of lengths, 0 for a symbol without a code. -/
def huffOf (lens : List Nat) : Huff :=
  { counts := upFrom 1 15 |>.map fun l => lens.count l
    syms := ((upFrom 1 15).flatMap fun l => (lens.zipIdx.filter fun p => p.1 == l).map (·.2)).toArray }

/-- Whether a code fills its space; where `loose` allows it, a code of none, or of one symbol of length 1. -/
def Huff.fits (h : Huff) (loose : Bool) : Bool :=
  h.used == 2 ^ 15 || (loose && (h.syms.isEmpty || (h.syms.size == 1 && h.counts.headD 0 == 1)))

/-- The fixed codes. -/
def fixedLits : Huff :=
  huffOf (List.replicate 144 8 ++ List.replicate 112 9 ++ List.replicate 24 7 ++ List.replicate 8 8)
def fixedDists : Huff := huffOf (List.replicate 32 5)

/-- The length that a symbol stands for, and how many bits it adds; none for a symbol that is none. -/
def lengthOf (sym : Nat) : Option (Nat × Nat) :=
  let c := sym - 257
  if c < 8 then some (3 + c, 0) else if c < 28 then some ((4 + c % 4) * 2 ^ (c / 4 - 1) + 3, c / 4 - 1)
  else if c = 28 then some (258, 0) else none

/-- The distance that a symbol stands for, and how many bits it adds. -/
def distanceOf (d : Nat) : Option (Nat × Nat) :=
  if d < 2 then some (1 + d, 0) else if d < 30 then some ((2 + d % 2) * 2 ^ (d / 2 - 1) + 1, d / 2 - 1) else none

/-- `n` bytes again from `dist` bytes back. -/
def copyBack : Nat → Nat → Array Nat → Array Nat
  | 0, _, out => out
  | n + 1, dist, out => copyBack n dist (out.push (out.getD (out.size - dist) 0))

/-- The symbols of a block up to its end; the first number bounds them. -/
def inflateSyms (lits dists : Huff) : Nat → List Bool → Array Nat → Option (List Bool × Array Nat)
  | 0, _, _ => none
  | n + 1, l, out => do
    let (s, l) ← lits.get l
    if s < 256 then inflateSyms lits dists n l (out.push s)
    else if s = 256 then pure (l, out)
    else
      let (len, e) ← lengthOf s
      let (x, l) ← takeLow e l
      let (d, l) ← dists.get l
      let (dist, e) ← distanceOf d
      let (y, l) ← takeLow e l
      if out.size < dist + y then none
      else inflateSyms lits dists n l (copyBack (len + x) (dist + y) out)

/-- The `n` code lengths of a dynamic block, repeats written out; answered last first. -/
def codeLengths (h : Huff) (n : Nat) : Nat → List Bool → List Nat → Option (List Bool × List Nat)
  | 0, _, _ => none
  | k + 1, l, acc => do
    if n < acc.length then none
    else if acc.length = n then pure (l, acc)
    else
      let (s, l) ← h.get l
      if s < 16 then codeLengths h n k l (s :: acc)
      else
        let (x, l) ← takeLow (if s = 16 then 2 else if s = 17 then 3 else 7) l
        if s = 16 then
          let p ← acc.head?
          codeLengths h n k l (List.replicate (3 + x) p ++ acc)
        else codeLengths h n k l (List.replicate ((if s = 17 then 3 else 11) + x) 0 ++ acc)

/-- The order in which a dynamic block gives the lengths of the code for code lengths. -/
def lengthOrder : List Nat := [16, 17, 18, 0, 8, 7, 9, 6, 10, 5, 11, 4, 12, 3, 13, 2, 14, 1, 15]

/-- The codes of a dynamic block. -/
def dynamicCodes (l : List Bool) : Option (Huff × Huff × List Bool) := do
  let (hl, l) ← takeLow 5 l
  let (hd, l) ← takeLow 5 l
  let (hc, l) ← takeLow 4 l
  if 29 < hl || 29 < hd then none
  let (lens, l) ← (lengthOrder.take (hc + 4)).foldlM (fun (a : List (Nat × Nat) × List Bool) i =>
    (takeLow 3 a.2).map fun x => ((i, x.1) :: a.1, x.2)) ([], l)
  let h := huffOf ((List.range 19).map fun i => (lens.lookup i).getD 0)
  if !h.fits false then none
  let (l, rev) ← codeLengths h (hl + 257 + hd + 1) (hl + hd + 259) l []
  let all := rev.reverse
  let lits := huffOf (all.take (hl + 257))
  let dists := huffOf (all.drop (hl + 257))
  if all.getD 256 0 = 0 || !lits.fits true || !dists.fits true then none
  pure (lits, dists, l)

/-- The blocks of a deflate stream; answers the bits after the last one and the bytes. PRESUMED, log 9. -/
def inflate : Nat → List Bool → Array Nat → Option (List Bool × Array Nat)
  | 0, _, _ => none
  | n + 1, l, out => do
    let (last, l) ← takeLow 1 l
    let (kind, l) ← takeLow 2 l
    let (l, out) ←
      if kind = 0 then do
        let (len, l) ← takeLow 16 (l.drop (l.length % 8))
        let (inv, l) ← takeLow 16 l
        if len + inv ≠ 0xFFFF then none
        (List.range len).foldlM (fun (a : List Bool × Array Nat) _ =>
          (takeLow 8 a.1).map fun x => (x.2, a.2.push x.1)) (l, out)
      else if kind = 1 then inflateSyms fixedLits fixedDists l.length l out
      else if kind = 2 then (dynamicCodes l).bind fun c => inflateSyms c.1 c.2.1 c.2.2.length c.2.2 out
      else none
    if last = 1 then pure (l, out) else inflate n l out

/-- The Adler-32 checksum. -/
def adler32 (l : List Nat) : Nat :=
  let s := l.foldl (fun (a : Nat × Nat) b => let x := (a.1 + b) % 65521; (x, (a.2 + x) % 65521)) (1, 0)
  s.2 * 65536 + s.1

/-- A zlib stream's bytes: no preset dictionary, its checks right. -/
def zlibBytes (b : Bytes) : Option (Array Nat) := do
  let cmf := byteAt b 0
  let flg := byteAt b 1
  if cmf % 16 ≠ 8 || 7 < cmf / 16 || (cmf * 256 + flg) % 31 ≠ 0 || bit flg 5 then none
  let l := (b.drop 2).flatMap fun x => bitsLow 8 x.toNat
  let (l, out) ← inflate (l.length + 1) l #[]
  let (x, _) ← takeHigh 32 ((List.range 4).flatMap fun i => ((l.drop (l.length % 8 + 8 * i)).take 8).reverse)
  if x = adler32 out.toList then pure out else none

/-! ### Rows -/

/-- The Paeth predictor. -/
def paeth (a b c : Nat) : Nat :=
  let p : Int := (a : Int) + b - c
  let da := (p - a).natAbs
  let db := (p - b).natAbs
  let dc := (p - c).natAbs
  if da ≤ db && da ≤ dc then a else if db ≤ dc then b else c

/-- A row with its filter undone, from the row above; `bpp` bytes make a pixel, at least one. -/
def unfilterRow (filter bpp : Nat) (above : Array Nat) (row : List Nat) : Array Nat :=
  row.foldl (fun (out : Array Nat) x =>
    let i := out.size
    let left := if i < bpp then 0 else out.getD (i - bpp) 0
    let up := above.getD i 0
    let corner := if i < bpp then 0 else above.getD (i - bpp) 0
    let p := if filter = 1 then left else if filter = 2 then up else if filter = 3 then (left + up) / 2
      else if filter = 4 then paeth left up corner else 0
    out.push ((x + p) % 256)) #[]

/-- The rows of an image or a pass, each of `len` bytes after its filter byte; answers the rows and what follows. -/
def unfilterRows (bpp len : Nat) : Nat → Array Nat → List Nat → Option (List (Array Nat) × List Nat)
  | 0, _, l => some ([], l)
  | n + 1, above, l =>
    match l with
    | f :: r =>
      let raw := r.take len
      if 4 < f || raw.length < len then none
      else
        let row := unfilterRow f bpp above raw
        (unfilterRows bpp len n row (r.drop len)).map fun x => (row :: x.1, x.2)
    | [] => none

/-- The samples of a row, `n` of them, the high bits of a byte first. -/
def rowSamples (depth n : Nat) (row : Array Nat) : List Nat :=
  (List.range n).map fun i =>
    if depth = 16 then row.getD (2 * i) 0 * 256 + row.getD (2 * i + 1) 0
    else row.getD (i * depth / 8) 0 / 2 ^ (8 - depth - i * depth % 8) % 2 ^ depth

/-- The passes of an image: first column and row, and the steps between columns and rows (Adam7). -/
def pngPasses (interlaced : Bool) : List (Nat × Nat × Nat × Nat) :=
  if interlaced then [(0, 0, 8, 8), (4, 0, 8, 8), (0, 4, 4, 8), (2, 0, 4, 4), (0, 2, 2, 4), (1, 0, 2, 2), (0, 1, 1, 2)]
  else [(0, 0, 1, 1)]

/-- The samples of an image of `n` channels, pixel by pixel, from its inflated bytes, which it uses up. -/
def pngSamples (w h depth n : Nat) (interlaced : Bool) (data : List Nat) : Option (List Nat) := do
  let (px, rest) ← (pngPasses interlaced).foldlM (fun (a : Array (List Nat) × List Nat) p => do
    let cols := ceilDiv (w - p.1) p.2.2.1
    let rows := ceilDiv (h - p.2.1) p.2.2.2
    if cols = 0 || rows = 0 then pure a
    else
      let (lines, rest) ← unfilterRows (max 1 (n * depth / 8)) (ceilDiv (cols * n * depth) 8) rows #[] a.2
      pure (lines.zipIdx.foldl (fun (out : Array (List Nat)) r =>
        let s := (rowSamples depth (cols * n) r.1).toArray
        (List.range cols).foldl (fun out c =>
          out.set! ((p.2.1 + r.2 * p.2.2.2) * w + p.1 + c * p.2.2.1) ((List.range n).map fun k => s.getD (c * n + k) 0)) out) a.1,
        rest)) (Array.replicate (w * h) [], data)
  if rest.isEmpty then pure px.toList.flatten else none

/-! ### Chunks -/

/-- CRC-32 of ISO 3309, as PNG chunks carry it. -/
def crc32Iso (l : Bytes) : Nat :=
  l.foldl (fun c b => (List.range 8).foldl (fun c _ => if c % 2 = 1 then (c / 2) ^^^ 0xEDB88320 else c / 2) (c ^^^ b.toNat))
    0xFFFFFFFF ^^^ 0xFFFFFFFF

/-- A number of four bytes, most significant first. -/
def be32 (b : Bytes) (o : Nat) : Nat :=
  ((byteAt b o * 256 + byteAt b (o + 1)) * 256 + byteAt b (o + 2)) * 256 + byteAt b (o + 3)

/-- The chunks of a stream up to IEND: type, as its four bytes spell a number, and contents; each chunk's check is right. -/
def pngChunks : Nat → Bytes → Option (List (Nat × Bytes))
  | 0, _ => none
  | n + 1, b =>
    let len := be32 b 0
    let body := (b.drop 4).take (4 + len)
    let letter := fun (x : BitVec 8) => (65 ≤ x.toNat && x.toNat ≤ 90) || (97 ≤ x.toNat && x.toNat ≤ 122)
    if b.length < 12 + len || 2 ^ 31 ≤ len || !(body.take 4).all letter || crc32Iso body ≠ be32 b (8 + len) then none
    else if be32 b 4 = 0x49454E44 then if len = 0 then some [] else none
    else (pngChunks n (b.drop (12 + len))).map fun r => (be32 b 4, body.drop 4) :: r

/-- Bit depths of the colour types. -/
def pngDepths (colour : Nat) : List Nat :=
  if colour = 0 then [1, 2, 4, 8, 16] else if colour = 3 then [1, 2, 4, 8]
  else if colour = 2 || colour = 4 || colour = 6 then [8, 16] else []

/-- Samples of a pixel by colour type. -/
def pngChannels (colour : Nat) : Nat :=
  if colour = 2 then 3 else if colour = 4 then 2 else if colour = 6 then 4 else 1

/-- Types of the critical chunks and of tRNS. -/
def ckIHDR : Nat := 0x49484452
def ckPLTE : Nat := 0x504C5445
def ckIDAT : Nat := 0x49444154
def ckTRNS : Nat := 0x74524E53

/-- What a PNG stream holds (R427). Bytes after IEND do not count. PRESUMED, log 9. -/
def pngScan (b : Bytes) : Except ImageErr PngScan :=
  let chunks := if b.take 8 = [137#8, 80#8, 78#8, 71#8, 13#8, 10#8, 26#8, 10#8] then pngChunks b.length (b.drop 8) else none
  match chunks with
  | some ((0x49484452, ihdr) :: cs) =>
    let w := be32 ihdr 0
    let h := be32 ihdr 4
    let depth := byteAt ihdr 8
    let colour := byteAt ihdr 9
    let place := fun (t : Nat) => cs.findIdx (·.1 == t)
    let many := fun (t : Nat) => (cs.filter (·.1 == t)).length
    let plte := ((cs.lookup ckPLTE).getD []).map (·.toNat)
    let trns := (cs.lookup ckTRNS).map (·.map (·.toNat))
    let data := (cs.drop (place ckIDAT)).takeWhile (·.1 == ckIDAT)
    let known := [ckPLTE, ckIDAT, ckTRNS]
    if ihdr.length ≠ 13 || w = 0 || h = 0 || 2 ^ 31 ≤ w || 2 ^ 31 ≤ h || !(pngDepths colour).contains depth
        || !allZero ihdr 10 2 || 1 < byteAt ihdr 12 then .error .malformed
    else if 16384 < w || 16384 < h || cs.any (fun c => !known.contains c.1 && c.1 ≠ ckIHDR && !bit c.1 29) then .error .unsupported
    else if many ckIHDR ≠ 0 || 1 < many ckPLTE || 1 < many ckTRNS || data.isEmpty || many ckIDAT ≠ data.length
        || (many ckPLTE = 1 && (colour = 0 || colour = 4 || place ckIDAT < place ckPLTE || plte.isEmpty || plte.length % 3 ≠ 0
          || 768 < plte.length || (colour = 3 && 3 * 2 ^ depth < plte.length)))
        || (colour = 3 && many ckPLTE = 0)
        || (many ckTRNS = 1 && (place ckIDAT < place ckTRNS || (many ckPLTE = 1 && place ckTRNS < place ckPLTE)
          || (trns.getD []).length ≠ (if colour = 0 then 2 else if colour = 2 then 6 else (trns.getD []).length)
          || colour = 4 || colour = 6 || (colour = 3 && plte.length / 3 < (trns.getD []).length))) then .error .malformed
    else
      match (zlibBytes (data.flatMap (·.2))).bind fun d => pngSamples w h depth (pngChannels colour) (byteAt ihdr 12 == 1) d.toList with
      | some samples =>
        if colour = 3 && samples.any (fun s => decide (plte.length ≤ 3 * s)) then .error .malformed
        else .ok {
          width := w, height := h, depth := depth, colour := colour, samples := samples
          palette := (List.range (plte.length / 3)).map fun i => (plte.drop (3 * i)).take 3
          trns := trns.map fun l => if colour = 3 then l
            else (List.range (l.length / 2)).map fun i => (l.getD (2 * i) 0 * 256 + l.getD (2 * i + 1) 0) % 2 ^ depth }
      | none => .error .malformed
  | _ => .error .malformed

end Sys2Proof.Machine
end

