-- ==== Sys2Proof/Machine/Image.lean ====
section
/-! DEFINITION. Pixels of JPEG and PNG streams (R428, R429). -/

namespace Sys2Proof.Machine

/-- A decoded image: size, colour channels (1 or 3), whether alpha follows them, and the channels of each pixel in
row-major order, each from 0 to 255. -/
structure Pixels where
  width : Nat
  height : Nat
  colours : Nat
  alpha : Bool
  data : Array Nat

/-- `n / d` rounded to the nearest integer, ties to even. -/
def rneDiv (n : Int) (d : Nat) : Int :=
  let q := n.fdiv d
  let r := (n - q * d).toNat
  if 2 * r < d || (2 * r == d && q % 2 == 0) then q else q + 1

/-- An integer clamped to 0 to 255. -/
def clamp255 (i : Int) : Nat := if i < 0 then 0 else if 255 < i then 255 else i.toNat

/-! ### The inverse DCT (R428)

With c_k = cos(k π / 16), a sample is 1/8 of the sum, over the coefficients S(v, u), of
S(v, u) * (c_(a + b) + c_(a - b)), where a is 4 for u = 0 and (2x + 1) u otherwise, and b likewise. The sum is kept
exactly, as its integer coordinates over c_0 to c_7, which are linearly independent over the rationals. -/

/-- The coordinate and the sign of c_k; none where it is 0. -/
def cosCoord (k : Nat) : Option (Nat × Int) :=
  let m := k % 32
  let m := if 16 < m then 32 - m else m
  if m = 8 then none else if m < 8 then some (m, 1) else some (16 - m, -1)

/-- Adds `s` times c_k to coordinates. -/
def addCos (v : Array Int) (k : Nat) (s : Int) : Array Int :=
  match cosCoord k with
  | some (i, sg) => v.set! i (v.getD i 0 + s * sg)
  | none => v

/-- The coordinates of 8 times a sample of a block, before the level shift. -/
def idctCoords (s : Array Int) (x y : Nat) : Array Int :=
  (List.range 64).foldl (fun acc i =>
    let c := s.getD i 0
    if c = 0 then acc else
    let u := i % 8
    let v := i / 8
    let a := if u = 0 then 4 else (2 * x + 1) * u
    let b := if v = 0 then 4 else (2 * y + 1) * v
    addCos (addCos acc (a + b) c) (if b ≤ a then a - b else b - a) c) (Array.replicate 8 0)

/-- Bits of the fixed-point values of c_k. -/
def cosBits : Nat := 600

/-- c_0 to c_7 in fixed point, by half-angle formulas and the recurrence c_(k + 1) = 2 c_1 c_k - c_(k - 1). -/
def cosTable : Array Int :=
  let one : Nat := 2 ^ cosBits
  let half := fun (c : Nat) => isqrtFrom ((one + c) / 2 * one) (cosBits + 1) 0
  let c4 := isqrtFrom (one * one / 2) (cosBits + 1) 0
  let c1 : Int := half (half c4)
  ((List.range 6).foldl (fun (a : Array Int × Int × Int) _ =>
    let n := (2 * c1 * a.2.2).fdiv one - a.2.1
    (a.1.push n, a.2.2, n)) (#[(one : Int), c1], (one : Int), c1)).1

/-- A sample from 8 times its coordinates: level shift, rounding to nearest even, clamping. A value with an irrational part
is no tie, and lies further from one than the fixed point's error. -/
def sampleOf (v : Array Int) : Nat :=
  if (List.range 7).all fun k => v.getD (k + 1) 0 == 0 then clamp255 (rneDiv (v.getD 0 0 + 1024) 8)
  else
    let one : Int := 2 ^ cosBits
    let t := (List.range 8).foldl (fun a k => a + v.getD k 0 * cosTable.getD k 0) (0 : Int)
    clamp255 ((t + 1028 * one).fdiv (8 * one))

/-- The 64 samples of a block, row by row. -/
def idctBlock (s : List Int) : Array Nat :=
  let a := s.toArray
  ((List.range 64).map fun i => sampleOf (idctCoords a (i % 8) (i / 8))).toArray

/-- YCbCr to RGB by the JFIF equations, exact, rounded to nearest even and clamped (R428). PRESUMED, log 98. -/
def jfifRgb (y cb cr : Nat) : List Nat :=
  let b : Int := (cb : Int) - 128
  let r : Int := (cr : Int) - 128
  [clamp255 (rneDiv (100000 * y + 140200 * r) 100000),
   clamp255 (rneDiv (100000 * y - 34414 * b - 71414 * r) 100000),
   clamp255 (rneDiv (100000 * y + 177200 * b) 100000)]

/-- The pixels of a JPEG stream; chroma upsampling replicates (R428). -/
def jpegPixels (j : JpegScan) : Pixels :=
  let hm := (j.comps.map (·.1)).foldl max 1
  let vm := (j.comps.map (·.2.1)).foldl max 1
  let planes := (j.comps.map fun c => (c.1, c.2.1, (c.2.2.map idctBlock).toArray)).toArray
  let at_ := fun (k x y : Nat) =>
    match planes[k]? with
    | some (h, v, blocks) =>
      let sx := x * h / hm
      let sy := y * v / vm
      (blocks.getD (sy / 8 * (ceilDiv j.width (8 * hm) * h) + sx / 8) #[]).getD (sy % 8 * 8 + sx % 8) 0
    | none => 0
  let n := j.comps.length
  { width := j.width, height := j.height, colours := if n = 3 then 3 else 1, alpha := false
    data := ((List.range (j.width * j.height)).flatMap fun i =>
      let x := i % j.width
      let y := i / j.width
      if n = 3 then jfifRgb (at_ 0 x y) (at_ 1 x y) (at_ 2 x y) else [at_ 0 x y]).toArray }

/-! ### PNG samples (R429) -/

/-- A PNG sample of a bit depth as an integer pixel. -/
def pngSample (depth v : Nat) : Nat :=
  if depth = 1 then v * 255 else if depth = 2 then v * 85 else if depth = 4 then v * 17
  else if depth = 16 then (v + 128) / 257 else v

/-- The pixels of a PNG stream. -/
def pngPixels (p : PngScan) : Pixels :=
  let n := pngChannels p.colour
  let a := p.samples.toArray
  let raw := fun (i : Nat) => (List.range n).map fun k => a.getD (i * n + k) 0
  let keyed := fun (px : List Nat) => match p.trns with
    | some key => [if px = key then 0 else 255]
    | none => []
  let px := fun (i : Nat) =>
    let v := raw i
    if p.colour = 3 then
      let e := v.headD 0
      p.palette.getD e [0, 0, 0] ++ (match p.trns with | some l => [l.getD e 255] | none => [])
    else v.map (pngSample p.depth) ++ (if p.colour = 0 || p.colour = 2 then keyed v else [])
  { width := p.width, height := p.height
    colours := if p.colour = 0 || p.colour = 4 then 1 else 3
    alpha := p.colour == 4 || p.colour == 6 || p.trns.isSome
    data := ((List.range (p.width * p.height)).flatMap px).toArray }

end Sys2Proof.Machine
end

