-- ==== Sys2Proof/Machine/Sample.lean ====
section
/-! DEFINITION. Samples as the Glade decodes them: records and their checks (R426, R427, R430, R431), augmentation draws
(R442), the image path (R443, R444), alignment (R445) and packing (R446). -/

namespace Sys2Proof.Machine

/-! ### Reasons (R431) -/

def gMAGIC : Nat := 1
def gINDEX : Nat := 2
def gLENGTH : Nat := 3
def gCRC : Nat := 4
def gDECODE : Nat := 5
def gUNSUPPORTED : Nat := 6
def gSHAPE : Nat := 7
def gABANDONED : Nat := 8
def gPOISON : Nat := 9

/-! ### The GLADE_BATCH block (R447) -/

/-- GB_KIND, GB_STREAM0, GB_STREAM1. -/
def gbKind (b : Bytes) : Nat := bits (byteAt b 1) 7 6
def gbStream0 (b : Bytes) : Nat := bits (byteAt b 1) 5 3
def gbStream1 (b : Bytes) : Nat := bits (byteAt b 1) 2 0

/-- GB_SAMPLES, GB_CHANNELS, GB_OUT_W, GB_OUT_H. -/
def gbSamples (b : Bytes) : Nat := fld b 4 2
def gbChannels (b : Bytes) : Nat := byteAt b 6
def gbOutW (b : Bytes) : Nat := fld b 8 2
def gbOutH (b : Bytes) : Nat := fld b 0x0A 2

/-! ### Records (R426) -/

/-- Codec, first byte and length of each stream of a record. -/
def recordStreams (b : Bytes) : List (Nat × Nat × Nat) :=
  let n := byteAt b 4
  ((List.range n).foldl (fun (a : List (Nat × Nat × Nat) × Nat) s =>
    let len := fld b (0x44 + 16 * s) 4
    (a.1 ++ [(byteAt b (0x40 + 16 * s), a.2, len)], roundUp (a.2 + len) 64)) ([], roundUp (0x40 + 16 * n) 64)).1

/-- The checks of a record's header and stream table; `len` is ME_LENGTH. DEDUCED, log 96. -/
def checkRecord (index len : Nat) (b : Bytes) : Option Nat :=
  let n := byteAt b 4
  if fld b 0 4 ≠ 0x47445231 || fld b 0x3C 4 ≠ crc32c (b.take 0x3C ++ (b.drop 0x40).take (16 * n)) then some gMAGIC
  else if fld b 8 8 ≠ index then some gINDEX
  else if fld b 0x10 4 ≠ len || (recordStreams b).any (fun s => decide (len < s.2.1 + s.2.2)) || len < 0x40 + 16 * n then
    some gLENGTH
  else if n = 0 || 8 < n || !allZero b 5 3 || !allZero b 0x14 40
      || (List.range n).any (fun s => !allZero b (0x41 + 16 * s) 3 || !allZero b (0x4C + 16 * s) 4) then some gUNSUPPORTED
  else none

/-- What a stream decodes to. -/
inductive Decoded where
  | image (p : Pixels)
  | tensor (format : Nat) (dims : List Nat) (codes : Array Nat) (times : List Nat)
  | tokens (ids : List Nat)

/-- A raw tensor stream (R430). -/
def decodeRaw (b : Bytes) : Except Nat Decoded :=
  let f := byteAt b 0
  let rank := byteAt b 1
  let frames := fld b 0x14 4
  let dims := (List.range rank).map fun i => fld b (4 + 4 * i) 4
  if b.length < 64 then .error gDECODE
  else if !allZero b 2 2 || !allZero b 0x18 40 then .error gUNSUPPORTED
  else if !([0, 1, 2, 3, 4, 6, 7] : List Nat).contains f || rank = 0 || 4 < rank then .error gSHAPE
  else if frames ≠ 0 && dims.getLast? != some frames then .error gDECODE
  else
    let n := dims.foldl (· * ·) 1
    let w := formatBits f / 8
    if b.length < 64 + n * w + 8 * frames then .error gDECODE
    else .ok (.tensor f dims (wordsOf w n (b.drop 64)).toArray (wordsOf 8 frames (b.drop (64 + n * w))))

/-- A token array stream (R430, R431). -/
def decodeTokens (b : Bytes) : Except Nat Decoded :=
  let n := fld b 0 4
  let w := byteAt b 4
  if b.length < 16 then .error gDECODE
  else if !allZero b 5 11 then .error gUNSUPPORTED
  else if (w ≠ 2 && w ≠ 4) || b.length < 16 + n * w then .error gDECODE
  else
    let ids := wordsOf w n (b.drop 16)
    if ids.any fun t => decide (2 ^ 24 ≤ t) then .error gDECODE else .ok (.tokens ids)

/-- The reason of an image that is not decoded (R431). -/
def ImageErr.reason : ImageErr → Nat
  | .malformed => gDECODE
  | .unsupported => gUNSUPPORTED

/-- A stream decoded by its codec (R427). -/
def decodeStream (codec : Nat) (b : Bytes) : Except Nat Decoded :=
  if codec = 1 then
    match jpegScan b with
    | .ok j => .ok (.image (jpegPixels j))
    | .error e => .error e.reason
  else if codec = 2 then
    match pngScan b with
    | .ok p => .ok (.image (pngPixels p))
    | .error e => .error e.reason
  else if codec = 3 then decodeRaw b
  else if codec = 4 then decodeTokens b
  else .error gUNSUPPORTED

/-- A stream of a record: its CRC is checked before it is decoded (R431); a stream that the record lacks has the wrong
shape. -/
def recordStream (b : Bytes) (s : Nat) : Except Nat Decoded :=
  match (recordStreams b)[s]? with
  | none => .error gSHAPE
  | some (codec, off, len) =>
    let d := (b.drop off).take len
    if fld b (0x48 + 16 * s) 4 ≠ crc32c d then .error gCRC else decodeStream codec d

/-! ### Draws (R442) -/

/-- The mixing function. -/
def gMix (x : Nat) : Nat :=
  let x := (x ^^^ (x >>> 31)) * 0x9F4C2A7B5E13D6C1 % 2 ^ 64
  let x := (x ^^^ (x >>> 29)) * 0xB7E31C590A6DF245 % 2 ^ 64
  x ^^^ (x >>> 32)

/-- A draw for a sample index, an operation and a draw index. -/
def gDraw (seed i op d : Nat) : Nat :=
  let x := gMix (seed ^^^ gMix i)
  gMix (x ^^^ ((op * 65536 + d) * 0xC13FA9E57D284B63 % 2 ^ 64))

/-- A draw as a binary32 code in [0, 1). -/
def gUnit (r : Nat) : Nat := r32 (.fin false (r >>> 40) (-24))

/-- A draw as an integer in [0, n). -/
def gPick (r n : Nat) : Nat := ((r >>> 32) * n) >>> 32

/-! ### The image path (R443) -/

/-- Channel c of a pixel as a GLADE_BATCH with `n` channels takes it, on the scale 0 to 255. -/
def Pixels.chan (p : Pixels) (n x y c : Nat) : Nat :=
  let k := p.colours + b2n p.alpha
  let at_ := fun (j : Nat) => p.data.getD ((y * p.width + x) * k + j) 0
  if c = 3 then (if p.alpha then b32OfNat (at_ p.colours) else b32OfNat 255)
  else if p.colours = 1 then b32OfNat (at_ 0)
  else if n = 1 then Config.greyOf (at_ 0) (at_ 1) (at_ 2) % 2 ^ 32
  else b32OfNat (at_ c)

/-- The floor of a non-negative binary32 value, at most `m`. -/
def floorMin (c m : Nat) : Nat :=
  match d32 c with
  | .fin false k e => min m (if 0 ≤ e then k * 2 ^ e.toNat else k / 2 ^ (-e).toNat)
  | .inf false => m
  | _ => 0

def half32 : Nat := 0x3F000000
def two32 : Nat := 0x40000000
def c128 : Nat := 0x43000000

/-- The crop: width, height, x0, y0. -/
def cropOf (b : Bytes) (seed i w h : Nat) : Nat × Nat × Nat × Nat :=
  if !bit (byteAt b 2) 3 then (w, h, 0, 0) else
  let r := gDraw seed i 1
  let between := fun (lo hi u : Nat) => fadd lo (fmul u (fsub hi lo))
  let a := between (fld b 0x0C 4) (fld b 0x10 4) (gUnit (r 0))
  let q := between (fld b 0x14 4) (fld b 0x18 4) (gUnit (r 1))
  let ar := fmul (fmul (b32OfNat w) (b32OfNat h)) a
  let cw := min w (max 1 (floorMin (fsqrt (fmul ar q)) w))
  let ch := min h (max 1 (floorMin (fsqrt (fdiv ar q)) h))
  (cw, ch, gPick (r 2) (w - cw + 1), gPick (r 3) (h - ch + 1))

/-- Source position of an output coordinate along an axis: left neighbour, right neighbour, fraction. -/
def resizeAt (o out c : Nat) : Nat × Nat × Nat :=
  let s := fsub (fmul (fadd (b32OfNat o) half32) (fdiv (b32OfNat c) (b32OfNat out))) half32
  let s := fmin (fmax s 0) (b32OfNat (c - 1))
  let j := floorMin s (c - 1)
  (j, min (j + 1) (c - 1), fsub s (b32OfNat j))

/-- The value of an output pixel's channels after resize and flip. -/
def resized (p : Pixels) (b : Bytes) (seed i ox oy : Nat) : List Nat :=
  let n := gbChannels b
  let ow := gbOutW b
  let (cw, ch, x0, y0) := cropOf b seed i p.width p.height
  let flip := bit (byteAt b 2) 2 && (d32 (gUnit (gDraw seed i 2 0))).lt (d32 (fld b 0x1C 4))
  let ox := if flip then ow - 1 - ox else ox
  let (jx, kx, fx) := resizeAt ox ow cw
  let (jy, ky, fy) := resizeAt oy (gbOutH b) ch
  (List.range n).map fun c =>
    let at_ := fun (x y : Nat) => p.chan n (x0 + x) (y0 + y) c
    let lerp := fun (u v f : Nat) => fadd u (fmul f (fsub v u))
    lerp (lerp (at_ jx jy) (at_ kx jy) fx) (lerp (at_ jx ky) (at_ kx ky) fx) fy

/-- Colour jitter on the channels below 3. -/
def jitter (b : Bytes) (seed i : Nat) (v : List Nat) : List Nat :=
  if !bit (byteAt b 2) 1 then v else
  let amp := fun (d off : Nat) =>
    fadd one32 (fmul (fld b off 4) (fsub (fmul two32 (gUnit (gDraw seed i 3 d))) one32))
  let w := (v.take 3).map fun x => fadd c128 (fmul (amp 1 0x24) (fsub (fmul x (amp 0 0x20)) c128))
  let w := match w with
    | [r, g, bl] =>
      let y := fadd (fadd (fmul 0x3E991687 r) (fmul 0x3F1645A2 g)) (fmul 0x3DE978D5 bl)
      [r, g, bl].map fun x => fadd y (fmul (amp 2 0x28) (fsub x y))
    | l => l
  w ++ v.drop 3

/-- Normalisation of the channels below 3. -/
def normalised (b : Bytes) (v : List Nat) : List Nat :=
  (List.range v.length).map fun c =>
    let x := v.getD c 0
    if c < 3 then fmul (fsub x (fld b (0x30 + 4 * c) 4)) (fld b (0x3C + 4 * c) 4) else x

/-- Level 0 of a sample: binary32 codes, channel fastest, then x, then y. -/
def imageLevel0 (p : Pixels) (b : Bytes) (seed i : Nat) : Array Nat :=
  ((List.range (gbOutH b)).flatMap fun oy => (List.range (gbOutW b)).flatMap fun ox =>
    normalised b (jitter b seed i (resized p b seed i ox oy))).toArray

/-- The next pyramid level of an image of a size (R444). -/
def nextLevel (n w h : Nat) (a : Array Nat) : Array Nat :=
  ((List.range (ceilDiv h 2)).flatMap fun y => (List.range (ceilDiv w 2)).flatMap fun x => (List.range n).map fun c =>
    let at_ := fun (dx dy : Nat) => a.getD ((min (2 * y + dy) (h - 1) * w + min (2 * x + dx) (w - 1)) * n + c) 0
    fmul (fadd (fadd (at_ 0 0) (at_ 1 0)) (fadd (at_ 0 1) (at_ 1 1))) 0x3E800000).toArray

/-- Level l of a sample with `n` channels, from level 0. -/
def imageLevel (n w h : Nat) (a : Array Nat) : Nat → Array Nat
  | 0 => a
  | l + 1 => nextLevel n (levelSize l w) (levelSize l h) (imageLevel n w h a l)

/-! ### Alignment (R445) -/

/-- The frame of a set of timestamps at a point: the largest timestamp at or below it, the higher index among equals; the
frame of the first timestamp before that. -/
def frameAt (times : List Nat) (point : Nat) : Nat :=
  let first := times.foldl min (times.headD 0)
  let p := max point first
  ((List.range times.length).foldl (fun (best : Option (Nat × Nat)) k =>
    let t := times.getD k 0
    if p < t then best
    else match best with
      | some (_, u) => if u ≤ t then some (k, t) else best
      | none => some (k, t)) none).elim 0 (·.1)

/-- The codes of the grid's frames, element by element. DEDUCED, log 97. -/
def alignStream (codes : Array Nat) (per : Nat) (times : List Nat) (t0 period count : Nat) : List Nat :=
  (List.range count).flatMap fun g =>
    let f := frameAt times (t0 + g * period)
    (List.range per).map fun e => codes.getD (f * per + e) 0

/-! ### A sample's outputs -/

/-- A raw tensor has the shape that an output of a TIMED batch needs (R431, R448). -/
def timedFits (dims times : List Nat) (o : TD) : Bool :=
  !times.isEmpty && dims.length + 1 == o.rank
    && (List.range (dims.length - 1)).all fun k => dims.getD k 0 == o.dim k

/-- A record's sample, decoded, aligned and augmented under the index `i`, or the reason it is corrupt; `index` is what
GR_INDEX must be. -/
def sampleOfRecord (blk : Bytes) (seed : Nat) (o0 o1 : Option TD) (i index len : Nat) (b : Bytes) :
    Except Nat SampleOut :=
  match checkRecord index len b with
  | some r => .error r
  | none =>
    match recordStream b (gbStream0 blk) with
    | .error r => .error r
    | .ok d =>
      match gbKind blk, d with
      | 0, .image p => .ok ⟨0, (imageLevel0 p blk seed i).toList, 0, []⟩
      | 1, .tokens ids => .ok ⟨0, ids, 0, []⟩
      | 2, .tensor f dims codes times =>
        match recordStream b (gbStream1 blk), o0, o1 with
        | .error r, _, _ => .error r
        | .ok (.tensor g dims1 codes1 times1), some a, some c =>
          if !(timedFits dims times a && timedFits dims1 times1 c) then .error gSHAPE
          else
            let t0 := times.foldl min (times.headD 0)
            let per := fun (l : List Nat) => (l.dropLast).foldl (· * ·) 1
            let period := fld blk 0x50 4
            let n := fld blk 0x54 2
            .ok ⟨f, alignStream codes (per dims) times t0 period n, g, alignStream codes1 (per dims1) times1 t0 period n⟩
        | _, _, _ => .error gSHAPE
      | _, _ => .error gSHAPE

/-! ### Packing (R446) -/

/-- The packed rows of a group: id and position by row and column, and the tokens dropped. -/
structure Packed where
  row : Nat
  col : Nat
  cells : List (Nat × Nat × Nat × Nat)
  dropped : Nat

/-- Places the tokens of one sample from the t-th on. -/
def packTokens (rows width : Nat) : List Nat → Nat → Packed → Packed
  | [], _, k => k
  | id :: r, t, k =>
    if k.row = rows then { k with dropped := k.dropped + (id :: r).length }
    else
      let k := { k with cells := (k.row, k.col, id, t) :: k.cells, col := k.col + 1 }
      packTokens rows width r (t + 1) (if k.col = width then { k with row := k.row + 1, col := 0 } else k)

/-- Packs the samples of a group in order. -/
def packGroup (rows width : Nat) (samples : List (List Nat)) : Packed :=
  samples.foldl (fun k ids =>
    let k := if 0 < k.col && decide (width - k.col < ids.length) then { k with row := k.row + 1, col := 0 } else k
    packTokens rows width ids 0 k) ⟨0, 0, [], 0⟩

end Sys2Proof.Machine
end

