-- ==== Sys2Proof/Machine/Glade.lean ====
section
/-! DEFINITION. The Glade: sources (R422, R441), manifests (R423 to R425), prepared steps (R433, R440), lanes and delivery
(R432, R435, R436), corrupt samples (R431, R437 to R439), GLADE_BATCH (R434, R443 to R446, R449). -/

namespace Sys2Proof.Machine

/-! ### Sources -/

/-- The source with an id. -/
def Gld.source (g : Gld) (id : Nat) : Option Source := g.sources.find? (·.id == id)

/-- Sets a source. -/
def State.putSource (s : State) (g : Source) : State :=
  { s with gld := { s.gld with sources := s.gld.sources.filter (·.id != g.id) ++ [g] } }

/-- Bytes of a manifest slot (R423). -/
def Source.slotBytes (g : Source) : Nat := roundUp (128 + 16 * g.maxEntries) 65536

/-- The source a request defines. -/
def sourceOfReq (q : Req) : Source :=
  { id := bits (q.f 0 1) 3 0, stageRegion := bits (q.f 1 1) 5 0, lookahead := bits (q.f 2 1) 2 0
    substitute := bit (q.f 3 1) 0, straggle := q.f 4 2, abandon := q.f 6 2, maxEntries := q.f 8 4
    spares := q.f 0x0C 4, abandonUs := q.f 0x10 4, manifestVa := q.f 0x18 8, spareVa := q.f 0x20 8
    prepVa := q.f 0x28 8, prepBytes := q.f 0x30 8
    state := 0, reason := 0, haltRing := 0, haltIndex := 0, haltReason := 0, delivered := 0, mean := 0, completed := 0
    stragglers := 0, substitutions := 0, corrupt := List.replicate 9 0, dropRing := 0, dropped := List.replicate 32 0 }

/-- Every attribute lies within its legal values, every area inside a writable mapping (R422). -/
def State.sourceLegal (s : State) (g : Source) : Bool :=
  let inside := fun (va n : Nat) => vaOk va && (n == 0 || (s.rgn.inWritable va n).isSome)
  (match s.rgn.get g.stageRegion with
    | some r => r.reg.isSome && (match r.map with | some m => m.write | none => false)
    | none => false)
    && decide (g.lookahead ≤ 4) && decide (1 ≤ g.maxEntries) && decide (g.maxEntries ≤ 65536)
    && decide (g.spares ≤ 65536) && decide (g.abandonUs ≤ 60000000)
    && g.manifestVa % 65536 == 0 && inside g.manifestVa (8 * g.slotBytes)
    && g.spareVa % 64 == 0 && (g.spares != 0 || g.spareVa == 0) && inside g.spareVa (16 * g.spares)
    && g.prepVa % 65536 == 0 && g.prepBytes % 65536 == 0 && inside g.prepVa g.prepBytes

/-- A plan's GLADE_BATCH of a source. -/
def Plan.batchOf (p : Plan) (source : Nat) : Option Nat :=
  (p.opsOf 0x0050).find? fun i => bits (byteAt (p.param i) 0) 3 0 == source

/-- The body of GLADE_SOURCE (R422). DEDUCED, log 102. -/
def gladeSourceBody (q : Req) (s : State) : State × Resp :=
  let g := sourceOfReq q
  if !(q.rz 0 1 7 4 && q.rz 1 1 7 6 && q.rz 2 1 7 3 && q.rz 3 1 7 1 && q.zb 0x14 4 && q.zb 0x38 8)
      || !s.sourceLegal g then (s, rcode cBAD_ARG)
  else if (s.gld.source g.id).isNone && 16 ≤ s.gld.sources.length then (s, rcode cNO_RESOURCE)
  else if (s.gld.source g.id).isSome && s.pln.plans.any (fun p => (p.batchOf g.id).isSome) then (s, rcode cBUSY)
  else
    let x := s.gld.freePreps fun r => r.source == g.id
    (({ s with gld := { x with
        orders := x.orders.filter (·.1 != g.id), manifests := x.manifests.filter (·.1 != g.id) } }).putSource g, rcode cOK)

/-- GLADE_SOURCE (R422). -/
def execGladeSource (k : SlotId) (s : State) : Host.Outcome State Fault Refusal :=
  .next (s.take k (·.opcode == 0x0501) gladeSourceBody)

/-- GD_ACTION. -/
def gdAction (q : Req) : Nat := q.f 1 1 % 2

/-- The body of GLADE_DISPOSE that sets the disposition (R441). -/
def gladeSetBody (q : Req) (s : State) : State × Resp :=
  match s.gld.source (bits (q.f 0 1) 3 0) with
  | none => (s, rcode cBAD_ARG)
  | some g =>
    if !(q.rz 0 1 7 4 && q.rz 1 1 7 1 && q.rz 2 1 7 1 && q.zb 3 5 && q.zb 8 8) then (s, rcode cBAD_ARG)
    else (s.putSource { g with substitute := bit (q.f 2 1) 0 }, rcode cOK)

/-- GLADE_DISPOSE, set the disposition (R441). -/
def execGladeDisposeSet (k : SlotId) (s : State) : Host.Outcome State Fault Refusal :=
  .next (s.take k (fun q => q.opcode == 0x0502 && gdAction q == 0) gladeSetBody)

/-- The body of GLADE_DISPOSE that orders SUBSTITUTE for the halted sample; the source resumes (R441). -/
def gladeOrderBody (q : Req) (s : State) : State × Resp :=
  match s.gld.source (bits (q.f 0 1) 3 0) with
  | none => (s, rcode cBAD_ARG)
  | some g =>
    if !(q.rz 0 1 7 4 && q.rz 1 1 7 1 && q.zb 2 6) || g.state ≠ 2 || g.haltIndex ≠ q.f 8 8 then (s, rcode cBAD_ARG)
    else
      let s := s.putSource { g with state := 0, haltIndex := 0 }
      ({ s with gld := { s.gld with orders := s.gld.orders ++ [(g.id, g.haltIndex, g.haltReason)] } }, rcode cOK)

/-- GLADE_DISPOSE, SUBSTITUTE for a sample (R441). -/
def execGladeDisposeSubstitute (k : SlotId) (s : State) : Host.Outcome State Fault Refusal :=
  .next (s.take k (fun q => q.opcode == 0x0502 && gdAction q == 1) gladeOrderBody)

/-- The body of GLADE_STATS (R507). -/
def gladeStatsBody (q : Req) (s : State) : State × Resp :=
  match s.gld.source (bits (q.f 0 1) 3 0) with
  | none => (s, rcode cBAD_ARG)
  | some g =>
    if !(q.rz 0 1 7 4 && q.zb 1 7) then (s, rcode cBAD_ARG)
    else
      let busy := s.gld.preps.any fun r => r.source == g.id && decide (r.delivered < r.entries.length)
      (s, some (cOK, leBytes 1 (if g.state = 0 then b2n busy else g.state)
        ++ leBytes 1 (if g.state = 3 then g.reason else 0) ++ zeros 6
        ++ leBytes 8 g.haltIndex ++ leBytes 8 g.delivered ++ leBytes 8 (g.mean % 2 ^ 64).toNat
        ++ leBytes 8 g.stragglers ++ leBytes 8 g.substitutions ++ g.corrupt.flatMap (leBytes 4) ++ zeros 12
        ++ leBytes 8 g.dropRing ++ g.dropped.flatMap (leBytes 4)))

/-- GLADE_STATS (R507). -/
def execGladeStats (k : SlotId) (s : State) : Host.Outcome State Fault Refusal :=
  .next (s.take k (·.opcode == 0x0503) gladeStatsBody)

/-! ### Reads of the Glade (R223, R247, R471) -/

/-- A failure that is no fault. -/
def BatchFault.ofCode (code : Nat) : BatchFault := ⟨code, 0, 0, 0, 0, 0⟩

/-- How a Glade read ends: bytes, a wait, a failure, a poisoned line. -/
inductive GRead where
  | bytes (b : Bytes) (s : State)
  | wait (s : State)
  | fail (f : BatchFault) (s : State)
  | poison (region page line : Nat)

/-- A read of a range; `half` is the Floor that counts resolved demand faults. -/
def State.gladeRead (s : State) (half va len : Nat) : GRead :=
  match s.resolveCount (agentCache half) (va, len, false) with
  | none =>
    let a := match s.accessIn (agentCache half) va len false with
      | .fault 1 a => a
      | _ => va
    .fail ⟨cNO_RESOURCE, 1, a, 0, 0, 0⟩ s
  | some s =>
    match s.accessIn (agentCache half) va len false with
    | .ok => let x := s.readVa va len; .bytes x.1 x.2
    | .stale | .waits => .wait s
    | .hostHeld => .wait (s.recallHost va len false)
    | .poison r p l => .poison r p l
    | .fault 4 a => .fail ⟨cINTERNAL, 4, a, 0, 0, 0⟩ (s.raise aFAULT cINTERNAL noTag (unitField uWalker half 0) a)
    | .fault k a => .fail ⟨cFAULT_XLATE, k, a, 0, 0, 0⟩ s

/-- A read of a record by its place in the staging region. -/
def State.stageRead (s : State) (g : Source) (half off len : Nat) : GRead :=
  match (s.rgn.get g.stageRegion).bind fun r => r.map.map fun m => (r, m) with
  | some (r, m) =>
    if off + len ≤ r.size then s.gladeRead half (m.base + off) len else .fail ⟨cFAULT_XLATE, 2, m.base + off, 0, 0, 0⟩ s
  | none => .fail ⟨cFAULT_XLATE, 2, off, 0, 0, 0⟩ s

/-! ### Prepared slots -/

/-- The prepared slot of a source and a ring. -/
def Gld.prep (g : Gld) (source ring : Nat) : Option Prep := g.preps.find? fun r => r.source == source && r.ring == ring

/-- Sets a prepared slot. -/
def State.putPrep (s : State) (r : Prep) : State :=
  { s with gld := { s.gld with
      preps := s.gld.preps.filter (fun x => !(x.source == r.source && x.ring == r.ring)) ++ [r] } }

/-- The active step is the one that a slot serves. -/
def State.serving (s : State) (r : Prep) : Option Step :=
  s.stp.active.filter fun st => st.ring == r.ring && st.plan == r.plan && st.st == .running && !st.stopped

/-- A GLADE_BATCH instance completes with a failure, a fault of it in the step record (R250). -/
def State.batchFails (s : State) (op mb : Nat) (f : BatchFault) : State :=
  (if f.kind = 0 then s else s.faultEntry op mb f.kind f.va f.region f.page f.line).instFails op mb f.code

/-- A group of a slot fails: its instance completes with that, now or once it is issued (R247, R424, R437). -/
def State.failGroup (s : State) (r : Prep) (group : Nat) (f : BatchFault) : State :=
  match (s.serving r).bind fun st => st.inst r.op group with
  | some i => if i.st == .issued || i.st == .waitHost then s.batchFails r.op group f else s
  | none => match s.gld.prep r.source r.ring with
    | some x => s.putPrep { x with fails := if (x.fails.get group).isSome then x.fails else x.fails.set group f }
    | none => s

/-- An entry for the record of the step that a slot serves (R439). -/
def State.gladeNote (s : State) (r : Prep) (e : Bytes) : State :=
  if (s.serving r).isSome then s.addEntry e
  else match s.gld.prep r.source r.ring with
    | some x => s.putPrep { x with records := x.records ++ [e] }
    | none => s

/-- A DISPOSITION entry (R439). -/
def dispositionEntry (source index code reason sub pos : Nat) : Bytes :=
  recEntry 1 (leBytes 1 source ++ leBytes 8 index ++ leBytes 1 code ++ leBytes 1 reason ++ leBytes 8 sub ++ leBytes 4 pos)

/-- A slot's entry changed. -/
def State.setEntry (s : State) (r : Prep) (k : Nat) (f : PrepEntry → PrepEntry) : State :=
  match s.gld.prep r.source r.ring with
  | some x =>
    let es := (List.range x.entries.length).filterMap fun i => (x.entries[i]?).map fun e => if i = k then f e else e
    s.putPrep { x with entries := es }
  | none => s

/-- A sample is handled as HALT: the source stops beyond it, and its step holds, at its start or now (R437, R634). -/
def State.haltEntry (s : State) (r : Prep) (k reason : Nat) : State :=
  match r.entries[k]?, s.gld.source r.source with
  | some e, some g =>
    let s := s.putSource { g with state := 2, haltRing := r.ring, haltIndex := e.index, haltReason := reason }
    let s := s.setEntry r k fun e => { e with st := 3 }
    let s := match s.gld.prep r.source r.ring with
      | some x => s.putPrep { x with halted := true }
      | none => s
    let s := s.gladeNote r (dispositionEntry r.source e.index 1 reason 0 0xFFFFFFFF)
    match s.serving r with
    | some st =>
      (match st.inst r.op e.group with
      | some i => if i.st == .issued || i.st == .waitHost then s.instFails r.op e.group cSAMPLE_BAD else s.localHold cSAMPLE_BAD
      | none => s.localHold cSAMPLE_BAD)
    | none => s
  | _, _ => s

/-- A corrupt sample is counted, with SAMPLE attention (R431, R437). -/
def State.corruptSample (s : State) (source index reason : Nat) : State :=
  let s := match s.gld.source source with
    | some g => s.putSource { g with
        corrupt := (List.range 9).map fun k => g.corrupt.getD k 0 + if k + 1 = reason then 1 else 0 }
    | none => s
  s.raise aSAMPLE 0 noTag source index

/-! ### Manifests (R423, R424) -/

/-- The plan and the operation that a source's ring is prepared for: the running step's, else those of the latest accepted
step (R433). -/
def State.batchPlan (s : State) (source ring : Nat) : Option (Plan × Nat) :=
  let own := (s.stp.active.filter (·.ring == ring)).map (·.plan)
  ((own.orElse fun _ => s.gld.latest).bind s.pln.get).bind fun p => (p.batchOf source).map fun i => (p, i)

/-- The condition of R424 that rejects a manifest, by its bytes; 0 when it is good. DEDUCED, log 103. -/
def manifestReason (g : Source) (p : Plan) (op : Nat) (b : Bytes) : Nat :=
  let n := fld b 8 4
  let mb := fun (k : Nat) => fld b (0x40 + 2 * k) 2
  let index := fun (e : Nat) => fld b (0x80 + 16 * e) 8
  let blk := p.param op
  if (List.range (min n g.maxEntries - 1)).any fun e => decide (index (e + 1) ≤ index e) then 1
  else if ((List.range 32).map mb).sum ≠ n then 2
  else if g.maxEntries < n then 3
  else if (upFrom p.mbCount (32 - p.mbCount)).any fun k => mb k != 0 then 4
  else if gbKind blk ≠ 1 && (List.range p.mbCount).any fun k => mb k != gbSamples blk then 5
  else 0

/-- A prepared slot with nothing in it. -/
def emptyPrep (source ring plan op : Nat) : Prep :=
  { source := source, ring := ring, plan := plan, op := op, entries := [], delivered := 0, records := [], halted := false
    rejected := false, fails := [], copied := [] }

/-- A slot whose every group fails. -/
def State.failAll (s : State) (r : Prep) (groups : Nat) (f : BatchFault) : State :=
  (List.range groups).foldl (fun s b => s.failGroup r b f) (s.putPrep r)

/-- A poisoned line of a manifest fails the step's instances, with FAULT attention. -/
def State.manifestPoison (s : State) (g : Source) (r : Prep) (groups region page line : Nat) : State :=
  (s.raise aFAULT cINTERNAL noTag (unitField uGlade 0 0) g.manifestVa).failAll r groups ⟨cINTERNAL, 5, 0, region, page, line⟩

/-- A rejected manifest makes the step's instances complete with SAMPLE_BAD, and the source shows MANIFEST (R424). -/
def State.rejectManifest (s : State) (g : Source) (r : Prep) (groups why : Nat) : State :=
  (s.putSource { g with state := 3, reason := why }).failAll { r with rejected := true } groups (.ofCode cSAMPLE_BAD)

/-- MANIFEST_READY (R424): the slot whose ready word holds the ring is read and checked; a rejected manifest fails the
step's instances. -/
def execManifestReady (source ring : Nat) (s : State) : Host.Outcome State Fault Refusal :=
  .next (
    match s.gld.source source, s.batchPlan source ring with
    | some g, some (p, op) =>
      if !s.powered || ring ≤ s.deviceRing || s.gld.manifests.contains (source, ring) || (s.gld.prep source ring).isSome then s
      else
        let r := emptyPrep source ring p.handle op
        match s.gladeRead 0 (g.manifestVa + ring % 8 * g.slotBytes) (128 + 16 * g.maxEntries) with
        | .wait t => t
        | .fail c t => t.failAll r p.mbCount c
        | .poison x y z => s.manifestPoison g r p.mbCount x y z
        | .bytes b t =>
          if fld b 0 6 ≠ ring then t
          else
            let why := manifestReason g p op b
            if why = 0 then
              let t := t.putSource (if g.state = 3 then { g with state := 0, reason := 0 } else g)
              { t with gld := { t.gld with manifests := t.gld.manifests ++ [(source, ring)] } }
            else t.rejectManifest g r p.mbCount why
    | _, _ => s)

/-! ### Preparing a step (R433, R440) -/

/-- The disposition that a replay's source attempt recorded for a sample, or that a GLADE_DISPOSE ordered (R440, R441). -/
def State.forcedOf (s : State) (source ring index : Nat) : Option Forced :=
  let order := (s.gld.orders.find? fun o => o.1 == source && o.2.1 == index).map fun o => Forced.order o.2.2
  let st := (s.stp.active.toList ++ s.stp.queued.toList).find? fun x => x.ring == ring && x.replay
  let rec_ := (st.map (·.source)).getD [] |>.find? fun b =>
    byteAt b 0 == 1 && byteAt b 1 == source && fld b 2 8 == index
  match rec_ with
  | some b =>
    if byteAt b 10 = 2 then some (.spare (byteAt b 11) (fld b 12 8) (fld b 20 4))
    else order.orElse fun _ => some (.halt (byteAt b 11))
  | none => order

/-- The entries of a manifest, with their groups. -/
def manifestEntries (b : Bytes) : List PrepEntry :=
  let groups := (List.range 32).flatMap fun k => List.replicate (fld b (0x40 + 2 * k) 2) k
  (List.range (fld b 8 4)).map fun e =>
    { index := fld b (0x80 + 16 * e) 8, off := 64 * fld b (0x8B + 16 * e) 5, len := fld b (0x88 + 16 * e) 3
      group := groups.getD e 0, st := 0, forced := none, out := ⟨0, [], 0, []⟩ }

/-- GLADE_PREPARE_STEP (R424, R433, R440): the manifest is held against the plan it is prepared for, and the slot opens; a sample that a replay's source attempt halted is halted again. -/
def execGladePrepareStep (source ring : Nat) (s : State) : Host.Outcome State Fault Refusal :=
  .next (
    match s.gld.source source, s.batchPlan source ring with
    | some g, some (p, op) =>
      let low := s.deviceRing + 1
      let free := !s.gld.preps.any fun r => r.source == source && r.ring % (g.lookahead + 1) == ring % (g.lookahead + 1)
      if !s.powered || !s.gld.manifests.contains (source, ring) || ring < low || low + g.lookahead < ring || !free then s
      else
        match s.gladeRead 0 (g.manifestVa + ring % 8 * g.slotBytes) (128 + 16 * g.maxEntries) with
        | .wait t => t
        | .fail c t => t.failAll (emptyPrep source ring p.handle op) p.mbCount c
        | .poison x y z => s.manifestPoison g (emptyPrep source ring p.handle op) p.mbCount x y z
        | .bytes b t =>
          let why := if fld b 0 6 = ring then manifestReason g p op b else 0
          if why ≠ 0 then t.rejectManifest g (emptyPrep source ring p.handle op) p.mbCount why else
          let es := (manifestEntries b).map fun e => { e with forced := t.forcedOf source ring e.index }
          let r := { emptyPrep source ring p.handle op with entries := es }
          (List.range es.length).foldl (fun t k =>
            match (es[k]?).bind fun (e : PrepEntry) => e.forced with
            | some (.halt reason) => t.haltEntry r k reason
            | _ => t) (t.putPrep r)
    | _, _ => s)

/-! ### Lanes (R432, R435 to R438) -/

/-- A source's slots in ring order. -/
def Gld.slots (g : Gld) (source : Nat) : List Prep := sortBy (·.ring) (g.preps.filter (·.source == source))

/-- The source's entries from its oldest undelivered one on: ring, number in the slot, entry. -/
def Gld.undelivered (g : Gld) (source : Nat) : List (Nat × Nat × PrepEntry) :=
  (g.slots source).flatMap fun r => (upFrom r.delivered (r.entries.length - r.delivered)).filterMap fun k =>
    (r.entries[k]?).map fun e => (r.ring, k, e)

/-- The entry that a lane takes next: the first waiting one within 512 entries, not beyond a halted sample. -/
def Gld.nextEntry (g : Gld) (src : Source) : Option (Nat × Nat × PrepEntry) :=
  (((g.undelivered src.id).take 512).find? fun x => x.2.2.st == 0).filter fun x =>
    src.state != 2 || decide (x.1 < src.haltRing) || (x.1 == src.haltRing && decide (x.2.2.index ≤ src.haltIndex))

/-- GLADE_LANE_START (R432): a free lane takes the next entry of a source. -/
def execGladeLaneStart (lane : Fin 32) (source : Nat) (s : State) : Host.Outcome State Fault Refusal :=
  .next (
    match s.gld.source source with
    | none => s
    | some g =>
      if !s.powered || (s.gld.lanes.get lane).isSome then s else
      match s.gld.nextEntry g, s.gld.prep source ((s.gld.nextEntry g).elim 0 (·.1)) with
      | some (ring, k, _), some r =>
        let s := s.setEntry r k fun e => { e with st := 1 }
        { s with gld := { s.gld with lanes := s.gld.lanes.set lane ⟨source, ring, k, s.aon.tick.toNat⟩ } }.wakeBlock
          (.lane lane)
      | _, _ => s)

/-- Delivery: entries complete in manifest order only; counted (R432). -/
def State.deliver (s : State) (r : Prep) (unit : Nat) : State :=
  match s.gld.prep r.source r.ring, s.gld.source r.source with
  | some x, some g =>
    let n := (x.entries.takeWhile (·.st == 2)).length
    let d := n - x.delivered
    ((s.putPrep { x with delivered := max n x.delivered }).putSource { g with delivered := g.delivered + d }).count 0x500 unit d
  | _, _ => s

/-- A sample's decode time enters the running mean, and a straggler is noted (R435). -/
def State.timeSample (s : State) (r : Prep) (index unit t : Nat) : State :=
  match s.gld.source r.source with
  | none => s
  | some g =>
    let limit := (if g.straggle = 0 then 16 else g.straggle) * g.mean.toNat
    let slow := 64 ≤ g.completed && limit < t
    let m : Int := if g.completed = 0 then t else g.mean + ((t : Int) - g.mean).fdiv 64
    let s := s.putSource { g with mean := m, completed := g.completed + 1, stragglers := g.stragglers + b2n slow }
    let s := s.count 0x501 unit t
    if slow then (s.gladeNote r (recEntry 2 (leBytes 1 r.source ++ leBytes 8 index ++ leBytes 8 t))).count 0x502 unit else s

/-- The outcome of the search for a substitute (R438). -/
inductive SubRes where
  | found (index pos : Nat) (o : SampleOut)
  | none
  | wait
  | fail (f : BatchFault)

/-- What decoding needs of a slot: the block, the seed and the tensors. -/
def State.decode (s : State) (r : Prep) (i index len : Nat) (b : Bytes) : Except Nat SampleOut :=
  match s.pln.get r.plan with
  | some p => sampleOfRecord (p.param r.op) p.seed (p.outTd r.op 0 0) (p.outTd r.op 1 0) i index len b
  | none => .error gDECODE

/-- A spare of the table, decoded in place of the sample with index `i`. DEDUCED, log 99. -/
def State.trySpare (s : State) (g : Source) (r : Prep) (half i pos : Nat) : State × SubRes × Nat × Nat :=
  match s.gladeRead half (g.spareVa + 16 * pos) 16 with
  | .wait t => (t, .wait, 0, 0)
  | .fail c t => (t, .fail c, 0, 0)
  | .poison .. => (s, .none, 0, gPOISON)
  | .bytes e t =>
    let index := fld e 0 8
    let len := fld e 8 3
    match t.stageRead g half (64 * fld e 11 5) len with
    | .wait t => (t, .wait, 0, 0)
    | .fail c t => (t, .fail c, 0, 0)
    | .poison .. => (t, .none, index, gPOISON)
    | .bytes b t =>
      match t.decode r i index len b with
      | .ok o => (t, .found index pos o, index, 0)
      | .error why => (t, .none, index, why)

/-- The attempts k from `16 - n` on (R438): each corrupt spare is counted and takes the next. -/
def substitute (g : Source) (r : Prep) (half i seed : Nat) : Nat → State → State × SubRes
  | 0, s => (s, .none)
  | n + 1, s =>
    match s.trySpare g r half i (gPick (gDraw seed i 0xF0 (15 - n)) g.spares) with
    | (t, .none, index, why) => substitute g r half i seed n (t.corruptSample g.id index why)
    | (t, x, _, _) => (t, x)

/-- The lane is free again. -/
def State.freeLane (s : State) (lane : Nat) : State := { s with gld := { s.gld with lanes := s.gld.lanes.erase lane } }

/-- An entry is complete with its outputs. They enter the prepared ring, whose bytes have no stated layout (R432, R433;
DESIGN CHOICE, log 95). -/
def State.entryDone (s : State) (lane : Nat) (r : Prep) (k index t : Nat) (o : SampleOut) : State :=
  let s := match s.gld.source r.source with
    | some g => s.undefineVa g.prepVa g.prepBytes
    | none => s
  let s := (s.freeLane lane).setEntry r k fun e => { e with st := 2, out := o }
  (s.timeSample r index (lane / 16) t).deliver r (lane / 16)

/-- A substitute takes an entry's place (R437, R439). -/
def State.substituted (s : State) (lane : Nat) (r : Prep) (k index reason t sub pos : Nat) (o : SampleOut) : State :=
  let s := match s.gld.source r.source with
    | some g => s.putSource { g with substitutions := g.substitutions + 1 }
    | none => s
  (s.gladeNote r (dispositionEntry r.source index 2 reason sub pos)).entryDone lane r k index t o

/-- A sample without an output of its own takes a substitute, or is halted (R437, R438). DEDUCED, log 100. -/
def State.dispose (s : State) (lane : Nat) (g : Source) (r : Prep) (k index reason t : Nat) (sub : Bool) : State :=
  let seed := ((s.pln.get r.plan).map (·.seed)).getD 0
  if sub && g.spares != 0 then
    match substitute g r (lane / 16) index seed 16 s with
    | (s, .found j pos o) => s.substituted lane r k index reason t j pos o
    | (s, .none) => (s.freeLane lane).haltEntry r k reason
    | (_, .wait) => s
    | (s, .fail c) => (s.freeLane lane).failGroup r ((r.entries[k]?).elim 0 (·.group)) c
  else (s.freeLane lane).haltEntry r k reason

/-- A lane ends its work on an entry after `t` ticks; when its read of the record waits for the host or a flip, the lane
stays at its entry. -/
def State.laneEnds (s : State) (lane : Nat) (g : Source) (r : Prep) (k t : Nat) : State :=
  match r.entries[k]? with
  | none => s.freeLane lane
  | some e =>
    match e.forced with
    | some (.spare why index pos) =>
      (match s.trySpare g r (lane / 16) e.index pos with
      | (s, .found _ _ o, _, _) => s.substituted lane r k e.index why t index pos o
      | (s, .none, _, _) => (s.freeLane lane).haltEntry r k why
      | (s, .wait, _, _) => s
      | (s, .fail c, _, _) => (s.freeLane lane).failGroup r e.group c)
    | some (.order why) => s.dispose lane g r k e.index why t true
    | some (.halt why) => (s.freeLane lane).haltEntry r k why
    | none =>
      match s.stageRead g (lane / 16) e.off e.len with
      | .wait s => s
      | .fail c s => (s.freeLane lane).failGroup r e.group c
      | .poison .. => (s.corruptSample g.id e.index gPOISON).dispose lane g r k e.index gPOISON t g.substitute
      | .bytes b s =>
        match s.decode r e.index e.index e.len b with
        | .ok o => s.entryDone lane r k e.index t o
        | .error why => (s.corruptSample g.id e.index why).dispose lane g r k e.index why t g.substitute

/-- SAMPLE_DONE (R427 to R431, R435, R437 to R440): a lane ends its work on an entry. -/
def execSampleDone (lane : Fin 32) (r : LaneResult) (s : State) : Host.Outcome State Fault Refusal :=
  .next (
    match s.gld.lanes.get lane with
    | none => s
    | some j =>
      match s.gld.source j.source, s.gld.prep j.source j.ring with
      | some g, some p => if s.powered then s.laneEnds lane g p j.entry r.ticks else s
      | _, _ => s.freeLane lane)

/-- Local ticks after which a lane stops work on a sample of the source (R422, R436). -/
def Source.limit (g : Source) : Nat :=
  let whole := (if g.abandonUs = 0 then 2000000 else g.abandonUs) * 100
  if g.completed < 64 then whole else min whole ((if g.abandon = 0 then 256 else g.abandon) * g.mean.toNat)

/-- SAMPLE_ABANDON (R436 to R438): a lane reaches its limit; the sample is corrupt. DESIGN CHOICE, log 101. -/
def execSampleAbandon (lane : Fin 32) (s : State) : Host.Outcome State Fault Refusal :=
  .next (
    match s.gld.lanes.get lane with
    | none => s
    | some j =>
      match s.gld.source j.source, s.gld.prep j.source j.ring with
      | some g, some p =>
        if !s.powered then s else
        (match p.entries[j.entry]? with
        | some e =>
          let t := g.limit
          ((s.count 0x501 (lane / 16) t).corruptSample g.id e.index gABANDONED).dispose lane g p j.entry e.index gABANDONED t
            g.substitute
        | none => s.freeLane lane)
      | _, _ => s.freeLane lane)

/-- Lanes that wait on host memory which was not kept: their groups fail (R472). -/
def State.gladeHostLost (s : State) : State :=
  s.gld.lanes.foldl (fun s l =>
    match s.gld.source l.2.source, s.gld.prep l.2.source l.2.ring with
    | some g, some r =>
      (match r.entries[l.2.entry]?, s.rgn.get g.stageRegion with
      | some e, some x =>
        if (chunksOf e.off e.len).any fun c => x.stalePage (c.1 / pageBytes) then
          ((s.freeLane l.1).setEntry r l.2.entry fun e => { e with st := 0 }).failGroup r e.group (.ofCode cHOST_LOST)
        else s
      | _, _ => s)
    | _, _ => s) s

/-! ### GLADE_BATCH -/

/-- The entries of a group of a slot. -/
def Prep.group (r : Prep) (b : Nat) : List PrepEntry := r.entries.filter (·.group == b)

/-- The group has been delivered. -/
def Prep.groupDelivered (r : Prep) (b : Nat) : Bool :=
  (List.range r.entries.length).all fun k => match r.entries[k]? with
    | some e => e.group != b || decide (k < r.delivered)
    | none => true

/-- Writes a tensor of a batch, with its range-watch counts (R72). -/
def State.batchStore (s : State) (p : Plan) (op slot : Nat) (t : TD) (f : List Nat → Val) : State :=
  let x := s.storeTiles t t.tiles f
  x.1.watchAdd ((p.op op).outs.getD slot absent) x.2.1 x.2.2

/-- The outputs of an IMAGE group (R443, R444). -/
def State.storeImages (s : State) (p : Plan) (op : Nat) (blk : Bytes) (o : TD) (es : List PrepEntry) : State :=
  let planar := bit (byteAt blk 2) 4
  let n := gbChannels blk
  let base := (es.map fun e => e.out.out0.toArray).toArray
  let ts := pyramid blk o
  (List.range ts.length).foldl (fun s l =>
    match ts[l]? with
    | none => s
    | some t =>
      let w := levelSize l (gbOutW blk)
      let im := base.map fun a => imageLevel n (gbOutW blk) (gbOutH blk) a l
      s.batchStore p op 0 t fun c =>
        let x := c.getD (if planar then 0 else 1) 0
        let y := c.getD (if planar then 1 else 2) 0
        let k := c.getD (if planar then 2 else 0) 0
        d32 ((im.getD (c.getD 3 0) #[]).getD ((y * w + x) * n + k) 0)) s

/-- The outputs of a TOKENS group (R446), with its dropped tokens in the statistics. -/
def State.storeTokens (s : State) (p : Plan) (op mb ring source : Nat) (blk : Bytes) (o : TD) (o1 : Option TD)
    (es : List PrepEntry) : State :=
  let width := fld blk 0x4C 4
  let k := packGroup (gbSamples blk) width (es.map (·.out.out0))
  let at_ := fun (e : List Nat) => k.cells.find? fun c => c.1 * width + c.2.1 == e.getD 1 0
  let s := s.batchStore p op 0 o fun e => d32 (b32OfNat (match at_ e with
    | some c => c.2.2.1
    | none => fld blk 0x48 4))
  let s := match o1 with
    | some t => s.batchStore p op 1 t fun e => match at_ e with
      | some c => d32 (b32OfNat c.2.2.2)
      | none => d32 0xBF800000
    | none => s
  match s.gld.source source with
  | some g =>
    let old := if g.dropRing = ring then g.dropped else List.replicate 32 0
    s.putSource { g with
      dropRing := ring, dropped := (List.range 32).map fun b => if b = mb then k.dropped else old.getD b 0 }
  | none => s

/-- One output of a TIMED group (R445): element dimensions, then grid points, then samples. -/
def State.storeTimed (s : State) (p : Plan) (op slot : Nat) (t : TD) (outs : List (Nat × List Nat)) : State :=
  let a := (outs.map fun x => (x.1, x.2.toArray)).toArray
  s.batchStore p op slot t fun e =>
    let i := (List.range (t.rank - 1)).foldr (fun d acc => acc * t.dim d + e.getD d 0) 0
    match a[e.getD (t.rank - 1) 0]? with
    | some (f, codes) => decodeCode f (codes.getD i 0)
    | none => .fin false 0 0

/-- GLADE_BATCH (R434, R443 to R446): once its group is delivered, the instance's outputs are written, then the ready word
with the flag's effects; with a release word it waits for that. -/
def execGladeBatch (op mb : Nat) (s : State) : Host.Outcome State Fault Refusal :=
  .next (match s.enter 0x0050 op mb with
    | none => s
    | some (s, st, p) =>
      let blk := p.param op
      match s.gld.prep (bits (byteAt blk 0) 3 0) st.ring, p.outTd op 0 mb with
      | some r, some o =>
        let o1 := p.outTd op 1 mb
        let ready := fld blk 0x58 8
        let n := (p.mbs op).length
        if r.plan ≠ p.handle || n ≤ mb then s
        else match r.fails.get mb with
          | some f => s.batchFails op mb f
          | none =>
            if r.copied.contains mb || !r.groupDelivered mb then s
            else match s.permit op mb (agentCache 0) ((gladeOuts blk o o1).flatMap (fun t => t.accs true)
                ++ if ready = 0 then [] else [(ready + 8 * mb, 8, true)]) with
              | (s, false) => s
              | (s, true) =>
                let es := r.group mb
                let s := if gbKind blk = 0 then s.storeImages p op blk o es
                  else if gbKind blk = 1 then s.storeTokens p op mb st.ring r.source blk o o1 es
                  else
                    let s := s.storeTimed p op 0 o (es.map fun e => (e.out.fmt0, e.out.out0))
                    match o1 with
                    | some t => s.storeTimed p op 1 t (es.map fun e => (e.out.fmt1, e.out.out1))
                    | none => s
                let s := s.fence
                let s := if ready = 0 then s
                  else (s.writeVa (ready + 8 * mb) (leBytes 8 st.ring)).fence.emit (.flag (ready + 8 * mb))
                let s := match s.gld.prep r.source r.ring with
                  | some x => s.putPrep { x with copied := x.copied ++ [mb] }
                  | none => s
                if fld blk 0x60 8 = 0 then s.computed op mb else s
      | _, _ => s)

/-- RELEASE_WORD (R449): an instance that waits for its release word completes once the word holds N. -/
def execReleaseWord (op mb : Nat) (s : State) : Host.Outcome State Fault Refusal :=
  .next (match s.stepPlan with
    | none => s
    | some (st, p) =>
      let blk := p.param op
      let va := fld blk 0x60 8 + 8 * mb
      let done := match s.gld.prep (bits (byteAt blk 0) 3 0) st.ring with
        | some r => r.copied.contains mb && r.op == op && r.plan == p.handle
        | none => false
      if !s.powered || (p.op op).code ≠ 0x0050 || fld blk 0x60 8 = 0 || !done || st.st != .running || st.stopped then s
      else match st.inst op mb with
        | some i =>
          if i.st != .issued && i.st != .waitHost then s
          else (match s.permit op mb (agentCache 0) [(va, 8, false)] with
            | (s, false) => s
            | (s, true) =>
              let x := s.readVa va 8
              if leNat x.1 = st.ring then x.2.computed op mb else x.2)
        | none => s)

/-! ### The start of a step -/

/-- The slots of a step that starts: one prepared with other parameters is discarded, the others serve the step and give
its record what they have noted (R433, R439). -/
def State.adoptPreps (s : State) (st : Step) (p : Plan) : State :=
  let fits := fun (r : Prep) => match p.batchOf r.source, s.pln.get r.plan with
    | some i, some o => p.param i == o.param r.op && p.seed == o.seed && p.mbCount == o.mbCount
    | _, _ => false
  let named := fun (r : Prep) => r.ring == st.ring && (p.batchOf r.source).isSome
  let s := { s with gld := s.gld.freePreps fun r => named r && !fits r }
  let mine := s.gld.preps.filter named
  let adopt := fun (r : Prep) =>
    if named r then { r with plan := p.handle, op := (p.batchOf r.source).getD 0, records := [] } else r
  let s := { s with gld := { s.gld with preps := s.gld.preps.map adopt } }
  s.onStep fun x => { x with entries := x.entries ++ mine.flatMap (·.records) }

/-- A Glade has halted the source of a GLADE_BATCH of the step (R437). -/
def State.gladeHalted (s : State) (st : Step) : Bool :=
  s.gld.preps.any fun r => r.ring == st.ring && r.plan == st.plan && r.halted

end Sys2Proof.Machine
end

