-- ==== Sys2Proof/Machine/Identity.lean ====
section
/-! DEFINITION. Identity and firmware: image verification (R586, R587), banks and selector (R588), FW_STAGE
(R590), ATTEST (R593 to R596), identity records (R597 to R599) and ID_READ (R601). -/

namespace Sys2Proof.Machine

/-! ### Fuses and images -/

/-- The fused rollback value (R585). -/
def Aon.rollback (a : Aon) : Nat := ((List.range 128).filter fun i => a.fzRollback.getLsbD i).length

/-- The image digest D (R586). -/
def imageDigest (b : Bytes) : Bytes := sha512 (overlay b 0x40 (zeros 64))

/-- Header fields of an image. -/
def imgSlot (b : Bytes) : Nat := bits (byteAt b 5) 5 4
def imgVersion (b : Bytes) : Nat := fld b 8 4
def imgRollback (b : Bytes) : Nat := fld b 0x0C 4

/-- The format check of R587; image lengths outside R586 fail it too. -/
def imageFormat (b : Bytes) : Bool :=
  let p := fld b 0x14 4
  let m := fld b 0x18 4
  decide (256 ≤ b.length) && fld b 0 4 == 0x46574C31 && byteAt b 4 == 1 && bits (byteAt b 5) 7 6 == 0
    && allZero b 0x11 3 && allZero b 0x1C 4 && allZero b 0x80 128 && b.length == 256 + p + m
    && decide (1 ≤ p) && decide (p ≤ 2097152) && decide (1 ≤ m) && decide (m ≤ 2097152)

/-- How an image fails to verify: BAD_ARG for FORMAT, VERSION, AUTH_FAIL for AUTH; none when it verifies (R587,
R590). -/
def Aon.verifyImage (a : Aon) (b : Bytes) : Option Nat :=
  let k := (b.drop 0x20).take 32
  if !imageFormat b then some cBAD_ARG
  else if byteAt b 7 ≠ 1 || byteAt b 0x10 ≠ 1 then some cVERSION
  else if sha512 k ≠ a.fzKeys.getD (imgSlot b) [] || a.fzRevoke.getLsbD (imgSlot b) then some cAUTH_FAIL
  else if !edVerify k (imageDigest b) ((b.drop 0x40).take 64) then some cAUTH_FAIL
  else if imgRollback b < a.rollback || 128 < imgRollback b then some cAUTH_FAIL
  else none

/-- The selector copy in force: valid, with the higher sequence number (R588). -/
def Aon.selector (a : Aon) : Option SelCopy :=
  (a.selCopies.filter (·.valid)).foldl (fun best c => match best with
    | none => some c
    | some b => if b.seq < c.seq then some c else some b) none

/-- The selected bank; bank 0 when no copy is valid. -/
def Aon.selectedBank (a : Aon) : Nat := (a.selector.map (·.bank)).getD 0

/-- The header fields of an image that runs from a bank. -/
def runningOf (bank : Nat) (b : Bytes) : Running :=
  { version := imgVersion b, rollback := imgRollback b, keySlot := imgSlot b, revoke := bits (byteAt b 5) 3 0,
    bank := bank, digest := imageDigest b }

/-- The bank that is not running (R590); under the boot ROM, the one the selector does not name. -/
def State.idleBank (s : State) : Nat :=
  match s.dev.running with
  | some r => 1 - r.bank
  | none => 1 - s.aon.selectedBank

/-- The staged image: the one in the bank that is not running, when it verifies (R590, R591, R595; DEDUCED, log 17). -/
def State.stagedImage (s : State) : Option Bytes :=
  let b := s.aon.banks.getD s.idleBank []
  if (s.aon.verifyImage b).isNone then some b else none

/-- The bank that is not running holds undefined bytes, and an undefined number of them (R636; DESIGN CHOICE, log 6). -/
def State.undefineBank (s : State) : State :=
  let n := s.freeNat
  let b := n.2.freeBytes (n.1 % (2 ^ 23 + 1))
  { b.2 with aon := { s.aon with banks := s.aon.banks.set s.idleBank b.1 } }

/-- The body of FW_STAGE (R590, R636). DEDUCED, log 63. -/
def fwStageBody (q : Req) (s : State) : State × Resp :=
  let va := q.f 0 8
  let len := q.f 8 4
  if !(q.zb 0x0C 4 && vaOk va) || 2 ^ 23 < len then (s, rcode cBAD_ARG) else
  match s.cmdAccess va len false cBAD_ARG with
  | .error (c, s) => s.cmdFailed c State.undefineBank
  | .ok s =>
    let x := s.readVa va len
    let s := x.2
    match s.aon.verifyImage x.1 with
    | some c => (s, rcode c)
    | none =>
      if s.aon.activating then (s, rcode cBUSY)
      else
        ({ s with aon := { s.aon with banks := s.aon.banks.set s.idleBank x.1 } },
          some (cOK, leBytes 4 (imgVersion x.1) ++ leBytes 4 (imgRollback x.1) ++ zeros 8))

/-- FW_STAGE (R590). -/
def execFwStage (k : SlotId) (s : State) : Host.Outcome State Fault Refusal :=
  .next (s.take k (·.opcode == 0x0903) fwStageBody)

/-! ### Identity records -/

/-- The carrier record that a memory answers, when it is readable (R597, R598). -/
def carrierRecord (b : Bytes) : Option Bytes :=
  let n := fld b 6 2
  if fld b 0 4 = 0x43495231 && byteAt b 4 = 1 && 128 ≤ n && n ≤ 4096 && n % 4 = 0 && n ≤ b.length
      && fld b (n - 4) 4 = crc32c (b.take (n - 4)) then some (b.take n)
  else none

/-- The power stage record: none when unreadable, otherwise whether it meets R558 (R599). -/
def powerRecord (b : Bytes) : Option Bool :=
  if 64 ≤ b.length && fld b 0 4 = 0x50534931 && byteAt b 4 = 1 && fld b 0x3C 4 = crc32c (b.take 0x3C)
  then some (decide (2900 ≤ fld b 8 2) && decide (3400 ≤ fld b 0x0A 2))
  else none

/-- The identity public key (R593). -/
def Aon.idKey (a : Aon) : Bytes := edPublic a.fzIdKey

/-- LS_DEVID (R593). -/
def Aon.devid (a : Aon) : Nat := leNat ((sha512 a.idKey).take 8)

/-! ### ATTEST -/

/-- The 448 signed bytes of the report (R595). -/
def State.attestBody (s : State) (nonce : Bytes) : Bytes :=
  let run := s.dev.running
  let flags := b2n s.dev.joined * 16 + b2n s.dev.psUnderrated * 8 + b2n s.dev.carrierValid * 4
    + b2n s.dev.fallback * 2 + b2n run.isNone
  let ci := fun (off n : Nat) => if s.dev.carrierValid then fld s.dev.carrier off n else 0
  let addr := match s.fab.addr with | some a => 32768 + a | none => 0
  leBytes 1 1 ++ zeros 1 ++ leBytes 2 512 ++ leBytes 4 (2 ^ 24 + Config.stepping.toNat) ++ leBytes 4 1
    ++ leBytes 4 flags ++ leBytes 8 s.aon.devid ++ leBytes 8 s.aon.tick.toNat ++ padTo 32 nonce
    ++ padTo 32 s.aon.idKey
    ++ leBytes 4 ((run.map (·.version)).getD 0) ++ leBytes 4 ((run.map (·.rollback)).getD 0)
    ++ leBytes 4 s.aon.rollback ++ leBytes 1 ((run.map (·.keySlot)).getD 0) ++ leBytes 1 s.aon.fzRevoke.toNat
    ++ zeros 2
    ++ padTo 64 ((run.map (·.digest)).getD []) ++ padTo 64 ((s.stagedImage.map imageDigest).getD [])
    ++ padTo 64 Config.romDigest
    ++ padTo 64 (if s.dev.carrierValid then sha512 (s.dev.carrier.take (fld s.dev.carrier 6 2)) else [])
    ++ leBytes 2 addr ++ leBytes 2 (ci 0x0A 2) ++ leBytes 1 (ci 0x0C 1) ++ zeros 3 ++ leBytes 8 s.deviceRing
    ++ zeros 64

/-- The body of ATTEST. -/
def attestCmd (q : Req) (s : State) : State × Resp :=
  if q.f 0 1 ≠ 1 || !q.zb 1 7 then (s, rcode cBAD_ARG)
  else
    let b := s.attestBody ((q.pay.drop 8).take 32)
    (s, some (cOK, b ++ padTo 64 (edSign s.aon.fzIdKey b)))

/-- ATTEST (R593 to R596). -/
def execAttest (k : SlotId) (s : State) : Host.Outcome State Fault Refusal :=
  .next (s.take k (·.opcode == 0x0901) attestCmd)

/-! ### ID_READ -/

/-- Bytes of a source's readable area; none for a reserved source (R601). -/
def idArea (src : Nat) : Option Nat :=
  if src = 0 then some 4096 else if src = 0x20 then some 64 else if src ≤ 0x12 then some 256 else none

/-- The body of ID_READ: what the bus answers is its operand. -/
def idReadBody (answer : Option Bytes) (q : Req) (s : State) : State × Resp :=
  let off := q.f 2 2
  let n := q.f 4 2
  match idArea (q.f 0 1) with
  | none => (s, rcode cBAD_ARG)
  | some area =>
    if !(q.zb 1 1 && q.zb 6 2) || n = 0 || 1984 < n || area < off + n then (s, rcode cBAD_ARG)
    else match answer with
      | none => (s, rcode cNOT_READY)
      | some b => (s, some (cOK, padTo n b))

/-- ID_READ (R601). -/
def execIdRead (k : SlotId) (answer : Option Bytes) (s : State) : Host.Outcome State Fault Refusal :=
  .next (s.take k (·.opcode == 0x0902) (idReadBody answer))

end Sys2Proof.Machine
end

