-- ==== Sys2Proof/Machine/Product.lean ====
section
/-! DEFINITION. Matrix products as reductions: what an output element of a MATMUL, a CONV or a SAPLING_CONV reads at each
position of its reduction (R96, R98, R103, R137, R142, R156), output blocks (R144, R157), segments (R102), chunk sums
(R110, R113), the taint of an element (R118) and the output stage (R129, R131). -/

namespace Sys2Proof.Machine

/-- What one side of a product reads: nothing, the product being +0; a padding constant; an element. -/
inductive Ref where
  | zero
  | const (v : Val)
  | elem (e : List Nat)

/-- An output block: its first column and row in the output's logical dimensions 0 and 1, how many of each, the indices
of dimensions 2 to 5, the channel group. -/
structure Blk where
  c0 : Nat
  cn : Nat
  r0 : Nat
  rn : Nat
  rest : List Nat
  grp : Nat
  deriving DecidableEq, Repr

/-- A product: operands, initial sums, output, saved output, column parameters; `dims` are the output's logical sizes,
`runs` and `inner` the reduction's outer and innermost sizes. -/
structure Prod where
  op : Nat
  mb : Nat
  a : TD
  b : TD
  c : Option TD
  d : TD
  save : Option TD
  cols : Option TD
  conv : Option ConvOp
  transA : Bool
  transB : Bool
  dims : List Nat
  runs : Nat
  inner : Nat
  kc : Nat
  segs : Nat
  groups : Nat
  out : Bytes

/-- The activation on a CONV's input side and on its output side. -/
def Prod.x (q : Prod) (v : ConvOp) : Act := ((v.roles q.a q.b q.d).1).act v.xPlanar
def Prod.y (q : Prod) (v : ConvOp) : Act := ((v.roles q.a q.b q.d).2.1).act v.yPlanar

/-- The output lies in planar layout: an activation of a SAPLING_CONV. -/
def Prod.planar (q : Prod) : Bool :=
  match q.conv with
  | some v => v.dir != 2 && v.planarOut
  | none => false

/-- The product of a MATMUL's instance (R96, R97). -/
def Plan.matmulProd (p : Plan) (op mb : Nat) (a b d : TD) : Prod :=
  let blk := p.param op
  { op := op, mb := mb, a := a, b := b, c := if bit (byteAt blk 0x0C) 2 then p.inTd op 2 mb else none
    d := d, save := p.outTd op 1 mb, cols := p.inTd op 3 mb, conv := none
    transA := bit (byteAt blk 0x0C) 0, transB := bit (byteAt blk 0x0C) 1, dims := d.dims
    runs := 1, inner := fld blk 8 4, kc := chunkOf a b, segs := max 1 (byteAt blk 0x0D), groups := 1
    out := (blk.drop 0x20).take 32 }

/-- The product of a convolution's instance (R140, R142, R156). -/
def Plan.convProd (p : Plan) (op mb : Nat) (v : ConvOp) (a b d : TD) : Prod :=
  let xs := (v.roles a b d).1.act v.xPlanar
  let ys := (v.roles a b d).2.1.act v.yPlanar
  let w := (v.roles a b d).2.2
  let taps := v.win.kh * v.win.kw
  let act := fun (s : Act) => [s.c, s.w, s.h, s.n, 1, 1]
  { op := op, mb := mb, a := a, b := b, c := none, d := d, save := p.outTd op 1 mb, cols := p.inTd op 3 mb
    conv := some v, transA := false, transB := false
    dims := if v.dir = 0 then act ys else if v.dir = 1 then act xs else w.dims
    runs := if v.dir = 2 then ys.n * ys.h else taps
    inner := if v.dir = 0 then xs.c / v.groups else if v.dir = 1 then ys.c / v.groups else ys.w
    kc := if v.sapling then 4096 else chunkOf a b, segs := v.split, groups := v.groups
    out := ((p.param op).drop 0x20).take 32 }

/-- The product that an instance of class MATMUL, CONV or SAPLING_CONV computes. -/
def Plan.prod (p : Plan) (op mb : Nat) : Option Prod :=
  match p.inTd op 0 mb, p.inTd op 1 mb, p.outTd op 0 mb with
  | some a, some b, some d =>
    let c := (p.op op).code
    if c = 0x0001 then some (p.matmulProd op mb a b d)
    else if c = 0x0010 then some (p.convProd op mb (convOp (p.param op)) a b d)
    else if c = 0x0014 then some (p.convProd op mb (saplingOp (p.param op)) a b d)
    else none
  | _, _, _ => none

/-- The passes accumulate in 32-bit integers (R62); a Sapling engine runs no passes and sums by the tree (R156). -/
def Prod.int (q : Prod) : Bool :=
  intPath q.a q.b && (match q.conv with | some v => !v.sapling | none => true)

/-! ### Output blocks -/

/-- The blocks of a product in ascending order: dimension 0 fastest, a tile's channel groups in order (R144, DEDUCED, log 24).
A WGRAD's blocks are 128 output channels by 128 input channels of dW at one (kx, ky): DESIGN CHOICE, log 164. -/
def Prod.blocks (q : Prod) : List Blk :=
  let dim := fun (i : Nat) => q.dims.getD i 1
  let per := max 1 (dim 0 / q.groups)
  let rests := (List.range 4).foldr (fun i acc => acc.flatMap fun c => (List.range (dim (i + 2))).map fun k => k :: c) [[]]
  rests.flatMap fun rest => (List.range (ceilDiv (dim 1) 128)).flatMap fun rt =>
    (List.range (ceilDiv (dim 0) 128)).flatMap fun ct =>
      let lo := 128 * ct
      let hi := min (lo + 128) (dim 0)
      (upFrom (lo / per) ((hi - 1) / per + 1 - lo / per)).map fun g =>
        let c0 := max lo (g * per)
        let c1 := min hi ((g + 1) * per)
        ⟨c0, c1 - c0, 128 * rt, min 128 (dim 1 - 128 * rt), rest, g⟩

/-- Coordinates in the output tensor of a block's element. -/
def Prod.coord (q : Prod) (k : Blk) (r c : Nat) : List Nat :=
  if q.planar then actCoord true (k.c0 + c) (k.r0 + r) (k.rest.getD 0 0) (k.rest.getD 1 0)
  else (k.c0 + c) :: (k.r0 + r) :: k.rest

/-! ### The reduction (R103, R137, R142) -/

/-- Batch indices of an operand: an operand of size 1 is broadcast (R98). -/
def TD.batch (t : TD) (rest : List Nat) : List Nat :=
  (List.range 4).map fun i => if t.dim (i + 2) = 1 then 0 else rest.getD i 0

/-- What a window's tap reads (R137). -/
def ConvOp.tap (v : ConvOp) (planar : Bool) (x : Act) (ch n : Nat) (iy ix : Int) : Ref :=
  let inY := decide (0 ≤ iy) && decide (iy < x.h)
  let inX := decide (0 ≤ ix) && decide (ix < x.w)
  let at_ := fun (i : Int) (inside : Bool) (n : Nat) => if inside then i.toNat else tapPad v.win.mode i n
  if (inY && inX) || 2 ≤ v.win.mode then .elem (actCoord planar ch (at_ ix inX x.w) (at_ iy inY x.h) n)
  else if v.win.mode = 1 then .const (fmtB16.decode v.padVal)
  else .const (.fin false 0 0)

/-- The output index that a DGRAD term uses along an axis (R142). -/
def gradIndex (i before tap dil stride size : Nat) : Option Nat :=
  let num : Int := ((i + before : Nat) : Int) - ((tap * dil : Nat) : Int)
  if 0 ≤ num && num.toNat % stride == 0 && decide (num.toNat / stride < size) then some (num.toNat / stride) else none

/-- What IN0 gives row `r` of a block at a position of the reduction. -/
def Prod.aRef (q : Prod) (k : Blk) (r run pos : Nat) : Ref :=
  if q.inner ≤ pos then .zero else
  let row := k.r0 + r
  match q.conv with
  | none => .elem ((if q.transA then [row, pos] else [pos, row]) ++ q.a.batch k.rest)
  | some v =>
    let w := v.win
    let x := q.x v
    let y := q.y v
    if v.dir = 0 then
      v.tap v.xPlanar x (k.grp * (x.c / q.groups) + pos) (k.rest.getD 1 0)
        (tapAt (k.rest.getD 0 0) (run / w.kw) w.sy w.dy w.pt) (tapAt row (run % w.kw) w.sx w.dx w.pl)
    else if v.dir = 1 then
      match gradIndex (k.rest.getD 0 0) w.pt (run / w.kw) w.dy w.sy y.h, gradIndex row w.pl (run % w.kw) w.dx w.sx y.w with
      | some oy, some ox => .elem (actCoord v.yPlanar (k.grp * (y.c / q.groups) + pos) ox oy (k.rest.getD 1 0))
      | _, _ => .zero
    else
      v.tap v.xPlanar x (k.grp * (x.c / q.groups) + row) (run / y.h)
        (tapAt (run % y.h) (k.rest.getD 1 0) w.sy w.dy w.pt) (tapAt pos (k.rest.getD 0 0) w.sx w.dx w.pl)

/-- What IN1 gives column `c` of a block at a position of the reduction. -/
def Prod.bRef (q : Prod) (k : Blk) (c run pos : Nat) : Ref :=
  if q.inner ≤ pos then .zero else
  let col := k.c0 + c
  match q.conv with
  | none => .elem ((if q.transB then [pos, col] else [col, pos]) ++ q.b.batch k.rest)
  | some v =>
    let w := v.win
    let x := q.x v
    let y := q.y v
    if v.dir = 0 then .elem [col, pos, run % w.kw, run / w.kw, 0, 0]
    else if v.dir = 1 then
      .elem [k.grp * (y.c / q.groups) + pos, col - k.grp * (x.c / q.groups), run % w.kw, run / w.kw, 0, 0]
    else .elem (actCoord v.yPlanar col pos (run % y.h) (run / y.h))

/-- Chunks of one run of the innermost index, and of the whole reduction (R142). -/
def Prod.runChunks (q : Prod) : Nat := ceilDiv q.inner q.kc
def Prod.chunks (q : Prod) : Nat := q.runs * q.runChunks

/-- Run and position of index `j` of a chunk. -/
def Prod.chunkPos (q : Prod) (chunk j : Nat) : Nat × Nat :=
  (chunk / q.runChunks, chunk % q.runChunks * q.kc + j)

/-- Chunks of a segment: the first, and how many (R102). -/
def Prod.segment (q : Prod) (seg : Nat) : Nat × Nat :=
  let c := ceilDiv q.chunks q.segs
  (seg * c, min ((seg + 1) * c) q.chunks - seg * c)

/-! ### Sums -/

/-- The exact product of two sides; +0 where a side reads nothing. -/
def refProduct : Option Val → Option Val → Val
  | some x, some y => x.mul y
  | _, _ => .fin false 0 0

/-- The sum of a chunk of exact products by the fixed tree (R110). -/
def chunkSum (a b : List (Option Val)) : Nat := treeSum (List.zipWith refProduct a b)

/-- An exact whole value. -/
def Val.toInt : Val → Int
  | .fin s m e =>
    let n : Int := if 0 ≤ e then (m * 2 ^ e.toNat : Nat) else ((m / 2 ^ (-e).toNat : Nat) : Int)
    if s then -n else n
  | _ => 0

/-- An integer product at a retry level (R120): shifted right by 8 bits a level, to nearest even. -/
def shiftProduct (level : Nat) (n : Int) : Int :=
  let m : Int := rne n.natAbs (8 * level)
  if n < 0 then -m else m

/-- The exact integer sum of a chunk (R113). -/
def chunkSumInt (level : Nat) (a b : List (Option Val)) : Int :=
  (List.zipWith (fun x y => shiftProduct level (refProduct x y).toInt) a b).foldl (· + ·) 0

/-- A 32-bit integer and its two's-complement code (R109). -/
def int32Ok (n : Int) : Bool := decide (-2147483648 ≤ n) && decide (n ≤ 2147483647)
def int32Code (n : Int) : Nat := (n % 4294967296).toNat
def int32Of (c : Nat) : Int := if c < 2147483648 then c else (c : Int) - 4294967296

/-! ### Taint (R118) -/

/-- A side reads something non-finite in a chunk of the reduction that `want` picks: an element as `read` gives it, or a
padding value (R118, R143). -/
def Prod.sideTaint (q : Prod) (read : List Nat → Val) (want : Nat → Bool) (f : Nat → Nat → Ref) : Bool :=
  (List.range q.runs).any fun run => (List.range q.inner).any fun pos =>
    want (run * q.runChunks + pos / q.kc) && match f run pos with
      | .elem e => !(read e).finite
      | .const v => !v.finite
      | .zero => false

/-- An output element is tainted: its row of A, its column of B or its element of C, as memory holds them, has an infinity
or a NaN (R118). DEDUCED, log 25. -/
def State.tainted (s : State) (q : Prod) (k : Blk) (r c : Nat) : Bool :=
  q.sideTaint (s.elemAt q.a) (fun _ => true) (q.aRef k r) || q.sideTaint (s.elemAt q.b) (fun _ => true) (q.bRef k c)
    || (match q.c with
      | some t => !(s.elemAt t ([k.c0 + c, k.r0 + r] ++ t.batch k.rest)).finite
      | none => false)

/-- The positions of a block whose sum is infinite or NaN without taint (R119). -/
def Blk.overflowed (k : Blk) (tainted : Nat → Nat → Bool) (sums : List Nat) : Bool :=
  sums.zipIdx.any fun x => !isFin32 x.1 && !tainted (x.2 / k.cn) (x.2 % k.cn)

/-! ### Stripes (R147 to R149) -/

/-- The product is a CONV's that runs in stripes of output rows. -/
def Prod.striped (q : Prod) : Option ConvOp := q.conv.filter fun v => v.dir == 0 && !v.sapling

/-- Output rows of a stripe (R149); with CV_STRIPE 0 the primary Ranger's choice is one row. DESIGN CHOICE, log 144. -/
def Prod.stripeRows (q : Prod) (v : ConvOp) : Nat := max 1 (min v.stripe (q.y v).h)

/-- Stripes of an image. -/
def Prod.stripes (q : Prod) (v : ConvOp) : Nat := max 1 (ceilDiv (q.y v).h (q.stripeRows v))

/-- The stripe that an output block lies in, image by image; 0 where the product has none. -/
def Prod.stripe (q : Prod) (k : Blk) : Nat :=
  match q.striped with
  | some v => k.rest.getD 1 0 * q.stripes v + k.rest.getD 0 0 / q.stripeRows v
  | none => 0

/-- Rows of the base and of the halo of a stripe of `n` output rows (R147). -/
def Win.base (w : Win) (n : Nat) : Nat := (n - 1) * w.sy + 1
def Win.halo (w : Win) : Nat := (w.kh - 1) * w.dy

/-- Input rows that a stripe fetches: those of its span inside the input, and those that edge and reflect padding name
(R146 to R148). -/
def Prod.spanRows (q : Prod) (v : ConvOp) (stripe : Nat) : List Nat :=
  let oy := stripe % q.stripes v * q.stripeRows v
  let n := min (q.stripeRows v) ((q.y v).h - oy)
  let x := q.x v
  (List.range (v.win.base n + v.win.halo)).filterMap fun i =>
    let r : Int := ((oy * v.win.sy + i : Nat) : Int) - v.win.pt
    if 0 ≤ r && decide (r < x.h) then some r.toNat else if 2 ≤ v.win.mode then some (tapPad v.win.mode r x.h) else none

/-- A stripe fetches this tile of IN0. -/
def Prod.inSpan (q : Prod) (stripe : Nat) (tile : List Nat) : Bool :=
  match q.striped with
  | some v => stripe / q.stripes v == tile.getD 3 0 && (q.spanRows v stripe).contains (tile.getD 2 0)
  | none => true

/-- The stripe that a scratchpad's record of an input slot belongs to: IN0's of a striped product only. -/
def Prod.slotStripe (q : Prod) (slot stripe : Nat) : Nat := if slot = 0 && q.striped.isSome then stripe else 0

/-! ### The output stage (R126 to R131) -/

/-- The scale of a column. -/
def Prod.scale (q : Prod) (cols : Option Loaded) (k : Blk) (c : Nat) : Val :=
  let mode := bits (byteAt q.out 0) 1 0
  if mode = 1 then d32 (fld q.out 4 4)
  else if mode = 2 then
    match cols with
    | some l => l.at ([k.c0 + c, 0] ++ l.td.batch k.rest)
    | none => .fin false 1 0
  else .fin false 1 0

/-- The bias of a column, as binary32. -/
def Prod.bias (q : Prod) (cols : Option Loaded) (k : Blk) (c : Nat) : Option Nat :=
  if bit (byteAt q.out 0) 2 then
    cols.map fun l => l.at32 ([k.c0 + c, if bits (byteAt q.out 0) 1 0 = 2 then 1 else 0] ++ l.td.batch k.rest)
  else none

/-- An activation of the output stage (R131). -/
def actFn (code alpha y : Nat) : Nat :=
  if code = 1 then vecFn 0x13 y 0 0
  else if code = 2 then vecFn 0x14 y alpha 0
  else if code = 3 then vecFn 0x10 y 0 0
  else if code = 4 then vecFn 0x0F y 0 0
  else if code = 5 then vecFn 0x11 y 0 0
  else if code = 6 then vecFn 0x12 y 0 0
  else y

/-- The pre-activation and the activation of a finished sum (R129 steps 1 to 4): the compensation of the retry level is
part of the scale's one rounding. -/
def Prod.stage (q : Prod) (cols : Option Loaded) (k : Blk) (level c sum : Nat) : Nat × Nat :=
  let acc := if q.int then intVal (int32Of sum) else d32 sum
  let lift : Int := if q.int then 8 * level else 16 * level
  let y := r32 ((acc.mul (q.scale cols k c)).shift lift)
  let y := match q.bias cols k c with
    | some b => fadd y b
    | none => y
  (y, actFn (bits (byteAt q.out 0) 5 3) (fld q.out 8 4) y)

/-- The values of a drained block for OUT0 and OUT1 (R129, R124): a block beyond level 2 is NaN throughout. -/
def Prod.drain (q : Prod) (cols : Option Loaded) (k : Blk) (level : Nat) (failed : Bool) (sums : List Nat) :
    List Nat × List Nat :=
  let save := bits (byteAt q.out 0) 7 6
  let ys := (List.range (k.rn * k.cn)).map fun i =>
    if failed then (qNaN, qNaN) else q.stage cols k level (i % k.cn) (sums.getD i 0)
  (ys.map (·.2), if save = 2 then ys.map (·.1) else if save = 1 then ys.map (·.2) else [])

end Sys2Proof.Machine
end

