-- ==== Sys2Proof/Machine/Observe.lean ====
section
/-! DEFINITION. Observation: counter configuration and snapshots (R612 to R620), sampling (R621 to R624) and
Tracks (R625 to R629). -/

namespace Sys2Proof.Machine

/-! ### Counters -/

/-- Number of units that count an event; 0 for a reserved event (R613). -/
def eventUnits (ev : Nat) : Nat :=
  if ev ≤ 0x006 || (0x100 ≤ ev && ev ≤ 0x102) || ev = 0x800 then 192
  else if ev = 0x200 || ev = 0x201 || ev = 0x900 || ev = 0x901 then 96
  else if ev = 0x202 then 16
  else if ev = 0x203 || ev = 0x403 || (0x500 ≤ ev && ev ≤ 0x502) || ev = 0x602 || ev = 0x801 then 2
  else if 0x300 ≤ ev && ev ≤ 0x304 then 24
  else if 0x400 ≤ ev && ev ≤ 0x402 then 36
  else if ev = 0x600 then 194
  else if ev = 0x601 then 32
  else if ev = 0x700 then 4
  else if ev = 0x701 || ev = 0x702 then 1
  else 0

/-- The kind of unit that counts an event: a code of its own per kind, 12 for the agent translation caches. -/
def eventKind (ev unit : Nat) : Nat :=
  if ev = 0x600 then (if unit < 192 then 0 else 12)
  else if ev ≤ 0x102 || ev = 0x800 then 0
  else if ev ≤ 0x201 then 1
  else if ev = 0x202 then 2
  else if ev = 0x203 || ev = 0x602 || ev = 0x801 then 3
  else if ev ≤ 0x304 then 4
  else if ev ≤ 0x402 then 5
  else if ev = 0x403 then 6
  else if ev ≤ 0x502 then 7
  else if ev = 0x601 then 8
  else if ev = 0x700 then 9
  else if ev ≤ 0x702 then 10
  else 11

/-- Every unit kind with the number that follows its units' last (agent caches are 192 and 193). -/
def unitKinds : List (Nat × Nat) :=
  [(0, 192), (1, 96), (2, 16), (3, 2), (4, 24), (5, 36), (6, 2), (7, 2), (8, 32), (9, 4), (10, 1), (11, 96), (12, 194)]

/-- Selectors that counters take in a unit (R614). -/
def selectorsUsed (l : AL Counter) (kind unit : Nat) : Nat :=
  (l.filter fun e => e.2.mode == 1 && eventKind e.2.event unit == kind && decide (unit < eventUnits e.2.event)
    && (e.2.scope == 0xFFFF || e.2.scope == unit)).length

/-- No unit would need a ninth selector (R614). -/
def selectorsOk (l : AL Counter) : Bool :=
  unitKinds.all fun k => (List.range k.2).all fun u => decide (selectorsUsed l k.1 u ≤ 8)

/-- A counter entry's fields are legal (R615). -/
def ctrEntryOk (e : Nat) : Bool :=
  let mode := bits e 11 10
  let ev := bits e 23 12
  let scope := bits e 39 24
  bits e 63 40 == 0 && mode != 3 && (mode == 1 || ev == 0)
    && (mode != 1 || (eventUnits ev != 0 && (scope == 0xFFFF || decide (scope < eventUnits ev))))
    && !(mode == 2 && bits e 9 0 == 0)

/-- Entries applied in order; each clears its counter and OVF (R615). -/
def applyEntries (l : AL Counter) (es : List Nat) : AL Counter :=
  es.foldl (fun l e => l.set (bits e 9 0) ⟨bits e 11 10, bits e 23 12, bits e 39 24, 0, false⟩) l

/-- The body of CTR_CONFIG. -/
def ctrConfigBody (q : Req) (s : State) : State × Resp :=
  let n := q.f 0 2
  let es := (List.range n).map fun i => q.f (0x10 + 8 * i) 8
  if n = 0 || 246 < n || !q.zb 2 14 || !es.all ctrEntryOk then (s, rcode cBAD_ARG)
  else
    let l := applyEntries s.obs.ctrs es
    if selectorsOk l then ({ s with obs := { s.obs with ctrs := l } }, rcode cOK) else (s, rcode cNO_RESOURCE)

/-- CTR_CONFIG (R612 to R616, R620). -/
def execCtrConfig (k : SlotId) (s : State) : Host.Outcome State Fault Refusal :=
  .next (s.take k (·.opcode == 0x0801) ctrConfigBody)

/-- Events whose number the spec leaves to timing or placement: their counters are free values (DEDUCED, log 16). -/
def freeEvents : List Nat :=
  [0x002, 0x100, 0x101, 0x200, 0x201, 0x202, 0x300, 0x301, 0x303, 0x600, 0x601, 0x701, 0x702, 0x900, 0x901]

/-- A counter's value is free: it counts such an event, or the wraps of a counter that does. -/
def ctrFree (l : AL Counter) : Nat → Nat → Bool
  | 0, _ => false
  | f + 1, i =>
    match l.get i with
    | none => false
    | some c => (c.mode == 1 && freeEvents.contains c.event) || (c.mode == 2 && decide (1 ≤ i) && ctrFree l f (i - 1))

/-- The counters as a snapshot finds them: free values in the place of what the spec does not fix. -/
def State.settleCtrs (s : State) : State :=
  s.obs.ctrs.foldl (fun t e =>
    if ctrFree s.obs.ctrs 1024 e.1 then
      let x := t.freeNat
      let c := { e.2 with value := BitVec.ofNat 48 x.1, ovf := bit x.1 48 }
      { x.2 with obs := { x.2.obs with ctrs := x.2.obs.ctrs.set e.1 c } }
    else t) s

/-- The body of CTR_SNAPSHOT (R617 to R619). -/
def ctrSnapshotBody (q : Req) (s : State) : State × Resp :=
  let va := q.f 8 8
  if !(q.rz 0 1 7 4 && q.zb 1 7 && vaOk va) || va % 64 ≠ 0 then (s, rcode cBAD_ARG)
  else if va ≠ 0 && (s.rgn.inWritable va 8256).isNone then (s, rcode cBAD_ARG)
  else match (if va = 0 then .ok s else s.cmdAccess va 8256 true cBAD_ARG) with
    | .error (c, s) => s.cmdFailed c fun s => s.undefineVa va 8256
    | .ok s =>
      let s := s.settleCtrs
      let seq := s.obs.snapSeq + 1
      let p : Snapshot := ⟨seq.toNat, s.aon.tick.toNat, s.obs.ctrs⟩
      let s := { s with obs := { s.obs with snapSeq := seq, snaps := s.obs.snaps.set (bits (q.f 0 1) 3 0) p } }
      (if va = 0 then s else (s.writeVa va p.bytes).fence,
        some (cOK, leBytes 4 p.seq ++ zeros 4 ++ leBytes 8 p.tick))

/-- CTR_SNAPSHOT (R617 to R620). -/
def execCtrSnapshot (k : SlotId) (s : State) : Host.Outcome State Fault Refusal :=
  .next (s.take k (·.opcode == 0x0802) ctrSnapshotBody)

/-! ### Tracks -/

/-- The reply of TRACE_CONFIG (R629). -/
def Obs.traceReply (o : Obs) : Bytes :=
  leBytes 4 o.trkRun ++ leBytes 4 o.trkLost ++ leBytes 4 o.eastNext ++ leBytes 4 o.westNext

/-- Reserved bits of a TRACE_CONFIG request are zero, and its counts legal. -/
def traceOk (q : Req) : Bool :=
  let n := q.f 1 1
  q.rz 0 1 7 4 && q.rz 2 2 15 6 && q.zb 4 4 && q.zb 0x30 16 && vaOk (q.f 8 8)
    && (if bit (q.f 0 1) 3 then decide (1 ≤ n) && decide (n ≤ 4) else n == 0)
    && (List.range 4).all fun t => q.zb (0x13 + 8 * t) 1 && decide (q.f (0x12 + 8 * t) 1 < 128)

/-- The debug targets of a request. -/
def traceTargets (q : Req) : List TraceTarget :=
  (List.range (q.f 1 1)).map fun t => ⟨q.f (0x10 + 8 * t) 2, q.f (0x12 + 8 * t) 1, q.f (0x14 + 8 * t) 4⟩

/-- Groves that compute an operation that a debug target names. DEDUCED, log 62. -/
def State.debugGroves (s : State) (ts : List TraceTarget) : List Nat :=
  (s.eng.tasks.filter fun t => ts.any fun x => x.op == t.op).map (·.grove)

/-- The body of TRACE_CONFIG with SET. -/
def traceSetBody (q : Req) (s : State) : State × Resp :=
  if !traceOk q || bits (q.f 0 1) 1 0 ≠ 0 || q.f 8 8 ≠ 0 then (s, rcode cBAD_ARG)
  else
    let ts := traceTargets q
    let sampled := match s.obs.sampler with | some p => p.groves | none => []
    if (s.debugGroves ts).any sampled.contains then (s, rcode cNO_RESOURCE)
    else
      let o := { s.obs with
        trkRun := 1, trkDebug := bit (q.f 0 1) 3, trkWrap := bit (q.f 0 1) 2, trkClasses := q.f 2 2
        trkTargets := ts, eastNext := 0, westNext := 0, trkLost := 0, trace := [] }
      ({ s with obs := o }, some (cOK, o.traceReply))

/-- TRACE_CONFIG with SET, and with the reserved action (R629). -/
def execTraceSet (k : SlotId) (s : State) : Host.Outcome State Fault Refusal :=
  .next (s.take k (fun q => q.opcode == 0x0803 && bits (q.f 0 1) 1 0 != 1 && bits (q.f 0 1) 1 0 != 2) traceSetBody)

/-- The body of TRACE_CONFIG with STOP. -/
def traceStopBody (q : Req) (s : State) : State × Resp :=
  if !traceOk q || q.f 8 8 ≠ 0 then (s, rcode cBAD_ARG)
  else
    let o := { s.obs with trkRun := 0 }
    ({ s with obs := o }, some (cOK, o.traceReply))

/-- TRACE_CONFIG with STOP (R629). -/
def execTraceStop (k : SlotId) (s : State) : Host.Outcome State Fault Refusal :=
  .next (s.take k (fun q => q.opcode == 0x0803 && bits (q.f 0 1) 1 0 == 1) traceStopBody)

/-- The body of TRACE_CONFIG with COPY (R629, R636). -/
def traceCopyBody (q : Req) (s : State) : State × Resp :=
  let va := q.f 8 8
  if !traceOk q then (s, rcode cBAD_ARG)
  else if s.obs.trkRun = 1 then (s, rcode cBUSY)
  else if va % 64 ≠ 0 || (s.rgn.inWritable va 33554496).isNone then (s, rcode cBAD_ARG)
  else match s.cmdAccess va 33554496 true cBAD_ARG with
    | .error (c, s) => s.cmdFailed c fun s => s.undefineVa va 33554496
    | .ok s =>
      ((s.writeVa va (s.obs.trkStatus ++ s.obs.trace.readN 0 33554432)).fence, some (cOK, s.obs.traceReply))

/-- TRACE_CONFIG with COPY (R629). -/
def execTraceCopy (k : SlotId) (s : State) : Host.Outcome State Fault Refusal :=
  .next (s.take k (fun q => q.opcode == 0x0803 && bits (q.f 0 1) 1 0 == 2) traceCopyBody)

/-! ### Sampling -/

/-- Groves that a request selects. -/
def sampleGroves (q : Req) : List Nat :=
  (List.range 192).filter fun g => bit (q.f (0x18 + 8 * (g / 64)) 8) (g % 64)

/-- The body of SAMPLE_CONFIG with SC_EN 1 (R624). -/
def sampleStartBody (q : Req) (s : State) : State × Resp :=
  let va := q.f 8 8
  let n := q.f 0x10 8
  let gs := sampleGroves q
  let period := q.f 4 4
  let loads := bit (q.f 0 1) 2
  let stores := bit (q.f 0 1) 3
  if !(q.rz 0 1 7 4 && q.zb 1 3 && vaOk va) || period = 0 || 16777216 < period || va % 64 ≠ 0 || n % 32 ≠ 0
      || n < 96 || !(loads || stores) then (s, rcode cBAD_ARG)
  else if ((s.rgn.inWritable va n).filter (·.kind == 0)).isNone then (s, rcode cBAD_ARG)
  else if 16 < (gs.filter (· < 96)).length || 16 < (gs.filter (96 ≤ ·)).length then (s, rcode cNO_RESOURCE)
  else if s.obs.trkRun = 1 && s.obs.trkDebug && (s.debugGroves s.obs.trkTargets).any gs.contains then
    (s, rcode cNO_RESOURCE)
  else match s.resolveRange va n with
    | none => (s, rcode cNO_RESOURCE)
    | some s =>
      let s := (s.writeVa va (zeros 16)).fence
      let p : Sampler :=
        { loads := loads, stores := stores, wrap := bit (q.f 0 1) 1, period := period, va := va, bytes := n,
          groves := gs, counts := [], written := 0, lost := 0 }
      ({ s with obs := { s.obs with sampler := some p } }, rcode cOK)

/-- SAMPLE_CONFIG with SC_EN 1 (R624). -/
def execSampleStart (k : SlotId) (s : State) : Host.Outcome State Fault Refusal :=
  .next (s.take k (fun q => q.opcode == 0x0804 && bit (q.f 0 1) 0) sampleStartBody)

/-- The body of SAMPLE_CONFIG with SC_EN 0. -/
def sampleStopBody (q : Req) (s : State) : State × Resp :=
  if !q.zb 0 48 then (s, rcode cBAD_ARG) else ({ s with obs := { s.obs with sampler := none } }, rcode cOK)

/-- SAMPLE_CONFIG with SC_EN 0 (R624). -/
def execSampleStop (k : SlotId) (s : State) : Host.Outcome State Fault Refusal :=
  .next (s.take k (fun q => q.opcode == 0x0804 && !bit (q.f 0 1) 0) sampleStopBody)

/-- A selected Grove's tile move starts: its count, 0 when it is not counted (R621). -/
def State.countMove (s : State) (grove : Nat) (store : Bool) : Nat × State :=
  match s.obs.sampler with
  | none => (0, s)
  | some p =>
    if !p.groves.contains grove || !(if store then p.stores else p.loads) then (0, s)
    else
      let c := p.counts.getD grove 0 + 1
      (c, { s with obs := { s.obs with sampler := some { p with counts := p.counts.set grove c } } })

/-- The sampler writes a record when the move's count is a multiple of the period, and SB_WRITTEN as a flag
behind it (R621 to R623). -/
def State.sampleMove (s : State) (count : Nat) (rec32 : Bytes) : State :=
  match s.obs.sampler with
  | none => s
  | some p =>
    if count = 0 || count % p.period ≠ 0 then s
    else
      let cap := (p.bytes - 64) / 32
      if !p.wrap && cap ≤ p.written then
        let p := { p with lost := p.lost + 1 }
        { (s.writeVa (p.va + 8) (leBytes 8 p.lost)) with obs := { s.obs with sampler := some p } }
      else
        let s := (s.writeVa (p.va + 0x40 + 32 * (p.written % cap)) (padTo 32 rec32)).fence
        let p := { p with written := p.written + 1 }
        { ((s.writeVa p.va (leBytes 8 p.written)).emit (.flag p.va)) with
          obs := { s.obs with sampler := some p } }

end Sys2Proof.Machine
end

