-- ==== Sys2Proof/Machine/Tiles.lean ====
section
/-! DEFINITION. The tile mover and the translation it needs (R94, R184, R185, R201, R202, R242 to R250): tile moves, walks,
demand faults, prefetches, and what the sampler writes of a move (R621 to R623). -/

namespace Sys2Proof.Machine

/-! ### Tile moves (R245, R246) -/

/-- Pages that a move touches, by their first address. -/
def TileMove.pages (m : TileMove) : List Nat :=
  ((m.pieces.flatMap fun x => chunksOf x.va x.len).map fun c => c.1 / pageBytes * pageBytes).dedup

/-- A page of a move lies on the page of a miss of its Grove. -/
def Miss.of (x : Miss) (m : TileMove) : Bool :=
  x.cache == m.place.grove.val && m.pages.contains (x.va / pageBytes * pageBytes)

/-- A miss concerns a move: a page of it lies in the leaf that the walk is for (R243). -/
def State.missOf (s : State) (x : Miss) (m : TileMove) : Bool :=
  x.cache == m.place.grove.val && m.pages.any fun va => s.leafOf va == s.leafOf x.va

/-- A move still waits for a walk or for the primary Ranger. -/
def State.moveWaits (s : State) (m : TileMove) : Bool := m.demand || s.rgn.walks.any fun x => s.missOf x m

/-- The step and plan of an instance that is at work. -/
def State.atWork (s : State) (op mb : Nat) : Option (Step × Plan) :=
  match s.stepPlan with
  | none => none
  | some (st, p) =>
    match st.inst op mb with
    | some i => if s.powered && st.st == .running && !st.stopped && (i.st == .issued || i.st == .waitHost)
        then some (st, p) else none
    | none => none

/-- The task context at a place that runs a tile program of an instance. -/
def Eng.taskAt (e : Eng) (a : Place) (op mb : Nat) : Option Task :=
  e.tasks.find? fun t => t.grove == a.grove.val && t.task == a.task.val && t.op == op && t.mb == mb

/-- A sample record (R622). -/
def TileMove.sample (m : TileMove) (tier fault lat xlat tick : Nat) : Bytes :=
  leBytes 1 (if m.store then 2 else 1) ++ leBytes 1 tier ++ leBytes 1 m.place.grove
    ++ leBytes 1 (m.place.task.val * 16 + fault) ++ leBytes 2 m.op ++ leBytes 1 m.mb
    ++ leBytes 1 (m.pages.length - 1) ++ leBytes 8 ((m.pieces.head?.map (·.va)).getD 0)
    ++ leBytes 4 (min lat 0xFFFFFFFF) ++ leBytes 4 (min xlat 0xFFFFFFFF) ++ leBytes 8 tick

/-- A move that faults is sampled with its fault; the latencies are free numbers (DESIGN CHOICE, log 4). -/
def State.sampleFault (s : State) (m : TileMove) (fault : Nat) : State :=
  let a := s.freeNat
  let b := a.2.freeNat
  b.2.sampleMove m.count (m.sample 0xFF fault a.1 b.1 s.aon.tick.toNat)

/-- Misses of a move's pages go to the walkers; a page whose leaf the cache already has a walk outstanding for waits for
that walk (R243). -/
def State.walkPages (s : State) (m : TileMove) : State :=
  m.pages.foldl (fun s va =>
    if (s.rgn.cached m.place.grove va).isSome
        || s.rgn.walks.any fun x => x.cache == m.place.grove.val && s.leafOf x.va == s.leafOf va then s
    else { s with rgn := { s.rgn with walks := s.rgn.walks ++ [⟨m.place.grove, va, m.store⟩] } }) s

/-- A page of a store that the Grove's own cache holds without permission (R247 WRITE). -/
def State.deniedPage (s : State) (m : TileMove) : Option Nat :=
  if m.store then m.pages.find? fun va => match s.rgn.cached m.place.grove va with
    | some e => !bit e.entry 2
    | none => false
  else none

/-- A tile move starts: it is counted for the sampler, and its pages are looked up. -/
def State.startMove (s : State) (m : TileMove) : State :=
  let x := s.countMove m.place.grove m.store
  let m := { m with count := x.1 }
  match x.2.deniedPage m with
  | some va => (x.2.sampleFault m 3).obstacle m.op m.mb (.fault 3 va, va, 0, true)
  | none => { x.2 with eng := { x.2.eng with moves := x.2.eng.moves ++ [m] } }.walkPages m

/-! ### Whole tile records (R184) -/

/-- A tile record of an instance: its slot, its tensor, the tile's coordinates. -/
structure Rec where
  slot : Nat
  td : TD
  tile : List Nat

/-- The pieces of a record, and the address of its elements. -/
def Rec.pieces (r : Rec) : List Piece := r.td.recordPieces (r.td.tileIndex r.tile)
def Rec.va (r : Rec) : Nat := (r.td.recordAt (r.td.tileIndex r.tile)).1

/-- Bytes a record takes in a scratchpad. -/
def Rec.bytes (r : Rec) : Nat := r.td.elems + r.td.side

/-- The records that an instance reads and those that it writes. -/
def Plan.inRecs (p : Plan) (op mb : Nat) : List Rec :=
  if p.peerIn op then [] else (List.range 4).flatMap fun j => match p.inTd op j mb with
    | some t => t.tiles.map fun c => ⟨j, t, c⟩
    | none => []
def Plan.outRecs (p : Plan) (op mb : Nat) : List Rec :=
  (List.range 2).flatMap fun j => match p.outTd op j mb with
    | some t => t.tiles.map fun c => ⟨j, t, c⟩
    | none => []

/-- The records that pieces make up one after another; none where they hold part of a record (R184). -/
def splitRecs (rs : List Rec) : Nat → List Piece → Option (List Rec)
  | _, [] => some []
  | 0, _ => none
  | n + 1, ps =>
    match rs.find? fun r => r.pieces.isPrefixOf ps with
    | none => none
    | some r => (splitRecs rs n (ps.drop r.pieces.length)).map (r :: ·)

/-- The records that a move of an instance transfers. -/
def Plan.moveRecs (p : Plan) (op mb : Nat) (store : Bool) (ps : List Piece) : Option (List Rec) :=
  splitRecs (if store then p.outRecs op mb else p.inRecs op mb) ps.length ps

/-- A record belongs to what a stripe of the instance fetches (R148). -/
def Plan.fetches (p : Plan) (op mb stripe : Nat) (r : Rec) : Bool :=
  match p.prod op mb with
  | some q => r.slot != 0 || q.inSpan stripe r.tile
  | none => true

/-! ### The scratchpad (R86, R90, R92, R203) -/

/-- The stripe under which an instance's record lies in the scratchpad. -/
def Plan.stripeKey (p : Plan) (op mb stripe : Nat) (r : Rec) : Nat :=
  match p.prod op mb with
  | some q => q.slotStripe r.slot stripe
  | none => 0

/-- A record lies in the partition of a task context. -/
def ScratchTile.isAt (t : ScratchTile) (a : Place) : Bool := t.grove == a.grove.val && t.task == a.task.val

/-- A record is the one of an instance, a stripe, an address; a result or an operand. -/
def ScratchTile.holds (t : ScratchTile) (a : Place) (op mb stripe va : Nat) (result : Bool) : Bool :=
  t.isAt a && t.op == op && t.mb == mb && t.stripe == stripe && t.va == va && t.result == result

/-- The record in a task's partition, when it is resident. -/
def Eng.tile (e : Eng) (a : Place) (op mb stripe va : Nat) (result : Bool) : Option ScratchTile :=
  e.scratch.find? fun t => t.holds a op mb stripe va result

/-- Bytes of a record in the scratchpad. -/
def ScratchTile.bytes (t : ScratchTile) : Nat := (t.cells.map List.length).sum + t.side.length

/-- Bytes taken of a task's partition: records, and 64 KiB for every block of partial sums (R88, R92). -/
def Eng.used (e : Eng) (a : Place) : Nat :=
  ((e.scratch.filter (·.isAt a)).map ScratchTile.bytes).sum
    + 65536 * ((e.runs.filter (·.place == a)).length
      + (e.blocks.filter fun b => b.place == a && !(b.sums.isEmpty && b.out0.isEmpty)).length)

/-- Bytes of a task's partition. -/
def Eng.extent (e : Eng) (a : Place) : Nat :=
  ((e.tasks.find? fun t => t.grove == a.grove.val && t.task == a.task.val).map (·.extent)).getD 0

/-- Room for bytes in a task's partition, its oldest operand records giving way; none when the rest leaves too little. -/
def Eng.room (a : Place) (need : Nat) : Nat → Eng → Option Eng
  | n, e =>
    if e.used a + need ≤ e.extent a then some e
    else match n with
      | 0 => none
      | n + 1 => match e.scratch.find? fun t => t.isAt a && !t.result with
        | some u => Eng.room a need n { e with scratch := e.scratch.filter fun t => !t.holds a u.op u.mb u.stripe u.va false }
        | none => none

/-- The same, for as many records as there are. -/
def Eng.makeRoom (e : Eng) (a : Place) (need : Nat) : Option Eng := Eng.room a need e.scratch.length e

/-- A result of the task that waits to be stored. -/
def Eng.resultAt (e : Eng) (a : Place) (op mb : Nat) (r : Rec) : Option ScratchTile := e.tile a op mb 0 r.va true

/-- TILE_MOVE (R94, R184, R245, R246): the tile mover takes up a move of whole records of the task's instance, of at most 128
pieces and 256 pages, and translates every page. DEDUCED, log 146. -/
def execTileMove (place : Place) (op mb : Nat) (store : Bool) (work : StripePieces) (s : State) :
    Host.Outcome State Fault Refusal :=
  .next (
    match s.atWork op mb, s.eng.taskAt place op mb with
    | some (_, p), some t =>
      let m : TileMove := ⟨place, op, mb, store, work.stripe, work.pieces, 0, false⟩
      match p.moveRecs op mb store work.pieces with
      | none => s
      | some rs =>
        let legal := fun (r : Rec) => if store then (s.eng.resultAt place op mb r).isSome else p.fetches op mb work.stripe r
        if t.waiting || s.groveStopped place.grove || work.pieces.isEmpty || !rs.all legal || 128 < work.pieces.length
            || 256 < m.pages.length
            || s.eng.moves.any (fun y => y.place == place && y.pieces == work.pieces && y.store == store) then s
        else s.startMove m
    | _, _ => s)

/-! ### Walks (R234, R243, R247) -/

/-- A task context is marked waiting on a demand fault, or ready again (R94). -/
def Eng.setWaiting (e : Eng) (a : Place) (w : Bool) : Eng :=
  { e with tasks := e.tasks.map fun t =>
      if t.grove == a.grove.val && t.task == a.task.val then { t with waiting := w } else t }

/-- A move meets a DEMAND fault: its task waits and the primary Ranger is told (R94, R248). -/
def State.moveDemands (s : State) (m : TileMove) (va : Nat) : State :=
  let x : Miss := ⟨m.place.grove, va, m.store⟩
  let s := (s.sampleFault m 1).count 0x102 m.place.grove
  let s := s.trace 2 (decide (96 ≤ m.place.grove.val)) 0x04 uWalker 0 (leBytes 7 va ++ leBytes 1 1 ++ leBytes 2 m.op)
  let e := s.eng.setWaiting m.place true
  { s with
    eng := { e with moves := e.moves.map fun y => if y == m then { m with demand := true } else y }
    rgn := { s.rgn with demands := if s.rgn.demands.contains x then s.rgn.demands else s.rgn.demands ++ [x] } }

/-- Moves meet a fault at a page, each according to the fault's kind (R247). -/
def State.movesFault (s : State) (ms : List TileMove) (va kind : Nat) : State :=
  ms.foldl (fun s m =>
    if !s.eng.moves.contains m then s
    else if kind = 1 then s.moveDemands m va
    else (s.sampleFault m kind).obstacle m.op m.mb (.fault kind va, va, 0, m.store)) s

/-- The walks that the 16 walkers of a half are at: the earliest misses of its agents (R19, R243). -/
def Rgn.walking (g : Rgn) (half : Nat) : List Miss := (g.walks.filter fun x => cacheHalf x.cache == half).take 16

/-- WALK_COMPLETE (R234, R242 to R247): a walker ends a walk. The leaf enters the cache, and a store that it does not permit
faults; otherwise the moves that wait for it fault. -/
def execWalkComplete (cache va : Nat) (store : Bool) (s : State) : Host.Outcome State Fault Refusal :=
  .next (
    let x : Miss := ⟨cache, va / pageBytes * pageBytes, store⟩
    if !s.powered || !(s.rgn.walking (cacheHalf cache)).contains x then s
    else
      let ms := s.eng.moves.filter fun m => s.missOf x m && !m.demand
      let s := { s with rgn := { s.rgn with walks := s.rgn.walks.filter (· != x) } }
      match s.rgn.walk s.mem.poison x.va false with
      | .leaf lvl e =>
        let s := { s with rgn := s.rgn.fillCache cache x.va lvl e }
        if bit e 2 then s else s.movesFault (ms.filter (·.store)) x.va 3
      | .fault k => s.movesFault ms x.va k)

/-! ### Demand faults (R248, R249) -/

/-- A demand fault that some agent waits on lies on the page. -/
def Miss.onPage (x : Miss) (va : Nat) : Bool := x.va / pageBytes == va / pageBytes

/-- No room in table space: what waits on the page fails with NO_RESOURCE (R249). -/
def State.demandFails (s : State) (va : Nat) : State :=
  let ws := s.rgn.demands.filter fun x => x.onPage va
  let s := { s with rgn := { s.rgn with demands := s.rgn.demands.filter fun x => !x.onPage va } }
  ws.foldl (fun s x =>
    let s := (s.eng.moves.filter fun m => m.demand && x.of m).foldl (fun s m =>
      if s.eng.moves.contains m then s.obstacle m.op m.mb (.fault 1 x.va, x.va, 0, x.store) else s) s
    (List.range 128).foldl (fun s n =>
      let c := s.dma.ch n
      if x.cache == dmaCache n && c.busy
          && (match s.firstObstacle (agentCache (n / 64)) c.active.nextAccesses with
              | some (.fault 1 a, _) => x.onPage a
              | _ => false)
      then s.dmaFault n cNO_RESOURCE x.va else s) s) s

/-- Every agent whose page is mapped now is ready: a move starts again from its first page (R94, R246, R248). -/
def State.demandReady (s : State) : State :=
  let open_ := fun (va : Nat) => match s.xlate va false with | .error 1 => true | _ => false
  let s := { s with rgn := { s.rgn with demands := s.rgn.demands.filter fun x => open_ x.va } }
  let ms := s.eng.moves.filter fun m => m.demand && !(m.pages.any fun va => s.rgn.demands.any fun x => x.of m && x.onPage va)
  let s := ms.foldl (fun s m =>
    let s := { s with eng := { s.eng with moves := s.eng.moves.filter (· != m) } }
    let s := s.startMove { m with demand := false }
    if s.eng.moves.any fun y => y.place == m.place && y.demand then s
    else { s with eng := s.eng.setWaiting m.place false }) s
  s.wakeChans

/-- DEMAND_FAULT_RESOLVE (R94, R248, R249): the primary Ranger builds the leaf for an address that an agent waits on. -/
def execDemandFaultResolve (va : Nat) (s : State) : Host.Outcome State Fault Refusal :=
  .next (
    match s.rgn.demands.find? fun x => x.onPage va with
    | none => s
    | some x =>
      if !s.powered then s else
      match s.xlate va false with
      | .error 1 =>
        (match s.rgn.resolve va with
        | some g => ((s.withTables g).count 0x602 (cacheHalf x.cache)).demandReady
        | none => s.demandFails va)
      | _ => s.demandReady)

/-! ### A move's last byte (R185) -/

/-- Memory lines of a range, in address order. -/
def State.lineKeys (s : State) (va len : Nat) : List Nat :=
  (chunksOf va len).flatMap fun c => match s.xlate c.1 false with
    | .ok (r, off) => upFrom (r.key off / 64) ((r.key off + c.2 - 1) / 64 + 1 - r.key off / 64)
    | .error _ => []

/-- Tier of the line that holds an address: the Floor cache, the stacks, the host (R183, R622). -/
def State.tierOf (s : State) (va : Nat) : Nat :=
  match s.xlate va false with
  | .ok (r, off) => if s.coh.t1.any (·.2 == r.key off / 64) then 1 else if r.pageInT2 (off / pageBytes) then 2 else 3
  | .error _ => 3

/-- The last address of a move. -/
def TileMove.lastVa (m : TileMove) : Nat :=
  match m.pieces.getLast? with
  | some x => x.va + x.len - 1
  | none => 0

/-- The accesses of a move. -/
def TileMove.accs (m : TileMove) : List (Nat × Nat × Bool) := m.pieces.map fun x => (x.va, x.len, m.store)

/-- The records of a load enter the scratchpad, in its cells (R90); a later copy of a record replaces an earlier one. -/
def State.deliverRecs (s : State) (p : Plan) (a : Place) (op mb stripe : Nat) (rs : List Rec) : State :=
  rs.foldl (fun s r =>
    let x := s.readTile r.td (r.td.tileIndex r.tile)
    let k := p.stripeKey op mb stripe r
    let t : ScratchTile := ⟨a.grove, a.task, op, mb, k, r.va, r.td.toCells x.1, x.2.1, false⟩
    let e := x.2.2.eng
    { x.2.2 with eng := { e with scratch := e.scratch.filter (fun u => !u.holds a op mb k r.va false) ++ [t] } }) s

/-- The records of a store leave the scratchpad for memory. -/
def State.storeRecs (s : State) (m : TileMove) (rs : List Rec) : State :=
  rs.foldl (fun s r =>
    match s.eng.resultAt m.place m.op m.mb r with
    | none => s
    | some t =>
      { s with eng := { s.eng with
        scratch := s.eng.scratch.filter fun u => !u.holds m.place m.op m.mb 0 r.va true } }.writeTile r.td
          (r.td.tileIndex r.tile) (r.td.fromCells t.cells) t.side) s

/-- ECC outcomes of a load's lines, in address order (R221, R223): lines are corrected or poisoned; those poisoned are to be
counted (R225) once the load has met them. -/
def State.eccLines (s : State) (lines : List Nat) (ecc : List Ecc) : State × List Nat :=
  (lines.zip ecc).foldl (fun (a : State × List Nat) x => match x.2 with
    | .ok => a
    | .corrected => (a.1.correctLine x.1, a.2)
    | .uncorrectable => (a.1.markPoison x.1, a.2 ++ [x.1])) (s, [])

/-- The scratchpad can take what a move brings: a load needs room in the task's partition (R86, R92). -/
def State.moveRoom (s : State) (m : TileMove) (rs : List Rec) : Option State :=
  if m.store then some s
  else (s.eng.makeRoom m.place ((rs.map Rec.bytes).sum)).map fun e => { s with eng := e }

/-- A move ends: its records are delivered or written, and it is sampled. -/
def State.endMove (s : State) (p : Plan) (m : TileMove) (rs : List Rec) (lat xlat : Nat) : State :=
  let s := { s with eng := { s.eng with moves := s.eng.moves.filter (· != m) } }.setInst m.op m.mb .issued
  let tier := s.tierOf m.lastVa
  let s := if m.store then s.storeRecs m rs else s.deliverRecs p m.place m.op m.mb m.stripe rs
  s.sampleMove m.count (m.sample tier 0 lat xlat s.aon.tick.toNat)

end Sys2Proof.Machine
end

