-- ==== Sys2Proof/Machine/Matrix.lean ====
section
/-! DEFINITION. The matrix engine: MATMUL and CONV issue (R100, R105, R142), passes with the overflow check and the retry
(R87, R110 to R122), the segment combination (R102, R114, R122), the output-stage drain (R123 to R132), and the end of tile
moves (R185). -/

namespace Sys2Proof.Machine

/-! ### Step-record entries that count (R125, R162, R171) -/

/-- Adds to the counts of an operation's entry of a type; nothing is written for counts of zero (R633). -/
def addCounts (ty op : Nat) (ns : List Nat) (es : List Bytes) : List Bytes :=
  if ns.all (· == 0) then es
  else if es.any fun b => byteAt b 0 == ty && fld b 1 2 == op then
    es.map fun b =>
      if byteAt b 0 == ty && fld b 1 2 == op then
        recEntry ty (leBytes 2 op ++ (ns.zipIdx.flatMap fun x => leBytes 4 (fld b (3 + 4 * x.2) 4 + x.1)))
      else b
  else es ++ [recEntry ty (leBytes 2 op ++ ns.flatMap (leBytes 4))]

/-- The state with counts added to an entry. -/
def State.addCounts (s : State) (ty op : Nat) (ns : List Nat) : State :=
  s.onStep fun st => { st with entries := Machine.addCounts ty op ns st.entries }

/-- Keeps the RANGE entry of an operation's lowest instance (R124). -/
def addRange (op mb block : Nat) (es : List Bytes) : List Bytes :=
  let e := recEntry 0x06 (leBytes 2 op ++ leBytes 1 mb ++ leBytes 4 block)
  match es.find? fun b => byteAt b 0 == 0x06 && fld b 1 2 == op with
  | none => es ++ [e]
  | some old => if mb < byteAt old 3 then es.map fun b => if b == old then e else b else es

/-! ### Operands in the scratchpad (R88, R90, R91) -/

/-- The value of an element of a resident tile: its code from its cell, its scale from the scale area. -/
def ScratchTile.value (u : ScratchTile) (t : TD) (cells : Array Bytes) (r c : Nat) : Val :=
  t.valueOf (t.cellCode cells r c) (byteAt u.side) r c

/-- The resident tiles that references name, by tile index, with their cells. -/
def Eng.views (e : Eng) (a : Place) (op mb stripe : Nat) (t : TD) (refs : List (List Ref)) : AL (ScratchTile × Array Bytes) :=
  let idx := refs.flatten.filterMap fun x => match x with
    | .elem c => some (t.tileIndex (tileOf c))
    | _ => none
  idx.dedup.filterMap fun i => (e.tile a op mb stripe (t.recordAt i).1 false).map fun u => (i, u, u.cells.toArray)

/-- What a reference reads: none when it is not resident. -/
def Ref.read (x : Ref) (t : TD) (vs : AL (ScratchTile × Array Bytes)) : Option (Option Val) :=
  match x with
  | .zero => some none
  | .const v => some (some v)
  | .elem e => (vs.get (t.tileIndex (tileOf e))).map fun u => some (u.1.value t u.2 (e.getD 1 0 % 128) (e.getD 0 0 % 128))

/-- One side of a pass: per row or column the operands of a chunk; none when some tile is not resident. -/
def Eng.side (e : Eng) (a : Place) (op mb stripe : Nat) (t : TD) (refs : List (List Ref)) :
    Option (Array (List (Option Val))) :=
  let vs := e.views a op mb stripe t refs
  (refs.mapM fun (l : List Ref) => l.mapM fun (x : Ref) => x.read t vs).map List.toArray

/-- The column parameters of a block, when the tile that holds them is resident (R94, R127). -/
def Eng.columns (e : Eng) (a : Place) (q : Prod) (k : Blk) : Option (Option Loaded) :=
  match q.cols with
  | none => some none
  | some t =>
    let c := [k.c0 / 128, 0] ++ t.batch k.rest
    (e.tile a q.op q.mb 0 (t.recordAt (t.tileIndex c)).1 false).map fun u =>
      let cells := u.cells.toArray
      let rows := ((List.range 256).map fun i => u.value t cells (i / 128) (i % 128)).toArray
      some ⟨t, ((List.range (t.tileNo c + 1)).map fun n => if n = t.tileNo c then rows else #[]).toArray⟩

/-! ### Issue -/

/-- Issues an instance on the places the primary Ranger gives it: a task context of each takes up a tile program. -/
def State.issueOn (s : State) (code op mb : Nat) (places : List Place) : State :=
  match s.enter code op mb with
  | none => s
  | some (s, _, _) => places.foldl (fun s a => s.startTask a op mb) s

/-- MATMUL (R100, R105). DESIGN CHOICE, log 105. -/
def execMatmul (op mb : Nat) (places : List Place) (s : State) : Host.Outcome State Fault Refusal :=
  .next (s.issueOn 0x0001 op mb places)

/-- CONV (R142, R144). -/
def execConv (op mb : Nat) (places : List Place) (s : State) : Host.Outcome State Fault Refusal :=
  .next (s.issueOn 0x0010 op mb places)

/-! ### Passes -/

/-- The run of a block's segment. -/
def Eng.run (e : Eng) (op mb block seg : Nat) : Option Run :=
  e.runs.find? fun r => r.op == op && r.mb == mb && r.block == block && r.seg == seg

/-- The state with a run put in place of the same segment's. -/
def Eng.putRun (e : Eng) (x : Run) : Eng :=
  let rest := e.runs.filter fun r => !(r.op == x.op && r.mb == x.mb && r.block == x.block && r.seg == x.seg)
  { e with runs := rest ++ [x] }

/-- The operands of a pass: A with the level's factor on every element, B, and C where the segment begins with it, with the
elements of C that are infinite or NaN. -/
structure PassIn where
  a : Array (List (Option Val))
  b : Array (List (Option Val))
  init : List Nat
  wild : List Nat

/-- Reads a pass's operands from the scratchpad; none when they are not resident. -/
def State.passIn (s : State) (q : Prod) (k : Blk) (x : Run) : Option PassIn :=
  let ch := (q.segment x.seg).1 + x.chunk
  let refs := fun (n : Nat) (f : Nat → Nat → Nat → Ref) => (List.range n).map fun i => (List.range q.kc).map fun j =>
    f i (q.chunkPos ch j).1 (q.chunkPos ch j).2
  let lift : Int := if q.int then 0 else -(16 * (x.level : Int))
  match s.eng.side x.place x.op x.mb (q.slotStripe 0 (q.stripe k)) q.a (refs k.rn (q.aRef k)),
      s.eng.side x.place x.op x.mb 0 q.b (refs k.cn (q.bRef k)) with
  | some a, some b =>
    let a := a.map fun l => l.map fun v => v.map fun v => v.shift lift
    let n := k.rn * k.cn
    if x.chunk ≠ 0 then some ⟨a, b, x.sums, []⟩
    else
      match q.c with
      | some t =>
        if x.seg ≠ 0 then some ⟨a, b, List.replicate n 0, []⟩ else
        let cr := (List.range k.rn).map fun r => (List.range k.cn).map fun c =>
          Ref.elem ([k.c0 + c, k.r0 + r] ++ t.batch k.rest)
        (s.eng.side x.place x.op x.mb 0 t cr).map fun v =>
          let vs := v.toList.flatten.map fun y => y.getD (.fin false 0 0)
          ⟨a, b, vs.map fun y => r32 (y.shift lift), (vs.zipIdx.filter fun y => !y.1.finite).map (·.2)⟩
      | none => some ⟨a, b, List.replicate n 0, []⟩
  | _, _ => none

/-- Lines of a side that hold an infinity or a NaN. -/
def wildLines (a : Array (List (Option Val))) : List Nat :=
  (a.toList.zipIdx.filter fun l => l.1.any fun v => match v with | some v => !v.finite | none => false).map (·.2)

/-- A run that has read a pass's operands: its chunk done, the flags of the rows and columns read (R118). -/
def Run.reads (x : Run) (p : PassIn) : Run :=
  { x with
    chunk := x.chunk + 1
    rowTaint := (x.rowTaint ++ wildLines p.a).dedup
    colTaint := (x.colTaint ++ wildLines p.b).dedup
    elemTaint := (x.elemTaint ++ p.wild).dedup }

/-- The flags of several runs of one block. -/
def flagged (rs : List Run) (cn r c : Nat) : Bool :=
  rs.any fun x => x.rowTaint.contains r || x.colTaint.contains c || x.elemTaint.contains (r * cn + c)

/-- Chunks of a block's reduction that its runs have not read. -/
def Prod.unread (q : Prod) (rs : List Run) (chunk : Nat) : Bool :=
  !rs.any fun x => decide ((q.segment x.seg).1 ≤ chunk) && decide (chunk < (q.segment x.seg).1 + x.chunk)

/-- An element as a task finds it: in its scratchpad, or else in memory. -/
def State.operand (s : State) (a : Place) (op mb stripe : Nat) (t : TD) (e : List Nat) : Val :=
  match s.eng.tile a op mb stripe (t.recordAt (t.tileIndex (tileOf e))).1 false with
  | some u => u.value t u.cells.toArray (e.getD 1 0 % 128) (e.getD 0 0 % 128)
  | none => s.elemAt t e

/-- An element of a block is tainted: the flags of what its runs have read, and what the rest of its reduction will read
(R118). DEDUCED, log 25. -/
def State.runTaint (s : State) (q : Prod) (k : Blk) (a : Place) (rs : List Run) (r c : Nat) : Bool :=
  let other := (s.eng.runs.filter fun x => rs.all fun y => x.op == y.op && x.mb == y.mb && x.block == y.block && x.seg != y.seg)
  let all := rs ++ other
  flagged all k.cn r c
    || q.sideTaint (s.operand a q.op q.mb (q.slotStripe 0 (q.stripe k)) q.a) (q.unread all) (q.aRef k r)
    || q.sideTaint (s.operand a q.op q.mb 0 q.b) (q.unread all) (q.bRef k c)
    || (match q.c with
      | some t => q.unread all 0 && !(s.operand a q.op q.mb 0 t ([k.c0 + c, k.r0 + r] ++ t.batch k.rest)).finite
      | none => false)

/-- Chunk sums and partial sums of a pass as they are stored, and whether an integer leaves 32 bits (R110, R113). -/
def passSums (q : Prod) (k : Blk) (level : Nat) (p : PassIn) : List Nat × List Nat × Bool :=
  let sums := p.init.toArray
  let at_ := fun (i : Nat) => (p.a.getD (i / k.cn) [], p.b.getD (i % k.cn) [], sums.getD i 0)
  if q.int then
    let xs := (List.range (k.rn * k.cn)).map fun i =>
      let y := chunkSumInt level (at_ i).1 (at_ i).2.1
      (y, int32Of (at_ i).2.2 + y)
    (xs.map fun x => int32Code x.1, xs.map fun x => int32Code x.2, xs.any fun x => !int32Ok x.2)
  else
    let xs := (List.range (k.rn * k.cn)).map fun i =>
      let y := chunkSum (at_ i).1 (at_ i).2.1
      (y, fadd (at_ i).2.2 y)
    (xs.map (·.1), xs.map (·.2), false)

/-- Debug records are written for a row of a block (R628). -/
def Obs.debugRows (o : Obs) (op block : Nat) : List Nat :=
  if o.trkRun != 0 && o.trkDebug then (o.trkTargets.filter fun t => t.op == op && t.block == block).map (·.row) else []

/-- The records of one kind for a row: four columns each, of a unit of a half. -/
def Obs.putRow (o : Obs) (ty : Nat) (west : Bool) (kind num : Nat) (tick : BitVec 64) (chunk row cn : Nat) (v : List Nat) :
    Obs :=
  (List.range 32).foldl (fun o i =>
    o.put west ty kind num (some (chunk % 2 ^ 24 + 4 * i * 2 ^ 24)) tick
      ((upFrom (4 * i) 4).flatMap fun c => leBytes 4 (if c < cn then v.getD (row * cn + c) 0 else 0))) o

/-- Debug trace of a pass of a block's chunk: its chunk sums and partial sums (R133, R628). -/
def State.debugPass (s : State) (west : Bool) (kind num op block chunk cn : Nat) (cs ps : List Nat) : State :=
  (s.obs.debugRows op block).foldl (fun (s : State) row =>
    let o := s.obs.putRow 0x10 west kind num s.aon.tick chunk row cn cs
    { s with obs := o.putRow 0x11 west kind num s.aon.tick chunk row cn ps }) s

/-- A change of retry level is traced (R627 RETRY, R628 ACC_LEVEL). -/
def State.traceLevel (s : State) (west : Bool) (kind num op block level : Nat) : State :=
  let d := leBytes 2 op ++ zeros 2 ++ leBytes 4 block ++ leBytes 1 level
  let s := s.trace 2 west 0x05 kind num d
  if (s.obs.debugRows op block).isEmpty then s
  else { s with obs := s.obs.put west 0x12 kind num none s.aon.tick d }

/-- A Grove lies in the west half. -/
def westPlace (a : Place) : Bool := decide (96 ≤ a.grove.val)

/-- A segment's run from its first chunk at a level; beyond level 2 it has failed (R121, R124). -/
def State.rerun (s : State) (x : Run) (level : Nat) : State :=
  let y := { x with level := level, chunk := 0, sums := [], finished := decide (2 < level), failed := decide (2 < level) }
  { s with eng := s.eng.putRun y }.traceLevel (westPlace x.place) uGrove x.place.grove x.op x.block level

/-- A pass's result: the next chunk, the end of the segment, or the block's retry (R119 to R121). -/
def State.passDone (s : State) (q : Prod) (k : Blk) (x : Run) (p : PassIn) : State :=
  let r := passSums q k x.level p
  let g := x.place.grove.val
  let s := ((s.count 0x000 g).count 0x001 g 128).debugPass (westPlace x.place) uGrove g x.op x.block x.chunk k.cn r.1 r.2.1
  let s := { s with eng := { s.eng with lastTask := s.eng.lastTask.set g x.place.task } }
  let y := x.reads p
  if if q.int then r.2.2 else k.overflowed (s.runTaint q k x.place [y]) r.2.1 then
    (s.count 0x005 g).rerun y (x.level + 1)
  else
    { s with eng := s.eng.putRun { y with sums := r.2.1, finished := decide ((q.segment x.seg).2 ≤ y.chunk) } }

/-- A segment's run before its first pass. -/
def Run.fresh (op mb block seg : Nat) (a : Place) : Run := ⟨op, mb, block, seg, a, 0, 0, [], [], [], [], false, false⟩

/-- A run of another block of the same stripe and segment keeps to its Grove (R149). -/
def Eng.stripeHome (e : Eng) (q : Prod) (k : Blk) (seg grove : Nat) : Bool :=
  let same := fun (block : Nat) => match q.blocks[block]? with
    | some y => q.stripe y == q.stripe k
    | none => false
  q.striped.isNone || ((e.runs.all fun r => !(r.op == q.op && r.mb == q.mb && r.seg == seg && same r.block)
      || r.place.grove.val == grove)
    && (seg != 0 || e.blocks.all fun b => !(b.op == q.op && b.mb == q.mb && same b.block) || b.place.grove.val == grove))

/-- The run of a block's segment at a place that may make its next pass, whatever is resident: it is not finished, and the
segment belongs to the place or to none yet (R105). -/
def Eng.nextRun (e : Eng) (q : Prod) (a : Place) (block seg : Nat) : Option (Blk × Run) :=
  match q.blocks[block]? with
  | none => none
  | some k =>
    let x := (e.run q.op q.mb block seg).getD (Run.fresh q.op q.mb block seg a)
    let done := e.blocks.any fun b => b.op == q.op && b.mb == q.mb && b.block == block
    if q.segs ≤ seg || (q.segment seg).2 = 0 || x.place != a || x.finished || done || !e.stripeHome q k seg a.grove then none
    else some (k, x)

/-- The next pass of a block's segment at a place: it needs its operands resident (R87, R94). -/
def State.nextPass (s : State) (q : Prod) (a : Place) (block seg : Nat) : Option (Blk × Run × PassIn) :=
  (s.eng.nextRun q a block seg).bind fun x => (s.passIn q x.1 x.2).map fun i => (x.1, x.2, i)

/-- A task is ready: it does not wait, and some pass of its instance has its operands resident (R93, R94). -/
def State.taskReady (s : State) (a : Place) : Bool :=
  s.eng.tasks.any fun t => t.grove == a.grove.val && t.task == a.task.val && !t.waiting
    && match (s.atWork t.op t.mb).bind fun x => x.2.prod t.op t.mb with
      | some q => (List.range q.blocks.length).any fun b => (List.range q.segs).any fun g => (s.nextPass q a b g).isSome
      | none => false

/-- The task contexts of a Grove in turn order after the one that issued last (R93). -/
def Eng.turns (e : Eng) (grove : Nat) : List (Fin 4) :=
  match e.lastTask.get grove with
  | some k => (List.range 4).map fun i => Fin.ofNat 4 (k + 1 + i)
  | none => List.range 4 |>.map fun i => Fin.ofNat 4 i

/-- It is a task's turn: no context before it in turn order is ready (R93). -/
def State.hasTurn (s : State) (a : Place) : Bool :=
  ((s.eng.turns a.grove).takeWhile (· != a.task)).all fun t => !s.taskReady ⟨a.grove, t⟩

/-- PASS (R87, R93 to R95, R100, R110 to R121): the next pass of a block's segment at its place, when it is the task's turn.
The segment's first pass fixes the place (R105) and needs room for its partial sums; a task that waits issues none (R94).
DEDUCED, log 108. -/
def execPass (op mb block seg : Nat) (place : Place) (s : State) : Host.Outcome State Fault Refusal :=
  .next (
    match (s.atWork op mb).bind fun x => x.2.prod op mb, s.eng.taskAt place op mb with
    | some q, some t =>
      if t.waiting || s.groveStopped place.grove || !s.hasTurn place then s else
      match s.nextPass q place block seg with
      | none => s
      | some (k, x, i) =>
        match s.eng.makeRoom place (if (s.eng.run op mb block seg).isSome then 0 else 65536) with
        | none => s
        | some e => { s with eng := e }.passDone q k x i
    | _, _ => s)

/-! ### Segments -/

/-- The runs of a block's segments that hold chunks, in segment order; none unless all have finished. -/
def Eng.finishedRuns (e : Eng) (q : Prod) (block : Nat) : Option (List Run) :=
  ((List.range q.segs).filter fun i => (q.segment i).2 != 0).mapM fun i =>
    (e.run q.op q.mb block i).filter (·.finished)

/-- Sums of the segments in ascending order, an empty segment giving +0 (R102, R114), and whether an integer leaves 32
bits. -/
def combineSums (int : Bool) (segs : List (List Nat)) (n : Nat) : List Nat × Bool :=
  match segs with
  | [] => (List.replicate n 0, false)
  | a :: r =>
    if int then
      let steps := r.foldl (fun (acc : List Int × Bool) l =>
        let x := List.zipWith (fun y c => y + int32Of c) acc.1 l
        (x, acc.2 || x.any fun y => !int32Ok y)) (a.map int32Of, false)
      (steps.1.map int32Code, steps.2)
    else (r.foldl (fun acc l => List.zipWith fadd acc l) a, false)

/-- A block is finished: its segments' partial sums give way to its sums. -/
def State.putBlock (s : State) (q : Prod) (block : Nat) (a : Place) (level : Nat) (sums : List Nat) (failed : Bool) :
    State :=
  let b : Block := ⟨q.op, q.mb, block, a, level, sums, failed, false, [], []⟩
  { s with eng := { s.eng with
    runs := s.eng.runs.filter fun r => !(r.op == q.op && r.mb == q.mb && r.block == block)
    blocks := s.eng.blocks ++ [b] } }

/-- SEGMENT_COMBINE (R102, R114, R119, R122): segments below the block's level run again at it; otherwise the sums are
added, and an overflow sends every segment to the next level. -/
def execSegmentCombine (op mb block : Nat) (s : State) : Host.Outcome State Fault Refusal :=
  .next (
    match (s.atWork op mb).bind fun x => x.2.prod op mb with
    | none => s
    | some q =>
      match q.blocks[block]?, s.eng.finishedRuns q block with
      | some k, some (x :: xs) =>
        if q.segs ≤ 1 || s.groveStopped x.place.grove then s else
        let rs := x :: xs
        let top := rs.foldl (fun m r => max m r.level) 0
        if rs.any (·.failed) then s.putBlock q block x.place 3 [] true
        else if rs.any (·.level < top) then
          (rs.filter (·.level < top)).foldl (fun s r => s.rerun r top) s
        else
          let n := k.rn * k.cn
          let segs := (List.range q.segs).map fun i => ((rs.find? (·.seg == i)).map (·.sums)).getD (List.replicate n 0)
          let r := combineSums q.int segs n
          if if q.int then r.2 else k.overflowed (flagged rs k.cn) r.1 then
            if top = 2 then (s.traceLevel (westPlace x.place) uGrove x.place.grove op block 3).putBlock q block x.place 3 [] true
            else rs.foldl (fun s r => s.rerun r (top + 1)) s
          else s.putBlock q block x.place top r.1 false
      | _, _ => s)

/-! ### The output stage -/

/-- Blocks that lie in the same output tile as a block. -/
def Blk.mate (k y : Blk) : Bool := k.c0 / 128 == y.c0 / 128 && k.r0 == y.r0 && k.rest == y.rest

/-- The drained blocks of an instance by their positions. -/
def Eng.tileBlocks (e : Eng) (q : Prod) (k : Blk) : Option (List (Blk × Block)) :=
  (q.blocks.zipIdx.filter fun y => k.mate y.1).mapM fun y =>
    (e.blocks.find? fun b => b.op == q.op && b.mb == q.mb && b.block == y.2 && b.drained).map fun b => (y.1, b)

/-- The value of an output tile's element among its drained blocks. -/
def blocksAt (bs : List (Blk × Block)) (out1 : Bool) (row col : Nat) : Val :=
  match bs.find? fun b => decide (b.1.c0 % 128 ≤ col) && decide (col < b.1.c0 % 128 + b.1.cn) with
  | some b => d32 ((if out1 then b.2.out1 else b.2.out0).getD (row * b.1.cn + (col - b.1.c0 % 128)) 0)
  | none => .fin false 0 0

/-- A tile record of a result enters the scratchpad in its cells to be stored, with its counts (R90, R130, R174, R632). -/
def State.putResult (s : State) (p : Plan) (a : Place) (op mb slot : Nat) (t : TD) (c : List Nat) (f : Nat → Nat → Val) :
    State :=
  let x := t.encodeTile c f
  let d := (p.op op).outs.getD slot absent
  let s := (s.watchAdd d x.2.2.1 x.2.2.2).nonfiniteAdd d (t.nonfiniteIn c x.1 x.2.1)
  let u : ScratchTile := ⟨a.grove, a.task, op, mb, 0, (t.recordAt (t.tileIndex c)).1, t.toCells x.1, x.2.1, true⟩
  { s with eng := { s.eng with scratch := s.eng.scratch ++ [u] } }

/-- The result tile that holds a block, once all its blocks have drained. -/
def State.putTile (s : State) (p : Plan) (q : Prod) (k : Blk) (a : Place) : State :=
  match s.eng.tileBlocks q k with
  | none => s
  | some bs =>
    let c := [k.c0 / 128, k.r0 / 128] ++ k.rest
    let s := s.putResult p a q.op q.mb 0 q.d c (blocksAt bs false)
    let s := match q.save with
      | some t => s.putResult p a q.op q.mb 1 t c (blocksAt bs true)
      | none => s
    let clear := fun (b : Block) => if bs.any (fun y => y.2 == b) then { b with sums := [], out0 := [], out1 := [] } else b
    { s with eng := { s.eng with blocks := s.eng.blocks.map clear } }

/-- The finished block that the output stage may take: the combined one, or the only segment of an unsplit one. -/
def State.drainable (s : State) (q : Prod) (block : Nat) : Option (State × Block) :=
  match s.eng.blocks.find? fun b => b.op == q.op && b.mb == q.mb && b.block == block with
  | some b => if b.drained then none else some (s, b)
  | none =>
    if q.segs ≤ 1 then
      match s.eng.run q.op q.mb block 0 with
      | some x =>
        if x.finished then
          let s := s.putBlock q block x.place x.level x.sums x.failed
          (s.eng.blocks.getLast?).map fun b => (s, b)
        else none
      | none => none
    else none

/-- A finished block drained at a state, its column parameters at hand (R123 to R132). -/
def State.drainBlock (s : State) (p : Plan) (q : Prod) (k : Blk) (b : Block) (cols : Option Loaded) : State :=
  let o := q.drain cols k b.level b.failed b.sums
  let lvl := if b.failed then 0 else b.level
  let s := if lvl = 0 then s else s.count (0x002 + lvl) b.place.grove
  let s := s.addCounts 0x05 q.op [b2n (lvl == 1), b2n (lvl == 2)]
  let b' := { b with drained := true, out0 := o.1, out1 := o.2 }
  { s with eng := { s.eng with blocks := s.eng.blocks.map fun y => if y == b then b' else y } }.putTile p q k b.place

/-- OUTPUT_STAGE_DRAIN (R94, R123 to R132): with IN3's tile resident, the block's values are formed and, with its tile
complete, written into the scratchpad as OUT0's and OUT1's tile records, which the tile mover stores; they need room in the
task's partition. -/
def execOutputStageDrain (op mb block : Nat) (s : State) : Host.Outcome State Fault Refusal :=
  .next (
    match s.atWork op mb with
    | none => s
    | some (_, p) =>
      match p.prod op mb with
      | none => s
      | some q =>
        match q.blocks[block]?, s.drainable q block with
        | some k, some (s1, b) =>
          if s.groveStopped b.place.grove then s else
          match s1.eng.columns b.place q k with
          | none => s
          | some cols =>
            let t := s1.drainBlock p q k b cols
            match t.eng.makeRoom b.place 0 with
            | none => s
            | some e => { t with eng := e }
        | _, _ => s)

/-- With every block drained and every result stored, the instance's work is done: OK, or RANGE with its entry (R124).
DEDUCED, log 117. -/
def State.productDone (s : State) (op mb : Nat) : State :=
  match (s.atWork op mb).bind fun x => (x.2.prod op mb).map fun q => (x.2, q) with
  | none => s
  | some (p, q) =>
    let mine := s.eng.blocks.filter fun b => b.op == op && b.mb == mb
    let left := s.eng.scratch.any fun t => t.result && t.op == op && t.mb == mb
    if left || mine.length < q.blocks.length || !mine.all (·.drained) then s
    else
      match (mine.filter (·.failed)).map (·.block) with
      | [] => s.computed op mb
      | b :: r =>
        (s.onStep fun st => { st with entries := addRange op (p.mbByte op mb) (r.foldl min b) st.entries }).setInst op mb
          (.computed cRANGE)

/-- TILE_MOVE_COMPLETE (R185, R221, R223, R246, R621): the oldest move of the place whose pages are translated ends; a load
waits for room in the task's partition. DEDUCED, log 107. -/
def execTileMoveComplete (place : Place) (ecc : List Ecc) (lat xlat : Nat) (s : State) :
    Host.Outcome State Fault Refusal :=
  .next (
    match s.eng.moves.find? fun m => m.place == place && !s.moveWaits m with
    | none => s
    | some m =>
      match s.atWork m.op m.mb with
      | none => s
      | some (_, p) =>
        if s.groveStopped place.grove then s else
        let x := if m.store then (s, []) else s.eccLines (m.pieces.flatMap fun x => s.lineKeys x.va x.len) ecc
        let s := x.1
        if !s.eng.moves.contains m then s else
        match s.firstObstacle place.grove m.accs with
        | some o => x.2.foldl State.countBad (s.obstacle m.op m.mb o)
        | none =>
          match (p.moveRecs m.op m.mb m.store m.pieces).bind fun rs => (s.moveRoom m rs).map fun t => (rs, t) with
          | none => s
          | some (rs, t) =>
            let t := t.endMove p m rs lat xlat
            if m.store then t.productDone m.op m.mb else t)

end Sys2Proof.Machine
end

