-- ==== Sys2Proof/Machine/Vector.lean ====
section
/-! DEFINITION. Operations of the vector engine: VECTOR in its four modes (R167 to R171), ACT_BACKWARD (R179) and
GRAD_GATHER (R182). Each runs in one event: its tensors are read whole, worked on and written whole. -/

namespace Sys2Proof.Machine

/-! ### One-event operations -/

/-- Writes a whole output of an operation that a Grove runs: range watch and non-finite counts with it (R164, R174, R632). -/
def State.storeGrove (s : State) (p : Plan) (op slot : Nat) (t : TD) (f : List Nat → Val) : State :=
  let d := (p.op op).outs.getD slot absent
  t.tiles.foldl (fun s c =>
    let x := t.encodeTile c fun r k =>
      f [128 * c.getD 0 0 + k, 128 * c.getD 1 0 + r, c.getD 2 0, c.getD 3 0, c.getD 4 0, c.getD 5 0]
    ((s.writeTile t (t.tileIndex c) x.1 x.2.1).watchAdd d x.2.2.1 x.2.2.2).nonfiniteAdd d (t.nonfiniteIn c x.1 x.2.1)) s

/-- Writes an output that may be absent. -/
def State.storeGroveOpt (s : State) (p : Plan) (op slot : Nat) (t : Option TD) (f : List Nat → Val) : State :=
  match t with
  | some t => s.storeGrove p op slot t f
  | none => s

/-- What a one-event operation works on: its plan and step, its inputs, whether present, and its outputs. -/
structure Bulk where
  p : Plan
  st : Step
  ins : List (Option Loaded)
  outs : List (Option TD)

/-- Input `j` of a one-event operation. -/
def Bulk.inp (b : Bulk) (j : Nat) : Option Loaded := b.ins.getD j none

/-- Output `j` of a one-event operation. -/
def Bulk.out (b : Bulk) (j : Nat) : Option TD := b.outs.getD j none

/-- The tensors of an instance, slot by slot. -/
def Plan.insOf (p : Plan) (op mb : Nat) : List (Option TD) := (List.range 4).map fun j => p.inTd op j mb
def Plan.outsOf (p : Plan) (op mb : Nat) : List (Option TD) := (List.range 2).map fun j => p.outTd op j mb

/-- Which tiles of its inputs an instance reads: by slot and the tile's coordinates. -/
abbrev Keep := Nat → List Nat → Bool

/-- Reads the tiles of an instance's inputs that it needs. -/
def State.loadAll (s : State) (keep : Keep) (ts : List (Option TD)) : List (Option Loaded) × State :=
  ts.zipIdx.foldl (fun (a : List (Option Loaded) × State) t =>
    let x := a.2.loadOpt t.1 (keep t.2)
    (a.1 ++ [x.1], x.2)) ([], s)

/-- The accesses of an instance: the tiles that it reads, and its outputs whole. -/
def bulkAccs (keep : Keep) (ins outs : List (Option TD)) : List (Nat × Nat × Bool) :=
  (ins.zipIdx.flatMap fun t => match t.1 with | some u => u.someAccs (keep t.2) | none => [])
    ++ outs.flatMap fun t => match t with | some t => t.accs true | none => []

/-- Runs an instance in one event on the vector engine of a Grove: it issues, or goes on after a wait, its accesses are
admitted, its inputs read, its work done (R326); then it awaits its fence. Nothing happens where the Grove has stopped
(R563). DESIGN CHOICE, log 111. -/
def State.bulkSome (s : State) (code op mb : Nat) (place : Place) (keep : Plan → State → Keep) (work : Bulk → State → State) :
    State :=
  if s.groveStopped place.grove then s else
  match s.enter code op mb with
  | none => s
  | some (s, st, p) =>
    let s := s.startTask place op mb
    let ins := p.insOf op mb
    let outs := p.outsOf op mb
    match s.permit op mb place.grove (bulkAccs (keep p s) ins outs) with
    | (s, false) => s
    | (s, true) =>
      let l := s.loadAll (keep p s) ins
      (work ⟨p, st, l.1, outs⟩ l.2).computed op mb

/-- The same for an instance that reads all of its inputs. -/
def State.bulkAt (s : State) (code op mb : Nat) (place : Place) (work : Bulk → State → State) : State :=
  s.bulkSome code op mb place (fun _ _ _ _ => true) work

/-- An element of an input as binary32, a dimension of size 1 being broadcast (R169). -/
def Loaded.cast (l : Loaded) (e : List Nat) : Nat :=
  l.at32 ((List.range 6).map fun i => if l.td.dim i = 1 then 0 else e.getD i 0)

/-! ### VECTOR (R167 to R171) -/

/-- The scalars of an operation: under LOSS_SCALE the training block's slot of its operation carries 2^L as binary32, L
being the step's exponent (R308, R310, R311). -/
def Bulk.scalars (b : Bulk) (op : Nat) : List Nat :=
  let l := vecScalars (b.p.param op)
  if bit (b.p.setting 0x10 1) 0 && b.p.setting 0x18 4 == op then
    l.set (b.p.setting 0x1C 1 % 4) ((b.st.lsExp + 127).toNat * 2 ^ 23)
  else l

/-- The value slots after the program at a position. -/
def Bulk.run (b : Bulk) (op : Nat) (e : List Nat) : List Nat :=
  vecRun (vecSteps (b.p.param op)) (b.ins.map fun l => match l with | some l => l.cast e | none => 0) (b.scalars op)

/-- ELEMENTWISE (R169). -/
def Bulk.elementwise (b : Bulk) (op : Nat) (s : State) : State :=
  let s := s.storeGroveOpt b.p op 0 (b.out 0) fun e => d32 ((b.run op e).getD 14 0)
  s.storeGroveOpt b.p op 1 (b.out 1) fun e => d32 ((b.run op e).getD 15 0)

/-- The extreme value of a list and its index: the first on ties; a NaN gives the canonical NaN at the first NaN (R170). -/
def extreme (best : Nat → Nat → Bool) (l : List Nat) : Nat × Nat :=
  match l.findIdx? isNan32 with
  | some i => (qNaN, i)
  | none =>
    l.zipIdx.foldl (fun (a : Nat × Nat) x => if x.2 = 0 || best x.1 a.1 then (x.1, x.2) else a) (0, 0)

/-- Running sums (R170 SCAN). -/
def scanSums : List Nat → Nat → List Nat
  | [], _ => []
  | v :: r, acc => let y := fadd acc v; y :: scanSums r y

/-- Inclusive running sums: the first is the first value itself. -/
def runningSums : List Nat → List Nat
  | [] => []
  | v :: r => v :: scanSums r v

/-- REDUCE (R170). -/
def Bulk.reduce (b : Bulk) (op : Nat) (s : State) : State :=
  let blk := b.p.param op
  let red := bits (byteAt blk 1) 5 4
  let ax := bits (byteAt blk 1) 2 0
  let len := match b.inp 0 with
    | some l => l.td.dim ax
    | none => 0
  let line := fun (e : List Nat) => (List.range len).map fun i => (b.run op (e.set ax i)).getD 14 0
  let ext := fun (e : List Nat) =>
    extreme (fun x y => if red = 1 then (d32 y).lt (d32 x) else (d32 x).lt (d32 y)) (line e)
  let s := s.storeGroveOpt b.p op 0 (b.out 0) fun e =>
    d32 (if red = 0 then reduceSum (line e)
      else if red = 3 then (runningSums (line e)).getD (e.getD ax 0) 0
      else (ext e).1)
  s.storeGroveOpt b.p op 1 (b.out 1) fun e => d32 (b32OfNat (ext e).2)

/-- The stored index of a row, and the row it names; none when it names none (R171). -/
def Bulk.index (b : Bulk) (rows i : Nat) : Nat × Option Nat :=
  let x := match b.inp 3 with
    | some l => l.at32 [0, i, 0, 0, 0, 0]
    | none => 0xBF800000
  (x, (natOfB32 x).filter fun n => decide (n < rows))

/-- Rows of the index tensor. -/
def Bulk.indexRows (b : Bulk) : Nat := match b.inp 3 with | some l => l.td.dim 1 | none => 0

/-- The illegal indices other than −1 (R171). -/
def Bulk.illegal (b : Bulk) (rows : Nat) : Nat :=
  ((List.range b.indexRows).filter fun i =>
    let x := b.index rows i
    x.2.isNone && x.1 != 0xBF800000).length

/-- The program on column `c` of row `row` of IN0, with row `i`'s stored index as IN3. -/
def Bulk.runRow (b : Bulk) (op : Nat) (i row c : Nat) : List Nat :=
  let at_ := fun (j : Nat) (e : List Nat) => match b.inp j with
    | some l => l.cast e
    | none => 0
  vecRun (vecSteps (b.p.param op)) [at_ 0 [c, row, 0, 0, 0, 0], at_ 1 [], at_ 2 [], (b.index 0 i).1] (b.scalars op)

/-- GATHER (R171). -/
def Bulk.gather (b : Bulk) (op : Nat) (s : State) : State :=
  let rows := match b.inp 0 with | some l => l.td.dim 1 | none => 0
  let f := fun (slot : Nat) (e : List Nat) =>
    match (b.index rows (e.getD 1 0)).2 with
    | some n => d32 ((b.runRow op (e.getD 1 0) n (e.getD 0 0)).getD slot 0)
    | none => .fin false 0 0
  let s := s.storeGroveOpt b.p op 0 (b.out 0) (f 14)
  (s.storeGroveOpt b.p op 1 (b.out 1) (f 15)).addCounts 0x08 op [b.illegal rows]

/-- SCATTER (R171): the highest row that names a target gives it its values. -/
def Bulk.scatter (b : Bulk) (op : Nat) (s : State) : State :=
  let rows := match b.out 0 with | some t => t.dim 1 | none => 0
  let src := (List.range b.indexRows).foldl (fun (a : Array (Option Nat)) i =>
    match (b.index rows i).2 with
    | some n => a.setIfInBounds n (some i)
    | none => a) (Array.replicate rows none)
  let f := fun (slot : Nat) (e : List Nat) =>
    match src.getD (e.getD 1 0) none with
    | some i => d32 ((b.runRow op i i (e.getD 0 0)).getD slot 0)
    | none => .fin false 0 0
  let s := s.storeGroveOpt b.p op 0 (b.out 0) (f 14)
  (s.storeGroveOpt b.p op 1 (b.out 1) (f 15)).addCounts 0x08 op [b.illegal rows]

/-- The mode of an operation's VECTOR block: 0 ELEMENTWISE, 1 REDUCE, 2 GATHER, 3 SCATTER. -/
def State.vecMode (s : State) (op : Nat) : Option Nat :=
  s.stepPlan.map fun x =>
    let m := byteAt (x.2.param op) 1
    if bits m 7 6 = 2 then (if bit m 3 then 3 else 2) else bits m 7 6

/-- The tiles that a GATHER reads of IN0: those that hold a row its index tensor names (R171, R172). -/
def gatherKeep (op mb : Nat) (p : Plan) (s : State) (slot : Nat) (tile : List Nat) : Bool :=
  slot != 0 || (match p.inTd op 3 mb, p.inTd op 0 mb with
    | some idx, some x => (List.range (idx.dim 1)).any fun i =>
        match (natOfB32 (r32 (s.elemAt idx [0, i, 0, 0, 0, 0]))).filter fun n => decide (n < x.dim 1) with
        | some n => n / 128 == tile.getD 1 0
        | none => false
    | _, _ => false)

/-- A VECTOR instance of a mode. -/
def State.vector (s : State) (mode op mb : Nat) (place : Place) (work : Bulk → State → State)
    (keep : Plan → State → Keep := fun _ _ _ _ => true) : State :=
  if s.vecMode op == some mode then s.bulkSome 0x0020 op mb place keep work else s

/-- VECTOR in ELEMENTWISE mode (R169). -/
def execVectorElementwise (op mb : Nat) (place : Place) (s : State) : Host.Outcome State Fault Refusal :=
  .next (s.vector 0 op mb place fun b s => b.elementwise op s)

/-- VECTOR in REDUCE mode (R170). -/
def execVectorReduce (op mb : Nat) (place : Place) (s : State) : Host.Outcome State Fault Refusal :=
  .next (s.vector 1 op mb place fun b s => b.reduce op s)

/-- VECTOR in INDEXED mode, GATHER (R171). -/
def execVectorGather (op mb : Nat) (place : Place) (s : State) : Host.Outcome State Fault Refusal :=
  .next (s.vector 2 op mb place (fun b s => b.gather op s) (gatherKeep op mb))

/-- VECTOR in INDEXED mode, SCATTER (R171). -/
def execVectorScatter (op mb : Nat) (place : Place) (s : State) : Host.Outcome State Fault Refusal :=
  .next (s.vector 3 op mb place fun b s => b.scatter op s)

/-! ### ACT_BACKWARD (R179) -/

/-- The constant 1. -/
def one : Nat := 0x3F800000

/-- SiLU's derivative at x. -/
def siluSlope (x : Nat) : Nat :=
  if x = 0x7F800000 then one else if x = 0xFF800000 then 0 else
  let g := fsigmoid x
  fmul g (ffma x (fsub one g) one)

/-- GELU's derivative at x. -/
def geluSlope (x : Nat) : Nat :=
  if x = 0x7F800000 then one else if x = 0xFF800000 then 0 else
  let w := geluParts x
  let t1 := w.1
  let tt := w.2.2.1
  let a := w.2.2.2.1
  let h := w.2.2.2.2
  let b := ffma (fneg tt) tt one
  let p := ffma (fmul 0x40400000 geluC2) t1 one
  let q := fmul geluC1 p
  let n := fmul h (fmul b q)
  ffma 0x3F000000 a n

/-- dX from dY and the saved value (R179). -/
def actBack (act : Nat) (pre : Bool) (alpha dy v : Nat) : Nat :=
  if isNan32 dy || isNan32 v then qNaN
  else if act = 1 then (if fpos v then dy else 0)
  else if act = 2 then (if fpos v then dy else fmul alpha dy)
  else if act = 3 then
    let y := if pre then fsigmoid v else v
    fmul dy (fmul y (fsub one y))
  else if act = 4 then
    let y := if pre then ftanh v else v
    fmul dy (ffma (fneg y) y one)
  else if act = 5 then fmul dy (siluSlope v)
  else fmul dy (geluSlope v)

/-- ACT_BACKWARD (R177, R179). -/
def execActBackward (op mb : Nat) (place : Place) (s : State) : Host.Outcome State Fault Refusal :=
  .next (s.bulkAt 0x0021 op mb place fun b s =>
    let blk := b.p.param op
    match b.inp 0, b.inp 1 with
    | some dy, some v =>
      s.storeGroveOpt b.p op 0 (b.out 0) fun e =>
        d32 (actBack (bits (byteAt blk 0) 5 3) (bit (byteAt blk 0) 2) (fld blk 4 4) (dy.at32 e) (v.at32 e))
    | _, _ => s)

/-- GRAD_GATHER (R181, R182): the buffers are added in ascending use order. -/
def execGradGather (op mb : Nat) (place : Place) (s : State) : Host.Outcome State Fault Refusal :=
  .next (s.bulkAt 0x0022 op mb place fun b s =>
    match (b.ins.take (byteAt (b.p.param op) 0)).filterMap id with
    | a :: r => s.storeGroveOpt b.p op 0 (b.out 0) fun e => d32 (r.foldl (fun y l => fadd y (l.at32 e)) (a.at32 e))
    | [] => s)

end Sys2Proof.Machine
end

