-- ==== Sys2Proof/Machine/Vision.lean ====
section
/-! DEFINITION. Pooling (R150 to R153), the Sapling engines (R155 to R158), box decoding (R159) and overlap suppression
(R160 to R162). Each runs in one event. -/

namespace Sys2Proof.Machine

/-! ### POOL -/

/-- Input positions of a window in row-major order of its taps, padding left out: row and column (R137, R152). -/
def Win.inside (w : Win) (h wd oy ox : Nat) : List (Nat × Nat) :=
  (List.range w.kh).flatMap fun ky =>
    match tapIn oy ky w.sy w.dy w.pt h with
    | none => []
    | some iy => (List.range w.kw).filterMap fun kx => (tapIn ox kx w.sx w.dx w.pl wd).map fun ix => (iy, ix)

/-- The forward value of a window from its taps, where padding gives none: MAX, AVG_INCL, AVG_EXCL (R152). -/
def poolValue (mode : Nat) (taps : List (Option Nat)) : Nat :=
  let real := taps.filterMap id
  if mode = 0 then (extreme (fun x y => (d32 y).lt (d32 x)) real).1
  else if mode = 1 then fdiv (sumInOrder (taps.map fun t => t.getD 0)) (b32OfNat taps.length)
  else fdiv (sumInOrder real) (b32OfNat real.length)

/-- The taps of a window over an input channel. -/
def Win.taps (w : Win) (x : Loaded) (c n oy ox : Nat) : List (Option Nat) :=
  (List.range w.kh).flatMap fun ky => (List.range w.kw).map fun kx =>
    match tapIn oy ky w.sy w.dy w.pt (x.td.dim 2), tapIn ox kx w.sx w.dx w.pl (x.td.dim 1) with
    | some iy, some ix => some (x.at32 [c, ix, iy, n, 0, 0])
    | _, _ => none

/-- Output positions of the windows that contain an input position, in ascending order (R153). -/
def Win.reach (w : Win) (oh ow iy ix : Nat) : List (Nat × Nat) :=
  let ys := (List.range w.kh).filterMap fun ky => gradIndex iy w.pt ky w.dy w.sy oh
  let xs := (List.range w.kw).filterMap fun kx => gradIndex ix w.pl kx w.dx w.sx ow
  (sortBy id ys).flatMap fun y => (sortBy id xs).map fun x => (y, x)

/-- What a window adds to an input position's gradient: none when it does not select it (R153). -/
def Win.share (w : Win) (mode : Nat) (x dy : Loaded) (c n iy ix : Nat) (o : Nat × Nat) : Option Nat :=
  let pos := w.inside (x.td.dim 2) (x.td.dim 1) o.1 o.2
  let g := dy.at32 [c, o.2, o.1, n, 0, 0]
  if mode = 0 then
    let sel := (extreme (fun a b => (d32 b).lt (d32 a)) (pos.map fun q => x.at32 [c, q.2, q.1, n, 0, 0])).2
    if pos[sel]? == some (iy, ix) then some g else none
  else some (fdiv g (b32OfNat (if mode = 1 then w.kh * w.kw else pos.length)))

/-- POOL (R150 to R153), forward and backward. -/
def execPool (op mb : Nat) (place : Place) (s : State) : Host.Outcome State Fault Refusal :=
  .next (s.bulkAt 0x0011 op mb place fun b s =>
    let blk := b.p.param op
    let w := Win.ofBytes blk
    let mode := bits (byteAt blk 0x10) 1 0
    match b.inp 0, b.inp 1 with
    | some x, none =>
      s.storeGroveOpt b.p op 0 (b.out 0) fun e =>
        d32 (poolValue mode (w.taps x (e.getD 0 0) (e.getD 3 0) (e.getD 2 0) (e.getD 1 0)))
    | some x, some dy =>
      s.storeGroveOpt b.p op 0 (b.out 0) fun e =>
        d32 (sumInOrder ((w.reach (dy.td.dim 2) (dy.td.dim 1) (e.getD 2 0) (e.getD 1 0)).filterMap
          (w.share mode x dy (e.getD 0 0) (e.getD 3 0) (e.getD 2 0) (e.getD 1 0))))
    | none, _ => s)

/-! ### SAPLING_CONV -/

/-- The products of an output element in the order of R156, without padding to a K-chunk. -/
def Prod.row (n inner : Nat) (f : Nat → Nat → Ref) : List Ref := (List.range (n * inner)).map fun g => f (g / inner) (g % inner)

/-- What a reference reads of a loaded tensor. -/
def Ref.of (x : Ref) (l : Loaded) : Option Val :=
  match x with
  | .zero => none
  | .const v => some v
  | .elem e => some (l.at e)

/-- The chunks of a block at a retry level: per chunk its sums and the partial sums after it, from +0; the last chunk
is completed with +0 (R110, R156). DEDUCED, log 109. -/
def Prod.saplingPasses (q : Prod) (a b : Loaded) (k : Blk) (level : Nat) : List (List Nat × List Nat) :=
  let lift : Int := -(16 * (level : Int))
  let rows := ((List.range k.rn).map fun r => (Prod.row q.runs q.inner (q.aRef k r)).map fun x =>
    (x.of a).map fun v => v.shift lift).toArray
  let cols := ((List.range k.cn).map fun c => (Prod.row q.runs q.inner (q.bRef k c)).map fun x => x.of b).toArray
  let ps := (List.range (k.rn * k.cn)).map fun i =>
    List.zipWith refProduct (rows.getD (i / k.cn) []) (cols.getD (i % k.cn) [])
  (List.range (ceilDiv (q.runs * q.inner) 4096)).foldl (fun (acc : List (List Nat × List Nat)) j =>
    let cs := ps.map fun l =>
      let c := (l.drop (4096 * j)).take 4096
      treeSum (c ++ List.replicate (4096 - c.length) (.fin false 0 0))
    let sums := ((acc.getLast?).map (·.2)).getD (List.replicate (k.rn * k.cn) 0)
    acc ++ [(cs, List.zipWith fadd sums cs)]) []

/-- The level a block ends at, its sums, and the chunks run at each level in turn, up to the first overflow (R119 to R121,
R157); level 3 when it overflows at every level. -/
def State.saplingLevel (s : State) (q : Prod) (a b : Loaded) (k : Blk) : Nat → Nat → Nat × List Nat × List (List (List Nat × List Nat))
  | 0, level => (level, [], [])
  | n + 1, level =>
    let xs := q.saplingPasses a b k level
    let ok := xs.takeWhile fun x => !k.overflowed (s.tainted q k) x.2
    if ok.length = xs.length then (level, ((xs.getLast?).map (·.2)).getD (List.replicate (k.rn * k.cn) 0), [xs])
    else
      let r := s.saplingLevel q a b k n (level + 1)
      (r.1, r.2.1, xs.take (ok.length + 1) :: r.2.2)

/-- The debug trace of a block that a Sapling engine computes (R133, R628, R629): its chunks at each level, and each change
of level. DEDUCED, log 153. -/
def State.saplingTrace (s : State) (op block engine cn : Nat) (levels : List (List (List Nat × List Nat))) (final : Nat) :
    State :=
  let w := decide (2 ≤ engine)
  levels.zipIdx.foldl (fun s l =>
    let s := l.1.zipIdx.foldl (fun s x => s.debugPass w uSapling engine op block x.2 cn x.1.1 x.1.2) s
    if l.2 < final then s.traceLevel w uSapling engine op block (l.2 + 1) else s) s

/-- Position of the block that holds an output element, and the element's place in it. -/
def Prod.blockAt (q : Prod) (e : List Nat) : Nat × Nat × Nat :=
  let l := if q.planar then [e.getD 2 0, e.getD 0 0, e.getD 1 0, e.getD 3 0, 0, 0] else e
  let dim := fun (i : Nat) => q.dims.getD i 1
  let rest := (List.range 4).foldr (fun i acc => acc * dim (i + 2) + l.getD (i + 2) 0) 0
  ((rest * ceilDiv (dim 1) 128 + l.getD 1 0 / 128) * ceilDiv (dim 0) 128 + l.getD 0 0 / 128,
    l.getD 1 0 % 128, l.getD 0 0 % 128)

/-- A block of a SAPLING_CONV: its engine, the level it ends at, its chunks, and its values for OUT0 and OUT1. -/
structure SapBlock where
  blk : Blk
  engine : Nat
  level : Nat
  passes : List (List (List Nat × List Nat))
  out : List Nat × List Nat

/-- Every block of a SAPLING_CONV, the blocks spread over the engines in turn (R120, R129, R156, R157). DESIGN CHOICE, log 167. -/
def State.sapBlocks (s : State) (q : Prod) (engines : List (Fin 4)) (a b : Loaded) (cols : Option Loaded) : List SapBlock :=
  q.blocks.zipIdx.map fun k =>
    let x := s.saplingLevel q a b k.1 3 0
    ⟨k.1, ((engines.getD (k.2 % max 1 engines.length) 0).val), x.1, x.2.2, q.drain cols k.1 x.1 (decide (2 < x.1)) x.2.1⟩

/-- SAPLING_CONV (R155 to R158) on the engines the primary Ranger gives it: every block at its final level, then the output
stage; RANGE when a block reached level 3 (R124, R157). -/
def execSaplingConv (op mb : Nat) (engines : List (Fin 4)) (s : State) : Host.Outcome State Fault Refusal :=
  .next (
    if engines.isEmpty || engines.any (fun e => s.floorStopped (e.val / 2)) then s else
    match s.enter 0x0014 op mb with
    | none => s
    | some (s, _, p) =>
      match p.prod op mb with
      | none => s
      | some q =>
        let accs := q.a.accs false ++ q.b.accs false
          ++ (match q.cols with | some t => t.accs false | none => [])
          ++ q.d.accs true ++ (match q.save with | some t => t.accs true | none => [])
        let half := (engines.headD 0).val / 2
        match (engines.foldl (fun s e => s.wakeBlock (.sapling e)) s).permit op mb (agentCache half) accs with
        | (s, false) => s
        | (s, true) =>
          let a := s.load q.a
          let b := a.2.load q.b
          let l := b.2.loadOpt q.cols
          let s := l.2
          let blocks := s.sapBlocks q engines a.1 b.1 l.1
          let s := blocks.zipIdx.foldl (fun s x =>
            s.saplingTrace op x.2 x.1.engine x.1.blk.cn x.1.passes x.1.level) s
          let arr := (blocks.map fun x => (x.blk.cn, x.out.1.toArray, x.out.2.toArray)).toArray
          let at_ := fun (second : Bool) (e : List Nat) =>
            let w := q.blockAt e
            let y := arr.getD w.1 (0, #[], #[])
            d32 ((if second then y.2.2 else y.2.1).getD (w.2.1 * y.1 + w.2.2) 0)
          let s := s.storeOut p op 0 q.d (at_ false)
          let s := match q.save with
            | some t => s.storeOut p op 1 t (at_ true)
            | none => s
          let level := fun (n : Nat) => (blocks.filter fun x => x.level == n).length
          let s := s.addCounts 0x05 op [level 1, level 2]
          match blocks.findIdx? fun x => x.level == 3 with
          | none => s.computed op mb
          | some n =>
            (s.onStep fun st => { st with entries := addRange op (p.mbByte op mb) n st.entries }).setInst op mb
              (.computed cRANGE))

/-! ### BOXDECODE (R159) -/

/-- The box of an anchor and a delta: x1, y1, x2, y2. -/
def boxOf (par : Nat → Nat) (an de : Nat → Nat) : List Nat :=
  let half := 0x3F000000
  let axis := fun (lo hi d dl : Nat) (sc sz bound : Nat) =>
    let a := fsub hi lo
    let c := fadd (fadd lo (fmul half a)) (fmul (fmul d sc) a)
    let w := fmul a (fexp (fmin (fmul dl sz) (par 4)))
    (fmax 0 (fmin (fsub c (fmul half w)) bound), fmax 0 (fmin (fadd c (fmul half w)) bound))
  let x := axis (an 0) (an 2) (de 0) (de 2) (par 0) (par 2) (par 5)
  let y := axis (an 1) (an 3) (de 1) (de 3) (par 1) (par 3) (par 6)
  [x.1, y.1, x.2, y.2]

/-- BOXDECODE (R159). -/
def execBoxDecode (op mb : Nat) (place : Place) (s : State) : Host.Outcome State Fault Refusal :=
  .next (s.bulkAt 0x0012 op mb place fun b s =>
    let blk := b.p.param op
    match b.inp 0, b.inp 1 with
    | some an, some de =>
      s.storeGroveOpt b.p op 0 (b.out 0) fun e =>
        let at_ := fun (l : Loaded) (i : Nat) => l.at32 [i, e.getD 1 0, 0, 0, 0, 0]
        d32 ((boxOf (fun i => fld blk (4 * i) 4) (at_ an) (at_ de)).getD (e.getD 0 0) 0)
    | _, _ => s)

/-! ### SUPPRESS (R160 to R162) -/

/-- Inserts an index into a list that descends by score; equal scores keep the lower index first. -/
def insertScore (sc : Nat → Nat) (i : Nat) : List Nat → List Nat
  | [] => [i]
  | j :: r => if (d32 (sc j)).lt (d32 (sc i)) then i :: j :: r else j :: insertScore sc i r

/-- Indices by descending score. -/
def byScore (sc : Nat → Nat) (l : List Nat) : List Nat := l.foldl (fun acc i => insertScore sc i acc) []

/-- over(i, j) of R161. -/
def boxesOver (box : Nat → Nat → Nat) (iou i j : Nat) : Bool :=
  let side := fun (lo hi : Nat) => fmax 0 (fsub (fmin (box i hi) (box j hi)) (fmax (box i lo) (box j lo)))
  let area := fun (n : Nat) => fmul (fmax 0 (fsub (box n 2) (box n 0))) (fmax 0 (fsub (box n 3) (box n 1)))
  let inter := fmul (side 0 2) (side 1 3)
  let union := fsub (fadd (area i) (area j)) inter
  (d32 (fmul iou union)).lt (d32 inter)

/-- The greedy loop of R161: the kept indices in order, and whether it stopped full. -/
def suppressFrom (hit : Nat → Nat → Bool) (cap : Nat) : List Nat → List Nat → List Nat × Bool
  | [], kept => (kept, false)
  | i :: r, kept =>
    if kept.length = cap then (kept, true)
    else if kept.any (hit i) then suppressFrom hit cap r kept
    else suppressFrom hit cap r (kept ++ [i])

/-- SUPPRESS (R160 to R162). Class ids that are NaN are equal when their canonical codes are: DESIGN CHOICE, log 165. -/
def execSuppress (op mb : Nat) (place : Place) (s : State) : Host.Outcome State Fault Refusal :=
  .next (s.bulkAt 0x0013 op mb place fun b s =>
    let blk := b.p.param op
    match b.inp 0, b.inp 1 with
    | some x, some sc =>
      let score := fun (i : Nat) => sc.at32 [0, i, 0, 0, 0, 0]
      let box := fun (i c : Nat) => x.at32 [c, i, 0, 0, 0, 0]
      let same := fun (i j : Nat) => match b.inp 2 with
        | some l => l.at32 [0, i, 0, 0, 0, 0] == l.at32 [0, j, 0, 0, 0, 0]
        | none => true
      let cand := byScore score ((List.range (x.td.dim 1)).filter fun i =>
        !isNan32 (score i) && !(d32 (score i)).lt (d32 (fld blk 4 4)))
      let r := suppressFrom (fun i j => same i j && boxesOver box (fld blk 0 4) i j) (fld blk 8 4) cand []
      let kept := r.1.toArray
      let s := s.storeGroveOpt b.p op 0 (b.out 0) fun e =>
        d32 (match kept[e.getD 1 0]? with
          | some i => b32OfNat i
          | none => 0xBF800000)
      let s := s.storeGroveOpt b.p op 1 (b.out 1) fun _ => d32 (b32OfNat kept.size)
      s.addCounts 0x07 op [b2n r.2]
    | _, _ => s)

end Sys2Proof.Machine
end

