-- ==== Sys2Proof/Machine/Mover.lean ====
section
/-! DEFINITION. MOVE (R204 to R207, R272) and PREFETCH (R208, R209). -/

namespace Sys2Proof.Machine

/-! ### Tile records in another layout (R205) -/

/-- The element codes of a tile record, row by row. -/
def TD.codes (t : TD) (el : Bytes) : Array Nat :=
  let a := el.toArray
  ((List.range 16384).map fun i => codeAt (arrByte a) (formatBits t.format) (t.elemIndex (i / 128) (i % 128))).toArray

/-- A block of a tile lies wholly in padding. -/
def TD.blockOut (t : TD) (c : List Nat) (j : Nat) : Bool :=
  if t.axis1 then decide (t.colsIn c ≤ j / 4) || decide (t.rowsIn c ≤ j % 4 * 32)
  else decide (t.rowsIn c ≤ j / 4) || decide (t.colsIn c ≤ j % 4 * 32)

/-- A source tile record as a destination record: TILE_ORDER converted, padding elements zero, blocks wholly in padding
with scale code 127 (R83, R205). DESIGN CHOICE, log 148. -/
def TD.recast (t u : TD) (c : List Nat) (el side : Bytes) : Bytes × Bytes :=
  let cs := t.codes el
  let code := fun (i : Nat) =>
    let r := if u.col then i % 128 else i / 128
    let k := if u.col then i / 128 else i % 128
    if r < u.rowsIn c && k < u.colsIn c then cs.getD (r * 128 + k) 0 else 0
  let all := (List.range 16384).map code
  let b := formatBits u.format
  let el' := if b = 3 || b = 2 then packBits b all else packCodes b all
  let scale := fun (x : Byte × Nat) => if u.blockOut c x.2 then 127#8 else x.1
  (el', if u.mode = 1 then (side.take 512).zipIdx.map scale ++ side.drop 512 else side)
where
  /-- Codes of 2 or 3 bits, eight to a group of bytes. -/
  packBits (b : Nat) (l : List Nat) : Bytes :=
    (List.range (l.length / 8)).flatMap fun g =>
      leBytes b (((l.drop (8 * g)).take 8).zipIdx.foldl (fun n x => n + x.1 * 2 ^ (b * x.2)) 0)

/-! ### MOVE -/

/-- Coordinates in IN0 of the tile that an OUT0 tile is copied from (R204). -/
def moveFrom (blk : Bytes) (c : List Nat) : List Nat := (List.range 6).map fun i => c.getD i 0 + fld blk (8 + 4 * i) 4

/-- The pieces that a MOVE reads, tile by tile. -/
def movePieces (blk : Bytes) (x o : TD) : List Piece :=
  o.tiles.flatMap fun c => x.recordPieces (x.tileIndex (moveFrom blk c))

/-- Splits what a peer answered for a tile record into elements and side data. -/
def splitRecord (x : TD) (ps : List Bytes) : Bytes × Bytes :=
  let b := ps.flatten
  (b.take x.elems, b.drop x.elems)

/-- Adds a tile's elements to the destination's by the memory-side adders (R205, R207, R214): each addend is rounded once
into the destination's format; padding is written as zero (R83). -/
def State.addTile (s : State) (u : TD) (c : List Nat) (t : TD) (el : Bytes) : State :=
  let idx := u.tileIndex c
  let r := s.readTile u idx
  let src := t.codes el
  let old := u.codes r.1
  let fmt := if u.format = 0 then AddFmt.b32 else AddFmt.b16
  let code := fun (i : Nat) =>
    let row := if u.col then i % 128 else i / 128
    let k := if u.col then i / 128 else i % 128
    let o := old.getD (row * 128 + k) 0
    if row < u.rowsIn c && k < u.colsIn c then addNew fmt o (src.getD (row * 128 + k) 0) else 0
  r.2.2.writeVa (u.recordAt idx).1 (packCodes (formatBits u.format) ((List.range 16384).map code))

/-- A local MOVE's tiles, in ascending order. Range watch counts no element of a MOVE. DESIGN CHOICE, log 147. -/
def State.copyTiles (s : State) (blk : Bytes) (add : Bool) (x o : TD) : State :=
  o.tiles.foldl (fun s c =>
    let r := s.readTile x (x.tileIndex (moveFrom blk c))
    if add then r.2.2.addTile o c x r.1
    else
      let y := x.recast o c r.1 r.2.1
      r.2.2.writeTile o (o.tileIndex c) y.1 y.2) s

/-- A peer MOVE is refused: FAULT_XLATE, with the peer's address in the record (R206, R250; DEDUCED, log 26). -/
def State.moveRefused (s : State) (op mb va : Nat) : State :=
  (s.faultEntry op mb 2 va 0 0 0).instFails op mb cFAULT_XLATE

/-- The send context of an instance holds nothing that the peer has not acknowledged. -/
def State.ctxSent (s : State) (p : Plan) (op mb dst : Nat) : Bool :=
  match (s.fab.ctxOf p.handle op mb dst).bind s.fab.ctx with
  | some c => c.waiting.isEmpty && c.unacked.isEmpty && !c.failed
  | none => false

/-- A MOVE that writes to a peer: each tile record goes as messages of the instance's context, in ascending tile order
(R206). -/
def State.movePush (s : State) (p : Plan) (op mb : Nat) (x o : TD) : State :=
  let blk := p.param op
  match s.permit op mb (agentCache 0) ((movePieces blk x o).map fun r => (r.va, r.len, false)) with
  | (s, false) => s
  | (s, true) =>
    match s.fab.ctxOf p.handle op mb (fld blk 2 2) with
    | none => s
    | some n =>
      (o.tiles.foldl (fun s c =>
        let r := s.readTile x (x.tileIndex (moveFrom blk c))
        let y := x.recast o c r.1 r.2.1
        if y.2.isEmpty then r.2.2.sendMessage n y.1
        else if o.trailing then (r.2.2.sendMessage n y.1).sendMessage n y.2
        else r.2.2.sendMessage n (y.1 ++ y.2)) (s.setInst op mb .sent))

/-- OUT0 is written from the pieces that a peer has answered with. -/
def State.movePull (s : State) (p : Plan) (op mb : Nat) (x o : TD) (ds : List Bytes) : State :=
  if ds.map List.length ≠ (movePieces (p.param op) x o).map (·.len) then s else
  match s.permit op mb (agentCache 0) (o.accs true) with
  | (s, false) => s
  | (s, true) =>
    let n := if x.side ≠ 0 && x.trailing then 2 else 1
    (o.tiles.zipIdx.foldl (fun s c =>
      let r := splitRecord x ((ds.drop (n * c.2)).take n)
      let y := x.recast o c.1 r.1 r.2
      s.writeTile o (o.tileIndex c.1) y.1 y.2) s).computed op mb

/-- MOVE begins: a local copy or addition runs in one event, a push sends its tiles, a pull asks for IN0's pieces unless
the peer is unreachable (R387). -/
def State.moveBegins (s : State) (st : Step) (p : Plan) (op mb : Nat) (x o : TD) : State :=
  let blk := p.param op
  if p.peerOut op then s.movePush p op mb x o
  else if p.peerIn op then
    if s.fab.unreachable (fld blk 2 2) then s.askFails op mb (fld blk 2 2) else
    (s.setInst op mb .sent).emits ((movePieces blk x o).map fun r => .peerReadRequest (fld blk 2 2) st.ring r.va r.len)
  else
    let add := bit (byteAt blk 0) 2
    let reads := (movePieces blk x o).map fun r => (r.va, r.len, false)
    match s.permit op mb (agentCache 0) (reads ++ (if add then o.accs false else []) ++ o.accs true) with
    | (s, false) => s
    | (s, true) => (s.copyTiles blk add x o).computed op mb

/-- What the peer of a MOVE answers: an empty list refuses it; for a push anything else says that the tiles have arrived,
once every flit of them is acknowledged; for a pull it is IN0's pieces. DEDUCED, log 114. -/
def State.moveAnswered (s : State) (p : Plan) (op mb : Nat) (x o : TD) (ds : List Bytes) : State :=
  if ds.isEmpty then s.moveRefused op mb (if p.peerOut op then o.va else x.va)
  else if p.peerOut op then
    (if s.ctxSent p op mb (fld (p.param op) 2 2) then s.computed op mb else s)
  else s.movePull p op mb x o ds

/-- MOVE (R204 to R207, R421): with no `data` the instance issues and begins; with `data` a peer answers it. -/
def execMove (op mb : Nat) (data : Option (List Bytes)) (s : State) : Host.Outcome State Fault Refusal :=
  .next (
    match data with
    | none =>
      (match s.enter 0x0060 op mb with
      | none => s
      | some (s, st, p) =>
        match p.inTd op 0 mb, p.outTd op 0 mb with
        | some x, some o => s.moveBegins st p op mb x o
        | _, _ => s)
    | some ds =>
      match s.stepPlan with
      | none => s
      | some (st, p) =>
        match st.inst op mb, p.inTd op 0 mb, p.outTd op 0 mb with
        | some i, some x, some o =>
          if s.powered && st.st == .running && !st.stopped && i.st == .sent then s.moveAnswered p op mb x o ds else s
        | _, _, _ => s)

/-! ### PREFETCH (R208, R209) -/

/-- Target T1: the lines of the tensor are placed in their homing Floor caches, in ascending tile order, as long as they fit
beside those of the tensor before them; a migrating page's are not (R195). -/
def State.placeTensor (s : State) (t : TD) : State :=
  (t.spans.foldl (fun (a : State × List Nat) x => (chunksOf x.va x.len).foldl (fun (a : State × List Nat) c =>
    match a.1.spot c.1 false with
    | .ok (r, off) =>
      let k := r.key off / 64
      if a.1.rgn.migrating r.id (off / pageBytes) then a
      else (upFrom k ((r.key off + c.2 - 1) / 64 + 1 - k)).foldl (fun (a : State × List Nat) l =>
        let h := a.1.rgn.homeOf l
        if a.2.getD h 0 < floorLines then
          ({ a.1 with coh := a.1.coh.place a.1.rgn r l 1 }, a.2.set h (a.2.getD h 0 + 1))
        else a) a
    | .error _ => a) a) (s, [0, 0])).1

/-- Target T2: every unpinned page of the tensor in T3 takes heat 255 and is promoted where there is room (R194), those past
the limit of 64 as migrations end. DEDUCED, log 115. -/
def State.promoteTensor (s : State) (t : TD) : State :=
  t.spans.foldl (fun s x => (chunksOf x.va x.len).foldl (fun s c =>
    match s.spot c.1 false with
    | .ok (r, off) =>
      let page := off / pageBytes
      if r.kind = 1 && !r.inT2.contains page && !r.pinned.contains page then
        { s with rgn := (s.rgn.put { r with heat := r.heat.set page 255 }).promote r.id page }
      else s
    | .error _ => s) s) s

/-- PREFETCH (R208, R209): it runs in task-graph order and completes OK, having placed what fitted. -/
def execPrefetch (op mb : Nat) (s : State) : Host.Outcome State Fault Refusal :=
  .next (
    match s.enter 0x0061 op mb with
    | none => s
    | some (s, _, p) =>
      match p.inTd op 0 mb with
      | none => s
      | some t =>
        match s.permit op mb (agentCache 0) (t.accs false) with
        | (s, false) => s
        | (s, true) =>
          (if bits (byteAt (p.param op) 0) 1 0 = 0 then s.placeTensor t else s.promoteTensor t).computed op mb)

end Sys2Proof.Machine
end

