-- ==== Sys2Proof/Machine/Steps.lean ====
section
/-! DEFINITION. Steps: STEP_SUBMIT and STEP_REPLAY (R284, R331, R332, R357, R358, R397, R522, R605), the start of a step
(R213, R294, R310, R332, R348 to R350), instances' completion (R219, R326, R328), the vote (R303, R336, R353), verdict
messages (R338, R339, R343), hold notices (R634), MODE_SCHEDULE, RING_QUERY and STEP_RECORD (R348, R361, R523 to R525). -/

namespace Sys2Proof.Machine

/-! ### Modes and formats at a ring (R73, R78, R348, R349) -/

/-- The mode entries in force at ring M, the latest ring's first. -/
def Plan.modesAt (p : Plan) (m : Nat) : List ModeEntry :=
  ((sortBy (·.1) (p.modes.filter fun e => decide (e.1 ≤ m))).map (·.2)).reverse

/-- The formats in force at ring M. DEDUCED, log 90. -/
def Plan.formatsAt (p : Plan) (m : Nat) : AL Nat :=
  (p.escalations.filter fun e => decide (e.ring ≤ m)).foldl (fun l e => l.set e.desc e.fmt) p.base

/-- The mode stamp at ring M: the ring of the latest change in force, the count of changes modulo 2^16 (R349). -/
def Plan.stampAt (p : Plan) (m : Nat) : BitVec 64 :=
  let rings := (p.modes.map (·.1) ++ p.escalations.map (·.ring)).filter fun r => decide (r ≤ m)
  BitVec.ofNat 64 ((p.stampCount + rings.length) % 2 ^ 16 * 2 ^ 48 + rings.foldl max p.stampRing)

/-- The plan at the start of step M: escalations that only steps from M on could have scheduled are dropped (R74, R78),
formats and modes are those of ring M (R350). -/
def Plan.atRing (p : Plan) (m : Nat) : Plan :=
  let p := { p with escalations := p.escalations.filter fun e => decide (e.ring < m + 2) }
  { p with formats := p.formatsAt m, inForce := p.modesAt m, before := p.modesAt (m - 1) }

/-! ### STEP_SUBMIT and STEP_REPLAY -/

/-- A fabric operation (R522). -/
def Plan.isFabricOp (p : Plan) (i : Nat) : Bool :=
  let c := (p.op i).code
  c == 0x0030 || c == 0x0031 || c == 0x0032 || p.peerIn i || p.peerOut i

/-- The device accepts ring N for a step (R331). -/
def State.accepts (s : State) (n : Nat) : Bool :=
  let adv := fun (o : Option Step) => match o with
    | some st => !st.verdictFree
    | none => false
  (n == s.deviceRing + 1 && !adv s.stp.current && !adv s.stp.queued)
    || (n == s.deviceRing + 2 && adv s.stp.current && !adv s.stp.queued)

/-- The state that a step of the plan needs has been reached (R284, R522, R605). -/
def State.planReady (s : State) (p : Plan) : Bool :=
  let held := s.held
  let shardsOk := held.all fun d => (p.auOf d.shard).isSome && (s.trn.selOf d.shard).valid
    && (s.trn.selOf d.shard).ring == s.deviceRing
  (!p.hasVerdict || shardsOk)
    && (!(List.range (p.count 2)).any p.isFabricOp || s.fab.fs == .ready || s.fab.fs == .partly)
    && !p.continuityBad

/-- The addresses that an operation names (R397). -/
def State.opAddrs (s : State) (p : Plan) (i : Nat) : List Nat :=
  let c := (p.op i).code
  if c = 0x0030 || c = 0x0031 then
    match s.trn.shard (p.shardOf i) with
    | some d => let l := p.lineOf i; (List.range l.count).map (l.at d.owner)
    | none => []
  else if p.peerIn i || p.peerOut i then [fld (p.param i) 2 2] else []

/-- A plan names an address that is not a member. -/
def State.namesAbsent (s : State) (p : Plan) : Bool :=
  (List.range (p.count 2)).any fun i => (s.opAddrs p i).any fun a => !s.fab.isMember a

/-- The entries of a step record's bytes (R362). -/
def recordEntries (b : Bytes) : List Bytes :=
  (List.range (min 4096 (fld b 0x18 4))).map fun i => (b.drop (0x140 + 32 * i)).take 32

/-- Bytes of a step record (R525). -/
def recordLen (b : Bytes) : Nat := 0x140 + 32 * min 4096 (fld b 0x18 4)

/-- The decided record of an attempt. -/
def Stp.recordOf (t : Stp) (ring attempt : Nat) : Option StepRecord :=
  t.records.find? fun r => r.ring == ring && r.attempt == attempt && r.decided

/-- The record that a replay runs from: the device's own, or a copy (R357, R522, R636). -/
def State.replaySource (s : State) (ring attempt va : Nat) : Except (Nat × State) (Bytes × State) :=
  if va = 0 then
    match s.stp.recordOf ring attempt with
    | some r => .ok (r.bytes, s)
    | none => .error (cBAD_ARG, s)
  else if !vaOk va then .error (cBAD_ARG, s)
  else
    match s.cmdAccess va 0x140 false cBAD_ARG with
    | .error e => .error e
    | .ok s =>
      let h := s.readVa va 0x140
      if fld h.1 0 6 ≠ ring || fld h.1 6 2 ≠ attempt then .error (cBAD_ARG, h.2)
      else
        match h.2.cmdAccess va (recordLen h.1) false cBAD_ARG with
        | .error e => .error e
        | .ok s => .ok (s.readVa va (recordLen h.1))

/-- A new step of a plan, queued (R332). DEDUCED, log 89. -/
def newStep (q : Req) (p : Plan) (attempt ls : Nat → Int) (n : Nat) (src : Option Bytes) (now : Nat) : Step :=
  { tag := q.tag, plan := p.handle, ring := n, attempt := (attempt n).toNat, replay := src.isSome
    fromAttempt := if src.isSome then q.f 2 2 else 0
    source := match src with | some b => recordEntries b | none => []
    verdictFree := !p.hasVerdict, st := .queued, round := 0, stamp := 0, lsExp := ls n, insts := [], phases := []
    entries := [], watch := [], crossings := [], nonfinite := [], disputes := [], holdCode := 0, released := false
    stopped := false, k := none, vround := none, last := none, resumed := false, digests := [], diverged := 0
    tick := now }

/-- The checks 2 to 5 of R331, and acceptance: the step is queued, with its state word and its record. Before a replay the
shards are classified; one whose ring turns out to be committed is not replayed (R313). -/
def State.acceptStep (s : State) (q : Req) (p : Plan) (n : Nat) (src : Option Bytes) : State × Resp :=
  if s.stp.queued.isSome then (s, rcode cBUSY)
  else if !s.accepts n || (src.isSome && n != s.deviceRing + 1) then (s, rcode cBAD_ARG)
  else if !s.planReady p then (s, rcode cNOT_READY)
  else if s.namesAbsent p then (s, rcode cFABRIC_PARTIAL)
  else match (if src.isSome then s.slotsWait else none) with
  | some s => (s, rcode cWAIT)
  | none =>
    let s := if src.isSome then s.settleClasses n else s
    if n ≤ s.deviceRing then (s, rcode cBAD_ARG) else
    let a := s.stp.attempts.getD n 0
    let ls : Int := match src with
      | some b => intOfByte (byteAt b 0x0A)
      | none => p.lsExp
    let st := newStep q p (fun _ => a) (fun _ => ls) n src s.aon.tick.toNat
    let rs := s.stp.records ++ [⟨n, a, false, []⟩]
    ({ s with
        stp := { s.stp.newWord q.tag .queued with
          queued := some st
          attempts := s.stp.attempts.set n ((a + 1) % 2 ^ 16)
          records := rs.drop (rs.length - 64) }
        gld := { (if src.isSome then s.gld.freePreps (fun r => r.ring == n) else s.gld) with latest := if (p.opsOf 0x0050).isEmpty then s.gld.latest else some p.handle } },
      rcode cACCEPTED)

/-- The body of STEP_SUBMIT. -/
def stepSubmitBody (q : Req) (s : State) : State × Resp :=
  match s.pln.get (q.f 0 2) with
  | none => (s, rcode cBAD_ARG)
  | some p =>
    if !(q.zb 2 6 && q.zb 0x10 8) || 2 ^ 48 ≤ q.f 8 8 then (s, rcode cBAD_ARG)
    else s.acceptStep q p (q.f 8 8) none

/-- STEP_SUBMIT (R284, R331, R332, R347, R522). -/
def execStepSubmit (k : SlotId) (s : State) : Host.Outcome State Fault Refusal :=
  .next (s.take k (·.opcode == 0x0303) stepSubmitBody)

/-- The body of STEP_REPLAY. DEDUCED, log 71. DEDUCED, log 91. -/
def stepReplayBody (q : Req) (s : State) : State × Resp :=
  match s.pln.get (q.f 0 2) with
  | none => (s, rcode cBAD_ARG)
  | some p =>
    if !q.zb 4 4 || 2 ^ 48 ≤ q.f 8 8 then (s, rcode cBAD_ARG)
    else
      match s.replaySource (q.f 8 8) (q.f 2 2) (q.f 0x10 8) with
      | .error (c, s) => (s, rcode c)
      | .ok (b, s) => s.acceptStep q p (q.f 8 8) (some b)

/-- STEP_REPLAY (R331, R332, R357, R358, R522, R636). -/
def execStepReplay (k : SlotId) (s : State) : Host.Outcome State Fault Refusal :=
  .next (s.take k (·.opcode == 0x0304) stepReplayBody)

/-! ### MODE_SCHEDULE, RING_QUERY, STEP_RECORD -/

/-- A value admitted for a field of an ARRIVAL_UPDATE by R293, and the field used by its program (R523). -/
def modeOk (program field v : Nat) : Bool :=
  let unit := !fneg? v && (d32 v).lt (d32 one32)
  isFin32 v && (match field with
    | 1 => !fneg? v
    | 2 => !fneg? v
    | 3 => unit
    | 4 => program == 2 && unit
    | 5 => program == 2 && fpos v
    | 6 => fpos v
    | 7 => !fneg? v
    | 8 | 9 | 10 | 11 => program == 3
    | _ => false)

/-- The entries of a MODE_SCHEDULE request. -/
def modeEntries (q : Req) : List ModeEntry :=
  (List.range (q.f 2 2)).map fun e => ⟨q.f (0x10 + 8 * e) 2, q.f (0x12 + 8 * e) 1, q.f (0x14 + 8 * e) 4⟩

/-- A mode record's entries with one more; a later entry for the same ring, operation and field replaces (R523). -/
def addMode (l : List (Nat × ModeEntry)) (m : Nat) (e : ModeEntry) : List (Nat × ModeEntry) :=
  l.filter (fun x => !(x.1 == m && x.2.op == e.op && x.2.field == e.field)) ++ [(m, e)]

/-- The body of MODE_SCHEDULE (R348, R523). -/
def modeScheduleBody (q : Req) (s : State) : State × Resp :=
  let m := q.f 8 8
  let n := q.f 2 2
  match s.pln.get (q.f 0 2) with
  | none => (s, rcode cBAD_ARG)
  | some p =>
    let es := modeEntries q
    let bad := fun (e : ModeEntry) => decide (p.count 2 ≤ e.op) || (p.op e.op).code != 0x0040
      || !modeOk (bits (byteAt (p.param e.op) 4) 1 0) e.field e.value
    if !q.zb 4 4 || n = 0 || 246 < n || 2 ^ 48 ≤ m
        || (List.range n).any (fun e => !q.zb (0x13 + 8 * e) 1) || es.any bad then (s, rcode cBAD_ARG)
    else if m ≤ s.deviceRing || (match s.stp.current with | some st => st.ring == m | none => false) then
      (s, rcode cTOO_LATE)
    else ({ s with pln := s.pln.put { p with modes := es.foldl (fun l e => addMode l m e) p.modes } }, rcode cOK)

/-- MODE_SCHEDULE (R348, R523). -/
def execModeSchedule (k : SlotId) (s : State) : Host.Outcome State Fault Refusal :=
  .next (s.take k (·.opcode == 0x0305) modeScheduleBody)

/-- The body of RING_QUERY (R349, R523, R524). -/
def ringQueryBody (q : Req) (s : State) : State × Resp :=
  let h := q.f 0 2
  let m := q.f 8 8
  let p := s.pln.get h
  if !q.zb 2 6 || (h ≠ 0xFFFF && p.isNone) || m ≤ s.deviceRing then (s, rcode cBAD_ARG)
  else
    let tagOf := fun (o : Option Step) => match o with
      | some st => st.tag
      | none => noTag
    (s, some (cOK,
      leBytes 8 s.deviceRing
        ++ leBytes 8 (match p with | some p => (p.stampAt m).toNat | none => 0)
        ++ leBytes 8 s.trn.resSel.word
        ++ leBytes 8 ((s.trn.commit.map (·.1)).getD 0)
        ++ (match s.stp.vote with
          | some v => leBytes 6 v.v.ring ++ leBytes 2 v.v.round
          | none => zeros 8)
        ++ leBytes 1 (match p with | some p => byteOfInt p.lsExp | none => 0) ++ zeros 1
        ++ leBytes 2 (match p with | some p => p.clean | none => 0)
        ++ leBytes 4 (tagOf s.stp.active) ++ leBytes 4 (tagOf s.stp.queued) ++ zeros 12))

/-- RING_QUERY (R523, R524). -/
def execRingQuery (k : SlotId) (s : State) : Host.Outcome State Fault Refusal :=
  .next (s.take k (·.opcode == 0x0306) ringQueryBody)

/-- The body of STEP_RECORD (R361, R525, R636). -/
def stepRecordBody (q : Req) (s : State) : State × Resp :=
  let off := q.f 4 4
  let va := q.f 0x10 8
  match s.stp.recordOf (q.f 8 8) (q.f 2 2) with
  | none => (s, rcode cBAD_ARG)
  | some r =>
    if !q.zb 0 2 || off % 32 ≠ 0 || r.bytes.length ≤ off || !vaOk va || va % 64 ≠ 0 || (va ≠ 0 && off ≠ 0) then
      (s, rcode cBAD_ARG)
    else if va = 0 then (s, some (cOK, (r.bytes.drop off).take 1984))
    else
      match s.cmdAccess va r.bytes.length true cFAULT_XLATE with
      | .error (c, s) => s.cmdFailed c fun s => s.undefineVa va r.bytes.length
      | .ok s => ((s.writeVa va r.bytes).fence, some (cOK, leBytes 4 r.bytes.length ++ zeros 4))

/-- STEP_RECORD (R361, R525, R636). -/
def execStepRecord (k : SlotId) (s : State) : Host.Outcome State Fault Refusal :=
  .next (s.take k (·.opcode == 0x0307) stepRecordBody)

/-! ### Hold notices -/

/-- The active step is released by a notice it has received (R634). -/
def State.heedNotices (s : State) : State :=
  match s.stp.active with
  | none => s
  | some st =>
    if st.st == .running && !st.verdictFree && !st.stopped
        && s.stp.notices.any fun n => n.ring == st.ring && n.attempt == st.attempt && n.round == st.round
    then (s.stopStep).vote { s.contribution st with hold := 0, holdCode := 0 } true
    else s

/-- HOLD_NOTICE (R634): kept, flooded on, and heeded. -/
def execHoldNotice (ring attempt round bundle : Nat) (s : State) : Host.Outcome State Fault Refusal :=
  .next (
    let n : Notice := ⟨ring, attempt, round⟩
    if !s.powered || s.stp.notices.contains n || ring ≤ s.deviceRing then s
    else (({ s with stp := { s.stp with notices := (s.stp.notices.filter fun (x : Notice) => decide (s.deviceRing < x.ring)) ++ [n] } }
      ).floodNotice ring attempt round bundle).heedNotices)

/-! ### STEP_START -/

/-- The entries that step M's mode changes give its record: the escalations applied at M, and the new stamp (R73, R363). -/
def State.modeNotes (s : State) (st : Step) (p : Plan) : List Bytes :=
  (s.pln.plans.flatMap fun x => (x.escalations.filter (·.ring == st.ring)).map fun e =>
      recEntry 4 (leBytes 2 e.desc ++ leBytes 2 x.handle ++ leBytes 1 e.old ++ leBytes 1 e.fmt ++ leBytes 8 e.ring))
    ++ (let w := p.stampAt st.ring
        if w.toNat % 2 ^ 48 = st.ring then [recEntry 0x0E (leBytes 8 w.toNat)] else [])

/-- The queued step starts. -/
def State.startStep (s : State) (q : Step) : State :=
  let s := if q.verdictFree then s
    else { s with pln := { s.pln with plans := s.pln.plans.map (·.atRing q.ring) } }
  match s.pln.get q.plan with
  | none => s
  | some p =>
    let q := { q with
      st := .running, stamp := p.stampAt q.ring, tick := s.aon.tick.toNat
      entries := if q.verdictFree then [] else s.modeNotes q p }
    let s := { s with
      stp := { s.stp.moveWord q.tag .running with queued := none, active := some q }
      mem := { s.mem with
        bwFloor := (List.range 16).map fun k => p.setting (0x40 + 4 * k) 1
        bwCeil := (List.range 16).map fun k => p.setting (0x41 + 4 * k) 1 } }
    let s := s.adoptPreps q p
    if s.gladeHalted q then s.localHold cSAMPLE_BAD
    else
      let s := (s.heedNotices.redeliver).servePeers
      if q.verdictFree && p.instances.isEmpty then s.endFree cOK else s

/-- STEP_START (R213, R332, R348 to R350): nothing starts while a recovery is owed (R355) or after a bridge failure
has stopped the device from starting steps. -/
def execStepStart (s : State) : Host.Outcome State Fault Refusal :=
  .next (match s.stp.queued with
    | some q =>
      if s.powered && s.dev.mode == .ready && s.stp.active.isNone && s.stp.resume.isNone && !s.dev.haltSteps
      then s.startStep q else s
    | none => s)

/-! ### Instances complete; the VERDICT -/

/-- Some instance of an operation that has overflowed has still to run its blocks to their final level, and waits for no other
overflowed instance of it (R124). -/
def Step.rangeWaits (st : Step) (p : Plan) (op : Nat) : Bool :=
  let full := fun (b : Nat) => (st.inst op b).any fun i => i.st == .computed cRANGE
  (p.mbs op).any fun b => match st.inst op b with
    | some ⟨_, _, .done _⟩ | some ⟨_, _, .computed _⟩ => false
    | _ => !(p.before_ (op, b)).any fun x => x.1 == op && x.2 != b && full x.2

/-- INSTANCE_COMPLETE (R124, R219, R326, R328): after its fence the instance is complete; the last of a verdict-free step ends
the step; peer reads that waited for it are served (R421). -/
def execInstanceComplete (op mb : Nat) (s : State) : Host.Outcome State Fault Refusal :=
  .next (
    match s.stepPlan with
    | none => s
    | some (st, p) =>
      match st.inst op mb with
      | some ⟨_, _, .computed c⟩ =>
        if st.stopped || !s.powered || (c == cRANGE && st.rangeWaits p op) then s else
        let s := (if c = cOK then s.instDone op mb c else s.instFails op mb c).servePeers
        match s.stepPlan with
        | some (st, p) =>
          if st.verdictFree && p.instances.all st.finished then s.endFree cOK else s
        | none => s
      | _ => s)

/-- VERDICT (R327, R419): its instance issues once everything before it has completed; its work is the vote. -/
def execVerdict (op : Nat) (s : State) : Host.Outcome State Fault Refusal :=
  .next (match s.enter 0x0032 op 0 with
    | some (s, _, _) => s
    | none => s)

/-- The copies found bad by the sweep: counted, listed, and fetched again, to be written when they come (R353). -/
def State.sweepNotes (s : State) (p : Plan) : State :=
  let bad := s.sweep p
  let s := bad.foldl (fun s b => match s.fab.gather b.1.shard b.1.gather with
    | some c => s.setChain { c with
        written := c.written.filter (· != b.2.1), retries := c.retries.set b.2.1 (c.retries.getD b.2.1 0 + 1) }
    | none => s) s
  (s.onStep fun st => { st with
    diverged := bad.length
    entries := st.entries ++ bad.map fun b => recEntry 0x0F (leBytes 4 b.1.shard ++ leBytes 4 b.2.1 ++ leBytes 2 b.2.2) }).emits
    (bad.map fun b => .gatherRefetch b.2.2 b.1.shard b.1.gather b.2.1)

/-- The twin-owned shards held here whose blaze differs from what the other twin has reported (R278). -/
def State.twinMisses (s : State) (st : Step) (twins : List (Nat × BitVec 64)) : List (Nat × Nat) :=
  (s.held.filter fun d => d.twinEn && (match s.sealOf st d, twins.find? (·.1 == d.shard) with
    | some x, some t => x.blaze != t.2.toNat
    | _, _ => false)).map fun d => (d.shard, 0)

/-- VOTE_RECORD_WRITE (R303, R336, R342, R353): in round 0 once everything before the VERDICT has completed and every
twin has reported; in round 1 once every dispute is settled. DEDUCED, log 46. -/
def execVoteRecordWrite (twins : List (Nat × BitVec 64)) (s : State) : Host.Outcome State Fault Refusal :=
  .next (s.onSlots fun s =>
    match s.stepPlan with
    | none => s
    | some (st, p) =>
      if !s.powered || st.st != .running || st.stopped || st.verdictFree then s
      else if st.round = 0 then
        match p.opsOf 0x0032 with
        | v :: _ =>
          if (p.preds v 0).all st.finished && (s.held.filter (·.twinEn)).all fun d => twins.any (·.1 == d.shard) then
            let s := (s.sweepNotes p).onStep fun x => { x with disputes := s.twinMisses st twins }
            match s.stp.active with
            | some st => ((s.heedNotices).vote (s.contribution st) false).owedHold.serveFetches
            | none => s
          else s
        | [] => s
      else if (st.disputes.all (·.2 == 1)) && s.trn.referees.isEmpty then
        (s.vote (s.contribution st) false).serveFetches
      else s)

/-- A verdict message names an earlier ring, or an earlier round of the ring, than the device is at (R338). -/
def State.verdictStale (s : State) (v : Verdict) : Bool :=
  match s.stp.active with
  | some st => !st.verdictFree && (decide (v.ring < st.ring) || (v.ring == st.ring && decide (v.round < st.round)))
  | none => decide (v.ring ≤ s.deviceRing)

/-- A verdict that is whole, its watch list with it, is kept until it can be combined, and what can move moves. -/
def State.hearVerdict (s : State) (m : VerdictMsg) : State :=
  (verdictMoves 8 { s with stp := { s.stp with waitVerdict := s.stp.waitVerdict ++ [m] } }).owedHold.heedNotices.serveFetches

/-- VERDICT_MESSAGE (R338 to R342, R344, R419): a round-0 verdict waits for the messages of its watch list, which follow it; one of
an earlier ring or round raises FAULT and holds. DEDUCED, log 93. -/
def execVerdictMessage (m : VerdictPart) (s : State) : Host.Outcome State Fault Refusal :=
  .next (s.onSlots fun s =>
    if !s.powered then s else
    match m with
    | .verdict axis bcast src v =>
      (if s.verdictStale v then (s.raise aFAULT cINTERNAL noTag (unitField uFloor 0 0) 0).localHold cINTERNAL
      else if v.round = 0 then
        { s with stp := { s.stp with partVerdicts := s.stp.partVerdicts ++ [⟨axis, bcast, src, v, []⟩] } }
      else s.hearVerdict ⟨axis, bcast, src, v, []⟩)
    | .watch axis bcast src es last =>
      match s.stp.partVerdicts.find? fun x => x.axis == axis && x.bcast == bcast && x.src == src with
      | none => s
      | some x =>
        let rest := s.stp.partVerdicts.erase x
        let x := { x with watch := x.watch ++ es }
        if last then ({ s with stp := { s.stp with partVerdicts := rest } }).hearVerdict x
        else { s with stp := { s.stp with partVerdicts := rest ++ [x] } })

/-- VERDICT_TIMEOUT (R343, R399): PL_VTIMEOUT after the vote STEP_HELD attention goes up, and the device keeps
waiting. -/
def execVerdictTimeout (s : State) : Host.Outcome State Fault Refusal :=
  .next (match s.stp.active with
    | some st => if s.powered && st.st == .voted then s.raise aSTEP_HELD 0 st.tag st.ring st.attempt else s
    | none => s)

end Sys2Proof.Machine
end

