-- ==== Sys2Proof/Machine/Session.lean ====
section
/-! DEFINITION. HELLO and the end of host-staleness (R471, R472, R512), ABORT (R333, R481, R515), and DEVICE_RESET of kind
CONTEXT (R516, R580). -/

namespace Sys2Proof.Machine

/-! ### HELLO -/

/-- Cores' and agents' accesses that wait at host-stale pages fail: a core meets an access fault (R472). -/
def State.failStaleTxns (s : State) : State :=
  let hits := fun (t : Txn) => match s.rgn.get t.region with
    | some r => r.stalePage (t.off / pageBytes) && t.who.isSome
    | none => false
  let lost := (s.coh.txns ++ s.coh.waiting).filter hits
  let s := { s with coh := { s.coh with
    txns := s.coh.txns.filter fun t => !hits t
    waiting := s.coh.waiting.filter fun t => !hits t } }
  lost.foldl (fun s t => match t.who with
    | some (.core ⟨n, _⟩) => (s.coreWaits t false).emit (.coreFault n t.op.exclusive)
    | _ => s) s

/-- Host-staleness ends (R472): what waited goes on, or has failed when the host's memory was not kept. -/
def State.endStale (s : State) (kept : Bool) : State :=
  let s := if kept then s else (s.failStaleTxns).gladeHostLost.dmaStaleLost
  let s := s.endHostWait kept
  let lost := s.fab.peerReads.filter fun r => (chunksOf r.va r.len).any fun c => match s.rgn.byVa c.1 with
    | some (x, off) => x.stalePage (off / pageBytes)
    | none => false
  let refused := { s with
    fab := { s.fab with peerReads := s.fab.peerReads.filter fun r => !lost.contains r }
    out := s.out ++ lost.map fun r => Output.peerRefuse r.src }
  let s := if kept then s else refused
  let fresh := fun (r : Region) => { r with stale := false }
  let s := { s with rgn := { s.rgn with regions := s.rgn.regions.map fresh } }
  (s.retryHeld).wakeChans.servePeers

/-- The body of HELLO (R472, R512): the first of the host after the link has come back ends host-staleness. -/
def helloBody (q : Req) (s : State) : State × Resp :=
  let kept := bit (q.f 2 2) 0
  if !(q.rz 2 2 15 1 && q.zb 4 4) || (q.fromCore && kept) then (s, rcode cBAD_ARG)
  else if q.f 1 1 ≠ 1 then (s, rcode cVERSION)
  else
    let s := if q.fromCore || s.hst.helloSeen then s
      else ({ s with hst := { s.hst with helloSeen := true } }).endStale kept
    (s, some (cOK, leBytes 2 0x0100 ++ leBytes 1 s.dev.mode.code ++ leBytes 1 s.fab.fs.code
      ++ leBytes 2 (match s.fab.addr with | some a => 2 ^ 15 + a | none => 0) ++ zeros 2 ++ leBytes 8 s.deviceRing))

/-- HELLO (R472, R512). -/
def execHello (k : SlotId) (s : State) : Host.Outcome State Fault Refusal :=
  .next (s.take k (·.opcode == 0x0101) helloBody)

/-! ### ABORT -/

/-- The reply payload of ABORT: AR_CODE. -/
def abortReply (code c : Nat) : Resp := some (code, leBytes 1 c ++ zeros 7)

/-- A running step is aborted: its word is DONE with ABORTED, and the device sends a hold vote (R333, R356).
DEDUCED, log 92. -/
def State.abortActive (s : State) (st : Step) : State :=
  if st.verdictFree then s.endFree cABORTED
  else ({ s with stp := s.stp.moveWord st.tag (.done cABORTED) }).localHold cABORTED

/-- The step that a warm reset has interrupted is aborted: its word is DONE with ABORTED, and its recovery ends in a hold
vote with ABORTED (R333, R355). -/
def State.abortOwed (s : State) (tag : Nat) : State :=
  let hold := fun (st : Step) => { st with holdCode := if st.holdCode = 0 then cABORTED else st.holdCode }
  { s with stp := { s.stp.moveWord tag (.done cABORTED) with
    resume := s.stp.resume.map fun (r : Resume) => { r with step := r.step.map hold } } }

/-- The body of ABORT (R333, R481, R515). -/
def abortBody (q : Req) (s : State) : State × Resp :=
  let tag := q.f 0 4
  if !q.zb 4 4 then (s, rcode cBAD_ARG) else
  let live := s.dma.chans.any fun c => (c.2.shadow.valid && !c.2.shadow.ended && c.2.shadow.tag == tag)
    || (c.2.busy && c.2.active.tag == tag)
  match (s.stp.words.find? (·.tag == tag)).filter fun w => !(live && (s.stp.doneCode w.tag).isSome) with
  | some w =>
    (match w.st, s.stp.active with
    | .queued, _ => (s.abortQueued, abortReply cOK 0)
    | .running, some st => (s.abortActive st, abortReply cOK 0)
    | .running, none => (s.abortOwed w.tag, abortReply cOK 0)
    | .voted, _ => (s, rcode cBUSY)
    | .done c, _ => (s, abortReply cTOO_LATE c))
  | none =>
    match s.dmaAbort tag with
    | some (s, code, c) => (s, abortReply code c)
    | none => (s, rcode (if s.mbx.prog.any (·.tag == tag) then cBUSY else cBAD_ARG))

/-- ABORT (R333, R481, R515). -/
def execAbort (k : SlotId) (s : State) : Host.Outcome State Fault Refusal :=
  .next (s.take k (·.opcode == 0x0104) abortBody)

/-! ### DEVICE_RESET, CONTEXT -/

/-- What a context reset removes and keeps (R516, R580); window accesses that waited then meet no registration (R462);
bad lines stay counted (R225) under keys that no region made later uses.
DEDUCED, log 104. -/
def State.contextReset (s : State) : State :=
  let s := ({ s with dma := s.dma.endAll cABORTED }).stopCores.fence.freeBacking
  let s := { s with
    rgn := { Rgn.reset with hdmBase := s.rgn.hdmBase }
    coh := Coh.reset
    mem := { s.mem with
      poison := s.mem.poison.filter fun l => decide (2 ^ 60 ≤ l)
      badLines := s.mem.badLines.map fun (x : Nat × Nat) => (x.1, x.2 + 2 ^ 61)
      bwFloor := Mem.reset.bwFloor, bwCeil := Mem.reset.bwCeil }
    pln := { Pln.reset with lastHandle := s.pln.lastHandle }
    trn := Trn.reset
    stp := { s.stp with vote := none, verdicts := [], notices := [], partVerdicts := [], waitVerdict := [], resume := none }
    gld := Gld.reset
    eng := { Eng.reset with lastTask := s.eng.lastTask }
    fab := { s.fab with
      send := s.fab.send.filter fun c => decide (c.ctx < 1024)
      chains := [], earlyMsgs := [], gatherReqs := []
      peerReads := []
      retired := s.fab.retired } }
  s.retryWindows

/-- DR_KIND. -/
def drKind (q : Req) : Nat := q.f 4 1 % 2

/-- The reserved fields and the confirmation of DEVICE_RESET. -/
def drOk (q : Req) : Bool := q.f 0 4 == 0x52535430 && q.rz 4 1 7 1 && q.zb 5 3

/-- The body of DEVICE_RESET with DR_KIND CONTEXT (R516). -/
def contextBody (q : Req) (s : State) : State × Resp :=
  if !drOk q then (s, rcode cBAD_ARG)
  else if s.stepActive || s.stp.queued.isSome then (s, rcode cBUSY)
  else (s.contextReset, rcode cOK)

/-- DEVICE_RESET with DR_KIND CONTEXT (R516, R580). DEDUCED, log 32. -/
def execDeviceResetContext (k : SlotId) (s : State) : Host.Outcome State Fault Refusal :=
  .next (s.take k (fun q => q.opcode == 0x0105 && drKind q == 0) contextBody)

end Sys2Proof.Machine
end

