-- ==== Sys2Proof/Machine/Power.lean ====
section
/-! DEFINITION. Power, clocks and start-up: the cold start (R570 to R575), resets (R576 to R580), thermal trips (R561 to
R564), low-power states (R220, R554, R555), unit failures (R44), DEVICE_RESET of kind WARM (R516) and FW_ACTIVATE (R591). -/

namespace Sys2Proof
open Machine

/-- A line of the self-test report is a failed unit: a port that does not train with its far end is not (R44, R574). -/
def SelfTestEntry.isFailure (e : SelfTestEntry) : Bool := !((e.unit.kind == uLane || e.unit.kind == uHostPort) && e.result == 2)

/-- Units that a step's test finds failed. DEDUCED, log 122. -/
def StartInputs.failedAt (inp : StartInputs) (step : Nat) : List SelfTestEntry :=
  inp.failed.filter fun e => e.unit.wf && e.isFailure && (
    let at_ := if e.unit.kind = uBridge then 9 else if e.unit.kind = uStack || e.unit.kind = 5 || e.unit.kind = uMc then 10
      else 11
    at_ == step)

/-- Unit kind and number of a block that monitors its temperature (R564). -/
def ThermalBlock.unit : ThermalBlock → UnitRef
  | .canopy n => ⟨uCanopy, n⟩
  | .floor n => ⟨uFloor, n⟩
  | .server n => ⟨uServer, n⟩
  | .stack n => ⟨uStack, n⟩

/-- Trip and critical temperatures in units of 0.125 °C; a stack has no trip (R561). -/
def ThermalBlock.trip : ThermalBlock → Option Nat
  | .stack _ => none
  | _ => some 840

def ThermalBlock.critical : ThermalBlock → Nat
  | .stack _ => 840
  | _ => 920

/-- The unit field of a block at a temperature (R564). -/
def ThermalBlock.field (b : ThermalBlock) (temp : Nat) : Nat := unitField b.unit.kind b.unit.num temp

end Sys2Proof

namespace Sys2Proof.Machine

/-! ### Steps 7 and 8: firmware and identity -/

/-- The boot ROM takes the selected bank, or else the other one with FW_NOTE attention (R588); none when both fail to
verify. -/
def State.bootBank (s : State) : Option (State × Running) :=
  let b := s.aon.selectedBank
  let try_ := fun (n : Nat) =>
    let x := s.aon.banks.getD n []
    if (s.aon.verifyImage x).isNone then some (runningOf n x) else none
  match try_ b with
  | some r => some (s, r)
  | none => (try_ (1 - b)).map fun r =>
      (({ s with dev := { s.dev with fallback := true } }).raise aFW_NOTE 0 noTag 1 0, r)

/-- The roles of bridge groups (R27, R28): coherence, tile and fabric traffic. -/
inductive BridgeRole where
  | C
  | T
  | F
  deriving DecidableEq, Repr

/-- First groups of the roles T and F in a profile: 0 BALANCED, 1 STREAM, 2 COHERENT. -/
def bridgeSplit (profile : Nat) : Nat × Nat := ([8, 4, 12].getD profile 16, 14)

/-- The role of a bridge group in a profile (R27); the groups are the only ones its traffic may use (R28). -/
def bridgeRole (profile : Nat) (group : Fin 16) : BridgeRole :=
  if group < (bridgeSplit profile).1 then .C else if group < (bridgeSplit profile).2 then .T else .F

/-- TOPO_ERR of a carrier identity record (R35, R39, R41): the lowest code that applies, 0 when none does. -/
def topoErr (record : Option Bytes) : Nat :=
  match record with
  | none => 1
  | some b =>
    let w := fld b 0x14 4
    let n := fun (lo hi : Nat) => ((upFrom lo (hi - lo)).filter fun g => bit w g).length
    if 4 < n 0 18 then 2 else if 2 < n 0 9 || 2 < n 9 18 then 3 else if bits w 19 18 = 3 then 4 else 0

/-- DEV_TOPO as start-up loads it (R38, R39, R41). -/
def topoOf (record : Option Bytes) : Nat :=
  let e := topoErr record
  if e ≠ 0 then e * 2 ^ 24 + 2 ^ 23
  else
    let w := (record.map fun b => fld b 0x14 4).getD 0
    let ap := bits w 17 0
    ((List.range 18).filter fun g => bit w g).length * 2 ^ 20 + bits w 19 18 * 2 ^ 18 + ap

/-- The adapter ports of the AP lane groups: A0 and A1 East, A2 and A3 West, ascending (R36); they train, with
AP_PERST_N high (R567, R635). -/
def adaptersOf (ap : Nat) : AL Adapter :=
  let port := fun (first lo : Nat) => ((upFrom lo 9).filter fun g => bit ap g).zipIdx.map fun (x : Nat × Nat) =>
    (first + x.2, ({ lg := x.1, pi := 3, perstHigh := true, downs := 0, width := 0, rate := 0 } : Adapter))
  port 0 0 ++ port 2 9

/-- Step 8 of R571: the mate Ranger, the carrier record (R38, R39, R598), the power stage (R599), the cable modules
(R600), DEV_TOPO, the fabric's first step (R365 to R370), and commands are answered from then on (R572). Flow contexts
of loaded plans start afresh. DEDUCED, log 120. -/
def State.readIdentity (s : State) (inp : StartInputs) : State :=
  let record := inp.carrier.bind carrierRecord
  let topo := topoOf record
  let ap := topo % 2 ^ 18
  let f := Fab.init record ap s.aon.devid s.aon.tick.toNat
  let fresh := s.fab.send.map fun c =>
    { c with next := 0, credits := 256, kept := [], unacked := [], waiting := [], resends := 0, failed := false }
  let s := { s with
    aon := { s.aon with mate := .awake }
    dev := { s.dev with
      topo := BitVec.ofNat 32 topo, carrier := record.getD [], carrierValid := record.isSome
      psUnderrated := (inp.power.bind powerRecord) == some false, serving := true }
    fab := { f with send := fresh }
    hst := { s.hst with adapters := adaptersOf ap } }
  let s := if topoErr record = 0 then s else s.raise aFAULT 0 noTag (unitField uCarrier 0 0) 0
  let s := if badBundleMap record then s.raise aFABRIC 0 noTag (f.addr.getD 0xFFFF) 0 else s
  let s := match inp.power.bind powerRecord with
    | none => s.raise aLOG 0 noTag (unitField uPower 0 0) 0
    | some true => s
    | some false => s.raise aFAULT 0 noTag (unitField uPower 0 0) 0
  (inp.modules.filter fun m => !m.2).foldl (fun s m => s.raise aLOG 0 noTag (unitField uModule m.1 0) 0) s

/-! ### Failing to start, and READY -/

/-- The start fails at a step (R573): FAILED, FAULT_N low, the units in the self-test report and in FAULT attention, with the
code that R16 asks where a bound is exceeded. From then on the commands of R494 are answered, at whichever step the start
has failed, DEV_TOPO loaded or still 0. DEDUCED, log 37. DEDUCED, log 119. DEDUCED, log 121. -/
def State.startFails (s : State) (step : Nat) (cold : Bool) (units : List SelfTestEntry) (code : Nat := 0) : State :=
  let s := { s with
    aon := { s.aon with faultN := false, activating := false }
    dev := { s.dev with
      mode := .failed, failCause := some .start, serving := true, starting := some ⟨step, cold⟩
      selfTest := s.dev.selfTest ++ units } }
  let s := if units.isEmpty then s.raise aFAULT code noTag 0 0
    else units.foldl (fun s e => s.raise aFAULT code noTag (unitField e.unit.kind e.unit.num 0) 0) s
  s.drainUndefined

/-- The fused rollback value rises to `n`: unblown fuses are blown from the lowest on (R589). DEDUCED, log 133. -/
def blowRollback (n : Nat) (f : BitVec 128) : BitVec 128 :=
  (List.range 128).foldl (fun f i =>
    if ((List.range 128).filter fun j => f.getLsbD j).length < n && !f.getLsbD i then f ||| BitVec.ofNat 128 (2 ^ i) else f) f

/-- The fuses that the running image blows on reaching READY (R589). -/
def Aon.blow (a : Aon) (r : Running) : Aon :=
  { a with
    fzRollback := blowRollback r.rollback a.fzRollback
    fzRevoke := a.fzRevoke ||| BitVec.ofNat 4 (r.revoke % 16 - (if bit r.revoke r.keySlot then 2 ^ r.keySlot else 0)) }

/-- The classification at the end of a warm reset after which no step is owed (R313). -/
def State.settleStart (s : State) : State := if s.stp.resume.isNone then s.settleClasses (s.deviceRing + 1) else s

/-- Step 12 of R571: READY, with the fuses blown before any command that READY admits; FAULT_N is released. Discovery is
past the steps that train ports where the device has none to train (R370, R392). -/
def State.becomeReady (s : State) : State :=
  let aon := match s.dev.running with
    | some r => s.aon.blow r
    | none => s.aon
  ({ s with
    aon := { aon with faultN := true, activating := false }
    dev := { s.dev with mode := .ready, failCause := none, starting := none } }).settleStart.drainUndefined.discover

/-! ### Steps 7 to 12 -/

/-- A step of the start begins: where the start stalls at it, or a unit fails in it, the start ends there; otherwise
what follows goes on (R571, R573). -/
def State.startAt (s : State) (step : Nat) (cold : Bool) (inp : StartInputs) (next : State → State) : State :=
  let s := { s with dev := { s.dev with starting := some ⟨step, cold⟩ } }
  if inp.stall = some step then s
  else
    let bad := inp.failedAt step
    if bad.isEmpty then next s else s.startFails step cold bad

/-- Steps 7 to 12 of R571, for a cold start and for a warm reset (R577 step 5). DEDUCED, log 118.
DESIGN CHOICE, log 123. -/
def State.startSteps (s : State) (cold : Bool) (inp : StartInputs) : State :=
  s.startAt 7 cold inp fun s =>
  match s.bootBank with
  | none => { s with dev := { s.dev with romOnly := true } }.startFails 7 cold [⟨⟨uRanger, 0⟩, 1⟩]
  | some (s, r) =>
    { s with aon := { s.aon with primary := .awake }, dev := { s.dev with running := some r } }.startAt 8 cold inp fun s =>
  (s.readIdentity inp).drainUndefined.startAt 9 cold inp fun s =>
  s.startAt 10 cold inp fun s =>
  { s with mem := { s.mem with selfRefresh := [] }, dev := { s.dev with mode := .selftest } }.startAt 11 cold inp fun s =>
  s.startAt 12 cold inp State.becomeReady

/-! ### Cold start -/

/-- What is left without power: fuses, image banks and selector, HOST_PERST_N, host memory, and the model's own record of
commands and outputs (R580); the backing of TIERED regions holds undefined bytes (R190). RESET_N counts as low until it
rises (R571). -/
def State.unpowered (s : State) : State :=
  let s := s.freeBacking
  { State.reset with
    pending := s.pending, out := s.out, fresh := s.fresh
    aon := { Aon.reset with
      perstN := s.aon.perstN
      fzKeys := s.aon.fzKeys, fzRevoke := s.aon.fzRevoke, fzRollback := s.aon.fzRollback
      fzIdKey := s.aon.fzIdKey, fzSerial := s.aon.fzSerial, banks := s.aon.banks, selCopies := s.aon.selCopies }
    mem := { Mem.reset with cells := s.mem.cells.filter fun c => decide (2 ^ 56 ≤ c.1), free := s.mem.free.flatMap (·.cut 0 (2 ^ 56)) } }

/-- PWRGD_RISE (R571): the next rise of RESET_N begins a cold start. -/
def execPwrgdRise (s : State) : Host.Outcome State Fault Refusal :=
  .next (if s.aon.pwrgd then s else { s with aon := { s.aon with pwrgd := true, coldArmed := true } })

/-- PWRGD_FALL (R552, R576, R579): all activity ends at once. -/
def execPwrgdFall (s : State) : Host.Outcome State Fault Refusal :=
  .next (if s.aon.pwrgd then s.unpowered else s)

/-- The cold start from step 6 on: DEV_TICK starts from 0, the front end latches hand-overs, the host port may train
(R493, R571, R575). -/
def State.coldStart (s : State) (inp : StartInputs) : State :=
  let s := s.unpowered
  let s := { s with
    aon := { s.aon with pwrgd := true, resetN := true }
    dev := { s.dev with starting := some ⟨6, true⟩ } }
  if inp.stall = some 6 then s
  else
    { s with
      aon := { s.aon with tickOn := true, faultN := true, primary := .rom }
      hst := { s.hst with link := if s.aon.perstN then .training else .down } }.startSteps true inp

/-! ### Warm reset -/

/-- Steps 2 and 3 of R577 and what R469 does to the host-side state: work stops, caches and write-combining entries reach
memory, and every stack is in self-refresh. DEDUCED, log 126. DESIGN CHOICE, log 127. -/
def State.quiesce (s : State) : State :=
  let s := s.stopCores
  let wbs := s.coh.wbs.filter (·.dirty)
  let mem := wbs.foldl (fun (m : Mem) c => m.putLine c.line c.data) s.mem
  let s := ({ s with mem := mem }).fence.dropHostCopies.settleBias
  { s with
    rgn := s.rgn.hostLost
    mem := { s.mem with selfRefresh := List.range 24 } }

/-- The outputs that a step may have written become undefined (R328): every record of every output of its plan. -/
def State.undefineOutputs (s : State) (st : Step) : State :=
  match s.pln.get st.plan with
  | none => s
  | some p =>
    let outs := p.instances.flatMap fun i => (List.range 2).filterMap fun j => p.outTd i.1 j i.2
    outs.foldl (fun s t => t.tiles.foldl (fun s c =>
      (t.recordPieces (t.tileIndex c)).foldl (fun s x => s.undefineVa x.va x.len) s) s) s

/-- The step that a warm reset interrupts: a verdict-free step ends ABORTED, another is recovered (R328, R355, R580). -/
def State.parkStep (s : State) : State :=
  let free := fun (q : Option Step) => match q with | some x => x.verdictFree | none => false
  let s := if free s.stp.queued then s.abortQueued else s
  let s := match s.stp.active with
    | some st => if st.verdictFree then (s.undefineOutputs st).endFree cABORTED else s
    | none => s
  let owed : Option Resume := match s.stp.active with
    | some st => some ⟨st.ring, if st.plan = 0 then none else some { st with vround := none }, false, [], []⟩
    | none => s.stp.resume.map fun (r : Resume) => { r with begun := false, awaiting := [], heard := [] }
  { s with stp := { s.stp with active := none, notices := [], partVerdicts := [], waitVerdict := [], resume := owed } }

/-- Step 4 of R577: every block outside the always-on domain and the stacks is reset, and what R580 keeps stays.
DEDUCED, log 125. DEDUCED, log 128. -/
def State.resetBlocks (s : State) : State :=
  let calm := fun (r : Region) => { r with heat := [], flipping := [] }
  let src := fun (g : Source) => if g.state = 2 then { g with state := 0 } else g
  { s with
    aon := { s.aon with primary := .rom, mate := .off, lowPower := [] }
    dev := { Dev.reset with joined := s.dev.joined }
    mbx := Mbx.reset
    mem := { s.mem with bwCeil := Mem.reset.bwCeil, bwFloor := Mem.reset.bwFloor, served := [] }
    rgn := { s.rgn with
      regions := s.rgn.regions.map calm, tcache := [], walks := [], demands := [], migrations := [] }
    coh := Coh.reset
    pln := { s.pln with awaitContinuity := false, awaitRing := false }
    trn := { s.trn with updates := [], referees := [], repairing := [] }
    eng := Eng.reset
    fab := { Fab.reset with send := s.fab.send.filter fun c => decide (1024 ≤ c.ctx) }
    gld := { s.gld with preps := [], lanes := [], manifests := [], sources := s.gld.sources.map src }
    dma := Dma.reset
    hst := Hst.reset
    cor := Cor.reset
    obs := Obs.reset }

/-- Steps 1 to 4 of R577. -/
def State.halt (s : State) : State := s.parkStep.quiesce.resetBlocks

/-- Steps 5 and 6 of R577; a recovery begins once the fabric is ready (R355). -/
def State.restart (s : State) (inp : StartInputs) : State :=
  { s with hst := { s.hst with link := if s.aon.perstN then .training else .down } }.startSteps false inp

/-- A start is under way: it has neither ended nor failed. -/
def State.startingUp (s : State) : Option Starting := if s.dev.mode = .failed then none else s.dev.starting

/-- A critical temperature keeps the device FAILED until the next cold start (R563). -/
def State.burnt (s : State) : Bool := s.dev.failCause == some .thermal

/-- WARM_RESET (R567, R576 to R580): RESET_N has been low for 10 µs. A cold start under way will begin again at step 6;
otherwise the device stops its work and waits at step 4. DEDUCED, log 130. -/
def execWarmReset (s : State) : Host.Outcome State Fault Refusal :=
  .next (
    if !s.aon.pwrgd || !s.aon.resetN then s
    else if s.burnt then { s with aon := { s.aon with resetN := false } }
    else
      let u := s.unpowered
      let again := { u with aon := { u.aon with pwrgd := true, resetN := false, coldArmed := true } }
      match s.startingUp with
      | some ⟨_, true⟩ => again
      | _ =>
        if !s.aon.tickOn then again
        else if s.dev.starting.isNone && s.dev.mode != .ready then { s with aon := { s.aon with resetN := false } }
        else
          let h := s.halt
          { h with aon := { h.aon with resetN := false, resetWait := true } })

/-- RESET_N_RISE (R571, R577 step 4): the cold start, or a warm reset that waits goes on. -/
def execResetNRise (inp : StartInputs) (s : State) : Host.Outcome State Fault Refusal :=
  .next (
    if s.aon.resetN then s
    else
      let up := { s with aon := { s.aon with resetN := true } }
      if !s.aon.pwrgd then up
      else if s.aon.coldArmed then s.coldStart inp
      else if s.aon.resetWait then
        { up with aon := { up.aon with resetWait := false } }.restart inp
      else up)

/-- START_BOUND_EXCEEDED (R16, R573): the step that a start is at has not ended within its bound, which R16 reports with
INTERNAL. DEDUCED, log 124. -/
def execStartBoundExceeded (units : List SelfTestEntry) (s : State) : Host.Outcome State Fault Refusal :=
  .next (match s.startingUp with
    | some x => if s.powered then s.startFails x.step x.cold (units.filter fun e => e.unit.wf) cINTERNAL else s
    | none => s)

/-! ### DEVICE_RESET, WARM, and FW_ACTIVATE -/

/-- A command that ends in a warm reset: its body marks the reset by taking no further work (R577 step 1), its reply
goes out, and the reset follows. -/
def State.thenReset (s : State) (inp : StartInputs) (after : State) : State :=
  if after.aon.resetWait && !s.aon.resetWait then
    let h := after.halt
    { h with aon := { h.aon with resetWait := false } }.restart inp
  else after

/-- The body of DEVICE_RESET with DR_KIND WARM (R516). -/
def warmBody (q : Req) (s : State) : State × Resp :=
  if !drOk q then (s, rcode cBAD_ARG)
  else ({ s with aon := { s.aon with resetWait := true } }, rcode cACCEPTED)

/-- DEVICE_RESET with DR_KIND WARM (R516, R577). -/
def execDeviceResetWarm (k : SlotId) (inp : StartInputs) (s : State) : Host.Outcome State Fault Refusal :=
  .next (s.thenReset inp (s.take k (fun q => q.opcode == 0x0105 && drKind q == 1) warmBody))

/-- The selector after FW_ACTIVATE: the older copy names a bank with the next sequence number (R588, R591). -/
def Aon.selectBank (a : Aon) (bank : Nat) : List SelCopy :=
  let seq := ((a.selector.map (·.seq)).getD 0 + 1) % 2 ^ 32
  let old := match a.selector with
    | some c => if a.selCopies.head? = some c then 1 else 0
    | none => 0
  a.selCopies.set old ⟨bank, seq, true⟩

/-- The body of FW_ACTIVATE (R591). DEDUCED, log 134. -/
def fwActivateBody (q : Req) (s : State) : State × Resp :=
  if !q.zb 4 4 then (s, rcode cBAD_ARG)
  else match s.stagedImage with
    | none => (s, rcode cNOT_READY)
    | some b =>
      if imgVersion b ≠ q.f 0 4 then (s, rcode cNOT_READY)
      else if s.stepActive then (s, rcode cBUSY)
      else ({ s with aon := { s.aon with
        selCopies := s.aon.selectBank s.idleBank, activating := true, resetWait := true } }, rcode cACCEPTED)

/-- FW_ACTIVATE (R591, R577). -/
def execFwActivate (k : SlotId) (inp : StartInputs) (s : State) : Host.Outcome State Fault Refusal :=
  .next (s.thenReset inp (s.take k (·.opcode == 0x0904) fwActivateBody))

/-! ### Thermal self-throttling -/

/-- THERMAL_TRIP (R561, R562, R564): the block's clocks halve, once. DEDUCED, log 131. -/
def execThermalTrip (b : ThermalBlock) (temp : Nat) (s : State) : Host.Outcome State Fault Refusal :=
  .next (match b.trip with
    | none => s
    | some t =>
      if !s.aon.tickOn || temp < t || s.aon.halved.contains b then s
      else ({ s with aon := { s.aon with halved := s.aon.halved ++ [b] } }).raise aTHERMAL 0 noTag (b.field temp) 1)

/-- THERMAL_RESTORE (R561): below 97 °C for 10 ms. -/
def execThermalRestore (b : ThermalBlock) (temp : Nat) (s : State) : Host.Outcome State Fault Refusal :=
  .next (if !s.aon.tickOn || 776 ≤ temp || !s.aon.halved.contains b then s
    else ({ s with aon := { s.aon with halved := s.aon.halved.filter (· != b) } }).raise aTHERMAL 0 noTag (b.field temp) 0)

/-- THERMAL_CRITICAL (R563): the block stops, FAULT attention, FAULT_N low, FAILED, and the step in progress goes
uncommitted; the always-on domain answers the commands of R494. -/
def execThermalCritical (b : ThermalBlock) (temp : Nat) (s : State) : Host.Outcome State Fault Refusal :=
  .next (
    if !s.aon.tickOn || temp < b.critical || s.aon.stopped.contains b then s
    else
      let s := { s with
        aon := { s.aon with stopped := s.aon.stopped ++ [b], faultN := false, resetWait := false, activating := false }
        dev := { s.dev with mode := .failed, failCause := some .thermal, serving := true } }
      ((s.raise aFAULT 0 noTag (b.field temp) 0).localHold cINTERNAL).drainUndefined)

/-! ### Low-power states -/

/-- No tile program, tile move or pass is at work on a Grove. -/
def State.groveIdle (s : State) (n : Nat) : Bool :=
  !(s.eng.tasks.any (·.grove == n) || s.eng.moves.any (fun m => m.place.grove.val == n)
    || s.eng.runs.any fun r => r.place.grove.val == n && !r.finished)

/-- LOW_POWER_ENTRY (R554, R555): a block that is idle enters its state; a Grove that power-gates loses its
scratchpad. -/
def execLowPowerEntry (b : LowPowerBlock) (s : State) : Host.Outcome State Fault Refusal :=
  .next (
    let enter := { s with aon := { s.aon with lowPower := s.aon.lowPower ++ [b] } }
    if !s.clocks || s.aon.lowPower.contains b then s
    else match b with
      | .groveClock n => if s.groveIdle n then enter else s
      | .grovePower n =>
        if s.groveIdle n && s.aon.lowPower.contains (.groveClock n) then
          { enter with eng := { enter.eng with scratch := enter.eng.scratch.filter fun t => t.grove != n.val } }
        else s
      | .sapling _ => enter
      | .lane n => if (s.gld.lanes.get n.val).isNone then enter else s
      | .core n => if !(s.cor.core n).running || (s.cor.core n).sleeping then enter else s
      | .ranger n =>
        let busy := !s.mbx.latch.isEmpty || s.mbx.prog.isSome || s.stepActive || s.stp.resume.isSome
        if busy then s
        else if n = 0 then
          { s with aon := { s.aon with primary := if s.aon.primary = .awake then .asleep else s.aon.primary } }
        else { s with aon := { s.aon with mate := if s.aon.mate = .awake then .asleep else s.aon.mate } })

/-- STACK_SELF_REFRESH_ENTRY (R219, R220): after a fence of the stack's write-combining entries. -/
def execStackSelfRefreshEntry (n : Fin 24) (s : State) : Host.Outcome State Fault Refusal :=
  .next (
    let trained := match s.dev.starting with | some x => decide (10 < x.step) | none => s.dev.mode == .ready
    if !s.powered || !trained || s.mem.selfRefresh.contains n.val || s.blockStopped (· == .stack n) then s
    else
      { s with mem := { s.mem with
        wc := s.mem.wc.filter fun e => s.rgn.stackOfLine e.line != some n.val
        selfRefresh := s.mem.selfRefresh ++ [n.val] } })

/-! ### Unit failures -/

/-- UNIT_FAILURE (R19, R44): a unit that the device holds fails while it runs. DEDUCED, log 136. -/
def execUnitFailure (u : UnitRef) (s : State) : Host.Outcome State Fault Refusal :=
  .next (if s.powered && s.dev.mode == .ready && u.wf then s.unitFails u else s)

end Sys2Proof.Machine
end

