-- ==== Sys2Proof/Machine/Prefetch.lean ====
section
/-! DEFINITION. The prefetch engine (R200 to R203): which operand records it may fetch for a task, and when. -/

namespace Sys2Proof.Machine

/-- PF_DIST in force (R200). -/
def Plan.prefetchDist (p : Plan) : Nat := if p.setting 0 1 = 0 then 8 else p.setting 0 1

/-- Every instance that writes the piece before the given one in the task graph has completed (R202). -/
def Plan.writersBefore (p : Plan) (st : Step) (op mb : Nat) (x : Piece) : Bool :=
  (p.before_ (op, mb)).all fun i => st.finished i
    || !((p.touches i.1 i.2).any fun t => t.1 && t.2.spans.any fun r => overlaps r.va r.len x.va x.len)

/-- Addresses of the operand records that a pass reads, each with the stripe it is kept under. -/
def Prod.passVas (q : Prod) (k : Blk) (seg chunk : Nat) : List (Nat × Nat) :=
  let ch := (q.segment seg).1 + chunk
  let side := fun (t : TD) (stripe n : Nat) (f : Nat → Nat → Nat → Ref) =>
    ((List.range n).flatMap fun i => (List.range q.kc).filterMap fun j =>
      match f i (q.chunkPos ch j).1 (q.chunkPos ch j).2 with
      | .elem e => some ((t.recordAt (t.tileIndex (tileOf e))).1, stripe)
      | _ => none).dedup
  let first := match q.c with
    | some t => if seg = 0 && chunk = 0
        then [((t.recordAt (t.tileIndex ([k.c0 / 128, k.r0 / 128] ++ t.batch k.rest))).1, 0)] else []
    | none => []
  side q.a (q.slotStripe 0 (q.stripe k)) k.rn (q.aRef k) ++ side q.b 0 k.cn (q.bRef k) ++ first

/-- The runs that a task at a place may still make for a product, each with its block: those it has begun, and those that
no place has. -/
def Eng.openRuns (e : Eng) (q : Prod) (a : Place) : List (Blk × Run) :=
  (List.range q.blocks.length).flatMap fun b => (List.range q.segs).filterMap fun g => e.nextRun q a b g

/-- Passes of a product that a task has left. -/
def Eng.passesLeft (e : Eng) (q : Prod) (a : Place) : Nat :=
  ((e.openRuns q a).map fun x => (q.segment x.2.seg).2 - x.2.chunk).sum

/-- The next product that a task works on after an operation, in the plan's layer order (R201, R329). -/
def Plan.nextProd (p : Plan) (op mb : Nat) : Option Prod :=
  let order := (List.range (p.count 5)).map fun i => leNat (entryOf p.bytes 5 i)
  ((order.dropWhile (· != op)).drop 1).findSome? fun o => if (p.mbs o).contains mb then p.prod o mb else none

/-- A record comes in its turn for one run: some pass at most `dist` passes ahead reads it, and the operands of every pass
before that one are resident or come with it (R201). -/
def Prod.inTurn (q : Prod) (dist : Nat) (k : Blk) (x : Run) (have_ : Nat × Nat → Bool) (r : Nat × Nat) : Bool :=
  (List.range (min (dist + 1) ((q.segment x.seg).2 - x.chunk))).any fun i =>
    (q.passVas k x.seg (x.chunk + i)).contains r
      && (List.range i).all fun j => (q.passVas k x.seg (x.chunk + j)).all have_

/-- The records come in the order in which a task's passes consume them, none more than `dist` passes ahead (R201). -/
def Eng.prefetchTurn (e : Eng) (p : Plan) (q : Prod) (a : Place) (dist stripe : Nat) (rs : List Rec) : Bool :=
  let key := fun (r : Rec) => (r.va, p.stripeKey q.op q.mb stripe r)
  let have_ := fun (v : Nat × Nat) => rs.any (fun r => key r == v) || (e.tile a q.op q.mb v.2 v.1 false).isSome
  rs.all fun r => (e.openRuns q a).any fun x => q.inTurn dist x.1 x.2 have_ (key r)

/-- The prefetch engine may fetch the records for the task: of its own product, or of its next one with fewer than PF_DIST
passes of its own left, counted from there (R201). DEDUCED, log 113. -/
def State.prefetchDue (s : State) (p : Plan) (t : Task) (a : Place) (op mb stripe : Nat) (rs : List Rec) : Bool :=
  match p.prod t.op t.mb with
  | none => false
  | some q =>
    if t.op = op && t.mb = mb then s.eng.prefetchTurn p q a p.prefetchDist stripe rs
    else match p.nextProd t.op t.mb with
      | some n => n.op == op && n.mb == mb && decide (s.eng.passesLeft q a < p.prefetchDist)
          && s.eng.prefetchTurn p n a (p.prefetchDist - s.eng.passesLeft q a) stripe rs
      | none => false

/-- The task's partition has room for the records as it stands: the prefetch engine evicts nothing (R203). -/
def Eng.freeFor (e : Eng) (a : Place) (rs : List Rec) : Bool :=
  decide (e.used a + (rs.map Rec.bytes).sum ≤ e.extent a)

/-- A prefetch meets an obstacle: a fault drops it, with FAULT attention for kind TABLE (R247); a poisoned line raises FAULT
and fails the instance that reads it, once that has issued (R223). -/
def State.prefetchStops (s : State) (st : Step) (op mb : Nat) (o : AccRes × Nat × Nat × Bool) : State :=
  match o.1 with
  | .fault 4 va => s.raise aFAULT cINTERNAL noTag (unitField uWalker 0 0) va
  | .poison r page line =>
    if (st.inst op mb).isSome then s.obstacle op mb o
    else
      let unit := match s.rgn.get r with
        | some x => x.stackOf (page * pageBytes + line * 64)
        | none => 0
      s.raise aFAULT cINTERNAL noTag (unitField uStack unit 0) (page * pageBytes + line * 64)
  | _ => s

/-- PREFETCH_FETCH (R200 to R203, R223, R247): the prefetch engine fetches operand records into a task's partition, through
its Floor's agent cache (R242). -/
def execPrefetchFetch (place : Place) (op mb : Nat) (work : StripePieces) (s : State) :
    Host.Outcome State Fault Refusal :=
  .next (
    match s.stepPlan, s.eng.tasks.find? fun t => t.grove == place.grove.val && t.task == place.task.val with
    | some (st, p), some t =>
      match p.moveRecs op mb false work.pieces with
      | none => s
      | some rs =>
        if !s.powered || st.st != .running || st.stopped || s.groveStopped place.grove || work.pieces.isEmpty
            || !rs.all (p.fetches op mb work.stripe) || !work.pieces.all (p.writersBefore st op mb)
            || !s.prefetchDue p t place op mb work.stripe rs || !s.eng.freeFor place rs then s
        else
          let accs := work.pieces.map fun x => (x.va, x.len, false)
          let cache := agentCache (cacheHalf place.grove)
          match s.firstObstacle cache accs with
          | none =>
            (work.pieces.foldl (fun (s : State) x => s.lookRange cache x.va x.len) s).deliverRecs p place op mb work.stripe rs
          | some o => s.prefetchStops st op mb o
    | _, _ => s)

end Sys2Proof.Machine
end

