-- ==== Sys2Proof/Machine/Dispatch.lean ====
section
/-! DEFINITION. The meaning of every command: one arm per constructor of `Instr`. -/

namespace Sys2Proof.Machine

def exec (i : Instr) (s : State) : Host.Outcome State Fault Refusal :=
  match i with
  | .mbxOwnWrite slot => Sys2Proof.Machine.execMbxOwnWrite slot s
  | .slotWrite by_ addr acc => Sys2Proof.Machine.execSlotWrite by_ addr acc s
  | .hello slot => Sys2Proof.Machine.execHello slot s
  | .info slot => Sys2Proof.Machine.execInfo slot s
  | .query slot => Sys2Proof.Machine.execQuery slot s
  | .abort slot => Sys2Proof.Machine.execAbort slot s
  | .deviceResetContext slot => Sys2Proof.Machine.execDeviceResetContext slot s
  | .deviceResetWarm slot inp => Sys2Proof.Machine.execDeviceResetWarm slot inp s
  | .regionCreate slot => Sys2Proof.Machine.execRegionCreate slot s
  | .regionRegister slot => Sys2Proof.Machine.execRegionRegister slot s
  | .biasSetShared slot => Sys2Proof.Machine.execBiasSetShared slot s
  | .biasSetDevice slot => Sys2Proof.Machine.execBiasSetDevice slot s
  | .backInvalidateAnswer hpa data => Sys2Proof.Machine.execBackInvalidateAnswer hpa data s
  | .objectPin slot => Sys2Proof.Machine.execObjectPin slot s
  | .map slot => Sys2Proof.Machine.execMap slot s
  | .unmap slot => Sys2Proof.Machine.execUnmap slot s
  | .regionInfo slot => Sys2Proof.Machine.execRegionInfo slot s
  | .planLoad slot => Sys2Proof.Machine.execPlanLoad slot s
  | .planDrop slot => Sys2Proof.Machine.execPlanDrop slot s
  | .stepSubmit slot => Sys2Proof.Machine.execStepSubmit slot s
  | .stepReplay slot => Sys2Proof.Machine.execStepReplay slot s
  | .modeSchedule slot => Sys2Proof.Machine.execModeSchedule slot s
  | .ringQuery slot => Sys2Proof.Machine.execRingQuery slot s
  | .stepRecord slot => Sys2Proof.Machine.execStepRecord slot s
  | .shardDefine slot => Sys2Proof.Machine.execShardDefine slot s
  | .stateExport slot => Sys2Proof.Machine.execStateExport slot s
  | .stateImport slot => Sys2Proof.Machine.execStateImport slot s
  | .shardRepair slot => Sys2Proof.Machine.execShardRepair slot s
  | .blazeRead slot => Sys2Proof.Machine.execBlazeRead slot s
  | .gladeSource slot => Sys2Proof.Machine.execGladeSource slot s
  | .gladeDisposeSet slot => Sys2Proof.Machine.execGladeDisposeSet slot s
  | .gladeDisposeSubstitute slot => Sys2Proof.Machine.execGladeDisposeSubstitute slot s
  | .gladeStats slot => Sys2Proof.Machine.execGladeStats slot s
  | .fabricStatus slot => Sys2Proof.Machine.execFabricStatus slot s
  | .fabricMapLoad slot => Sys2Proof.Machine.execFabricMapLoad slot s
  | .portInfo slot => Sys2Proof.Machine.execPortInfo slot s
  | .dmaSubmit slot => Sys2Proof.Machine.execDmaSubmit slot s
  | .dmaStatus slot => Sys2Proof.Machine.execDmaStatus slot s
  | .ctrConfig slot => Sys2Proof.Machine.execCtrConfig slot s
  | .ctrSnapshot slot => Sys2Proof.Machine.execCtrSnapshot slot s
  | .traceSet slot => Sys2Proof.Machine.execTraceSet slot s
  | .traceStop slot => Sys2Proof.Machine.execTraceStop slot s
  | .traceCopy slot => Sys2Proof.Machine.execTraceCopy slot s
  | .sampleStart slot => Sys2Proof.Machine.execSampleStart slot s
  | .sampleStop slot => Sys2Proof.Machine.execSampleStop slot s
  | .attest slot => Sys2Proof.Machine.execAttest slot s
  | .idRead slot answer => Sys2Proof.Machine.execIdRead slot answer s
  | .fwStage slot => Sys2Proof.Machine.execFwStage slot s
  | .fwActivate slot inp => Sys2Proof.Machine.execFwActivate slot inp s
  | .coresLoad slot => Sys2Proof.Machine.execCoresLoad slot s
  | .coresStart slot => Sys2Proof.Machine.execCoresStart slot s
  | .coresStop slot => Sys2Proof.Machine.execCoresStop slot s
  | .pwrgdRise => Sys2Proof.Machine.execPwrgdRise s
  | .pwrgdFall => Sys2Proof.Machine.execPwrgdFall s
  | .resetNRise inp => Sys2Proof.Machine.execResetNRise inp s
  | .startBoundExceeded units => Sys2Proof.Machine.execStartBoundExceeded units s
  | .warmReset => Sys2Proof.Machine.execWarmReset s
  | .thermalTrip b temp => Sys2Proof.Machine.execThermalTrip b temp s
  | .thermalRestore b temp => Sys2Proof.Machine.execThermalRestore b temp s
  | .thermalCritical b temp => Sys2Proof.Machine.execThermalCritical b temp s
  | .lowPowerEntry b => Sys2Proof.Machine.execLowPowerEntry b s
  | .stackSelfRefreshEntry n => Sys2Proof.Machine.execStackSelfRefreshEntry n s
  | .hostPerstAssert => Sys2Proof.Machine.execHostPerstAssert s
  | .hostLinkRetrain width => Sys2Proof.Machine.execHostLinkRetrain width s
  | .hostLinkLoss cause => Sys2Proof.Machine.execHostLinkLoss cause s
  | .hostLinkUp width => Sys2Proof.Machine.execHostLinkUp width s
  | .hdmDecoderCommit base ways => Sys2Proof.Machine.execHdmDecoderCommit base ways s
  | .hostHdmAccess hpa caching acc => Sys2Proof.Machine.execHostHdmAccess hpa caching acc s
  | .hostSnoop hpa inv => Sys2Proof.Machine.execHostSnoop hpa inv s
  | .coherenceRequest who region off op => Sys2Proof.Machine.execCoherenceRequest who region off op s
  | .bar2WindowAccess requester off acc => Sys2Proof.Machine.execBar2WindowAccess requester off acc s
  | .adapterWindowAccess port addr acc => Sys2Proof.Machine.execAdapterWindowAccess port addr acc s
  | .adapterInterruptMsg port addr data => Sys2Proof.Machine.execAdapterInterruptMsg port addr data s
  | .adapterLinkDown port => Sys2Proof.Machine.execAdapterLinkDown port s
  | .adapterPerstTimeout port => Sys2Proof.Machine.execAdapterPerstTimeout port s
  | .adapterLinkUp port width rate => Sys2Proof.Machine.execAdapterLinkUp port width rate s
  | .bridgeCrcFail failed => Sys2Proof.Machine.execBridgeCrcFail failed s
  | .matmul op mb places => Sys2Proof.Machine.execMatmul op mb places s
  | .conv op mb places => Sys2Proof.Machine.execConv op mb places s
  | .pool op mb place => Sys2Proof.Machine.execPool op mb place s
  | .boxDecode op mb place => Sys2Proof.Machine.execBoxDecode op mb place s
  | .suppress op mb place => Sys2Proof.Machine.execSuppress op mb place s
  | .saplingConv op mb engines => Sys2Proof.Machine.execSaplingConv op mb engines s
  | .vectorElementwise op mb place => Sys2Proof.Machine.execVectorElementwise op mb place s
  | .vectorReduce op mb place => Sys2Proof.Machine.execVectorReduce op mb place s
  | .vectorGather op mb place => Sys2Proof.Machine.execVectorGather op mb place s
  | .vectorScatter op mb place => Sys2Proof.Machine.execVectorScatter op mb place s
  | .actBackward op mb place => Sys2Proof.Machine.execActBackward op mb place s
  | .gradGather op mb place => Sys2Proof.Machine.execGradGather op mb place s
  | .chainReduce op place => Sys2Proof.Machine.execChainReduce op place s
  | .allGather op => Sys2Proof.Machine.execAllGather op s
  | .verdict op => Sys2Proof.Machine.execVerdict op s
  | .arrivalUpdate op place => Sys2Proof.Machine.execArrivalUpdate op place s
  | .gladeBatch op mb => Sys2Proof.Machine.execGladeBatch op mb s
  | .move op mb data => Sys2Proof.Machine.execMove op mb data s
  | .prefetch op mb => Sys2Proof.Machine.execPrefetch op mb s
  | .instanceComplete op mb => Sys2Proof.Machine.execInstanceComplete op mb s
  | .pass op mb block seg place => Sys2Proof.Machine.execPass op mb block seg place s
  | .segmentCombine op mb block => Sys2Proof.Machine.execSegmentCombine op mb block s
  | .outputStageDrain op mb block => Sys2Proof.Machine.execOutputStageDrain op mb block s
  | .tileMove place op mb store work => Sys2Proof.Machine.execTileMove place op mb store work s
  | .walkComplete cache va store => Sys2Proof.Machine.execWalkComplete cache va store s
  | .demandFaultResolve va => Sys2Proof.Machine.execDemandFaultResolve va s
  | .tileMoveComplete place ecc lat xlat => Sys2Proof.Machine.execTileMoveComplete place ecc lat xlat s
  | .migrationCopyDone region page => Sys2Proof.Machine.execMigrationCopyDone region page s
  | .prefetchFetch place op mb work => Sys2Proof.Machine.execPrefetchFetch place op mb work s
  | .wcDrainAge region off => Sys2Proof.Machine.execWcDrainAge region off s
  | .memorySideAdd region off fmt v => Sys2Proof.Machine.execMemorySideAdd region off fmt v s
  | .heatDecay => Sys2Proof.Machine.execHeatDecay s
  | .bandwidthWindow waiting => Sys2Proof.Machine.execBandwidthWindow waiting s
  | .patrolScrub stack lines => Sys2Proof.Machine.execPatrolScrub stack lines s
  | .stepStart => Sys2Proof.Machine.execStepStart s
  | .voteRecordWrite twins => Sys2Proof.Machine.execVoteRecordWrite twins s
  | .verdictMessage m => Sys2Proof.Machine.execVerdictMessage m s
  | .verdictTimeout => Sys2Proof.Machine.execVerdictTimeout s
  | .holdNotice ring attempt round bundle => Sys2Proof.Machine.execHoldNotice ring attempt round bundle s
  | .segmentUpdateDone shard seg => Sys2Proof.Machine.execSegmentUpdateDone shard seg s
  | .chainMessage msg => Sys2Proof.Machine.execChainMessage msg s
  | .gatherRequest src shard attempt ring gather => Sys2Proof.Machine.execGatherRequest src shard attempt ring gather s
  | .gatherMessage gather msg => Sys2Proof.Machine.execGatherMessage gather msg s
  | .peerReadRequest src ring va len => Sys2Proof.Machine.execPeerReadRequest src ring va len s
  | .flitReceive port flit corrected uncorrectable laneErr => Sys2Proof.Machine.execFlitReceive port flit corrected uncorrectable laneErr s
  | .nakReceive port seq => Sys2Proof.Machine.execNakReceive port seq s
  | .flitAckTimeout port => Sys2Proof.Machine.execFlitAckTimeout port s
  | .retrainTimeout port => Sys2Proof.Machine.execRetrainTimeout port s
  | .portRetryTimer port => Sys2Proof.Machine.execPortRetryTimer port s
  | .portTrained port => Sys2Proof.Machine.execPortTrained port s
  | .portProbationEnd port => Sys2Proof.Machine.execPortProbationEnd port s
  | .identityExchange port far => Sys2Proof.Machine.execIdentityExchange port far s
  | .unverifiedRetry port => Sys2Proof.Machine.execUnverifiedRetry port s
  | .linkStateRecord bundle r => Sys2Proof.Machine.execLinkStateRecord bundle r s
  | .discoveryFloodTimeout => Sys2Proof.Machine.execDiscoveryFloodTimeout s
  | .readinessBarrierMessage m => Sys2Proof.Machine.execReadinessBarrierMessage m s
  | .partialWaitExpiry => Sys2Proof.Machine.execPartialWaitExpiry s
  | .partialBarrierMessage m => Sys2Proof.Machine.execPartialBarrierMessage m s
  | .flowMessageComplete src ctx dest => Sys2Proof.Machine.execFlowMessageComplete src ctx dest s
  | .e2eAck ctx cseq m => Sys2Proof.Machine.execE2eAck ctx cseq m s
  | .contextStallTimeout ctx => Sys2Proof.Machine.execContextStallTimeout ctx s
  | .joinNotice m => Sys2Proof.Machine.execJoinNotice m s
  | .joinBarrierMessage m => Sys2Proof.Machine.execJoinBarrierMessage m s
  | .joinRetryTimer => Sys2Proof.Machine.execJoinRetryTimer s
  | .continuityRecord r => Sys2Proof.Machine.execContinuityRecord r s
  | .dmaChunk ch => Sys2Proof.Machine.execDmaChunk ch s
  | .dmaTransferEnd ch => Sys2Proof.Machine.execDmaTransferEnd ch s
  | .manifestReady source ring => Sys2Proof.Machine.execManifestReady source ring s
  | .gladePrepareStep source ring => Sys2Proof.Machine.execGladePrepareStep source ring s
  | .gladeLaneStart lane source => Sys2Proof.Machine.execGladeLaneStart lane source s
  | .sampleDone lane r => Sys2Proof.Machine.execSampleDone lane r s
  | .sampleAbandon lane => Sys2Proof.Machine.execSampleAbandon lane s
  | .releaseWord op mb => Sys2Proof.Machine.execReleaseWord op mb s
  | .coreIoAccess core pa acc => Sys2Proof.Machine.execCoreIoAccess core pa acc s
  | .coreTimerCompare core which => Sys2Proof.Machine.execCoreTimerCompare core which s
  | .coreWfi core => Sys2Proof.Machine.execCoreWfi core s
  | .unitFailure u => Sys2Proof.Machine.execUnitFailure u s
  | .discoveryBoundExpiry step => Sys2Proof.Machine.execDiscoveryBoundExpiry step s
  | .flowAckInterval src ctx => Sys2Proof.Machine.execFlowAckInterval src ctx s
  | .hostPortDownAtStart => Sys2Proof.Machine.execHostPortDownAtStart s
  | .hostPerstRelease => Sys2Proof.Machine.execHostPerstRelease s
  | .refereeFetch m => Sys2Proof.Machine.execRefereeFetch m s
  | .verdictHistoryRequest m => Sys2Proof.Machine.execVerdictHistoryRequest m s

end Sys2Proof.Machine
end

