-- ==== Sys2Proof/Machine/Step.lean ====
section
/-! DEFINITION. One step of the block: the command at the front of the queue, or one DEV_TICK. -/

namespace Sys2Proof.Machine

/-- With no command waiting, DEV_TICK advances by one while the clock runs (R549, R550; DESIGN CHOICE, log 2). -/
def State.idle (s : State) : State :=
  if s.aon.tickOn then { s with aon := { s.aon with tick := s.aon.tick + 1 } } else s

/-- One step of the block. DEDUCED, log 143. -/
def step (s : State) : Host.Outcome State Fault Refusal :=
  match s.pending with
  | [] => .next s.idle
  | c :: rest => exec c { s with pending := rest }

/-- The state with the command that a word spells put in front of the queue; the table gives no row bits, so
no word spells a command. -/
def State.withFetchWord (s : State) (nbits w : Nat) : State :=
  match decodeTableWord nbits w with
  | some c => { s with pending := c :: s.pending }
  | none => s

end Sys2Proof.Machine
end

