-- ==== Sys2Proof/Safety.lean ====
section
/-! DEFINITION. The terms in which statements about the block are made: what a command leaves alone, when a mailbox command
is served and what its reply holds, how memory reads, and the invariant that every step keeps. -/

namespace Sys2Proof.Machine

/-! ### Frames -/

/-- The parts of the state. -/
inductive Part where
  | pending
  | out
  | fresh
  | aon
  | att
  | dev
  | mbx
  | mem
  | rgn
  | coh
  | pln
  | stp
  | trn
  | eng
  | fab
  | gld
  | dma
  | hst
  | cor
  | obs
  deriving DecidableEq, Repr

/-- A part is the same in two states. -/
def Part.same : Part → State → State → Prop
  | .pending, s, t => t.pending = s.pending
  | .out, s, t => t.out = s.out
  | .fresh, s, t => t.fresh = s.fresh
  | .aon, s, t => t.aon = s.aon
  | .att, s, t => t.att = s.att
  | .dev, s, t => t.dev = s.dev
  | .mbx, s, t => t.mbx = s.mbx
  | .mem, s, t => t.mem = s.mem
  | .rgn, s, t => t.rgn = s.rgn
  | .coh, s, t => t.coh = s.coh
  | .pln, s, t => t.pln = s.pln
  | .stp, s, t => t.stp = s.stp
  | .trn, s, t => t.trn = s.trn
  | .eng, s, t => t.eng = s.eng
  | .fab, s, t => t.fab = s.fab
  | .gld, s, t => t.gld = s.gld
  | .dma, s, t => t.dma = s.dma
  | .hst, s, t => t.hst = s.hst
  | .cor, s, t => t.cor = s.cor
  | .obs, s, t => t.obs = s.obs

/-- Every part is the same, but for those listed. -/
def Keeps (but : List Part) (s t : State) : Prop := ∀ p, p ∉ but → p.same s t

/-! ### Mailbox commands -/

/-- The request of a slot is the next one to be served, has the opcode, and passes the checks that R490, R492, R494 and
R507 put before a command's own. -/
def IsServed (s : State) (k : SlotId) (op : Nat) : Prop :=
  s.serves = true ∧ s.front = some k.val ∧ (s.mbx.req k).opcode = op ∧ s.preCheck (s.mbx.req k) = none

/-- The request in a slot, which is what the command's own rules speak of. -/
def State.asks (s : State) (k : SlotId) : Req := s.mbx.req k

/-- Slot `k` holds the reply to the request it held in `s`: code, tag, length and payload, with OWN clear, and it waits no
longer (R487 step 5, R496, R497). -/
def Replied (s t : State) (k : SlotId) (code : Nat) (d : Bytes) : Prop :=
  t.mbx.cells.read (slotBase k + 0x800) = BitVec.ofNat 8 code
    ∧ t.mbx.cells.readN (slotBase k + 0x804) 4 = leBytes 4 (s.asks k).tag
    ∧ t.mbx.cells.readN (slotBase k + 0x808) 4 = leBytes 4 d.length
    ∧ t.mbx.cells.readN (slotBase k + 0x840) (min d.length 1984) = d.take 1984
    ∧ t.mbx.own k = false
    ∧ k.val ∉ t.mbx.latch

/-- A command that reads only: it replies, and nothing else changes but the slots and the Ranger's waking. -/
def OnlyReplies (s t : State) (k : SlotId) (code : Nat) (d : Bytes) : Prop :=
  Replied s t k code d ∧ Keeps [.mbx, .aon] s t ∧ t.aon = { s.aon with primary := t.aon.primary }

/-! ### Memory as an agent reads it -/

/-- A byte of memory by its key, as an agent reads it: from a core's modified copy where there is one (R270). -/
def State.byte (s : State) (key : Nat) : Byte := (s.cleanRange key 1).mem.byte key

/-- A store to a range of device virtual addresses writes the byte of a key (R234, R236). -/
def State.storesTo (s : State) (va len key : Nat) : Prop :=
  ∃ c ∈ chunksOf va len, ∃ r off, s.xlate c.1 true = .ok (r, off) ∧ r.key off ≤ key ∧ key < r.key off + c.2

/-- A range of device virtual addresses lies in mapped pages that translate and that nothing obstructs (R234, R247, R471,
R563). -/
def Accessible (s : State) (va len : Nat) (store : Bool) : Prop :=
  (∀ c ∈ chunksOf va len, ∃ r off, s.rgn.byVa c.1 = some (r, off) ∧ s.xlate c.1 store = .ok (r, off))
    ∧ s.access va len store = .ok ∧ s.vaStopped va len = false

/-- Memory reads the same everywhere outside some keys. -/
def SameBytes (but : Nat → Prop) (s t : State) : Prop := ∀ a, ¬ but a → t.byte a = s.byte a

/-! ### Instances -/

/-- How far an instance of the active step is. -/
def State.inst (s : State) (op mb : Nat) : Option InstState := (s.stp.active.bind fun st => st.inst op mb).map (·.st)

/-! ### The invariant -/

/-- The byte stores are in canonical form; the attention list holds at most 256 entries (R498, R500); what cores hold of
memory are whole lines, and requests at the homes stay inside their lines (R262, R264); region ids are different, below 64,
and each region has at most 2^26 pages (R187, R517). -/
structure State.Inv (s : State) : Prop where
  mem : s.mem.cells.wf = true
  mbx : s.mbx.cells.wf = true
  tbl : s.rgn.tbl.wf = true
  trace : s.obs.trace.wf = true
  attn : s.att.list.length ≤ 256
  lines : ∀ c ∈ s.coh.cached ++ s.coh.wbs, c.data.length = 64
  fits : ∀ t ∈ s.coh.txns ++ s.coh.waiting, t.op.fits = true
  ids : (s.rgn.regions.map (·.id)).Nodup
  sizes : ∀ r ∈ s.rgn.regions, r.id < 64 ∧ r.pages ≤ 2 ^ 26

end Sys2Proof.Machine
end

