-- ==== Sys2Proof/Certificates/Slice0/Obligations.lean ====
section
/-! DEFINITION. The statements about the block that are to be proved. Each one's title, rules and tier are in
OBLIGATIONS.json under the same name. -/

open Sys2Proof Sys2Proof.Machine

/-! ### The machine as a whole -/

/-- A step takes the command at the front of the queue and runs it on the rest (the queue of waiting commands is the
model's form of the outside world, DESIGN CHOICE, log 3). -/
def Obligations.StepRunsFront : Prop :=
  ∀ (s : State) (c : Instr) (rest : List Instr), s.pending = c :: rest →
    step s = exec c { s with pending := rest }

/-- With no command waiting the block idles: DEV_TICK advances while its clock runs (the model's choice, DESIGN
CHOICE, log 2), and nothing else changes. -/
def Obligations.IdleStep : Prop :=
  ∀ s : State, s.pending = [] → ∃ t, step s = .next t
    ∧ t.aon = { s.aon with tick := if s.aon.tickOn then s.aon.tick + 1 else s.aon.tick }
    ∧ Keeps [.aon] s t

/-- Every command has its effect in every state: none stops the block (NOTES.md, Stops), and none touches the queue. -/
def Obligations.EveryCommandRuns : Prop :=
  ∀ (c : Instr) (s : State), ∃ t, exec c s = .next t ∧ t.pending = s.pending

/-- The invariant holds at reset, where no command waits, DEV_STATE is BOOT and nothing is kept. -/
def Obligations.ResetKeepsNothing : Prop :=
  State.reset.Inv ∧ State.reset.pending = [] ∧ State.reset.dev.mode = .boot ∧ State.reset.att.list = []
    ∧ State.reset.rgn.regions = [] ∧ State.reset.pln.plans = [] ∧ State.reset.trn.shards = []
    ∧ State.reset.serves = false

/-- Every step keeps the invariant: the byte stores stay canonical, the attention list within 256 entries. -/
def Obligations.StepKeepsInv : Prop :=
  ∀ s t : State, s.Inv → step s = .next t → t.Inv

/-! ### Power, clocks and start-up -/

/-- A rise of PWRGD arms a cold start (R571); its fall ends everything but what is non-volatile or outside: fuses, banks,
selector, HOST_PERST_N and host memory (R552, R576, R579, R580). -/
def Obligations.PwrgdEdges : Prop :=
  (∀ s : State, s.aon.pwrgd = false → ∃ t, exec .pwrgdRise s = .next t
    ∧ t.aon = { s.aon with pwrgd := true, coldArmed := true } ∧ Keeps [.aon] s t)
  ∧ ∀ s : State, s.aon.pwrgd = true → ∃ t, exec .pwrgdFall s = .next t
    ∧ t.aon.pwrgd = false ∧ t.aon.tick = 0 ∧ t.powered = false ∧ t.dev.mode = .boot ∧ t.serves = false
    ∧ t.att.list = [] ∧ t.att.aseq = 0 ∧ t.mbx.cells = [] ∧ t.rgn.regions = [] ∧ t.pln.plans = [] ∧ t.trn.shards = []
    ∧ t.trn.sel = [] ∧ t.trn.commit = none ∧ t.stp.active = none ∧ t.stp.words = [] ∧ t.cor.cores = []
    ∧ t.aon.fzRollback = s.aon.fzRollback ∧ t.aon.fzRevoke = s.aon.fzRevoke ∧ t.aon.banks = s.aon.banks
    ∧ t.aon.selCopies = s.aon.selCopies ∧ t.aon.perstN = s.aon.perstN
    ∧ (s.mem.cells.wf = true → ∀ a,
        (∀ r ∈ s.rgn.regions, r.kind = 1 → ¬ (2 ^ 56 + r.hostBase ≤ a ∧ a < 2 ^ 56 + r.hostBase + r.size)) →
        t.mem.byte a = if 2 ^ 56 ≤ a then s.mem.byte a else 0#8)

/-- The selected bank, or else the other, verifies (R588), no unit fails, and no step of the start overruns. -/
def StartsClean (s : State) (inp : StartInputs) : Prop :=
  ((s.aon.verifyImage (s.aon.banks.getD s.aon.selectedBank [])).isNone = true
    ∨ (s.aon.verifyImage (s.aon.banks.getD (1 - s.aon.selectedBank) [])).isNone = true)
  ∧ inp.failed = [] ∧ inp.stall = none

/-- RESET_N rising after a rise of PWRGD runs the cold start: DEV_TICK from 0, every list empty, the image of the selected
bank, or of the other where that one fails, running, the topology loaded, READY (R38, R41, R493, R571, R580, R588). -/
def Obligations.ColdStartReady : Prop :=
  ∀ (s : State) (inp : StartInputs), s.aon.pwrgd = true → s.aon.coldArmed = true → s.aon.resetN = false →
    StartsClean s inp → ∃ t, exec (.resetNRise inp) s = .next t
      ∧ t.dev.mode = .ready ∧ t.serves = true ∧ t.powered = true ∧ t.aon.faultN = true ∧ t.aon.tick = 0
      ∧ t.mbx.cells = [] ∧ t.rgn.regions = [] ∧ t.pln.plans = [] ∧ t.trn.shards = [] ∧ t.trn.sel = []
      ∧ t.stp.words = [] ∧ t.cor.cores = [] ∧ t.dma.chans = []
      ∧ t.dev.topo = BitVec.ofNat 32 (topoOf (inp.carrier.bind carrierRecord))
      ∧ (∃ r, t.dev.running = some r ∧ (s.aon.verifyImage (s.aon.banks.getD r.bank [])).isNone = true
        ∧ r = runningOf r.bank (s.aon.banks.getD r.bank [])
        ∧ (t.dev.fallback = true ↔ r.bank ≠ s.aon.selectedBank))

/-- RESET_N low while a cold start is under way: it will begin again from step 6 with nothing kept (R579); a READY device
ends its work and waits at step 4 of the warm reset (R577), keeping what R580 keeps. -/
def Obligations.WarmResetHalts : Prop :=
  ∀ s : State, s.aon.pwrgd = true → s.aon.resetN = true → s.dev.failCause ≠ some .thermal → s.aon.tickOn = true →
    (s.dev.mode = .ready → s.dev.starting = none → ∃ t, exec .warmReset s = .next t
      ∧ t.aon.resetWait = true ∧ t.aon.resetN = false ∧ t.powered = false ∧ t.serves = false ∧ t.dev.mode = .boot
      ∧ t.aon.tick = s.aon.tick ∧ t.aon.fzRollback = s.aon.fzRollback ∧ t.aon.banks = s.aon.banks
      ∧ t.pln.plans = s.pln.plans ∧ t.trn.shards = s.trn.shards ∧ t.trn.sel = s.trn.sel ∧ t.trn.resSel = s.trn.resSel
      ∧ t.trn.commit = s.trn.commit ∧ t.trn.ring = s.trn.ring ∧ t.stp.vote = s.stp.vote ∧ t.stp.active = none
      ∧ t.mbx.cells = [] ∧ t.mbx.latch = [] ∧ t.dma.chans = [] ∧ t.cor.cores = [] ∧ t.obs.ctrs = [] ∧ t.fab.ports = []
      ∧ t.mem.wc = [] ∧ t.mem.selfRefresh = List.range 24 ∧ t.rgn.hdmBase = none ∧ t.hst.link = .down)
    ∧ (∀ x, s.startingUp = some x → x.cold = true → ∃ t, exec .warmReset s = .next t
      ∧ t.aon.coldArmed = true ∧ t.aon.resetN = false ∧ t.aon.pwrgd = true ∧ t.rgn.regions = [] ∧ t.att.list = []
      ∧ t.aon.banks = s.aon.banks ∧ t.aon.fzRollback = s.aon.fzRollback)

/-- No shard is left behind by the commit that the commit record names (R313). -/
def NoneInterrupted (s : State) : Prop :=
  ∀ x, s.trn.commit = some x → ∀ d ∈ s.trn.shards, (s.trn.selOf d.shard).ring + 1 ≠ x.1

/-- DEVICE_RESET of kind WARM with the confirmation word, and FW_ACTIVATE of the staged version while no step is active,
run a warm reset that ends READY: slots read zero, and, with no step to recover, plans and shards stay; after FW_ACTIVATE
the staged image runs from the bank that was idle (R493, R516, R577, R580, R591). -/
def Obligations.WarmResetByCommand : Prop :=
  (∀ (s : State) (k : SlotId) (inp : StartInputs), IsServed s k 0x0105 → drKind (s.asks k) = 1 → drOk (s.asks k) = true →
    StartsClean s inp → s.aon.resetN = true → ∃ t, exec (.deviceResetWarm k inp) s = .next t
      ∧ t.dev.mode = .ready ∧ t.serves = true ∧ t.mbx.cells = [] ∧ t.cor.cores = [] ∧ t.dma.chans = [] ∧ t.obs.ctrs = []
      ∧ t.aon.tick = s.aon.tick
      ∧ (s.stp.active = none → s.stp.resume = none → NoneInterrupted s → t.pln.plans = s.pln.plans
        ∧ t.trn.shards = s.trn.shards ∧ t.trn.sel = s.trn.sel ∧ t.trn.commit = s.trn.commit))
  ∧ ∀ (s : State) (k : SlotId) (inp : StartInputs) (b : Bytes), IsServed s k 0x0904 → (s.asks k).zb 4 4 = true →
    s.stagedImage = some b → imgVersion b = (s.asks k).f 0 4 → s.stepActive = false → s.aon.resetN = true →
    s.aon.selCopies.length = 2 → (∀ c ∈ s.aon.selCopies, c.seq + 1 < 2 ^ 32) → inp.failed = [] → inp.stall = none →
    ∃ t, exec (.fwActivate k inp) s = .next t
      ∧ t.dev.mode = .ready ∧ t.aon.selectedBank = s.idleBank ∧ t.dev.running = some (runningOf s.idleBank b)
      ∧ t.mbx.cells = [] ∧ t.aon.activating = false
      ∧ (s.stp.resume = none → t.pln.plans = s.pln.plans ∧ t.trn.shards = s.trn.shards)

/-- On reaching READY the fused rollback value rises to the running image's, never falls, and the fuses of the image's
FI_REVOKE blow but for its own key slot (R589). -/
def Obligations.FusesBlow : Prop :=
  ∀ (a : Aon) (r : Running), r.rollback ≤ 128 → r.keySlot < 4 →
    (a.blow r).rollback = max a.rollback r.rollback
    ∧ (∀ i, a.fzRollback.getLsbD i = true → (a.blow r).fzRollback.getLsbD i = true)
    ∧ ∀ i < 4, (a.blow r).fzRevoke.getLsbD i = (a.fzRevoke.getLsbD i || (bit r.revoke i && i != r.keySlot))

/-- A block whose temperature reaches its trip point halves its rate, and full rate returns below 97 °C, each with THERMAL
attention. One at its critical temperature stops; the device is FAILED with FAULT_N low and answers only the commands of
R494 without FW_ACTIVATE and DEVICE_RESET; with no step in progress nothing else changes (R494, R561 to R564). -/
def Obligations.ThermalStates : Prop :=
  (∀ (s : State) (b : ThermalBlock) (temp : Nat), s.aon.tickOn = true → (∀ n, b ≠ .stack n) → temp < 2 ^ 32 →
    (840 ≤ temp → b ∉ s.aon.halved → ∃ t, exec (.thermalTrip b temp) s = .next t
      ∧ b ∈ t.aon.halved ∧ t.att = s.att.raise s.aon.tick aTHERMAL 0 noTag (unitField b.unit.kind b.unit.num temp) 1
      ∧ t.aon = { s.aon with halved := t.aon.halved } ∧ Keeps [.aon, .att, .obs] s t ∧ t.obs.ctrs = s.obs.ctrs)
    ∧ (temp < 776 → b ∈ s.aon.halved → ∃ t, exec (.thermalRestore b temp) s = .next t
      ∧ b ∉ t.aon.halved ∧ t.att = s.att.raise s.aon.tick aTHERMAL 0 noTag (unitField b.unit.kind b.unit.num temp) 0
      ∧ t.aon = { s.aon with halved := t.aon.halved } ∧ Keeps [.aon, .att, .obs] s t ∧ t.obs.ctrs = s.obs.ctrs))
  ∧ ∀ (s : State) (b : ThermalBlock) (temp : Nat), s.aon.tickOn = true → s.stp.active = none → b ∉ s.aon.stopped →
    b.critical ≤ temp → temp < 2 ^ 32 → ∃ t, exec (.thermalCritical b temp) s = .next t
      ∧ b ∈ t.aon.stopped ∧ t.aon.faultN = false ∧ t.dev.mode = .failed ∧ t.dev.failCause = some .thermal
      ∧ t.att = s.att.raise s.aon.tick aFAULT 0 noTag (unitField b.unit.kind b.unit.num temp) 0
      ∧ t.gated 0x0904 = true ∧ t.gated 0x0105 = true ∧ t.gated 0x0103 = false ∧ t.gated 0x0901 = false
      ∧ Keeps [.aon, .att, .dev, .mbx, .obs] s t

/-- An idle block enters its low-power state, and a Grove that power-gates loses its scratchpad (R554, R555); a stack
enters self-refresh after a fence of its own write-combining entries (R219, R220). Memory and results stay. -/
def Obligations.LowPowerEntry : Prop :=
  (∀ (s : State) (b : LowPowerBlock), s.clocks = true → b ∉ s.aon.lowPower →
    (match b with
      | .groveClock n => s.groveIdle n = true
      | .grovePower n => s.groveIdle n = true ∧ .groveClock n ∈ s.aon.lowPower
      | .sapling _ => True
      | .lane n => s.gld.lanes.get n.val = none
      | .core n => (s.cor.core n).running = false ∨ (s.cor.core n).sleeping = true
      | .ranger _ => False) →
    ∃ t, exec (.lowPowerEntry b) s = .next t ∧ b ∈ t.aon.lowPower
      ∧ Keeps [.aon, .eng] s t ∧ t.eng = { s.eng with scratch := t.eng.scratch }
      ∧ (∀ x, x ∈ t.eng.scratch ↔ x ∈ s.eng.scratch ∧ ∀ n, b = .grovePower n → x.grove ≠ n.val))
  ∧ (∀ (s : State) (n : Fin 2), s.clocks = true → LowPowerBlock.ranger n ∉ s.aon.lowPower → s.mbx.latch = [] →
    s.mbx.prog = none → s.stp.active = none → s.stp.resume = none →
    (if n = 0 then s.aon.primary else s.aon.mate) = .awake →
    ∃ t, exec (.lowPowerEntry (.ranger n)) s = .next t ∧ (if n = 0 then t.aon.primary else t.aon.mate) = .asleep
      ∧ Keeps [.aon] s t)
  ∧ ∀ (s : State) (n : Fin 24), s.powered = true → s.dev.mode = .ready → s.dev.starting = none →
    n.val ∉ s.mem.selfRefresh → ThermalBlock.stack n ∉ s.aon.stopped →
    ∃ t, exec (.stackSelfRefreshEntry n) s = .next t ∧ t.mem.selfRefresh = s.mem.selfRefresh ++ [n.val]
      ∧ t.mem.cells = s.mem.cells ∧ t.mem.free = s.mem.free ∧ t.mem.poison = s.mem.poison ∧ Keeps [.mem] s t
      ∧ (∀ e, e ∈ t.mem.wc ↔ e ∈ s.mem.wc ∧ s.rgn.stackOfLine e.line ≠ some n.val)

/-- CRC failures in a row of a transfer on a bridge group, with one more (R32). -/
def crcRow (s : State) (g : Fin 16) (transfer : Nat) : Nat :=
  match s.dev.bridgeFails.get g with
  | some x => if x.1 = transfer then x.2 + 1 else 1
  | none => 1

/-- A unit that fails while the device runs, and the sixteenth failed replay in a row of a transfer of a bridge group,
raise FAULT attention with FAULT_N low; a step in progress does not commit, and after the bridge group no further step
begins; earlier failures only count. A start-up step that overruns its bound ends in FAILED, with FAULT_N low, the
units in the self-test report and FAULT attention, with INTERNAL where no unit is named, and the commands of R494 are
answered, FW_ACTIVATE and DEVICE_RESET among them (R16, R19, R32, R44, R494, R506, R573). -/
def Obligations.UnitsFail : Prop :=
  ((∀ (s : State) (u : UnitRef), s.powered = true → s.dev.mode = .ready → u.wf = true →
    ∃ t, exec (.unitFailure u) s = .next t ∧ t.aon.faultN = false
      ∧ (s.stp.active = none → t.att = s.att.raise s.aon.tick aFAULT 0 noTag (unitField u.kind u.num 0) 0
        ∧ Keeps [.aon, .att, .obs] s t)
      ∧ (s.stp.waitVerdict = [] → t.trn.ring = s.trn.ring ∧ t.trn.sel = s.trn.sel ∧ t.trn.commit = s.trn.commit))
  ∧ ∀ (s : State) (g : Fin 16) (x : Nat), s.powered = true → ∃ t, exec (.bridgeCrcFail ⟨g, x⟩) s = .next t
      ∧ t.dev.bridgeFails.get g = some (x, crcRow s g x)
      ∧ (crcRow s g x ≠ 17 → Keeps [.dev] s t ∧ t.dev.haltSteps = s.dev.haltSteps)
      ∧ (crcRow s g x = 17 → t.dev.haltSteps = true ∧ t.aon.faultN = false))
  ∧ ∀ (s : State) (x : Starting) (us : List SelfTestEntry), s.startingUp = some x → s.powered = true →
    (∀ e ∈ us, e.unit.wf = true) → ∃ t, exec (.startBoundExceeded us) s = .next t
      ∧ t.dev.mode = .failed ∧ t.dev.failCause = some .start ∧ t.aon.faultN = false
      ∧ t.dev.selfTest = s.dev.selfTest ++ us ∧ t.serves = true
      ∧ t.att.aseq = s.att.aseq + BitVec.ofNat 16 (max 1 us.length)
      ∧ (us = [] → t.att = s.att.raise s.aon.tick aFAULT cINTERNAL noTag 0 0)
      ∧ t.gated 0x0904 = false ∧ t.gated 0x0105 = false ∧ t.gated 0x0301 = true
      ∧ Keeps [.aon, .att, .dev, .mbx, .obs] s t


/-! ### Mailboxes and the session -/

/-- A hand-over puts the slot at the end of the latch queue with OWN set and wakes the primary Ranger; one made while OWN
is 1 changes nothing but the LOG attention it raises (R486, R487). Every latched request has a defined opcode here: others
are answered at once. -/
def Obligations.HandOverLatches : Prop :=
  ∀ (s : State) (k : SlotId), s.Inv → s.aon.tickOn = true → (k.val < 64 → s.hst.link = .up) →
    (s.mbx.own k = false → (∀ j, j = k.val ∨ j ∈ s.mbx.latch → (s.mbx.req j).opcode ∈ opcodes) →
      ∃ t, exec (.mbxOwnWrite k) s = .next t ∧ t.mbx.latch = s.mbx.latch ++ [k.val] ∧ t.mbx.own k = true
        ∧ t.aon.primary ≠ .asleep ∧ t.aon = { s.aon with primary := t.aon.primary } ∧ Keeps [.mbx, .aon] s t
        ∧ ∀ j : SlotId, t.asks j = s.asks j)
    ∧ (s.mbx.own k = true → ∃ t, exec (.mbxOwnWrite k) s = .next t
        ∧ t.att = s.att.raise s.aon.tick aLOG 0 noTag 0 (slotBase k + 0x38) ∧ Keeps [.att, .obs] s t)

/-- A write to the request area of a slot that is not handed over stores its bytes there and nowhere else, from the
host at a BAR0 offset and from a core in its own slot; into a reply area it is discarded; while OWN is 1 it is
discarded with LOG attention; a core that writes another core's slot takes a precise store access fault, and nothing
changes; a read returns the slot's bytes as they are (R455, R484 to R486). -/
def Obligations.SlotWrites : Prop :=
  (∀ (s : State) (n off : Nat) (d : Bytes), s.Inv → off < 160 → 0 < d.length → n + d.length ≤ 4096 →
    ∀ (by_ : Issuer) (addr : Nat),
    (match by_ with
      | .host => off < 64 ∧ addr = slotBase off + n ∧ s.hst.link = .up ∧ s.powered = true
          ∧ bar0SizeOk addr d.length true = true
      | .core c => off = 64 + c.val ∧ addr = 0x00F000000000 + slotBase c + n
          ∧ ((d.length = 4 ∨ d.length = 8) ∧ n % d.length = 0
            ∨ (d.length = 1 ∨ d.length = 2) ∧ n % d.length = 0 ∧ n < 0x800)) →
    ∃ t, exec (.slotWrite by_ addr (.write d)) s = .next t
      ∧ (s.mbx.own off = false → n + d.length ≤ 0x38 ∨ 0x40 ≤ n ∧ n + d.length ≤ 0x800 →
          Keeps [.mbx] s t ∧ t.mbx.latch = s.mbx.latch
          ∧ ∀ a, t.mbx.cells.read a = if slotBase off + n ≤ a ∧ a < slotBase off + n + d.length
              then d.getD (a - (slotBase off + n)) 0#8 else s.mbx.cells.read a)
      ∧ (0x800 ≤ n → t = s)
      ∧ (s.mbx.own off = true → n + d.length ≤ 0x800 → t.mbx = s.mbx
          ∧ t.att = s.att.raise s.aon.tick aLOG 0 noTag 0 (slotBase off + n) ∧ Keeps [.att, .obs] s t))
  ∧ (∀ (s : State) (c m : Fin 96) (n : Nat) (d : Bytes), c ≠ m → n < 4096 →
    ∃ t, exec (.slotWrite (.core c) (0x00F000000000 + slotBase m + n) (.write d)) s = .next t
      ∧ t.out = s.out ++ [.coreFault c.val true] ∧ Keeps [.out] s t)
  ∧ ∀ (s : State) (n len : Nat), len = 4 ∨ len = 8 → n % len = 0 → n + len ≤ 4096 →
    (∀ k < 64, s.hst.link = .up → s.powered = true → ∃ t, exec (.slotWrite .host (slotBase k + n) (.read len)) s = .next t
      ∧ t.out = s.out ++ [.data 0 (s.mbx.cells.readN (slotBase k + n) len)] ∧ Keeps [.out] s t)
    ∧ ∀ c m : Fin 96, ∃ t, exec (.slotWrite (.core c) (0x00F000000000 + slotBase m + n) (.read len)) s = .next t
      ∧ t.out = s.out ++ [.data (5 + c.val) (s.mbx.cells.readN (slotBase (64 + m) + n) len)] ∧ Keeps [.out] s t

/-- The reply of HELLO to a state: Porip 1.0, DEV_STATE, FS_STATE, fabric address, device ring (R512). -/
def helloReply (s : State) : Bytes :=
  leBytes 2 0x0100 ++ leBytes 1 s.dev.mode.code ++ leBytes 1 s.fab.fs.code
    ++ leBytes 2 (match s.fab.addr with | some a => 2 ^ 15 + a | none => 0) ++ zeros 2 ++ leBytes 8 s.deviceRing

/-- HELLO, INFO and QUERY answer what R507, R512, R513 and R514 list. HELLO of the host after the link came back ends
host-staleness (R472), and another changes nothing; QUERY with acknowledgement removes the entries of R501 first. -/
def Obligations.SessionReplies : Prop :=
  (∀ (s : State) (k : SlotId), s.Inv → IsServed s k 0x0101 → (s.asks k).f 1 1 = 1 → (s.asks k).rz 2 2 15 1 = true →
    (s.asks k).zb 4 4 = true → ((s.asks k).fromCore = true → bit ((s.asks k).f 2 2) 0 = false) →
    ∃ t, exec (.hello k) s = .next t
      ∧ ((s.asks k).fromCore = true ∨ s.hst.helloSeen = true → OnlyReplies s t k cOK (helloReply s))
      ∧ ((s.asks k).fromCore = false → s.hst.helloSeen = false →
          t.hst.helloSeen = true ∧ (∀ r ∈ t.rgn.regions, r.stale = false) ∧ t.mbx.own k = false))
  ∧ (∀ (s : State) (k : SlotId), s.Inv → IsServed s k 0x0102 →
      ∃ t, exec (.info k) s = .next t ∧ OnlyReplies s t k cOK s.infoReply)
  ∧ ∀ (s : State) (k : SlotId), s.Inv → IsServed s k 0x0103 → (s.asks k).rz 6 2 15 1 = true →
      (s.asks k).zb 0x0A 6 = true → ((s.asks k).fromCore = true → bit ((s.asks k).f 6 2) 0 = false) →
      ∃ t d, exec (.query k) s = .next t ∧ Replied s t k cOK d ∧ Keeps [.mbx, .aon, .att] s t
        ∧ t.att = (if bit ((s.asks k).f 6 2) 0 then s.att.ack (BitVec.ofNat 16 ((s.asks k).f 4 2)) else s.att)
        ∧ d.take 2 = leBytes 2 t.att.list.length
        ∧ d.drop 32 = ((t.att.byAge.drop ((s.asks k).f 8 2)).take 61).flatMap AttnEntry.bytes
        ∧ ((s.asks k).f 0 4 ≠ noTag →
            (d.drop 4).take 2 = [BitVec.ofNat 8 (s.tagState ((s.asks k).f 0 4)).1, BitVec.ofNat 8 (s.tagState ((s.asks k).f 0 4)).2])

/-- ABORT: a queued step becomes DONE with ABORTED, a step that is DONE answers TOO_LATE with its code, a transfer
that has not started is discarded, and the active one ends ABORTED (R333, R481, R515). -/
def Obligations.AbortEnds : Prop :=
  ∀ (s : State) (k : SlotId) (tag : Nat), s.Inv → IsServed s k 0x0104 → (s.asks k).zb 4 4 = true →
    tag = (s.asks k).f 0 4 →
    (∀ (q : Step) (w : StateWord), s.dma.byTag tag = none → s.stp.queued = some q → q.tag = tag →
      s.stp.words.find? (·.tag == tag) = some w → w.st = .queued →
      ∃ t, exec (.abort k) s = .next t ∧ t.stp.queued = none ∧ t.stp.doneCode tag = some cABORTED
        ∧ Replied s t k cOK (zeros 8) ∧ t.stp.active = s.stp.active ∧ t.trn = s.trn ∧ t.mem = s.mem)
    ∧ (∀ (w : StateWord) (c : Nat), s.dma.byTag tag = none → s.stp.words.find? (·.tag == tag) = some w → w.st = .done c →
      ∃ t, exec (.abort k) s = .next t ∧ OnlyReplies s t k cTOO_LATE (leBytes 1 c ++ zeros 7))
    ∧ ∀ n, s.stp.words.find? (·.tag == tag) = none →
      (s.dma.byTag tag = some (n, false) → (s.dma.ch n).shadow.ended = false →
        ∃ t, exec (.abort k) s = .next t ∧ (t.dma.ch n).shadow = DmaSet.reset
        ∧ Replied s t k cOK (zeros 8) ∧ Keeps [.mbx, .aon, .dma] s t)
      ∧ (s.dma.byTag tag = some (n, true) → (s.dma.ch n).active.ended = false → (s.dma.ch n).shadow.valid = false →
        ∃ t, exec (.abort k) s = .next t
        ∧ (t.dma.ch n).active.ended = true ∧ (t.dma.ch n).active.code = cABORTED ∧ (t.dma.ch n).state = 0
        ∧ (t.dma.ch n).okCount = (s.dma.ch n).okCount ∧ Keeps [.mbx, .aon, .dma] s t)

/-- DEVICE_RESET of kind CONTEXT while no step is queued or active and no window access waits removes plans, shards,
sources, regions, mappings and translations, stops the cores, ends the transfers and sets the ring to 0; attention,
fabric state, firmware and step records stay (R516, R580). -/
def Obligations.ContextReset : Prop :=
  ∀ (s : State) (k : SlotId), s.Inv → IsServed s k 0x0105 → drKind (s.asks k) = 0 → drOk (s.asks k) = true →
    s.stepActive = false → s.stp.queued = none → s.hst.held = [] →
    ∃ t, exec (.deviceResetContext k) s = .next t ∧ Replied s t k cOK []
      ∧ t.rgn.regions = [] ∧ t.rgn.tbl = [] ∧ t.rgn.tcache = [] ∧ t.rgn.hdmBase = s.rgn.hdmBase
      ∧ t.pln.plans = [] ∧ t.trn.shards = [] ∧ t.trn.sel = [] ∧ t.trn.ring = 0 ∧ t.gld.sources = []
      ∧ (∀ n, (t.cor.core n).running = false)
      ∧ (∀ n, (t.dma.ch n).active.valid = true → (t.dma.ch n).active.ended = true)
      ∧ t.att = s.att ∧ t.fab.fs = s.fab.fs ∧ t.fab.members = s.fab.members ∧ t.dev = s.dev ∧ t.stp.words = s.stp.words
      ∧ t.stp.records = s.stp.records ∧ (s.cor.cores = [] → t.mem.cells = s.mem.cells)
      ∧ (s.cor.cores = [] → (∀ r ∈ s.rgn.regions, r.kind ≠ 1) → t.mem.free = s.mem.free)

/-! ### Observation -/

/-- The counter that an entry of CTR_CONFIG names. -/
def ctrOf (e : Nat) : Nat := bits e 9 0

/-- CTR_CONFIG gives each named counter its mode, event and scope with count and OVF at 0, the last entry for a
counter in force, and leaves every other counter as it was. CTR_SNAPSHOT numbers its snapshot, keeps it in the named
slot with DEV_TICK, answers both, and changes no counter that counts what the rules fix; with an address 0 no byte of
memory changes, with another only the snapshot's 8,256 bytes (R612, R615, R617 to R619). -/
def Obligations.CountersKept : Prop :=
  (∀ (s : State) (k : SlotId) (es : List Nat), s.Inv → IsServed s k 0x0801 → 1 ≤ es.length → es.length ≤ 246 →
    (s.asks k).f 0 2 = es.length → (s.asks k).zb 2 14 = true →
    es = ((List.range es.length).map fun i => (s.asks k).f (0x10 + 8 * i) 8) → es.all ctrEntryOk = true →
    selectorsOk (applyEntries s.obs.ctrs es) = true →
    ∃ t, exec (.ctrConfig k) s = .next t ∧ Replied s t k cOK [] ∧ Keeps [.mbx, .aon, .obs] s t
      ∧ t.obs = { s.obs with ctrs := t.obs.ctrs }
      ∧ (∀ n, n ∉ es.map ctrOf → t.obs.ctrs.get n = s.obs.ctrs.get n)
      ∧ ∀ l e r, es = l ++ e :: r → ctrOf e ∉ r.map ctrOf →
          t.obs.ctrs.get (ctrOf e) = some ⟨bits e 11 10, bits e 23 12, bits e 39 24, 0, false⟩)
  ∧ ∀ (s : State) (k : SlotId) (va : Nat), s.Inv → IsServed s k 0x0802 → va = (s.asks k).f 8 8 →
    (s.asks k).rz 0 1 7 4 = true → (s.asks k).zb 1 7 = true → vaOk va = true → va % 64 = 0 →
    (va ≠ 0 → (s.rgn.inWritable va 8256).isSome = true ∧ Accessible s va 8256 true) →
    ∃ t p, exec (.ctrSnapshot k) s = .next t
      ∧ t.obs.snaps.get (bits ((s.asks k).f 0 1) 3 0) = some p ∧ p.seq = (s.obs.snapSeq + 1).toNat
      ∧ p.tick = s.aon.tick.toNat ∧ p.ctrs = t.obs.ctrs ∧ t.obs.snapSeq = s.obs.snapSeq + 1
      ∧ Replied s t k cOK (leBytes 4 p.seq ++ zeros 4 ++ leBytes 8 p.tick)
      ∧ (∀ i, ctrFree s.obs.ctrs 1024 i = false → t.obs.ctrs.get i = s.obs.ctrs.get i)
      ∧ (va = 0 → t.mem = s.mem ∧ Keeps [.mbx, .aon, .obs, .fresh] s t)
      ∧ (va ≠ 0 → SameBytes (s.storesTo va 8256) s t)

/-- TRACE_CONFIG: SET starts the buffers anew with the classes and targets named, STOP stops them and keeps what they
hold, COPY writes the 64 status bytes and both buffers to the named range and to no other byte. SAMPLE_CONFIG: with
SC_EN 1 the setting is kept with its counts at 0 and the 16 status bytes of its buffer zeroed, no other byte of memory
changing; with SC_EN 0 sampling ends (R621, R624, R625, R629). -/
def Obligations.TracingAndSampling : Prop :=
  (∀ (s : State) (k : SlotId), s.Inv → IsServed s k 0x0803 → traceOk (s.asks k) = true →
    bits ((s.asks k).f 0 1) 1 0 = 0 → (s.asks k).f 8 8 = 0 → s.obs.sampler = none →
    ∃ t, exec (.traceSet k) s = .next t ∧ t.obs.trkRun = 1 ∧ t.obs.trkClasses = (s.asks k).f 2 2
      ∧ t.obs.trkTargets = traceTargets (s.asks k) ∧ t.obs.eastNext = 0 ∧ t.obs.westNext = 0 ∧ t.obs.trkLost = 0
      ∧ t.obs.trace = [] ∧ t.obs.ctrs = s.obs.ctrs ∧ Replied s t k cOK (leBytes 4 1 ++ zeros 12)
      ∧ Keeps [.mbx, .aon, .obs] s t)
  ∧ (∀ (s : State) (k : SlotId), s.Inv → IsServed s k 0x0803 → traceOk (s.asks k) = true →
    bits ((s.asks k).f 0 1) 1 0 = 1 → (s.asks k).f 8 8 = 0 →
    ∃ t, exec (.traceStop k) s = .next t ∧ t.obs = { s.obs with trkRun := 0 }
      ∧ Replied s t k cOK (zeros 4 ++ leBytes 4 s.obs.trkLost ++ leBytes 4 s.obs.eastNext ++ leBytes 4 s.obs.westNext)
      ∧ Keeps [.mbx, .aon, .obs] s t)
  ∧ (∀ (s : State) (k : SlotId) (va : Nat), s.Inv → IsServed s k 0x0803 → traceOk (s.asks k) = true →
    bits ((s.asks k).f 0 1) 1 0 = 2 → s.obs.trkRun ≠ 1 → va = (s.asks k).f 8 8 → va % 64 = 0 →
    (s.rgn.inWritable va 33554496).isSome = true → Accessible s va 33554496 true →
    ∃ t, exec (.traceCopy k) s = .next t ∧ t.obs = s.obs ∧ Replied s t k cOK s.obs.traceReply
      ∧ SameBytes (s.storesTo va 33554496) s t ∧ Keeps [.mbx, .aon, .mem, .coh, .rgn, .out] s t)
  ∧ (∀ (s : State) (k : SlotId) (va n : Nat), s.Inv → IsServed s k 0x0804 → bit ((s.asks k).f 0 1) 0 = true →
    va = (s.asks k).f 8 8 → n = (s.asks k).f 0x10 8 → (s.asks k).rz 0 1 7 4 = true → (s.asks k).zb 1 3 = true →
    vaOk va = true → 1 ≤ (s.asks k).f 4 4 → (s.asks k).f 4 4 ≤ 16777216 → va % 64 = 0 → n % 32 = 0 → 96 ≤ n →
    (bit ((s.asks k).f 0 1) 2 = true ∨ bit ((s.asks k).f 0 1) 3 = true) →
    (∃ r, s.rgn.inWritable va n = some r ∧ r.kind = 0) → Accessible s va n true →
    ((sampleGroves (s.asks k)).filter (· < 96)).length ≤ 16 → ((sampleGroves (s.asks k)).filter (96 ≤ ·)).length ≤ 16 →
    s.obs.trkRun ≠ 1 →
    ∃ t p, exec (.sampleStart k) s = .next t ∧ t.obs.sampler = some p ∧ p.groves = sampleGroves (s.asks k)
      ∧ p.period = (s.asks k).f 4 4 ∧ p.va = va ∧ p.bytes = n ∧ p.counts = [] ∧ p.written = 0 ∧ p.lost = 0
      ∧ p.loads = bit ((s.asks k).f 0 1) 2 ∧ p.stores = bit ((s.asks k).f 0 1) 3 ∧ Replied s t k cOK []
      ∧ SameBytes (s.storesTo va 16) s t ∧ (t.readVa va 16).1 = zeros 16)
  ∧ ∀ (s : State) (k : SlotId), s.Inv → IsServed s k 0x0804 → (s.asks k).zb 0 48 = true →
    ∃ t, exec (.sampleStop k) s = .next t ∧ t.obs = { s.obs with sampler := none } ∧ Replied s t k cOK []
      ∧ Keeps [.mbx, .aon, .obs] s t

/-! ### Identity, firmware and cores -/

/-- ATTEST signs the 448 bytes of the report that carries the caller's nonce; ID_READ answers what the bus answers, cut or
padded to the length asked, from every area of R601; both only reply (R593, R595, R601). -/
def Obligations.IdentityReads : Prop :=
  (∀ (s : State) (k : SlotId), s.Inv → IsServed s k 0x0901 → (s.asks k).f 0 1 = 1 → (s.asks k).zb 1 7 = true →
    ∃ t, exec (.attest k) s = .next t
      ∧ OnlyReplies s t k cOK (s.attestBody (((s.asks k).pay.drop 8).take 32)
          ++ padTo 64 (edSign s.aon.fzIdKey (s.attestBody (((s.asks k).pay.drop 8).take 32)))))
  ∧ ∀ (s : State) (k : SlotId) (b : Bytes) (area : Nat), s.Inv → IsServed s k 0x0902 →
    idArea ((s.asks k).f 0 1) = some area → (s.asks k).zb 1 1 = true → (s.asks k).zb 6 2 = true →
    1 ≤ (s.asks k).f 4 2 → (s.asks k).f 4 2 ≤ 1984 → (s.asks k).f 2 2 + (s.asks k).f 4 2 ≤ area →
    (∃ t, exec (.idRead k (some b)) s = .next t ∧ OnlyReplies s t k cOK (padTo ((s.asks k).f 4 2) b))
    ∧ ∃ t, exec (.idRead k none) s = .next t ∧ OnlyReplies s t k cNOT_READY []

/-- FW_STAGE of an image that verifies writes it into the bank that is not running and answers its version and rollback
counter; the running bank, the selector and every byte of memory stay; one that fails to verify leaves the banks as they
were, with the code of its first failed check (R587, R590). -/
def Obligations.FirmwareStaged : Prop :=
  ∀ (s : State) (k : SlotId) (va len : Nat), s.Inv → IsServed s k 0x0903 → va = (s.asks k).f 0 8 →
    len = (s.asks k).f 8 4 → (s.asks k).zb 0x0C 4 = true → vaOk va = true → len ≤ 2 ^ 23 →
    Accessible s va len false → s.aon.activating = false → s.aon.banks.length = 2 →
    ∃ t, exec (.fwStage k) s = .next t ∧ t.aon.selCopies = s.aon.selCopies ∧ SameBytes (fun _ => False) s t
      ∧ (∀ r, s.dev.running = some r → r.bank < 2 → t.aon.banks.getD r.bank [] = s.aon.banks.getD r.bank [])
      ∧ (s.aon.verifyImage (s.peekVa va len) = none → t.aon.banks.getD s.idleBank [] = s.peekVa va len
          ∧ Replied s t k cOK (leBytes 4 (imgVersion (s.peekVa va len)) ++ leBytes 4 (imgRollback (s.peekVa va len)) ++ zeros 8))
      ∧ (∀ c, s.aon.verifyImage (s.peekVa va len) = some c → t.aon.banks = s.aon.banks ∧ Replied s t k c [])

/-- CORES_LOAD copies its bytes into a STACK region while every core is stopped and changes no other byte; CORES_START
starts the named cores in machine mode at the entry with a0 the argument and a1 the core's number; CORES_STOP stops them;
cores not named stay as they are (R545 to R547). -/
def Obligations.CoresControl : Prop :=
  (∀ (s : State) (k : SlotId) (r : Region) (off : Nat), s.Inv → IsServed s k 0x0A01 → (s.asks k).zb 0x18 8 = true →
    vaOk ((s.asks k).f 0 8) = true → 1 ≤ (s.asks k).f 0x10 8 → (s.asks k).f 0x10 8 < 2 ^ 36 →
    s.rgn.byPa ((s.asks k).f 8 8) = some (r, off) → r.kind = 0 → off + (s.asks k).f 0x10 8 ≤ r.size →
    s.cor.anyRunning = false → Accessible s ((s.asks k).f 0 8) ((s.asks k).f 0x10 8) false →
    ∃ t, exec (.coresLoad k) s = .next t ∧ Replied s t k cOK [] ∧ t.cor = s.cor
      ∧ SameBytes (fun a => r.id * 2 ^ 42 + off ≤ a ∧ a < r.id * 2 ^ 42 + off + (s.asks k).f 0x10 8) s t
      ∧ ∀ i < (s.asks k).f 0x10 8, t.byte (r.id * 2 ^ 42 + off + i)
          = (s.peekVa ((s.asks k).f 0 8) ((s.asks k).f 0x10 8)).getD i 0#8)
  ∧ (∀ (s : State) (k : SlotId), s.Inv → IsServed s k 0x0A02 → (s.asks k).zb 0x0C 4 = true →
    (s.asks k).f 0x10 8 % 2 = 0 → (s.rgn.byPa ((s.asks k).f 0x10 8)).isSome = true →
    (∀ n ∈ maskCores ((s.asks k).f 0 8) ((s.asks k).f 8 4), (s.cor.core n).running = false) →
    ∃ t, exec (.coresStart k) s = .next t ∧ Replied s t k cOK [] ∧ Keeps [.mbx, .aon, .cor] s t
      ∧ (∀ n ∉ maskCores ((s.asks k).f 0 8) ((s.asks k).f 8 4), t.cor.core n = s.cor.core n)
      ∧ ∀ n ∈ maskCores ((s.asks k).f 0 8) ((s.asks k).f 8 4),
          (t.cor.core n).running = true ∧ (t.cor.core n).mode = 3
          ∧ (t.cor.core n).pc = BitVec.ofNat 64 ((s.asks k).f 0x10 8)
          ∧ (t.cor.core n).x.getD 10 0 = BitVec.ofNat 64 ((s.asks k).f 0x18 8)
          ∧ (t.cor.core n).x.getD 11 0 = BitVec.ofNat 64 n)
  ∧ ∀ (s : State) (k : SlotId), s.Inv → IsServed s k 0x0A03 → (s.asks k).zb 0x0C 4 = true →
    ∃ t, exec (.coresStop k) s = .next t ∧ Replied s t k cOK []
      ∧ (∀ n ∈ maskCores ((s.asks k).f 0 8) ((s.asks k).f 8 4), (t.cor.core n).running = false)
      ∧ ∀ n, (t.cor.core n).running = true → n ∉ maskCores ((s.asks k).f 0 8) ((s.asks k).f 8 4) ∧ (s.cor.core n).running = true

/-- A core's scalar access of the device information block answers its bytes and a store there faults; a store to a
compare register sets it; DEV_TICK at a compare value makes the interrupt pending and wakes the core; WFI sleeps while
nothing is pending (R541, R543, R548, R550). -/
def Obligations.CoreEvents : Prop :=
  (∀ (s : State) (c : Fin 96) (off n : Nat), s.powered = true → s.dieStopped c = false → (s.cor.core c).running = true →
    (s.cor.core c).waiting = false → off + n ≤ 0x10000 → n = 4 ∨ n = 8 → off % n = 0 →
    (∃ t, exec (.coreIoAccess c (0x00F000080000 + off) (.load n)) s = .next t
      ∧ t.out = s.out ++ [.data (5 + c.val) (s.infoRead off n)] ∧ Keeps [.out] s t)
    ∧ ∀ d : Bytes, d.length = n → ∃ t, exec (.coreIoAccess c (0x00F000080000 + off) (.store d)) s = .next t
      ∧ t.out = s.out ++ [.coreFault c.val true] ∧ Keeps [.out] s t)
  ∧ (∀ (s : State) (c : Fin 96), s.powered = true →
    ∃ t, exec (.coreTimerCompare c .m) s = .next t ∧ Keeps [.cor, .aon] s t
      ∧ (t.cor.core c).mtip = ((s.cor.core c).mtip || decide ((s.cor.core c).mtimecmp.toNat ≤ s.aon.tick.toNat))
      ∧ ((t.cor.core c).mtip = true → (t.cor.core c).sleeping = false)
      ∧ (∀ m, m ≠ c.val → t.cor.core m = s.cor.core m))
  ∧ ∀ (s : State) (c : Fin 96), s.powered = true → s.dieStopped c = false → (s.cor.core c).running = true →
    (s.cor.core c).waiting = false → (s.cor.core c).irq = false →
    ∃ t, exec (.coreWfi c) s = .next t ∧ t.cor.core c = { s.cor.core c with sleeping := true }
      ∧ (∀ m, m ≠ c.val → t.cor.core m = s.cor.core m) ∧ Keeps [.cor] s t

/-! ### Regions and placement -/

/-- REGION_CREATE with legal attributes, an id free and room in every channel it needs, makes a region of those
attributes under the lowest free id, unmapped and unregistered; a STACK or TIERED region's T2 bytes read zero, no
other byte of memory changes, and the reply names the id and RG_HDM_OFF. REGION_REGISTER within R460's legal values,
when no access that the old registration admitted waits, gives the region its window, sources and rights, or with
RR_SOURCES 0 takes its registration away; other regions and memory stay (R187 to R190, R253, R460, R517). -/
def Obligations.RegionsMade : Prop :=
  (∀ (s : State) (k : SlotId) (q : Req) (kind : Nat), s.Inv → q = s.asks k → IsServed s k 0x0201 →
    q.rz 0 1 7 6 = true → q.rz 1 1 7 4 = true → q.zb 0x0C 4 = true → q.zb 0x18 8 = true → kind = bits (q.f 0 1) 1 0 →
    regionLegal kind (bits (q.f 0 1) 3 2) (q.f 2 2) (q.f 4 4) (q.f 8 4) (q.f 0x10 8) (bits (q.f 0 1) 5 4) = true →
    s.rgn.regions.length < 64 →
    (kind ≠ 2 → channelsSuffice s.rgn (bits (q.f 0 1) 3 2) (q.f 2 2) (if kind = 0 then q.f 4 4 else q.f 8 4) = true) →
    ∃ t r, exec (.regionCreate k) s = .next t ∧ t.rgn.regions = s.rgn.regions ++ [r]
      ∧ r.id < 64 ∧ (∀ x ∈ s.rgn.regions, x.id ≠ r.id) ∧ (∀ j < r.id, ∃ x ∈ s.rgn.regions, x.id = j)
      ∧ r.kind = kind ∧ r.mode = bits (q.f 0 1) 3 2 ∧ r.cache = bits (q.f 0 1) 5 4 ∧ r.part = q.f 1 1 ∧ r.target = q.f 2 2
      ∧ r.pages = q.f 4 4 ∧ r.t2Pages = q.f 8 4 ∧ r.hostBase = q.f 0x10 8 ∧ r.map = none ∧ r.reg = none ∧ r.inT2 = []
      ∧ r.hdmOff = (if kind = 0 then ((s.rgn.regions.filter (·.kind == 0)).map Region.size).sum else 0)
      ∧ Replied s t k cOK (leBytes 1 r.id ++ zeros 7 ++ leBytes 8 r.hdmOff)
      ∧ (kind ≠ 2 → ∀ i < r.size, t.mem.byte (r.id * 2 ^ 42 + i) = 0#8)
      ∧ (kind = 2 → t.mem = s.mem)
      ∧ SameBytes (fun a => r.id * 2 ^ 42 ≤ a ∧ a < r.id * 2 ^ 42 + r.size) s t
      ∧ Keeps [.mbx, .aon, .mem, .coh, .rgn] s t)
  ∧ ∀ (s : State) (k : SlotId) (q : Req) (r : Region), q = s.asks k → s.Inv → IsServed s k 0x0202 →
    q.rz 0 1 7 6 = true → q.rz 2 1 7 2 = true → q.zb 3 5 = true → s.rgn.get (bits (q.f 0 1) 5 0) = some r →
    r.kind ≠ 2 → q.f 1 1 < 32 → q.f 8 8 % pageBytes = 0 → q.f 8 8 + r.size ≤ 2 ^ 42 →
    (q.f 1 1 ≠ 0 → ∀ x ∈ s.rgn.regions, x.id ≠ r.id → x.windowHits (q.f 8 8) r.size = false) →
    (∀ w ∈ s.hst.held, w.place.any (·.1 == r.id) = false) →
    ∃ t, exec (.regionRegister k) s = .next t ∧ Replied s t k cOK []
      ∧ (q.f 1 1 = 0 → t.rgn.get r.id = some { r with reg := none })
      ∧ (q.f 1 1 ≠ 0 → t.rgn.get r.id
          = some { r with reg := some ⟨q.f 8 8, q.f 1 1, bit (q.f 2 1) 0, bit (q.f 2 1) 1⟩ })
      ∧ (∀ i, i ≠ r.id → t.rgn.get i = s.rgn.get i) ∧ t.rgn.tbl = s.rgn.tbl ∧ Keeps [.mbx, .aon, .rgn] s t

/-- MAP of an unmapped region at a free aligned base keeps the mapping with its flags, or, where table space lacks
room, answers NO_RESOURCE with nothing mapped; UNMAP of a region that nothing names takes its entries and tables away
and every cached translation of its range, and where something names it answers BUSY (R236, R240, R241). Neither
touches a byte of memory or another region. -/
def Obligations.MappingChanges : Prop :=
  (∀ (s : State) (k : SlotId) (q : Req) (r : Region), q = s.asks k → s.Inv → IsServed s k 0x0205 →
    q.rz 0 1 7 6 = true → q.rz 1 1 7 2 = true → q.zb 2 6 = true → vaOk (q.f 8 8) = true →
    s.rgn.get (bits (q.f 0 1) 5 0) = some r → r.map = none → q.f 8 8 % pageBytes = 0 → q.f 8 8 + r.size ≤ 2 ^ 56 →
    (∀ x ∈ s.rgn.regions, ∀ m, x.map = some m → overlaps m.base x.size (q.f 8 8) r.size = false) →
    let m : Mapping := ⟨q.f 8 8, bit (q.f 1 1) 0, bit (q.f 1 1) 1⟩
    (∀ g, mapTable r.id m m.base (m.base + r.size) 3 s.rgn 0 0 = some g → ∃ t, exec (.map k) s = .next t
      ∧ Replied s t k cOK [] ∧ t.rgn = g.put { r with map := some m } ∧ t.rgn.get r.id = some { r with map := some m }
      ∧ (∀ i, i ≠ r.id → t.rgn.get i = s.rgn.get i) ∧ t.mem = { s.mem with poison := t.mem.poison }
      ∧ (∀ l < 2 ^ 60, l ∈ t.mem.poison ↔ l ∈ s.mem.poison) ∧ Keeps [.mbx, .aon, .mem, .rgn] s t)
    ∧ (mapTable r.id m m.base (m.base + r.size) 3 s.rgn 0 0 = none → ∃ t, exec (.map k) s = .next t
      ∧ OnlyReplies s t k cNO_RESOURCE []))
  ∧ ∀ (s : State) (k : SlotId) (q : Req) (r : Region) (m : Mapping), q = s.asks k → s.Inv → IsServed s k 0x0206 →
    q.rz 0 1 7 6 = true → q.zb 1 7 = true → s.rgn.get (bits (q.f 0 1) 5 0) = some r → r.map = some m →
    (s.regionNamed r = false → ∃ t, exec (.unmap k) s = .next t ∧ Replied s t k cOK []
      ∧ t.rgn.get r.id = some { r with map := none } ∧ (∀ i, i ≠ r.id → t.rgn.get i = s.rgn.get i)
      ∧ t.rgn.tbl = (unmapTable m.base (m.base + r.size) 3 s.rgn 0 0).tbl
      ∧ t.rgn.tables = (unmapTable m.base (m.base + r.size) 3 s.rgn 0 0).tables
      ∧ (∀ e ∈ t.rgn.tcache, ¬ (m.base ≤ e.base ∧ e.base < m.base + r.size)) ∧ Keeps [.mbx, .aon, .rgn] s t)
    ∧ (s.regionNamed r = true → ∃ t, exec (.unmap k) s = .next t ∧ OnlyReplies s t k cBUSY [])

/-- BIAS_SET. To shared: after the cores' modified copies are written back and a fence, the pages of a STACK region
are shared. To device: with no line of the pages held by the host and no back-invalidation of one outstanding they
take device bias at once; otherwise the pages flip, a back-invalidation is outstanding for each line held, and the
command waits. The host's answer ends one, its modified data replacing the bytes no agent has written since (R256,
R258, R259). -/
def Obligations.BiasChanges : Prop :=
  (∀ (s : State) (k : SlotId) (q : Req) (r : Region), q = s.asks k → s.Inv → IsServed s k 0x0203 →
    s.rgn.pageRange q = some r → r.kind = 0 → bits (q.f 1 1) 1 0 = 1 →
    ∃ t r', exec (.biasSetShared k) s = .next t ∧ Replied s t k cOK [] ∧ t.mem.wc = [] ∧ SameBytes (fun _ => False) s t
      ∧ t.rgn.get r.id = some r' ∧ (∀ p, p ∈ r'.shared ↔ p ∈ r.shared ∨ p ∈ rangePages q)
      ∧ (∀ p ∈ rangePages q, p ∉ r'.flipping) ∧ (∀ i, i ≠ r.id → t.rgn.get i = s.rgn.get i)
      ∧ Keeps [.mbx, .aon, .mem, .coh, .rgn] s t)
  ∧ (∀ (s : State) (k : SlotId) (q : Req) (r : Region), q = s.asks k → s.Inv → IsServed s k 0x0203 →
    s.rgn.pageRange q = some r → r.kind = 0 → bits (q.f 1 1) 1 0 = 0 →
    let lo := (pageSpan r.id (q.f 4 4) (q.f 8 4)).1
    let n := (pageSpan r.id (q.f 4 4) (q.f 8 4)).2
    (s.coh.hostHeld lo n = [] → (∀ b ∈ s.coh.binv, inRange lo n b.line = false) →
      ∃ t r', exec (.biasSetDevice k) s = .next t ∧ Replied s t k cOK [] ∧ t.mem.wc = [] ∧ SameBytes (fun _ => False) s t
        ∧ t.rgn.get r.id = some r' ∧ (∀ p, p ∈ r'.shared ↔ p ∈ r.shared ∧ p ∉ rangePages q)
        ∧ (∀ i, i ≠ r.id → t.rgn.get i = s.rgn.get i) ∧ Keeps [.mbx, .aon, .mem, .coh, .rgn] s t)
    ∧ (s.coh.hostHeld lo n ≠ [] ∨ (∃ b ∈ s.coh.binv, inRange lo n b.line = true) →
      ∃ t r', exec (.biasSetDevice k) s = .next t ∧ t.mem.wc = [] ∧ SameBytes (fun _ => False) s t
        ∧ t.mbx.prog = some ⟨k.val, q.tag, .biasDevice r.id (q.f 4 4) (q.f 8 4), false⟩
        ∧ t.rgn.get r.id = some r' ∧ (∀ p ∈ rangePages q, p ∈ r'.flipping) ∧ r'.shared = r.shared
        ∧ (∀ e ∈ s.coh.hostHeld lo n, ∃ b ∈ t.coh.binv, b.line = e.line)
        ∧ (∀ i, i ≠ r.id → t.rgn.get i = s.rgn.get i) ∧ Keeps [.mbx, .aon, .mem, .coh, .rgn, .out] s t))
  ∧ ∀ (s : State) (hpa : Nat) (b : BackInv) (d : Option Bytes), s.Inv →
    s.coh.binv.find? (fun b => s.rgn.hpaOfLine b.line == hpa / 64 * 64) = some b → s.mbx.prog = none → s.coh.txns = [] →
    s.hst.held = [] →
    ∃ t, exec (.backInvalidateAnswer hpa d) s = .next t ∧ t.coh.binv = s.coh.binv.erase b
      ∧ Keeps [.coh, .mem] s t ∧ (d = none → t.mem = s.mem)
      ∧ (∀ x, d = some x → ∀ a, t.mem.byte a =
          if a / 64 = b.line ∧ b.mask.getLsbD (a % 64) = false then x.getD (a % 64) 0#8 else s.mem.byte a)
      ∧ ((s.coh.dirOf b.line).host = true →
          (b.keep = true → (t.coh.dirOf b.line).clean = true ∧ (t.coh.dirOf b.line).host = true)
          ∧ (b.keep = false → (t.coh.dirOf b.line).host = false))

/-- OBJECT_PIN of pages of a TIERED region: to T3 none of them is in T2 afterwards, to T2 with room for them all of
them are, and they are pinned; with tier none they are no longer pinned. Other regions and the pages outside the range
stay where they are. REGION_INFO only replies (R195, R198, R252, R518). -/
def Obligations.PinningPlaces : Prop :=
  (∀ (s : State) (k : SlotId) (q : Req) (r : Region), q = s.asks k → s.Inv → IsServed s k 0x0204 →
    s.rgn.pageRange q = some r → r.kind = 1 → bits (q.f 1 1) 1 0 ≠ 3 → r.stale = false →
    (bits (q.f 1 1) 1 0 = 1 → r.inT2.length + (rangePages q).length ≤ r.t2Pages ∧ r.pinned.length ≤ r.inT2.length) →
    ∃ t r', exec (.objectPin k) s = .next t ∧ Replied s t k cOK [] ∧ t.rgn.get r.id = some r'
      ∧ (∀ p, p ∉ rangePages q → (p ∈ r'.inT2 ↔ p ∈ r.inT2) ∧ (p ∈ r'.pinned ↔ p ∈ r.pinned))
      ∧ (bits (q.f 1 1) 1 0 = 0 → r'.inT2 = r.inT2 ∧ ∀ p ∈ rangePages q, p ∉ r'.pinned)
      ∧ (bits (q.f 1 1) 1 0 = 1 → ∀ p ∈ rangePages q, p ∈ r'.inT2 ∧ p ∈ r'.pinned)
      ∧ (bits (q.f 1 1) 1 0 = 2 → ∀ p ∈ rangePages q, p ∉ r'.inT2 ∧ p ∈ r'.pinned)
      ∧ ∀ i, i ≠ r.id → t.rgn.get i = s.rgn.get i)
  ∧ ∀ (s : State) (k : SlotId) (r : Region), s.Inv → IsServed s k 0x0207 → (s.asks k).rz 0 1 7 6 = true →
    (s.asks k).zb 1 7 = true → s.rgn.get (bits ((s.asks k).f 0 1) 5 0) = some r →
    ∃ t, exec (.regionInfo k) s = .next t ∧ OnlyReplies s t k cOK (s.rgn.infoBytes r)

/-! ### DMA -/

/-- DMA_SUBMIT of a legal transfer to a channel whose shadow set is free is accepted: it starts at once on an idle channel
and waits in the shadow set of a busy one; DMA_STATUS answers the channel's registers (R474, R482, R483). -/
def Obligations.DmaAccepted : Prop :=
  (∀ (s : State) (k : SlotId) (q : Req) (n : Nat), q = s.asks k → n = bits (q.f 0 2) 6 0 → s.Inv → IsServed s k 0x0701 →
    q.rz 0 2 15 7 = true → q.zb 2 2 = true → q.rz 4 4 31 8 = true → q.rz 4 4 4 0 = true → q.zb 0x30 16 = true →
    (dmaOf q).crcMode ≠ 3 → 1 ≤ (dmaOf q).len → (dmaOf q).len < 2 ^ 36 →
    vaOk (dmaOf q).src = true → vaOk (dmaOf q).dst = true → vaOk (dmaOf q).flagVa = true →
    ((dmaOf q).flagEn = false → (dmaOf q).flagVa = 0 ∧ (dmaOf q).flagVal = 0) →
    overlaps (dmaOf q).src (dmaOf q).len (dmaOf q).dst (dmaOf q).dstLen = false →
    ((dmaOf q).flagEn = true → (dmaOf q).flagVa % 8 = 0 ∧ s.rgn.flagAstray (dmaOf q) = false) →
    (∀ r ∈ s.rgn.regions, r.stale = false) → (s.dma.ch n).shadow.valid = false →
    ∃ t, exec (.dmaSubmit k) s = .next t ∧ Replied s t k cACCEPTED [] ∧ Keeps [.mbx, .aon, .dma] s t
      ∧ (∀ m, m ≠ n → t.dma.ch m = s.dma.ch m)
      ∧ ((s.dma.ch n).busy = false → (t.dma.ch n).active = dmaOf q ∧ (t.dma.ch n).state = 1 ∧ (t.dma.ch n).shadow.valid = false)
      ∧ ((s.dma.ch n).busy = true → (t.dma.ch n).shadow = dmaOf q ∧ (t.dma.ch n).active = (s.dma.ch n).active))
  ∧ ∀ (s : State) (k : SlotId), s.Inv → IsServed s k 0x0702 → (s.asks k).rz 0 1 7 7 = true → (s.asks k).zb 1 7 = true →
    ∃ t, exec (.dmaStatus k) s = .next t ∧ OnlyReplies s t k cOK (s.dma.ch ((s.asks k).f 0 1)).bytes

/-- A DMA chunk of at most 64 KiB whose ranges nothing obstructs copies its bytes to the destination and to no other
byte of memory, advances the count and updates the running CRC; after the last chunk the transfer ends OK: the CRC
stands after the data where one is asked for, and the flag is written after a fence (R272, R475 to R479). -/
def Obligations.DmaMoves : Prop :=
  (∀ (s : State) (ch : Fin 128) (c : Chan) (d : DmaSet), s.Inv → c = s.dma.ch ch → d = c.active → s.powered = true →
    c.busy = true → d.done < d.len → s.dmaStopped ch d = false →
    Accessible s (d.src + d.done) d.chunk false → Accessible s (d.dst + d.done) d.chunk true →
    ∃ t, exec (.dmaChunk ch) s = .next t
      ∧ (t.dma.ch ch).active = { d with done := d.done + d.chunk } ∧ (t.dma.ch ch).state = 1
      ∧ (t.dma.ch ch).okCount = c.okCount ∧ (t.dma.ch ch).runCrc = c.runCrc
      ∧ (t.dma.ch ch).crcNow = (if d.crcMode = 0 then c.crcNow else crc32cUpd c.crcNow (s.peekVa (d.src + d.done) d.chunk))
      ∧ (∀ m, m ≠ ch.val → t.dma.ch m = s.dma.ch m)
      ∧ SameBytes (s.storesTo (d.dst + d.done) d.chunk) s t
      ∧ ((d.dst + d.done) / pageBytes = (d.dst + d.done + d.chunk - 1) / pageBytes →
          t.peekVa (d.dst + d.done) d.chunk = s.peekVa (d.src + d.done) d.chunk)
      ∧ Keeps [.mem, .coh, .rgn, .out, .dma, .obs] s t)
  ∧ ∀ (s : State) (ch : Fin 128) (c : Chan) (d : DmaSet), s.Inv → c = s.dma.ch ch → d = c.active → s.powered = true →
    c.busy = true → d.done = d.len → s.dmaStopped ch d = false → c.shadow.valid = false →
    (d.crcMode ≠ 0 → Accessible s (d.dst + d.len) 4 true) → d.flagVa % 8 = 0 → (d.flagEn = true → Accessible s d.flagVa 8 true) →
    ∃ t, exec (.dmaTransferEnd ch) s = .next t
      ∧ (t.dma.ch ch).active.ended = true ∧ (t.dma.ch ch).active.code = cOK
      ∧ (t.dma.ch ch).active.crc = (if d.crcMode = 0 then 0 else c.crcNow ^^^ 0xFFFFFFFF)
      ∧ (t.dma.ch ch).okCount = c.okCount + 1 ∧ (t.dma.ch ch).state = 0
      ∧ (∀ m, m ≠ ch.val → t.dma.ch m = s.dma.ch m)
      ∧ SameBytes (fun a => (d.crcMode ≠ 0 ∧ s.storesTo (d.dst + d.len) 4 a) ∨ (d.flagEn = true ∧ s.storesTo d.flagVa 8 a)) s t
      ∧ (d.flagEn = true → t.out.getLast? = some (.flag d.flagVa) ∧ t.peekVa d.flagVa 8 = leBytes 8 d.flagVal)
      ∧ (d.crcMode = 0 → d.flagEn = false → t.mem = s.mem)

/-! ### Coherence and memory controllers -/

/-- A request reaches its line's home: behind an outstanding transaction of the line it waits in order; a core's read of a
line that neither host nor controller holds back is answered with the line as it stands and the core shares it; its store
takes the line alone and the bytes read as stored; its final acknowledgement ends the transaction (R264, R269, R270). -/
def Obligations.CoherenceServed : Prop :=
  (∀ (s : State) (c : Fin 96) (region off : Nat) (op : CohOp), s.powered = true → s.mayRequest (.core c) op = true →
    op = .read ∨ op.exclusive = true ∧ op.fits = true → (∃ t ∈ s.coh.txns, t.region = region ∧ t.off / 64 = off / 64) →
    ∃ t, exec (.coherenceRequest (.core c) region off op) s = .next t
      ∧ t.coh = { s.coh with waiting := s.coh.waiting ++ [⟨some (.core c), region, off, op, false, false⟩] }
      ∧ Keeps [.coh, .cor] s t)
  ∧ ∀ (s : State) (c : Fin 96) (r : Region) (off line : Nat), s.Inv → s.powered = true → s.aon.stopped = [] →
    (s.cor.core c).running = true → s.rgn.get r.id = some r → off < r.size → line = r.key off / 64 →
    r.stalePage (off / pageBytes) = false → off / pageBytes ∉ r.flipping → r.kind = 0 →
    (∀ e ∈ s.coh.dir, e.line = line → e.host = false) → (∀ b ∈ s.coh.binv, b.line ≠ line) →
    line ∉ s.mem.poison → (∀ m ∈ s.rgn.migrations, m.region ≠ r.id) →
    (∀ t ∈ s.coh.txns, t.region = r.id → t.off / 64 ≠ off / 64) → s.coh.dir.length < dirEntries →
    (∃ t, exec (.coherenceRequest (.core c) r.id off .read) s = .next t
      ∧ t.out = s.out ++ [.data (5 + c.val) ((List.range 64).map fun i => s.byte (line * 64 + i))]
      ∧ SameBytes (fun _ => False) s t ∧ (∃ x ∈ t.coh.txns, x.who = some (.core c) ∧ x.region = r.id ∧ x.off = off)
      ∧ ∃ x ∈ t.coh.cached, x.core = c.val ∧ x.line = line)
    ∧ (∀ (o : Nat) (d : Bytes), o + d.length ≤ 64 → ∃ t, exec (.coherenceRequest (.core c) r.id off (.store o d)) s = .next t
      ∧ (∀ x ∈ t.coh.cached, x.line = line → x.core = c.val)
      ∧ (∀ a, t.byte a = if line * 64 + o ≤ a ∧ a < line * 64 + o + d.length then d.getD (a - (line * 64 + o)) 0#8
          else s.byte a)
      ∧ ∃ x ∈ t.coh.txns, x.who = some (.core c) ∧ x.region = r.id ∧ x.off = off)
    ∧ ∀ x : Txn, s.coh.waiting = [] → s.hst.held = [] → s.coh.txns = [x] → x.who = some (.core c) → x.held = false →
      ∃ t, exec (.coherenceRequest (.core c) x.region x.off .ack) s = .next t ∧ t.coh = { s.coh with txns := [] }
        ∧ Keeps [.coh] s t

/-- A memory-side add to a line that nothing holds back replaces its element by the sum in the element's format and no
other byte; a controller drains an old write-combining entry without a change to what memory reads; heat halves; a
window's counts follow the bandwidth table (R194, R212, R214, R217, R218). -/
def Obligations.ControllersAct : Prop :=
  (∀ (s : State) (r : Region) (off : Nat) (f : AddFmt) (v : Nat), s.Inv → s.powered = true → s.aon.stopped = [] →
    s.rgn.get r.id = some r → off < r.size → off % f.width = 0 → r.kind = 0 → off / pageBytes ∉ r.flipping →
    (∀ e ∈ s.coh.dir, e.line = r.key off / 64 → e.host = false) → (∀ b ∈ s.coh.binv, b.line ≠ r.key off / 64) →
    s.coh.txns = [] → s.coh.waiting = [] →
    ∃ t, exec (.memorySideAdd r.id off f v) s = .next t
      ∧ ((List.range f.width).map fun i => t.byte (r.key off + i))
          = leBytes f.width (addNew f (leNat ((List.range f.width).map fun i => s.byte (r.key off + i))) v)
      ∧ SameBytes (fun a => r.key off ≤ a ∧ a < r.key off + f.width) s t)
  ∧ (∀ (s : State) (r : Region) (off : Nat), s.rgn.get r.id = some r →
    ∃ t, exec (.wcDrainAge r.id off) s = .next t ∧ Keeps [.mem] s t ∧ t.mem = { s.mem with wc := t.mem.wc }
      ∧ ∀ e, e ∈ t.mem.wc ↔ e ∈ s.mem.wc ∧ e.line ≠ r.key off / 64)
  ∧ (∀ s : State, ∃ t, exec .heatDecay s = .next t ∧ Keeps [.rgn] s t ∧ t.rgn.tbl = s.rgn.tbl
      ∧ ∀ (i : Nat) (r : Region), s.rgn.get i = some r → ∃ r', t.rgn.get i = some r' ∧ r' = { r with heat := r'.heat }
        ∧ ((r.heat.map (·.1)).Nodup → ∀ p, r'.heat.getD p 0 = r.heat.getD p 0 / 2))
  ∧ ∀ (s : State) (w : List (Nat × List Nat)), ∃ t, exec (.bandwidthWindow w) s = .next t ∧ Keeps [.mem] s t
      ∧ t.mem = { s.mem with served := t.mem.served }
      ∧ ∀ x ∈ t.mem.served, x.2.1 < 17 ∧ 0 < x.2.2 ∧ x.2.2 ≤ ceilTransfers (s.mem.bwCeil.getD x.2.1 0)

/-- The end of a page's copy moves it between T2 and T3 with its contents, which read the same at its new place, and
drops the migration; a patrol scrub corrects what it can, and each line it cannot correct is poisoned with FAULT
attention (R195, R222 to R225). -/
def Obligations.PagesMoveAndScrub : Prop :=
  (∀ (s : State) (r : Region) (page : Nat) (m : Migration), s.Inv → s.rgn.get r.id = some r → r.kind = 1 →
    s.rgn.migrations.find? (fun m => m.region == r.id && m.page == page) = some m → s.coh.txns = [] → r.stale = false →
    page < r.pages → m.toT2 = !r.inT2.contains page → (m.toT2 = true → r.inT2.length < r.t2Pages) →
    (∀ c ∈ s.coh.cached ++ s.coh.wbs, c.dirty = true → ∀ i < pageBytes,
      c.line ≠ ((if m.toT2 then r.id * 2 ^ 42 else 2 ^ 56 + r.hostBase) + page * pageBytes + i) / 64) →
    ∃ t r', exec (.migrationCopyDone r.id page) s = .next t ∧ t.rgn.get r.id = some r'
      ∧ (page ∈ r'.inT2 ↔ page ∉ r.inT2) ∧ (∀ p, p ≠ page → (p ∈ r'.inT2 ↔ p ∈ r.inT2))
      ∧ m ∉ t.rgn.migrations
      ∧ (∀ i < pageBytes, t.byte (r'.key (page * pageBytes + i)) = s.byte (r.key (page * pageBytes + i)))
      ∧ Keeps [.mem, .coh, .rgn, .out, .obs] s t)
  ∧ ∀ (s : State) (st : Fin 24) (ls : List (Nat × Nat × Ecc)), s.powered = true → s.aon.stopped = [] →
    s.stp.active = none →
    ∃ t, exec (.patrolScrub st ls) s = .next t ∧ t.mem.cells = s.mem.cells ∧ t.mem.free = s.mem.free
      ∧ (∀ l ∈ s.mem.poison, l ∈ t.mem.poison)
      ∧ (∀ x ∈ ls, x.2.2 = .uncorrectable → ∀ r, s.rgn.get x.1 = some r → r.stackOf x.2.1 = st.val →
          r.pageInT2 (x.2.1 / pageBytes) = true → x.2.1 < r.size → r.key x.2.1 / 64 ∈ t.mem.poison)
      ∧ ((∀ x ∈ ls, x.2.2 ≠ .uncorrectable) → t.mem.poison = s.mem.poison)

/-! ### The host port and the adapters -/

/-- Link loss, whatever its cause: the host holds no line any more and no back-invalidation is outstanding; DMA
transfers that have used or need the host end with HOST_LOST and others stay; registrations lose the host port; HOST
and TIERED regions become host-stale; no migration is in flight; the HDM decoder is uncommitted; HOST_LINK attention;
memory stays but for the destinations of those transfers. A fall of PERST_N on a link that is up is a link loss after
which the port stays down (R469, R569). -/
def Obligations.HostLinkLost : Prop :=
  ∀ s : State, s.powered = true → s.hst.link = .up → s.mbx.prog = none → (∀ x ∈ s.coh.txns, x.held = false) →
    (∀ v ∈ s.hst.held, v.source = 0 ∧ v.acc.isWrite = false) →
    (∀ cause : LinkLossCause, ∃ t, exec (.hostLinkLoss cause) s = .next t
      ∧ t.hst = { s.hst with link := if s.aon.perstN then .training else .down, width := 0, downs := s.hst.downs + 1,
                             helloSeen := false, held := [] }
      ∧ t.att = s.att.raise s.aon.tick aHOST_LINK 0 noTag 0 1
      ∧ t.coh.binv = [] ∧ (∀ e ∈ t.coh.dir, e.host = false) ∧ t.rgn.hdmBase = none
      ∧ t.rgn.migrations = [] ∧ (∀ i r, s.rgn.get i = some r → t.rgn.get i = some { r with
          reg := r.reg.map fun x => { x with sources := x.sources / 2 * 2 }, stale := r.stale || r.kind != 0 })
      ∧ (∀ n, (s.dma.ch n).shadow.valid = false →
          ((s.dma.ch n).busy = true ∧ ((s.dma.ch n).usedHost = true ∨ s.rgn.needsHost (s.dma.ch n).active = true) →
            (t.dma.ch n).active = (s.dma.ch n).active.fail cHOST_LOST ∧ (t.dma.ch n).state = 0)
          ∧ ((s.dma.ch n).usedHost = false → s.rgn.needsHost (s.dma.ch n).active = false → t.dma.ch n = s.dma.ch n))
      ∧ ((∀ c ∈ s.dma.chans, c.2.hostLost s.rgn = []) → t.mem = s.mem)
      ∧ Keeps [.att, .obs, .coh, .rgn, .dma, .hst, .mem, .out, .fresh] s t)
    ∧ ∃ t u, exec (.hostLinkLoss .surpriseDown) { s with aon := { s.aon with perstN := false } } = .next t
        ∧ exec .hostPerstAssert s = .next u ∧ u = { t with hst := { t.hst with link := .down } } ∧ u.aon.perstN = false

/-- PERST_N low leaves a link that is not up down; high, with the clocks running, starts training; training ends with the
link up at x16, x8 or x4, or down with HOST_LINK attention; a retrain at the same width is not seen, one at a narrower
raises LOG attention (R450, R452, R467, R468, R569, R575). -/
def Obligations.HostLinkTrains : Prop :=
  (∀ s : State, s.hst.link ≠ .up → ∃ t, exec .hostPerstAssert s = .next t ∧ t.aon = { s.aon with perstN := false }
    ∧ t.hst = { s.hst with link := .down } ∧ Keeps [.aon, .hst] s t)
  ∧ (∀ s : State, s.powered = true → s.aon.tickOn = true → s.hst.link = .down →
    ∃ t, exec .hostPerstRelease s = .next t ∧ t.aon = { s.aon with perstN := true }
      ∧ t.hst = { s.hst with link := .training } ∧ Keeps [.aon, .hst] s t)
  ∧ (∀ s : State, s.powered = true → s.aon.perstN = true → s.hst.link = .training →
    (∀ w, w = 16 ∨ w = 8 ∨ w = 4 → ∃ t, exec (.hostLinkUp w) s = .next t
      ∧ t.hst = { s.hst with link := .up, width := w, helloSeen := false } ∧ Keeps [.hst] s t)
    ∧ ∃ t, exec .hostPortDownAtStart s = .next t ∧ t.hst = { s.hst with link := .down }
      ∧ t.att = s.att.raise s.aon.tick aHOST_LINK 0 noTag 0 0 ∧ Keeps [.hst, .att, .obs] s t)
  ∧ ∀ (s : State) (w : Nat), s.powered = true → s.hst.link = .up → w = 16 ∨ w = 8 ∨ w = 4 → w ≤ s.hst.width →
    ∃ t, exec (.hostLinkRetrain w) s = .next t ∧ t.hst = { s.hst with width := w, retrains := s.hst.retrains + 1 }
      ∧ (w = s.hst.width → Keeps [.hst] s t)
      ∧ (w < s.hst.width → t.att = s.att.raise s.aon.tick aLOG 0 noTag (unitField uHostPort 0 0) 0
          ∧ Keeps [.hst, .att, .obs] s t)

/-- The HDM decoder takes a base that is a multiple of 256 MiB with one way. An access it maps to a shared-bias page
reads the line, or writes its bytes and no other; a caching read leaves the host the only holder of the line; any
other access in its range reads all ones, writes nothing, and raises LOG attention. A snoop is answered with the data
of a modified copy, and one that invalidates leaves no core a copy (R254, R255, R264 to R266, R456, R457). -/
def Obligations.HdmReached : Prop :=
  (∀ (s : State) (base ways : Nat), s.powered = true → s.hst.link = .up →
    ∃ t, exec (.hdmDecoderCommit base ways) s = .next t ∧ Keeps [.rgn] s t
      ∧ t.rgn = { s.rgn with hdmBase := if base % 2 ^ 28 = 0 ∧ ways = 1 then some base else none })
  ∧ (∀ (s : State) (hpa b : Nat) (caching : Bool), s.Inv → s.powered = true → s.hst.link = .up → s.rgn.hdmBase = some b →
    b ≤ hpa → hpa < b + 1152 * 2 ^ 30 →
    (∀ (r : Region) (off line : Nat), s.rgn.byHdm (hpa - b) = some (r, off) → r.shared.contains (off / pageBytes) = true →
      line = r.key off / 64 → s.aon.stopped = [] → s.coh.waiting = [] → line ∉ s.mem.poison →
      s.coh.dir.length < dirEntries →
      (∀ t ∈ s.coh.txns, t.region = r.id → t.off / 64 ≠ off / 64) →
      (∀ n, 1 ≤ n → hpa % 64 + n ≤ 64 → ∃ t, exec (.hostHdmAccess hpa caching (.read n)) s = .next t
        ∧ t.out = s.out ++ [.data 0 ((List.range 64).map fun i => s.byte (line * 64 + i))]
        ∧ SameBytes (fun _ => False) s t
        ∧ (caching = true → (t.coh.dirOf line).host = true ∧ ∀ c ∈ t.coh.cached, c.line ≠ line))
      ∧ ∀ d : Bytes, 1 ≤ d.length → hpa % 64 + d.length ≤ 64 →
        ∃ t, exec (.hostHdmAccess hpa caching (.write d)) s = .next t ∧ t.out = s.out
          ∧ ∀ a, t.byte a = if line * 64 + hpa % 64 ≤ a ∧ a < line * 64 + hpa % 64 + d.length
              then d.getD (a - (line * 64 + hpa % 64)) 0#8 else s.byte a)
    ∧ ((∀ r off, s.rgn.byHdm (hpa - b) = some (r, off) → r.shared.contains (off / pageBytes) = false) →
      (∀ n, 1 ≤ n → hpa % 64 + n ≤ 64 → ∃ t, exec (.hostHdmAccess hpa caching (.read n)) s = .next t
        ∧ t.out = s.out ++ [.data 0 (List.replicate n 0xFF#8)]
        ∧ t.att = s.att.raise s.aon.tick aLOG 0 noTag (unitField uHostPort 0 0) hpa ∧ Keeps [.att, .obs, .out] s t)
      ∧ ∀ d : Bytes, 1 ≤ d.length → hpa % 64 + d.length ≤ 64 →
        ∃ t, exec (.hostHdmAccess hpa caching (.write d)) s = .next t
        ∧ t.att = s.att.raise s.aon.tick aLOG 0 noTag (unitField uHostPort 0 0) hpa ∧ Keeps [.att, .obs] s t))
  ∧ ∀ (s : State) (hpa line : Nat) (inv : Bool), s.Inv → s.powered = true → s.hst.link = .up → s.coh.txns = [] →
    line = (2 ^ 56 + hpa) / 64 →
    ∃ t, exec (.hostSnoop hpa inv) s = .next t
      ∧ t.out = s.out ++ [.snoopAnswer (hpa / 64 * 64)
          (((s.coh.cached ++ s.coh.wbs).find? fun c => c.line == line && c.dirty).map (·.data))]
      ∧ SameBytes (fun _ => False) s t ∧ Keeps [.mem, .coh, .out] s t
      ∧ (inv = true → ∀ c ∈ t.coh.cached, c.line ≠ line)
      ∧ ∀ c ∈ t.coh.cached, c.line = line → c.dirty = false

/-- An access through BAR2, or through an adapter's 4 TiB window: one that no registration admits for its source reads as
an unsupported request, writes nothing, and raises LOG attention; an admitted write stores its bytes at its place in the
region and nowhere else; an admitted read returns the bytes there (R460 to R465). -/
def Obligations.WindowAccesses : Prop :=
  ∀ (s : State) (source off requester : Nat) (cmd : Access → Instr), s.Inv → s.powered = true → off < 2 ^ 42 → s.hst.held = [] →
    (source = 0 ∧ s.hst.link = .up ∧ cmd = .bar2WindowAccess requester off
      ∨ ∃ p : Fin 4, source = p.val + 1 ∧ s.adapterUp p = true ∧ cmd = .adapterWindowAccess p (0x100000000000 + off)) →
    (∀ n, 1 ≤ n → s.rgn.admitted source off n false = none → ∃ t, exec (cmd (.read n)) s = .next t
      ∧ t.out = s.out ++ [.unsupported source] ∧ (∃ u, t.att = s.att.raise s.aon.tick aLOG 0 noTag u off)
      ∧ Keeps [.att, .obs, .out] s t)
    ∧ (∀ d : Bytes, 1 ≤ d.length → s.rgn.admitted source off d.length true = none → ∃ t, exec (cmd (.write d)) s = .next t
      ∧ (∃ u, t.att = s.att.raise s.aon.tick aLOG 0 noTag u off) ∧ Keeps [.att, .obs] s t)
    ∧ (∀ (d : Bytes) (r : Region) (o : Nat), 1 ≤ d.length → s.rgn.admitted source off d.length true = some (r, o) →
      (∀ c ∈ chunksOf o d.length, r.stalePage (c.1 / pageBytes) = false) → s.regionWait r o d.length true = none →
      s.memStopped r o d.length = false →
      ∃ t, exec (cmd (.write d)) s = .next t ∧ Keeps [.mem, .coh, .rgn, .out] s t
        ∧ SameBytes (fun a => ∃ c ∈ r.chunks o d.length, c.1 ≤ a ∧ a < c.1 + c.2) s t
        ∧ (o / pageBytes = (o + d.length - 1) / pageBytes → ∀ i < d.length, t.byte (r.key o + i) = d.getD i 0#8))
    ∧ ∀ (n : Nat) (r : Region) (o : Nat), 1 ≤ n → s.rgn.admitted source off n false = some (r, o) →
      (∀ c ∈ chunksOf o n, r.stalePage (c.1 / pageBytes) = false) → s.regionWait r o n false = none →
      s.memStopped r o n = false → (∀ c ∈ r.chunks o n, s.mem.poisonIn c.1 c.2 = none) →
      ∃ t d, exec (cmd (.read n)) s = .next t ∧ t.out = s.out ++ [.data source d] ∧ d.length = n
        ∧ SameBytes (fun _ => False) s t ∧ Keeps [.mem, .coh, .rgn, .out] s t
        ∧ (o / pageBytes = (o + n - 1) / pageBytes → ∀ i < n, d.getD i 0#8 = s.byte (r.key o + i))

/-- An interrupt message of an adapter makes its identity pending in the file it addresses and wakes that core, or,
where no file stands, is an unsupported request; the port goes down with HOST_LINK attention and its reset asserted,
trains again after the time-out, and comes up without attention (R466, R539, R548, R549, R635). -/
def Obligations.AdapterPorts : Prop :=
  (∀ (s : State) (p : Fin 4) (n : Fin 96) (sup : Bool) (id : Nat), s.adapterUp p = true → 1 ≤ id → id ≤ 255 →
    ∃ t, exec (.adapterInterruptMsg p (0x00F100000000 + n * 0x2000 + (if sup then 0x1000 else 0)) id) s = .next t
      ∧ (∀ i, i ∈ (t.cor.core n).imsicM ↔ i ∈ (s.cor.core n).imsicM ∨ sup = false ∧ i = id)
      ∧ (∀ i, i ∈ (t.cor.core n).imsicS ↔ i ∈ (s.cor.core n).imsicS ∨ sup = true ∧ i = id)
      ∧ (t.cor.core n).sleeping = false ∧ (∀ m, m ≠ n.val → t.cor.core m = s.cor.core m) ∧ Keeps [.cor, .aon] s t)
  ∧ (∀ (s : State) (p : Fin 4) (addr id : Nat), s.adapterUp p = true → addr < 0x00F100000000 →
    ∃ t u, exec (.adapterInterruptMsg p addr id) s = .next t ∧ t.out = s.out ++ [.unsupported (p + 1)]
      ∧ t.att = s.att.raise s.aon.tick aLOG 0 noTag u addr ∧ Keeps [.out, .att, .obs] s t)
  ∧ ∀ (s : State) (p : Fin 4) (a : Adapter), s.powered = true → s.hst.adapter p = some a →
    (a.pi = 5 → ∃ t, exec (.adapterLinkDown p) s = .next t
      ∧ t.hst.adapter p = some { a with pi := 2, downs := a.downs + 1, perstHigh := false, width := 0, rate := 0 }
      ∧ (∀ i, i ≠ p.val → t.hst.adapter i = s.hst.adapter i)
      ∧ t.att = s.att.raise s.aon.tick aHOST_LINK 0 noTag (p + 1) 2 ∧ Keeps [.hst, .att, .obs] s t)
    ∧ (a.pi = 2 → ∃ t, exec (.adapterPerstTimeout p) s = .next t
      ∧ t.hst.adapter p = some { a with pi := 3, perstHigh := true } ∧ Keeps [.hst] s t)
    ∧ (a.pi = 3 → ∀ w rate, w = 8 ∨ w = 4 → rate = 64 ∨ rate = 32 ∨ rate = 16 →
      ∃ t, exec (.adapterLinkUp p w rate) s = .next t
      ∧ t.hst.adapter p = some { a with pi := 5, width := w, rate := rate } ∧ Keeps [.hst] s t)

/-! ### Plans and steps -/

/-- PLAN_LOAD of a container that R520 accepts loads it under a handle that is not 0 and that no loaded plan has, with
send contexts of its own; one that fails changes no plan and answers the first failure's code and place. PLAN_DROP of
a plan that no step uses removes it with its contexts and prepared samples, and answers BUSY while one does (R330,
R519 to R521). -/
def Obligations.PlansLoaded : Prop :=
  (∀ (s : State) (k : SlotId) (va len : Nat), s.Inv → IsServed s k 0x0301 → va = (s.asks k).f 0 8 → len = (s.asks k).f 8 4 →
    (s.asks k).zb 0x0C 4 = true → vaOk va = true → va % 64 = 0 → 0x14 ≤ len → Accessible s va len false →
    fld (s.peekVa va len) 0x10 4 = len →
    ((s.readVa va len).2.checkPlan (s.peekVa va len) = none →
      ∃ (t : State) (p : Plan) (l : List SendCtx) (d : Bytes), exec (.planLoad k) s = .next t ∧ Replied s t k cOK d
        ∧ t.pln.plans = s.pln.plans ++ [p] ∧ p.handle ≠ 0 ∧ (∀ x ∈ s.pln.plans, x.handle ≠ p.handle)
        ∧ p.bytes = s.peekVa va len ∧ t.fab = { s.fab with send := s.fab.send ++ l } ∧ (∀ c ∈ l, c.plan = p.handle)
        ∧ d.take 2 = leBytes 2 p.handle ∧ SameBytes (fun _ => False) s t
        ∧ Keeps [.mbx, .aon, .mem, .coh, .rgn, .pln, .fab] s t)
    ∧ ∀ e, (s.readVa va len).2.checkPlan (s.peekVa va len) = some e →
      ∃ t, exec (.planLoad k) s = .next t ∧ Replied s t k e.code e.bytes ∧ SameBytes (fun _ => False) s t
        ∧ Keeps [.mbx, .aon, .mem, .coh, .rgn] s t)
  ∧ ∀ (s : State) (k : SlotId) (h : Nat), s.Inv → IsServed s k 0x0302 → h = (s.asks k).f 0 2 → (s.asks k).zb 2 6 = true →
    (s.pln.get h).isSome = true →
    ((∀ st ∈ s.stp.current.toList ++ s.stp.queued.toList, st.plan ≠ h) →
      ∃ t, exec (.planDrop k) s = .next t ∧ Replied s t k cOK [] ∧ t.pln.get h = none
        ∧ (∀ i, i ≠ h → t.pln.get i = s.pln.get i) ∧ (∀ c, c ∈ t.fab.send ↔ c ∈ s.fab.send ∧ c.plan ≠ h)
        ∧ (∀ r, r ∈ t.gld.preps ↔ r ∈ s.gld.preps ∧ r.plan ≠ h) ∧ Keeps [.mbx, .aon, .pln, .fab, .gld] s t)
    ∧ ((∃ st ∈ s.stp.current.toList ++ s.stp.queued.toList, st.plan = h) →
      ∃ t, exec (.planDrop k) s = .next t ∧ OnlyReplies s t k cBUSY [])

/-- STEP_SUBMIT, where no step is queued, the ring follows, the plan is ready and names members only, queues the step
with the ring's next attempt number and the state word QUEUED, and answers ACCEPTED; STEP_REPLAY of a decided attempt,
where no shard's slot is left to be completed or recomputed first, does so with that attempt's loss scale and
dispositions. With a step queued either answers BUSY (R313, R331, R332, R357, R522). -/
def Obligations.StepsAccepted : Prop :=
  ∀ (s : State) (k : SlotId) (q : Req) (p : Plan) (n : Nat), s.Inv → q = s.asks k → s.pln.get (q.f 0 2) = some p →
    n = q.f 8 8 → n < 2 ^ 48 →
    (IsServed s k 0x0303 → q.zb 2 6 = true → q.zb 0x10 8 = true →
      (s.stp.queued = none → s.accepts n = true → s.planReady p = true → s.namesAbsent p = false →
        ∃ t st, exec (.stepSubmit k) s = .next t ∧ Replied s t k cACCEPTED [] ∧ t.stp.queued = some st ∧ st.tag = q.tag
          ∧ st.plan = q.f 0 2 ∧ st.ring = n ∧ st.attempt = s.stp.attempts.getD n 0 ∧ st.replay = false
          ∧ st.verdictFree = !p.hasVerdict ∧ st.lsExp = p.lsExp ∧ t.stp.active = s.stp.active
          ∧ t.stp.words.find? (·.tag == q.tag) = some ⟨q.tag, .queued⟩
          ∧ t.stp.attempts.getD n 0 = (s.stp.attempts.getD n 0 + 1) % 2 ^ 16 ∧ Keeps [.mbx, .aon, .stp, .gld] s t)
      ∧ (s.stp.queued.isSome = true → ∃ t, exec (.stepSubmit k) s = .next t ∧ OnlyReplies s t k cBUSY []))
    ∧ ∀ r : StepRecord, IsServed s k 0x0304 → q.zb 4 4 = true → q.f 0x10 8 = 0 → s.stp.recordOf n (q.f 2 2) = some r →
      (s.stp.queued = none → n = s.deviceRing + 1 → s.accepts n = true → s.planReady p = true → s.namesAbsent p = false →
        s.slotsWait = none → (∀ d ∈ s.held, s.classify d n ≠ .interrupted ∧ s.classify d n ≠ .recomputable) →
        ∃ t st, exec (.stepReplay k) s = .next t ∧ Replied s t k cACCEPTED [] ∧ t.stp.queued = some st ∧ st.tag = q.tag
          ∧ st.plan = q.f 0 2 ∧ st.ring = n ∧ st.attempt = s.stp.attempts.getD n 0 ∧ st.replay = true
          ∧ st.fromAttempt = q.f 2 2 ∧ st.source = recordEntries r.bytes ∧ st.lsExp = intOfByte (byteAt r.bytes 0x0A)
          ∧ t.stp.words.find? (·.tag == q.tag) = some ⟨q.tag, .queued⟩ ∧ Keeps [.mbx, .aon, .stp, .gld] s t)
      ∧ (s.stp.queued.isSome = true → ∃ t, exec (.stepReplay k) s = .next t ∧ OnlyReplies s t k cBUSY [])

/-- MODE_SCHEDULE adds its entries at ring M to the plan, and answers TOO_LATE for a ring that has begun; RING_QUERY
answers the device ring, the stamp at M, the residue selector and the commit record; STEP_RECORD answers part of a
decided record, or writes all of it to a range and to no other byte (R348, R349, R361, R523 to R525). -/
def Obligations.StepQueries : Prop :=
  (∀ (s : State) (k : SlotId) (q : Req) (p : Plan), s.Inv → q = s.asks k → IsServed s k 0x0305 →
    s.pln.get (q.f 0 2) = some p → q.zb 4 4 = true → 1 ≤ q.f 2 2 → q.f 2 2 ≤ 246 → q.f 8 8 < 2 ^ 48 →
    (∀ e < q.f 2 2, q.zb (0x13 + 8 * e) 1 = true) →
    (∀ e ∈ modeEntries q, e.op < p.count 2 ∧ (p.op e.op).code = 0x0040
      ∧ modeOk (bits (byteAt (p.param e.op) 4) 1 0) e.field e.value = true) →
    (s.deviceRing < q.f 8 8 → (∀ st, s.stp.current = some st → st.ring ≠ q.f 8 8) →
      ∃ t, exec (.modeSchedule k) s = .next t ∧ Replied s t k cOK []
        ∧ t.pln.get (q.f 0 2) = some { p with modes := (modeEntries q).foldl (fun l e => addMode l (q.f 8 8) e) p.modes }
        ∧ (∀ h, h ≠ q.f 0 2 → t.pln.get h = s.pln.get h) ∧ Keeps [.mbx, .aon, .pln] s t)
    ∧ (q.f 8 8 ≤ s.deviceRing ∨ (∃ st, s.stp.current = some st ∧ st.ring = q.f 8 8) → ∃ t, exec (.modeSchedule k) s = .next t ∧ OnlyReplies s t k cTOO_LATE []))
  ∧ (∀ (s : State) (k : SlotId) (q : Req) (p : Plan), s.Inv → q = s.asks k → IsServed s k 0x0306 →
    s.pln.get (q.f 0 2) = some p → q.zb 2 6 = true → s.deviceRing < q.f 8 8 →
    ∃ t d, exec (.ringQuery k) s = .next t ∧ OnlyReplies s t k cOK d ∧ d.length = 64
      ∧ d.take 32 = leBytes 8 s.deviceRing ++ leBytes 8 (p.stampAt (q.f 8 8)).toNat ++ leBytes 8 s.trn.resSel.word
          ++ leBytes 8 ((s.trn.commit.map (·.1)).getD 0))
  ∧ ∀ (s : State) (k : SlotId) (q : Req) (r : StepRecord), s.Inv → q = s.asks k → IsServed s k 0x0307 →
    s.stp.recordOf (q.f 8 8) (q.f 2 2) = some r → q.zb 0 2 = true →
    (q.f 0x10 8 = 0 → q.f 4 4 % 32 = 0 → q.f 4 4 < r.bytes.length →
      ∃ t, exec (.stepRecord k) s = .next t ∧ OnlyReplies s t k cOK ((r.bytes.drop (q.f 4 4)).take 1984))
    ∧ (q.f 0x10 8 ≠ 0 → q.f 0x10 8 % 64 = 0 → vaOk (q.f 0x10 8) = true → q.f 4 4 = 0 → 1 ≤ r.bytes.length →
      Accessible s (q.f 0x10 8) r.bytes.length true →
      ∃ t, exec (.stepRecord k) s = .next t ∧ Replied s t k cOK (leBytes 4 r.bytes.length ++ zeros 4)
        ∧ SameBytes (s.storesTo (q.f 0x10 8) r.bytes.length) s t ∧ Keeps [.mbx, .aon, .mem, .coh, .rgn, .out] s t)

/-! ### Training state -/

/-- SHARD_DEFINE keeps a legal definition; the same again answers OK and another under the id BAD_ARG, with no change.
BLAZE_READ answers selector, stored blaze and, where asked, the blaze of the slot's bytes. STATE_EXPORT of a valid
shard writes only its image; STATE_IMPORT takes the image that passes R287's checks as committed in the other slot
(R275 to R277, R286 to R288, R301, R526 to R529). -/
def Obligations.ShardsKept : Prop :=
  (∀ (s : State) (k : SlotId) (q : Req), s.Inv → q = s.asks k → IsServed s k 0x0401 → q.rz 0 4 31 20 = true →
    q.rz 8 2 15 14 = true → q.rz 0x0A 2 15 14 = true → q.rz 0x0C 1 7 3 = true → q.rz 0x0D 1 7 6 = true →
    q.zb 0x0E 2 = true → q.zb 0x18 8 = true → s.shardLegal (shardOfReq q) = true →
    (s.trn.shard (shardOfReq q).shard = none → s.trn.shards.length < 4096 →
      (s.trn.shards.filter s.ownsShard).length < 1024 →
      ∃ t, exec (.shardDefine k) s = .next t ∧ Replied s t k cOK []
        ∧ t.trn = { s.trn with shards := s.trn.shards ++ [shardOfReq q] } ∧ Keeps [.mbx, .aon, .trn] s t)
    ∧ (s.trn.shard (shardOfReq q).shard = some (shardOfReq q) →
      ∃ t, exec (.shardDefine k) s = .next t ∧ OnlyReplies s t k cOK [])
    ∧ ∀ x, s.trn.shard (shardOfReq q).shard = some x → x ≠ shardOfReq q →
      ∃ t, exec (.shardDefine k) s = .next t ∧ OnlyReplies s t k cBAD_ARG [])
  ∧ (∀ (s : State) (k : SlotId) (q : Req) (d : ShardDef), s.Inv → q = s.asks k → IsServed s k 0x0405 →
    q.rz 0 4 31 20 = true → q.rz 4 1 7 1 = true → q.zb 5 3 = true → s.trn.shard (bits (q.f 0 4) 19 0) = some d →
    s.ownsShard d = true → (∀ a, s.slotAt d (s.trn.committed d) = some a → s.regionPoison a.1 a.2 d.slotBytes = none) →
    s.slotsWait = none →
    ∃ t b, exec (.blazeRead k) s = .next t ∧ OnlyReplies s t k cOK b
      ∧ b.take 16 = leBytes 8 (s.trn.selOf d.shard).word
          ++ leBytes 8 (fld (s.slotRead d (s.trn.committed d) 64 64) 0x10 8)
      ∧ (bit (q.f 4 1) 0 = true → (b.drop 16).take 8 = leBytes 8 (s.recomputeBlaze d (s.trn.committed d))))
  ∧ ∀ (s : State) (k : SlotId) (q : Req) (r : Region) (d : ShardDef) (off : Nat), s.Inv → q = s.asks k →
    s.sxRegion q = some r → off = q.f 8 8 → q.f 0 1 % 2 = 0 → q.f 2 2 = 0 → s.trn.shard (q.f 4 4) = some d →
    s.ownsShard d = true → off + d.imageBytes ≤ r.size → s.stepActive = false → r.staleIn off d.imageBytes = false →
    (IsServed s k 0x0402 → d.imageBytes ≤ q.f 0x10 8 → (s.trn.selOf (q.f 4 4)).valid = true →
      s.sxWait r off d.imageBytes true = none →
      (∀ a, s.slotAt d (s.trn.selOf (q.f 4 4)).slot = some a → s.regionPoison a.1 a.2 d.gredOff = none
        ∧ s.regionPoison a.1 (a.2 + d.mOff) (d.slotBytes - d.mOff) = none) →
      ∃ t, exec (.stateExport k) s = .next t
        ∧ Replied s t k cOK (leBytes 8 (s.trn.selOf (q.f 4 4)).ring ++ leBytes 8 d.imageBytes)
        ∧ SameBytes (fun a => ∃ c ∈ r.chunks off d.imageBytes, c.1 ≤ a ∧ a < c.1 + c.2) s t
        ∧ Keeps [.mbx, .aon, .mem, .coh, .rgn, .out] s t)
    ∧ ∀ (x : Region) (o : Nat) (img slot : Bytes), IsServed s k 0x0403 → q.f 0x10 8 = d.imageBytes →
      s.regionPoison r off d.imageBytes = none → s.sxWait r off d.imageBytes false = none →
      s.slotAt d (s.trn.pending d) = some (x, o) → x.kind = 0 → img = (s.readRegion r off d.imageBytes).1 →
      slot = img.take d.gredOff ++ s.slotRead d (s.trn.pending d) d.gredOff (d.mOff - d.gredOff) ++ img.drop d.gredOff →
      (∀ y, d.importOk slot = some y → ∃ t, exec (.stateImport k) s = .next t
        ∧ Replied s t k cOK (leBytes 8 y.ring ++ leBytes 8 d.imageBytes)
        ∧ t.trn.selOf (q.f 4 4) = ⟨y.ring, true, s.trn.pending d⟩ ∧ (∀ i, i ≠ q.f 4 4 → t.trn.selOf i = s.trn.selOf i)
        ∧ t.wholeSlot d (s.trn.pending d) = slot
        ∧ SameBytes (fun a => x.key o ≤ a ∧ a < x.key o + d.slotBytes) s t
        ∧ Keeps [.mbx, .aon, .mem, .coh, .rgn, .out, .trn] s t)
      ∧ (d.importOk slot = none → ∃ t, exec (.stateImport k) s = .next t ∧ Replied s t k cBAD_ARG [] ∧ t.trn = s.trn
        ∧ SameBytes (fun a => x.key o ≤ a ∧ a < x.key o + d.slotBytes) s t
        ∧ Keeps [.mbx, .aon, .mem, .coh, .rgn, .out] s t)

/-- SHARD_REPAIR asks the other twin for its committed slot and waits; the slot that comes with the ring of the
device's state and its own blaze intact replaces the committed one, and the command ends OK; a device that is asked
answers with its copies, or keeps a request for a ring it has not reached; a referee's verdict of a mismatch is kept
with the dispute (R315, R345, R354, R529). -/
def Obligations.ShardsRepaired : Prop :=
  (∀ (s : State) (k : SlotId) (d : ShardDef) (me o : Nat), s.Inv → IsServed s k 0x0404 →
    (s.asks k).rz 0 4 31 20 = true → (s.asks k).zb 4 4 = true → s.trn.shard (bits ((s.asks k).f 0 4) 19 0) = some d →
    s.ownsShard d = true → s.otherTwin d = some o → s.stepActive = false → s.fab.unreachable o = false →
    s.fab.addr = some me →
    ∃ t, exec (.shardRepair k) s = .next t ∧ t.out = s.out ++ [.referee o (.request me d.shard s.topRing)]
      ∧ t.mbx.prog = some ⟨k, (s.asks k).tag, .shardRepair d.shard, false⟩ ∧ Keeps [.mbx, .aon, .out] s t)
  ∧ (∀ (s : State) (src shard : Nat) (d : ShardDef) (p : Prog) (r : Region) (o : Nat) (b ctl g : Bytes) (z : BitVec 64),
    s.Inv → s.powered = true → s.trn.shard shard = some d → s.owns d = true → s.mbx.prog = some p →
    p.work = .shardRepair d.shard → p.slot ∉ s.mbx.latch → d.intactIn b s.topRing = true → b.length = d.slotBytes →
    s.slotAt d (s.trn.committed d) = some (r, o) → r.kind = 0 → s.slotsWait = none → s.trn.fetches = [] →
    ∃ t, exec (.refereeFetch (.data src shard s.topRing b ctl g z)) s = .next t
      ∧ t.trn.selOf d.shard = ⟨s.topRing, true, s.trn.committed d⟩
      ∧ (∀ i < d.slotBytes, t.byte (r.key o + i) = b.getD i 0#8)
      ∧ SameBytes (fun a => r.key o ≤ a ∧ a < r.key o + d.slotBytes) s t ∧ t.mbx.prog = none
      ∧ t.mbx.cells.read (slotBase p.slot + 0x38) = 0#8 ∧ t.mbx.cells.read (slotBase p.slot + 0x800) = BitVec.ofNat 8 cOK)
  ∧ (∀ (s : State) (src shard ring me : Nat) (d : ShardDef), s.powered = true → s.trn.shard shard = some d →
    s.owns d = true ∨ s.twins d = true → s.fab.addr = some me → s.slotsWait = none →
    ((s.trn.selOf shard).ring < ring → ∃ t, exec (.refereeFetch (.request src shard ring)) s = .next t
      ∧ (src, shard, ring) ∈ t.trn.fetches ∧ t.trn = { s.trn with fetches := t.trn.fetches } ∧ Keeps [.trn] s t)
    ∧ (ring ≤ (s.trn.selOf shard).ring →
    s.slotPoison d (s.trn.committed d) 0 d.slotBytes = false → s.slotPoison d (s.trn.pending d) 0 d.mOff = false →
    ∃ t, exec (.refereeFetch (.request src shard ring)) s = .next t ∧ Keeps [.out] s t
      ∧ t.out = s.out ++ [.referee src (.data me shard (s.trn.selOf shard).ring (s.wholeSlot d (s.trn.committed d))
          (s.slotRead d (s.trn.pending d) 0 d.gredOff) (s.slotRead d (s.trn.pending d) d.gredOff (2 * d.params))
          (BitVec.ofNat 64 (fld (s.slotRead d (s.trn.pending d) 64 64) 0x10 8)))]))
  ∧ ∀ (s : State) (shard : Nat), s.powered = true → s.disputed shard = true → s.slotsWait = none →
    ∃ t, exec (.refereeFetch (.result shard none)) s = .next t ∧ Keeps [.stp] s t
      ∧ ∀ st, s.stp.active = some st → ∃ st', t.stp.active = some st' ∧ (shard, 1) ∈ st'.disputes
          ∧ ∀ x ∈ st'.disputes, x.1 = shard → x.2 = 1

/-! ### The Glade -/

/-- GLADE_SOURCE keeps a legal definition in place of the source's old one, with nothing prepared, found or ordered
for it; GLADE_DISPOSE sets the disposition, or orders a substitute for the sample a halted source stopped at, and the
source resumes; GLADE_STATS answers the source's counts (R422, R441, R507). -/
def Obligations.SourcesKept : Prop :=
  (∀ (s : State) (k : SlotId) (q : Req) (g : Source), s.Inv → q = s.asks k → g = sourceOfReq q → IsServed s k 0x0501 →
    q.rz 0 1 7 4 = true → q.rz 1 1 7 6 = true → q.rz 2 1 7 3 = true → q.rz 3 1 7 1 = true → q.zb 0x14 4 = true →
    q.zb 0x38 8 = true → s.sourceLegal g = true → ((s.gld.source g.id).isSome = true ∨ s.gld.sources.length < 16) →
    (∀ p ∈ s.pln.plans, p.batchOf g.id = none) →
    ∃ t, exec (.gladeSource k) s = .next t ∧ Replied s t k cOK [] ∧ t.gld.source g.id = some g
      ∧ (∀ i, i ≠ g.id → t.gld.source i = s.gld.source i) ∧ (∀ r, r ∈ t.gld.preps ↔ r ∈ s.gld.preps ∧ r.source ≠ g.id)
      ∧ (∀ o, o ∈ t.gld.orders ↔ o ∈ s.gld.orders ∧ o.1 ≠ g.id) ∧ Keeps [.mbx, .aon, .gld] s t)
  ∧ (∀ (s : State) (k : SlotId) (q : Req) (g : Source), s.Inv → q = s.asks k → IsServed s k 0x0502 →
    s.gld.source (bits (q.f 0 1) 3 0) = some g → q.rz 0 1 7 4 = true → q.rz 1 1 7 1 = true →
    (gdAction q = 0 → q.rz 2 1 7 1 = true → q.zb 3 5 = true → q.zb 8 8 = true →
      ∃ t, exec (.gladeDisposeSet k) s = .next t ∧ Replied s t k cOK []
        ∧ t.gld.source g.id = some { g with substitute := bit (q.f 2 1) 0 }
        ∧ (∀ i, i ≠ g.id → t.gld.source i = s.gld.source i) ∧ t.gld.orders = s.gld.orders ∧ Keeps [.mbx, .aon, .gld] s t)
    ∧ (gdAction q = 1 → q.zb 2 6 = true → g.state = 2 → g.haltIndex = q.f 8 8 →
      ∃ t, exec (.gladeDisposeSubstitute k) s = .next t ∧ Replied s t k cOK []
        ∧ t.gld.source g.id = some { g with state := 0, haltIndex := 0 }
        ∧ t.gld.orders = s.gld.orders ++ [(g.id, g.haltIndex, g.haltReason)] ∧ Keeps [.mbx, .aon, .gld] s t))
  ∧ ∀ (s : State) (k : SlotId) (q : Req) (g : Source), s.Inv → q = s.asks k → IsServed s k 0x0503 →
    s.gld.source (bits (q.f 0 1) 3 0) = some g → q.rz 0 1 7 4 = true → q.zb 1 7 = true →
    ∃ t d, exec (.gladeStats k) s = .next t ∧ OnlyReplies s t k cOK d
      ∧ (d.drop 8).take 40 = leBytes 8 g.haltIndex ++ leBytes 8 g.delivered ++ leBytes 8 (g.mean % 2 ^ 64).toNat
          ++ leBytes 8 g.stragglers ++ leBytes 8 g.substitutions

/-- A manifest whose ready word holds its ring is found ready when R424 has nothing against it, and otherwise halts
its source with the reason and fails every group of the slot; one whose word holds another ring is not read on. A
ready manifest of a ring in the look-ahead that still holds against its plan opens a slot of its entries; a free lane
takes the next waiting entry (R423, R424, R432, R433). -/
def Obligations.SamplesPrepared : Prop :=
  (∀ (s : State) (source ring : Nat) (g : Source) (p : Plan) (op : Nat) (b : Bytes), s.powered = true →
    s.gld.source source = some g → s.batchPlan source ring = some (p, op) →
    Accessible s (g.manifestVa + ring % 8 * g.slotBytes) (128 + 16 * g.maxEntries) false →
    b = s.peekVa (g.manifestVa + ring % 8 * g.slotBytes) (128 + 16 * g.maxEntries) → s.stp.active = none →
    (s.deviceRing < ring → (source, ring) ∉ s.gld.manifests → s.gld.prep source ring = none →
      (fld b 0 6 = ring → manifestReason g p op b = 0 → ∃ t, exec (.manifestReady source ring) s = .next t
        ∧ t.gld.manifests = s.gld.manifests ++ [(source, ring)] ∧ t.gld.preps = s.gld.preps
        ∧ t.gld.source source = some (if g.state = 3 then { g with state := 0, reason := 0 } else g)
        ∧ Keeps [.mem, .coh, .rgn, .gld] s t)
      ∧ (fld b 0 6 = ring → manifestReason g p op b ≠ 0 → ∃ t r, exec (.manifestReady source ring) s = .next t
        ∧ t.gld.manifests = s.gld.manifests
        ∧ t.gld.source source = some { g with state := 3, reason := manifestReason g p op b }
        ∧ t.gld.prep source ring = some r ∧ r.rejected = true
        ∧ (∀ m < p.mbCount, r.fails.get m = some (.ofCode cSAMPLE_BAD)) ∧ Keeps [.mem, .coh, .rgn, .gld] s t)
      ∧ (fld b 0 6 ≠ ring → ∃ t, exec (.manifestReady source ring) s = .next t ∧ Keeps [.mem, .coh, .rgn] s t))
    ∧ ((source, ring) ∈ s.gld.manifests → s.deviceRing < ring → ring ≤ s.deviceRing + 1 + g.lookahead →
      (fld b 0 6 = ring → manifestReason g p op b = 0) →
      (∀ r ∈ s.gld.preps, r.source = source → r.ring % (g.lookahead + 1) ≠ ring % (g.lookahead + 1)) →
      (∀ e ∈ manifestEntries b, ∀ why, s.forcedOf source ring e.index ≠ some (.halt why)) →
      ∃ t, exec (.gladePrepareStep source ring) s = .next t ∧ Keeps [.mem, .coh, .rgn, .gld] s t
        ∧ t.gld.prep source ring = some { emptyPrep source ring p.handle op with
            entries := (manifestEntries b).map fun e => { e with forced := s.forcedOf source ring e.index } }
        ∧ t.gld.sources = s.gld.sources))
  ∧ ∀ (s : State) (lane : Fin 32) (source ring k : Nat) (g : Source) (e : PrepEntry) (r : Prep), s.powered = true →
    s.gld.source source = some g → s.gld.lanes.get lane = none → s.gld.nextEntry g = some (ring, k, e) →
    s.gld.prep source ring = some r →
    ∃ t r', exec (.gladeLaneStart lane source) s = .next t ∧ Keeps [.gld, .aon] s t
      ∧ t.gld.lanes.get lane = some ⟨source, ring, k, s.aon.tick.toNat⟩
      ∧ t.gld.prep source ring = some r' ∧ r'.entries[k]? = (r.entries[k]?).map (fun x => { x with st := 1 })
      ∧ ∀ j, j ≠ k → r'.entries[j]? = r.entries[j]?

/-- A lane that ends its work on a record that decodes leaves the entry complete with its outputs, and is free. Where
the source's disposition is HALT, a sample that does not decode, or that reaches its limit, is counted, raises SAMPLE
attention and halts the source at its index with the reason (R427, R432, R435 to R437). -/
def Obligations.SamplesSettle : Prop :=
  ∀ (s : State) (lane : Fin 32) (j : LaneJob) (g : Source) (r : Prep) (e : PrepEntry), s.powered = true →
    s.gld.lanes.get lane = some j → s.gld.source j.source = some g → s.gld.prep j.source j.ring = some r →
    r.entries[j.entry]? = some e →
    (∀ (x : Region) (m : Mapping) (b : Bytes) (ticks : Nat), e.forced = none → s.rgn.get g.stageRegion = some x →
      x.map = some m → e.off + e.len ≤ x.size → Accessible s (m.base + e.off) e.len false →
      b = s.peekVa (m.base + e.off) e.len →
      (∀ o, s.decode r e.index e.index e.len b = .ok o → ∃ t r' g', exec (.sampleDone lane ⟨ticks⟩) s = .next t
        ∧ t.gld.lanes.get lane = none ∧ t.gld.prep j.source j.ring = some r'
        ∧ r'.entries[j.entry]? = some { e with st := 2, out := o }
        ∧ t.gld.source j.source = some g' ∧ g'.completed = g.completed + 1 ∧ g'.corrupt = g.corrupt ∧ t.att = s.att)
      ∧ (∀ why, s.decode r e.index e.index e.len b = .error why → g.substitute = false → s.stp.active = none →
        ∃ t g', exec (.sampleDone lane ⟨ticks⟩) s = .next t ∧ t.gld.lanes.get lane = none
          ∧ t.gld.source j.source = some g' ∧ g'.state = 2 ∧ g'.haltRing = j.ring ∧ g'.haltIndex = e.index
          ∧ g'.haltReason = why ∧ t.att = s.att.raise s.aon.tick aSAMPLE 0 noTag g.id e.index))
    ∧ (g.substitute = false → s.stp.active = none → ∃ t g', exec (.sampleAbandon lane) s = .next t
        ∧ t.gld.lanes.get lane = none ∧ t.gld.source j.source = some g' ∧ g'.state = 2 ∧ g'.haltRing = j.ring
        ∧ g'.haltIndex = e.index ∧ g'.haltReason = gABANDONED
        ∧ t.att = s.att.raise s.aon.tick aSAMPLE 0 noTag g.id e.index ∧ Keeps [.gld, .att, .obs] s t)

/-- A GLADE_BATCH instance that may issue and whose group has been delivered writes its outputs, then its ready word with
the ring, and no other byte of memory; with no release word its work is done, with one it waits until the word holds the
ring (R434, R443 to R446, R449). -/
def Obligations.BatchesDelivered : Prop :=
  (∀ (s u : State) (op mb : Nat) (st : Step) (p : Plan) (r : Prep) (o : TD) (ready : Nat), s.Inv →
    s.enter 0x0050 op mb = some (u, st, p) → s.gld.prep (bits (byteAt (p.param op) 0) 3 0) st.ring = some r →
    p.outTd op 0 mb = some o → r.plan = p.handle → mb < (p.mbs op).length → r.fails.get mb = none → mb ∉ r.copied →
    r.groupDelivered mb = true → ready = fld (p.param op) 0x58 8 → (ready + 8 * mb) % 8 = 0 →
    (∀ t ∈ gladeOuts (p.param op) o (p.outTd op 1 mb), ∀ a ∈ t.accs true, Accessible s a.1 a.2.1 true) →
    (ready ≠ 0 → Accessible s (ready + 8 * mb) 8 true) →
    ∃ t r', exec (.gladeBatch op mb) s = .next t
      ∧ t.inst op mb = some (if fld (p.param op) 0x60 8 = 0 then .computed cOK else .issued)
      ∧ t.gld.prep r.source r.ring = some r' ∧ r'.copied = r.copied ++ [mb]
      ∧ (ready ≠ 0 → t.peekVa (ready + 8 * mb) 8 = leBytes 8 st.ring ∧ t.out.getLast? = some (.flag (ready + 8 * mb)))
      ∧ SameBytes (fun a => (∃ x ∈ gladeOuts (p.param op) o (p.outTd op 1 mb), ∃ y ∈ x.accs true, s.storesTo y.1 y.2.1 a)
          ∨ (ready ≠ 0 ∧ s.storesTo (ready + 8 * mb) 8 a)) s t
      ∧ Keeps [.out, .mem, .coh, .rgn, .stp, .gld, .obs] s t)
  ∧ ∀ (s : State) (op mb : Nat) (st : Step) (p : Plan) (r : Prep) (va : Nat), s.Inv → s.powered = true →
    s.stepPlan = some (st, p) → (p.op op).code = 0x0050 → fld (p.param op) 0x60 8 ≠ 0 →
    va = fld (p.param op) 0x60 8 + 8 * mb → s.gld.prep (bits (byteAt (p.param op) 0) 3 0) st.ring = some r →
    mb ∈ r.copied → r.op = op → r.plan = p.handle → st.st = .running → st.stopped = false → s.inst op mb = some .issued →
    Accessible s va 8 false →
    ∃ t, exec (.releaseWord op mb) s = .next t ∧ SameBytes (fun _ => False) s t
      ∧ (leNat (s.peekVa va 8) = st.ring → t.inst op mb = some (.computed cOK))
      ∧ (leNat (s.peekVa va 8) ≠ st.ring → t.inst op mb = some .issued)
      ∧ Keeps [.mem, .coh, .rgn, .stp] s t

/-! ### The fabric -/

/-- FABRIC_STATUS and PORT_INFO answer the fabric's and a port's state; FABRIC_MAP_LOAD keeps the wait and the retired
addresses while the machine has not formed, and answers TOO_LATE afterwards (R400 to R402, R507). -/
def Obligations.FabricCommands : Prop :=
  (∀ (s : State) (k : SlotId), s.Inv → IsServed s k 0x0601 →
    ∃ t, exec (.fabricStatus k) s = .next t ∧ OnlyReplies s t k cOK s.fab.statusBytes)
  ∧ (∀ (s : State) (k : SlotId) (b : Bytes), s.Inv → IsServed s k 0x0603 → (s.asks k).zb 1 7 = true →
    s.portInfo ((s.asks k).f 0 1) = some b → ∃ t, exec (.portInfo k) s = .next t ∧ OnlyReplies s t k cOK b)
  ∧ ∀ (s : State) (k : SlotId) (q : Req) (wait : Nat), s.Inv → q = s.asks k → IsServed s k 0x0602 → q.zb 7 1 = true →
    q.zb 0x0A 6 = true → (∀ i < 512, q.rz (0x10 + 2 * i) 2 15 14 = true) →
    (s.fab.fs.member = true ∨ s.fab.fs = .isolated →
      ∃ t, exec (.fabricMapLoad k) s = .next t ∧ OnlyReplies s t k cTOO_LATE [])
    ∧ (s.fab.fs = .training → (q.f 4 1 = 0 ∨ q.f 4 1 = s.fab.sx) → (q.f 5 1 = 0 ∨ q.f 5 1 = s.fab.sy) →
      (q.f 6 1 = 0 ∨ q.f 6 1 = s.fab.sz) → q.f 0 4 ≤ 3600000 → q.f 8 2 ≤ 512 →
      q.zb (0x10 + 2 * q.f 8 2) (1024 - 2 * q.f 8 2) = true → (retireList q).Nodup →
      (∀ a ∈ retireList q, s.fab.names a = true ∧ s.fab.addr ≠ some a) → wait = (if q.f 0 4 = 0 then 60000 else q.f 0 4) →
      s.aon.tick.toNat < s.fab.startTick + wait * 100000 →
      ∃ t, exec (.fabricMapLoad k) s = .next t ∧ Replied s t k cOK [] ∧ Keeps [.mbx, .aon, .fab] s t
        ∧ t.fab = { s.fab with fmWait := wait, retired := t.fab.retired }
        ∧ ∀ a, a ∈ t.fab.retired ↔ a ∈ retireList q)

/-- A flit with a bad check is answered with one NAK of the expected number, sent under the port's own numbering while
fewer than 64 flits are unacknowledged; an in-order one advances it and clears the NAK; an IDLE flit does neither. A
NAK, or the time-out of the oldest flit, sends that flit and all after it again in order; the eighth time a flit goes
out again the port retrains (R372 to R376). -/
def Obligations.PortsReceive : Prop :=
  (∀ (s : State) (n : Fin 36) (p : Port) (b : Bytes) (corr unc : Nat) (err : List Nat), s.powered = true →
    s.fab.port n = some p → p.trained = true →
    (unc ≠ 0 ∨ flitCrcOk b = false → ∃ t q, exec (.flitReceive n b corr unc err) s = .next t ∧ t.fab.port n = some q
      ∧ q.fecCorr = p.fecCorr + corr ∧ q.fecUncorr = p.fecUncorr + unc ∧ q.expect = p.expect ∧ q.nakSent = true
      ∧ t.out = s.out ++ (if p.nakSent = false ∧ p.unacked.length < 64 then [.flit n (p.sent p.next (nakFlit p.expect))] else [])
      ∧ Keeps [.fab, .out, .obs] s t)
    ∧ (unc = 0 → flitCrcOk b = true → (flitOf b).2.2.kind ≠ 2 → (flitOf b).1 = p.expect →
      ∃ t q, exec (.flitReceive n b corr unc err) s = .next t ∧ t.fab.port n = some q ∧ q.expect = p.expect + 1
        ∧ q.nakSent = false)
    ∧ (unc = 0 → flitCrcOk b = true → (flitOf b).2.2.kind ≠ 2 → (flitOf b).1 ≠ p.expect →
      ∃ t q, exec (.flitReceive n b corr unc err) s = .next t ∧ t.fab.port n = some q ∧ q.expect = p.expect
        ∧ q.nakSent = true)
    ∧ (unc = 0 → flitCrcOk b = true → (flitOf b).2.2.kind = 2 →
      ∃ t q, exec (.flitReceive n b corr unc err) s = .next t ∧ t.fab.port n = some q ∧ q.expect = p.expect
        ∧ q.nakSent = p.nakSent))
  ∧ ∀ (s : State) (n : Fin 36) (p : Port) (l r : List SentFlit) (x : SentFlit), s.powered = true → s.fab.port n = some p →
    p.trained = true → p.unacked = l ++ x :: r → (∀ y ∈ l, y.seq ≠ x.seq) → ∀ cmd : Instr,
    (cmd = .nakReceive n x.seq ∨ cmd = .flitAckTimeout n ∧ l = []) →
    ((∀ y ∈ x :: r, y.replays < 7) → ∃ t, exec cmd s = .next t
      ∧ t.out = s.out ++ (x :: r).map (fun y => .flit n (p.sent y.seq y.flit))
      ∧ t.fab.port n = some { p with unacked := l ++ (x :: r).map (fun y => { y with replays := y.replays + 1 }),
                                     replays := p.replays + (x :: r).length, pi := p.inRetry }
      ∧ Keeps [.fab, .out, .obs] s t)
    ∧ ((∃ y ∈ x :: r, 7 ≤ y.replays) → ∃ t q, exec cmd s = .next t ∧ t.fab.port n = some q ∧ q.trained = false
        ∧ q.retrainCount = p.retrainCount + 1)

/-- No context of the device has work and no step is active: a change of the links ends no work (R387). -/
def NoWork (s : State) : Prop :=
  (∀ c ∈ s.fab.send, c.failed = true ∨ c.waiting = [] ∧ c.unacked = []) ∧ s.stp.active = none

/-- A retrain that runs out of time takes the port down, out of its bundle, with FABRIC attention; a port that is down
trains again while it has gone down fewer than three times; a port that trains sends its identity, and one that retrained
in its bundle goes on with its flits in order; after its probation it joins its bundle (R371, R376, R377, R391, R394). -/
def Obligations.PortsTrain : Prop :=
  (∀ (s : State) (n : Fin 36) (p : Port), s.powered = true → s.fab.port n = some p → p.pi = 4 → p.trained = false →
    NoWork s → ∃ t q, exec (.retrainTimeout n) s = .next t ∧ t.fab.port n = some q ∧ q.pi = 2 ∧ q.verified = false
      ∧ q.inBundle = false ∧ q.downs = p.downs + 1 ∧ t.att = s.att.raise s.aon.tick aFABRIC 0 noTag 0xFFFF (2 ^ n.val))
  ∧ (∀ (s : State) (n : Fin 36) (p : Port), s.clocks = true → s.fab.port n = some p → p.pi = 2 →
    (p.downs < 3 → ∃ t, exec (.portRetryTimer n) s = .next t ∧ t.fab.port n = some { p with pi := 3 }
      ∧ (∀ m, m ≠ n.val → t.fab.port m = s.fab.port m) ∧ Keeps [.fab, .obs] s t)
    ∧ (3 ≤ p.downs → exec (.portRetryTimer n) s = .next s))
  ∧ (∀ (s : State) (n : Fin 36) (p : Port), s.clocks = true → s.fab.port n = some p → p.unused = false →
    p.trained = false →
    (p.pi = 3 → s.fab.fs = .ready → ∃ t q, exec (.portTrained n) s = .next t ∧ t.fab.port n = some q ∧ q.trained = true
      ∧ q.expect = 0 ∧ q.next = 0 ∧ q.unacked = [] ∧ t.out = s.out ++ [.identity n (s.fab.identityOf n p)]
      ∧ Keeps [.fab, .out, .obs] s t)
    ∧ (p.pi = 4 → p.inBundle = true → ∃ t q, exec (.portTrained n) s = .next t ∧ t.fab.port n = some q ∧ q.pi = 5
      ∧ q.trained = true ∧ q.unacked.map (·.flit) ++ q.waiting = p.unacked.map (·.flit) ++ p.waiting
      ∧ q.unacked.length ≤ 64 ∧ Keeps [.fab, .out, .obs] s t))
  ∧ ∀ (s : State) (n : Fin 36) (p : Port), s.powered = true → s.fab.port n = some p → p.trained = true →
    p.probation = true → s.fab.fs = .ready → NoWork s →
    ∃ t, exec (.portProbationEnd n) s = .next t
      ∧ t.fab.port n = some { p with probation := false, verified := true, inBundle := true, pi := 5 }
      ∧ Keeps [.fab, .out, .obs] s t

/-- A port whose far end is the neighbour its bundle leads to joins the bundle, or, after a fall, its probation;
another makes the port a miscabled or an unverified one, with FABRIC attention once, and an unverified one repeats its
identity. A newer record of an address is kept and flooded, an older one is not; two devices under one address are in
conflict, and both records go on. Discovery's bounds raise FABRIC attention with INTERNAL (R16, R368, R377, R387 to
R394). -/
def Obligations.DiscoveryRuns : Prop :=
  (∀ (s : State) (n : Fin 36) (p : Port) (far : IdentityMsg) (me : Nat), s.powered = true → s.fab.port n = some p →
    p.trained = true → p.inBundle = false → s.fab.addr = some me → s.fab.fs = .ready → NoWork s →
    (∀ a, far.addr = some a → far.sx = s.fab.sx → far.sy = s.fab.sy → far.sz = s.fab.sz → far.bundle = opposite p.bundle →
      a = s.fab.neighbour me p.bundle → ∃ t, exec (.identityExchange n far) s = .next t
        ∧ t.fab.port n = some (if p.downs = 0
            then { p with far := some far, probation := false, verified := true, inBundle := true, pi := 5 }
            else { p with far := some far, verified := true, probation := true, pi := 3 })
        ∧ (∀ m, m ≠ n.val → t.fab.port m = s.fab.port m) ∧ Keeps [.fab, .out, .obs] s t)
    ∧ (∀ a, far.addr = some a → ¬ (far.sx = s.fab.sx ∧ far.sy = s.fab.sy ∧ far.sz = s.fab.sz
        ∧ far.bundle = opposite p.bundle ∧ a = s.fab.neighbour me p.bundle) →
      ∃ t, exec (.identityExchange n far) s = .next t ∧ t.fab.port n = some { p with far := some far, pi := 6 }
        ∧ t.att = (if p.pi = 6 then s.att else s.att.raise s.aon.tick aFABRIC 0 noTag a (2 ^ n.val))
        ∧ (∀ m, m ≠ n.val → t.fab.port m = s.fab.port m) ∧ Keeps [.fab, .obs, .att] s t)
    ∧ (far.addr = none → ∃ t, exec (.identityExchange n far) s = .next t
        ∧ t.fab.port n = some { p with far := some far, pi := 7 }
        ∧ t.att = (if p.pi = 7 then s.att else s.att.raise s.aon.tick aFABRIC 0 noTag 0xFFFF (2 ^ n.val))
        ∧ (∀ m, m ≠ n.val → t.fab.port m = s.fab.port m) ∧ Keeps [.fab, .obs, .att] s t))
  ∧ (∀ (s : State) (n : Fin 36) (p : Port), s.powered = true → s.fab.port n = some p → p.pi = 7 →
    ∃ t, exec (.unverifiedRetry n) s = .next t ∧ t.out = s.out ++ [.identity n (s.fab.identityOf n p)] ∧ Keeps [.out] s t)
  ∧ (∀ (s : State) (b : Nat) (r : LinkState) (me : Nat), s.powered = true → s.fab.addr = some me → me ≠ r.addr →
    s.fab.names r.addr = true → r.addr ∉ s.fab.conflicts → s.fab.fs = .ready → NoWork s → s.stp.resume = none →
    ((∀ o, s.fab.record r.addr = some o → o.devid = r.devid ∧ o.seq < r.seq) →
      ∃ t, exec (.linkStateRecord b r) s = .next t ∧ t.fab.record r.addr = some r
        ∧ (∀ a, a ≠ r.addr → t.fab.record a = s.fab.record a) ∧ Keeps [.fab, .out] s t
        ∧ t.out = s.out ++ (s.fab.upBundles.filter (· != b)).map fun c => .linkState c r)
    ∧ ∀ o, s.fab.record r.addr = some o →
      (o.devid = r.devid → ¬ o.seq < r.seq → exec (.linkStateRecord b r) s = .next s)
      ∧ (o.devid ≠ r.devid → ∃ t, exec (.linkStateRecord b r) s = .next t ∧ r.addr ∈ t.fab.conflicts
          ∧ t.fab.record r.addr = some (if o.seq < r.seq then r else o)
          ∧ t.out = s.out ++ ((s.fab.upBundles.filter (· != b)).map fun c => .linkState c r)
          ∧ t.att = s.att.raise s.aon.tick aFABRIC 0 noTag r.addr 0 ∧ Keeps [.fab, .out, .att, .obs] s t))
  ∧ (∀ s : State, s.powered = true → s.fab.fs = .mapping → s.fab.barrier = none →
    (s.fab.floodLate = false → ∃ t, exec .discoveryFloodTimeout s = .next t ∧ t.fab = { s.fab with floodLate := true }
      ∧ t.att = s.att.raise s.aon.tick aFABRIC cINTERNAL noTag (s.fab.unrecorded.head?.getD 0xFFFF) 0
      ∧ Keeps [.fab, .att, .obs] s t)
    ∧ (s.fab.floodLate = true → exec .discoveryFloodTimeout s = .next s))
  ∧ (∀ (s : State) (k : Nat), s.powered = true → s.fab.inStep k = true → k ≠ 2 → k ≠ 3 →
    ∃ t, exec (.discoveryBoundExpiry k) s = .next t
      ∧ t.att = s.att.raise s.aon.tick aFABRIC cINTERNAL noTag (s.fab.addr.getD 0xFFFF) 0 ∧ Keeps [.att, .obs] s t)
  ∧ (∀ s : State, s.powered = true → s.fab.inStep 2 = true →
    (∃ p ∈ s.fab.usedPorts, p.2.trained = true ∧ p.2.far = none) →
    ∃ t, exec (.discoveryBoundExpiry 2) s = .next t ∧ t.fab = { s.fab with trainOver := true }
      ∧ t.att = s.att.raise s.aon.tick aFABRIC cINTERNAL noTag (s.fab.addr.getD 0xFFFF)
          ((s.fab.usedPorts.filter (!·.2.trained)).map fun p => 2 ^ p.1).sum
      ∧ Keeps [.fab, .att, .obs] s t)
  ∧ ∀ (s : State) (me a : Nat), s.powered = true → s.fab.inStep 3 = true → s.fab.addr = some me →
    (∀ p ∈ s.fab.ports, p.2.verified = true → ∀ x, p.2.far = some x → x.joined = false) → s.fab.expired = false →
    s.fab.barrier = none → a ∈ s.fab.allAddrs → a ∉ s.fab.retired → a ≠ me → s.fab.record a = none →
    ∃ t, exec (.discoveryBoundExpiry 3) s = .next t ∧ t.fab.fs = .mapping ∧ (t.fab.record me).isSome = true
      ∧ t.att = s.att.raise s.aon.tick aFABRIC cINTERNAL noTag me
          ((s.fab.usedPorts.filter fun p => p.2.trained && p.2.far.isNone).map fun p => 2 ^ p.1).sum
      ∧ Keeps [.fab, .out, .att, .obs] s t

/-- A barrier message waits until the device is at its place; the broadcast along the last axis ends a readiness
barrier, and the device is READY with every address a member. When the wait is over, or with another's message, a
device that maps the machine enters the partial barrier at once, and hands its predecessor's bitmap on met with its
own. A joiner's notice is kept and flooded, a LATE device repeats its own, and the donor's continuity record goes to
the loaded plans (R392, R395, R396, R602 to R605). -/
def Obligations.BarriersRun : Prop :=
  (∀ (s : State) (m : BarrierMsg), s.powered = true → s.fab.fs = .training → s.fab.barrier = none →
    ∃ t, exec (.readinessBarrierMessage m) s = .next t
      ∧ t.fab = { s.fab with heldBarrier := s.fab.heldBarrier ++ [(0, m)] } ∧ Keeps [.fab] s t)
  ∧ (∀ (s : State) (own : List Nat) (b : Barrier) (me : Nat), s.powered = true → s.fab.fs = .mapping →
    (∀ x, s.fab.barrier = some x → x.kind ≠ 1) → s.fab.addr = some me →
    own = s.fab.allAddrs.filter (fun a => (s.fab.record a).isSome && !s.fab.conflicts.contains a && !s.fab.retired.contains a) →
    b = ⟨1, .z, own, own, false⟩ → chainFirst (s.fab.barrierLine b me) me = false → s.fab.heldBarrier = [] →
    (∃ t, exec .partialWaitExpiry s = .next t ∧ t.fab = { s.fab with expired := true, barrier := some b } ∧ Keeps [.fab] s t)
    ∧ (∀ m : BarrierMsg, m.axis ≠ .z → ∃ t, exec (.partialBarrierMessage m) s = .next t
      ∧ t.fab = { s.fab with expired := true, barrier := some b, heldBarrier := [(1, m)] } ∧ Keeps [.fab] s t)
    ∧ ∀ (m : BarrierMsg) (nx : Nat), m.axis = .z → m.bcast = false → chainNext (s.fab.barrierLine b me) me = some nx →
      ∃ t, exec (.partialBarrierMessage m) s = .next t
        ∧ t.fab = { s.fab with expired := true, barrier := some { b with set := meet m.set own, sent := true } }
        ∧ t.out = s.out ++ [.barrier nx 1 ⟨.z, false, me, meet m.set own⟩] ∧ Keeps [.fab, .out] s t)
  ∧ (∀ (s : State) (m : BarrierMsg) (b : Barrier) (me : Nat), s.powered = true → s.fab.fs = .mapping →
    s.fab.barrier = some b → b.kind = 0 → b.axis = .x → b.sent = true → m.axis = .x → m.bcast = true →
    s.fab.addr = some me → NoWork s → s.stp.resume = none →
    ∃ t, exec (.readinessBarrierMessage m) s = .next t ∧ t.fab.fs = .ready ∧ t.fab.members = some s.fab.allAddrs
      ∧ t.fab.barrier = none ∧ t.fab.readyTick = s.aon.tick.toNat
      ∧ t.att = s.att.raise s.aon.tick aFABRIC 0 noTag me 0 ∧ Keeps [.fab, .out, .att, .obs] s t)
  ∧ (∀ (s : State) (n : JoinNotice) (b me : Nat), s.powered = true → s.fab.addr = some me → s.fab.fs.member = true →
    n.addr ≠ me → n ∉ s.fab.notices → s.fab.barrier.isSome = true →
    ∃ t, exec (.joinNotice (.notice n b)) s = .next t ∧ n ∈ t.fab.notices
      ∧ t.fab = { s.fab with notices := t.fab.notices } ∧ Keeps [.fab, .out] s t
      ∧ (s.fab.neighbour me b = n.addr → .joinReply b (s.fab.members.getD []) ∈ t.out))
  ∧ (∀ (s : State) (m : BarrierMsg), s.powered = true → s.fab.fs.member = true → s.fab.barrier = none →
    ∃ t, exec (.joinBarrierMessage m) s = .next t
      ∧ t.fab = { s.fab with heldBarrier := s.fab.heldBarrier ++ [(2, m)] } ∧ Keeps [.fab] s t)
  ∧ (∀ (s : State) (me : Nat), s.powered = true → s.fab.addr = some me → s.fab.fs = .isolated → s.fab.reason = 4 →
    s.fab.barrier = none → ∃ t, exec .joinRetryTimer s = .next t ∧ Keeps [.out] s t
      ∧ t.out = s.out ++ (s.fab.ports.filter (·.2.verified)).map fun p =>
          .joinNotice p.1 ⟨me, s.fab.devid, s.fab.sx, s.fab.sy, s.fab.sz, 1, 1⟩)
  ∧ ∀ (s : State) (r : Continuity), s.powered = true → s.pln.awaitContinuity = true → s.pln.awaitRing = false →
    ∃ t, exec (.continuityRecord r) s = .next t ∧ t.pln.continuity = some r ∧ t.pln.awaitContinuity = false
      ∧ t.pln.plans = s.pln.plans.map (·.continued r) ∧ Keeps [.pln] s t

/-- An end-to-end acknowledgement takes off what it covers and returns credits; a stalled context sends its
unacknowledged flits again over the current route, or, with none, fails with FABRIC attention; one that the
destination refuses or has failed is used no more, and a message that failed its check goes out again from its first
flit; received flits are acknowledged after the interval, with a credit for each that has been consumed; a complete
message of a peer MOVE is written at its address and to no other byte, or, where no registered writable region holds
it, refused; a collective's message of a step that is over is consumed, and one whose step has not come waits in its
context (R206, R383 to R387, R410, R412). -/
def Obligations.FlowContexts : Prop :=
  (∀ (s : State) (c : SendCtx), s.powered = true → s.fab.ctx c.ctx = some c → c.failed = false →
    (∀ up cr : Nat, c.waiting = [] → ∃ t c', exec (.e2eAck c.ctx up (.ack cr)) s = .next t ∧ t.fab.ctx c.ctx = some c'
      ∧ c'.credits = min 256 (c.credits + cr)
      ∧ c'.unacked = c.unacked.filter (fun x => decide ((x.cseq + 16384 - up % 16384) % 16384 < 8192))
      ∧ (c'.unacked.length < c.unacked.length → c'.resends = 0)
      ∧ (∀ n, n ≠ c.ctx → t.fab.ctx n = s.fab.ctx n) ∧ Keeps [.fab] s t)
    ∧ (∀ start : Nat, c.credits = 0 → ∃ t c', exec (.e2eAck c.ctx start .resend) s = .next t
      ∧ t.fab.ctx c.ctx = some c'
      ∧ c'.waiting = throughLast ((c.kept ++ c.unacked).dropWhile fun x => x.cseq != start) ++ c.waiting
      ∧ c'.credits = 0 ∧ c'.failed = false ∧ (∀ n, n ≠ c.ctx → t.fab.ctx n = s.fab.ctx n) ∧ Keeps [.fab] s t)
    ∧ (∀ q : Nat, s.stp.active = none → ∃ t, exec (.e2eAck c.ctx q .refused) s = .next t
      ∧ t.fab.ctx c.ctx = some { c with failed := true, kept := [], waiting := [], unacked := [] } ∧ Keeps [.fab] s t)
    ∧ (∀ q : Nat, s.stp.active = none → ∃ t, exec (.e2eAck c.ctx q .failed) s = .next t
      ∧ t.fab.ctx c.ctx = some { c with failed := true, kept := [], waiting := [], unacked := [] }
      ∧ t.fab.ctxFailed = s.fab.ctxFailed + 1 ∧ t.att = s.att.raise s.aon.tick aFABRIC cINTERNAL noTag c.dst 0
      ∧ Keeps [.fab, .att, .obs] s t))
  ∧ (∀ (s : State) (c : SendCtx) (me : Nat), s.powered = true → s.fab.ctx c.ctx = some c → s.fab.addr = some me →
    c.failed = false → c.unacked ≠ [] →
    ((s.fab.route me c.dst).isSome = true → c.resends < 64 → ∃ t, exec (.contextStallTimeout c.ctx) s = .next t
      ∧ t.fab.ctx c.ctx = some { c with resends := c.resends + 1 } ∧ Keeps [.fab, .out, .obs] s t)
    ∧ (s.fab.route me c.dst = none ∨ 64 ≤ c.resends → s.stp.active = none →
      ∃ t, exec (.contextStallTimeout c.ctx) s = .next t
        ∧ t.fab.ctx c.ctx = some { c with failed := true, kept := [], waiting := [], unacked := [] }
        ∧ t.fab.ctxFailed = s.fab.ctxFailed + 1 ∧ t.att = s.att.raise s.aon.tick aFABRIC cINTERNAL noTag c.dst 0
        ∧ Keeps [.fab, .att, .obs] s t))
  ∧ (∀ (s : State) (c : RecvCtx), s.powered = true → s.fab.rctx c.src c.ctx = some c → 0 < c.unacked ∨ 0 < c.freed →
    ∃ t, exec (.flowAckInterval c.src c.ctx) s = .next t ∧ t.out = s.out ++ [.e2e c.src c.ctx c.next (.ack c.freed)]
      ∧ t.fab.rctx c.src c.ctx = some { c with unacked := 0, freed := 0 } ∧ Keeps [.fab, .out] s t)
  ∧ (∀ (s : State) (c : RecvCtx) (b : Bytes) (rest : List Bytes) (m : ChainMsg) (n : Nat), s.powered = true →
    s.fab.rctx c.src c.ctx = some c → c.complete = b :: rest → m = ChainMsg.parse b → s.fab.earlyMsgs = [] →
    s.slotsWait = none → c.held = [] → c.freed < 32 →
    (s.arrival m.step m.attempt (m.kind == 3 || m.kind == 4) = .gone →
      ∃ t, exec (.flowMessageComplete c.src c.ctx (.chain n)) s = .next t
      ∧ t.fab.rctx c.src c.ctx = some { c with complete := rest } ∧ t.fab.earlyMsgs = [] ∧ Keeps [.fab] s t)
    ∧ (s.arrival m.step m.attempt (m.kind == 3 || m.kind == 4) = .wait →
      exec (.flowMessageComplete c.src c.ctx (.chain n)) s = .next s))
  ∧ ∀ (s : State) (c : RecvCtx) (b : Bytes) (rest : List Bytes) (va : Nat), s.Inv → s.powered = true →
    s.fab.rctx c.src c.ctx = some c → c.complete = b :: rest → s.slotsWait = none → c.held = [] → c.freed < 32 →
    ((s.peerRegion va b.length true).isSome = true → Accessible s va b.length true →
      ∃ t, exec (.flowMessageComplete c.src c.ctx (.tile va)) s = .next t
        ∧ t.fab.rctx c.src c.ctx = some { c with complete := rest }
        ∧ (va / pageBytes = (va + b.length - 1) / pageBytes → t.peekVa va b.length = b)
        ∧ SameBytes (s.storesTo va b.length) s t ∧ Keeps [.fab, .mem, .coh, .rgn, .out] s t)
    ∧ (s.peerRegion va b.length true = none → ∃ t, exec (.flowMessageComplete c.src c.ctx (.tile va)) s = .next t
        ∧ t.out = s.out ++ [.peerRefuse c.src] ∧ t.fab.rctx c.src c.ctx = some { c with complete := rest }
        ∧ Keeps [.fab, .out] s t)

/-! ### Chain collectives -/

/-- The bytes of a flat tensor's tile records that hold a number of parameters. -/
def flatBytes (s : State) (t : TD) (params key : Nat) : Prop :=
  ∃ k < params / 16384, ∃ x ∈ t.recordPieces (t.tileIndex (flatTile k)), s.storesTo x.va x.len key

/-- CHAIN_REDUCE of a member that is not first on the path quantises its part into OUT0 and the next residue, writes no
other byte, and waits; a REDUCE message at a member that is not the owner goes on with the member's part added. A message
of a later attempt waits, one that is over is discarded (R291, R406 to R412). -/
def Obligations.ReductionsRun : Prop :=
  (∀ (s u : State) (st : Step) (p : Plan) (op me : Nat) (pl : Place) (d : ShardDef), s.Inv →
    s.slotsWait = none → s.enter 0x0030 op 0 = some (u, st, p) → s.trn.shard (p.shardOf op) = some d →
    s.fab.addr = some me → s.fab.chain d.shard = none → s.fab.earlyMsgs = [] →
    (p.inTd op 0 0 = none → ∃ t, exec (.chainReduce op pl) s = .next t
      ∧ t.fab.chain d.shard = some (Chain.start d.shard op true 0) ∧ t.inst op 0 = some .issued
      ∧ Keeps [.stp, .fab, .obs] s t)
    ∧ ∀ g e eNew q : TD, p.inTd op 0 0 = some g → s.residues p op = some (e, eNew) → p.outTd op 0 0 = some q →
      (∀ a ∈ g.accs false ++ e.accs false ++ eNew.accs true ++ q.accs true, Accessible s a.1 a.2.1 a.2.2) →
      (p.lineOf op).reducePos d.owner me ≠ 0 →
      ∃ t, exec (.chainReduce op pl) s = .next t ∧ t.fab.chain d.shard = some (Chain.start d.shard op true 0)
        ∧ t.inst op 0 = some .issued
        ∧ SameBytes (fun a => flatBytes s q d.params a ∨ flatBytes s eNew d.params a) s t
        ∧ Keeps [.out, .fresh, .aon, .mem, .rgn, .coh, .stp, .eng, .fab, .obs] s t)
  ∧ (∀ (s : State) (b : Bytes) (m : ChainMsg), m = ChainMsg.parse b → s.powered = true → m.kind = 1 ∨ m.kind = 2 →
    s.slotsWait = none →
    (s.arrival m.step m.attempt = .wait → ∃ t, exec (.chainMessage b) s = .next t
      ∧ t.fab = { s.fab with earlyMsgs := s.fab.earlyMsgs ++ [(0, b)] } ∧ Keeps [.fab] s t)
    ∧ (s.arrival m.step m.attempt = .gone → exec (.chainMessage b) s = .next s))
  ∧ ∀ (s : State) (b : Bytes) (m : ChainMsg) (st : Step) (p : Plan) (d : ShardDef) (c : Chain) (me : Nat) (q : TD), s.Inv →
    m = ChainMsg.parse b → s.powered = true → s.slotsWait = none → m.kind = 1 → s.arrival m.step m.attempt = .now →
    s.stepPlan = some (st, p) → s.trn.shard m.shard = some d → s.fab.chain m.shard = some c → s.fab.addr = some me →
    me ≠ d.owner → m.seg ∉ c.written → m.hop = (p.lineOf c.op).reducePos d.owner me → m.hop ≠ 0 →
    p.outTd c.op 0 0 = some q → s.segsWait q d.params [m.seg] = none →
    (∀ n x, s.fab.ctxOf p.handle c.op 0 ((p.lineOf c.op).next me) = some n → s.fab.ctx n = some x →
      (s.fab.route me x.dst).isSome = true) →
    ∃ t c', exec (.chainMessage b) s = .next t ∧ t.fab.chain m.shard = some c' ∧ c'.written = c.written ++ [m.seg]
      ∧ SameBytes (fun _ => False) s t ∧ Keeps [.out, .mem, .rgn, .coh, .stp, .fab, .obs] s t

/-- ALLGATHER at the owner converts the committed weights and has every segment; another member asks its predecessor,
or, when that cannot be reached, a context has failed. A segment with the right digest is written to OUT0 and to no
other byte; one with another is fetched again from the owner. A request waits until the device's own gather has begun
(R345, R352, R387, R412, R414 to R418; which gather of a shard a message belongs to is DEDUCED, log 28). -/
def Obligations.GathersRun : Prop :=
  (∀ (s u : State) (st : Step) (p : Plan) (op me : Nat) (d : ShardDef) (o : TD), s.Inv →
    s.slotsWait = none → s.enter 0x0031 op 0 = some (u, st, p) → s.trn.shard (p.shardOf op) = some d →
    s.fab.addr = some me → p.outTd op 0 0 = some o → s.fab.gather d.shard (p.gatherOf op) = none → s.fab.earlyMsgs = [] → s.fab.gatherReqs = [] →
    (me ≠ d.owner → s.fab.unreachable ((p.lineOf op).prev me) = true → ∃ t, exec (.allGather op) s = .next t
      ∧ t.fab.ctxFailed = s.fab.ctxFailed + 1)
    ∧ (me ≠ d.owner → s.fab.unreachable ((p.lineOf op).prev me) = false → ∃ t, exec (.allGather op) s = .next t
      ∧ t.out = s.out ++ [.gatherRequest ((p.lineOf op).prev me) d.shard st.attempt (st.ring - 1) (p.gatherOf op)]
      ∧ t.fab.gather d.shard (p.gatherOf op) = some (Chain.start d.shard op false (p.gatherOf op)) ∧ t.inst op 0 = some .issued
      ∧ Keeps [.out, .stp, .fab, .obs] s t)
    ∧ (me = d.owner → (s.trn.selOf d.shard).ring + 1 = st.ring → (∀ a ∈ o.accs true, Accessible s a.1 a.2.1 a.2.2) →
      s.slotPoisonAt d (s.trn.committed d) d.wOff (4 * d.params) = none →
      ∃ t c, exec (.allGather op) s = .next t ∧ t.fab.gather d.shard (p.gatherOf op) = some c ∧ c.checked = true
        ∧ c.written = List.range d.segs ∧ t.inst op 0 = some (.computed cOK)
        ∧ SameBytes (flatBytes s o d.params) s t ∧ Keeps [.out, .mem, .rgn, .coh, .stp, .fab, .obs] s t))
  ∧ (∀ (s : State) (b : Bytes) (m : ChainMsg) (st : Step) (p : Plan) (d : ShardDef) (c : Chain) (me n : Nat) (o : TD), s.Inv →
    m = ChainMsg.parse b → s.powered = true → m.kind = 4 → s.fab.earlyMsgs = [] → s.arrival m.step m.attempt true = .now →
    s.stepPlan = some (st, p) → s.trn.shard m.shard = some d → s.fab.gather m.shard n = some c → s.fab.addr = some me →
    me ≠ d.owner → m.hop = (p.lineOf c.op).gatherPos d.owner me → c.checked = true → m.seg ∉ c.written →
    p.outTd c.op 0 0 = some o → c.requested = false →
    (crc64 m.payload = (c.entries.getD m.seg (0, 0, 0)).2.2 →
      (∀ k ∈ segTiles d.params m.seg, ∀ x ∈ o.recordPieces (o.tileIndex (flatTile k)), Accessible s x.va x.len true) →
      ∃ t, exec (.gatherMessage n b) s = .next t
        ∧ t.fab.gather m.shard n = some { c with written := c.written ++ [m.seg] }
        ∧ ((∀ j < d.segs, j ∈ c.written ∨ j = m.seg) → s.inst c.op 0 = some .issued →
            t.inst c.op 0 = some (.computed cOK))
        ∧ SameBytes (fun a => ∃ k ∈ segTiles d.params m.seg, ∃ x ∈ o.recordPieces (o.tileIndex (flatTile k)),
            s.storesTo x.va x.len a) s t
        ∧ Keeps [.out, .mem, .rgn, .coh, .stp, .fab] s t)
    ∧ (crc64 m.payload ≠ (c.entries.getD m.seg (0, 0, 0)).2.2 → c.retries.getD m.seg 0 < 3 → m.seg < 2 ^ 32 →
      ∃ t, exec (.gatherMessage n b) s = .next t ∧ t.out = s.out ++ [.gatherRefetch d.owner d.shard n m.seg]
        ∧ Keeps [.out, .fab] s t))
  ∧ (∀ (s : State) (b : Bytes) (m : ChainMsg) (n : Nat), m = ChainMsg.parse b → s.powered = true → m.kind = 3 ∨ m.kind = 4 →
    s.fab.earlyMsgs = [] → s.arrival m.step m.attempt true = .wait → ∃ t, exec (.gatherMessage n b) s = .next t
      ∧ t.fab = { s.fab with earlyMsgs := [(n, b)] } ∧ Keeps [.fab] s t)
  ∧ (∀ (s : State) (src shard attempt ring n : Nat), s.powered = true →
    (s.arrival (ring + 1) attempt true = .wait ∨ s.arrival (ring + 1) attempt true = .now ∧ s.fab.gather shard n = none →
      ∃ t, exec (.gatherRequest src shard attempt ring n) s = .next t ∧ Keeps [.fab] s t
        ∧ t.fab = { s.fab with gatherReqs := s.fab.gatherReqs ++ [⟨src, shard, n, attempt, ring⟩] })
    ∧ (s.arrival (ring + 1) attempt true = .gone → exec (.gatherRequest src shard attempt ring n) s = .next s))
  ∧ ∀ (s : State) (src ring va len : Nat), s.Inv → s.powered = true → s.fab.peerReads = [] → ring ≤ s.deviceRing →
    ((s.peerRegion va len false).isSome = true → Accessible s va len false →
      ∃ t, exec (.peerReadRequest src ring va len) s = .next t ∧ t.out = s.out ++ [.peerData src (s.peekVa va len)]
        ∧ SameBytes (fun _ => False) s t ∧ Keeps [.out, .mem, .rgn, .coh] s t)
    ∧ (s.peerRegion va len false = none → ∃ t, exec (.peerReadRequest src ring va len) s = .next t
        ∧ t.out = s.out ++ [.peerRefuse src] ∧ Keeps [.out] s t)

/-! ### Operations -/

/-- The accesses of tensors that may be absent. -/
def optAccs (ts : List (Option TD)) (store : Bool) : List (Nat × Nat × Bool) :=
  ts.flatMap fun t => match t with | some t => t.accs store | none => []

/-- The bytes of tensors that may be absent. -/
def optBytes (s : State) (ts : List (Option TD)) (key : Nat) : Prop :=
  ∃ t, some t ∈ ts ∧ ∃ x ∈ t.spans, s.storesTo x.va x.len key

/-- Coordinates of an element of a tile. -/
def tileElem (c : List Nat) (r k : Nat) : List Nat :=
  [128 * c.getD 0 0 + k, 128 * c.getD 1 0 + r, c.getD 2 0, c.getD 3 0, c.getD 4 0, c.getD 5 0]

/-- The operations that run in one event: once an instance may issue, or goes on, and its tensors are accessible, its
work is done with OK (a SAPLING_CONV's also with RANGE), and no byte outside its outputs changes; a MOVE of a peer's
tensor asks for its pieces (or, when the peer cannot be reached, its context has failed) and is done when they have
come, one to a peer when everything sent is acknowledged. ACT_BACKWARD and GRAD_GATHER write into a one-tile output
what R179 and R182 say (R150 to R162, R169 to R171, R179, R182, R204 to R208, R326, R387, R421). -/
def Obligations.OperationsRun : Prop :=
  (∀ (s u : State) (st : Step) (p : Plan) (cmd : Instr) (code op mb : Nat) (pl : Place), s.Inv →
    s.enter code op mb = some (u, st, p) → s.groveStopped pl.grove = false →
    (cmd = .vectorElementwise op mb pl ∧ code = 0x20 ∧ s.vecMode op = some 0
      ∨ cmd = .vectorReduce op mb pl ∧ code = 0x20 ∧ s.vecMode op = some 1
      ∨ cmd = .vectorGather op mb pl ∧ code = 0x20 ∧ s.vecMode op = some 2
      ∨ cmd = .vectorScatter op mb pl ∧ code = 0x20 ∧ s.vecMode op = some 3
      ∨ cmd = .actBackward op mb pl ∧ code = 0x21 ∨ cmd = .gradGather op mb pl ∧ code = 0x22
      ∨ cmd = .pool op mb pl ∧ code = 0x11 ∨ cmd = .boxDecode op mb pl ∧ code = 0x12
      ∨ cmd = .suppress op mb pl ∧ code = 0x13) →
    (∀ a ∈ optAccs (p.insOf op mb) false ++ optAccs (p.outsOf op mb) true, Accessible s a.1 a.2.1 a.2.2) →
    ∃ t, exec cmd s = .next t ∧ t.inst op mb = some (.computed cOK) ∧ SameBytes (optBytes s (p.outsOf op mb)) s t
      ∧ Keeps [.out, .fresh, .aon, .mem, .rgn, .coh, .stp, .eng, .obs] s t
      ∧ ∀ (o : TD) (c : List Nat) (va : Nat) (el : Bytes) (f : List Nat → Nat), p.outTd op 0 mb = some o → o.tiles = [c] →
          o.mode = 0 → va = (o.recordAt (o.tileIndex c)).1 →
          el = (o.encodeTile c fun r k => d32 (f (tileElem c r k))).1 → va / pageBytes = (va + el.length - 1) / pageBytes →
          (cmd = .actBackward op mb pl → ∀ dy v rest, (s.loadAll (fun _ _ => true) (p.insOf op mb)).1 = some dy :: some v :: rest →
            (∀ e, f e = actBack (bits (byteAt (p.param op) 0) 5 3) (bit (byteAt (p.param op) 0) 2) (fld (p.param op) 4 4)
              (dy.at32 e) (v.at32 e)) → t.peekVa va el.length = el)
          ∧ (cmd = .gradGather op mb pl → ∀ a r,
            ((s.loadAll (fun _ _ => true) (p.insOf op mb)).1.take (byteAt (p.param op) 0)).filterMap id = a :: r →
            (∀ e, f e = r.foldl (fun y l => fadd y (l.at32 e)) (a.at32 e)) → t.peekVa va el.length = el))
  ∧ (∀ (s u : State) (st : Step) (p : Plan) (op mb : Nat) (engs : List (Fin 4)) (q : Prod), s.Inv →
    s.enter 0x14 op mb = some (u, st, p) → p.prod op mb = some q → engs ≠ [] →
    (∀ e ∈ engs, s.floorStopped (e.val / 2) = false) →
    (∀ a ∈ q.a.accs false ++ q.b.accs false ++ optAccs [q.cols] false ++ q.d.accs true ++ optAccs [q.save] true,
      Accessible s a.1 a.2.1 a.2.2) →
    ∃ t, exec (.saplingConv op mb engs) s = .next t
      ∧ (t.inst op mb = some (.computed cOK) ∨ t.inst op mb = some (.computed cRANGE))
      ∧ SameBytes (optBytes s [some q.d, q.save]) s t ∧ Keeps [.out, .aon, .mem, .rgn, .coh, .stp, .obs] s t)
  ∧ (∀ (s u : State) (st : Step) (p : Plan) (op mb : Nat) (x o : TD), s.Inv → s.enter 0x60 op mb = some (u, st, p) →
    p.peerOut op = false → p.peerIn op = false → p.inTd op 0 mb = some x → p.outTd op 0 mb = some o → x.side = o.side →
    (∀ a ∈ (movePieces (p.param op) x o).map (fun r => (r.va, r.len, false)) ++ o.accs false ++ o.accs true,
      Accessible s a.1 a.2.1 a.2.2) →
    ∃ t, exec (.move op mb none) s = .next t ∧ t.inst op mb = some (.computed cOK) ∧ SameBytes (optBytes s [some o]) s t
      ∧ Keeps [.out, .mem, .rgn, .coh, .stp, .obs] s t)
  ∧ (∀ (s u : State) (st : Step) (p : Plan) (op mb : Nat) (x o : TD), s.enter 0x60 op mb = some (u, st, p) →
    p.peerOut op = false → p.peerIn op = true → p.inTd op 0 mb = some x → p.outTd op 0 mb = some o →
    (s.fab.unreachable (fld (p.param op) 2 2) = true → ∃ t, exec (.move op mb none) s = .next t
      ∧ t.fab.ctxFailed = s.fab.ctxFailed + 1)
    ∧ (s.fab.unreachable (fld (p.param op) 2 2) = false → ∃ t, exec (.move op mb none) s = .next t ∧ t.inst op mb = some .sent ∧ Keeps [.out, .stp, .obs] s t
      ∧ t.out = s.out ++ (movePieces (p.param op) x o).map fun r =>
          .peerReadRequest (fld (p.param op) 2 2) st.ring r.va r.len))
  ∧ (∀ (s : State) (st : Step) (p : Plan) (op mb : Nat) (x o : TD) (ds : List Bytes), s.Inv → s.stepPlan = some (st, p) →
    s.inst op mb = some .sent → s.powered = true → st.st = .running → st.stopped = false → p.inTd op 0 mb = some x →
    p.outTd op 0 mb = some o → ds ≠ [] →
    (p.peerOut op = true → s.ctxSent p op mb (fld (p.param op) 2 2) = true →
      ∃ t, exec (.move op mb (some ds)) s = .next t ∧ t.inst op mb = some (.computed cOK) ∧ Keeps [.stp] s t)
    ∧ (p.peerOut op = false → ds.map List.length = (movePieces (p.param op) x o).map (·.len) → x.side = o.side →
      (∀ a ∈ o.accs true, Accessible s a.1 a.2.1 a.2.2) →
      ∃ t, exec (.move op mb (some ds)) s = .next t ∧ t.inst op mb = some (.computed cOK)
        ∧ SameBytes (optBytes s [some o]) s t ∧ Keeps [.out, .mem, .rgn, .coh, .stp] s t))
  ∧ ∀ (s u : State) (st : Step) (p : Plan) (op mb : Nat) (x : TD), s.Inv → s.enter 0x61 op mb = some (u, st, p) →
    p.inTd op 0 mb = some x → (∀ a ∈ x.accs false, Accessible s a.1 a.2.1 a.2.2) →
    ∃ t, exec (.prefetch op mb) s = .next t ∧ t.inst op mb = some (.computed cOK) ∧ SameBytes (fun _ => False) s t
      ∧ t.mem = s.mem ∧ Keeps [.rgn, .coh, .stp, .obs] s t

/-- MATMUL and CONV issue on free task contexts. A pass whose operands are resident adds the next chunk, or, on an
overflow, sends the segment to the next retry level; a combination adds the finished segments in order, or sends all
of them to the next level; the output stage takes a finished block and forms its tile's record (R92, R100, R102, R105,
R110 to R123, R129, R142). -/
def Obligations.ProductsRun : Prop :=
  (∀ (s u : State) (st : Step) (p : Plan) (op mb code : Nat) (places : List Place) (cmd : Instr),
    s.enter code op mb = some (u, st, p) →
    (cmd = .matmul op mb places ∧ code = 1 ∨ cmd = .conv op mb places ∧ code = 0x10) →
    (∀ a ∈ places, s.groveStopped a.grove = false ∧ ∀ x ∈ s.eng.tasks, ¬ (x.grove = a.grove.val ∧ x.task = a.task.val)) →
    ∃ t, exec cmd s = .next t ∧ t.inst op mb = some .issued ∧ (∀ a ∈ places, (t.eng.taskAt a op mb).isSome = true)
      ∧ Keeps [.fresh, .aon, .stp, .eng, .obs] s t)
  ∧ (∀ (s : State) (st : Step) (p : Plan) (op mb block seg : Nat) (pl : Place) (k : Task) (q : Prod) (b : Blk) (x : Run)
    (i : PassIn) (e : Eng) (over_ : Bool), s.atWork op mb = some (st, p) → s.eng.taskAt pl op mb = some k → k.waiting = false →
    s.groveStopped pl.grove = false → p.prod op mb = some q → s.hasTurn pl = true →
    s.nextPass q pl block seg = some (b, x, i) →
    s.eng.makeRoom pl (if (s.eng.run op mb block seg).isSome then 0 else 65536) = some e →
    over_ = (if q.int then (passSums q b x.level i).2.2
      else b.overflowed (State.runTaint { s with eng := e } q b pl [x.reads i]) (passSums q b x.level i).2.1) →
    ∃ t, exec (.pass op mb block seg pl) s = .next t ∧ Keeps [.eng, .obs] s t
      ∧ (over_ = false → t.eng.run op mb block seg = some { x.reads i with
          sums := (passSums q b x.level i).2.1, finished := decide ((q.segment seg).2 ≤ x.chunk + 1) })
      ∧ (over_ = true → t.eng.run op mb block seg = some { x.reads i with
          level := x.level + 1, chunk := 0, sums := [], finished := decide (2 < x.level + 1)
          failed := decide (2 < x.level + 1) }))
  ∧ (∀ (s : State) (st : Step) (p : Plan) (op mb block top : Nat) (q : Prod) (b : Blk) (x : Run) (rs : List Run)
    (segs : List (List Nat)) (over_ : Bool), s.atWork op mb = some (st, p) → p.prod op mb = some q → q.blocks[block]? = some b →
    s.eng.finishedRuns q block = some (x :: rs) → 1 < q.segs → s.groveStopped x.place.grove = false →
    (∀ r ∈ x :: rs, r.failed = false ∧ r.level = top) →
    segs = (List.range q.segs).map (fun j => (((x :: rs).find? (·.seg == j)).map (·.sums)).getD
      (List.replicate (b.rn * b.cn) 0)) →
    over_ = (if q.int then (combineSums q.int segs (b.rn * b.cn)).2
      else b.overflowed (flagged (x :: rs) b.cn) (combineSums q.int segs (b.rn * b.cn)).1) →
    ∃ t, exec (.segmentCombine op mb block) s = .next t ∧ Keeps [.eng, .obs] s t
      ∧ (over_ = false → t.eng.blocks = s.eng.blocks
          ++ [⟨op, mb, block, x.place, top, (combineSums q.int segs (b.rn * b.cn)).1, false, false, [], []⟩])
      ∧ (over_ = true → top < 2 → ∀ r ∈ x :: rs, t.eng.run op mb block r.seg = some { r with
          level := top + 1, chunk := 0, sums := [], finished := false, failed := false })
      ∧ (over_ = true → top = 2 → t.eng.blocks = s.eng.blocks ++ [⟨op, mb, block, x.place, 3, [], true, false, [], []⟩]))
  ∧ ∀ (s s1 : State) (st : Step) (p : Plan) (op mb block : Nat) (q : Prod) (b : Blk) (y : Block) (cols : Option Loaded),
    s.atWork op mb = some (st, p) → p.prod op mb = some q → q.blocks[block]? = some b →
    s.drainable q block = some (s1, y) → s.groveStopped y.place.grove = false →
    s1.eng.columns y.place q b = some cols → ((s1.drainBlock p q b y cols).eng.makeRoom y.place 0).isSome = true →
    ∃ t, exec (.outputStageDrain op mb block) s = .next t ∧ SameBytes (fun _ => False) s t ∧ Keeps [.stp, .eng, .obs] s t
      ∧ (∃ z ∈ t.eng.blocks, z.op = y.op ∧ z.mb = y.mb ∧ z.block = y.block ∧ z.drained = true)
      ∧ (q.blocks.zipIdx.filter (fun z => b.mate z.1) = [(b, block)] → ∀ z : Block,
          z = { y with drained := true, out0 := (q.drain cols b y.level y.failed y.sums).1, out1 := (q.drain cols b y.level y.failed y.sums).2 } →
          ∃ x ∈ t.eng.scratch, x.result = true ∧ x.op = op ∧ x.mb = mb
            ∧ x.va = (q.d.recordAt (q.d.tileIndex ([b.c0 / 128, b.r0 / 128] ++ b.rest))).1
            ∧ x.cells = q.d.toCells (q.d.encodeTile ([b.c0 / 128, b.r0 / 128] ++ b.rest) (blocksAt [(b, z)] false)).1
            ∧ x.side = (q.d.encodeTile ([b.c0 / 128, b.r0 / 128] ++ b.rest) (blocksAt [(b, z)] false)).2.1)

/-! ### The tile mover and translation -/

/-- A load has put a record into a task's partition, in its cells. -/
def Delivered (s t : State) (p : Plan) (a : Place) (op mb stripe : Nat) (rs : List Rec) : Prop :=
  ∀ r ∈ rs, ∃ y ∈ t.eng.scratch, y.holds a op mb (p.stripeKey op mb stripe r) r.va false = true
    ∧ (rs = [r] → y.cells = r.td.toCells (s.readTile r.td (r.td.tileIndex r.tile)).1
        ∧ y.side = (s.readTile r.td (r.td.tileIndex r.tile)).2.1)

/-- A move of whole records is taken up with a walk for each leaf that the Grove's cache lacks; its end delivers a
load's records to the task's scratchpad in their cells, or writes a result's bytes and no other. A walk fills the
cache, or a DEMAND fault makes the task wait until the leaf is built. A prefetch delivers in the same way what comes
in its turn and finds room (R90, R94, R148, R184, R185, R201 to R203, R242 to R248). -/
def Obligations.TilesMove : Prop :=
  (∀ (s : State) (st : Step) (p : Plan) (pl : Place) (op mb stripe : Nat) (store : Bool) (ps : List Piece) (k : Task)
    (m : TileMove) (rs : List Rec), m = ⟨pl, op, mb, store, stripe, ps, 0, false⟩ → s.atWork op mb = some (st, p) →
    s.eng.taskAt pl op mb = some k → k.waiting = false → s.groveStopped pl.grove = false → ps ≠ [] →
    p.moveRecs op mb store ps = some rs →
    (∀ r ∈ rs, (if store then (s.eng.resultAt pl op mb r).isSome else p.fetches op mb stripe r) = true) →
    ps.length ≤ 128 → m.pages.length ≤ 256 → (∀ y ∈ s.eng.moves, ¬ (y.place = pl ∧ y.pieces = ps ∧ y.store = store)) →
    s.deniedPage m = none →
    ∃ t n, exec (.tileMove pl op mb store ⟨stripe, ps⟩) s = .next t ∧ t.eng.moves = s.eng.moves ++ [{ m with count := n }]
      ∧ (∀ va ∈ m.pages, (s.rgn.cached pl.grove va).isSome = true
          ∨ ∃ x ∈ t.rgn.walks, x.cache = pl.grove.val ∧ s.leafOf x.va = s.leafOf va)
      ∧ Keeps [.rgn, .eng, .obs] s t)
  ∧ (∀ (s u : State) (st : Step) (p : Plan) (m : TileMove) (rs : List Rec) (lat xlat : Nat), s.Inv → s.obs.sampler = none →
    s.eng.moves.find? (fun y => y.place == m.place && !s.moveWaits y) = some m → s.atWork m.op m.mb = some (st, p) →
    s.groveStopped m.place.grove = false → (∀ x ∈ m.pieces, Accessible s x.va x.len m.store) →
    p.moveRecs m.op m.mb m.store m.pieces = some rs → s.moveRoom m rs = some u →
    ∃ t, exec (.tileMoveComplete m.place [] lat xlat) s = .next t ∧ m ∉ t.eng.moves
      ∧ Keeps [.out, .mem, .rgn, .coh, .stp, .eng] s t
      ∧ (m.store = false → SameBytes (fun _ => False) s t ∧ Delivered s t p m.place m.op m.mb m.stripe rs)
      ∧ (m.store = true → SameBytes (fun a => ∃ x ∈ m.pieces, s.storesTo x.va x.len a) s t
          ∧ ∀ r y, rs = [r] → r.td.side = 0 → s.eng.resultAt m.place m.op m.mb r = some y →
            (r.td.fromCells y.cells).length = r.td.elems → r.va / pageBytes = (r.va + r.td.elems - 1) / pageBytes →
            t.peekVa r.va r.td.elems = r.td.fromCells y.cells))
  ∧ (∀ (s : State) (cache va : Nat) (store : Bool) (x : Miss), x = ⟨cache, va / pageBytes * pageBytes, store⟩ →
    s.powered = true → x ∈ s.rgn.walking (cacheHalf cache) →
    (∀ l e, s.rgn.walk s.mem.poison x.va false = .leaf l e → bit e 2 = true ∨ (∀ m ∈ s.eng.moves, m.store = false) →
      ∃ t, exec (.walkComplete cache va store) s = .next t
      ∧ x ∉ t.rgn.walks ∧ (t.rgn.cached cache x.va).isSome = true ∧ Keeps [.rgn] s t
      ∧ t.rgn = { s.rgn with walks := t.rgn.walks, tcache := t.rgn.tcache })
    ∧ ∀ m : TileMove, s.rgn.walk s.mem.poison x.va false = .fault 1 → s.obs.sampler = none →
      s.eng.moves.filter (fun m => s.missOf x m && !m.demand) = [m] →
      ∃ t, exec (.walkComplete cache va store) s = .next t ∧ x ∉ t.rgn.walks
        ∧ (⟨m.place.grove, x.va, m.store⟩ : Miss) ∈ t.rgn.demands ∧ { m with demand := true } ∈ t.eng.moves
        ∧ (∀ k ∈ t.eng.tasks, k.grove = m.place.grove.val → k.task = m.place.task.val → k.waiting = true)
        ∧ Keeps [.fresh, .rgn, .eng, .obs] s t)
  ∧ (∀ (s : State) (va : Nat) (x : Miss) (g : Rgn), s.powered = true →
    s.rgn.demands.find? (fun y => y.onPage va) = some x → s.xlate va false = .error 1 → s.rgn.resolve va = some g →
    s.eng.moves = [] →
    ∃ t, exec (.demandFaultResolve va) s = .next t ∧ t.rgn.tbl = g.tbl ∧ t.rgn.regions = s.rgn.regions
      ∧ (∀ y ∈ t.rgn.demands, y ∈ s.rgn.demands ∧ t.xlate y.va false = .error 1)
      ∧ t.mem = { s.mem with poison := t.mem.poison } ∧ Keeps [.mem, .rgn, .dma, .obs] s t)
  ∧ ∀ (s : State) (st : Step) (p : Plan) (pl : Place) (op mb stripe : Nat) (ps : List Piece) (k : Task) (rs : List Rec), s.Inv →
    s.stepPlan = some (st, p) → s.powered = true → st.st = .running → st.stopped = false →
    s.eng.tasks.find? (fun t => t.grove == pl.grove.val && t.task == pl.task.val) = some k →
    s.groveStopped pl.grove = false → ps ≠ [] → p.moveRecs op mb false ps = some rs →
    (∀ r ∈ rs, p.fetches op mb stripe r = true) → (∀ x ∈ ps, p.writersBefore st op mb x = true) →
    s.prefetchDue p k pl op mb stripe rs = true → s.eng.freeFor pl rs = true →
    (∀ x ∈ ps, Accessible s x.va x.len false) →
    ∃ t, exec (.prefetchFetch pl op mb ⟨stripe, ps⟩) s = .next t ∧ SameBytes (fun _ => False) s t
      ∧ Keeps [.mem, .rgn, .coh, .eng] s t ∧ Delivered s t p pl op mb stripe rs

/-! ### The life of a step -/

/-- The device is not the first of its Z line and holds no verdict message, so that a vote waits for its predecessor. -/
def voteWaits (s : State) : Prop :=
  s.stp.waitVerdict = [] ∧ ∃ me, s.fab.addr = some me ∧ chainFirst (s.fab.line me .z) me = false

/-- The active step has voted `v` in its round. -/
def hasVoted (t : State) (st : Step) (v : Verdict) : Prop :=
  t.stp.vote = some ⟨v, st.attempt⟩ ∧ v.ring = st.ring ∧ v.round = st.round ∧ t.mem.wc = []
    ∧ ∃ st' w, t.stp.active = some st' ∧ st'.st = .voted ∧ st'.tag = st.tag ∧ st'.vround = some ⟨st.round, .z, v, w, false⟩

/-- The queued step starts in READY once no step is active and no recovery is owed, with formats, modes and stamp of
its ring and the plan's bandwidth settings. A computed instance completes after its fence; the last of a verdict-free
step ends it; one that fails holds the step with its code, a hold vote and a hold notice. The vote carries what the
device holds; the time-out after it raises STEP_HELD attention. ARRIVAL_UPDATE opens the pending slot, and a segment
that has arrived is updated there, the last one with the seal (R213, R219, R299, R303, R326 to R328, R332, R336, R343,
R348 to R350, R634). -/
def Obligations.StepsRun : Prop :=
  (∀ (s : State) (q : Step) (p : Plan), s.powered = true → s.dev.mode = .ready → s.stp.active = none →
    s.stp.resume = none → s.dev.haltSteps = false → s.stp.queued = some q → s.pln.get q.plan = some p → s.gld.preps = [] →
    s.stp.notices = [] → s.fab.earlyMsgs = [] → s.fab.peerReads = [] → q.verdictFree = false ∨ p.instances ≠ [] →
    s.stp.doneCode q.tag = none →
    ∃ t st, exec .stepStart s = .next t ∧ t.stp.active = some st ∧ t.stp.queued = none ∧ st.tag = q.tag ∧ st.ring = q.ring
      ∧ st.attempt = q.attempt ∧ st.lsExp = q.lsExp ∧ st.st = .running ∧ st.stamp = p.stampAt q.ring
      ∧ st.tick = s.aon.tick.toNat
      ∧ ((∃ w ∈ s.stp.words, w.tag = q.tag) → t.stp.words.find? (·.tag == q.tag) = some ⟨q.tag, .running⟩)
      ∧ t.pln.plans = (if q.verdictFree then s.pln.plans else s.pln.plans.map (·.atRing q.ring))
      ∧ t.mem = { s.mem with bwFloor := (List.range 16).map (fun k => p.setting (0x40 + 4 * k) 1), bwCeil := (List.range 16).map (fun k => p.setting (0x41 + 4 * k) 1) }
      ∧ Keeps [.mem, .pln, .stp, .gld] s t)
  ∧ (∀ (s : State) (st : Step) (p : Plan) (op mb c : Nat), s.stepPlan = some (st, p) →
    s.inst op mb = some (.computed c) → st.stopped = false → s.powered = true → s.fab.peerReads = [] →
    (c = cOK → ¬ (st.verdictFree = true ∧ ∀ i ∈ p.instances, i = (op, mb) ∨ st.finished i = true) →
      ∃ t, exec (.instanceComplete op mb) s = .next t ∧ t.inst op mb = some (.done cOK) ∧ t.mem = { s.mem with wc := [] }
        ∧ (∀ k ∈ t.eng.tasks, ¬ (k.op = op ∧ k.mb = mb)) ∧ Keeps [.mem, .stp, .eng, .obs] s t)
    ∧ (c = cOK → st.verdictFree = true → (∀ i ∈ p.instances, i = (op, mb) ∨ st.finished i = true) → st.plan ≠ 0 →
      s.stp.doneCode st.tag = none →
      ∃ t, exec (.instanceComplete op mb) s = .next t ∧ t.stp.active = none
        ∧ ((∃ w ∈ s.stp.words, w.tag = st.tag) → t.stp.words.find? (·.tag == st.tag) = some ⟨st.tag, .done cOK⟩)
        ∧ t.att = s.att.raise s.aon.tick aSTEP_DONE cOK st.tag st.ring st.attempt)
    ∧ (c ≠ cOK → (c = cRANGE → st.rangeWaits p op = false) → st.verdictFree = false → st.st = .running → voteWaits s →
      ∃ t v, exec (.instanceComplete op mb) s = .next t ∧ hasVoted t st v ∧ v.hold = 1
        ∧ v.holdCode = (if st.holdCode = 0 then c else st.holdCode)
        ∧ t.out = s.out ++ s.fab.upBundles.map (fun b => .holdNotice b st.ring st.attempt st.round)
        ∧ Keeps [.out, .mem, .stp, .eng, .fab, .trn, .obs] s t))
  ∧ (∀ (s u : State) (st : Step) (p : Plan) (op : Nat), s.enter 0x32 op 0 = some (u, st, p) →
    exec (.verdict op) s = .next u ∧ u.inst op 0 = some .issued ∧ Keeps [.stp, .obs] s u)
  ∧ (∀ (s : State) (st : Step) (p : Plan) (tw : List (Nat × BitVec 64)) (i : Nat) (r : List Nat),
    s.stepPlan = some (st, p) → s.powered = true → st.st = .running → st.stopped = false → st.verdictFree = false →
    voteWaits s → s.stp.notices = [] → s.fab.chains = [] → s.slotsWait = none → s.trn.fetches = [] →
    (st.round = 0 → p.opsOf 0x32 = i :: r → (p.preds i 0).all st.finished = true →
      (∀ d ∈ s.held, d.twinEn = true → tw.any (·.1 == d.shard) = true) →
      ∃ t v, exec (.voteRecordWrite tw) s = .next t ∧ hasVoted t st v ∧ v.hold = 0 ∧ v.devices = 1
        ∧ v.unsealed = (s.held.filter fun d => (s.sealOf st d).isNone).length ∧ v.twinMiss = (s.twinMisses st tw).length
        ∧ v.diverged = 0 ∧ Keeps [.mem, .stp, .obs] s t)
    ∧ (st.round ≠ 0 → st.disputes.all (·.2 == 1) = true → s.trn.referees = [] →
      ∃ t v, exec (.voteRecordWrite tw) s = .next t ∧ hasVoted t st v ∧ v.hold = 0 ∧ v.twinMiss = st.disputes.length
        ∧ Keeps [.mem, .stp, .obs] s t))
  ∧ (∀ (s : State) (st : Step), s.powered = true → s.stp.active = some st → st.st = .voted →
    ∃ t, exec .verdictTimeout s = .next t ∧ t.att = s.att.raise s.aon.tick aSTEP_HELD 0 st.tag st.ring st.attempt
      ∧ Keeps [.att, .obs] s t)
  ∧ (∀ (s u : State) (st : Step) (p : Plan) (op au : Nat) (pl : Place) (d : ShardDef) (w : Update) (r : Region) (o : Nat),
    s.Inv → s.slotsWait = none → s.enter 0x40 op 0 = some (u, st, p) → s.trn.shard (fld (p.param op) 0 4) = some d →
    p.auOf d.shard = some au → w = (s.trn.update d.shard).getD ⟨d.shard, st.ring, false, [], [], [], [], false⟩ →
    w.header = false → w.sealed = false → (∀ j ∈ w.arrived, j < d.segs) → d.shard ∉ s.trn.lost →
    d.shard ∉ s.trn.repairing → s.slotIntact d (s.trn.committed d) (s.trn.selOf d.shard).ring = true →
    s.slotAt d (s.trn.pending d) = some (r, o) → r.kind = 0 →
    ∃ t, exec (.arrivalUpdate op pl) s = .next t ∧ t.inst op 0 = some .issued
      ∧ t.trn.update d.shard = some { w with header := true }
      ∧ t.slotRead d (s.trn.pending d) 0 64 = (s.pendingHeader d st (p.au au)).bytes
      ∧ SameBytes (fun a => r.key o ≤ a ∧ a < r.key o + d.gredOff) s t
      ∧ Keeps [.out, .fresh, .aon, .mem, .rgn, .coh, .stp, .trn, .eng, .obs] s t)
  ∧ ∀ (s : State) (st : Step) (p : Plan) (d : ShardDef) (u : Update) (op seg : Nat) (c : AuConst) (r : Region) (o : Nat),
    s.Inv → s.slotsWait = none → s.trn.shard d.shard = some d → s.trn.update d.shard = some u → s.stepPlan = some (st, p) →
    p.auOf d.shard = some op → s.powered = true → st.stopped = false → st.st = .running → st.round = 0 → u.header = true →
    seg ∈ u.arrived → seg ∉ u.updated → seg < d.segs → s.segPoison d seg = none →
    s.slotAt d (s.trn.pending d) = some (r, o) → r.kind = 0 →
    c = auConst (p.au op) (fld (s.slotRead d (s.trn.committed d) 0 64) 0x18 4)
      (fld (s.slotRead d (s.trn.committed d) 0 64) 0x1C 4) st.lsExp →
    ∃ t u', exec (.segmentUpdateDone d.shard seg) s = .next t ∧ t.trn.update d.shard = some u'
      ∧ u'.updated = u.updated ++ [seg]
      ∧ t.wSeg d (s.trn.pending d) seg = (auSeg (p.au op) c none
          (wordsOf 2 (d.segCount seg) (s.gredSeg d (s.trn.pending d) seg))
          (wordsOf 4 (d.segCount seg) (s.momSeg d (s.trn.committed d) seg).1)
          (wordsOf 4 (d.segCount seg) (s.momSeg d (s.trn.committed d) seg).2)
          (wordsOf 4 (d.segCount seg) (s.wSeg d (s.trn.committed d) seg))).flatMap (fun e => leBytes 4 e.2.2.2)
      ∧ (d.segs ≤ u.updated.length + 1 → u'.sealed = true
          ∧ ∃ x, t.slotSeal d (s.trn.pending d) = some x ∧ x.round = 0 ∧ x.ring = st.ring % 2 ^ 64)
      ∧ SameBytes (fun a => r.key o ≤ a ∧ a < r.key o + d.slotBytes) s t
      ∧ Keeps [.out, .mem, .rgn, .coh, .stp, .trn] s t

/-! ### The verdict -/

/-- A message of the verdict's context makes a verdict whole: one of round 1, or the last part of a watch list. -/
def Completes (s : State) (x : VerdictPart) (m : VerdictMsg) : Prop :=
  (m.v.round ≠ 0 ∧ m.watch = [] ∧ x = .verdict m.axis m.bcast m.src m.v)
  ∨ ∃ y es, s.stp.partVerdicts = [y] ∧ m = { y with watch := y.watch ++ es } ∧ x = .watch m.axis m.bcast m.src es true

/-- A verdict of round 0 waits for its watch list; a whole one that cannot be combined yet waits, and one of an
earlier ring or round raises FAULT attention; a predecessor's is combined with the device's contribution and sent on;
the broadcast of the last axis decides: COMMIT advances every shard held here to the step's ring and the other slot, a
hold or a skip leaves the training state as it was, a clip or a referee round begins. Hold notices are kept, flooded
and release the step they name; a neighbour is told the last verdicts (R312, R336 to R344, R355, R419, R634). -/
def Obligations.VerdictsPass : Prop :=
  (∀ s : State, s.powered = true → s.stp.active = none → s.slotsWait = none → s.trn.fetches = [] →
    (∀ axis bcast src v, (v.ring ≤ s.deviceRing → ∃ t, exec (.verdictMessage (.verdict axis bcast src v)) s = .next t
        ∧ t.att = s.att.raise s.aon.tick aFAULT cINTERNAL noTag (unitField uFloor 0 0) 0 ∧ Keeps [.att, .obs] s t)
      ∧ (s.deviceRing < v.ring → v.round = 0 → ∃ t, exec (.verdictMessage (.verdict axis bcast src v)) s = .next t
        ∧ t.stp = { s.stp with partVerdicts := s.stp.partVerdicts ++ [⟨axis, bcast, src, v, []⟩] } ∧ Keeps [.stp] s t))
    ∧ (∀ y es, s.stp.partVerdicts = [y] → ∃ t, exec (.verdictMessage (.watch y.axis y.bcast y.src es false)) s = .next t
        ∧ t.stp = { s.stp with partVerdicts := [{ y with watch := y.watch ++ es }] } ∧ Keeps [.stp] s t)
    ∧ ∀ x m, Completes s x m → s.deviceRing < m.v.ring → ∃ t, exec (.verdictMessage x) s = .next t
        ∧ t.stp = { s.stp with partVerdicts := t.stp.partVerdicts, waitVerdict := s.stp.waitVerdict ++ [m] } ∧ Keeps [.stp] s t)
  ∧ (∀ (s : State) (x : VerdictPart) (m : VerdictMsg) (st : Step) (r : VRound) (me nx : Nat), Completes s x m →
    s.slotsWait = none → s.trn.fetches = [] → s.powered = true → s.stp.active = some st →
    st.st = .voted → st.vround = some r → r.sent = false → r.round = st.round → s.fab.addr = some me →
    chainFirst (s.fab.line me r.axis) me = false → chainNext (s.fab.line me r.axis) me = some nx →
    s.stp.waitVerdict = [] → m.axis = r.axis → m.bcast = false → m.v.ring = st.ring → m.v.round = r.round →
    ∃ t, exec (.verdictMessage x) s = .next t ∧ t.stp.waitVerdict = []
      ∧ t.out = s.out ++ verdictMsgs nx r.axis false (m.v.combine r.v) (mergeWatch m.watch r.watch) ∧ Keeps [.out, .stp] s t)
  ∧ (∀ (s : State) (x : VerdictPart) (m : VerdictMsg) (st : Step) (r : VRound) (me : Nat), Completes s x m →
    s.slotsWait = none → s.trn.fetches = [] → s.powered = true → s.stp.active = some st →
    st.st = .voted → st.vround = some r → r.sent = true → r.axis = .x → r.round = st.round → s.fab.addr = some me →
    s.stp.waitVerdict = [] → m.axis = .x → m.bcast = true → m.v.ring = st.ring → m.v.round = r.round →
    st.verdictFree = false → s.stp.notices = [] → s.stp.doneCode st.tag = none →
    (m.v.rule = .commit → ∃ t, exec (.verdictMessage x) s = .next t ∧ t.stp.active = none
      ∧ t.trn.ring = st.ring ∧ t.trn.commit = some (st.ring, m.v.round)
      ∧ t.trn.resSel = ⟨st.ring, st.lsExp, true, 1 - s.trn.resSel.slot⟩
      ∧ (∀ d ∈ s.held, t.trn.selOf d.shard = ⟨st.ring, (s.trn.selOf d.shard).valid, 1 - (s.trn.selOf d.shard).slot⟩)
      ∧ t.att = s.att.raise s.aon.tick aSTEP_DONE cOK st.tag st.ring st.attempt ∧ t.mem = { s.mem with wc := [] }
      ∧ Keeps [.out, .mem, .stp, .trn, .pln, .gld, .eng, .fab, .att, .obs] s t)
    ∧ (∀ row code, m.v.rule = .hold row code → ∃ t, exec (.verdictMessage x) s = .next t ∧ t.stp.active = none
      ∧ t.trn = { s.trn with updates := [], referees := [] }
      ∧ t.att = s.att.raise s.aon.tick aSTEP_HELD code st.tag st.ring st.attempt
      ∧ Keeps [.out, .stp, .trn, .pln, .gld, .eng, .fab, .att, .obs] s t)
    ∧ (m.v.rule = .skip → ∃ t, exec (.verdictMessage x) s = .next t ∧ t.stp.active = none
      ∧ t.trn = { s.trn with updates := [], referees := [] }
      ∧ t.att = s.att.raise s.aon.tick aSTEP_DONE cNONFINITE st.tag st.ring st.attempt
      ∧ Keeps [.out, .stp, .trn, .pln, .gld, .eng, .fab, .att, .obs] s t)
    ∧ ∀ clip : Bool, m.v.rule = .clip ∧ clip = true ∨ m.v.rule = .referee clip → st.holdCode = 0 →
      (clip = true → ∀ d ∈ s.held, s.redoPoison d (s.trn.committed d) (s.trn.pending d) = none) →
      ∃ t st', exec (.verdictMessage x) s = .next t ∧ t.stp.active = some st' ∧ st'.round = 1 ∧ st'.st = .running
        ∧ st'.k = (if clip then some (fdiv m.v.clip m.v.norm) else none) ∧ st'.last = some m.v ∧ st'.vround = none
        ∧ t.trn.sel = s.trn.sel ∧ t.att = s.att)
  ∧ (∀ (s : State) (ring attempt round bundle : Nat), s.powered = true →
    ((⟨ring, attempt, round⟩ : Notice) ∈ s.stp.notices ∨ ring ≤ s.deviceRing →
      exec (.holdNotice ring attempt round bundle) s = .next s)
    ∧ ((⟨ring, attempt, round⟩ : Notice) ∉ s.stp.notices → s.deviceRing < ring →
      (s.stp.active = none → ∃ t, exec (.holdNotice ring attempt round bundle) s = .next t
        ∧ t.stp.notices = s.stp.notices.filter (fun x => decide (s.deviceRing < x.ring)) ++ [⟨ring, attempt, round⟩]
        ∧ t.out = s.out ++ (s.fab.upBundles.filter (· != bundle)).map (fun b => .holdNotice b ring attempt round)
        ∧ Keeps [.out, .stp] s t)
      ∧ ∀ st, s.stp.active = some st → st.st = .running → st.verdictFree = false → st.stopped = false → st.ring = ring →
        st.attempt = attempt → st.round = round → voteWaits s →
        ∃ t v, exec (.holdNotice ring attempt round bundle) s = .next t ∧ hasVoted t st v ∧ v.hold = 0
          ∧ Keeps [.out, .mem, .stp, .eng, .fab, .trn, .obs] s t))
  ∧ ∀ (s : State) (src : Nat), s.powered = true → s.slotsWait = none →
    (∀ me, s.fab.addr = some me → ∃ t, exec (.verdictHistoryRequest (.request src)) s = .next t
      ∧ t.out = s.out ++ [.history src (.answer me (s.stp.verdicts.map (·.1)))] ∧ Keeps [.out] s t)
    ∧ ∀ (vs : List Verdict) (r : Resume), s.stp.resume = some r →
      (∃ a ∈ r.awaiting, a ≠ src ∧ s.fab.unreachable a = false) →
      ∃ t, exec (.verdictHistoryRequest (.answer src vs)) s = .next t ∧ Keeps [.stp] s t
        ∧ t.stp = { s.stp with resume := some { r with awaiting := r.awaiting.filter (· != src), heard := r.heard ++ vs } }
end

