-- ==== Sys2Proof/Laws/State.lean ====
section
/-! SUPPORT. What each shared update of the state leaves in each part: one lemma per part and update, true by unfolding. -/

namespace Sys2Proof.Machine

/-! ### emit -/

@[simp] theorem State.emit_pending (s : State) (o : Output) : (s.emit o).pending = s.pending := rfl
@[simp] theorem State.emit_out (s : State) (o : Output) : (s.emit o).out = s.out ++ [o] := rfl
@[simp] theorem State.emit_fresh (s : State) (o : Output) : (s.emit o).fresh = s.fresh := rfl
@[simp] theorem State.emit_aon (s : State) (o : Output) : (s.emit o).aon = s.aon := rfl
@[simp] theorem State.emit_att (s : State) (o : Output) : (s.emit o).att = s.att := rfl
@[simp] theorem State.emit_dev (s : State) (o : Output) : (s.emit o).dev = s.dev := rfl
@[simp] theorem State.emit_mbx (s : State) (o : Output) : (s.emit o).mbx = s.mbx := rfl
@[simp] theorem State.emit_mem (s : State) (o : Output) : (s.emit o).mem = s.mem := rfl
@[simp] theorem State.emit_rgn (s : State) (o : Output) : (s.emit o).rgn = s.rgn := rfl
@[simp] theorem State.emit_coh (s : State) (o : Output) : (s.emit o).coh = s.coh := rfl
@[simp] theorem State.emit_pln (s : State) (o : Output) : (s.emit o).pln = s.pln := rfl
@[simp] theorem State.emit_stp (s : State) (o : Output) : (s.emit o).stp = s.stp := rfl
@[simp] theorem State.emit_trn (s : State) (o : Output) : (s.emit o).trn = s.trn := rfl
@[simp] theorem State.emit_eng (s : State) (o : Output) : (s.emit o).eng = s.eng := rfl
@[simp] theorem State.emit_fab (s : State) (o : Output) : (s.emit o).fab = s.fab := rfl
@[simp] theorem State.emit_gld (s : State) (o : Output) : (s.emit o).gld = s.gld := rfl
@[simp] theorem State.emit_dma (s : State) (o : Output) : (s.emit o).dma = s.dma := rfl
@[simp] theorem State.emit_hst (s : State) (o : Output) : (s.emit o).hst = s.hst := rfl
@[simp] theorem State.emit_cor (s : State) (o : Output) : (s.emit o).cor = s.cor := rfl
@[simp] theorem State.emit_obs (s : State) (o : Output) : (s.emit o).obs = s.obs := rfl

/-! ### emits -/

@[simp] theorem State.emits_pending (s : State) (os : List Output) : (s.emits os).pending = s.pending := rfl
@[simp] theorem State.emits_out (s : State) (os : List Output) : (s.emits os).out = s.out ++ os := rfl
@[simp] theorem State.emits_fresh (s : State) (os : List Output) : (s.emits os).fresh = s.fresh := rfl
@[simp] theorem State.emits_aon (s : State) (os : List Output) : (s.emits os).aon = s.aon := rfl
@[simp] theorem State.emits_att (s : State) (os : List Output) : (s.emits os).att = s.att := rfl
@[simp] theorem State.emits_dev (s : State) (os : List Output) : (s.emits os).dev = s.dev := rfl
@[simp] theorem State.emits_mbx (s : State) (os : List Output) : (s.emits os).mbx = s.mbx := rfl
@[simp] theorem State.emits_mem (s : State) (os : List Output) : (s.emits os).mem = s.mem := rfl
@[simp] theorem State.emits_rgn (s : State) (os : List Output) : (s.emits os).rgn = s.rgn := rfl
@[simp] theorem State.emits_coh (s : State) (os : List Output) : (s.emits os).coh = s.coh := rfl
@[simp] theorem State.emits_pln (s : State) (os : List Output) : (s.emits os).pln = s.pln := rfl
@[simp] theorem State.emits_stp (s : State) (os : List Output) : (s.emits os).stp = s.stp := rfl
@[simp] theorem State.emits_trn (s : State) (os : List Output) : (s.emits os).trn = s.trn := rfl
@[simp] theorem State.emits_eng (s : State) (os : List Output) : (s.emits os).eng = s.eng := rfl
@[simp] theorem State.emits_fab (s : State) (os : List Output) : (s.emits os).fab = s.fab := rfl
@[simp] theorem State.emits_gld (s : State) (os : List Output) : (s.emits os).gld = s.gld := rfl
@[simp] theorem State.emits_dma (s : State) (os : List Output) : (s.emits os).dma = s.dma := rfl
@[simp] theorem State.emits_hst (s : State) (os : List Output) : (s.emits os).hst = s.hst := rfl
@[simp] theorem State.emits_cor (s : State) (os : List Output) : (s.emits os).cor = s.cor := rfl
@[simp] theorem State.emits_obs (s : State) (os : List Output) : (s.emits os).obs = s.obs := rfl

/-! ### raise -/

@[simp] theorem State.raise_pending (s : State) (c k t a b : Nat) : (s.raise c k t a b).pending = s.pending := rfl
@[simp] theorem State.raise_out (s : State) (c k t a b : Nat) : (s.raise c k t a b).out = s.out := rfl
@[simp] theorem State.raise_fresh (s : State) (c k t a b : Nat) : (s.raise c k t a b).fresh = s.fresh := rfl
@[simp] theorem State.raise_aon (s : State) (c k t a b : Nat) : (s.raise c k t a b).aon = s.aon := rfl
@[simp] theorem State.raise_att (s : State) (c k t a b : Nat) : (s.raise c k t a b).att = s.att.raise s.aon.tick c k t a b := rfl
@[simp] theorem State.raise_dev (s : State) (c k t a b : Nat) : (s.raise c k t a b).dev = s.dev := rfl
@[simp] theorem State.raise_mbx (s : State) (c k t a b : Nat) : (s.raise c k t a b).mbx = s.mbx := rfl
@[simp] theorem State.raise_mem (s : State) (c k t a b : Nat) : (s.raise c k t a b).mem = s.mem := rfl
@[simp] theorem State.raise_rgn (s : State) (c k t a b : Nat) : (s.raise c k t a b).rgn = s.rgn := rfl
@[simp] theorem State.raise_coh (s : State) (c k t a b : Nat) : (s.raise c k t a b).coh = s.coh := rfl
@[simp] theorem State.raise_pln (s : State) (c k t a b : Nat) : (s.raise c k t a b).pln = s.pln := rfl
@[simp] theorem State.raise_stp (s : State) (c k t a b : Nat) : (s.raise c k t a b).stp = s.stp := rfl
@[simp] theorem State.raise_trn (s : State) (c k t a b : Nat) : (s.raise c k t a b).trn = s.trn := rfl
@[simp] theorem State.raise_eng (s : State) (c k t a b : Nat) : (s.raise c k t a b).eng = s.eng := rfl
@[simp] theorem State.raise_fab (s : State) (c k t a b : Nat) : (s.raise c k t a b).fab = s.fab := rfl
@[simp] theorem State.raise_gld (s : State) (c k t a b : Nat) : (s.raise c k t a b).gld = s.gld := rfl
@[simp] theorem State.raise_dma (s : State) (c k t a b : Nat) : (s.raise c k t a b).dma = s.dma := rfl
@[simp] theorem State.raise_hst (s : State) (c k t a b : Nat) : (s.raise c k t a b).hst = s.hst := rfl
@[simp] theorem State.raise_cor (s : State) (c k t a b : Nat) : (s.raise c k t a b).cor = s.cor := rfl

/-! ### count -/

@[simp] theorem State.count_pending (s : State) (e u n : Nat) : (s.count e u n).pending = s.pending := rfl
@[simp] theorem State.count_out (s : State) (e u n : Nat) : (s.count e u n).out = s.out := rfl
@[simp] theorem State.count_fresh (s : State) (e u n : Nat) : (s.count e u n).fresh = s.fresh := rfl
@[simp] theorem State.count_aon (s : State) (e u n : Nat) : (s.count e u n).aon = s.aon := rfl
@[simp] theorem State.count_att (s : State) (e u n : Nat) : (s.count e u n).att = s.att := rfl
@[simp] theorem State.count_dev (s : State) (e u n : Nat) : (s.count e u n).dev = s.dev := rfl
@[simp] theorem State.count_mbx (s : State) (e u n : Nat) : (s.count e u n).mbx = s.mbx := rfl
@[simp] theorem State.count_mem (s : State) (e u n : Nat) : (s.count e u n).mem = s.mem := rfl
@[simp] theorem State.count_rgn (s : State) (e u n : Nat) : (s.count e u n).rgn = s.rgn := rfl
@[simp] theorem State.count_coh (s : State) (e u n : Nat) : (s.count e u n).coh = s.coh := rfl
@[simp] theorem State.count_pln (s : State) (e u n : Nat) : (s.count e u n).pln = s.pln := rfl
@[simp] theorem State.count_stp (s : State) (e u n : Nat) : (s.count e u n).stp = s.stp := rfl
@[simp] theorem State.count_trn (s : State) (e u n : Nat) : (s.count e u n).trn = s.trn := rfl
@[simp] theorem State.count_eng (s : State) (e u n : Nat) : (s.count e u n).eng = s.eng := rfl
@[simp] theorem State.count_fab (s : State) (e u n : Nat) : (s.count e u n).fab = s.fab := rfl
@[simp] theorem State.count_gld (s : State) (e u n : Nat) : (s.count e u n).gld = s.gld := rfl
@[simp] theorem State.count_dma (s : State) (e u n : Nat) : (s.count e u n).dma = s.dma := rfl
@[simp] theorem State.count_hst (s : State) (e u n : Nat) : (s.count e u n).hst = s.hst := rfl
@[simp] theorem State.count_cor (s : State) (e u n : Nat) : (s.count e u n).cor = s.cor := rfl
@[simp] theorem State.count_obs (s : State) (e u n : Nat) : (s.count e u n).obs = { s.obs with ctrs := countEvent s.obs.ctrs e u n } := rfl

/-! ### trace -/

@[simp] theorem State.trace_pending (s : State) (c : Nat) (w : Bool) (ty k u : Nat) (p : Bytes) : (s.trace c w ty k u p).pending = s.pending := rfl
@[simp] theorem State.trace_out (s : State) (c : Nat) (w : Bool) (ty k u : Nat) (p : Bytes) : (s.trace c w ty k u p).out = s.out := rfl
@[simp] theorem State.trace_fresh (s : State) (c : Nat) (w : Bool) (ty k u : Nat) (p : Bytes) : (s.trace c w ty k u p).fresh = s.fresh := rfl
@[simp] theorem State.trace_aon (s : State) (c : Nat) (w : Bool) (ty k u : Nat) (p : Bytes) : (s.trace c w ty k u p).aon = s.aon := rfl
@[simp] theorem State.trace_att (s : State) (c : Nat) (w : Bool) (ty k u : Nat) (p : Bytes) : (s.trace c w ty k u p).att = s.att := rfl
@[simp] theorem State.trace_dev (s : State) (c : Nat) (w : Bool) (ty k u : Nat) (p : Bytes) : (s.trace c w ty k u p).dev = s.dev := rfl
@[simp] theorem State.trace_mbx (s : State) (c : Nat) (w : Bool) (ty k u : Nat) (p : Bytes) : (s.trace c w ty k u p).mbx = s.mbx := rfl
@[simp] theorem State.trace_mem (s : State) (c : Nat) (w : Bool) (ty k u : Nat) (p : Bytes) : (s.trace c w ty k u p).mem = s.mem := rfl
@[simp] theorem State.trace_rgn (s : State) (c : Nat) (w : Bool) (ty k u : Nat) (p : Bytes) : (s.trace c w ty k u p).rgn = s.rgn := rfl
@[simp] theorem State.trace_coh (s : State) (c : Nat) (w : Bool) (ty k u : Nat) (p : Bytes) : (s.trace c w ty k u p).coh = s.coh := rfl
@[simp] theorem State.trace_pln (s : State) (c : Nat) (w : Bool) (ty k u : Nat) (p : Bytes) : (s.trace c w ty k u p).pln = s.pln := rfl
@[simp] theorem State.trace_stp (s : State) (c : Nat) (w : Bool) (ty k u : Nat) (p : Bytes) : (s.trace c w ty k u p).stp = s.stp := rfl
@[simp] theorem State.trace_trn (s : State) (c : Nat) (w : Bool) (ty k u : Nat) (p : Bytes) : (s.trace c w ty k u p).trn = s.trn := rfl
@[simp] theorem State.trace_eng (s : State) (c : Nat) (w : Bool) (ty k u : Nat) (p : Bytes) : (s.trace c w ty k u p).eng = s.eng := rfl
@[simp] theorem State.trace_fab (s : State) (c : Nat) (w : Bool) (ty k u : Nat) (p : Bytes) : (s.trace c w ty k u p).fab = s.fab := rfl
@[simp] theorem State.trace_gld (s : State) (c : Nat) (w : Bool) (ty k u : Nat) (p : Bytes) : (s.trace c w ty k u p).gld = s.gld := rfl
@[simp] theorem State.trace_dma (s : State) (c : Nat) (w : Bool) (ty k u : Nat) (p : Bytes) : (s.trace c w ty k u p).dma = s.dma := rfl
@[simp] theorem State.trace_hst (s : State) (c : Nat) (w : Bool) (ty k u : Nat) (p : Bytes) : (s.trace c w ty k u p).hst = s.hst := rfl
@[simp] theorem State.trace_cor (s : State) (c : Nat) (w : Bool) (ty k u : Nat) (p : Bytes) : (s.trace c w ty k u p).cor = s.cor := rfl
@[simp] theorem State.trace_obs (s : State) (c : Nat) (w : Bool) (ty k u : Nat) (p : Bytes) : (s.trace c w ty k u p).obs = s.obs.record c w ty k u s.aon.tick p := rfl

/-! ### freeBytes_snd -/

@[simp] theorem State.freeBytes_snd_pending (s : State) (n : Nat) : ((s.freeBytes n).2).pending = s.pending := rfl
@[simp] theorem State.freeBytes_snd_out (s : State) (n : Nat) : ((s.freeBytes n).2).out = s.out := rfl
@[simp] theorem State.freeBytes_snd_fresh (s : State) (n : Nat) : ((s.freeBytes n).2).fresh = s.fresh + 1 := rfl
@[simp] theorem State.freeBytes_snd_aon (s : State) (n : Nat) : ((s.freeBytes n).2).aon = s.aon := rfl
@[simp] theorem State.freeBytes_snd_att (s : State) (n : Nat) : ((s.freeBytes n).2).att = s.att := rfl
@[simp] theorem State.freeBytes_snd_dev (s : State) (n : Nat) : ((s.freeBytes n).2).dev = s.dev := rfl
@[simp] theorem State.freeBytes_snd_mbx (s : State) (n : Nat) : ((s.freeBytes n).2).mbx = s.mbx := rfl
@[simp] theorem State.freeBytes_snd_mem (s : State) (n : Nat) : ((s.freeBytes n).2).mem = s.mem := rfl
@[simp] theorem State.freeBytes_snd_rgn (s : State) (n : Nat) : ((s.freeBytes n).2).rgn = s.rgn := rfl
@[simp] theorem State.freeBytes_snd_coh (s : State) (n : Nat) : ((s.freeBytes n).2).coh = s.coh := rfl
@[simp] theorem State.freeBytes_snd_pln (s : State) (n : Nat) : ((s.freeBytes n).2).pln = s.pln := rfl
@[simp] theorem State.freeBytes_snd_stp (s : State) (n : Nat) : ((s.freeBytes n).2).stp = s.stp := rfl
@[simp] theorem State.freeBytes_snd_trn (s : State) (n : Nat) : ((s.freeBytes n).2).trn = s.trn := rfl
@[simp] theorem State.freeBytes_snd_eng (s : State) (n : Nat) : ((s.freeBytes n).2).eng = s.eng := rfl
@[simp] theorem State.freeBytes_snd_fab (s : State) (n : Nat) : ((s.freeBytes n).2).fab = s.fab := rfl
@[simp] theorem State.freeBytes_snd_gld (s : State) (n : Nat) : ((s.freeBytes n).2).gld = s.gld := rfl
@[simp] theorem State.freeBytes_snd_dma (s : State) (n : Nat) : ((s.freeBytes n).2).dma = s.dma := rfl
@[simp] theorem State.freeBytes_snd_hst (s : State) (n : Nat) : ((s.freeBytes n).2).hst = s.hst := rfl
@[simp] theorem State.freeBytes_snd_cor (s : State) (n : Nat) : ((s.freeBytes n).2).cor = s.cor := rfl
@[simp] theorem State.freeBytes_snd_obs (s : State) (n : Nat) : ((s.freeBytes n).2).obs = s.obs := rfl

/-! ### freeNat_snd -/

@[simp] theorem State.freeNat_snd_pending (s : State) : (s.freeNat.2).pending = s.pending := rfl
@[simp] theorem State.freeNat_snd_out (s : State) : (s.freeNat.2).out = s.out := rfl
@[simp] theorem State.freeNat_snd_fresh (s : State) : (s.freeNat.2).fresh = s.fresh + 1 := rfl
@[simp] theorem State.freeNat_snd_aon (s : State) : (s.freeNat.2).aon = s.aon := rfl
@[simp] theorem State.freeNat_snd_att (s : State) : (s.freeNat.2).att = s.att := rfl
@[simp] theorem State.freeNat_snd_dev (s : State) : (s.freeNat.2).dev = s.dev := rfl
@[simp] theorem State.freeNat_snd_mbx (s : State) : (s.freeNat.2).mbx = s.mbx := rfl
@[simp] theorem State.freeNat_snd_mem (s : State) : (s.freeNat.2).mem = s.mem := rfl
@[simp] theorem State.freeNat_snd_rgn (s : State) : (s.freeNat.2).rgn = s.rgn := rfl
@[simp] theorem State.freeNat_snd_coh (s : State) : (s.freeNat.2).coh = s.coh := rfl
@[simp] theorem State.freeNat_snd_pln (s : State) : (s.freeNat.2).pln = s.pln := rfl
@[simp] theorem State.freeNat_snd_stp (s : State) : (s.freeNat.2).stp = s.stp := rfl
@[simp] theorem State.freeNat_snd_trn (s : State) : (s.freeNat.2).trn = s.trn := rfl
@[simp] theorem State.freeNat_snd_eng (s : State) : (s.freeNat.2).eng = s.eng := rfl
@[simp] theorem State.freeNat_snd_fab (s : State) : (s.freeNat.2).fab = s.fab := rfl
@[simp] theorem State.freeNat_snd_gld (s : State) : (s.freeNat.2).gld = s.gld := rfl
@[simp] theorem State.freeNat_snd_dma (s : State) : (s.freeNat.2).dma = s.dma := rfl
@[simp] theorem State.freeNat_snd_hst (s : State) : (s.freeNat.2).hst = s.hst := rfl
@[simp] theorem State.freeNat_snd_cor (s : State) : (s.freeNat.2).cor = s.cor := rfl
@[simp] theorem State.freeNat_snd_obs (s : State) : (s.freeNat.2).obs = s.obs := rfl

/-! ### wakeBlock -/

@[simp] theorem State.wakeBlock_pending (s : State) (b : LowPowerBlock) : (s.wakeBlock b).pending = s.pending := rfl
@[simp] theorem State.wakeBlock_out (s : State) (b : LowPowerBlock) : (s.wakeBlock b).out = s.out := rfl
@[simp] theorem State.wakeBlock_fresh (s : State) (b : LowPowerBlock) : (s.wakeBlock b).fresh = s.fresh := rfl
@[simp] theorem State.wakeBlock_aon (s : State) (b : LowPowerBlock) : (s.wakeBlock b).aon = { s.aon with lowPower := s.aon.lowPower.filter (· != b) } := rfl
@[simp] theorem State.wakeBlock_att (s : State) (b : LowPowerBlock) : (s.wakeBlock b).att = s.att := rfl
@[simp] theorem State.wakeBlock_dev (s : State) (b : LowPowerBlock) : (s.wakeBlock b).dev = s.dev := rfl
@[simp] theorem State.wakeBlock_mbx (s : State) (b : LowPowerBlock) : (s.wakeBlock b).mbx = s.mbx := rfl
@[simp] theorem State.wakeBlock_mem (s : State) (b : LowPowerBlock) : (s.wakeBlock b).mem = s.mem := rfl
@[simp] theorem State.wakeBlock_rgn (s : State) (b : LowPowerBlock) : (s.wakeBlock b).rgn = s.rgn := rfl
@[simp] theorem State.wakeBlock_coh (s : State) (b : LowPowerBlock) : (s.wakeBlock b).coh = s.coh := rfl
@[simp] theorem State.wakeBlock_pln (s : State) (b : LowPowerBlock) : (s.wakeBlock b).pln = s.pln := rfl
@[simp] theorem State.wakeBlock_stp (s : State) (b : LowPowerBlock) : (s.wakeBlock b).stp = s.stp := rfl
@[simp] theorem State.wakeBlock_trn (s : State) (b : LowPowerBlock) : (s.wakeBlock b).trn = s.trn := rfl
@[simp] theorem State.wakeBlock_eng (s : State) (b : LowPowerBlock) : (s.wakeBlock b).eng = s.eng := rfl
@[simp] theorem State.wakeBlock_fab (s : State) (b : LowPowerBlock) : (s.wakeBlock b).fab = s.fab := rfl
@[simp] theorem State.wakeBlock_gld (s : State) (b : LowPowerBlock) : (s.wakeBlock b).gld = s.gld := rfl
@[simp] theorem State.wakeBlock_dma (s : State) (b : LowPowerBlock) : (s.wakeBlock b).dma = s.dma := rfl
@[simp] theorem State.wakeBlock_hst (s : State) (b : LowPowerBlock) : (s.wakeBlock b).hst = s.hst := rfl
@[simp] theorem State.wakeBlock_cor (s : State) (b : LowPowerBlock) : (s.wakeBlock b).cor = s.cor := rfl
@[simp] theorem State.wakeBlock_obs (s : State) (b : LowPowerBlock) : (s.wakeBlock b).obs = s.obs := rfl

/-! ### fence -/

@[simp] theorem State.fence_pending (s : State) : (s.fence).pending = s.pending := rfl
@[simp] theorem State.fence_out (s : State) : (s.fence).out = s.out := rfl
@[simp] theorem State.fence_fresh (s : State) : (s.fence).fresh = s.fresh := rfl
@[simp] theorem State.fence_aon (s : State) : (s.fence).aon = s.aon := rfl
@[simp] theorem State.fence_att (s : State) : (s.fence).att = s.att := rfl
@[simp] theorem State.fence_dev (s : State) : (s.fence).dev = s.dev := rfl
@[simp] theorem State.fence_mbx (s : State) : (s.fence).mbx = s.mbx := rfl
@[simp] theorem State.fence_mem (s : State) : (s.fence).mem = { s.mem with wc := [] } := rfl
@[simp] theorem State.fence_rgn (s : State) : (s.fence).rgn = s.rgn := rfl
@[simp] theorem State.fence_coh (s : State) : (s.fence).coh = s.coh := rfl
@[simp] theorem State.fence_pln (s : State) : (s.fence).pln = s.pln := rfl
@[simp] theorem State.fence_stp (s : State) : (s.fence).stp = s.stp := rfl
@[simp] theorem State.fence_trn (s : State) : (s.fence).trn = s.trn := rfl
@[simp] theorem State.fence_eng (s : State) : (s.fence).eng = s.eng := rfl
@[simp] theorem State.fence_fab (s : State) : (s.fence).fab = s.fab := rfl
@[simp] theorem State.fence_gld (s : State) : (s.fence).gld = s.gld := rfl
@[simp] theorem State.fence_dma (s : State) : (s.fence).dma = s.dma := rfl
@[simp] theorem State.fence_hst (s : State) : (s.fence).hst = s.hst := rfl
@[simp] theorem State.fence_cor (s : State) : (s.fence).cor = s.cor := rfl
@[simp] theorem State.fence_obs (s : State) : (s.fence).obs = s.obs := rfl

/-! ### cleanRange -/

@[simp] theorem State.cleanRange_pending (s : State) (lo n : Nat) : (s.cleanRange lo n).pending = s.pending := rfl
@[simp] theorem State.cleanRange_out (s : State) (lo n : Nat) : (s.cleanRange lo n).out = s.out := rfl
@[simp] theorem State.cleanRange_fresh (s : State) (lo n : Nat) : (s.cleanRange lo n).fresh = s.fresh := rfl
@[simp] theorem State.cleanRange_aon (s : State) (lo n : Nat) : (s.cleanRange lo n).aon = s.aon := rfl
@[simp] theorem State.cleanRange_att (s : State) (lo n : Nat) : (s.cleanRange lo n).att = s.att := rfl
@[simp] theorem State.cleanRange_dev (s : State) (lo n : Nat) : (s.cleanRange lo n).dev = s.dev := rfl
@[simp] theorem State.cleanRange_mbx (s : State) (lo n : Nat) : (s.cleanRange lo n).mbx = s.mbx := rfl
@[simp] theorem State.cleanRange_rgn (s : State) (lo n : Nat) : (s.cleanRange lo n).rgn = s.rgn := rfl
@[simp] theorem State.cleanRange_pln (s : State) (lo n : Nat) : (s.cleanRange lo n).pln = s.pln := rfl
@[simp] theorem State.cleanRange_stp (s : State) (lo n : Nat) : (s.cleanRange lo n).stp = s.stp := rfl
@[simp] theorem State.cleanRange_trn (s : State) (lo n : Nat) : (s.cleanRange lo n).trn = s.trn := rfl
@[simp] theorem State.cleanRange_eng (s : State) (lo n : Nat) : (s.cleanRange lo n).eng = s.eng := rfl
@[simp] theorem State.cleanRange_fab (s : State) (lo n : Nat) : (s.cleanRange lo n).fab = s.fab := rfl
@[simp] theorem State.cleanRange_gld (s : State) (lo n : Nat) : (s.cleanRange lo n).gld = s.gld := rfl
@[simp] theorem State.cleanRange_dma (s : State) (lo n : Nat) : (s.cleanRange lo n).dma = s.dma := rfl
@[simp] theorem State.cleanRange_hst (s : State) (lo n : Nat) : (s.cleanRange lo n).hst = s.hst := rfl
@[simp] theorem State.cleanRange_cor (s : State) (lo n : Nat) : (s.cleanRange lo n).cor = s.cor := rfl
@[simp] theorem State.cleanRange_obs (s : State) (lo n : Nat) : (s.cleanRange lo n).obs = s.obs := rfl

/-! ### invalRange -/

@[simp] theorem State.invalRange_pending (s : State) (lo n : Nat) : (s.invalRange lo n).pending = s.pending := rfl
@[simp] theorem State.invalRange_fresh (s : State) (lo n : Nat) : (s.invalRange lo n).fresh = s.fresh := rfl
@[simp] theorem State.invalRange_aon (s : State) (lo n : Nat) : (s.invalRange lo n).aon = s.aon := rfl
@[simp] theorem State.invalRange_att (s : State) (lo n : Nat) : (s.invalRange lo n).att = s.att := rfl
@[simp] theorem State.invalRange_dev (s : State) (lo n : Nat) : (s.invalRange lo n).dev = s.dev := rfl
@[simp] theorem State.invalRange_mbx (s : State) (lo n : Nat) : (s.invalRange lo n).mbx = s.mbx := rfl
@[simp] theorem State.invalRange_mem (s : State) (lo n : Nat) : (s.invalRange lo n).mem = (s.cleanRange lo n).mem := rfl
@[simp] theorem State.invalRange_rgn (s : State) (lo n : Nat) : (s.invalRange lo n).rgn = s.rgn := rfl
@[simp] theorem State.invalRange_pln (s : State) (lo n : Nat) : (s.invalRange lo n).pln = s.pln := rfl
@[simp] theorem State.invalRange_stp (s : State) (lo n : Nat) : (s.invalRange lo n).stp = s.stp := rfl
@[simp] theorem State.invalRange_trn (s : State) (lo n : Nat) : (s.invalRange lo n).trn = s.trn := rfl
@[simp] theorem State.invalRange_eng (s : State) (lo n : Nat) : (s.invalRange lo n).eng = s.eng := rfl
@[simp] theorem State.invalRange_fab (s : State) (lo n : Nat) : (s.invalRange lo n).fab = s.fab := rfl
@[simp] theorem State.invalRange_gld (s : State) (lo n : Nat) : (s.invalRange lo n).gld = s.gld := rfl
@[simp] theorem State.invalRange_dma (s : State) (lo n : Nat) : (s.invalRange lo n).dma = s.dma := rfl
@[simp] theorem State.invalRange_hst (s : State) (lo n : Nat) : (s.invalRange lo n).hst = s.hst := rfl
@[simp] theorem State.invalRange_cor (s : State) (lo n : Nat) : (s.invalRange lo n).cor = s.cor := rfl
@[simp] theorem State.invalRange_obs (s : State) (lo n : Nat) : (s.invalRange lo n).obs = s.obs := rfl

/-! ### reply -/

@[simp] theorem State.reply_pending (s : State) (k t c : Nat) (d : Bytes) : (s.reply k t c d).pending = s.pending := rfl
@[simp] theorem State.reply_out (s : State) (k t c : Nat) (d : Bytes) : (s.reply k t c d).out = s.out := rfl
@[simp] theorem State.reply_fresh (s : State) (k t c : Nat) (d : Bytes) : (s.reply k t c d).fresh = s.fresh := rfl
@[simp] theorem State.reply_aon (s : State) (k t c : Nat) (d : Bytes) : (s.reply k t c d).aon = s.aon := rfl
@[simp] theorem State.reply_att (s : State) (k t c : Nat) (d : Bytes) : (s.reply k t c d).att = s.att := rfl
@[simp] theorem State.reply_dev (s : State) (k t c : Nat) (d : Bytes) : (s.reply k t c d).dev = s.dev := rfl
@[simp] theorem State.reply_mbx (s : State) (k t c : Nat) (d : Bytes) : (s.reply k t c d).mbx = s.mbx.putReply k t (statusWord s.att c) d := rfl
@[simp] theorem State.reply_mem (s : State) (k t c : Nat) (d : Bytes) : (s.reply k t c d).mem = s.mem := rfl
@[simp] theorem State.reply_rgn (s : State) (k t c : Nat) (d : Bytes) : (s.reply k t c d).rgn = s.rgn := rfl
@[simp] theorem State.reply_coh (s : State) (k t c : Nat) (d : Bytes) : (s.reply k t c d).coh = s.coh := rfl
@[simp] theorem State.reply_pln (s : State) (k t c : Nat) (d : Bytes) : (s.reply k t c d).pln = s.pln := rfl
@[simp] theorem State.reply_stp (s : State) (k t c : Nat) (d : Bytes) : (s.reply k t c d).stp = s.stp := rfl
@[simp] theorem State.reply_trn (s : State) (k t c : Nat) (d : Bytes) : (s.reply k t c d).trn = s.trn := rfl
@[simp] theorem State.reply_eng (s : State) (k t c : Nat) (d : Bytes) : (s.reply k t c d).eng = s.eng := rfl
@[simp] theorem State.reply_fab (s : State) (k t c : Nat) (d : Bytes) : (s.reply k t c d).fab = s.fab := rfl
@[simp] theorem State.reply_gld (s : State) (k t c : Nat) (d : Bytes) : (s.reply k t c d).gld = s.gld := rfl
@[simp] theorem State.reply_dma (s : State) (k t c : Nat) (d : Bytes) : (s.reply k t c d).dma = s.dma := rfl
@[simp] theorem State.reply_hst (s : State) (k t c : Nat) (d : Bytes) : (s.reply k t c d).hst = s.hst := rfl
@[simp] theorem State.reply_cor (s : State) (k t c : Nat) (d : Bytes) : (s.reply k t c d).cor = s.cor := rfl
@[simp] theorem State.reply_obs (s : State) (k t c : Nat) (d : Bytes) : (s.reply k t c d).obs = s.obs := rfl

end Sys2Proof.Machine
end

