-- ==== Sys2Proof/Laws/Store.lean ====
section
/-! SUPPORT. The byte store: its canonical form is kept by every operation, a read after a write gives the byte written, a
write leaves every other byte, and stores that read the same are equal. -/

namespace Sys2Proof.Machine

theorem Store.wfFrom_mono {m : Store} : ∀ {lo hi : Nat}, Store.wfFrom hi m = true → lo ≤ hi → Store.wfFrom lo m = true := by
  cases m with
  | nil => intros; rfl
  | cons c r =>
    intro lo hi h hl
    simp only [Store.wfFrom, Bool.and_eq_true, decide_eq_true_eq] at h ⊢
    exact ⟨⟨Nat.le_trans hl h.1.1, h.1.2⟩, h.2⟩

/-- Below its first address a canonical store reads zero. -/
theorem Store.read_below {m : Store} : ∀ {lo a : Nat}, Store.wfFrom lo m = true → a < lo → m.read a = 0#8 := by
  cases m with
  | nil => intros; rfl
  | cons c r =>
    intro lo a h ha
    simp only [Store.wfFrom, Bool.and_eq_true, decide_eq_true_eq] at h
    have h1 : a < c.1 := Nat.lt_of_lt_of_le ha h.1.1
    simp [Store.read, h1, Nat.ne_of_lt h1]

theorem Store.wfFrom_write {x : Nat} {v : Byte} : ∀ {m : Store} {lo : Nat}, Store.wfFrom lo m = true → lo ≤ x →
    Store.wfFrom lo (m.write x v) = true := by
  intro m
  induction m with
  | nil =>
    intro lo _ hx
    by_cases hv : v = 0#8 <;> simp [Store.write, Store.wfFrom, hv, hx]
  | cons c r ih =>
    intro lo h hx
    have h' := h
    simp only [Store.wfFrom, Bool.and_eq_true, decide_eq_true_eq] at h'
    obtain ⟨⟨h1, h2⟩, h3⟩ := h'
    by_cases hlt : x < c.1
    · by_cases hv : v = 0#8
      · simpa [Store.write, hlt, hv] using h
      · simp only [Store.write, hlt, if_true, beq_iff_eq, hv, if_false, Store.wfFrom, Bool.and_eq_true, decide_eq_true_eq]
        exact ⟨⟨hx, by simpa using hv⟩, ⟨hlt, h2⟩, h3⟩
    · by_cases he : x = c.1
      · by_cases hv : v = 0#8
        · simpa [Store.write, he, hv] using Store.wfFrom_mono h3 (by omega)
        · simp only [Store.write, he, Nat.lt_irrefl, if_false, beq_iff_eq, if_true, hv, Store.wfFrom, Bool.and_eq_true,
            decide_eq_true_eq]
          exact ⟨⟨h1, by simpa using hv⟩, h3⟩
      · simp only [Store.write, hlt, if_false, beq_iff_eq, he, Store.wfFrom, Bool.and_eq_true, decide_eq_true_eq]
        exact ⟨⟨h1, h2⟩, ih h3 (by omega)⟩

theorem Store.wf_write {m : Store} (h : m.wf = true) (x : Nat) (v : Byte) : (m.write x v).wf = true :=
  Store.wfFrom_write h (Nat.zero_le x)

theorem Store.wf_writeN : ∀ {d : Bytes} {m : Store} (_ : m.wf = true) (x : Nat), (m.writeN x d).wf = true := by
  intro d
  induction d with
  | nil => intro m h x; exact h
  | cons b r ih => intro m h x; exact ih (Store.wf_write h x b) (x + 1)

theorem Store.wfFrom_filter (p : Nat × Byte → Bool) : ∀ {m : Store} {lo : Nat}, Store.wfFrom lo m = true →
    Store.wfFrom lo (m.filter p) = true := by
  intro m
  induction m with
  | nil => intro lo h; exact h
  | cons c r ih =>
    intro lo h
    simp only [Store.wfFrom, Bool.and_eq_true, decide_eq_true_eq] at h
    by_cases hp : p c = true
    · simp only [List.filter_cons, hp, if_true, Store.wfFrom, Bool.and_eq_true, decide_eq_true_eq]
      exact ⟨h.1, ih h.2⟩
    · simp only [List.filter_cons, hp]
      exact Store.wfFrom_mono (ih h.2) (by omega)

theorem Store.wf_zero {m : Store} (h : m.wf = true) (lo n : Nat) : (m.zero lo n).wf = true :=
  Store.wfFrom_filter _ h

/-- The byte read after a write. -/
theorem Store.read_write_from {x : Nat} {v : Byte} (a : Nat) : ∀ {m : Store} {lo : Nat}, Store.wfFrom lo m = true →
    (m.write x v).read a = if a = x then v else m.read a := by
  intro m
  induction m with
  | nil =>
    intro lo _
    by_cases hv : v = 0#8 <;> by_cases ha : a = x <;> simp [Store.write, Store.read, hv, ha]
  | cons c r ih =>
    intro lo h
    have h' := h
    simp only [Store.wfFrom, Bool.and_eq_true, decide_eq_true_eq] at h'
    obtain ⟨⟨_, _⟩, h3⟩ := h'
    by_cases hlt : x < c.1
    · by_cases hv : v = 0#8
      · by_cases ha : a = x
        · simp [Store.write, hlt, hv, ha, Store.read, Nat.ne_of_lt hlt]
        · simp [Store.write, hlt, hv, ha]
      · by_cases ha : a = x
        · simp [Store.write, hlt, hv, ha, Store.read]
        · simp only [Store.write, hlt, if_true, beq_iff_eq, hv, if_false, ha, Store.read]
          by_cases hax : a < x
          · simp [hax, Nat.lt_trans hax hlt, Nat.ne_of_lt (Nat.lt_trans hax hlt)]
          · simp [hax]
    · by_cases he : x = c.1
      · by_cases hv : v = 0#8
        · simp only [Store.write, he, Nat.lt_irrefl, if_false, beq_iff_eq, if_true, hv, Store.read]
          by_cases ha : a = c.1
          · simpa [ha] using Store.read_below h3 (Nat.lt_succ_self c.1)
          · by_cases hac : a < c.1
            · simpa [ha, hac] using Store.read_below h3 (Nat.lt_succ_of_lt hac)
            · simp [ha, hac]
        · by_cases ha : a = c.1 <;> simp [Store.write, he, hv, ha, Store.read]
      · simp only [Store.write, hlt, if_false, beq_iff_eq, he, Store.read, ih h3]
        by_cases ha : a = c.1
        · simp [ha, Ne.symm he]
        · by_cases hac : a < c.1
          · have : a ≠ x := by omega
            simp [ha, hac, this]
          · simp [ha, hac]

theorem Store.read_write {m : Store} (h : m.wf = true) (x a : Nat) (v : Byte) :
    (m.write x v).read a = if a = x then v else m.read a := Store.read_write_from a h

/-- The byte read after a string is written: the string's inside its range, the old one outside. -/
theorem Store.read_writeN : ∀ {d : Bytes} {m : Store} (_ : m.wf = true) (x a : Nat),
    (m.writeN x d).read a = if x ≤ a ∧ a < x + d.length then d.getD (a - x) 0#8 else m.read a := by
  intro d
  induction d with
  | nil => intro m _ x a; simp [Store.writeN]
  | cons b r ih =>
    intro m h x a
    rw [Store.writeN, ih (Store.wf_write h x b), Store.read_write h]
    by_cases hx : a = x
    · simp [hx]
    · by_cases hin : x + 1 ≤ a ∧ a < x + 1 + r.length
      · have h2 : x ≤ a ∧ a < x + (b :: r).length := ⟨by omega, by simp; omega⟩
        have h3 : a - x = (a - (x + 1)) + 1 := by omega
        rw [if_pos hin, if_pos h2, h3, List.getD_cons_succ]
      · have h2 : ¬ (x ≤ a ∧ a < x + (b :: r).length) := by simp; omega
        rw [if_neg hin, if_neg hx, if_neg h2]

theorem Store.read_filter (p : Nat → Bool) (a : Nat) : ∀ {m : Store} {lo : Nat}, Store.wfFrom lo m = true →
    Store.read (m.filter fun c => p c.1) a = if p a then m.read a else 0#8 := by
  intro m
  induction m with
  | nil => intro lo _; simp [Store.read]
  | cons c r ih =>
    intro lo h
    simp only [Store.wfFrom, Bool.and_eq_true, decide_eq_true_eq] at h
    by_cases hp : p c.1 = true
    · simp only [List.filter_cons, hp, if_true, Store.read, ih h.2]
      by_cases ha : a = c.1
      · simp [ha, hp]
      · by_cases hac : a < c.1 <;> simp [ha, hac]
    · simp only [List.filter_cons, hp, Bool.false_eq_true, if_false, Store.read, ih h.2]
      by_cases ha : a = c.1
      · simp [ha, hp]
      · by_cases hac : a < c.1
        · simp [ha, hac, Store.read_below h.2 (Nat.lt_succ_of_lt hac)]
        · simp [ha, hac]

/-- A zeroed range reads zero, and the rest as before. -/
theorem Store.read_zero {m : Store} (h : m.wf = true) (lo n a : Nat) :
    (m.zero lo n).read a = if lo ≤ a ∧ a < lo + n then 0#8 else m.read a := by
  have := Store.read_filter (fun k => !(decide (lo ≤ k) && decide (k < lo + n))) a h
  rw [Store.zero, this]
  by_cases h1 : lo ≤ a <;> by_cases h2 : a < lo + n <;> simp [h1, h2]

@[simp] theorem Store.readN_length (m : Store) : ∀ (n x : Nat), (m.readN x n).length = n := by
  intro n
  induction n with
  | zero => intro x; rfl
  | succ n ih => intro x; simp [Store.readN, ih]

/-- Byte `i` of a range read. -/
theorem Store.readN_getD (m : Store) : ∀ (n x i : Nat), i < n → (m.readN x n).getD i 0#8 = m.read (x + i) := by
  intro n
  induction n with
  | zero => intro x i h; omega
  | succ n ih =>
    intro x i h
    cases i with
    | zero => rfl
    | succ i => rw [Store.readN, List.getD_cons_succ, ih _ _ (by omega)]; congr 1; omega

/-- Ranges that read the same byte by byte read the same. -/
theorem Store.readN_congr {m m' : Store} : ∀ {n x : Nat}, (∀ i < n, m'.read (x + i) = m.read (x + i)) →
    m'.readN x n = m.readN x n := by
  intro n
  induction n with
  | zero => intros; rfl
  | succ n ih =>
    intro x h
    rw [Store.readN, Store.readN, ih (fun i hi => by have := h (i + 1) (by omega); rwa [show x + 1 + i = x + (i + 1) by omega])]
    exact congrArg (· :: _) (h 0 (by omega))

@[simp] theorem leBytes_length : ∀ (n v : Nat), (leBytes n v).length = n := by
  intro n
  induction n with
  | zero => intro v; rfl
  | succ n ih => intro v; simp [leBytes, ih]

@[simp] theorem zeros_length (n : Nat) : (zeros n).length = n := by simp [zeros]

/-- A number comes back from its bytes, modulo 256 to their count. -/
theorem leNat_leBytes : ∀ (n v : Nat), leNat (leBytes n v) = v % 256 ^ n := by
  intro n
  induction n with
  | zero => intro v; simp [leBytes, leNat, Nat.mod_one]
  | succ n ih =>
    intro v
    have h : 256 ^ (n + 1) = 256 * 256 ^ n := by rw [Nat.pow_succ, Nat.mul_comm]
    rw [leBytes, leNat, ih, BitVec.toNat_ofNat, h, Nat.mod_mul]

/-- Canonical stores that read the same are the same list. -/
theorem Store.ext_read : ∀ {m m' : Store} {lo : Nat}, Store.wfFrom lo m = true → Store.wfFrom lo m' = true →
    (∀ a, m.read a = m'.read a) → m = m' := by
  intro m
  induction m with
  | nil =>
    intro m' lo _ h' he
    cases m' with
    | nil => rfl
    | cons c r =>
      simp only [Store.wfFrom, Bool.and_eq_true, bne_iff_ne] at h'
      exact absurd (by simpa [Store.read] using (he c.1).symm) h'.1.2
  | cons c r ih =>
    intro m' lo h h' he
    simp only [Store.wfFrom, Bool.and_eq_true, bne_iff_ne, decide_eq_true_eq] at h
    cases m' with
    | nil => exact absurd (by simpa [Store.read] using he c.1) h.1.2
    | cons c' r' =>
      simp only [Store.wfFrom, Bool.and_eq_true, bne_iff_ne, decide_eq_true_eq] at h'
      have hk : c.1 = c'.1 := by
        rcases Nat.lt_trichotomy c.1 c'.1 with hl | hl | hl
        · exact absurd (by simpa [Store.read, hl, Nat.ne_of_lt hl] using he c.1) h.1.2
        · exact hl
        · exact absurd (by simpa [Store.read, hl, Nat.ne_of_lt hl] using (he c'.1).symm) h'.1.2
      have hv : c.2 = c'.2 := by simpa [Store.read, hk] using he c.1
      have hr : r = r' := by
        refine ih h.2 (hk ▸ h'.2) fun a => ?_
        rcases Nat.lt_or_ge a (c.1 + 1) with hl | hl
        · rw [Store.read_below h.2 hl, Store.read_below h'.2 (hk ▸ hl)]
        · have h1 : a ≠ c.1 := by omega
          have h2 : ¬ a < c.1 := by omega
          simpa [Store.read, h1, h2, ← hk] using he a
      rw [hr, Prod.ext hk hv]

end Sys2Proof.Machine
end

