-- ==== Sys2Proof/Laws/Frames.lean ====
section
/-! SUPPORT. What each shared operation over memory, mailboxes and attention can change, said once: the parts of the state it
leaves alone, and that it keeps the byte stores canonical and the attention list bounded. -/

namespace Sys2Proof.Machine

/-! ### Frames compose -/

theorem Keeps.refl (l : List Part) (s : State) : Keeps l s s := by intro p _; cases p <;> rfl

theorem Keeps.trans {l : List Part} {s t u : State} (h : Keeps l s t) (k : Keeps l t u) : Keeps l s u := by
  intro p hp
  have h1 := h p hp
  have h2 := k p hp
  cases p <;> exact h2.trans h1

theorem Keeps.mono {l k : List Part} {s t : State} (h : Keeps l s t) (hl : ∀ p ∈ l, p ∈ k) : Keeps k s t :=
  fun p hp => h p fun hm => hp (hl p hm)

/-- A fold of steps that each keep the parts keeps them. -/
theorem Keeps.foldl {α : Type} {l : List Part} {f : State → α → State} (hf : ∀ s a, Keeps l s (f s a)) :
    ∀ (as : List α) (s : State), Keeps l s (as.foldl f s) := by
  intro as
  induction as with
  | nil => intro s; exact Keeps.refl l s
  | cons a r ih => intro s; exact (hf s a).trans (ih (f s a))

/-- A property that each step of a fold keeps holds after the fold. -/
theorem foldl_keeps {α β : Type} {P : β → Prop} {f : β → α → β} (hf : ∀ b a, P b → P (f b a)) :
    ∀ (as : List α) (b : β), P b → P (as.foldl f b) := by
  intro as
  induction as with
  | nil => intro b h; exact h
  | cons a r ih => intro b h; exact ih _ (hf b a h)

/-! ### Reads and writes by key -/

theorem State.cleanRange_keeps (s : State) (lo n : Nat) : Keeps [.mem, .coh] s (s.cleanRange lo n) := by
  intro p hp; cases p <;> first | rfl | simp at hp

theorem State.invalRange_keeps (s : State) (lo n : Nat) : Keeps [.mem, .coh, .out] s (s.invalRange lo n) := by
  intro p hp; cases p <;> first | rfl | simp at hp

theorem State.wakeRange_keeps (s : State) (lo n : Nat) : Keeps [.mem] s (s.wakeRange lo n) := by
  intro p hp; unfold State.wakeRange; split <;> cases p <;> first | rfl | simp at hp

theorem State.combine_keeps (s : State) (line : Nat) (m : BitVec 64) : Keeps [.mem] s (s.combine line m) := by
  intro p hp
  unfold State.combine
  split
  · cases p <;> rfl
  · simp only []
    split <;> cases p <;> first | rfl | simp at hp

theorem State.combineRange_keeps (s : State) (lo n : Nat) : Keeps [.mem] s (s.combineRange lo n) := by
  unfold State.combineRange
  split
  · exact Keeps.refl _ s
  · simp only []
    have h : ∀ (g : Mem), Keeps [.mem] s { s with mem := g } := by
      intro g p hp; cases p <;> first | rfl | simp at hp
    split <;> split <;> first
      | exact h _
      | exact (h _).trans (State.combine_keeps _ _ _)
      | exact ((h _).trans (State.combine_keeps _ _ _)).trans (State.combine_keeps _ _ _)

theorem State.placeKey_keeps (s : State) (r : Region) (off k n : Nat) : Keeps [.coh] s (s.placeKey r off k n) := by
  intro p hp; unfold State.placeKey; split <;> cases p <;> first | rfl | simp at hp

theorem State.heatAccess_keeps (s : State) (id off len : Nat) : Keeps [.rgn] s (s.heatAccess id off len) := by
  intro p hp
  unfold State.heatAccess
  split
  · cases p <;> rfl
  · split <;> cases p <;> first | rfl | simp at hp

theorem State.writeKey_keeps (s : State) (k : Nat) (d : Bytes) : Keeps [.mem, .coh, .out] s (s.writeKey k d) := by
  unfold State.writeKey
  have h : ∀ (t : State) (g : Mem), Keeps [.mem, .coh, .out] t { t with mem := g } := by
    intro t g p hp; cases p <;> first | rfl | simp at hp
  have sub : ∀ p ∈ [Part.mem], p ∈ [Part.mem, .coh, .out] := by decide
  exact (((State.invalRange_keeps s _ _).trans ((State.wakeRange_keeps _ _ _).mono sub)).trans (h _ _)).trans
    ((State.combineRange_keeps _ _ _).mono sub)

theorem State.readRegion_keeps (s : State) (r : Region) (off len : Nat) :
    Keeps [.mem, .coh, .rgn] s (s.readRegion r off len).2 := by
  unfold State.readRegion
  have m0 : ∀ p ∈ [Part.rgn], p ∈ [Part.mem, .coh, .rgn] := by decide
  refine Keeps.trans (Keeps.foldl (fun t c => ?_) _ s) ((State.heatAccess_keeps _ _ _ _).mono m0)
  have m1 : ∀ p ∈ [Part.mem, .coh], p ∈ [Part.mem, .coh, .rgn] := by decide
  have m2 : ∀ p ∈ [Part.mem], p ∈ [Part.mem, .coh, .rgn] := by decide
  have m3 : ∀ p ∈ [Part.coh], p ∈ [Part.mem, .coh, .rgn] := by decide
  exact (((State.cleanRange_keeps t _ _).mono m1).trans ((State.wakeRange_keeps _ _ _).mono m2)).trans
    ((State.placeKey_keeps _ _ _ _ _).mono m3)

theorem State.writeRegion_keeps (s : State) (r : Region) (off : Nat) (d : Bytes) :
    Keeps [.mem, .coh, .out, .rgn] s (s.writeRegion r off d) := by
  unfold State.writeRegion
  have h : ∀ (cs : List (Nat × Nat)) (t : State) (b : Bytes), Keeps [.mem, .coh, .out, .rgn] t
      (cs.foldl (fun (a : State × Bytes) c =>
        (((a.1.writeKey (r.key c.1) (a.2.take c.2)).placeKey r c.1 (r.key c.1) c.2), a.2.drop c.2)) (t, b)).1 := by
    intro cs
    have m1 : ∀ p ∈ [Part.mem, .coh, .out], p ∈ [Part.mem, .coh, .out, .rgn] := by decide
    have m2 : ∀ p ∈ [Part.coh], p ∈ [Part.mem, .coh, .out, .rgn] := by decide
    induction cs with
    | nil => intro t b; exact Keeps.refl _ t
    | cons c cs ih =>
      intro t b
      exact (((State.writeKey_keeps t _ _).mono m1).trans ((State.placeKey_keeps _ _ _ _ _).mono m2)).trans (ih _ _)
  have hg : ∀ (t : State) (g : Rgn), Keeps [.mem, .coh, .out, .rgn] t { t with rgn := g } := by
    intro t g p hp; cases p <;> first | rfl | simp at hp
  have m3 : ∀ p ∈ [Part.rgn], p ∈ [Part.mem, .coh, .out, .rgn] := by decide
  exact ((h _ s d).trans (hg _ _)).trans ((State.heatAccess_keeps _ _ _ _).mono m3)

theorem State.readVa_keeps (s : State) (va len : Nat) : Keeps [.mem, .coh, .rgn] s (s.readVa va len).2 := by
  unfold State.readVa
  have h : ∀ (cs : List (Nat × Nat)) (t : State) (b : Bytes), Keeps [.mem, .coh, .rgn] t
      (cs.foldl (fun (a : Bytes × State) c =>
        match a.2.spot c.1 false with
        | .ok (r, off) => let x := a.2.readRegion r off c.2; (a.1 ++ x.1, x.2)
        | .error _ => (a.1 ++ zeros c.2, a.2)) (b, t)).2 := by
    intro cs
    induction cs with
    | nil => intro t b; exact Keeps.refl _ t
    | cons c cs ih =>
      intro t b
      simp only [List.foldl_cons]
      cases t.spot c.1 false with
      | error e => exact ih t _
      | ok x => exact (State.readRegion_keeps t x.1 x.2 c.2).trans (ih _ _)
  exact h _ s []

theorem State.writeVa_keeps (s : State) (va : Nat) (d : Bytes) : Keeps [.mem, .coh, .out, .rgn] s (s.writeVa va d) := by
  unfold State.writeVa
  have h : ∀ (cs : List (Nat × Nat)) (t : State) (b : Bytes), Keeps [.mem, .coh, .out, .rgn] t
      (cs.foldl (fun (a : State × Bytes) c =>
        ((match a.1.spot c.1 true with
          | .ok (r, off) => a.1.writeRegion r off (a.2.take c.2)
          | .error _ => a.1), a.2.drop c.2)) (t, b)).1 := by
    intro cs
    induction cs with
    | nil => intro t b; exact Keeps.refl _ t
    | cons c cs ih =>
      intro t b
      simp only [List.foldl_cons]
      cases t.spot c.1 true with
      | error e => exact ih t _
      | ok x => exact (State.writeRegion_keeps t x.1 x.2 _).trans (ih _ _)
  exact h _ s d

/-! ### The canonical form of memory is kept -/

theorem State.cleanRange_wf {s : State} (h : s.mem.cells.wf = true) (lo n : Nat) : (s.cleanRange lo n).mem.cells.wf = true :=
  foldl_keeps (P := fun m : Mem => m.cells.wf = true) (fun _ _ hm => Store.wf_writeN hm _) _ _ h

theorem State.invalRange_wf {s : State} (h : s.mem.cells.wf = true) (lo n : Nat) : (s.invalRange lo n).mem.cells.wf = true :=
  State.cleanRange_wf h lo n

@[simp] theorem State.wakeRange_cells (s : State) (lo n : Nat) : (s.wakeRange lo n).mem.cells = s.mem.cells := by
  unfold State.wakeRange; split <;> rfl

@[simp] theorem State.placeKey_mem (s : State) (r : Region) (off k n : Nat) : (s.placeKey r off k n).mem = s.mem := by
  unfold State.placeKey; split <;> rfl

@[simp] theorem State.combine_cells (s : State) (line : Nat) (m : BitVec 64) : (s.combine line m).mem.cells = s.mem.cells := by
  unfold State.combine
  split
  · rfl
  · simp only []; split <;> rfl

@[simp] theorem State.combineRange_cells (s : State) (lo n : Nat) : (s.combineRange lo n).mem.cells = s.mem.cells := by
  unfold State.combineRange
  split
  · rfl
  · simp only []
    split <;> split <;> simp

@[simp] theorem State.heatAccess_mem (s : State) (id off len : Nat) : (s.heatAccess id off len).mem = s.mem :=
  State.heatAccess_keeps s id off len .mem (by decide)

theorem State.writeKey_wf {s : State} (h : s.mem.cells.wf = true) (k : Nat) (d : Bytes) :
    (s.writeKey k d).mem.cells.wf = true := by
  unfold State.writeKey
  simp only [State.combineRange_cells]
  exact Store.wf_writeN (by rw [State.wakeRange_cells]; exact State.invalRange_wf h _ _) _

theorem State.readRegion_wf {s : State} (h : s.mem.cells.wf = true) (r : Region) (off len : Nat) :
    (s.readRegion r off len).2.mem.cells.wf = true := by
  unfold State.readRegion
  simp only [State.heatAccess_mem]
  exact foldl_keeps (P := fun t : State => t.mem.cells.wf = true)
    (fun t c ht => by rw [State.placeKey_mem, State.wakeRange_cells]; exact State.cleanRange_wf ht _ _) _ _ h

theorem State.writeRegion_wf {s : State} (h : s.mem.cells.wf = true) (r : Region) (off : Nat) (d : Bytes) :
    (s.writeRegion r off d).mem.cells.wf = true := by
  unfold State.writeRegion
  simp only [State.heatAccess_mem]
  exact foldl_keeps (P := fun t : State × Bytes => t.1.mem.cells.wf = true)
    (fun t c ht => by rw [State.placeKey_mem]; exact State.writeKey_wf ht _ _) _ _ h

theorem State.readVa_wf {s : State} (h : s.mem.cells.wf = true) (va len : Nat) : (s.readVa va len).2.mem.cells.wf = true := by
  refine foldl_keeps (P := fun t : Bytes × State => t.2.mem.cells.wf = true) (fun t c ht => ?_) _ _ h
  cases hx : t.2.spot c.1 false with
  | error e => exact ht
  | ok x => exact State.readRegion_wf ht x.1 x.2 c.2

theorem State.writeVa_wf {s : State} (h : s.mem.cells.wf = true) (va : Nat) (d : Bytes) :
    (s.writeVa va d).mem.cells.wf = true := by
  refine foldl_keeps (P := fun t : State × Bytes => t.1.mem.cells.wf = true) (fun t c ht => ?_) _ _ h
  cases hx : t.1.spot c.1 true with
  | error e => exact ht
  | ok x => exact State.writeRegion_wf ht x.1 x.2 _

/-! ### Replies -/

theorem Mbx.putReply_wf {m : Mbx} (h : m.cells.wf = true) (k tag status : Nat) (d : Bytes) :
    (m.putReply k tag status d).cells.wf = true :=
  Store.wf_write (Store.wf_writeN (Store.wf_writeN h _) _) _ _

/-- A reply writes the words of R487 step 5 and the payload, clears OWN, and changes no other byte of a slot. -/
theorem Mbx.putReply_read {m : Mbx} (h : m.cells.wf = true) (k tag status a : Nat) (d : Bytes) :
    (m.putReply k tag status d).cells.read a
      = if a = slotBase k + 0x38 then 0#8
        else if slotBase k + 0x840 ≤ a ∧ a < slotBase k + 0x840 + (d.take 1984).length then
          (d.take 1984).getD (a - (slotBase k + 0x840)) 0#8
        else if slotBase k + 0x800 ≤ a ∧ a < slotBase k + 0x800 + 12 then
          (leBytes 4 status ++ leBytes 4 tag ++ leBytes 4 d.length).getD (a - (slotBase k + 0x800)) 0#8
        else m.cells.read a := by
  unfold Mbx.putReply
  simp only []
  rw [Store.read_write (Store.wf_writeN (Store.wf_writeN h _) _), Store.read_writeN (Store.wf_writeN h _),
    Store.read_writeN h]
  simp [leBytes_length]

/-- A state with other slots keeps everything else. -/
theorem State.mbxOnly_keeps (s : State) (m : Mbx) : Keeps [.mbx] s { s with mbx := m } := by
  intro p hp
  cases p
  case mbx => exact absurd (List.mem_singleton.2 rfl) hp
  all_goals rfl

theorem serveUndefined_keeps : ∀ (n : Nat) (s : State), Keeps [.mbx] s (serveUndefined n s) := by
  intro n
  induction n with
  | zero => intro s; exact Keeps.refl _ s
  | succ n ih =>
    intro s
    unfold serveUndefined
    split
    · exact Keeps.refl _ s
    · split
      · simp only []
        split
        · exact Keeps.refl _ s
        · exact Keeps.trans (State.mbxOnly_keeps s _) (ih _)
      · exact Keeps.refl _ s

theorem State.drainUndefined_keeps (s : State) : Keeps [.mbx] s s.drainUndefined := serveUndefined_keeps _ s

/-- The undefined requests that are answered keep the slots canonical. -/
theorem serveUndefined_wf : ∀ (n : Nat) (s : State), s.mbx.cells.wf = true → (serveUndefined n s).mbx.cells.wf = true := by
  intro n
  induction n with
  | zero => intro s h; exact h
  | succ n ih =>
    intro s h
    unfold serveUndefined
    split
    · exact h
    · split
      · simp only []
        split
        · exact h
        · exact ih _ (Mbx.putReply_wf h _ _ _ _)
      · exact h

/-- A command whose slot is not at the front, or holds a request this row does not serve, does nothing. -/
theorem State.take_idle {s : State} {k : Nat} {mine : Req → Bool} {body : Req → State → State × Resp}
    (h : s.serves = false ∨ s.front ≠ some k ∨ mine (s.mbx.req k) = false) : s.take k mine body = s := by
  unfold State.take
  simp only []
  rw [if_pos]
  rcases h with h | h | h <;> simp [h]

/-- The state in which a command's body runs: its slot unlatched, the primary Ranger awake. -/
def State.taken (s : State) (k : Nat) : State :=
  { s with mbx := s.mbx.unlatch k, aon := { s.aon with primary := if s.aon.primary = RangerState.rom then .rom else .awake } }

theorem State.taken_preCheck (s : State) (k : Nat) (r : Req) : (s.taken k).preCheck r = s.preCheck r := rfl

/-- A command that is served, and whose request passes the checks before its own, runs its body; what the body answers
becomes the reply, but a command that must wait stays in its slot. -/
theorem State.take_served {s : State} {k : Nat} {mine : Req → Bool} {body : Req → State → State × Resp}
    (h : s.serves = true) (hf : s.front = some k) (hm : mine (s.mbx.req k) = true)
    (hp : s.preCheck (s.mbx.req k) = none) :
    s.take k mine body = match (body (s.mbx.req k) (s.taken k)).2 with
      | some (c, d) =>
        if c = cWAIT then { (body (s.mbx.req k) (s.taken k)).1 with mbx := s.mbx }
        else ((body (s.mbx.req k) (s.taken k)).1.reply k (s.mbx.req k).tag c d).drainUndefined
      | none => (body (s.mbx.req k) (s.taken k)).1 := by
  have hp' : (s.taken k).preCheck (s.mbx.req k) = none := hp
  unfold State.take
  simp only []
  rw [if_neg (by simp [h, hf, hm])]
  show (match (s.taken k).preCheck (s.mbx.req k) with
    | some c => ((s.taken k).reply k (s.mbx.req k).tag c []).drainUndefined
    | none =>
      match (body (s.mbx.req k) (s.taken k)).2 with
      | some (c, d) =>
        if c = cWAIT then { (body (s.mbx.req k) (s.taken k)).1 with mbx := s.mbx }
        else ((body (s.mbx.req k) (s.taken k)).1.reply k (s.mbx.req k).tag c d).drainUndefined
      | none => (body (s.mbx.req k) (s.taken k)).1) = _
  rw [hp']

/-! ### Attention -/

theorem dropOldest_length (c : Nat) : ∀ l : List AttnEntry, (∃ e ∈ l, e.cls = c) → (dropOldest c l).length + 1 = l.length := by
  intro l
  induction l with
  | nil => rintro ⟨e, he, _⟩; simp at he
  | cons e r ih =>
    rintro ⟨x, hx, hc⟩
    by_cases h : e.cls = c
    · simp [dropOldest, h]
    · have hr : ∃ y ∈ r, y.cls = c := by
        rcases List.mem_cons.1 hx with rfl | hr
        · exact absurd hc h
        · exact ⟨x, hr, hc⟩
      simp [dropOldest, h, ih hr]

theorem lowestClass_mem : ∀ l : List AttnEntry, l ≠ [] → ∃ e ∈ l, e.cls = lowestClass l := by
  intro l
  induction l with
  | nil => intro h; exact absurd rfl h
  | cons e r ih =>
    intro _
    cases r with
    | nil => exact ⟨e, by simp, rfl⟩
    | cons e' r' =>
      obtain ⟨x, hx, hc⟩ := ih (by simp)
      rcases Nat.le_total e.cls (lowestClass (e' :: r')) with hl | hl
      · exact ⟨e, by simp, by simp [lowestClass, hl]⟩
      · exact ⟨x, List.mem_cons_of_mem _ hx, by rw [hc]; simp [lowestClass, hl]⟩

/-- The attention list stays within its 256 entries (R500). -/
theorem Att.raise_length {a : Att} (h : a.list.length ≤ 256) (tick : BitVec 64) (cls code tag x y : Nat) :
    (a.raise tick cls code tag x y).list.length ≤ 256 := by
  unfold Att.raise
  simp only []
  split
  · simp; omega
  · split
    · have hne : a.list ≠ [] := by intro h0; simp [h0] at *
      have := dropOldest_length _ _ (lowestClass_mem a.list hne)
      simp; omega
    · exact h

/-- Every condition advances ASEQ by one (R498). -/
@[simp] theorem Att.raise_aseq (a : Att) (tick : BitVec 64) (cls code tag x y : Nat) :
    (a.raise tick cls code tag x y).aseq = a.aseq + 1 := rfl

end Sys2Proof.Machine
end

