-- ==== Sys2Proof/Laws/Memory.lean ====
section
/-! SUPPORT. Memory with undefined bytes: what a byte reads as after a write, and after a range has become undefined. -/

namespace Sys2Proof.Machine

/-- What a range of undefined bytes keeps reads as before outside the part cut out, and not at all inside it. -/
theorem FreeRange.cut_at (lo n a : Nat) (f : FreeRange) :
    (f.cut lo n).findSome? (·.at a) = if lo ≤ a ∧ a < lo + n then none else f.at a := by
  have hfil : ∀ l : List FreeRange, (l.filter (·.n != 0)).findSome? (·.at a) = l.findSome? (·.at a) := by
    intro l
    induction l with
    | nil => rfl
    | cons g r ih =>
      by_cases hg : g.n = 0
      · have : g.at a = none := by simp [FreeRange.at, hg]
        simp [hg, ih, this]
      · simp only [List.filter_cons, bne_iff_ne, ne_eq, hg, not_false_eq_true, if_true, List.findSome?_cons, ih]
  unfold FreeRange.cut
  rw [hfil]
  simp only [List.findSome?_cons, List.findSome?_nil, FreeRange.at]
  by_cases h1 : f.lo ≤ a ∧ a < f.lo + (min (f.lo + f.n) lo - f.lo)
  · have h2 : ¬ (lo ≤ a ∧ a < lo + n) := by omega
    have h3 : f.lo ≤ a ∧ a < f.lo + f.n := by omega
    simp [h1, h2, h3]
  · rw [if_neg h1]
    by_cases h2 : max f.lo (lo + n) ≤ a ∧ a < max f.lo (lo + n) + (f.lo + f.n - max f.lo (lo + n))
    · have h3 : ¬ (lo ≤ a ∧ a < lo + n) := by omega
      have h4 : f.lo ≤ a ∧ a < f.lo + f.n := by omega
      have h5 : f.off + (max f.lo (lo + n) - f.lo) + (a - max f.lo (lo + n)) = f.off + (a - f.lo) := by omega
      simp only [if_pos h2, if_neg h3, if_pos h4, h5]
    · by_cases h3 : lo ≤ a ∧ a < lo + n
      · simp only [if_neg h2, if_pos h3]
      · have h4 : ¬ (f.lo ≤ a ∧ a < f.lo + f.n) := by omega
        simp only [if_neg h2, if_neg h3, if_neg h4]

theorem FreeRange.cuts_at (lo n a : Nat) : ∀ fs : List FreeRange,
    (fs.flatMap (·.cut lo n)).findSome? (·.at a) = if lo ≤ a ∧ a < lo + n then none else fs.findSome? (·.at a) := by
  intro fs
  induction fs with
  | nil => simp
  | cons f r ih =>
    simp only [List.flatMap_cons, List.findSome?_append, FreeRange.cut_at, ih, List.findSome?_cons]
    by_cases h : lo ≤ a ∧ a < lo + n
    · simp [h]
    · simp only [if_neg h]
      cases f.at a <;> rfl

/-- The byte read after bytes are written: theirs inside the range, the old one outside. -/
theorem Mem.byte_write {m : Mem} (h : m.cells.wf = true) (k a : Nat) (d : Bytes) :
    (m.write k d).byte a = if k ≤ a ∧ a < k + d.length then d.getD (a - k) 0#8 else m.byte a := by
  unfold Mem.byte Mem.write
  simp only [FreeRange.cuts_at, Store.read_writeN h]
  by_cases hin : k ≤ a ∧ a < k + d.length <;> simp [hin]

/-- What a range reads as once part of it, or another, has become undefined. -/
theorem Mem.undefine_at (m : Mem) (k n draw a : Nat) :
    (m.undefine k n draw).free.findSome? (·.at a)
      = if k ≤ a ∧ a < k + n then some (Config.freeByte draw (a - k)) else m.free.findSome? (·.at a) := by
  show (m.free.flatMap (FreeRange.cut k n) ++ [(⟨k, n, draw, 0⟩ : FreeRange)]).findSome? (fun f : FreeRange => f.at a) = _
  rw [List.findSome?_append, FreeRange.cuts_at]
  by_cases h : k ≤ a ∧ a < k + n
  · simp [h, FreeRange.at]
  · have : (⟨k, n, draw, 0⟩ : FreeRange).at a = none := by simp only [FreeRange.at, if_neg h]
    simp only [if_neg h, List.findSome?_cons, this, List.findSome?_nil]
    cases m.free.findSome? (·.at a) <;> rfl

/-- Outside a range that has become undefined a byte reads as before. -/
theorem Mem.byte_undefine (m : Mem) (k n draw a : Nat) (h : ¬ (k ≤ a ∧ a < k + n)) :
    (m.undefine k n draw).byte a = m.byte a := by
  unfold Mem.byte
  rw [Mem.undefine_at, if_neg h]; rfl

/-- Inside it a byte is the free value of its place. -/
theorem Mem.byte_undefined (m : Mem) (k n draw a : Nat) (h : k ≤ a ∧ a < k + n) :
    (m.undefine k n draw).byte a = Config.freeByte draw (a - k) := by
  unfold Mem.byte
  rw [Mem.undefine_at, if_pos h]; rfl

/-- Where nothing is undefined memory reads as its cells. -/
theorem Mem.byte_cells {m : Mem} (h : m.free = []) (a : Nat) : m.byte a = m.cells.read a := by simp [Mem.byte, h]

@[simp] theorem Mem.undefine_cells (m : Mem) (k n draw : Nat) : (m.undefine k n draw).cells = m.cells := rfl

@[simp] theorem State.undefine_mem (s : State) (k n : Nat) :
    (s.undefine k n).mem = (s.invalRange k n).mem.undefine k n (s.invalRange k n).fresh := rfl

end Sys2Proof.Machine
end

