-- ==== Sys2Proof/Laws/Scratch.lean ====
section
/-! SUPPORT. What the scratchpad's operations do: the cells of a record, and the room that a task's partition makes. -/

namespace Sys2Proof.Machine

theorem cellIndex_lt : ∀ i < 16, ∀ j < 16, cellIndex i j < 256 := by decide

theorem sum_le_mul (n : Nat) : ∀ l : List Nat, (∀ x ∈ l, x ≤ n) → l.sum ≤ l.length * n
  | [], _ => by simp
  | x :: l, h => by
    have := sum_le_mul n l fun y hy => h y (List.mem_cons_of_mem _ hy)
    have := h x List.mem_cons_self
    simp only [List.sum_cons, List.length_cons, Nat.add_mul]
    omega

theorem cutBytes_le (n : Nat) : ∀ (k : Nat) (d : Bytes), ∀ x ∈ cutBytes n k d, x.length ≤ n
  | 0, _, _, h => by simp [cutBytes] at h
  | k + 1, d, x, h => by
    rcases List.mem_cons.mp h with rfl | h
    · simp [List.length_take]
    · exact cutBytes_le n k _ x h

/-- Cells take no more bytes than the element area they hold. -/
theorem TD.toCells_bytes (t : TD) (el : Bytes) : ((t.toCells el).map List.length).sum ≤ t.elems := by
  have hr : ∀ i, ((cutBytes (formatBits t.format) 2048 el).toArray.getD i []).length ≤ formatBits t.format := by
    intro i
    rw [Array.getD_eq_getD_getElem?, List.getElem?_toArray]
    cases h : (cutBytes (formatBits t.format) 2048 el)[i]? with
    | none => simp
    | some x => simpa using cutBytes_le _ _ _ x (List.mem_of_getElem? h)
  have h := sum_le_mul (8 * formatBits t.format) ((t.toCells el).map List.length) (by
    intro x hx
    simp only [TD.toCells, List.map_map, List.mem_map, Function.comp] at hx
    obtain ⟨n, -, rfl⟩ := hx
    rw [List.length_flatMap]
    have := sum_le_mul (formatBits t.format) ((List.range 8).map fun k => ((cutBytes (formatBits t.format) 2048 el).toArray.getD
      (if t.col then (8 * (cellAt n).2 + k) * 16 + (cellAt n).1 else (8 * (cellAt n).1 + k) * 16 + (cellAt n).2) []).length) (by
        intro y hy
        obtain ⟨k, -, rfl⟩ := List.mem_map.mp hy
        exact hr _)
    simpa using this)
  have hl : ((t.toCells el).map List.length).length = 256 := by simp [TD.toCells]
  rw [hl] at h
  simp only [TD.elems, elemBytes]
  omega

/-- Whole cells hold a whole element area. -/
theorem TD.fromCells_length (t : TD) (cells : List Bytes)
    (h : ∀ i < 256, (cells.getD i []).length = 8 * formatBits t.format) : (t.fromCells cells).length = t.elems := by
  have hm : ∀ m ∈ List.range 2048, (((cells.toArray.getD (if t.col then cellIndex (m % 16) (m / 128) else cellIndex (m / 128) (m % 16)) []).drop
      (m / 16 % 8 * formatBits t.format)).take (formatBits t.format)).length = formatBits t.format := by
    intro m hm
    have hm := List.mem_range.mp hm
    have hn : (if t.col then cellIndex (m % 16) (m / 128) else cellIndex (m / 128) (m % 16)) < 256 := by
      split <;> exact cellIndex_lt _ (by omega) _ (by omega)
    have hc := h _ hn
    rw [List.getD_eq_getElem?_getD] at hc
    rw [List.length_take, List.length_drop, Array.getD_eq_getD_getElem?, List.getElem?_toArray, hc]
    have : m / 16 % 8 * formatBits t.format ≤ 7 * formatBits t.format := Nat.mul_le_mul_right _ (by omega)
    omega
  simp only [TD.fromCells, List.length_flatMap]
  rw [List.map_congr_left hm, List.map_const', List.sum_replicate_nat]
  simp [TD.elems, elemBytes]

/-- Room made in a partition: what is kept fits, and every result and every record of another place is kept. -/
theorem Eng.room_some (a : Place) (need : Nat) : ∀ (n : Nat) (e e' : Eng), Eng.room a need n e = some e' →
    e'.used a + need ≤ e'.extent a ∧ (∀ t ∈ e.scratch, (t.isAt a = false ∨ t.result = true) → t ∈ e'.scratch)
      ∧ e' = { e with scratch := e'.scratch } := by
  intro n
  induction n with
  | zero =>
    intro e e' h
    simp only [Eng.room] at h
    split at h
    · cases h; exact ⟨‹_›, fun t ht _ => ht, rfl⟩
    · cases h
  | succ n ih =>
    intro e e' h
    simp only [Eng.room] at h
    split at h
    · cases h; exact ⟨‹_›, fun t ht _ => ht, rfl⟩
    · split at h
      · obtain ⟨h1, h2, h3⟩ := ih _ _ h
        refine ⟨h1, fun t ht hk => h2 t (List.mem_filter.mpr ⟨ht, ?_⟩) hk, h3⟩
        rcases hk with hk | hk <;> simp [ScratchTile.holds, hk]
      · cases h

theorem Eng.makeRoom_some {e e' : Eng} {a : Place} {need : Nat} (h : e.makeRoom a need = some e') :
    e'.used a + need ≤ e'.extent a ∧ (∀ t ∈ e.scratch, (t.isAt a = false ∨ t.result = true) → t ∈ e'.scratch)
      ∧ e' = { e with scratch := e'.scratch } := Eng.room_some a need _ e e' h

/-- Where there is room already, none is made. -/
theorem Eng.makeRoom_fits {e : Eng} {a : Place} {need : Nat} (h : e.used a + need ≤ e.extent a) : e.makeRoom a need = some e := by
  unfold Eng.makeRoom
  cases e.scratch.length <;> simp [Eng.room, h]

/-- A result that enters the scratchpad changes nothing else of the engines. -/
theorem State.putResult_eng (s : State) (p : Plan) (a : Place) (op mb slot : Nat) (t : TD) (c : List Nat) (f : Nat → Nat → Val) :
    (s.putResult p a op mb slot t c f).eng = { s.eng with scratch := s.eng.scratch ++ [⟨a.grove, a.task, op, mb, 0,
      (t.recordAt (t.tileIndex c)).1, t.toCells (t.encodeTile c f).1, (t.encodeTile c f).2.1, true⟩] } := by
  simp only [State.putResult, State.nonfiniteAdd, State.watchAdd, State.onStep]
  split <;> rfl

/-- What the output stage adds to the engines: records of the product's outputs. -/
def Drains (q : Prod) (e e' : Eng) : Prop :=
  ∃ l : List ScratchTile, l.length ≤ (if q.save.isSome then 2 else 1)
    ∧ (∀ u ∈ l, ∃ d c f, (d = q.d ∨ q.save = some d) ∧ u.cells = d.toCells (d.encodeTile c f).1 ∧ u.side = (d.encodeTile c f).2.1)
    ∧ e'.scratch = e.scratch ++ l ∧ e'.runs = e.runs ∧ e'.tasks = e.tasks ∧ e'.blocks.length = e.blocks.length

theorem State.putTile_eng (s : State) (p : Plan) (q : Prod) (k : Blk) (a : Place) : Drains q s.eng (s.putTile p q k a).eng := by
  unfold State.putTile
  cases s.eng.tileBlocks q k with
  | none => exact ⟨[], by simp, by simp, by simp, rfl, rfl, rfl⟩
  | some bs =>
    cases hs : q.save with
    | none =>
      simp only [State.putResult_eng]
      refine ⟨[_], by simp [hs], fun u hu => ?_, rfl, rfl, rfl, by simp⟩
      rcases List.mem_singleton.mp hu with rfl
      exact ⟨_, _, _, .inl rfl, rfl, rfl⟩
    | some d =>
      simp only [State.putResult_eng]
      refine ⟨[_, _], by simp [hs], fun u hu => ?_, List.append_assoc _ [_] [_], rfl, rfl, by simp⟩
      rcases List.mem_cons.mp hu with rfl | hu
      · exact ⟨_, _, _, .inl rfl, rfl, rfl⟩
      · rcases List.mem_singleton.mp hu with rfl
        exact ⟨_, _, _, .inr hs, rfl, rfl⟩

/-- A block drained: the engines keep their runs, tasks and number of blocks, and the scratchpad gains records of the
product's outputs. -/
theorem State.drainBlock_eng (s : State) (p : Plan) (q : Prod) (k : Blk) (b : Block) (cols : Option Loaded) :
    Drains q s.eng (s.drainBlock p q k b cols).eng := by
  have key : ∀ s' : State, s'.eng.scratch = s.eng.scratch → s'.eng.runs = s.eng.runs → s'.eng.tasks = s.eng.tasks →
      s'.eng.blocks.length = s.eng.blocks.length → Drains q s.eng (s'.putTile p q k b.place).eng := by
    intro s' e1 e2 e3 e4
    obtain ⟨l, h1, h2, h3, h4, h5, h6⟩ := s'.putTile_eng p q k b.place
    exact ⟨l, h1, h2, h3.trans (by rw [e1]), h4.trans e2, h5.trans e3, h6.trans e4⟩
  have h0 : ∀ lvl : Nat, (if lvl = 0 then s else s.count (0x002 + lvl) b.place.grove).eng = s.eng := by
    intro lvl
    by_cases h : lvl = 0 <;> simp only [h, if_true, if_false, State.count]
  unfold State.drainBlock
  extract_lets o lvl s1 s2 b'
  have h2 : s2.eng = s.eng := h0 lvl
  have e1 : s2.eng.scratch = s.eng.scratch := congrArg Eng.scratch h2
  have e2 : s2.eng.runs = s.eng.runs := congrArg Eng.runs h2
  have e3 : s2.eng.tasks = s.eng.tasks := congrArg Eng.tasks h2
  have e4 : s2.eng.blocks.length = s.eng.blocks.length := congrArg (fun e => e.blocks.length) h2
  exact key _ e1 e2 e3 ((List.length_map _).trans e4)

end Sys2Proof.Machine
end

