-- ==== Sys2Proof/Tests/Base.lean ====
section
/-! SUPPORT. The small states that the tests start from, and how they are seen to meet the hypotheses of the statements. -/

namespace Sys2Proof.Tests

open Sys2Proof Sys2Proof.Machine

/-- A STACK region of 1 GiB on stack 0, mapped writable at 0x4000_0000, with id 0. -/
def stackRegion : Region :=
  { id := 0, kind := 0, mode := 2, target := 0, pages := 16384, t2Pages := 0, hostBase := 0, part := 0, cache := 0,
    hdmOff := 0, map := some ⟨0x40000000, true, false⟩, reg := none, stale := false, inT2 := [], pinned := [], heat := [],
    shared := [], flipping := [] }

/-- A TIERED region of 1 GiB with four pages of T2 on stack 1, mapped writable at 0x8000_0000, with id 1; page 0 is in
T2. -/
def tieredRegion : Region :=
  { stackRegion with id := 1, kind := 1, target := 1, t2Pages := 4, hostBase := 0x100000000, map := some ⟨0x80000000, true, false⟩, inT2 := [0] }

/-- A READY device with the host link up, alone at fabric address 0, with the two regions and the tables that map them. -/
def base : State :=
  { State.reset with
    aon := { Aon.reset with pwrgd := true, resetN := true, perstN := true, faultN := true, tick := 1000, tickOn := true, primary := .awake, mate := .awake }
    dev := { Dev.reset with mode := .ready, serving := true }
    hst := { Hst.reset with link := .up, width := 16, helloSeen := true }
    rgn := { Rgn.reset with regions := [stackRegion, tieredRegion], tables := [(2 ^ 20, 4096)], tbl := [(0, 1#8), (2, 0x10#8), (2 ^ 20 + 8, 7#8), (2 ^ 20 + 16, 7#8), (2 ^ 20 + 23, 4#8)] }
    fab := { Fab.reset with fs := .ready, addr := some 0, sx := 1, sy := 1, sz := 1, members := some [0] } }

/-- The state with a request in a slot, handed over and first in the queue. -/
def ask (s : State) (k op : Nat) (pay : Bytes) : State :=
  { s with mbx := { s.mbx with latch := [k], cells := ((s.mbx.cells.writeN (slotBase k) (leBytes 2 op ++ zeros 2 ++ leBytes 4 7 ++ leBytes 4 pay.length)).writeN (slotBase k + 0x40) pay).write (slotBase k + 0x38) 1#8 } }

/-- The invariant as a check. -/
def invB (s : State) : Bool :=
  s.mem.cells.wf && s.mbx.cells.wf && s.rgn.tbl.wf && s.obs.trace.wf && decide (s.att.list.length ≤ 256)
    && (s.coh.cached ++ s.coh.wbs).all (fun c => c.data.length == 64)
    && (s.coh.txns ++ s.coh.waiting).all (fun t => t.op.fits)
    && decide (s.rgn.regions.map (·.id)).Nodup
    && s.rgn.regions.all (fun r => decide (r.id < 64) && decide (r.pages ≤ 2 ^ 26))

theorem inv {s : State} (h : invB s = true) : s.Inv := by
  simp only [invB, Bool.and_eq_true, decide_eq_true_eq, List.all_eq_true, beq_iff_eq] at h
  obtain ⟨⟨⟨⟨⟨⟨⟨⟨h1, h2⟩, h3⟩, h4⟩, h5⟩, h6⟩, h7⟩, h8⟩, h9⟩ := h
  exact ⟨h1, h2, h3, h4, h5, h6, h7, h8, h9⟩

/-- That a request is served, as a check. -/
def servedB (s : State) (k : SlotId) (op : Nat) : Bool :=
  s.serves && s.front == some k.val && (s.mbx.req k).opcode == op && (s.preCheck (s.mbx.req k)).isNone

theorem served {s : State} {k : SlotId} {op : Nat} (h : servedB s k op = true) : IsServed s k op := by
  simp only [servedB, Bool.and_eq_true, beq_iff_eq, Option.isNone_iff_eq_none] at h
  exact ⟨h.1.1.1, h.1.1.2, h.1.2, h.2⟩

/-- That a range is accessible, as a check. -/
def accB (s : State) (va len : Nat) (store : Bool) : Bool :=
  (chunksOf va len).all (fun c =>
      match s.rgn.byVa c.1, s.xlate c.1 store with
      | some x, .ok y => x == y
      | _, _ => false)
    && s.access va len store == .ok && !s.vaStopped va len

theorem acc {s : State} {va len : Nat} {store : Bool} (h : accB s va len store = true) : Accessible s va len store := by
  simp only [accB, Bool.and_eq_true, List.all_eq_true, beq_iff_eq, Bool.not_eq_true'] at h
  refine ⟨fun c hc => ?_, h.1.2, h.2⟩
  have hx := h.1.1 c hc
  cases h1 : s.rgn.byVa c.1 with
  | none => simp [h1] at hx
  | some x =>
    cases h2 : s.xlate c.1 store with
    | error e => simp [h1, h2] at hx
    | ok y =>
      simp only [h1, h2, beq_iff_eq] at hx
      exact ⟨x.1, x.2, rfl, by rw [hx]⟩

theorem base_inv : base.Inv := inv (by decide +kernel)

theorem base_maps : Accessible base 0x40000000 33554496 true := acc (by decide +kernel)

end Sys2Proof.Tests
end

