-- ==== Sys2Proof/Tests/Power.lean ====
section
/-! SUPPORT. States that meet the hypotheses of the statements about the machine as a whole, power, mailboxes and the
session: one theorem per clause. -/

set_option Elab.async false

namespace Sys2Proof.Tests

open Sys2Proof Sys2Proof.Machine

/-! ### The machine as a whole -/

theorem wit_StepRunsFront : ({ base with pending := [.heatDecay, .pwrgdFall] } : State).pending = .heatDecay :: [.pwrgdFall] := rfl

theorem wit_IdleStep : base.pending = [] ∧ base.aon.tickOn = true := ⟨rfl, rfl⟩

theorem wit_StepKeepsInv : base.Inv ∧ ∃ t, step { base with pending := [.pwrgdFall] } = .next t := ⟨base_inv, _, rfl⟩

/-! ### Firmware images -/

/-- A firmware image with a payload and a manifest of one byte, signed with Ed25519 by the key of the seed 01 00 … 00
(R586); the signature comes from RFC 8032's procedure. -/
def image : Bytes :=
  leBytes 4 0x46574C31 ++ leBytes 1 1 ++ zeros 2 ++ leBytes 1 1 ++ leBytes 4 7 ++ leBytes 4 3 ++ leBytes 1 1 ++ zeros 3
    ++ leBytes 4 1 ++ leBytes 4 1 ++ zeros 4
    ++ leBytes 32 114357819437381932551506943292233391401526845028636896338274259687389550464206
    ++ leBytes 64 588166800852885357198460576652009231380653914695556628861000190406939807206296316289117892092872332675244390200892836766138873136516377310314315387258535
    ++ zeros 128 ++ [1#8, 2#8]

/-- SHA-512 of the image's key, as key slot 0 fuses it (R585). -/
def keyDigest : Bytes :=
  leBytes 64 11602301618116875357599851203023165291458242288035952679043416532792116688310047713034219557566258869707341402655346503005996323153833208418299453727569034

theorem image_format : imageFormat image = true := by decide +kernel

theorem image_key : sha512 ((image.drop 0x20).take 32) = keyDigest := by decide +kernel

theorem image_signed : edVerify ((image.drop 0x20).take 32) (imageDigest image) ((image.drop 0x40).take 64) = true := by
  decide +kernel

/-- Fuses that permit the image, which is in both banks. -/
def fused : Aon := { base.aon with fzKeys := [keyDigest, [], [], []], banks := [image, image] }

theorem image_verifies (a : Aon) (hk : a.fzKeys.getD (imgSlot image) [] = keyDigest)
    (hr : a.fzRevoke.getLsbD (imgSlot image) = false) (hb : a.rollback ≤ 3) : a.verifyImage image = none := by
  have h1 : byteAt image 7 = 1 := by decide +kernel
  have h2 : byteAt image 0x10 = 1 := by decide +kernel
  have h3 : imgRollback image = 3 := by decide +kernel
  unfold Aon.verifyImage
  simp only [image_format, image_key, image_signed, hk, hr, h1, h2, h3]
  simp
  omega

theorem fused_verifies : fused.verifyImage image = none :=
  image_verifies fused (by decide +kernel) (by decide +kernel) (by decide +kernel)

/-- A start in which nothing answers and no unit fails. -/
def quiet : StartInputs := { carrier := none, power := none, modules := [], failed := [], stall := none }

/-! ### Power -/

theorem wit_PwrgdEdges : State.reset.aon.pwrgd = false ∧ base.aon.pwrgd = true ∧ base.mem.cells.wf = true := by decide +kernel

/-- PWRGD has risen, RESET_N is low. -/
def armed : State := { State.reset with aon := { fused with coldArmed := true, resetN := false } }

theorem wit_ColdStartReady : armed.aon.pwrgd = true ∧ armed.aon.coldArmed = true ∧ armed.aon.resetN = false ∧ StartsClean armed quiet := by
  refine ⟨rfl, rfl, rfl, Or.inl ?_, rfl, rfl⟩
  have h : armed.aon.banks.getD armed.aon.selectedBank [] = image := by decide +kernel
  rw [h, image_verifies armed.aon (by decide +kernel) (by decide +kernel) (by decide +kernel)]
  rfl

theorem wit_WarmResetHalts_ready : base.aon.pwrgd = true ∧ base.aon.resetN = true ∧ base.dev.failCause ≠ some .thermal
    ∧ base.aon.tickOn = true ∧ base.dev.mode = .ready ∧ base.dev.starting = none := by decide +kernel

/-- A cold start that waits at step 9. -/
def starting : State := { base with dev := { base.dev with mode := .boot, starting := some ⟨9, true⟩ } }

theorem wit_WarmResetHalts_cold : starting.aon.pwrgd = true ∧ starting.aon.resetN = true
    ∧ starting.dev.failCause ≠ some .thermal ∧ starting.aon.tickOn = true ∧ starting.startingUp = some ⟨9, true⟩ := by
  decide +kernel

/-- The fused machine with a request of the host in slot 0. -/
def fusedAsk (op : Nat) (pay : Bytes) : State := ask { base with aon := fused } 0 op pay

theorem fused_starts (op : Nat) (pay : Bytes) : StartsClean (fusedAsk op pay) quiet := by
  refine ⟨Or.inl ?_, rfl, rfl⟩
  show (fused.verifyImage (fused.banks.getD fused.selectedBank [])).isNone = true
  have h : fused.banks.getD fused.selectedBank [] = image := by decide +kernel
  rw [h, fused_verifies]
  rfl

/-- DEVICE_RESET of kind WARM with its confirmation word. -/
def askWarm : State := fusedAsk 0x0105 (leBytes 4 0x52535430 ++ [1#8, 0#8, 0#8, 0#8])

theorem wit_WarmResetByCommand_reset : IsServed askWarm 0 0x0105 ∧ drKind (askWarm.asks 0) = 1
    ∧ drOk (askWarm.asks 0) = true ∧ StartsClean askWarm quiet ∧ askWarm.aon.resetN = true
    ∧ askWarm.stp.active = none ∧ askWarm.stp.resume = none ∧ NoneInterrupted askWarm :=
  ⟨served (by decide +kernel), by decide +kernel, by decide +kernel, fused_starts _ _, rfl, rfl, rfl, fun _ h => nomatch h⟩

/-- FW_ACTIVATE of version 7. -/
def askActivate : State := fusedAsk 0x0904 (leBytes 4 7 ++ zeros 4)

theorem wit_WarmResetByCommand_activate : IsServed askActivate 0 0x0904 ∧ (askActivate.asks 0).zb 4 4 = true
    ∧ askActivate.stagedImage = some image ∧ imgVersion image = (askActivate.asks 0).f 0 4
    ∧ askActivate.stepActive = false ∧ askActivate.aon.resetN = true ∧ askActivate.aon.selCopies.length = 2
    ∧ (∀ c ∈ askActivate.aon.selCopies, c.seq + 1 < 2 ^ 32) ∧ quiet.failed = [] ∧ quiet.stall = none ∧ askActivate.stp.resume = none := by
  refine ⟨served (by decide +kernel), by decide +kernel, ?_, by decide +kernel, by decide +kernel, rfl, by decide +kernel,
    by decide +kernel, rfl, rfl, rfl⟩
  have h : askActivate.aon.banks.getD askActivate.idleBank [] = image := by decide +kernel
  have hv : askActivate.aon.verifyImage image = none := fused_verifies
  unfold State.stagedImage
  simp only [h, hv]
  rfl

theorem wit_FusesBlow : (runningOf 0 image).rollback ≤ 128 ∧ (runningOf 0 image).keySlot < 4 := by decide +kernel

theorem wit_ThermalStates : base.aon.tickOn = true ∧ (∀ n, ThermalBlock.canopy 2 ≠ .stack n)
    ∧ ThermalBlock.canopy 2 ∉ base.aon.halved ∧ 840 < 2 ^ 32 ∧ base.stp.active = none
    ∧ ThermalBlock.canopy 2 ∉ base.aon.stopped ∧ (ThermalBlock.canopy 2).critical ≤ 920 := by
  refine ⟨rfl, fun n => by simp, by decide +kernel, by decide, rfl, by decide +kernel, by decide +kernel⟩

theorem wit_ThermalStates_restore : ThermalBlock.canopy 2 ∈ ({ base with aon := { base.aon with halved := [.canopy 2] } } : State).aon.halved
    ∧ 775 < 776 := by decide +kernel

theorem wit_LowPowerEntry : base.clocks = true ∧ LowPowerBlock.groveClock 5 ∉ base.aon.lowPower ∧ base.groveIdle 5 = true
    ∧ base.gld.lanes.get (3 : Fin 32).val = none ∧ (base.cor.core (7 : Fin 96)).running = false
    ∧ LowPowerBlock.sapling 1 ∉ base.aon.lowPower ∧ LowPowerBlock.lane 3 ∉ base.aon.lowPower
    ∧ LowPowerBlock.core 7 ∉ base.aon.lowPower := by decide +kernel

/-- A Grove whose clock is off. -/
def gated : State := { base with aon := { base.aon with lowPower := [.groveClock 5] } }

theorem wit_LowPowerEntry_gate : gated.clocks = true ∧ LowPowerBlock.grovePower 5 ∉ gated.aon.lowPower
    ∧ gated.groveIdle 5 = true ∧ LowPowerBlock.groveClock 5 ∈ gated.aon.lowPower := by decide +kernel

theorem wit_LowPowerEntry_ranger : base.clocks = true ∧ LowPowerBlock.ranger 0 ∉ base.aon.lowPower ∧ base.mbx.latch = []
    ∧ base.mbx.prog = none ∧ base.stp.active = none ∧ base.stp.resume = none
    ∧ (if (0 : Fin 2) = 0 then base.aon.primary else base.aon.mate) = .awake
    ∧ (if (1 : Fin 2) = 0 then base.aon.primary else base.aon.mate) = .awake := by decide +kernel

theorem wit_LowPowerEntry_stack : base.powered = true ∧ base.dev.mode = .ready ∧ base.dev.starting = none
    ∧ (23 : Fin 24).val ∉ base.mem.selfRefresh ∧ ThermalBlock.stack 23 ∉ base.aon.stopped := by decide +kernel

/-- A bridge group whose transfer 7 has failed 16 times in a row. -/
def bridgeLast : State := { base with dev := { base.dev with bridgeFails := [(3, (7, 16))] } }

theorem wit_UnitsFail : base.powered = true ∧ base.dev.mode = .ready ∧ base.stp.active = none ∧ base.stp.waitVerdict = []
    ∧ (⟨uStack, 3⟩ : UnitRef).wf = true ∧ crcRow base 3 7 ≠ 17 ∧ bridgeLast.powered = true ∧ crcRow bridgeLast 3 7 = 17
    ∧ crcRow bridgeLast 3 8 = 1 ∧ starting.startingUp = some ⟨9, true⟩ ∧ starting.powered = true
    ∧ ∀ e ∈ [(⟨⟨uStack, 3⟩, 2⟩ : SelfTestEntry)], e.unit.wf = true := by decide +kernel

/-! ### Mailboxes and the session -/

/-- A request of the host in slot 3, written and not yet handed over. -/
def written : State := { ask base 3 0x0102 [] with mbx := { (ask base 3 0x0102 []).mbx with latch := [], cells := ((ask base 3 0x0102 []).mbx.cells.write (slotBase 3 + 0x38) 0#8) } }

theorem wit_HandOverLatches : written.Inv ∧ written.aon.tickOn = true ∧ written.hst.link = .up ∧ written.mbx.own (3 : SlotId) = false
    ∧ (written.mbx.req 3).opcode ∈ opcodes ∧ written.mbx.latch = [] :=
  ⟨inv (by decide +kernel), by decide +kernel⟩

theorem wit_HandOverLatches_owned : (ask base 3 0x0102 []).Inv ∧ (ask base 3 0x0102 []).aon.tickOn = true
    ∧ (ask base 3 0x0102 []).hst.link = .up ∧ (ask base 3 0x0102 []).mbx.own (3 : SlotId) = true :=
  ⟨inv (by decide +kernel), by decide +kernel⟩

theorem wit_SlotWrites : base.Inv ∧ slotBase 3 + 0x40 = 0x3040 ∧ base.hst.link = .up ∧ base.powered = true
    ∧ bar0SizeOk 0x3040 64 true = true ∧ base.mbx.own 3 = false ∧ bar0SizeOk 0x3000 4 true = true
    ∧ bar0SizeOk 0x3800 8 true = true ∧ (ask base 3 0x0102 []).mbx.own 3 = true :=
  ⟨base_inv, by decide +kernel⟩

theorem wit_SlotWrites_core : base.mbx.own (64 + 95) = false ∧ (8 = 4 ∨ 8 = 8) ∧ 0x40 % 8 = 0 ∧ 0x40 + 8 ≤ 0x800
    ∧ (5 : Fin 96) ≠ 6 ∧ 4095 < 4096 := by decide +kernel

theorem wit_SlotWrites_read : (8 = 4 ∨ 8 = 8) ∧ 0xFF8 % 8 = 0 ∧ 0xFF8 + 8 ≤ 4096 ∧ 63 < 64 ∧ base.hst.link = .up ∧ base.powered = true := by
  decide +kernel

/-- HELLO of major version 1 from the host. -/
def hello1 : Bytes := [0#8, 1#8, 0#8, 0#8, 0#8, 0#8, 0#8, 0#8]

theorem wit_SessionReplies_hello : (ask base 0 0x0101 hello1).Inv ∧ IsServed (ask base 0 0x0101 hello1) 0 0x0101
    ∧ ((ask base 0 0x0101 hello1).asks 0).f 1 1 = 1 ∧ ((ask base 0 0x0101 hello1).asks 0).rz 2 2 15 1 = true
    ∧ ((ask base 0 0x0101 hello1).asks 0).zb 4 4 = true ∧ ((ask base 0 0x0101 hello1).asks 0).fromCore = false
    ∧ (ask base 0 0x0101 hello1).hst.helloSeen = true :=
  ⟨inv (by decide +kernel), served (by decide +kernel), by decide +kernel⟩

/-- The link has come back, and the host's regions are stale. -/
def linkBack : State :=
  ask { base with hst := { base.hst with helloSeen := false }, rgn := { base.rgn with regions := [stackRegion, { tieredRegion with stale := true }] } } 0 0x0101 hello1

theorem wit_SessionReplies_back : linkBack.Inv ∧ IsServed linkBack 0 0x0101 ∧ (linkBack.asks 0).f 1 1 = 1
    ∧ (linkBack.asks 0).rz 2 2 15 1 = true ∧ (linkBack.asks 0).zb 4 4 = true ∧ (linkBack.asks 0).fromCore = false
    ∧ linkBack.hst.helloSeen = false :=
  ⟨inv (by decide +kernel), served (by decide +kernel), by decide +kernel⟩

theorem wit_SessionReplies_info : (ask base 159 0x0102 []).Inv ∧ IsServed (ask base 159 0x0102 []) 159 0x0102 :=
  ⟨inv (by decide +kernel), served (by decide +kernel)⟩

/-- A device with two conditions pending, and QUERY that acknowledges the first of them and asks after tag 9. -/
def asksQuery : State :=
  ask { base with att := ⟨2, [⟨1, 2, 0, noTag, 5, 0, 0⟩, ⟨2, 9, 0, noTag, 6, 0, 0⟩]⟩ } 0 0x0103 (leBytes 4 9 ++ leBytes 2 1 ++ leBytes 2 1 ++ zeros 8)

theorem wit_SessionReplies_query : asksQuery.Inv ∧ IsServed asksQuery 0 0x0103 ∧ (asksQuery.asks 0).rz 6 2 15 1 = true
    ∧ (asksQuery.asks 0).zb 0x0A 6 = true ∧ (asksQuery.asks 0).fromCore = false ∧ bit ((asksQuery.asks 0).f 6 2) 0 = true
    ∧ (asksQuery.asks 0).f 0 4 ≠ noTag :=
  ⟨inv (by decide +kernel), served (by decide +kernel), by decide +kernel⟩

/-- A step with its fields at their least values. -/
def step0 (tag plan ring : Nat) (st : WordState) : Step :=
  { tag := tag, plan := plan, ring := ring, attempt := 0, replay := false, fromAttempt := 0, source := [], verdictFree := false,
    st := st, round := 0, stamp := 0, lsExp := 0, insts := [], phases := [], entries := [], watch := [], crossings := [],
    nonfinite := [], disputes := [], holdCode := 0, released := false, stopped := false, k := none, vround := none, last := none,
    resumed := false, digests := [], diverged := 0, tick := 0 }

/-- A queued step with tag 9, and ABORT of it. -/
def abortQueued : State :=
  ask { base with stp := { base.stp with queued := some (step0 9 1 1 .queued), words := [⟨9, .queued⟩] } } 0 0x0104 (leBytes 4 9 ++ zeros 4)

theorem wit_AbortEnds_queued : abortQueued.Inv ∧ IsServed abortQueued 0 0x0104 ∧ (abortQueued.asks 0).zb 4 4 = true
    ∧ 9 = (abortQueued.asks 0).f 0 4 ∧ abortQueued.dma.byTag 9 = none ∧ abortQueued.stp.queued = some (step0 9 1 1 .queued)
    ∧ (step0 9 1 1 .queued).tag = 9 ∧ abortQueued.stp.words.find? (·.tag == 9) = some ⟨9, .queued⟩ :=
  ⟨inv (by decide +kernel), served (by decide +kernel), by decide +kernel⟩

/-- A step that is done, and ABORT of it. -/
def abortDone : State := ask { base with stp := { base.stp with words := [⟨9, .done 0⟩] } } 0 0x0104 (leBytes 4 9 ++ zeros 4)

theorem wit_AbortEnds_done : abortDone.Inv ∧ IsServed abortDone 0 0x0104 ∧ (abortDone.asks 0).zb 4 4 = true
    ∧ 9 = (abortDone.asks 0).f 0 4 ∧ abortDone.dma.byTag 9 = none
    ∧ abortDone.stp.words.find? (·.tag == 9) = some ⟨9, .done 0⟩ :=
  ⟨inv (by decide +kernel), served (by decide +kernel), by decide +kernel⟩

/-- A transfer of 4,096 bytes between two places of the STACK region. -/
def move1 (tag : Nat) : DmaSet :=
  { DmaSet.reset with src := 0x40000000, dst := 0x40010000, len := 4096, tag := tag, valid := true }

/-- Channel 127 with a transfer active and another waiting, and ABORT of one of them. -/
def abortDma (tag : Nat) (shadow : DmaSet) : State :=
  ask { base with dma := { chans := [(127, { Chan.reset with state := 1, active := move1 8, shadow := shadow })] } } 0 0x0104 (leBytes 4 tag ++ zeros 4)

theorem wit_AbortEnds_waiting : (abortDma 9 (move1 9)).Inv ∧ IsServed (abortDma 9 (move1 9)) 0 0x0104
    ∧ ((abortDma 9 (move1 9)).asks 0).zb 4 4 = true ∧ 9 = ((abortDma 9 (move1 9)).asks 0).f 0 4
    ∧ (abortDma 9 (move1 9)).stp.words.find? (·.tag == 9) = none ∧ (abortDma 9 (move1 9)).dma.byTag 9 = some (127, false)
    ∧ ((abortDma 9 (move1 9)).dma.ch 127).shadow.ended = false :=
  ⟨inv (by decide +kernel), served (by decide +kernel), by decide +kernel⟩

theorem wit_AbortEnds_running : (abortDma 8 DmaSet.reset).Inv ∧ IsServed (abortDma 8 DmaSet.reset) 0 0x0104
    ∧ ((abortDma 8 DmaSet.reset).asks 0).zb 4 4 = true ∧ 8 = ((abortDma 8 DmaSet.reset).asks 0).f 0 4
    ∧ (abortDma 8 DmaSet.reset).stp.words.find? (·.tag == 8) = none
    ∧ (abortDma 8 DmaSet.reset).dma.byTag 8 = some (127, true)
    ∧ ((abortDma 8 DmaSet.reset).dma.ch 127).active.ended = false ∧ ((abortDma 8 DmaSet.reset).dma.ch 127).shadow.valid = false :=
  ⟨inv (by decide +kernel), served (by decide +kernel), by decide +kernel⟩

/-- DEVICE_RESET of kind CONTEXT. -/
def askContext : State := ask base 0 0x0105 (leBytes 4 0x52535430 ++ zeros 4)

theorem wit_ContextReset : askContext.Inv ∧ IsServed askContext 0 0x0105 ∧ drKind (askContext.asks 0) = 0
    ∧ drOk (askContext.asks 0) = true ∧ askContext.stepActive = false ∧ askContext.stp.queued = none
    ∧ askContext.hst.held = [] :=
  ⟨inv (by decide +kernel), served (by decide +kernel), by decide +kernel⟩

end Sys2Proof.Tests
end

