-- ==== Sys2Proof/Tests/Memory.lean ====
section
/-! SUPPORT. States that meet the hypotheses of the statements about observation, identity, cores, regions, DMA, coherence,
memory controllers, the host port and the adapters: one theorem per clause. -/

set_option Elab.async false

namespace Sys2Proof.Tests

open Sys2Proof Sys2Proof.Machine

/-! ### Observation -/

/-- CTR_CONFIG of counter 0 (event 0 of every Grove) and of counter 1023 (chained to nothing that counts). -/
def ctrEntries : List Nat := [0xFFFF000400 + 0, 1023 + 0x800]

def asksCtr : State := ask base 0 0x0801 (leBytes 2 2 ++ zeros 14 ++ ctrEntries.flatMap (leBytes 8))

theorem wit_CountersKept_config : asksCtr.Inv ∧ IsServed asksCtr 0 0x0801 ∧ 1 ≤ ctrEntries.length ∧ ctrEntries.length ≤ 246
    ∧ (asksCtr.asks 0).f 0 2 = ctrEntries.length ∧ (asksCtr.asks 0).zb 2 14 = true
    ∧ ctrEntries = ((List.range ctrEntries.length).map fun i => (asksCtr.asks 0).f (0x10 + 8 * i) 8)
    ∧ ctrEntries.all ctrEntryOk = true ∧ selectorsOk (applyEntries asksCtr.obs.ctrs ctrEntries) = true
    ∧ ctrEntries = [] ++ 0xFFFF000400 :: [1023 + 0x800] ∧ ctrOf 0xFFFF000400 ∉ [1023 + 0x800].map ctrOf :=
  ⟨inv (by decide +kernel), served (by decide +kernel), by decide +kernel⟩

/-- CTR_SNAPSHOT into slot 15, without and with an address. -/
def asksSnap (va : Nat) : State := ask { base with obs := { base.obs with ctrs := [(5, ⟨1, 0x003, 0xFFFF, 17, false⟩)] } } 0 0x0802 ([15#8] ++ zeros 7 ++ leBytes 8 va)

theorem wit_CountersKept_snapshot : (asksSnap 0).Inv ∧ IsServed (asksSnap 0) 0 0x0802 ∧ 0 = ((asksSnap 0).asks 0).f 8 8
    ∧ ((asksSnap 0).asks 0).rz 0 1 7 4 = true ∧ ((asksSnap 0).asks 0).zb 1 7 = true ∧ vaOk 0 = true ∧ 0 % 64 = 0
    ∧ ctrFree (asksSnap 0).obs.ctrs 1024 5 = false :=
  ⟨inv (by decide +kernel), served (by decide +kernel), by decide +kernel⟩

theorem wit_CountersKept_copy : (asksSnap 0x40000040).Inv ∧ IsServed (asksSnap 0x40000040) 0 0x0802
    ∧ 0x40000040 = ((asksSnap 0x40000040).asks 0).f 8 8 ∧ ((asksSnap 0x40000040).asks 0).rz 0 1 7 4 = true
    ∧ ((asksSnap 0x40000040).asks 0).zb 1 7 = true ∧ vaOk 0x40000040 = true ∧ 0x40000040 % 64 = 0
    ∧ ((asksSnap 0x40000040).rgn.inWritable 0x40000040 8256).isSome = true ∧ Accessible (asksSnap 0x40000040) 0x40000040 8256 true :=
  ⟨inv (by decide +kernel), served (by decide +kernel), by decide +kernel, by decide +kernel, by decide +kernel,
    by decide +kernel, by decide +kernel, by decide +kernel, acc (by decide +kernel)⟩

/-- TRACE_CONFIG with an action, classes 0 and 5, and an address. -/
def asksTrace (action va : Nat) : State :=
  ask base 0 0x0803 (leBytes 1 action ++ zeros 1 ++ leBytes 2 0x21 ++ zeros 4 ++ leBytes 8 va ++ zeros 48)

theorem wit_Tracing_set : (asksTrace 0 0).Inv ∧ IsServed (asksTrace 0 0) 0 0x0803 ∧ traceOk ((asksTrace 0 0).asks 0) = true
    ∧ bits (((asksTrace 0 0).asks 0).f 0 1) 1 0 = 0 ∧ ((asksTrace 0 0).asks 0).f 8 8 = 0 ∧ (asksTrace 0 0).obs.sampler = none :=
  ⟨inv (by decide +kernel), served (by decide +kernel), by decide +kernel⟩

theorem wit_Tracing_stop : (asksTrace 1 0).Inv ∧ IsServed (asksTrace 1 0) 0 0x0803 ∧ traceOk ((asksTrace 1 0).asks 0) = true
    ∧ bits (((asksTrace 1 0).asks 0).f 0 1) 1 0 = 1 ∧ ((asksTrace 1 0).asks 0).f 8 8 = 0 :=
  ⟨inv (by decide +kernel), served (by decide +kernel), by decide +kernel⟩

theorem wit_Tracing_copy : (asksTrace 2 0x40000000).Inv ∧ IsServed (asksTrace 2 0x40000000) 0 0x0803
    ∧ traceOk ((asksTrace 2 0x40000000).asks 0) = true ∧ bits (((asksTrace 2 0x40000000).asks 0).f 0 1) 1 0 = 2
    ∧ (asksTrace 2 0x40000000).obs.trkRun ≠ 1 ∧ 0x40000000 = ((asksTrace 2 0x40000000).asks 0).f 8 8 ∧ 0x40000000 % 64 = 0
    ∧ ((asksTrace 2 0x40000000).rgn.inWritable 0x40000000 33554496).isSome = true
    ∧ Accessible (asksTrace 2 0x40000000) 0x40000000 33554496 true :=
  ⟨inv (by decide +kernel), served (by decide +kernel), by decide +kernel, by decide +kernel, by decide +kernel,
    by decide +kernel, by decide +kernel, by decide +kernel, acc (by decide +kernel)⟩

/-- SAMPLE_CONFIG with SC_EN 1: every load of 16 Groves of each half, with a buffer of the least size. -/
def asksSample : State :=
  ask base 0 0x0804 (leBytes 1 0x5 ++ zeros 3 ++ leBytes 4 1 ++ leBytes 8 0x40000000 ++ leBytes 8 96 ++ leBytes 8 0xFFFF
    ++ leBytes 8 (0xFFFF * 2 ^ 32) ++ leBytes 8 0)

theorem wit_Sampling_start : asksSample.Inv ∧ IsServed asksSample 0 0x0804
    ∧ (∃ r, asksSample.rgn.inWritable 0x40000000 96 = some r ∧ r.kind = 0) ∧ Accessible asksSample 0x40000000 96 true ∧ bit ((asksSample.asks 0).f 0 1) 0 = true
    ∧ 0x40000000 = (asksSample.asks 0).f 8 8 ∧ 96 = (asksSample.asks 0).f 0x10 8 ∧ (asksSample.asks 0).rz 0 1 7 4 = true
    ∧ (asksSample.asks 0).zb 1 3 = true ∧ vaOk 0x40000000 = true ∧ 1 ≤ (asksSample.asks 0).f 4 4
    ∧ (asksSample.asks 0).f 4 4 ≤ 16777216 ∧ 0x40000000 % 64 = 0 ∧ 96 % 32 = 0 ∧ 96 ≤ 96
    ∧ (bit ((asksSample.asks 0).f 0 1) 2 = true ∨ bit ((asksSample.asks 0).f 0 1) 3 = true)
    ∧ ((sampleGroves (asksSample.asks 0)).filter (· < 96)).length ≤ 16
    ∧ ((sampleGroves (asksSample.asks 0)).filter (96 ≤ ·)).length ≤ 16 ∧ asksSample.obs.trkRun ≠ 1 :=
  ⟨inv (by decide +kernel), served (by decide +kernel), ⟨stackRegion, by decide +kernel, rfl⟩, acc (by decide +kernel),
    by decide +kernel⟩

theorem wit_Sampling_stop : (ask base 0 0x0804 (zeros 48)).Inv ∧ IsServed (ask base 0 0x0804 (zeros 48)) 0 0x0804
    ∧ ((ask base 0 0x0804 (zeros 48)).asks 0).zb 0 48 = true :=
  ⟨inv (by decide +kernel), served (by decide +kernel), by decide +kernel⟩

/-! ### Identity, firmware and cores -/

def asksAttest : State := ask base 64 0x0901 ([1#8] ++ zeros 39)

theorem wit_IdentityReads_attest : asksAttest.Inv ∧ IsServed asksAttest 64 0x0901 ∧ (asksAttest.asks 64).f 0 1 = 1
    ∧ (asksAttest.asks 64).zb 1 7 = true := ⟨inv (by decide +kernel), served (by decide +kernel), by decide +kernel⟩

/-- ID_READ of the last byte of a cable module's area. -/
def asksId : State := ask base 0 0x0902 (leBytes 2 0x12 ++ leBytes 2 255 ++ leBytes 2 1 ++ zeros 2)

theorem wit_IdentityReads_read : asksId.Inv ∧ IsServed asksId 0 0x0902 ∧ idArea ((asksId.asks 0).f 0 1) = some 256
    ∧ (asksId.asks 0).zb 1 1 = true ∧ (asksId.asks 0).zb 6 2 = true ∧ 1 ≤ (asksId.asks 0).f 4 2
    ∧ (asksId.asks 0).f 4 2 ≤ 1984 ∧ (asksId.asks 0).f 2 2 + (asksId.asks 0).f 4 2 ≤ 256 :=
  ⟨inv (by decide +kernel), served (by decide +kernel), by decide +kernel⟩

/-- FW_STAGE of the bytes at the start of the STACK region: the image, or the image with its first byte wrong. -/
def asksStage (b : Bytes) : State :=
  let s := ask { base with aon := { fused with banks := [image, []] } } 0 0x0903 (leBytes 8 0x40000000 ++ leBytes 4 258 ++ zeros 4)
  { s with mem := { s.mem with cells := s.mem.cells.writeN 0 b } }

theorem wit_FirmwareStaged_ok : (asksStage image).Inv ∧ IsServed (asksStage image) 0 0x0903
    ∧ 0x40000000 = ((asksStage image).asks 0).f 0 8 ∧ 258 = ((asksStage image).asks 0).f 8 4
    ∧ ((asksStage image).asks 0).zb 0x0C 4 = true ∧ vaOk 0x40000000 = true ∧ 258 ≤ 2 ^ 23
    ∧ Accessible (asksStage image) 0x40000000 258 false ∧ (asksStage image).aon.activating = false
    ∧ (asksStage image).aon.banks.length = 2
    ∧ (asksStage image).aon.verifyImage ((asksStage image).peekVa 0x40000000 258) = none := by
  refine ⟨inv (by decide +kernel), served (by decide +kernel), by decide +kernel, by decide +kernel, by decide +kernel,
    by decide +kernel, by decide, acc (by decide +kernel), rfl, rfl, ?_⟩
  have h : (asksStage image).peekVa 0x40000000 258 = image := by decide +kernel
  rw [h]
  exact image_verifies _ (by decide +kernel) (by decide +kernel) (by decide +kernel)

theorem wit_FirmwareStaged_bad : (asksStage (0#8 :: image.tail)).Inv ∧ IsServed (asksStage (0#8 :: image.tail)) 0 0x0903
    ∧ Accessible (asksStage (0#8 :: image.tail)) 0x40000000 258 false
    ∧ (asksStage (0#8 :: image.tail)).aon.verifyImage ((asksStage (0#8 :: image.tail)).peekVa 0x40000000 258) = some cBAD_ARG :=
  ⟨inv (by decide +kernel), served (by decide +kernel), acc (by decide +kernel), by decide +kernel⟩

/-- CORES_LOAD of 64 bytes to offset 0x1000 of the STACK region. -/
def asksLoad : State := ask base 0 0x0A01 (leBytes 8 0x40000000 ++ leBytes 8 0x0080000000001000 ++ leBytes 8 64 ++ zeros 8)

theorem wit_CoresControl_load : asksLoad.Inv ∧ IsServed asksLoad 0 0x0A01 ∧ (asksLoad.asks 0).zb 0x18 8 = true
    ∧ vaOk ((asksLoad.asks 0).f 0 8) = true ∧ 1 ≤ (asksLoad.asks 0).f 0x10 8 ∧ (asksLoad.asks 0).f 0x10 8 < 2 ^ 36
    ∧ asksLoad.rgn.byPa ((asksLoad.asks 0).f 8 8) = some (stackRegion, 0x1000) ∧ stackRegion.kind = 0
    ∧ 0x1000 + (asksLoad.asks 0).f 0x10 8 ≤ stackRegion.size ∧ asksLoad.cor.anyRunning = false
    ∧ Accessible asksLoad ((asksLoad.asks 0).f 0 8) ((asksLoad.asks 0).f 0x10 8) false :=
  ⟨inv (by decide +kernel), served (by decide +kernel), by decide +kernel, by decide +kernel, by decide +kernel,
    by decide +kernel, by decide +kernel, rfl, by decide +kernel, by decide +kernel, acc (by decide +kernel)⟩

/-- CORES_START of cores 0 and 95. -/
def asksStart : State := ask base 0 0x0A02 (leBytes 8 1 ++ leBytes 4 0x80000000 ++ zeros 4 ++ leBytes 8 0x0080000000001000 ++ leBytes 8 9)

theorem wit_CoresControl_start : asksStart.Inv ∧ IsServed asksStart 0 0x0A02 ∧ (asksStart.asks 0).zb 0x0C 4 = true
    ∧ (asksStart.asks 0).f 0x10 8 % 2 = 0 ∧ (asksStart.rgn.byPa ((asksStart.asks 0).f 0x10 8)).isSome = true
    ∧ (∀ n ∈ maskCores ((asksStart.asks 0).f 0 8) ((asksStart.asks 0).f 8 4), (asksStart.cor.core n).running = false)
    ∧ maskCores ((asksStart.asks 0).f 0 8) ((asksStart.asks 0).f 8 4) = [0, 95] :=
  ⟨inv (by decide +kernel), served (by decide +kernel), by decide +kernel⟩

/-- A running core, SC95. -/
def running : State := { base with cor := { cores := [(95, { CoreSt.reset with running := true })] } }

def asksStop : State := ask running 0 0x0A03 (leBytes 8 0 ++ leBytes 4 0x80000000 ++ zeros 4)

theorem wit_CoresControl_stop : asksStop.Inv ∧ IsServed asksStop 0 0x0A03 ∧ (asksStop.asks 0).zb 0x0C 4 = true
    ∧ 95 ∈ maskCores ((asksStop.asks 0).f 0 8) ((asksStop.asks 0).f 8 4) :=
  ⟨inv (by decide +kernel), served (by decide +kernel), by decide +kernel⟩

theorem wit_CoreEvents : running.powered = true ∧ running.dieStopped (95 : Fin 96) = false
    ∧ (running.cor.core (95 : Fin 96)).running = true ∧ (running.cor.core (95 : Fin 96)).waiting = false
    ∧ 0xFFF8 + 8 ≤ 0x10000 ∧ 0xFFF8 % 8 = 0 ∧ (running.cor.core (95 : Fin 96)).irq = false := by decide +kernel

/-! ### Regions and placement -/

/-- REGION_CREATE of one page: kind, mode, target, T2 pages, host base. -/
def asksCreate (kind mode target t2 hostBase : Nat) : State :=
  ask base 0 0x0201 (leBytes 1 (kind + 4 * mode) ++ zeros 1 ++ leBytes 2 target ++ leBytes 4 1 ++ leBytes 4 t2 ++ zeros 4
    ++ leBytes 8 hostBase ++ zeros 8)

theorem wit_RegionsMade_stack : (asksCreate 0 2 23 0 0).Inv ∧ IsServed (asksCreate 0 2 23 0 0) 0 0x0201
    ∧ ((asksCreate 0 2 23 0 0).asks 0).rz 0 1 7 6 = true ∧ ((asksCreate 0 2 23 0 0).asks 0).rz 1 1 7 4 = true
    ∧ ((asksCreate 0 2 23 0 0).asks 0).zb 0x0C 4 = true ∧ ((asksCreate 0 2 23 0 0).asks 0).zb 0x18 8 = true
    ∧ 0 = bits (((asksCreate 0 2 23 0 0).asks 0).f 0 1) 1 0 ∧ regionLegal 0 2 23 1 0 0 0 = true
    ∧ (asksCreate 0 2 23 0 0).rgn.regions.length < 64 ∧ channelsSuffice (asksCreate 0 2 23 0 0).rgn 2 23 1 = true :=
  ⟨inv (by decide +kernel), served (by decide +kernel), by decide +kernel⟩

theorem wit_RegionsMade_host : (asksCreate 2 0 0 0 0x10000).Inv ∧ IsServed (asksCreate 2 0 0 0 0x10000) 0 0x0201
    ∧ ((asksCreate 2 0 0 0 0x10000).asks 0).zb 0x0C 4 = true ∧ ((asksCreate 2 0 0 0 0x10000).asks 0).zb 0x18 8 = true
    ∧ 2 = bits (((asksCreate 2 0 0 0 0x10000).asks 0).f 0 1) 1 0 ∧ regionLegal 2 0 0 1 0 0x10000 0 = true
    ∧ (asksCreate 2 0 0 0 0x10000).rgn.regions.length < 64 :=
  ⟨inv (by decide +kernel), served (by decide +kernel), by decide +kernel⟩

/-- REGION_REGISTER of the STACK region at the last place of its window, for every source, or for none. -/
def asksRegister (sources : Nat) : State :=
  ask base 0 0x0202 (leBytes 1 0 ++ leBytes 1 sources ++ leBytes 1 3 ++ zeros 5 ++ leBytes 8 (2 ^ 42 - 2 ^ 30))

theorem wit_RegionsMade_register : (asksRegister 31).Inv ∧ IsServed (asksRegister 31) 0 0x0202
    ∧ ((asksRegister 31).asks 0).rz 0 1 7 6 = true ∧ ((asksRegister 31).asks 0).rz 2 1 7 2 = true
    ∧ ((asksRegister 31).asks 0).zb 3 5 = true
    ∧ (asksRegister 31).rgn.get (bits (((asksRegister 31).asks 0).f 0 1) 5 0) = some stackRegion ∧ stackRegion.kind ≠ 2
    ∧ ((asksRegister 31).asks 0).f 1 1 < 32 ∧ ((asksRegister 31).asks 0).f 8 8 % pageBytes = 0
    ∧ ((asksRegister 31).asks 0).f 8 8 + stackRegion.size ≤ 2 ^ 42
    ∧ (∀ x ∈ (asksRegister 31).rgn.regions, x.id ≠ stackRegion.id →
        x.windowHits (((asksRegister 31).asks 0).f 8 8) stackRegion.size = false)
    ∧ (∀ w ∈ (asksRegister 31).hst.held, w.place.any (·.1 == stackRegion.id) = false)
    ∧ IsServed (asksRegister 0) 0 0x0202 ∧ ((asksRegister 0).asks 0).f 1 1 = 0 := by
  refine ⟨inv (by decide +kernel), ?_, ?_, ?_, ?_, ?_, ?_, ?_, ?_, ?_, ?_, ?_, served (by decide +kernel), by decide +kernel⟩
  · exact served (by decide +kernel)
  all_goals decide +kernel

/-- A machine whose STACK region is not mapped yet, and MAP of it at the last gibibyte of the address space. -/
def asksMap : State :=
  ask { base with rgn := { Rgn.reset with regions := [{ stackRegion with map := none }], tables := [] } } 0 0x0205
    (leBytes 1 0 ++ leBytes 1 1 ++ zeros 6 ++ leBytes 8 (2 ^ 56 - 2 ^ 30))

theorem wit_MappingChanges_map : asksMap.Inv ∧ IsServed asksMap 0 0x0205 ∧ (asksMap.asks 0).rz 0 1 7 6 = true
    ∧ (asksMap.asks 0).rz 1 1 7 2 = true ∧ (asksMap.asks 0).zb 2 6 = true ∧ vaOk ((asksMap.asks 0).f 8 8) = true
    ∧ asksMap.rgn.get (bits ((asksMap.asks 0).f 0 1) 5 0) = some { stackRegion with map := none }
    ∧ (asksMap.asks 0).f 8 8 % pageBytes = 0 ∧ (asksMap.asks 0).f 8 8 + stackRegion.size ≤ 2 ^ 56
    ∧ (∀ x ∈ asksMap.rgn.regions, x.map = none)
    ∧ mapTable 0 ⟨2 ^ 56 - 2 ^ 30, true, false⟩ (2 ^ 56 - 2 ^ 30) (2 ^ 56) 3 asksMap.rgn 0 0 ≠ none :=
  ⟨inv (by decide +kernel), served (by decide +kernel), by decide +kernel⟩

/-- The same with table space full. -/
def tablesFull : State := { asksMap with rgn := { asksMap.rgn with tables := [(2 ^ 20, 2 ^ 29 - 2 ^ 20)] } }

theorem wit_MappingChanges_full : tablesFull.Inv ∧ IsServed tablesFull 0 0x0205
    ∧ tablesFull.rgn.get (bits ((tablesFull.asks 0).f 0 1) 5 0) = some { stackRegion with map := none }
    ∧ mapTable 0 ⟨2 ^ 56 - 2 ^ 30, true, false⟩ (2 ^ 56 - 2 ^ 30) (2 ^ 56) 3 tablesFull.rgn 0 0 = none :=
  ⟨inv (by decide +kernel), served (by decide +kernel), by decide +kernel⟩

/-- UNMAP of the STACK region, free or named by an open transfer. -/
def asksUnmap (d : Dma) : State :=
  ask { base with dma := d, rgn := { base.rgn with tcache := [⟨0, 0x40000000, 2, 7⟩] } } 0 0x0206 (zeros 8)

theorem wit_MappingChanges_unmap : (asksUnmap Dma.reset).Inv ∧ IsServed (asksUnmap Dma.reset) 0 0x0206
    ∧ ((asksUnmap Dma.reset).asks 0).rz 0 1 7 6 = true ∧ ((asksUnmap Dma.reset).asks 0).zb 1 7 = true
    ∧ (asksUnmap Dma.reset).rgn.get (bits (((asksUnmap Dma.reset).asks 0).f 0 1) 5 0) = some stackRegion
    ∧ stackRegion.map = some ⟨0x40000000, true, false⟩ ∧ (asksUnmap Dma.reset).regionNamed stackRegion = false :=
  ⟨inv (by decide +kernel), served (by decide +kernel), by decide +kernel⟩

/-- A transfer under way on channel 0. -/
def moving (d : DmaSet) : Dma := { chans := [(0, { Chan.reset with state := 1, active := d })] }

theorem wit_MappingChanges_named : (asksUnmap (moving (move1 5))).Inv ∧ IsServed (asksUnmap (moving (move1 5))) 0 0x0206
    ∧ (asksUnmap (moving (move1 5))).rgn.get (bits (((asksUnmap (moving (move1 5))).asks 0).f 0 1) 5 0) = some stackRegion
    ∧ (asksUnmap (moving (move1 5))).regionNamed stackRegion = true :=
  ⟨inv (by decide +kernel), served (by decide +kernel), by decide +kernel⟩

/-- A page-range command on the last page of a region. -/
def asksPages (op region target : Nat) (dir : List DirEntry) : State :=
  ask { base with coh := { base.coh with dir := dir } } 0 op (leBytes 1 region ++ leBytes 1 target ++ zeros 2 ++ leBytes 4 16383 ++ leBytes 4 1 ++ zeros 4)

theorem wit_BiasChanges_shared : (asksPages 0x0203 0 1 []).Inv ∧ IsServed (asksPages 0x0203 0 1 []) 0 0x0203
    ∧ (asksPages 0x0203 0 1 []).rgn.pageRange ((asksPages 0x0203 0 1 []).asks 0) = some stackRegion ∧ stackRegion.kind = 0
    ∧ bits (((asksPages 0x0203 0 1 []).asks 0).f 1 1) 1 0 = 1 :=
  ⟨inv (by decide +kernel), served (by decide +kernel), by decide +kernel⟩

/-- The host holds the first line of page 16,383. -/
def hostLine : DirEntry := ⟨16383 * 1024, none, [], true, false⟩

theorem wit_BiasChanges_device : (asksPages 0x0203 0 0 []).Inv ∧ IsServed (asksPages 0x0203 0 0 []) 0 0x0203
    ∧ (asksPages 0x0203 0 0 []).rgn.pageRange ((asksPages 0x0203 0 0 []).asks 0) = some stackRegion
    ∧ bits (((asksPages 0x0203 0 0 []).asks 0).f 1 1) 1 0 = 0
    ∧ (asksPages 0x0203 0 0 []).coh.hostHeld (pageSpan 0 16383 1).1 (pageSpan 0 16383 1).2 = []
    ∧ (asksPages 0x0203 0 0 []).coh.binv = []
    ∧ (asksPages 0x0203 0 0 [hostLine]).Inv ∧ IsServed (asksPages 0x0203 0 0 [hostLine]) 0 0x0203
    ∧ (asksPages 0x0203 0 0 [hostLine]).rgn.pageRange ((asksPages 0x0203 0 0 [hostLine]).asks 0) = some stackRegion
    ∧ (asksPages 0x0203 0 0 [hostLine]).coh.hostHeld (pageSpan 0 16383 1).1 (pageSpan 0 16383 1).2 = [hostLine] :=
  ⟨inv (by decide +kernel), served (by decide +kernel), by decide +kernel, by decide +kernel, by decide +kernel, rfl,
    inv (by decide +kernel), served (by decide +kernel), by decide +kernel, by decide +kernel⟩

/-- A back-invalidation is outstanding for line 7 of the STACK region, whose host copy may be modified. -/
def recalled (keep : Bool) : State :=
  { base with rgn := { base.rgn with hdmBase := some 0x100000000 }, coh := { base.coh with dir := [⟨7, none, [], true, false⟩], binv := [⟨7, 3, keep⟩] } }

theorem wit_BiasChanges_answer : (recalled true).Inv
    ∧ (recalled true).coh.binv.find? (fun b => (recalled true).rgn.hpaOfLine b.line == 0x1000001C0 / 64 * 64) = some ⟨7, 3, true⟩
    ∧ (recalled true).mbx.prog = none ∧ (recalled true).coh.txns = [] ∧ (recalled true).hst.held = [] ∧ ((recalled true).coh.dirOf 7).host = true
    ∧ (recalled false).Inv
    ∧ (recalled false).coh.binv.find? (fun b => (recalled false).rgn.hpaOfLine b.line == 0x1000001C0 / 64 * 64) = some ⟨7, 3, false⟩ :=
  ⟨inv (by decide +kernel), by decide +kernel, by decide +kernel, rfl, rfl, by decide +kernel, inv (by decide +kernel),
    by decide +kernel⟩

theorem wit_PinningPlaces : (∀ target, target = 0 ∨ target = 1 ∨ target = 2 → (asksPages 0x0204 1 target []).Inv
    ∧ IsServed (asksPages 0x0204 1 target []) 0 0x0204
    ∧ (asksPages 0x0204 1 target []).rgn.pageRange ((asksPages 0x0204 1 target []).asks 0) = some tieredRegion
    ∧ bits (((asksPages 0x0204 1 target []).asks 0).f 1 1) 1 0 = target)
    ∧ tieredRegion.kind = 1 ∧ tieredRegion.stale = false
    ∧ tieredRegion.inT2.length + (rangePages ((asksPages 0x0204 1 1 []).asks 0)).length ≤ tieredRegion.t2Pages
    ∧ tieredRegion.pinned.length ≤ tieredRegion.inT2.length := by
  refine ⟨?_, by decide +kernel⟩
  rintro target (rfl | rfl | rfl) <;>
    exact ⟨inv (by decide +kernel), served (by decide +kernel), by decide +kernel, by decide +kernel⟩

theorem wit_PinningPlaces_info : (ask base 0 0x0207 ([1#8] ++ zeros 7)).Inv ∧ IsServed (ask base 0 0x0207 ([1#8] ++ zeros 7)) 0 0x0207
    ∧ ((ask base 0 0x0207 ([1#8] ++ zeros 7)).asks 0).rz 0 1 7 6 = true
    ∧ ((ask base 0 0x0207 ([1#8] ++ zeros 7)).asks 0).zb 1 7 = true
    ∧ (ask base 0 0x0207 ([1#8] ++ zeros 7)).rgn.get (bits (((ask base 0 0x0207 ([1#8] ++ zeros 7)).asks 0).f 0 1) 5 0) = some tieredRegion :=
  ⟨inv (by decide +kernel), served (by decide +kernel), by decide +kernel⟩

/-! ### DMA -/

/-- DMA_SUBMIT to channel 0 of 65,537 bytes with a CRC and a flag, while `d` is in its sets. -/
def asksDma (d : Dma) : State :=
  ask { base with dma := d } 0 0x0701 (leBytes 2 0 ++ zeros 2 ++ leBytes 4 0x60 ++ leBytes 8 0x40000000 ++ leBytes 8 0x40100000
    ++ leBytes 8 65537 ++ leBytes 8 0x40200000 ++ leBytes 8 0x1234 ++ zeros 16)

theorem wit_DmaAccepted : ∀ d, d = Dma.reset ∨ d = moving (move1 5) → (asksDma d).Inv ∧ IsServed (asksDma d) 0 0x0701
    ∧ ((asksDma d).asks 0).rz 0 2 15 7 = true ∧ ((asksDma d).asks 0).zb 2 2 = true ∧ ((asksDma d).asks 0).rz 4 4 31 8 = true
    ∧ ((asksDma d).asks 0).rz 4 4 4 0 = true ∧ ((asksDma d).asks 0).zb 0x30 16 = true
    ∧ (dmaOf ((asksDma d).asks 0)).crcMode = 1 ∧ (dmaOf ((asksDma d).asks 0)).len = 65537
    ∧ vaOk (dmaOf ((asksDma d).asks 0)).src = true ∧ vaOk (dmaOf ((asksDma d).asks 0)).dst = true
    ∧ vaOk (dmaOf ((asksDma d).asks 0)).flagVa = true ∧ (dmaOf ((asksDma d).asks 0)).flagEn = true
    ∧ overlaps (dmaOf ((asksDma d).asks 0)).src (dmaOf ((asksDma d).asks 0)).len (dmaOf ((asksDma d).asks 0)).dst (dmaOf ((asksDma d).asks 0)).dstLen = false
    ∧ (dmaOf ((asksDma d).asks 0)).flagVa % 8 = 0 ∧ (asksDma d).rgn.flagAstray (dmaOf ((asksDma d).asks 0)) = false
    ∧ (∀ r ∈ (asksDma d).rgn.regions, r.stale = false) ∧ ((asksDma d).dma.ch 0).shadow.valid = false := by
  rintro d (rfl | rfl) <;>
    exact ⟨inv (by decide +kernel), served (by decide +kernel), by decide +kernel⟩

theorem wit_DmaAccepted_busy : ((asksDma Dma.reset).dma.ch 0).busy = false ∧ ((asksDma (moving (move1 5))).dma.ch 0).busy = true := by
  decide +kernel

theorem wit_DmaAccepted_status : (ask base 0 0x0702 ([127#8] ++ zeros 7)).Inv ∧ IsServed (ask base 0 0x0702 ([127#8] ++ zeros 7)) 0 0x0702
    ∧ ((ask base 0 0x0702 ([127#8] ++ zeros 7)).asks 0).rz 0 1 7 7 = true
    ∧ ((ask base 0 0x0702 ([127#8] ++ zeros 7)).asks 0).zb 1 7 = true :=
  ⟨inv (by decide +kernel), served (by decide +kernel), by decide +kernel⟩

/-- Channel 0 before the only chunk of a transfer, and after it, with CRC and flag. -/
def chunking : State := { base with dma := moving { move1 5 with crcMode := 1 }, mem := { base.mem with cells := [(3, 9#8), (4095, 7#8)] } }
def chunked : State := { base with dma := moving { move1 5 with crcMode := 1, flagEn := true, flagVa := 0x40020000, flagVal := 0xABCD, done := 4096 } }

theorem wit_DmaMoves_chunk : chunking.Inv ∧ chunking.powered = true ∧ (chunking.dma.ch 0).busy = true
    ∧ (chunking.dma.ch 0).active.done < (chunking.dma.ch 0).active.len ∧ chunking.dmaStopped 0 (chunking.dma.ch 0).active = false
    ∧ (chunking.dma.ch 0).active.chunk = 4096 ∧ Accessible chunking 0x40000000 4096 false ∧ Accessible chunking 0x40010000 4096 true :=
  ⟨inv (by decide +kernel), by decide +kernel, by decide +kernel, by decide +kernel, by decide +kernel, by decide +kernel,
    acc (by decide +kernel), acc (by decide +kernel)⟩

theorem wit_DmaMoves_end : chunked.Inv ∧ chunked.powered = true ∧ (chunked.dma.ch 0).busy = true
    ∧ (chunked.dma.ch 0).active.done = (chunked.dma.ch 0).active.len ∧ chunked.dmaStopped 0 (chunked.dma.ch 0).active = false
    ∧ (chunked.dma.ch 0).shadow.valid = false ∧ Accessible chunked (0x40010000 + 4096) 4 true
    ∧ (chunked.dma.ch 0).active.flagVa % 8 = 0 ∧ Accessible chunked 0x40020000 8 true :=
  ⟨inv (by decide +kernel), by decide +kernel, by decide +kernel, by decide +kernel, by decide +kernel, by decide +kernel,
    acc (by decide +kernel), by decide +kernel, acc (by decide +kernel)⟩

end Sys2Proof.Tests
end

