-- ==== Sys2Proof/Tests/Ports.lean ====
section
/-! SUPPORT. States that meet the hypotheses of the statements about coherence, memory controllers, the host port and the
adapters: one theorem per clause. -/

set_option Elab.async false

namespace Sys2Proof.Tests

open Sys2Proof Sys2Proof.Machine

/-! ### Coherence and memory controllers -/

/-- A transaction of core SC95 on line 7 of the STACK region. -/
def txn : Txn := ⟨some (.core 95), 0, 0x1C0, .read, false, false⟩

/-- SC95 runs, and its transaction is outstanding. -/
def sharing : State := { running with coh := { running.coh with txns := [txn] } }

theorem wit_CoherenceServed_waits : sharing.powered = true ∧ sharing.mayRequest (.core 95) .read = true
    ∧ (∃ t ∈ sharing.coh.txns, t.region = 0 ∧ t.off / 64 = 0x1C8 / 64) ∧ sharing.mayRequest (.core 95) (.store 60 (zeros 4)) = true
    ∧ (CohOp.store 60 (zeros 4)).exclusive = true ∧ (CohOp.store 60 (zeros 4)).fits = true := by
  refine ⟨by decide +kernel, by decide +kernel, ⟨txn, by decide +kernel⟩, by decide +kernel, by decide +kernel, by decide +kernel⟩

/-- SC95 runs, SC3 holds line 7 modified. -/
def owned : State :=
  { running with coh := { running.coh with dir := [⟨7, some 3, [], false, false⟩], cached := [⟨3, 7, true, (List.range 64).map (BitVec.ofNat 8)⟩] } }

theorem wit_CoherenceServed_served : owned.Inv ∧ owned.powered = true ∧ owned.aon.stopped = []
    ∧ (owned.cor.core (95 : Fin 96)).running = true ∧ owned.rgn.get stackRegion.id = some stackRegion ∧ 0x1C0 < stackRegion.size
    ∧ 7 = stackRegion.key 0x1C0 / 64 ∧ stackRegion.stalePage (0x1C0 / pageBytes) = false
    ∧ 0x1C0 / pageBytes ∉ stackRegion.flipping ∧ stackRegion.kind = 0 ∧ (∀ e ∈ owned.coh.dir, e.line = 7 → e.host = false)
    ∧ (∀ b ∈ owned.coh.binv, b.line ≠ 7) ∧ 7 ∉ owned.mem.poison ∧ (∀ m ∈ owned.rgn.migrations, m.region ≠ stackRegion.id)
    ∧ (∀ t ∈ owned.coh.txns, t.region = stackRegion.id → t.off / 64 ≠ 0x1C0 / 64) ∧ owned.coh.dir.length < dirEntries ∧ 60 + (zeros 4).length ≤ 64 :=
  ⟨inv (by decide +kernel), by decide +kernel⟩

theorem wit_CoherenceServed_ack : sharing.Inv ∧ sharing.coh.waiting = [] ∧ sharing.hst.held = [] ∧ sharing.coh.txns = [txn]
    ∧ txn.who = some (.core 95) ∧ txn.held = false := ⟨inv (by decide +kernel), by decide +kernel⟩

theorem wit_ControllersAct : base.Inv ∧ base.powered = true ∧ base.aon.stopped = [] ∧ base.rgn.get stackRegion.id = some stackRegion
    ∧ 0x1F8 < stackRegion.size ∧ (∀ f : AddFmt, 0x1F8 % f.width = 0) ∧ stackRegion.kind = 0
    ∧ 0x1F8 / pageBytes ∉ stackRegion.flipping ∧ (∀ e ∈ base.coh.dir, e.line = stackRegion.key 0x1F8 / 64 → e.host = false)
    ∧ (∀ b ∈ base.coh.binv, b.line ≠ stackRegion.key 0x1F8 / 64) ∧ base.coh.txns = [] ∧ base.coh.waiting = [] :=
  ⟨base_inv, rfl, rfl, by decide +kernel, by decide +kernel, fun f => by cases f <;> decide, rfl, by decide +kernel,
    by decide +kernel, by decide +kernel, rfl, rfl⟩

/-- The TIERED region with page 3 hot and an entry of write combining on the STACK region. -/
def warm : State :=
  { base with
    rgn := { base.rgn with regions := [stackRegion, { tieredRegion with heat := [(3, 9)] }] }
    mem := { base.mem with wc := [⟨7, 1⟩, ⟨8, 1⟩] } }

theorem wit_ControllersAct_heat : warm.rgn.get 1 = some { tieredRegion with heat := [(3, 9)] }
    ∧ ((({ tieredRegion with heat := [(3, 9)] } : Region).heat.map (·.1)).Nodup) := by decide +kernel

/-- A migration of page 16,383 of the TIERED region into T2, and of page 0 out of it. -/
def migrating (page : Nat) (toT2 : Bool) : State :=
  { base with rgn := { base.rgn with migrations := [⟨1, page, toT2⟩] }, mem := { base.mem with cells := [(2 ^ 42 + 5, 6#8), (2 ^ 56 + 0x100000000 + 16383 * 65536 + 1, 4#8)] } }

theorem wit_PagesMoveAndScrub_in : (migrating 16383 true).Inv ∧ (migrating 16383 true).rgn.get tieredRegion.id = some tieredRegion
    ∧ tieredRegion.kind = 1
    ∧ (migrating 16383 true).rgn.migrations.find? (fun m => m.region == tieredRegion.id && m.page == 16383) = some ⟨1, 16383, true⟩
    ∧ (migrating 16383 true).coh.txns = [] ∧ tieredRegion.stale = false ∧ 16383 < tieredRegion.pages
    ∧ true = (!tieredRegion.inT2.contains 16383) ∧ tieredRegion.inT2.length < tieredRegion.t2Pages
    ∧ (migrating 16383 true).coh.cached ++ (migrating 16383 true).coh.wbs = [] := ⟨inv (by decide +kernel), by decide +kernel⟩

theorem wit_PagesMoveAndScrub_out : (migrating 0 false).Inv ∧ (migrating 0 false).rgn.get tieredRegion.id = some tieredRegion
    ∧ (migrating 0 false).rgn.migrations.find? (fun m => m.region == tieredRegion.id && m.page == 0) = some ⟨1, 0, false⟩
    ∧ false = (!tieredRegion.inT2.contains 0) ∧ (migrating 0 false).coh.cached ++ (migrating 0 false).coh.wbs = [] :=
  ⟨inv (by decide +kernel), by decide +kernel⟩

theorem wit_PagesMoveAndScrub_scrub : base.powered = true ∧ base.aon.stopped = [] ∧ base.stp.active = none
    ∧ base.rgn.get 0 = some stackRegion ∧ stackRegion.stackOf 0x1C0 = (0 : Fin 24).val
    ∧ stackRegion.pageInT2 (0x1C0 / pageBytes) = true ∧ 0x1C0 < stackRegion.size := by decide +kernel

/-! ### The host port and the adapters -/

/-- A device with the host in every part: it holds a line, a transfer uses it, a registration names it, the decoder is set. -/
def hosted : State :=
  { base with
    rgn := { base.rgn with regions := [{ stackRegion with reg := some ⟨0, 3, true, true⟩ }, tieredRegion], hdmBase := some 0x100000000 }
    coh := { base.coh with dir := [⟨7, none, [], true, false⟩], binv := [⟨7, 0, false⟩] }
    dma := { chans := [(0, { Chan.reset with state := 1, active := { move1 5 with src := 0x80010000 } }), (1, { Chan.reset with state := 1, active := move1 6 })] } }

theorem wit_HostLinkLost : hosted.powered = true ∧ hosted.hst.link = .up ∧ hosted.mbx.prog = none
    ∧ (∀ x ∈ hosted.coh.txns, x.held = false) ∧ (∀ v ∈ hosted.hst.held, v.source = 0 ∧ v.acc.isWrite = false) ∧ (∀ n, n = 0 ∨ n = 1 → (hosted.dma.ch n).shadow.valid = false)
    ∧ (hosted.dma.ch 0).busy = true ∧ hosted.rgn.needsHost (hosted.dma.ch 0).active = true
    ∧ (hosted.dma.ch 1).usedHost = false ∧ hosted.rgn.needsHost (hosted.dma.ch 1).active = false := by
  refine ⟨rfl, rfl, rfl, by decide +kernel, by decide +kernel, ?_, by decide +kernel⟩
  rintro n (rfl | rfl) <;> rfl

theorem wit_HostLinkLost_keeps : base.powered = true ∧ base.hst.link = .up ∧ base.mbx.prog = none
    ∧ (∀ x ∈ base.coh.txns, x.held = false) ∧ (∀ v ∈ base.hst.held, v.source = 0 ∧ v.acc.isWrite = false) ∧ ∀ c ∈ base.dma.chans, c.2.hostLost base.rgn = [] := by decide +kernel

/-- R470: of the two transfers only the one with its source in host memory leaves its destination undefined. -/
theorem test_hostLost_undefines : (hosted.linkLoss.mem.free.map fun f => (f.lo, f.n))
    = [(65536, 4096)] := by decide +kernel

/-- A device whose host link is in another state. -/
def linkAt (l : LinkSt) : State := { base with hst := { base.hst with link := l, width := 0 } }

theorem wit_HostLinkTrains : (linkAt .training).hst.link ≠ .up ∧ (linkAt .down).powered = true ∧ (linkAt .down).aon.tickOn = true
    ∧ (linkAt .down).hst.link = .down ∧ (linkAt .training).powered = true ∧ (linkAt .training).aon.perstN = true
    ∧ (linkAt .training).hst.link = .training ∧ base.powered = true ∧ base.hst.link = .up ∧ 16 ≤ base.hst.width
    ∧ 4 ≤ base.hst.width ∧ 4 < base.hst.width := by decide +kernel

/-- The decoder is committed, and page 0 of the STACK region is shared; a core holds line 7 modified. -/
def shared : State :=
  { base with
    rgn := { base.rgn with regions := [{ stackRegion with shared := [0] }, tieredRegion], hdmBase := some 0x100000000 }
    coh := { base.coh with dir := [⟨7, some 3, [], false, false⟩], cached := [⟨3, 7, true, (List.range 64).map (BitVec.ofNat 8)⟩] } }

theorem wit_HdmReached : shared.Inv ∧ shared.powered = true ∧ shared.hst.link = .up ∧ shared.rgn.hdmBase = some 0x100000000
    ∧ 0x100000000 ≤ 0x1000001C0 ∧ 0x1000001C0 < 0x100000000 + 1152 * 2 ^ 30
    ∧ shared.rgn.byHdm (0x1000001C0 - 0x100000000) = some ({ stackRegion with shared := [0] }, 0x1C0)
    ∧ ({ stackRegion with shared := [0] } : Region).shared.contains (0x1C0 / pageBytes) = true
    ∧ 7 = ({ stackRegion with shared := [0] } : Region).key 0x1C0 / 64 ∧ shared.aon.stopped = [] ∧ shared.coh.waiting = []
    ∧ 7 ∉ shared.mem.poison ∧ shared.coh.dir.length < dirEntries ∧ (∀ t ∈ shared.coh.txns, t.region = 0 → t.off / 64 ≠ 0x1C0 / 64)
    ∧ 0x1000001C0 % 64 + 64 ≤ 64 := ⟨inv (by decide +kernel), by decide +kernel⟩

theorem wit_HdmReached_outside : shared.rgn.byHdm (1152 * 2 ^ 30 - 64) = none
    ∧ shared.rgn.byHdm 0x10000 = some ({ stackRegion with shared := [0] }, 0x10000)
    ∧ ({ stackRegion with shared := [0] } : Region).shared.contains (0x10000 / pageBytes) = false := by decide +kernel

/-- A core holds a line of host memory modified. -/
def hostCached : State :=
  { base with coh := { base.coh with dir := [⟨(2 ^ 56 + 0x40) / 64, some 3, [], false, false⟩], cached := [⟨3, (2 ^ 56 + 0x40) / 64, true, (List.range 64).map (BitVec.ofNat 8)⟩] } }

theorem wit_HdmReached_snoop : hostCached.Inv ∧ hostCached.powered = true ∧ hostCached.hst.link = .up ∧ hostCached.coh.txns = []
    ∧ (2 ^ 56 + 0x40) / 64 = (2 ^ 56 + 0x40) / 64 := ⟨inv (by decide +kernel), by decide +kernel⟩

/-- Adapter port A2 is up, and the STACK region is registered for the host and for it. -/
def windowed : State :=
  { base with
    rgn := { base.rgn with regions := [{ stackRegion with reg := some ⟨0x40000000, 0x9, true, true⟩ }, tieredRegion] }
    hst := { base.hst with adapters := [(2, ⟨14, 5, true, 0, 8, 32⟩)] } }

/-- The STACK region as it is registered there. -/
def windowRegion : Region := { stackRegion with reg := some ⟨0x40000000, 0x9, true, true⟩ }

theorem wit_WindowAccesses_host : windowed.Inv ∧ windowed.powered = true ∧ windowed.hst.link = .up ∧ windowed.hst.held = []
    ∧ windowed.rgn.admitted 0 0x3FFFFFFF 1 false = none ∧ windowed.rgn.admitted 0 0x3FFFFFFF 1 true = none
    ∧ windowed.rgn.admitted 0 0x400001C8 8 true = some (windowRegion, 0x1C8)
    ∧ windowed.rgn.admitted 0 0x400001C8 8 false = some (windowRegion, 0x1C8)
    ∧ (∀ c ∈ chunksOf 0x1C8 8, windowRegion.stalePage (c.1 / pageBytes) = false)
    ∧ windowed.regionWait windowRegion 0x1C8 8 true = none ∧ windowed.regionWait windowRegion 0x1C8 8 false = none
    ∧ windowed.memStopped windowRegion 0x1C8 8 = false
    ∧ (∀ c ∈ windowRegion.chunks 0x1C8 8, windowed.mem.poisonIn c.1 c.2 = none) :=
  ⟨inv (by decide +kernel), by decide +kernel⟩

theorem wit_WindowAccesses_adapter : windowed.adapterUp (2 : Fin 4) = true ∧ windowed.rgn.admitted 4 0x400001C8 8 true = none
    ∧ windowed.rgn.admitted 3 0x400001C8 8 true
        = some (windowRegion, 0x1C8) := by decide +kernel

/-- Adapter ports in the states of R635. -/
def portAt (pi : Nat) : State := { base with hst := { base.hst with adapters := [(2, ⟨14, pi, true, 0, 0, 0⟩)] } }

theorem wit_AdapterPorts : windowed.adapterUp (2 : Fin 4) = true ∧ (portAt 5).powered = true
    ∧ (portAt 5).hst.adapter (2 : Fin 4) = some ⟨14, 5, true, 0, 0, 0⟩ ∧ (portAt 2).powered = true
    ∧ (portAt 2).hst.adapter (2 : Fin 4) = some ⟨14, 2, true, 0, 0, 0⟩
    ∧ (portAt 3).hst.adapter (2 : Fin 4) = some ⟨14, 3, true, 0, 0, 0⟩ ∧ 0x00F0FFFFFFFC < 0x00F100000000 := by decide +kernel

end Sys2Proof.Tests
end

