-- ==== Sys2Proof/Tests/Plans.lean ====
section
/-! SUPPORT. Small plans written out from R317 to R323, and states that meet the hypotheses of the statements about
plans, steps, training state and the Glade: one theorem per clause. -/

set_option Elab.async false

namespace Sys2Proof.Tests

open Sys2Proof Sys2Proof.Machine

/-- Work on an instance that may issue begins. -/
theorem enter_fresh {s : State} {st : Step} {p : Plan} {code op mb : Nat} (h1 : s.stepPlan = some (st, p))
    (h2 : s.powered = true) (h3 : st.mayIssue p code op mb = true) : s.enter code op mb = some (s.issue p st op mb, st, p) := by
  simp [State.enter, h1, h2, h3]

/-! ### Containers -/

/-- The memory cells that hold bytes from a key on. -/
def placed (key : Nat) (b : Bytes) : Store :=
  ((List.range b.length).zip b).filterMap fun x => if x.2 = 0#8 then none else some (key + x.1, x.2)

/-- Bytes up to the next multiple of 64. -/
def padded (b : Bytes) : Bytes := b ++ zeros ((64 - b.length % 64) % 64)

/-- A descriptor (R84): format, SCALE_RULE and MODE byte, rank, region, address, sizes, strides. -/
def tdOf (format mode rank region va : Nat) (dims strides : List Nat) : Bytes :=
  leBytes 1 format ++ leBytes 1 rank ++ leBytes 1 mode ++ zeros 1 ++ leBytes 1 region ++ zeros 3 ++ leBytes 8 va
    ++ (List.range 6).flatMap (fun i => leBytes 4 (dims.getD i 1)) ++ (List.range 6).flatMap fun i => leBytes 4 (strides.getD i 0)

/-- An operation for a container: class, flags, inputs, outputs, parameter block. -/
structure OpIn where
  code : Nat
  flags : Nat
  ins : List Nat
  outs : List Nat
  param : Bytes

/-- The header of an operation whose parameter block lies at an offset (R321). -/
def OpIn.header (o : OpIn) (off : Nat) : Bytes :=
  leBytes 2 o.code ++ leBytes 2 o.flags ++ zeros 4 ++ (List.range 4).flatMap (fun i => leBytes 2 (o.ins.getD i absent))
    ++ (List.range 2).flatMap (fun i => leBytes 2 (o.outs.getD i absent)) ++ leBytes 4 off ++ leBytes 4 o.param.length
    ++ zeros 36

/-- Lays sections out one after the other: the sections' table and their bytes. -/
def layOut : Nat → List (Nat × Bytes) → Bytes × Bytes
  | _, [] => ([], [])
  | off, x :: r =>
    let y := layOut (off + (padded x.2).length) r
    (leBytes 4 off ++ leBytes 4 (x.2.length / x.1) ++ y.1, padded x.2 ++ y.2)

/-- A container of version 1.0 with its check (R317 to R320): descriptors, micro-batch offsets, operations, edges, settings,
verdict watch list. -/
def container (tds : List Bytes) (mbs : List Nat) (ops : List OpIn) (edges : List Bytes) (settings : Bytes)
    (watch : List Nat) : Bytes :=
  let heads := (ops.foldl (fun (a : Nat × List Bytes) o => (a.1 + (padded o.param).length, a.2 ++ [o.header a.1])) (0, [])).2
  let y := layOut 128 [(64, tds.flatten), (8, mbs.flatMap (leBytes 8)), (64, heads.flatten), (1, ops.flatMap fun o => padded o.param),
    (8, edges.flatten), (4, (List.range ops.length).flatMap (leBytes 4)), (128, settings), (4, watch.flatMap (leBytes 4))]
  let b := leBytes 4 0x504C0001 ++ [0#8, 1#8] ++ zeros 2 ++ leBytes 8 5 ++ leBytes 4 (128 + y.2.length) ++ zeros 4 ++ zeros 40 ++ y.1 ++ y.2
  overlay b 0x14 (leBytes 4 (crc32c b))

/-- Settings of a plan with a number of micro-batches and no loss scaling (R320). -/
def settings (mb : Nat) : Bytes := zeros 1 ++ leBytes 1 mb ++ zeros 126

/-- A dependency edge. -/
def edge (a b kind : Nat) : Bytes := leBytes 2 a ++ leBytes 2 b ++ leBytes 1 kind ++ zeros 3

/-- A one-tile binary32 tensor of 2 × 2 elements on the STACK region. -/
def t32 (va : Nat) : Bytes := tdOf 0 0 2 0 va [2, 2] [1, 1]

/-- A VERDICT (R419). -/
def verdictOp : OpIn := ⟨0x32, 0, [], [], zeros 16⟩

/-- A plan of a GRAD_GATHER of two tensors and a VERDICT after it. -/
def small : Bytes :=
  container [t32 0x40000000, t32 0x40010000, t32 0x40020000] [0, 0, 0]
    [⟨0x22, 0, [0, 1], [2], leBytes 1 2 ++ zeros 15⟩, verdictOp] [edge 0 1 0] (settings 1) []

/-! ### Plans and steps -/

/-- PLAN_LOAD of a container that lies at 0x4010_0000. -/
def asksPlan (b : Bytes) : State :=
  ask { base with mem := { base.mem with cells := placed 0x100000 b } } 0 0x0301 (leBytes 8 0x40100000 ++ leBytes 4 b.length ++ zeros 4)

/-- The container with its magic number broken. -/
def broken : Bytes := overlay small 0 [0#8]

theorem wit_PlansLoaded_load : ∀ b ∈ [small, broken], (asksPlan b).Inv ∧ IsServed (asksPlan b) 0 0x0301
    ∧ 0x40100000 = ((asksPlan b).asks 0).f 0 8 ∧ b.length = ((asksPlan b).asks 0).f 8 4
    ∧ ((asksPlan b).asks 0).zb 0x0C 4 = true ∧ vaOk 0x40100000 = true ∧ 0x40100000 % 64 = 0 ∧ 0x14 ≤ b.length
    ∧ Accessible (asksPlan b) 0x40100000 b.length false ∧ fld ((asksPlan b).peekVa 0x40100000 b.length) 0x10 4 = b.length := by
  have h : [small, broken].all (fun b => invB (asksPlan b) && servedB (asksPlan b) 0 0x0301 && accB (asksPlan b) 0x40100000 b.length false
      && decide (0x40100000 = ((asksPlan b).asks 0).f 0 8) && decide (b.length = ((asksPlan b).asks 0).f 8 4)
      && ((asksPlan b).asks 0).zb 0x0C 4 && decide (0x14 ≤ b.length)
      && decide (fld ((asksPlan b).peekVa 0x40100000 b.length) 0x10 4 = b.length)) = true := by decide +kernel
  intro b hb
  have hb := List.all_eq_true.mp h b hb
  simp only [Bool.and_eq_true, decide_eq_true_eq] at hb
  obtain ⟨⟨⟨⟨⟨⟨⟨h1, h2⟩, h3⟩, h4⟩, h5⟩, h6⟩, h7⟩, h8⟩ := hb
  exact ⟨inv h1, served h2, h4, h5, h6, by decide, by decide, h7, acc h3, h8⟩

theorem wit_PlansLoaded_answers : ((asksPlan small).readVa 0x40100000 small.length).2.checkPlan ((asksPlan small).peekVa 0x40100000 small.length) = none
    ∧ (((asksPlan broken).readVa 0x40100000 broken.length).2.checkPlan ((asksPlan broken).peekVa 0x40100000 broken.length)).isSome = true := by
  decide +kernel

/-- A plan of a container under a handle. -/
def planOf (h : Nat) (b : Bytes) : Plan := { rawPlan b with handle := h }

/-- The machine at the ring before the last one that a step can have, with plans loaded under the handles 0xFFFF and 1. -/
def loaded : State :=
  { base with pln := { Pln.reset with plans := [planOf 0xFFFF small, planOf 1 small] }, trn := { Trn.reset with ring := 2 ^ 48 - 2 } }

/-- A step of plan 1. -/
def stepOf (st : WordState) (ring : Nat) : Step :=
  { tag := 9, plan := 1, ring := ring, attempt := 0, replay := false, fromAttempt := 0, source := [], verdictFree := false, st := st,
    round := 0, stamp := 0, lsExp := 0, insts := [], phases := [], entries := [], watch := [], crossings := [], nonfinite := [],
    disputes := [], holdCode := 0, released := false, stopped := false, k := none, vround := none, last := none, resumed := false,
    digests := [], diverged := 0, tick := 0 }

/-- A machine with a queued step. -/
def queued : State := { loaded with stp := { Stp.reset with queued := some (stepOf .queued (2 ^ 48 - 1)), words := [⟨9, .queued⟩] } }

def asksDrop (s : State) (h : Nat) : State := ask s 0 0x0302 (leBytes 2 h ++ zeros 6)

theorem wit_PlansLoaded_drop : (asksDrop loaded 0xFFFF).Inv ∧ IsServed (asksDrop loaded 0xFFFF) 0 0x0302
    ∧ 0xFFFF = ((asksDrop loaded 0xFFFF).asks 0).f 0 2 ∧ ((asksDrop loaded 0xFFFF).asks 0).zb 2 6 = true
    ∧ ((asksDrop loaded 0xFFFF).pln.get 0xFFFF).isSome = true
    ∧ (∀ st ∈ (asksDrop loaded 0xFFFF).stp.current.toList ++ (asksDrop loaded 0xFFFF).stp.queued.toList, st.plan ≠ 0xFFFF) :=
  ⟨inv (by decide +kernel), served (by decide +kernel), by decide +kernel⟩

theorem wit_PlansLoaded_busy : (asksDrop queued 1).Inv ∧ IsServed (asksDrop queued 1) 0 0x0302
    ∧ 1 = ((asksDrop queued 1).asks 0).f 0 2 ∧ ((asksDrop queued 1).asks 0).zb 2 6 = true
    ∧ ((asksDrop queued 1).pln.get 1).isSome = true
    ∧ (∃ st ∈ (asksDrop queued 1).stp.current.toList ++ (asksDrop queued 1).stp.queued.toList, st.plan = 1) :=
  ⟨inv (by decide +kernel), served (by decide +kernel), by decide +kernel⟩

def asksSubmit (s : State) (n : Nat) : State := ask s 0 0x0303 (leBytes 2 0xFFFF ++ zeros 6 ++ leBytes 8 n ++ zeros 8)

theorem wit_StepsAccepted_submit : (asksSubmit loaded (2 ^ 48 - 1)).Inv ∧ IsServed (asksSubmit loaded (2 ^ 48 - 1)) 0 0x0303
    ∧ (asksSubmit loaded (2 ^ 48 - 1)).pln.get (((asksSubmit loaded (2 ^ 48 - 1)).asks 0).f 0 2) = some (planOf 0xFFFF small)
    ∧ 2 ^ 48 - 1 = ((asksSubmit loaded (2 ^ 48 - 1)).asks 0).f 8 8 ∧ 2 ^ 48 - 1 < 2 ^ 48
    ∧ ((asksSubmit loaded (2 ^ 48 - 1)).asks 0).zb 2 6 = true ∧ ((asksSubmit loaded (2 ^ 48 - 1)).asks 0).zb 0x10 8 = true
    ∧ (asksSubmit loaded (2 ^ 48 - 1)).stp.queued = none ∧ (asksSubmit loaded (2 ^ 48 - 1)).accepts (2 ^ 48 - 1) = true
    ∧ (asksSubmit loaded (2 ^ 48 - 1)).planReady (planOf 0xFFFF small) = true
    ∧ (asksSubmit loaded (2 ^ 48 - 1)).namesAbsent (planOf 0xFFFF small) = false :=
  ⟨inv (by decide +kernel), served (by decide +kernel), by decide +kernel⟩

theorem wit_StepsAccepted_busy : (asksSubmit queued 5).Inv ∧ IsServed (asksSubmit queued 5) 0 0x0303
    ∧ (asksSubmit queued 5).pln.get (((asksSubmit queued 5).asks 0).f 0 2) = some (planOf 0xFFFF small)
    ∧ ((asksSubmit queued 5).asks 0).f 8 8 < 2 ^ 48 ∧ ((asksSubmit queued 5).asks 0).zb 2 6 = true
    ∧ ((asksSubmit queued 5).asks 0).zb 0x10 8 = true ∧ (asksSubmit queued 5).stp.queued.isSome = true :=
  ⟨inv (by decide +kernel), served (by decide +kernel), by decide +kernel⟩

/-- Attempt 0xFFFF of the next step has been decided with loss scale −1. -/
def decided (s : State) : State :=
  { s with stp := { s.stp with records := [⟨2 ^ 48 - 1, 0xFFFF, true, leBytes 6 (2 ^ 48 - 1) ++ leBytes 2 0xFFFF ++ zeros 2 ++ [0xFF#8] ++ zeros 309⟩] } }

def asksReplay (s : State) : State := ask (decided s) 0 0x0304 (leBytes 2 0xFFFF ++ leBytes 2 0xFFFF ++ zeros 4 ++ leBytes 8 (2 ^ 48 - 1) ++ zeros 8)

theorem wit_StepsAccepted_replay : (asksReplay loaded).Inv ∧ IsServed (asksReplay loaded) 0 0x0304
    ∧ (asksReplay loaded).pln.get (((asksReplay loaded).asks 0).f 0 2) = some (planOf 0xFFFF small)
    ∧ 2 ^ 48 - 1 = ((asksReplay loaded).asks 0).f 8 8 ∧ ((asksReplay loaded).asks 0).zb 4 4 = true
    ∧ ((asksReplay loaded).asks 0).f 0x10 8 = 0
    ∧ ((asksReplay loaded).stp.recordOf (2 ^ 48 - 1) (((asksReplay loaded).asks 0).f 2 2)).isSome = true
    ∧ (asksReplay loaded).stp.queued = none ∧ 2 ^ 48 - 1 = (asksReplay loaded).deviceRing + 1
    ∧ (asksReplay loaded).accepts (2 ^ 48 - 1) = true ∧ (asksReplay loaded).planReady (planOf 0xFFFF small) = true
    ∧ (asksReplay loaded).namesAbsent (planOf 0xFFFF small) = false ∧ (asksReplay loaded).slotsWait = none
    ∧ (∀ d ∈ (asksReplay loaded).held, (asksReplay loaded).classify d (2 ^ 48 - 1) ≠ .interrupted
      ∧ (asksReplay loaded).classify d (2 ^ 48 - 1) ≠ .recomputable) :=
  ⟨inv (by decide +kernel), served (by decide +kernel), by decide +kernel⟩

theorem wit_StepsAccepted_replayBusy : (asksReplay queued).Inv ∧ IsServed (asksReplay queued) 0 0x0304
    ∧ ((asksReplay queued).pln.get (((asksReplay queued).asks 0).f 0 2)).isSome = true
    ∧ ((asksReplay queued).stp.recordOf (((asksReplay queued).asks 0).f 8 8) (((asksReplay queued).asks 0).f 2 2)).isSome = true
    ∧ ((asksReplay queued).asks 0).zb 4 4 = true ∧ (asksReplay queued).stp.queued.isSome = true :=
  ⟨inv (by decide +kernel), served (by decide +kernel), by decide +kernel⟩

/-- A plan of an ARRIVAL_UPDATE of program 2. -/
def updating : Plan :=
  planOf 1 (container [] [] [⟨0x40, 0, [], [], leBytes 4 7 ++ [2#8] ++ zeros 155⟩, verdictOp] [edge 0 1 0] (settings 1) [])

/-- MODE_SCHEDULE of one entry, the learning rate 0.5, at a ring, while step 2^48 − 1 awaits its recovery or none does. -/
def asksMode (owed : Bool) (m : Nat) : State :=
  ask { loaded with
    pln := { Pln.reset with plans := [updating] }
    stp := { Stp.reset with
      resume := if owed then some ⟨2 ^ 48 - 2, some (stepOf .voted (2 ^ 48 - 1)), false, [], []⟩ else none } } 0 0x0305 (leBytes 2 1 ++ leBytes 2 1 ++ zeros 4 ++ leBytes 8 m
    ++ leBytes 2 0 ++ [1#8, 0#8] ++ leBytes 4 0x3F000000)

theorem wit_StepQueries_mode : ∀ x ∈ [(false, 2 ^ 48 - 1), (false, 2 ^ 48 - 2), (true, 2 ^ 48 - 1)],
    (asksMode x.1 x.2).Inv ∧ IsServed (asksMode x.1 x.2) 0 0x0305
    ∧ (asksMode x.1 x.2).pln.get (((asksMode x.1 x.2).asks 0).f 0 2) = some updating ∧ ((asksMode x.1 x.2).asks 0).zb 4 4 = true
    ∧ ((asksMode x.1 x.2).asks 0).f 2 2 = 1 ∧ ((asksMode x.1 x.2).asks 0).f 8 8 = x.2
    ∧ (∀ e < ((asksMode x.1 x.2).asks 0).f 2 2, ((asksMode x.1 x.2).asks 0).zb (0x13 + 8 * e) 1 = true)
    ∧ (∀ e ∈ modeEntries ((asksMode x.1 x.2).asks 0), e.op < updating.count 2 ∧ (updating.op e.op).code = 0x0040
      ∧ modeOk (bits (byteAt (updating.param e.op) 4) 1 0) e.field e.value = true) := by
  intro x hx
  simp only [List.mem_cons, List.not_mem_nil, or_false] at hx
  rcases hx with rfl | rfl | rfl
  all_goals exact ⟨inv (by decide +kernel), served (by decide +kernel), by decide +kernel⟩

theorem wit_StepQueries_mode_rings : (asksMode false (2 ^ 48 - 1)).deviceRing < 2 ^ 48 - 1
    ∧ (asksMode false (2 ^ 48 - 1)).stp.current = none ∧ 2 ^ 48 - 2 ≤ (asksMode false (2 ^ 48 - 2)).deviceRing
    ∧ (asksMode true (2 ^ 48 - 1)).deviceRing < 2 ^ 48 - 1
    ∧ (asksMode true (2 ^ 48 - 1)).stp.current.map (·.ring) = some (2 ^ 48 - 1) := by decide +kernel

def asksRing : State := ask loaded 0 0x0306 (leBytes 2 0xFFFF ++ zeros 6 ++ leBytes 8 (2 ^ 48 - 1))

theorem wit_StepQueries_ring : asksRing.Inv ∧ IsServed asksRing 0 0x0306
    ∧ asksRing.pln.get ((asksRing.asks 0).f 0 2) = some (planOf 0xFFFF small) ∧ (asksRing.asks 0).zb 2 6 = true
    ∧ asksRing.deviceRing < (asksRing.asks 0).f 8 8 := ⟨inv (by decide +kernel), served (by decide +kernel), by decide +kernel⟩

/-- STEP_RECORD from an offset, or of all of it to an address. -/
def asksRecord (off va : Nat) : State :=
  ask (decided loaded) 0 0x0307 (zeros 2 ++ leBytes 2 0xFFFF ++ leBytes 4 off ++ leBytes 8 (2 ^ 48 - 1) ++ leBytes 8 va)

theorem wit_StepQueries_record : ∀ x ∈ [(288, 0), (0, 0x40000040)], (asksRecord x.1 x.2).Inv ∧ IsServed (asksRecord x.1 x.2) 0 0x0307
    ∧ ((asksRecord x.1 x.2).stp.recordOf (((asksRecord x.1 x.2).asks 0).f 8 8) (((asksRecord x.1 x.2).asks 0).f 2 2)).map (·.bytes.length) = some 320
    ∧ ((asksRecord x.1 x.2).asks 0).zb 0 2 = true ∧ ((asksRecord x.1 x.2).asks 0).f 4 4 = x.1 ∧ 288 % 32 = 0 ∧ 288 < 320
    ∧ ((asksRecord x.1 x.2).asks 0).f 0x10 8 = x.2 ∧ vaOk 0x40000040 = true ∧ 0x40000040 % 64 = 0
    ∧ Accessible (asksRecord 0 0x40000040) 0x40000040 320 true := by
  intro x hx
  simp only [List.mem_cons, List.not_mem_nil, or_false] at hx
  rcases hx with rfl | rfl
  all_goals
    exact ⟨inv (by decide +kernel), served (by decide +kernel), by decide +kernel, by decide +kernel, by decide +kernel,
      by decide, by decide, by decide +kernel, by decide, by decide, acc (by decide +kernel)⟩

end Sys2Proof.Tests
end

