-- ==== Sys2Proof/Tests/Training.lean ====
section
/-! SUPPORT. States that meet the hypotheses of the statements about training state: one theorem per clause. -/

set_option Elab.async false

namespace Sys2Proof.Tests

open Sys2Proof Sys2Proof.Machine

/-! ### Two devices -/

/-- A port of a bundle that is up. -/
def upPort (bundle : Nat) : Port :=
  { bundle := bundle, unused := false, absent := false, pi := 5, trained := true, verified := true, inBundle := true, probation := false,
    expect := 0, next := 0, unacked := [], waiting := [], nakSent := false, retrains := [], downs := 0, fecCorr := 0,
    fecUncorr := 0, replays := 0, retrainCount := 0, laneErr := [], far := none }

/-- The record of an address whose Z bundles are up. -/
def zRecord (a : Nat) : LinkState :=
  ⟨a, 3, BitVec.ofNat 64 (a + 100), [⟨2, 0⟩, ⟨2, 0⟩, ⟨2, 0⟩, ⟨2, 0⟩, ⟨0, 1⟩, ⟨0, 1⟩]⟩

/-- A machine of two devices along Z, seen from an address: both are members, one port up in each Z bundle. -/
def pairFab (me : Nat) : Fab :=
  { Fab.reset with fs := .ready, addr := some me, sx := 1, sy := 1, sz := 2, devid := BitVec.ofNat 64 (me + 100), members := some [0, 1], ports := [(24, upPort 4), (30, upPort 5)], records := [zRecord 0, zRecord 1] }

def pair (me : Nat) : State := { base with fab := pairFab me }

/-! ### Shards -/

/-- A twin-owned shard of five parameters, with the highest id, on the STACK region. -/
def shard : ShardDef := { shard := 0xFFFFF, params := 5, moments := 1, owner := 0, twinEn := true, twin := 1, region := 0, va := 0x40200000 }

/-- The control area of a slot that is committed at a ring: weights and moments are 0. -/
def slotCtl (ring : Nat) : Bytes :=
  let dig := crc64 (zeros 20)
  let h : SlotHdr := { state := 1, round := 0, program := 0, lsExp := 0, ring := ring, shard := 0xFFFFF, params := 5, c1 := one32, c2 := one32, k := one32, segs := 1 }
  h.bytes ++ Seal.bytes ⟨2, 0, 0, ring, blazeOf ring one32 one32 [(dig, dig)], 0, 0⟩ ++ zeros 8 ++ leBytes 8 dig ++ leBytes 8 dig ++ zeros 8

/-- The STACK region when it is registered. -/
def registered : Region := { stackRegion with reg := some ⟨0, 1, true, true⟩ }

/-- Ring 5 is committed in slot 0; the STACK region is registered. -/
def trained : State :=
  { pair 0 with
    rgn := { base.rgn with regions := [registered, tieredRegion] }
    mem := { base.mem with cells := placed 0x200000 (slotCtl 5) }
    trn := { Trn.reset with shards := [shard], sel := [(0xFFFFF, ⟨5, true, 0⟩)], ring := 5 } }

/-- SHARD_DEFINE of a definition. -/
def asksDefine (s : State) (d : ShardDef) : State :=
  ask s 0 0x0401 (leBytes 4 d.shard ++ leBytes 4 d.params ++ leBytes 2 d.owner ++ leBytes 2 d.twin
    ++ leBytes 1 (d.moments + if d.twinEn then 4 else 0) ++ leBytes 1 d.region ++ zeros 2 ++ leBytes 8 d.va ++ zeros 8)

/-- A shard of the greatest size that another device owns. -/
def far : ShardDef := { shard := 0, params := 2 ^ 31, moments := 2, owner := 1, twinEn := false, twin := 0, region := 0, va := 0 }

theorem wit_ShardsKept_define : ∀ d ∈ [shard, far], (asksDefine (pair 0) d).Inv ∧ IsServed (asksDefine (pair 0) d) 0 0x0401
    ∧ ((asksDefine (pair 0) d).asks 0).rz 0 4 31 20 = true ∧ ((asksDefine (pair 0) d).asks 0).rz 8 2 15 14 = true
    ∧ ((asksDefine (pair 0) d).asks 0).rz 0x0A 2 15 14 = true ∧ ((asksDefine (pair 0) d).asks 0).rz 0x0C 1 7 3 = true
    ∧ ((asksDefine (pair 0) d).asks 0).rz 0x0D 1 7 6 = true ∧ ((asksDefine (pair 0) d).asks 0).zb 0x0E 2 = true
    ∧ ((asksDefine (pair 0) d).asks 0).zb 0x18 8 = true ∧ shardOfReq ((asksDefine (pair 0) d).asks 0) = d
    ∧ (asksDefine (pair 0) d).shardLegal d = true ∧ (asksDefine (pair 0) d).trn.shards = [] := by
  intro d hd
  simp only [List.mem_cons, List.not_mem_nil, or_false] at hd
  rcases hd with rfl | rfl
  all_goals exact ⟨inv (by decide +kernel), served (by decide +kernel), by decide +kernel⟩

theorem wit_ShardsKept_again : ∀ d ∈ [shard, { shard with params := 6 }], (asksDefine trained d).Inv
    ∧ IsServed (asksDefine trained d) 0 0x0401 ∧ shardOfReq ((asksDefine trained d).asks 0) = d
    ∧ (asksDefine trained d).shardLegal d = true
    ∧ (asksDefine trained d).trn.shard (shardOfReq ((asksDefine trained d).asks 0)).shard = some shard := by
  intro d hd
  simp only [List.mem_cons, List.not_mem_nil, or_false] at hd
  rcases hd with rfl | rfl
  all_goals exact ⟨inv (by decide +kernel), served (by decide +kernel), by decide +kernel⟩

/-- BLAZE_READ with the check. -/
def asksBlaze : State := ask trained 0 0x0405 (leBytes 4 0xFFFFF ++ [1#8] ++ zeros 3)

theorem wit_ShardsKept_blaze : asksBlaze.Inv ∧ IsServed asksBlaze 0 0x0405 ∧ (asksBlaze.asks 0).rz 0 4 31 20 = true
    ∧ (asksBlaze.asks 0).rz 4 1 7 1 = true ∧ (asksBlaze.asks 0).zb 5 3 = true
    ∧ asksBlaze.trn.shard (bits ((asksBlaze.asks 0).f 0 4) 19 0) = some shard ∧ asksBlaze.ownsShard shard = true
    ∧ (∀ a ∈ asksBlaze.slotAt shard (asksBlaze.trn.committed shard), asksBlaze.regionPoison a.1 a.2 shard.slotBytes = none)
    ∧ asksBlaze.slotsWait = none :=
  ⟨inv (by decide +kernel), served (by decide +kernel), by decide +kernel⟩

/-- STATE_EXPORT and STATE_IMPORT of the shard's image at the end of the STACK region. -/
def asksState (op : Nat) (s : State) : State :=
  ask s 0 op (zeros 4 ++ leBytes 4 0xFFFFF ++ leBytes 8 (2 ^ 30 - 0x30000) ++ leBytes 8 0x30000)

theorem wit_ShardsKept_export : (asksState 0x0402 trained).Inv ∧ IsServed (asksState 0x0402 trained) 0 0x0402
    ∧ (asksState 0x0402 trained).sxRegion ((asksState 0x0402 trained).asks 0) = some registered
    ∧ 2 ^ 30 - 0x30000 = ((asksState 0x0402 trained).asks 0).f 8 8 ∧ ((asksState 0x0402 trained).asks 0).f 0 1 % 2 = 0
    ∧ ((asksState 0x0402 trained).asks 0).f 2 2 = 0 ∧ ((asksState 0x0402 trained).asks 0).f 4 4 = 0xFFFFF
    ∧ (asksState 0x0402 trained).trn.shard 0xFFFFF = some shard ∧ (asksState 0x0402 trained).ownsShard shard = true
    ∧ 2 ^ 30 - 0x30000 + shard.imageBytes ≤ registered.size ∧ (asksState 0x0402 trained).stepActive = false
    ∧ registered.staleIn (2 ^ 30 - 0x30000) shard.imageBytes = false
    ∧ shard.imageBytes ≤ ((asksState 0x0402 trained).asks 0).f 0x10 8
    ∧ ((asksState 0x0402 trained).trn.selOf 0xFFFFF).valid = true
    ∧ (asksState 0x0402 trained).sxWait registered (2 ^ 30 - 0x30000) shard.imageBytes true = none
    ∧ (∀ a ∈ (asksState 0x0402 trained).slotAt shard ((asksState 0x0402 trained).trn.selOf 0xFFFFF).slot,
        (asksState 0x0402 trained).regionPoison a.1 a.2 shard.gredOff = none
        ∧ (asksState 0x0402 trained).regionPoison a.1 (a.2 + shard.mOff) (shard.slotBytes - shard.mOff) = none) :=
  ⟨inv (by decide +kernel), served (by decide +kernel), by decide +kernel⟩

/-- The image that lies at the end of the region: ring 9's, or one whose header is wrong. -/
def imported (b : Bytes) : State :=
  asksState 0x0403 { trained with mem := { trained.mem with cells := placed (2 ^ 30 - 0x30000) b } }

theorem wit_ShardsKept_import : ∀ b ∈ [slotCtl 9, [1#8]], (imported b).Inv ∧ IsServed (imported b) 0 0x0403
    ∧ (imported b).sxRegion ((imported b).asks 0) = some registered ∧ ((imported b).asks 0).f 0x10 8 = shard.imageBytes
    ∧ (imported b).regionPoison registered (2 ^ 30 - 0x30000) shard.imageBytes = none
    ∧ (imported b).sxWait registered (2 ^ 30 - 0x30000) shard.imageBytes false = none
    ∧ (imported b).slotAt shard ((imported b).trn.pending shard) = some (registered, 0x240000) ∧ registered.kind = 0 := by
  intro d hd
  simp only [List.mem_cons, List.not_mem_nil, or_false] at hd
  rcases hd with rfl | rfl
  all_goals exact ⟨inv (by decide +kernel), served (by decide +kernel), by decide +kernel⟩

def asksRepair : State := ask trained 0 0x0404 (leBytes 4 0xFFFFF ++ zeros 4)

theorem wit_ShardsRepaired_asks : asksRepair.Inv ∧ IsServed asksRepair 0 0x0404 ∧ (asksRepair.asks 0).rz 0 4 31 20 = true
    ∧ (asksRepair.asks 0).zb 4 4 = true ∧ asksRepair.trn.shard (bits ((asksRepair.asks 0).f 0 4) 19 0) = some shard
    ∧ asksRepair.ownsShard shard = true ∧ asksRepair.otherTwin shard = some 1 ∧ asksRepair.stepActive = false
    ∧ asksRepair.fab.unreachable 1 = false ∧ asksRepair.fab.addr = some 0 :=
  ⟨inv (by decide +kernel), served (by decide +kernel), by decide +kernel⟩

/-- The repair is in progress. -/
def repairing : State := { trained with mbx := { trained.mbx with prog := some ⟨3, 7, .shardRepair 0xFFFFF, false⟩ } }

/-- The whole slot at a ring. -/
def slotOf (ring : Nat) : Bytes := slotCtl ring ++ zeros (0x40000 - 160)

/-- Past the control area the slot holds zeros. -/
theorem seg_slotOf (ring area : Nat) (h : (slotCtl ring).length ≤ area) (h' : area + 20 ≤ (slotCtl ring).length + (0x40000 - 160)) :
    shard.segOf (slotOf ring) area 4 0 = zeros 20 := by
  have e : shard.segOf (slotOf ring) area 4 0 = ((slotCtl ring ++ zeros (0x40000 - 160)).drop area).take 20 := rfl
  rw [e, List.drop_append, List.drop_eq_nil_of_le h, List.nil_append, zeros, List.drop_replicate, List.take_replicate, zeros,
    Nat.min_eq_left (by omega)]

theorem wit_ShardsRepaired_data : repairing.Inv ∧ repairing.powered = true ∧ repairing.trn.shard 0xFFFFF = some shard
    ∧ repairing.owns shard = true ∧ repairing.mbx.prog = some ⟨3, 7, .shardRepair shard.shard, false⟩
    ∧ 3 ∉ repairing.mbx.latch ∧ shard.intactIn (slotOf 5) repairing.topRing = true
    ∧ (slotOf 5).length = shard.slotBytes
    ∧ repairing.slotAt shard (repairing.trn.committed shard) = some (registered, 0x200000) ∧ registered.kind = 0
    ∧ repairing.slotsWait = none ∧ repairing.trn.fetches = [] := by
  have hl : (slotOf 5).length = shard.slotBytes := by
    have h1 : (slotCtl 5).length = 160 := by decide +kernel
    have h2 : shard.slotBytes = 0x40000 := by decide +kernel
    rw [slotOf, List.length_append, h1, h2, zeros, List.length_replicate]
  have hi : shard.intactIn (slotOf 5) repairing.topRing = true := by
    unfold ShardDef.intactIn ShardDef.blazeIn ShardDef.momOf
    have h1 : List.range shard.segs = [0] := by decide +kernel
    simp only [h1, List.map_cons, List.map_nil, seg_slotOf 5 shard.wOff (by decide +kernel) (by decide +kernel),
      seg_slotOf 5 shard.mOff (by decide +kernel) (by decide +kernel)]
    decide +kernel
  have h : repairing.powered = true ∧ repairing.trn.shard 0xFFFFF = some shard ∧ repairing.owns shard = true
      ∧ repairing.mbx.prog = some ⟨3, 7, .shardRepair shard.shard, false⟩ ∧ 3 ∉ repairing.mbx.latch := by decide +kernel
  exact ⟨inv (by decide +kernel), h.1, h.2.1, h.2.2.1, h.2.2.2.1, h.2.2.2.2, hi, hl, by decide +kernel⟩

theorem wit_ShardsRepaired_request : trained.powered = true ∧ trained.trn.shard 0xFFFFF = some shard
    ∧ trained.owns shard = true ∧ trained.fab.addr = some 0 ∧ trained.slotsWait = none
    ∧ (trained.trn.selOf 0xFFFFF).ring = 5
    ∧ trained.slotPoison shard (trained.trn.committed shard) 0 shard.slotBytes = false
    ∧ trained.slotPoison shard (trained.trn.pending shard) 0 shard.mOff = false := by decide +kernel

/-- A step whose referee round awaits the referee of the shard. -/
def disputing : State :=
  { trained with stp := { Stp.reset with active := some { stepOf .running 6 with round := 1, disputes := [(0xFFFFF, 0)] } } }

theorem wit_ShardsRepaired_result : disputing.powered = true ∧ disputing.disputed 0xFFFFF = true
    ∧ disputing.slotsWait = none := by decide +kernel

end Sys2Proof.Tests
end

