-- ==== Sys2Proof/Tests/Work.lean ====
section
/-! SUPPORT. States that meet the hypotheses of the statements about chain collectives and operations: one theorem per
clause. -/

set_option Elab.async false

namespace Sys2Proof.Tests

open Sys2Proof Sys2Proof.Machine

/-- Accesses that are all accessible, as a check. -/
theorem accs {s : State} {l : List (Nat × Nat × Bool)} (h : l.all (fun a => accB s a.1 a.2.1 a.2.2) = true) :
    ∀ a ∈ l, Accessible s a.1 a.2.1 a.2.2 := fun a ha => acc (List.all_eq_true.mp h a ha)

/-! ### A line of three -/

/-- Three devices along Z, seen from an address. -/
def trio (me : Nat) : State :=
  { base with fab := { pairFab me with sz := 3, members := some [0, 1, 2], records := [zRecord 0, zRecord 1, zRecord 2] } }

/-- A shard of one tile that device 0 owns. -/
def flatShard : ShardDef := { shard := 4, params := 16384, moments := 1, owner := 0, twinEn := false, twin := 0, region := 0, va := 0x40200000 }

/-- A descriptor of the i-th 64 KiB of the STACK region. -/
def desc (i format mode : Nat) (dims strides : List Nat) : Bytes := tdOf format mode dims.length 0 (0x40000000 + 0x10000 * i) dims strides

/-- A plan that reduces, updates and gathers the shard. -/
def collective : Bytes :=
  let flat := fun (i format mode : Nat) => desc i format mode [128, 128] [1, 1]
  let block := leBytes 4 4 ++ [2#8, 0#8, 3#8] ++ zeros 9
  container [flat 0 0 0, flat 1 1 0, flat 2 1 0, flat 3 4 1, flat 4 1 0] [0, 0, 0, 0, 0]
    [⟨0x30, 0, [absent, absent, absent], [absent], block⟩, ⟨0x30, 0, [0, 1, 2], [3], block⟩, ⟨0x31, 0, [], [4], block⟩,
     ⟨0x40, 0, [], [], leBytes 4 4 ++ [0#8] ++ zeros 3 ++ leBytes 4 0x3F000000 ++ zeros 16 ++ leBytes 4 one32 ++ zeros 128⟩, verdictOp]
    [edge 1 3 0, edge 2 4 0, edge 3 4 0, edge 1 4 0] (settings 1) []

/-- The step of ring 6 with instances. -/
def stepWith (insts : List Inst) : Step := { stepOf .running 6 with insts := insts }

/-- A device on the line at ring 5 that runs the step of ring 6. -/
def onLine (me : Nat) (insts : List Inst) (chains : List Chain) : State :=
  let s := trio me
  { s with
    pln := { Pln.reset with plans := [planOf 1 collective] }
    stp := { Stp.reset with active := some (stepWith insts) }
    trn := { Trn.reset with shards := [flatShard], sel := [(4, ⟨5, true, 0⟩)], ring := 5 }
    fab := { s.fab with chains := chains, send := [{ ctx := 1024, dst := 0, plan := 1, op := 1, mb := 0, next := 0, credits := 256, unacked := [], kept := [], waiting := [], resends := 0, failed := false }] } }

/-- The same with no record of another device. -/
def gatherCut (insts : List Inst) (chains : List Chain) : State :=
  let s := onLine 2 insts chains
  { s with fab := { s.fab with records := [] } }

/-- The descriptor of the plan with an id. -/
def flatTd (id : Nat) : TD := (planOf 1 collective).td id 0

theorem wit_ReductionsRun_off : (onLine 2 [] []).Inv
    ∧ (onLine 2 [] []).enter 0x0030 0 0 = some ((onLine 2 [] []).issue (planOf 1 collective) (stepWith []) 0 0, stepWith [], planOf 1 collective)
    ∧ (onLine 2 [] []).slotsWait = none ∧ (onLine 2 [] []).trn.shard ((planOf 1 collective).shardOf 0) = some flatShard
    ∧ (onLine 2 [] []).fab.addr = some 2 ∧ (onLine 2 [] []).fab.chain flatShard.shard = none
    ∧ (onLine 2 [] []).fab.earlyMsgs = [] ∧ (planOf 1 collective).inTd 0 0 0 = none :=
  ⟨inv (by decide +kernel), enter_fresh (by decide +kernel) rfl (by decide +kernel), by decide +kernel⟩

theorem wit_ReductionsRun_on :
    (onLine 2 [] []).enter 0x0030 1 0 = some ((onLine 2 [] []).issue (planOf 1 collective) (stepWith []) 1 0, stepWith [], planOf 1 collective)
    ∧ (∀ a ∈ (flatTd 0).accs false ++ (flatTd 1).accs false ++ (flatTd 2).accs true ++ (flatTd 3).accs true,
        Accessible (onLine 2 [] []) a.1 a.2.1 a.2.2)
    ∧ (onLine 2 [] []).trn.shard ((planOf 1 collective).shardOf 1) = some flatShard
    ∧ (planOf 1 collective).inTd 1 0 0 = some (flatTd 0)
    ∧ (onLine 2 [] []).residues (planOf 1 collective) 1 = some (flatTd 1, flatTd 2)
    ∧ (planOf 1 collective).outTd 1 0 0 = some (flatTd 3)
    ∧ ((planOf 1 collective).lineOf 1).reducePos flatShard.owner 2 ≠ 0 :=
  ⟨enter_fresh (by decide +kernel) rfl (by decide +kernel), accs (by decide +kernel), by decide +kernel⟩

/-- A message of the shard's segment 0. -/
def message (ring attempt kind hop : Nat) : Bytes :=
  ({ shard := 4, seg := 0, attempt := attempt, ring := ring, kind := kind, hop := hop, entries := 0, c1 := 0, c2 := 0, blaze := 0, payload := [0#8, 0x3C#8] } : ChainMsg).bytes

theorem wit_ReductionsRun_message : (onLine 2 [] []).powered = true ∧ (onLine 2 [] []).slotsWait = none
    ∧ (ChainMsg.parse (message 6 1 1 1)).kind = 1
    ∧ (onLine 2 [] []).arrival (ChainMsg.parse (message 6 1 1 1)).step (ChainMsg.parse (message 6 1 1 1)).attempt = .wait
    ∧ (ChainMsg.parse (message 5 0 2 0)).kind = 2
    ∧ (onLine 2 [] []).arrival (ChainMsg.parse (message 5 0 2 0)).step (ChainMsg.parse (message 5 0 2 0)).attempt = .gone := by
  decide +kernel

/-- The reduction has begun. -/
def reducing : State := onLine 2 [⟨1, 0, .issued⟩] [Chain.start 4 1 true 0]

theorem wit_ReductionsRun_hop : reducing.Inv ∧ reducing.powered = true ∧ reducing.slotsWait = none
    ∧ (ChainMsg.parse (message 6 0 1 1)).kind = 1
    ∧ reducing.arrival (ChainMsg.parse (message 6 0 1 1)).step (ChainMsg.parse (message 6 0 1 1)).attempt = .now
    ∧ reducing.stepPlan = some (stepWith [⟨1, 0, .issued⟩], planOf 1 collective)
    ∧ reducing.trn.shard (ChainMsg.parse (message 6 0 1 1)).shard = some flatShard
    ∧ reducing.fab.chain (ChainMsg.parse (message 6 0 1 1)).shard = some (Chain.start 4 1 true 0)
    ∧ reducing.fab.addr = some 2 ∧ 2 ≠ flatShard.owner ∧ (ChainMsg.parse (message 6 0 1 1)).seg ∉ (Chain.start 4 1 true 0).written
    ∧ (ChainMsg.parse (message 6 0 1 1)).hop = ((planOf 1 collective).lineOf 1).reducePos flatShard.owner 2
    ∧ (ChainMsg.parse (message 6 0 1 1)).hop ≠ 0 ∧ (planOf 1 collective).outTd 1 0 0 = some (flatTd 3)
    ∧ reducing.segsWait (flatTd 3) flatShard.params [(ChainMsg.parse (message 6 0 1 1)).seg] = none
    ∧ (∀ n ∈ reducing.fab.ctxOf 1 1 0 (((planOf 1 collective).lineOf 1).next 2), ∀ x ∈ reducing.fab.ctx n,
        (reducing.fab.route 2 x.dst).isSome = true) :=
  ⟨inv (by decide +kernel), by decide +kernel⟩

/-! ### The gather -/

/-- The predecessor on the gather path is reached, or not: without the records of the line no route holds. -/
theorem wit_GathersRun_reach : (onLine 2 [] []).fab.unreachable (((planOf 1 collective).lineOf 2).prev 2) = false := by
  decide +kernel

theorem wit_GathersRun_cut : (gatherCut [] []).Inv
    ∧ (gatherCut [] []).enter 0x0031 2 0 = some ((gatherCut [] []).issue (planOf 1 collective) (stepWith []) 2 0, stepWith [], planOf 1 collective)
    ∧ (gatherCut [] []).slotsWait = none ∧ (gatherCut [] []).fab.addr = some 2 ∧ (gatherCut [] []).fab.gatherReqs = []
    ∧ (gatherCut [] []).fab.unreachable (((planOf 1 collective).lineOf 2).prev 2) = true :=
  ⟨inv (by decide +kernel), enter_fresh (by decide +kernel) rfl (by decide +kernel), by decide +kernel⟩

theorem wit_GathersRun_begin : ∀ me ∈ [0, 2], (onLine me [] []).Inv
    ∧ (onLine me [] []).enter 0x0031 2 0 = some ((onLine me [] []).issue (planOf 1 collective) (stepWith []) 2 0, stepWith [], planOf 1 collective)
    ∧ (∀ a ∈ (flatTd 4).accs true, Accessible (onLine me [] []) a.1 a.2.1 a.2.2)
    ∧ (onLine me [] []).slotsWait = none ∧ (onLine me [] []).trn.shard ((planOf 1 collective).shardOf 2) = some flatShard
    ∧ (onLine me [] []).fab.addr = some me ∧ (planOf 1 collective).outTd 2 0 0 = some (flatTd 4)
    ∧ (onLine me [] []).fab.gather flatShard.shard ((planOf 1 collective).gatherOf 2) = none
    ∧ (onLine me [] []).fab.earlyMsgs = [] ∧ (onLine me [] []).fab.gatherReqs = []
    ∧ ((onLine me [] []).trn.selOf flatShard.shard).ring + 1 = (stepWith []).ring
    ∧ (onLine me [] []).slotPoisonAt flatShard ((onLine me [] []).trn.committed flatShard) flatShard.wOff (4 * flatShard.params) = none := by
  intro d hd
  simp only [List.mem_cons, List.not_mem_nil, or_false] at hd
  rcases hd with rfl | rfl
  all_goals
    exact ⟨inv (by decide +kernel), enter_fresh (by decide +kernel) rfl (by decide +kernel), accs (by decide +kernel), by decide +kernel⟩

/-- The gather has its digests; segment 0's is given. -/
def digested (dig : Nat) : Chain := { Chain.start 4 2 false 0 with checked := true, entries := [(0, (0, 0, dig))] }
def gathering (dig : Nat) : State := onLine 2 [⟨2, 0, .issued⟩] [digested dig]

/-- The digest of the message's payload. -/
def goodDigest : Nat := crc64 [0#8, 0x3C#8]

/-- Pieces that are all accessible, as a check. -/
theorem pieces {s : State} {l : List Nat} {f : Nat → List Piece} (h : (l.flatMap f).all (fun x => accB s x.va x.len true) = true) :
    ∀ k ∈ l, ∀ x ∈ f k, Accessible s x.va x.len true :=
  fun k hk x hx => acc (List.all_eq_true.mp h x (List.mem_flatMap.mpr ⟨k, hk, hx⟩))

theorem wit_GathersRun_message : ∀ dig ∈ [goodDigest, 0], (gathering dig).Inv
    ∧ (∀ k ∈ segTiles flatShard.params 0, ∀ x ∈ (flatTd 4).recordPieces ((flatTd 4).tileIndex (flatTile k)),
        Accessible (gathering dig) x.va x.len true)
    ∧ (gathering dig).powered = true
    ∧ (ChainMsg.parse (message 5 0 4 2)).kind = 4 ∧ (gathering dig).fab.earlyMsgs = []
    ∧ (gathering dig).arrival (ChainMsg.parse (message 5 0 4 2)).step (ChainMsg.parse (message 5 0 4 2)).attempt true = .now
    ∧ (gathering dig).stepPlan = some (stepWith [⟨2, 0, .issued⟩], planOf 1 collective)
    ∧ (gathering dig).trn.shard (ChainMsg.parse (message 5 0 4 2)).shard = some flatShard
    ∧ (gathering dig).fab.gather (ChainMsg.parse (message 5 0 4 2)).shard 0 = some (digested dig)
    ∧ (gathering dig).fab.addr = some 2 ∧ 2 ≠ flatShard.owner
    ∧ (ChainMsg.parse (message 5 0 4 2)).hop = ((planOf 1 collective).lineOf (digested dig).op).gatherPos flatShard.owner 2
    ∧ (digested dig).checked = true ∧ (ChainMsg.parse (message 5 0 4 2)).seg ∉ (digested dig).written
    ∧ (planOf 1 collective).outTd (digested dig).op 0 0 = some (flatTd 4) ∧ (digested dig).requested = false
    ∧ (dig = goodDigest → crc64 (ChainMsg.parse (message 5 0 4 2)).payload = ((digested dig).entries.getD 0 (0, 0, 0)).2.2)
    ∧ (dig = 0 → crc64 (ChainMsg.parse (message 5 0 4 2)).payload ≠ ((digested dig).entries.getD 0 (0, 0, 0)).2.2)
    ∧ (digested dig).retries.getD 0 0 < 3 ∧ (gathering dig).inst 2 0 = some .issued := by
  intro d hd
  simp only [List.mem_cons, List.not_mem_nil, or_false] at hd
  rcases hd with rfl | rfl
  all_goals exact ⟨inv (by decide +kernel), pieces (by decide +kernel), by decide +kernel⟩

theorem wit_GathersRun_wait : (gathering 0).powered = true ∧ (ChainMsg.parse (message 6 0 3 2)).kind = 3
    ∧ (gathering 0).fab.earlyMsgs = []
    ∧ (gathering 0).arrival (ChainMsg.parse (message 6 0 3 2)).step (ChainMsg.parse (message 6 0 3 2)).attempt true = .wait
    ∧ (onLine 2 [] []).arrival (5 + 1) 0 true = .now ∧ (onLine 2 [] []).fab.gather 4 0 = none
    ∧ (onLine 2 [] []).arrival (6 + 1) 0 true = .wait ∧ (onLine 2 [] []).arrival (4 + 1) 0 true = .gone := by decide +kernel

theorem wit_GathersRun_read : trained.Inv ∧ Accessible trained 0x401FFFF0 32 false ∧ trained.powered = true
    ∧ trained.fab.peerReads = [] ∧ 5 ≤ trained.deviceRing ∧ (trained.peerRegion 0x401FFFF0 32 false).isSome = true
    ∧ trained.peerRegion 0x80000000 32 false = none :=
  ⟨inv (by decide +kernel), acc (by decide +kernel), by decide +kernel⟩

/-! ### Operations -/

/-- Descriptors of stride 1 of small tensors. -/
def b32s (i : Nat) (dims : List Nat) : Bytes := desc i 0 0 dims (dims.map fun _ => 1)
def vecParam (mode : Nat) : Bytes := [1#8] ++ leBytes 1 mode ++ zeros 30 ++ leBytes 4 0xE01 ++ zeros 60
def moveParam (flags : Nat) : Bytes := leBytes 1 flags ++ zeros 1 ++ leBytes 2 (if flags = 0 then 0 else 1) ++ zeros 60
def winParam : Bytes := [1#8, 1#8, 1#8, 1#8, 1#8, 1#8] ++ zeros 10

/-- Tensors 0 to 26 of the plan of one operation of each kind. -/
def worksDescs : List Bytes :=
  [b32s 0 [2, 2], b32s 1 [2, 2], b32s 2 [1, 2], b32s 3 [1, 2], b32s 4 [2, 2], b32s 5 [2, 2], desc 6 2 0 [2, 2] [1, 1],
   b32s 7 [2, 2], b32s 8 [2, 2, 1, 1], b32s 9 [2, 2, 1, 1], b32s 10 [4, 2], b32s 11 [4, 2], b32s 12 [4, 2], b32s 13 [1, 2],
   b32s 14 [1, 1], b32s 15 [1], desc 16 1 0 [1, 1, 1, 1] [1, 1, 1, 1], desc 17 1 0 [1, 1, 1, 1] [1, 1, 1, 1],
   desc 18 1 0 [1, 1, 1, 1] [1, 1, 1, 1], b32s 19 [2, 2], b32s 20 [2, 2], b32s 21 [2, 2], b32s 22 [2, 2],
   desc 23 8 0 [257, 1] [1, 3], desc 24 8 0 [1, 257] [1, 1], b32s 25 [1, 1], desc 26 1 0 [1, 1, 1, 1] [1, 1, 1, 1]]

/-- The plan: VECTOR in its four modes, ACT_BACKWARD, GRAD_GATHER, POOL, BOXDECODE, SUPPRESS, SAPLING_CONV, MOVE within
the device, from a peer and to one, PREFETCH, MATMUL in two segments, CONV. -/
def works : Bytes :=
  container worksDescs (worksDescs.map fun _ => 0)
    [⟨0x20, 0, [0], [1], vecParam 0⟩, ⟨0x20, 0, [0], [2], vecParam 0x40⟩, ⟨0x20, 0, [0, absent, absent, 3], [4], vecParam 0x80⟩,
     ⟨0x20, 0, [0, absent, absent, 3], [5], vecParam 0x88⟩, ⟨0x21, 0, [0, 0], [6], [8#8] ++ zeros 31⟩,
     ⟨0x22, 0, [0, 0], [7], [2#8] ++ zeros 15⟩, ⟨0x11, 0, [8], [9], winParam ++ zeros 16⟩, ⟨0x12, 0, [10, 11], [12], zeros 64⟩,
     ⟨0x13, 0, [10, 13], [14, 15], leBytes 4 0x3F000000 ++ zeros 4 ++ leBytes 4 1 ++ zeros 4⟩,
     ⟨0x14, 0, [16, 17], [18], winParam ++ zeros 48⟩, ⟨0x60, 0, [0], [19], moveParam 0⟩, ⟨0x60, 0, [21], [20], moveParam 3⟩,
     ⟨0x60, 0, [0], [22], moveParam 1⟩, ⟨0x61, 0, [0], [], zeros 16⟩,
     ⟨0x01, 0, [23, 24], [25], leBytes 4 1 ++ leBytes 4 1 ++ leBytes 4 257 ++ [0#8, 2#8] ++ zeros 50⟩,
     ⟨0x10, 0, [16, 17], [26], winParam ++ zeros 4 ++ leBytes 2 1 ++ zeros 42⟩] [] (settings 1) []

/-- A machine that runs a step of it; the MOVE to the peer has its context. -/
def working (insts : List Inst) : State :=
  { pair 0 with
    pln := { Pln.reset with plans := [planOf 1 works] }
    stp := { Stp.reset with active := some (stepWith insts) }
    trn := { Trn.reset with ring := 5 }
    fab := { pairFab 0 with send := [{ ctx := 1024, dst := 1, plan := 1, op := 12, mb := 0, next := 0, credits := 256, unacked := [], kept := [], waiting := [], resends := 0, failed := false }] } }

theorem enters (code op : Nat) (h : (stepWith []).mayIssue (planOf 1 works) code op 0 = true) :
    (working []).enter code op 0 = some ((working []).issue (planOf 1 works) (stepWith []) op 0, stepWith [], planOf 1 works) :=
  enter_fresh rfl rfl h

theorem working_inv : (working []).Inv := inv (by decide +kernel)

/-- Every operation that runs in one event may issue, and its tensors are accessible. -/
theorem wit_OperationsRun : ∀ x ∈ [(0x20, 0), (0x20, 1), (0x20, 2), (0x20, 3), (0x21, 4), (0x22, 5), (0x11, 6), (0x12, 7), (0x13, 8)],
    (working []).enter x.1 x.2 0 = some ((working []).issue (planOf 1 works) (stepWith []) x.2 0, stepWith [], planOf 1 works)
    ∧ (∀ a ∈ optAccs ((planOf 1 works).insOf x.2 0) false ++ optAccs ((planOf 1 works).outsOf x.2 0) true,
        Accessible (working []) a.1 a.2.1 a.2.2) := by
  have h : [(0x20, 0), (0x20, 1), (0x20, 2), (0x20, 3), (0x21, 4), (0x22, 5), (0x11, 6), (0x12, 7), (0x13, 8)].all (fun x =>
      (stepWith []).mayIssue (planOf 1 works) x.1 x.2 0
        && (optAccs ((planOf 1 works).insOf x.2 0) false ++ optAccs ((planOf 1 works).outsOf x.2 0) true).all fun a =>
          accB (working []) a.1 a.2.1 a.2.2) = true := by decide +kernel
  intro x hx
  have hx := List.all_eq_true.mp h x hx
  simp only [Bool.and_eq_true] at hx
  exact ⟨enters _ _ hx.1, accs hx.2⟩

/-- The Grove and the Floor engines that run them are not stopped. -/
theorem wit_OperationsRun_units : (working []).groveStopped 191 = false ∧ (∀ e ∈ [(0 : Fin 4), 3], (working []).floorStopped (e.val / 2) = false) := by
  decide +kernel

theorem wit_OperationsRun_modes : (working []).vecMode 0 = some 0 ∧ (working []).vecMode 1 = some 1
    ∧ (working []).vecMode 2 = some 2 ∧ (working []).vecMode 3 = some 3 := by decide +kernel

/-- ACT_BACKWARD and GRAD_GATHER write one tile without side data, and have their inputs. -/
theorem wit_OperationsRun_tiles : ∀ op ∈ [4, 5], ((planOf 1 works).outTd op 0 0).map (fun o => (o.tiles, o.mode)) = some ([[0, 0, 0, 0, 0, 0]], 0) := by
  decide +kernel

theorem wit_OperationsRun_sapling :
    (working []).enter 0x14 9 0 = some ((working []).issue (planOf 1 works) (stepWith []) 9 0, stepWith [], planOf 1 works)
    ∧ ∃ q, (planOf 1 works).prod 9 0 = some q ∧ (∀ a ∈ q.a.accs false ++ q.b.accs false ++ optAccs [q.cols] false
      ++ q.d.accs true ++ optAccs [q.save] true, Accessible (working []) a.1 a.2.1 a.2.2) :=
  ⟨enters _ _ (by decide +kernel), _, (Option.some_get (show ((planOf 1 works).prod 9 0).isSome = true by decide +kernel)).symm, accs (by decide +kernel)⟩

/-- The tensor of a slot of the plan. -/
def worksIn (op : Nat) : TD := ((planOf 1 works).inTd op 0 0).getD (flatTd 0)
def worksOut (op : Nat) : TD := ((planOf 1 works).outTd op 0 0).getD (flatTd 0)

theorem wit_OperationsRun_move :
    (working []).enter 0x60 10 0 = some ((working []).issue (planOf 1 works) (stepWith []) 10 0, stepWith [], planOf 1 works)
    ∧ (∀ a ∈ (movePieces ((planOf 1 works).param 10) (worksIn 10) (worksOut 10)).map (fun r => (r.va, r.len, false))
        ++ (worksOut 10).accs false ++ (worksOut 10).accs true, Accessible (working []) a.1 a.2.1 a.2.2)
    ∧ (planOf 1 works).peerOut 10 = false ∧ (planOf 1 works).peerIn 10 = false
    ∧ (planOf 1 works).inTd 10 0 0 = some (worksIn 10) ∧ (planOf 1 works).outTd 10 0 0 = some (worksOut 10)
    ∧ (worksIn 10).side = (worksOut 10).side :=
  ⟨enters _ _ (by decide +kernel), accs (by decide +kernel), by decide +kernel⟩

/-- The peer of the MOVE is reached, or, without its record, not. -/
theorem wit_OperationsRun_reach : (working []).fab.unreachable (fld ((planOf 1 works).param 11) 2 2) = false := by
  decide +kernel

/-- The peer has no record. -/
def alone : State := { working [] with fab := { (working []).fab with records := [] } }

theorem wit_OperationsRun_cut :
    alone.enter 0x60 11 0 = some (alone.issue (planOf 1 works) (stepWith []) 11 0, stepWith [], planOf 1 works)
    ∧ alone.fab.unreachable (fld ((planOf 1 works).param 11) 2 2) = true :=
  ⟨enter_fresh rfl rfl (by decide +kernel), by decide +kernel⟩

theorem wit_OperationsRun_ask :
    (working []).enter 0x60 11 0 = some ((working []).issue (planOf 1 works) (stepWith []) 11 0, stepWith [], planOf 1 works)
    ∧ (planOf 1 works).peerOut 11 = false ∧ (planOf 1 works).peerIn 11 = true
    ∧ (planOf 1 works).inTd 11 0 0 = some (worksIn 11) ∧ (planOf 1 works).outTd 11 0 0 = some (worksOut 11) :=
  ⟨enters _ _ (by decide +kernel), by decide +kernel⟩

/-- What the peer answers for the one tile record of the MOVE's input. -/
def answer : Bytes := zeros 65536

theorem wit_OperationsRun_answers : ∀ op ∈ [11, 12], (working [⟨op, 0, .sent⟩]).Inv
    ∧ (working [⟨op, 0, .sent⟩]).stepPlan = some (stepWith [⟨op, 0, .sent⟩], planOf 1 works)
    ∧ (∀ a ∈ (worksOut op).accs true, Accessible (working [⟨op, 0, .sent⟩]) a.1 a.2.1 a.2.2)
    ∧ (working [⟨op, 0, .sent⟩]).inst op 0 = some .sent ∧ (working [⟨op, 0, .sent⟩]).powered = true
    ∧ (planOf 1 works).inTd op 0 0 = some (worksIn op) ∧ (planOf 1 works).outTd op 0 0 = some (worksOut op)
    ∧ (op = 12 → (planOf 1 works).peerOut op = true
      ∧ (working [⟨op, 0, .sent⟩]).ctxSent (planOf 1 works) op 0 (fld ((planOf 1 works).param op) 2 2) = true)
    ∧ (op = 11 → (planOf 1 works).peerOut op = false
      ∧ (movePieces ((planOf 1 works).param op) (worksIn op) (worksOut op)).map (·.len) = [65536]
      ∧ (worksIn op).side = (worksOut op).side) := by
  intro d hd
  simp only [List.mem_cons, List.not_mem_nil, or_false] at hd
  rcases hd with rfl | rfl
  all_goals exact ⟨inv (by decide +kernel), rfl, accs (by decide +kernel), by decide +kernel⟩

theorem wit_OperationsRun_answer : [answer].map List.length = [65536] := by
  rw [List.map_singleton, answer, zeros, List.length_replicate]

theorem wit_OperationsRun_prefetch :
    (working []).enter 0x61 13 0 = some ((working []).issue (planOf 1 works) (stepWith []) 13 0, stepWith [], planOf 1 works)
    ∧ (planOf 1 works).inTd 13 0 0 = some (worksIn 13) ∧ (∀ a ∈ (worksIn 13).accs false, Accessible (working []) a.1 a.2.1 a.2.2) :=
  ⟨enters _ _ (by decide +kernel), by decide +kernel, accs (by decide +kernel)⟩

end Sys2Proof.Tests
end

