-- ==== Sys2Proof/Tests/Engines.lean ====
section
/-! SUPPORT. States that meet the hypotheses of the statements about the matrix engine, the tile mover and translation: one
theorem per clause. -/

set_option Elab.async false

namespace Sys2Proof.Tests

open Sys2Proof Sys2Proof.Machine

/-! ### Products -/

/-- A place in a Grove of the west half. -/
def place : Place := ⟨191, 3⟩

theorem wit_ProductsRun_issue :
    (working []).enter 1 14 0 = some ((working []).issue (planOf 1 works) (stepWith []) 14 0, stepWith [], planOf 1 works)
    ∧ (working []).enter 0x10 15 0 = some ((working []).issue (planOf 1 works) (stepWith []) 15 0, stepWith [], planOf 1 works)
    ∧ (∀ a ∈ [place, ⟨0, 0⟩], (working []).groveStopped a.grove = false) ∧ (working []).eng.tasks = [] :=
  ⟨enters _ _ (by decide +kernel), enters _ _ (by decide +kernel), by decide +kernel⟩

/-- The MATMUL's task context, with a partition of 2 MiB. -/
def task : Task := ⟨191, 3, 14, 0, false, 77, 0, 0x200000⟩

/-- The MATMUL is at work at the place. -/
def multiplying (e : Eng) : State :=
  let s := working [⟨14, 0, .issued⟩]
  { s with eng := { e with tasks := [task] } }

/-- The addresses of A's and B's last tile records. -/
def lastA : Nat := 0x40000000 + 0x10000 * 23 + 2 * 8192
def lastB : Nat := 0x40000000 + 0x10000 * 24 + 2 * 8192

/-- A record of 4-bit elements whose first cell begins with a byte. -/
def operandRec (va : Nat) (b : Byte) : ScratchTile := ⟨191, 3, 14, 0, 0, va, (b :: zeros 31) :: List.replicate 255 (zeros 32), [], false⟩

/-- The tile of A and the tile of B that the second segment reads. -/
def operands : Eng := { Eng.reset with scratch := [operandRec lastA 7#8, operandRec lastB 3#8] }

/-- The MATMUL's product and its one block. -/
def product : Prod := ((planOf 1 works).prod 14 0).get (by decide +kernel)
def block : Blk := ⟨0, 1, 0, 1, [0, 0, 0, 0], 0⟩

theorem product_eq : (planOf 1 works).prod 14 0 = some product := (Option.some_get _).symm

/-- A run of a segment. -/
def run (seg : Nat) (sums : List Nat) (level : Nat) : Run := ⟨14, 0, 0, seg, place, level, 1, sums, [], [], [], true, false⟩

theorem wit_ProductsRun_pass : (multiplying operands).atWork 14 0 = some (stepWith [⟨14, 0, .issued⟩], planOf 1 works)
    ∧ (multiplying operands).eng.taskAt place 14 0 = some task ∧ (multiplying operands).groveStopped place.grove = false
    ∧ (multiplying operands).hasTurn place = true
    ∧ ((multiplying operands).nextPass product place 0 1).map (fun x => (x.1, x.2.1)) = some (block, Run.fresh 14 0 0 1 place)
    ∧ (multiplying operands).eng.run 14 0 0 1 = none ∧ ((multiplying operands).eng.makeRoom place 65536).isSome = true :=
  ⟨rfl, by decide +kernel⟩

/-- Both segments have finished at a level. -/
def segmented (a b level : Nat) : State := multiplying { Eng.reset with runs := [run 0 [a] level, run 1 [b] level] }

/-- The segments' sums overflow together, or do not. -/
theorem wit_ProductsRun_combine : ∀ x ∈ [(5, 6, 0), (0x7F7FFFFF, 0x7F7FFFFF, 0), (0x7F7FFFFF, 0x7F7FFFFF, 2)],
    (segmented x.1 x.2.1 x.2.2).atWork 14 0 = some (stepWith [⟨14, 0, .issued⟩], planOf 1 works) ∧ product.blocks[0]? = some block
    ∧ (segmented x.1 x.2.1 x.2.2).eng.finishedRuns product 0 = some (run 0 [x.1] x.2.2 :: [run 1 [x.2.1] x.2.2])
    ∧ 1 < product.segs ∧ (segmented x.1 x.2.1 x.2.2).groveStopped place.grove = false
    ∧ (if product.int then (combineSums product.int [[x.1], [x.2.1]] 1).2
        else block.overflowed (flagged [run 0 [x.1] x.2.2, run 1 [x.2.1] x.2.2] 1) (combineSums product.int [[x.1], [x.2.1]] 1).1)
      = decide (x.1 ≠ 5) := by
  intro d hd
  simp only [List.mem_cons, List.not_mem_nil, or_false] at hd
  rcases hd with rfl | rfl | rfl
  all_goals exact ⟨rfl, by decide +kernel⟩

/-- The finished block. -/
def finished : Block := ⟨14, 0, 0, place, 0, [11], false, false, [], []⟩
def draining : State := multiplying { Eng.reset with blocks := [finished] }

theorem wit_ProductsRun_drain : draining.Inv ∧ draining.atWork 14 0 = some (stepWith [⟨14, 0, .issued⟩], planOf 1 works)
    ∧ draining.drainable product 0 = some (draining, finished) ∧ product.blocks[0]? = some block
    ∧ draining.groveStopped place.grove = false ∧ draining.eng.columns place product block = some none
    ∧ product.blocks.zipIdx.filter (fun z => block.mate z.1) = [(block, 0)] := by
  have hb : draining.eng.blocks.find? (fun b => b.op == product.op && b.mb == product.mb && b.block == 0) = some finished := by
    decide +kernel
  have hc : product.cols.isNone = true := by decide +kernel
  refine ⟨inv (by decide +kernel), rfl, by simp [State.drainable, hb, finished], by decide +kernel, by decide +kernel, ?_, by decide +kernel⟩
  simp [Eng.columns, Option.isNone_iff_eq_none.mp hc]

theorem wit_ProductsRun_drain_room : ((draining.drainBlock (planOf 1 works) product block finished none).eng.makeRoom place 0).isSome = true := by
  have hd : product.d.elems = 65536 ∧ product.d.mode = 0 := by decide +kernel
  have hs : product.save = none := Option.isNone_iff_eq_none.mp (by decide +kernel)
  have hb : draining.eng = { Eng.reset with tasks := [task], blocks := [finished] } := rfl
  obtain ⟨l, h1, h2, h3, h4, h5, h6⟩ := draining.drainBlock_eng (planOf 1 works) product block finished none
  generalize (draining.drainBlock (planOf 1 works) product block finished none).eng = e at *
  rw [hb] at h3 h4 h5 h6
  generalize product = q at *
  rw [hs] at h1 h2
  have hl : ((l.filter (·.isAt place)).map ScratchTile.bytes).sum ≤ 65536 := by
    have h := sum_le_mul 65536 ((l.filter (·.isAt place)).map ScratchTile.bytes) (by
      intro x hx
      obtain ⟨u, hu, rfl⟩ := List.mem_map.mp hx
      obtain ⟨d, c, f, hq, hc, hw⟩ := h2 u (List.mem_of_mem_filter hu)
      have hq : d = q.d := by simpa using hq
      have hc' := d.toCells_bytes (d.encodeTile c f).1
      have hn : (d.encodeTile c f).2.1 = [] := by simp [TD.encodeTile, hq, hd.2]
      have he : d.elems = 65536 := hq ▸ hd.1
      simp only [ScratchTile.bytes, hc, hw, hn, List.length_nil, Nat.add_zero]
      exact hc'.trans he.le)
    have := List.length_filter_le (·.isAt place) l
    simp only [List.length_map] at h
    simp at h1
    omega
  refine Option.isSome_of_eq_some (Eng.makeRoom_fits ?_)
  have hr : (e.runs.filter (·.place == place)).length = 0 := by rw [h4]; rfl
  have hk := List.length_filter_le (fun b : Block => b.place == place && !(b.sums.isEmpty && b.out0.isEmpty)) e.blocks
  have hx : e.extent place = 0x200000 := by rw [Eng.extent, h5]; rfl
  have hz : e.scratch = l := by rw [h3]; rfl
  rw [Eng.used, hr, hz, hx]
  rw [h6] at hk
  simp only [List.length_singleton] at hk
  omega

/-! ### Tile moves -/

/-- A load of A's last record, and the store of a result's record. -/
def loading : TileMove := ⟨place, 14, 0, false, 0, [⟨lastA, 8192⟩], 0, false⟩
def storing : TileMove := ⟨place, 14, 0, true, 0, [⟨0x40190000, 65536⟩], 0, false⟩
def result : ScratchTile := ⟨191, 3, 14, 0, 0, 0x40190000, List.replicate 256 (zeros 256), [], true⟩

/-- The MATMUL is at work at the place, with a result and moves. -/
def moving2 (ms : List TileMove) : State := multiplying { Eng.reset with scratch := [result], moves := ms }

theorem wit_TilesMove_start : (moving2 []).atWork 14 0 = some (stepWith [⟨14, 0, .issued⟩], planOf 1 works)
    ∧ (moving2 []).eng.taskAt place 14 0 = some task ∧ (moving2 []).groveStopped place.grove = false
    ∧ ((planOf 1 works).moveRecs 14 0 false loading.pieces).any (fun rs => rs.all fun r => (planOf 1 works).fetches 14 0 0 r) = true
    ∧ ((planOf 1 works).moveRecs 14 0 true storing.pieces).any (fun rs => rs.all fun r => ((moving2 []).eng.resultAt place 14 0 r).isSome) = true
    ∧ loading.pages.length ≤ 256 ∧ storing.pages.length ≤ 256 ∧ (moving2 []).eng.moves = []
    ∧ (moving2 []).deniedPage loading = none ∧ (moving2 []).deniedPage storing = none := ⟨rfl, by decide +kernel⟩

/-- Pieces of a move that are all accessible, as a check. -/
theorem moved {s : State} {l : List Piece} {store : Bool} (h : l.all (fun x => accB s x.va x.len store) = true) :
    ∀ x ∈ l, Accessible s x.va x.len store := fun x hx => acc (List.all_eq_true.mp h x hx)

theorem wit_TilesMove_end : ∀ m ∈ [loading, storing], (moving2 [m]).Inv
    ∧ (∀ x ∈ m.pieces, Accessible (moving2 [m]) x.va x.len m.store)
    ∧ (moving2 [m]).obs.sampler = none ∧ (moving2 [m]).groveStopped m.place.grove = false
    ∧ (moving2 [m]).eng.moves.find? (fun y => y.place == m.place && !(moving2 [m]).moveWaits y) = some m
    ∧ ((moving2 [m]).atWork m.op m.mb).isSome = true
    ∧ ((planOf 1 works).moveRecs m.op m.mb m.store m.pieces).any (fun rs => ((moving2 [m]).moveRoom m rs).isSome) = true := by
  intro d hd
  simp only [List.mem_cons, List.not_mem_nil, or_false] at hd
  rcases hd with rfl | rfl
  all_goals exact ⟨inv (by decide +kernel), moved (by decide +kernel), by decide +kernel⟩

/-- The store's one record, whole. -/
theorem wit_TilesMove_result : ∃ r, (planOf 1 works).moveRecs 14 0 true storing.pieces = some [r] ∧ r.td.side = 0
    ∧ (moving2 [storing]).eng.resultAt place 14 0 r = some result ∧ (r.td.fromCells result.cells).length = r.td.elems
    ∧ r.va / pageBytes = (r.va + r.td.elems - 1) / pageBytes := by
  have h : ((planOf 1 works).moveRecs 14 0 true storing.pieces).any (fun rs => rs.length == 1
      && rs.all fun r => r.td.side == 0 && (moving2 [storing]).eng.resultAt place 14 0 r == some result
        && formatBits r.td.format == 32 && r.va / pageBytes == (r.va + r.td.elems - 1) / pageBytes) = true := by
    decide +kernel
  cases hr : (planOf 1 works).moveRecs 14 0 true storing.pieces with
  | none => simp [hr] at h
  | some rs =>
    simp only [hr, Option.any_some, Bool.and_eq_true, beq_iff_eq, List.all_eq_true] at h
    obtain ⟨r, rfl⟩ := List.length_eq_one_iff.mp h.1
    obtain ⟨⟨⟨h1, h2⟩, h3⟩, h4⟩ := h.2 r List.mem_cons_self
    refine ⟨r, rfl, h1, h2, r.td.fromCells_length _ fun i hi => ?_, h4⟩
    rw [h3, result, List.getD_eq_getElem?_getD, List.getElem?_replicate_of_lt hi]
    exact List.length_replicate

/-- The regions of a machine that maps the STACK region on demand: the tables MAP writes. -/
def onDemand : Rgn :=
  { Rgn.reset with regions := [{ stackRegion with map := some ⟨0x40000000, true, true⟩ }], tables := [(2 ^ 20, 4096)], tbl := [(0, 1#8), (2, 0x10#8), (2 ^ 20 + 8, 0x10#8)] }

/-- A machine that maps the STACK region on demand, or that has mapped it, with a walk outstanding for the load's page. -/
def walking (demand : Bool) : State :=
  let s := moving2 [loading]
  let x : Miss := ⟨191, lastA / pageBytes * pageBytes, false⟩
  if demand then { s with rgn := { onDemand with walks := [x] } }
  else { s with rgn := { s.rgn with walks := [x] } }

theorem wit_TilesMove_walk : ∀ d : Bool, (walking d).powered = true
    ∧ (⟨191, lastA / pageBytes * pageBytes, false⟩ : Miss) ∈ (walking d).rgn.walking (cacheHalf 191)
    ∧ (walking d).obs.sampler = none ∧ (∀ m ∈ (walking d).eng.moves, m.store = false)
    ∧ (walking d).eng.moves.filter (fun m => (walking d).missOf ⟨191, lastA / pageBytes * pageBytes, false⟩ m && !m.demand) = [loading]
    ∧ (d = true → (walking d).rgn.walk (walking d).mem.poison (lastA / pageBytes * pageBytes) false = .fault 1)
    ∧ (d = false → (walking d).rgn.walk (walking d).mem.poison (lastA / pageBytes * pageBytes) false = .leaf 2 7) := by
  decide +kernel

/-- An agent waits on the demand fault. -/
def demanding : State :=
  { base with rgn := { onDemand with demands := [⟨191, 0x40010000, false⟩] } }

theorem wit_TilesMove_demand : demanding.powered = true
    ∧ demanding.rgn.demands.find? (fun y => y.onPage 0x40010000) = some ⟨191, 0x40010000, false⟩
    ∧ (match demanding.xlate 0x40010000 false with | .error 1 => true | _ => false) = true
    ∧ (demanding.rgn.resolve 0x40010000).isSome = true ∧ demanding.eng.moves = [] := by decide +kernel

theorem wit_TilesMove_prefetch : (multiplying Eng.reset).Inv
    ∧ (∀ x ∈ loading.pieces, Accessible (multiplying Eng.reset) x.va x.len false)
    ∧ (multiplying Eng.reset).stepPlan = some (stepWith [⟨14, 0, .issued⟩], planOf 1 works)
    ∧ (multiplying Eng.reset).powered = true ∧ (multiplying Eng.reset).groveStopped place.grove = false
    ∧ (multiplying Eng.reset).eng.tasks.find? (fun t => t.grove == place.grove.val && t.task == place.task.val) = some task
    ∧ (∀ x ∈ loading.pieces, (planOf 1 works).writersBefore (stepWith [⟨14, 0, .issued⟩]) 14 0 x = true)
    ∧ ((planOf 1 works).moveRecs 14 0 false loading.pieces).any (fun rs =>
        rs.all (fun r => (planOf 1 works).fetches 14 0 0 r)
          && (multiplying Eng.reset).prefetchDue (planOf 1 works) task place 14 0 0 rs
          && (multiplying Eng.reset).eng.freeFor place rs) = true :=
  ⟨inv (by decide +kernel), moved (by decide +kernel), rfl, by decide +kernel⟩

end Sys2Proof.Tests
end

