-- ==== Sys2Proof/Tests/Fabric.lean ====
section
/-! SUPPORT. States that meet the hypotheses of the statements about the fabric: one theorem per clause. -/

set_option Elab.async false

namespace Sys2Proof.Tests

open Sys2Proof Sys2Proof.Machine

/-! ### Commands -/

def asksStatus : State := ask (pair 1) 0 0x0601 []
def asksPort (n : Nat) : State := ask (pair 0) 0 0x0603 (leBytes 1 n ++ zeros 7)

theorem wit_FabricCommands_status : asksStatus.Inv ∧ IsServed asksStatus 0 0x0601 ∧ (asksPort 0x43).Inv
    ∧ IsServed (asksPort 0x43) 0 0x0603 ∧ ((asksPort 0x43).asks 0).zb 1 7 = true
    ∧ ((asksPort 0x43).portInfo (((asksPort 0x43).asks 0).f 0 1)).isSome = true
    ∧ ((asksPort 24).portInfo (((asksPort 24).asks 0).f 0 1)).isSome = true :=
  ⟨inv (by decide +kernel), served (by decide +kernel), inv (by decide +kernel), served (by decide +kernel), by decide +kernel⟩

/-- Discovery of the pair at step 2, 50 ms before the wait is over. -/
def forming : Fab := { pairFab 0 with fs := .training, members := none, records := [zRecord 0], fmWait := 60000, startTick := 0 }

/-- FABRIC_MAP_LOAD with the longest wait that retires address 1. -/
def asksLoadMap (f : Fab) : State :=
  ask { base with fab := f } 0 0x0602 (leBytes 4 3600000 ++ [0#8, 0#8, 2#8, 0#8] ++ leBytes 2 1 ++ zeros 6 ++ leBytes 2 1 ++ zeros 1022)

theorem wit_FabricCommands_load : (asksLoadMap forming).Inv ∧ IsServed (asksLoadMap forming) 0 0x0602
    ∧ ((asksLoadMap forming).asks 0).zb 7 1 = true ∧ ((asksLoadMap forming).asks 0).zb 0x0A 6 = true
    ∧ (∀ i < 512, ((asksLoadMap forming).asks 0).rz (0x10 + 2 * i) 2 15 14 = true) ∧ (asksLoadMap forming).fab.fs = .training
    ∧ ((asksLoadMap forming).asks 0).f 4 1 = 0 ∧ ((asksLoadMap forming).asks 0).f 5 1 = 0
    ∧ ((asksLoadMap forming).asks 0).f 6 1 = (asksLoadMap forming).fab.sz ∧ ((asksLoadMap forming).asks 0).f 0 4 ≤ 3600000
    ∧ ((asksLoadMap forming).asks 0).f 8 2 ≤ 512
    ∧ ((asksLoadMap forming).asks 0).zb (0x10 + 2 * ((asksLoadMap forming).asks 0).f 8 2) (1024 - 2 * ((asksLoadMap forming).asks 0).f 8 2) = true
    ∧ retireList ((asksLoadMap forming).asks 0) = [1] ∧ (asksLoadMap forming).fab.names 1 = true
    ∧ (asksLoadMap forming).fab.addr ≠ some 1 ∧ 3600000 = ((asksLoadMap forming).asks 0).f 0 4
    ∧ (asksLoadMap forming).aon.tick.toNat < (asksLoadMap forming).fab.startTick + 3600000 * 100000 :=
  ⟨inv (by decide +kernel), served (by decide +kernel), by decide +kernel⟩

theorem wit_FabricCommands_late : (asksLoadMap (pairFab 0)).Inv ∧ IsServed (asksLoadMap (pairFab 0)) 0 0x0602
    ∧ ((asksLoadMap (pairFab 0)).asks 0).zb 7 1 = true ∧ ((asksLoadMap (pairFab 0)).asks 0).zb 0x0A 6 = true
    ∧ (∀ i < 512, ((asksLoadMap (pairFab 0)).asks 0).rz (0x10 + 2 * i) 2 15 14 = true)
    ∧ (asksLoadMap (pairFab 0)).fab.fs.member = true := ⟨inv (by decide +kernel), served (by decide +kernel), by decide +kernel⟩

/-! ### Ports -/

/-- A machine with port 24 in another state. -/
def withPort (p : Port) : State := { pair 0 with fab := { pairFab 0 with ports := [(24, p), (30, upPort 5)] } }

/-- A flit of 256 bytes with its number and kind; all else is 0. -/
def wire (seq kind : Nat) (good : Bool) : Bytes :=
  let b := leBytes 1 seq ++ [0#8] ++ leBytes 1 (kind * 64) ++ zeros 249
  b ++ (if good then leBytes 4 (crc32c b) else zeros 4)

/-- The port waits for flit 255. -/
def waiting : Port := { upPort 4 with expect := 255 }

theorem wit_PortsReceive_receive : (withPort waiting).powered = true ∧ (withPort waiting).fab.port (24 : Fin 36) = some waiting
    ∧ waiting.trained = true ∧ flitCrcOk (wire 255 1 false) = false ∧ flitCrcOk (wire 255 1 true) = true
    ∧ (flitOf (wire 255 1 true)).2.2.kind ≠ 2 ∧ (flitOf (wire 255 1 true)).1 = waiting.expect
    ∧ flitCrcOk (wire 0 1 true) = true ∧ (flitOf (wire 0 1 true)).2.2.kind ≠ 2 ∧ (flitOf (wire 0 1 true)).1 ≠ waiting.expect
    ∧ flitCrcOk (wire 0 2 true) = true ∧ (flitOf (wire 0 2 true)).2.2.kind = 2 := by decide +kernel

/-- A flit that waits for its acknowledgement. -/
def flit (n : Nat) : Flit := { kind := 0, alt := false, dir := 0, first := true, last := true, dest := 1, src := 0, ctx := 1024, cseq := n, data := [5#8], vc := 0 }
def sentFlit (n r : Nat) : SentFlit := ⟨BitVec.ofNat 8 n, r, flit n⟩

/-- Two flits are unacknowledged; the second has gone out again a number of times. -/
def replaying (r : Nat) : Port := { upPort 4 with next := 1, unacked := [sentFlit 255 0, sentFlit 0 r] }

theorem wit_PortsReceive_replay : ∀ r ∈ [6, 7], (withPort (replaying r)).powered = true
    ∧ (withPort (replaying r)).fab.port (24 : Fin 36) = some (replaying r) ∧ (replaying r).trained = true
    ∧ (replaying r).unacked = [sentFlit 255 0] ++ sentFlit 0 r :: [] ∧ (∀ y ∈ [sentFlit 255 0], y.seq ≠ (sentFlit 0 r).seq)
    ∧ (replaying r).unacked = [] ++ sentFlit 255 0 :: [sentFlit 0 r] := by decide +kernel

theorem withPort_port (p : Port) : (withPort p).fab.port (24 : Fin 36) = some p := rfl

/-- No context has work on the pair, whatever its port does. -/
theorem withPort_noWork (p : Port) : NoWork (withPort p) := ⟨fun _ hc => (List.not_mem_nil hc).elim, rfl⟩

theorem wit_PortsTrain :
    (withPort { upPort 4 with pi := 4, trained := false }).powered = true
    ∧ (withPort { upPort 4 with pi := 2, downs := 2 }).clocks = true ∧ (withPort { upPort 4 with pi := 2, downs := 3 }).clocks = true
    ∧ (withPort { upPort 4 with pi := 3, trained := false, inBundle := false }).clocks = true
    ∧ (withPort { upPort 4 with pi := 3, trained := false, inBundle := false }).fab.fs = .ready
    ∧ (withPort { replaying 6 with pi := 4, trained := false }).clocks = true ∧ (replaying 6).inBundle = true
    ∧ (upPort 4).unused = false ∧ (upPort 4).trained = true
    ∧ (withPort { upPort 4 with probation := true, inBundle := false }).powered = true
    ∧ (withPort { upPort 4 with probation := true, inBundle := false }).fab.fs = .ready := by decide +kernel

/-! ### Discovery -/

/-- A trained port that has not exchanged identities; the far end of its bundle. -/
def fresh (downs : Nat) : Port := { upPort 4 with pi := 3, verified := false, inBundle := false, downs := downs }
def farEnd (bundle : Nat) (a : Option Nat) : IdentityMsg := ⟨a, 1, 1, 2, bundle, 30, 101, true⟩

theorem wit_DiscoveryRuns_identity : ∀ d ∈ [0, 1], (withPort (fresh d)).powered = true ∧ (fresh d).trained = true
    ∧ (withPort (fresh d)).fab.port (24 : Fin 36) = some (fresh d)
    ∧ (fresh d).inBundle = false ∧ (withPort (fresh d)).fab.addr = some 0 ∧ (withPort (fresh d)).fab.fs = .ready
    ∧ (farEnd 5 (some 1)).sx = (withPort (fresh d)).fab.sx ∧ (farEnd 5 (some 1)).sy = (withPort (fresh d)).fab.sy
    ∧ (farEnd 5 (some 1)).sz = (withPort (fresh d)).fab.sz ∧ (farEnd 5 (some 1)).bundle = opposite (fresh d).bundle
    ∧ 1 = (withPort (fresh d)).fab.neighbour 0 (fresh d).bundle ∧ (farEnd 4 (some 1)).bundle ≠ opposite (fresh d).bundle
    ∧ (farEnd 5 none).addr = none := by decide +kernel

theorem wit_DiscoveryRuns_retry : (withPort { upPort 4 with pi := 7 }).powered = true
    ∧ (withPort { upPort 4 with pi := 7 }).fab.port (24 : Fin 36) = some { upPort 4 with pi := 7 } := by decide +kernel

/-- A newer record of address 1, an older one, and one of another device. -/
def newer : LinkState := { zRecord 1 with seq := 4 }
def foreign : LinkState := { zRecord 1 with seq := 9, devid := 7 }

theorem wit_DiscoveryRuns_record : (pair 0).powered = true ∧ (pair 0).fab.addr = some 0 ∧ 0 ≠ newer.addr
    ∧ (pair 0).fab.names newer.addr = true ∧ newer.addr ∉ (pair 0).fab.conflicts ∧ (pair 0).fab.fs = .ready
    ∧ (pair 0).fab.send = [] ∧ (pair 0).stp.active = none ∧ (pair 0).stp.resume = none ∧ (pair 0).fab.record newer.addr = some (zRecord 1)
    ∧ (zRecord 1).devid = newer.devid ∧ (zRecord 1).seq < newer.seq ∧ ¬ (zRecord 1).seq < (zRecord 1).seq
    ∧ (zRecord 1).devid ≠ foreign.devid := by decide +kernel

/-- Discovery at step 5, where the record of address 1 is awaited; at step 2 with one port untrained; at step 3. -/
def mapping (late : Bool) : State := { base with fab := { forming with fs := .mapping, floodLate := late } }
def training : State := { base with fab := { forming with ports := [(24, { fresh 0 with trained := false }), (30, { upPort 5 with far := none, verified := false, inBundle := false })] } }
def exchanging : State := { base with fab := { forming with ports := [(24, fresh 0), (30, { upPort 5 with far := some { farEnd 4 (some 1) with joined := false } })] } }

theorem wit_DiscoveryRuns_flood : ∀ l ∈ [true, false], (mapping l).powered = true ∧ (mapping l).fab.fs = .mapping
    ∧ (mapping l).fab.barrier = none ∧ (mapping l).fab.floodLate = l := by decide +kernel

theorem wit_DiscoveryRuns_bounds : ({ base with fab := { forming with fs := .start } } : State).fab.inStep 1 = true
    ∧ ({ base with fab := { forming with fs := .start } } : State).powered = true ∧ training.powered = true
    ∧ training.fab.inStep 2 = true ∧ (∃ p ∈ training.fab.usedPorts, p.2.trained = true ∧ p.2.far = none) := by decide +kernel

theorem wit_DiscoveryRuns_exchange : exchanging.powered = true ∧ exchanging.fab.inStep 3 = true ∧ exchanging.fab.addr = some 0
    ∧ (∀ p ∈ exchanging.fab.ports, p.2.verified = true → ∀ x ∈ p.2.far, x.joined = false)
    ∧ exchanging.fab.expired = false ∧ exchanging.fab.barrier = none ∧ 1 ∈ exchanging.fab.allAddrs
    ∧ 1 ∉ exchanging.fab.retired ∧ exchanging.fab.record 1 = none := by decide +kernel

/-! ### Barriers -/

/-- A barrier message along X; a device that has sent its own. -/
def xBroadcast : BarrierMsg := ⟨.x, true, 0, []⟩
def lastAxis : State := { base with fab := { forming with fs := .mapping, records := [zRecord 0, zRecord 1], barrier := some ⟨0, .x, [0], [0], true⟩ } }

theorem wit_BarriersRun_waits : ({ base with fab := forming } : State).powered = true ∧ forming.fs = .training ∧ forming.barrier = none
    ∧ lastAxis.powered = true ∧ lastAxis.fab.fs = .mapping ∧ lastAxis.fab.barrier = some ⟨0, .x, [0], [0], true⟩
    ∧ lastAxis.fab.addr = some 0 ∧ lastAxis.fab.send = [] ∧ lastAxis.stp.active = none ∧ lastAxis.stp.resume = none := by
  decide +kernel

/-- Three devices along Z, seen from the middle, that map the machine: all have records. -/
def partway : State :=
  { base with fab := { forming with fs := .mapping, addr := some 1, sz := 3, records := [zRecord 0, zRecord 1, zRecord 2] } }

/-- The partial barrier that it enters. -/
def partBarrier : Barrier := ⟨1, .z, [0, 1, 2], [0, 1, 2], false⟩

theorem wit_BarriersRun_partial : partway.powered = true ∧ partway.fab.fs = .mapping ∧ partway.fab.barrier = none
    ∧ partway.fab.addr = some 1 ∧ partway.fab.heldBarrier = []
    ∧ [0, 1, 2] = partway.fab.allAddrs.filter (fun a => (partway.fab.record a).isSome && !partway.fab.conflicts.contains a
        && !partway.fab.retired.contains a)
    ∧ chainFirst (partway.fab.barrierLine partBarrier 1) 1 = false
    ∧ chainNext (partway.fab.barrierLine partBarrier 1) 1 = some 2 := by decide +kernel

/-- A notice of a device that joins at address 1, and a member that takes part in a barrier. -/
def notice : JoinNotice := ⟨1, 7, 1, 1, 2, 1, 1⟩
def joining : State := { pair 0 with fab := { pairFab 0 with barrier := some ⟨2, .z, [0], [0], false⟩ } }
def late : State := { base with fab := { pairFab 0 with fs := .isolated, reason := 4, members := none } }

theorem wit_BarriersRun_join : joining.powered = true ∧ joining.fab.addr = some 0 ∧ joining.fab.fs.member = true
    ∧ notice.addr ≠ 0 ∧ notice ∉ joining.fab.notices ∧ joining.fab.barrier.isSome = true
    ∧ joining.fab.neighbour 0 5 = notice.addr ∧ (pair 0).powered = true ∧ (pair 0).fab.fs.member = true
    ∧ (pair 0).fab.barrier = none ∧ late.powered = true ∧ late.fab.addr = some 0 ∧ late.fab.fs = .isolated
    ∧ late.fab.reason = 4 ∧ late.fab.barrier = none := by decide +kernel

/-- A plan is loaded and its donor's record awaited. -/
def continuing : State := { base with pln := { Pln.reset with plans := [planOf 1 small], loads := 1, awaitContinuity := true } }

theorem wit_BarriersRun_continuity : continuing.powered = true ∧ continuing.pln.awaitContinuity = true
    ∧ continuing.pln.awaitRing = false := by decide +kernel

/-! ### Flow contexts -/

/-- A send context to address 1 with two unacknowledged flits around the wrap of FL_CSEQ and the first flit of their message,
sent again a number of times. -/
def sendCtx (resends credits : Nat) : SendCtx :=
  { ctx := 1024, dst := 1, plan := 1, op := 0, mb := 0, next := 1, credits := credits, kept := [{ flit 16382 with last := false }],
    unacked := [{ flit 16383 with last := false, first := false }, { flit 0 with first := false }], waiting := [], resends := resends, failed := false }

def sending (resends credits : Nat) : State := { pair 0 with fab := { pairFab 0 with send := [sendCtx resends credits] } }

/-- The same with no route to address 1. -/
def cutOff : State := { sending 0 255 with fab := { (sending 0 255).fab with records := [zRecord 0] } }

theorem wit_FlowContexts_send : ∀ r ∈ [0, 63, 64], ∀ c ∈ [0, 255], (sending r c).powered = true
    ∧ (sending r c).fab.ctx (sendCtx r c).ctx = some (sendCtx r c) ∧ (sendCtx r c).waiting = [] ∧ (sendCtx r c).credits = c
    ∧ (sending r c).fab.addr = some 0 ∧ (sendCtx r c).failed = false ∧ (sendCtx r c).unacked ≠ []
    ∧ ((sending r c).fab.route 0 (sendCtx r c).dst).isSome = true ∧ (sending r c).stp.active = none := by decide +kernel

theorem wit_FlowContexts_cut : cutOff.fab.ctx (sendCtx 0 255).ctx = some (sendCtx 0 255) ∧ cutOff.powered = true
    ∧ cutOff.fab.route 0 (sendCtx 0 255).dst = none ∧ cutOff.stp.active = none := by decide +kernel

/-- A receive context with complete messages, 256 flits received and a number of them consumed since the last
acknowledgement. -/
def rctx (bs : List Bytes) (freed : Nat) : RecvCtx := ⟨1, 1024, 3, [], [], 0, bs, 256, freed, 0⟩

/-- It is on a device with the STACK region registered. -/
def receiving (bs : List Bytes) : State := { trained with fab := { pairFab 0 with recv := [rctx bs 31] } }

/-- The start of a chain message of a ring. -/
def early (ring : Nat) : Bytes := ({ shard := 0xFFFFF, seg := 0, attempt := 0, ring := ring, kind := 1, hop := 1, entries := 0, c1 := 0, c2 := 0, blaze := 0, payload := [1#8] } : ChainMsg).bytes

theorem wit_FlowContexts_receive : ∀ b ∈ [early 5, early 6], (receiving [b]).powered = true
    ∧ (receiving [b]).fab.rctx 1 1024 = some (rctx [b] 31) ∧ (receiving [b]).fab.earlyMsgs = [] ∧ (receiving [b]).slotsWait = none
    ∧ (rctx [b] 31).held = [] ∧ (rctx [b] 31).freed < 32 ∧ 0 < (rctx [b] 31).unacked
    ∧ (b = early 5 → (receiving [b]).arrival (ChainMsg.parse b).step (ChainMsg.parse b).attempt ((ChainMsg.parse b).kind == 3 || (ChainMsg.parse b).kind == 4) = .gone)
    ∧ (b = early 6 → (receiving [b]).arrival (ChainMsg.parse b).step (ChainMsg.parse b).attempt ((ChainMsg.parse b).kind == 3 || (ChainMsg.parse b).kind == 4) = .wait) := by
  decide +kernel

theorem wit_FlowContexts_peer : (receiving [[1#8, 2#8]]).Inv ∧ Accessible (receiving [[1#8, 2#8]]) 0x7FFFFFFE 2 true
    ∧ (receiving [[1#8, 2#8]]).powered = true ∧ (receiving [[1#8, 2#8]]).slotsWait = none
    ∧ (receiving [[1#8, 2#8]]).fab.rctx 1 1024 = some (rctx [[1#8, 2#8]] 31)
    ∧ ((receiving [[1#8, 2#8]]).peerRegion 0x7FFFFFFE 2 true).isSome = true
    ∧ 0x7FFFFFFE / pageBytes = (0x7FFFFFFE + 2 - 1) / pageBytes ∧ (receiving [[1#8, 2#8]]).peerRegion 0x80000000 2 true = none :=
  ⟨inv (by decide +kernel), acc (by decide +kernel), by decide +kernel⟩

end Sys2Proof.Tests
end

