-- ==== Sys2Proof/Tests/Glade.lean ====
section
/-! SUPPORT. States that meet the hypotheses of the statements about the Glade: one theorem per clause. -/

set_option Elab.async false

namespace Sys2Proof.Tests

open Sys2Proof Sys2Proof.Machine

/-! ### Sources -/

/-- A source of one entry a step with the longest look-ahead. -/
def source : Source :=
  { id := 15, stageRegion := 0, lookahead := 4, substitute := false, straggle := 0, abandon := 0, maxEntries := 1, spares := 0,
    abandonUs := 60000000, manifestVa := 0x40400000, spareVa := 0, prepVa := 0x40600000, prepBytes := 0x50000,
    state := 0, reason := 0, haltRing := 0, haltIndex := 0, haltReason := 0, delivered := 0, mean := 0, completed := 0,
    stragglers := 0, substitutions := 0, corrupt := List.replicate 9 0, dropRing := 0, dropped := List.replicate 32 0 }

/-- A machine with the STACK region registered, and sources. -/
def staged (gs : List Source) : State :=
  { base with
    rgn := { base.rgn with regions := [registered, tieredRegion] }
    gld := { Gld.reset with sources := gs } }

def asksSource (s : State) : State :=
  ask s 0 0x0501 ([15#8, 0#8, 4#8, 0#8] ++ zeros 4 ++ leBytes 4 1 ++ zeros 4 ++ leBytes 4 60000000 ++ zeros 4 ++ leBytes 8 0x40400000
    ++ zeros 8 ++ leBytes 8 0x40600000 ++ leBytes 8 0x50000 ++ zeros 8)

theorem wit_SourcesKept_define : ∀ s ∈ [staged [], staged [{ source with state := 2 }]], (asksSource s).Inv
    ∧ IsServed (asksSource s) 0 0x0501 ∧ source = sourceOfReq ((asksSource s).asks 0) ∧ ((asksSource s).asks 0).rz 0 1 7 4 = true
    ∧ ((asksSource s).asks 0).rz 1 1 7 6 = true ∧ ((asksSource s).asks 0).rz 2 1 7 3 = true
    ∧ ((asksSource s).asks 0).rz 3 1 7 1 = true ∧ ((asksSource s).asks 0).zb 0x14 4 = true
    ∧ ((asksSource s).asks 0).zb 0x38 8 = true ∧ (asksSource s).sourceLegal source = true
    ∧ (asksSource s).gld.sources.length < 16 ∧ (asksSource s).pln.plans = [] := by
  intro d hd
  simp only [List.mem_cons, List.not_mem_nil, or_false] at hd
  rcases hd with rfl | rfl
  all_goals exact ⟨inv (by decide +kernel), served (by decide +kernel), by decide +kernel⟩

/-- GLADE_DISPOSE: sets the disposition to SUBSTITUTE, or orders a substitute for the sample of index 2^64 − 1. -/
def asksDispose (order : Bool) : State :=
  ask (staged [{ source with state := 2, haltIndex := 2 ^ 64 - 1, haltReason := 8 }]) 0 0x0502
    (if order then [15#8, 1#8] ++ zeros 6 ++ leBytes 8 (2 ^ 64 - 1) else [15#8, 0#8, 1#8] ++ zeros 13)

theorem wit_SourcesKept_dispose : ∀ o ∈ [false, true], (asksDispose o).Inv ∧ IsServed (asksDispose o) 0 0x0502
    ∧ (asksDispose o).gld.source (bits (((asksDispose o).asks 0).f 0 1) 3 0) = some { source with state := 2, haltIndex := 2 ^ 64 - 1, haltReason := 8 }
    ∧ ((asksDispose o).asks 0).rz 0 1 7 4 = true ∧ ((asksDispose o).asks 0).rz 1 1 7 1 = true
    ∧ (o = false → gdAction ((asksDispose o).asks 0) = 0 ∧ ((asksDispose o).asks 0).rz 2 1 7 1 = true
      ∧ ((asksDispose o).asks 0).zb 3 5 = true ∧ ((asksDispose o).asks 0).zb 8 8 = true)
    ∧ (o = true → gdAction ((asksDispose o).asks 0) = 1 ∧ ((asksDispose o).asks 0).zb 2 6 = true
      ∧ 2 ^ 64 - 1 = ((asksDispose o).asks 0).f 8 8) := by
  intro d hd
  simp only [List.mem_cons, List.not_mem_nil, or_false] at hd
  rcases hd with rfl | rfl
  all_goals exact ⟨inv (by decide +kernel), served (by decide +kernel), by decide +kernel⟩

def asksStats : State := ask (staged [{ source with delivered := 3, mean := -2 }]) 0 0x0503 ([15#8] ++ zeros 7)

theorem wit_SourcesKept_stats : asksStats.Inv ∧ IsServed asksStats 0 0x0503
    ∧ asksStats.gld.source (bits ((asksStats.asks 0).f 0 1) 3 0) = some { source with delivered := 3, mean := -2 }
    ∧ (asksStats.asks 0).rz 0 1 7 4 = true ∧ (asksStats.asks 0).zb 1 7 = true :=
  ⟨inv (by decide +kernel), served (by decide +kernel), by decide +kernel⟩

/-! ### Preparation -/

/-- A plan of a TOKENS batch of one sample in rows of two tokens, with ready and release words, and a VERDICT. -/
def tokens (ready release : Nat) : Bytes :=
  container [tdOf 0 0 2 0 0x40000000 [1, 2] [1, 1]] [0]
    [⟨0x50, 1, [], [0], [15#8, 0x40#8, 0#8, 1#8] ++ leBytes 2 1 ++ zeros 70 ++ leBytes 4 2 ++ zeros 8 ++ leBytes 8 ready
      ++ leBytes 8 release ++ zeros 24⟩, verdictOp] [edge 0 1 0] (settings 1) []

/-- The plan is legal. -/
theorem tokens_legal : (staged [source]).checkPlan (tokens 0x40030000 0x40040000) = none := by decide +kernel

/-- A manifest of one entry at a ring: the sample of index 7, 152 bytes at offset 0x700000. -/
def manifest (ring n : Nat) : Bytes :=
  leBytes 8 ring ++ leBytes 4 n ++ zeros 52 ++ leBytes 2 1 ++ zeros 62 ++ leBytes 8 7 ++ leBytes 3 152 ++ leBytes 5 (0x700000 / 64)

/-- The record of the sample: one stream of two tokens. -/
def record : Bytes :=
  let stream := leBytes 4 2 ++ [4#8] ++ zeros 11 ++ leBytes 4 11 ++ leBytes 4 (2 ^ 24 - 1)
  let table := [4#8] ++ zeros 3 ++ leBytes 4 24 ++ leBytes 4 (crc32c stream) ++ zeros 4
  let head := leBytes 4 0x47445231 ++ [1#8] ++ zeros 3 ++ leBytes 8 7 ++ leBytes 4 152 ++ zeros 40
  head ++ leBytes 4 (crc32c (head ++ table)) ++ table ++ zeros 48 ++ stream

/-- A machine whose latest accepted step is of the plan, with a manifest in the slot of ring 5. -/
def feeding (b : Bytes) : State :=
  { staged [source] with
    pln := { Pln.reset with plans := [planOf 1 (tokens 0x40030000 0x40040000)] }
    gld := { Gld.reset with sources := [source], latest := some 1 }
    mem := { base.mem with cells := placed (0x400000 + 5 * 65536) b ++ placed 0x700000 record } }

theorem wit_SamplesPrepared_manifest : ∀ b ∈ [manifest 5 1, manifest 13 1, manifest 5 2],
    Accessible (feeding b) (source.manifestVa + 5 % 8 * source.slotBytes) (128 + 16 * source.maxEntries) false
    ∧ (feeding b).powered = true ∧ (feeding b).gld.source 15 = some source
    ∧ (feeding b).batchPlan 15 5 = some (planOf 1 (tokens 0x40030000 0x40040000), 0)
    ∧ (feeding b).stp.active = none ∧ (feeding b).deviceRing < 5 ∧ (15, 5) ∉ (feeding b).gld.manifests
    ∧ (feeding b).gld.prep 15 5 = none := by
  intro d hd
  simp only [List.mem_cons, List.not_mem_nil, or_false] at hd
  rcases hd with rfl | rfl | rfl
  all_goals exact ⟨acc (by decide +kernel), by decide +kernel⟩

theorem wit_SamplesPrepared_words :
    let at_ := fun (b : Bytes) => (feeding b).peekVa (source.manifestVa + 5 % 8 * source.slotBytes) (128 + 16 * source.maxEntries)
    let p := planOf 1 (tokens 0x40030000 0x40040000)
    fld (at_ (manifest 5 1)) 0 6 = 5 ∧ manifestReason source p 0 (at_ (manifest 5 1)) = 0 ∧ fld (at_ (manifest 13 1)) 0 6 ≠ 5
      ∧ fld (at_ (manifest 5 2)) 0 6 = 5 ∧ manifestReason source p 0 (at_ (manifest 5 2)) ≠ 0 := by decide +kernel

/-- The manifest has been found ready. -/
def found : State := { feeding (manifest 5 1) with gld := { (feeding (manifest 5 1)).gld with manifests := [(15, 5)] } }

theorem wit_SamplesPrepared_prepare :
    Accessible found (source.manifestVa + 5 % 8 * source.slotBytes) (128 + 16 * source.maxEntries) false
    ∧ found.powered = true ∧ found.gld.source 15 = some source
    ∧ found.batchPlan 15 5 = some (planOf 1 (tokens 0x40030000 0x40040000), 0)
    ∧ found.stp.active = none ∧ (15, 5) ∈ found.gld.manifests ∧ found.deviceRing < 5
    ∧ 5 ≤ found.deviceRing + 1 + source.lookahead ∧ found.gld.preps = []
    ∧ (manifestEntries (found.peekVa (source.manifestVa + 5 % 8 * source.slotBytes) (128 + 16 * source.maxEntries))).map (·.index) = [7]
    ∧ found.forcedOf 15 5 7 = none := ⟨acc (by decide +kernel), by decide +kernel⟩

/-- The entry of the manifest. -/
def sample (len st : Nat) : PrepEntry := { index := 7, off := 0x700000, len := len, group := 0, st := st, forced := none, out := ⟨0, [], 0, []⟩ }

/-- The slot of ring 5 with its entry. -/
def slot (e : PrepEntry) : Prep := { emptyPrep 15 5 1 0 with entries := [e] }

/-- The step is prepared; lane 31 is at the entry, or free. -/
def prepared (e : PrepEntry) : State :=
  { found with gld := { found.gld with preps := [slot e], lanes := if e.st = 1 then [(31, ⟨15, 5, 0, 900⟩)] else [] } }

theorem wit_SamplesPrepared_lane : (prepared (sample 152 0)).powered = true
    ∧ (prepared (sample 152 0)).gld.source 15 = some source ∧ (prepared (sample 152 0)).gld.lanes.get (31 : Fin 32) = none
    ∧ (prepared (sample 152 0)).gld.nextEntry source = some (5, 0, sample 152 0)
    ∧ (prepared (sample 152 0)).gld.prep 15 5 = some (slot (sample 152 0)) := by decide +kernel

theorem wit_SamplesSettle : ∀ n ∈ [152, 151], Accessible (prepared (sample n 1)) (0x40000000 + 0x700000) n false
    ∧ (prepared (sample n 1)).powered = true ∧ (prepared (sample n 1)).gld.lanes.get (31 : Fin 32) = some ⟨15, 5, 0, 900⟩
    ∧ (prepared (sample n 1)).gld.source 15 = some source ∧ (prepared (sample n 1)).gld.prep 15 5 = some (slot (sample n 1))
    ∧ (slot (sample n 1)).entries[0]? = some (sample n 1) ∧ (sample n 1).forced = none
    ∧ (prepared (sample n 1)).rgn.get source.stageRegion = some registered
    ∧ registered.map = some ⟨0x40000000, true, false⟩ ∧ 0x700000 + n ≤ registered.size
    ∧ source.substitute = false ∧ (prepared (sample n 1)).stp.active = none := by
  intro d hd
  simp only [List.mem_cons, List.not_mem_nil, or_false] at hd
  rcases hd with rfl | rfl
  all_goals exact ⟨acc (by decide +kernel), by decide +kernel⟩

/-- The whole record decodes, one of a byte less does not. -/
theorem wit_SamplesSettle_decodes :
    let res := fun (n : Nat) => match (prepared (sample n 1)).decode (slot (sample n 1)) 7 7 n ((prepared (sample n 1)).peekVa 0x40700000 n) with
      | .ok o => (0, o.out0)
      | .error w => (w, [])
    res 152 = (0, [11, 2 ^ 24 - 1]) ∧ res 151 = (3, []) := by decide +kernel

/-! ### Delivery -/

/-- The step of ring 5 runs with the plan, its group delivered; `st` is the batch's instance, `copied` whether its copies
are done. -/
def delivering (ready release : Nat) (insts : List Inst) (copied : List Nat) : State :=
  { feeding (manifest 5 1) with
    pln := { Pln.reset with plans := [planOf 1 (tokens ready release)] }
    stp := { Stp.reset with active := some { stepOf .running 5 with insts := insts } }
    gld := { Gld.reset with
      sources := [source]
      preps := [{ slot { sample 152 2 with out := ⟨0, [11, 12], 0, []⟩ } with delivered := 1, copied := copied }] } }

/-- The tensor of the batch and its delivered slot. -/
def batchOut : TD := TD.ofBytes (tdOf 0 0 2 0 0x40000000 [1, 2] [1, 1])
def batchSlot (copied : List Nat) : Prep := { slot { sample 152 2 with out := ⟨0, [11, 12], 0, []⟩ } with delivered := 1, copied := copied }

theorem wit_BatchesDelivered_batch : ∀ x ∈ [(0, 0), (0x40030000, 0x40040000)], (delivering x.1 x.2 [] []).Inv
    ∧ (delivering x.1 x.2 [] []).enter 0x0050 0 0 = some ((delivering x.1 x.2 [] []).issue (planOf 1 (tokens x.1 x.2))
      (stepOf .running 5) 0 0, stepOf .running 5, planOf 1 (tokens x.1 x.2))
    ∧ (x.1 ≠ 0 → Accessible (delivering x.1 x.2 [] []) (x.1 + 8 * 0) 8 true)
    ∧ (delivering x.1 x.2 [] []).gld.prep (bits (byteAt ((planOf 1 (tokens x.1 x.2)).param 0) 0) 3 0) 5 = some (batchSlot [])
    ∧ (planOf 1 (tokens x.1 x.2)).outTd 0 0 0 = some batchOut ∧ (batchSlot []).plan = 1
    ∧ 0 < ((planOf 1 (tokens x.1 x.2)).mbs 0).length ∧ (batchSlot []).fails.get 0 = none ∧ (batchSlot []).groupDelivered 0 = true
    ∧ x.1 = fld ((planOf 1 (tokens x.1 x.2)).param 0) 0x58 8 ∧ (x.1 + 8 * 0) % 8 = 0 := by
  intro d hd
  simp only [List.mem_cons, List.not_mem_nil, or_false] at hd
  rcases hd with rfl | rfl
  all_goals
    exact ⟨inv (by decide +kernel), enter_fresh (by decide +kernel) rfl (by decide +kernel),
      fun h => acc (by first | exact absurd rfl h | decide +kernel), by decide +kernel⟩

theorem wit_BatchesDelivered_outputs : ∀ x ∈ [(0, 0), (0x40030000, 0x40040000)],
    ∀ t ∈ gladeOuts ((planOf 1 (tokens x.1 x.2)).param 0) batchOut ((planOf 1 (tokens x.1 x.2)).outTd 0 1 0),
      ∀ a ∈ t.accs true, Accessible (delivering x.1 x.2 [] []) a.1 a.2.1 true := by
  have h : [(0, 0), (0x40030000, 0x40040000)].all (fun x =>
      (gladeOuts ((planOf 1 (tokens x.1 x.2)).param 0) batchOut ((planOf 1 (tokens x.1 x.2)).outTd 0 1 0)).all fun t =>
        (t.accs true).all fun a => accB (delivering x.1 x.2 [] []) a.1 a.2.1 true) = true := by decide +kernel
  intro x hx t ht a ha
  exact acc (List.all_eq_true.mp (List.all_eq_true.mp (List.all_eq_true.mp h x hx) t ht) a ha)

/-- The copies of the batch are done; its release word holds a number. -/
def released (w : Nat) : State :=
  let s := delivering 0x40030000 0x40040000 [⟨0, 0, .issued⟩] [0]
  { s with mem := { s.mem with cells := placed 0x40000 (leBytes 8 w) } }

theorem wit_BatchesDelivered_release : ∀ w ∈ [4, 5], (released w).Inv ∧ Accessible (released w) 0x40040000 8 false
    ∧ (released w).powered = true
    ∧ (released w).stepPlan = some ({ stepOf .running 5 with insts := [⟨0, 0, .issued⟩] }, planOf 1 (tokens 0x40030000 0x40040000))
    ∧ ((planOf 1 (tokens 0x40030000 0x40040000)).op 0).code = 0x0050
    ∧ fld ((planOf 1 (tokens 0x40030000 0x40040000)).param 0) 0x60 8 = 0x40040000
    ∧ (released w).gld.prep (bits (byteAt ((planOf 1 (tokens 0x40030000 0x40040000)).param 0) 0) 3 0) 5 = some (batchSlot [0])
    ∧ (batchSlot [0]).op = 0 ∧ (batchSlot [0]).plan = 1 ∧ (released w).inst 0 0 = some .issued
    ∧ leNat ((released w).peekVa 0x40040000 8) = w := by
  intro d hd
  simp only [List.mem_cons, List.not_mem_nil, or_false] at hd
  rcases hd with rfl | rfl
  all_goals exact ⟨inv (by decide +kernel), acc (by decide +kernel), by decide +kernel⟩

end Sys2Proof.Tests
end

