-- ==== Sys2Proof/Tests/Life.lean ====
section
/-! SUPPORT. States that meet the hypotheses of the statements about the life of a step and the verdict: one theorem per
clause. -/

set_option Elab.async false

namespace Sys2Proof.Tests

open Sys2Proof Sys2Proof.Machine

/-! ### A step -/

theorem wit_StepsRun_start : queued.powered = true ∧ queued.dev.mode = .ready ∧ queued.stp.active = none ∧ queued.stp.resume = none
    ∧ queued.dev.haltSteps = false ∧ queued.stp.queued = some (stepOf .queued (2 ^ 48 - 1)) ∧ queued.pln.get 1 = some (planOf 1 small)
    ∧ queued.gld.preps = [] ∧ queued.stp.notices = [] ∧ queued.fab.earlyMsgs = [] ∧ queued.fab.peerReads = []
    ∧ (stepOf .queued (2 ^ 48 - 1)).verdictFree = false ∧ queued.stp.doneCode 9 = none := by
  refine ⟨rfl, rfl, rfl, rfl, rfl, rfl, rfl, rfl, rfl, rfl, rfl, rfl, by decide +kernel⟩

/-- The second device of a line runs a step of a plan. -/
def runs (b : Bytes) (st : Step) : State :=
  { pair 1 with pln := { Pln.reset with plans := [planOf 1 b] }, stp := { Stp.reset with active := some st }, trn := { Trn.reset with ring := 5 } }

/-- A plan of one GRAD_GATHER. -/
def lone : Bytes :=
  container [t32 0x40000000, t32 0x40010000, t32 0x40020000] [0, 0, 0] [⟨0x22, 0, [0, 1], [2], leBytes 1 2 ++ zeros 15⟩] [] (settings 1) []

/-- An instance has computed; a verdict-free step has no other. -/
def complete (code : Nat) : State := runs small (stepWith [⟨0, 0, .computed code⟩])
def freeStep : Step := { stepWith [⟨0, 0, .computed cOK⟩] with verdictFree := true }

theorem wit_StepsRun_complete : ∀ c ∈ [cOK, cRANGE], (complete c).stepPlan = some (stepWith [⟨0, 0, .computed c⟩], planOf 1 small)
    ∧ (complete c).inst 0 0 = some (.computed c) ∧ (complete c).powered = true ∧ (complete c).fab.peerReads = []
    ∧ (stepWith [⟨0, 0, .computed c⟩]).verdictFree = false ∧ (stepWith [⟨0, 0, .computed c⟩]).rangeWaits (planOf 1 small) 0 = false
    ∧ voteWaits (complete c) := by
  intro d hd
  simp only [List.mem_cons, List.not_mem_nil, or_false] at hd
  rcases hd with rfl | rfl
  all_goals exact ⟨rfl, by decide +kernel, rfl, rfl, rfl, by decide +kernel, rfl, 1, rfl, by decide +kernel⟩

theorem wit_StepsRun_last : (runs lone freeStep).stepPlan = some (freeStep, planOf 1 lone)
    ∧ (runs lone freeStep).inst 0 0 = some (.computed cOK) ∧ freeStep.stopped = false ∧ (runs lone freeStep).fab.peerReads = []
    ∧ (∀ i ∈ (planOf 1 lone).instances, i = (0, 0) ∨ freeStep.finished i = true) ∧ freeStep.plan ≠ 0
    ∧ (runs lone freeStep).stp.doneCode freeStep.tag = none := ⟨rfl, by decide +kernel⟩

theorem wit_StepsRun_verdict : (runs small (stepWith [⟨0, 0, .done cOK⟩])).enter 0x32 1 0
    = some ((runs small (stepWith [⟨0, 0, .done cOK⟩])).issue (planOf 1 small) (stepWith [⟨0, 0, .done cOK⟩]) 1 0, stepWith [⟨0, 0, .done cOK⟩], planOf 1 small) :=
  enter_fresh rfl rfl (by decide +kernel)

/-- The twin of the shard is ready to vote, in either round. -/
def voting (round : Nat) : State :=
  let s := runs small { stepWith [⟨0, 0, .done cOK⟩] with round := round, disputes := if round = 0 then [] else [(0xFFFFF, 1)] }
  { s with trn := { s.trn with shards := [shard] } }

theorem wit_StepsRun_vote : ∀ round ∈ [0, 1],
    ((voting round).stepPlan.map (·.2)) = some (planOf 1 small) ∧ (voting round).powered = true ∧ voteWaits (voting round)
    ∧ (voting round).stp.notices = [] ∧ (voting round).fab.chains = [] ∧ (voting round).trn.referees = []
    ∧ (voting round).slotsWait = none ∧ (voting round).trn.fetches = []
    ∧ (voting round).stp.active.any (fun st => st.st == .running && !st.stopped && !st.verdictFree && st.round == round
        && (round == 1 || ((planOf 1 small).preds 1 0).all st.finished) && st.disputes.all (·.2 == 1)) = true
    ∧ (planOf 1 small).opsOf 0x32 = [1] ∧ (voting round).held = [shard]
    ∧ (∀ d ∈ (voting round).held, d.twinEn = true → [(0xFFFFF, 0#64)].any (·.1 == d.shard) = true) := by
  intro d hd
  simp only [List.mem_cons, List.not_mem_nil, or_false] at hd
  rcases hd with rfl | rfl
  all_goals
    exact ⟨rfl, rfl, ⟨rfl, 1, rfl, by decide +kernel⟩, rfl, by decide +kernel⟩

/-- A verdict that commits step 6. -/
def good : Verdict :=
  { ring := 6, round := 0, sumsq := 0, nonfinite := 0, unsealed := 0, twinMiss := 0, diverged := 0, devices := 2, modeLo := 0, modeHi := 0, hold := 0, holdCode := 0, clip := 0 }

/-- The step has voted: its verdict waits on an axis, or is on its way. -/
def votedStep (axis : Axis) (sent : Bool) : Step := { stepWith [] with st := .voted, vround := some ⟨0, axis, good, [], sent⟩ }

theorem wit_StepsRun_timeout : (runs small (votedStep .z true)).powered = true
    ∧ (runs small (votedStep .z true)).stp.active = some (votedStep .z true) ∧ (votedStep .z true).st = .voted := ⟨rfl, rfl, rfl⟩

/-- A plan that updates the shard. -/
def renewing : Bytes :=
  container [] [] [⟨0x40, 0, [], [], leBytes 4 0xFFFFF ++ [1#8] ++ zeros 3 ++ leBytes 4 0x3F000000 ++ leBytes 4 0x3F666666 ++ zeros 12 ++ leBytes 4 one32 ++ zeros 128⟩, verdictOp]
    [edge 0 1 0] (settings 1) []

/-- The owner of the shard runs it, with an update and instances. -/
def renew (insts : List Inst) (us : List Update) : State :=
  { trained with pln := { Pln.reset with plans := [planOf 1 renewing] }, stp := { Stp.reset with active := some (stepWith insts) }, trn := { trained.trn with updates := us } }

theorem wit_StepsRun_update : (renew [] []).Inv
    ∧ (renew [] []).enter 0x40 0 0 = some ((renew [] []).issue (planOf 1 renewing) (stepWith []) 0 0, stepWith [], planOf 1 renewing)
    ∧ (renew [] []).trn.shard (fld ((planOf 1 renewing).param 0) 0 4) = some shard ∧ (planOf 1 renewing).auOf shard.shard = some 0
    ∧ (renew [] []).trn.update shard.shard = none ∧ shard.shard ∉ (renew [] []).trn.lost ∧ shard.shard ∉ (renew [] []).trn.repairing
    ∧ (renew [] []).slotIntact shard ((renew [] []).trn.committed shard) ((renew [] []).trn.selOf shard.shard).ring = true
    ∧ ((renew [] []).slotAt shard ((renew [] []).trn.pending shard)).map (·.1.kind) = some 0
    ∧ (renew [] []).slotsWait = none :=
  ⟨inv (by decide +kernel), enter_fresh rfl rfl (by decide +kernel), by decide +kernel⟩

/-- The shard's only segment has arrived. -/
def arrived : Update := ⟨0xFFFFF, 6, true, [0], [], [], [], false⟩
def renewed : State := renew [⟨0, 0, .issued⟩] [arrived]

theorem wit_StepsRun_segment : renewed.Inv ∧ renewed.trn.shard shard.shard = some shard ∧ renewed.trn.update shard.shard = some arrived
    ∧ (planOf 1 renewing).auOf shard.shard = some 0 ∧ renewed.powered = true ∧ renewed.slotsWait = none ∧ 0 < shard.segs ∧ renewed.segPoison shard 0 = none ∧ shard.segs ≤ arrived.updated.length + 1
    ∧ (renewed.slotAt shard (renewed.trn.pending shard)).map (·.1.kind) = some 0 := ⟨inv (by decide +kernel), by decide +kernel⟩

theorem wit_StepsRun_segment_plan : renewed.stepPlan = some (stepWith [⟨0, 0, .issued⟩], planOf 1 renewing) := rfl

/-! ### The verdict -/

/-- The verdict of a round, whole, as its message; the part that completes it, and the parts that came before. -/
def wholeMsg (axis : Axis) (bcast : Bool) (v : Verdict) : VerdictMsg := ⟨axis, bcast, 0, v, if v.round = 0 then [⟨1, 128, 0, 1, 1⟩] else []⟩
def lastPart (axis : Axis) (bcast : Bool) (v : Verdict) : VerdictPart :=
  if v.round = 0 then .watch axis bcast 0 [⟨1, 128, 0, 1, 1⟩] true else .verdict axis bcast 0 v
def partsOf (axis : Axis) (bcast : Bool) (v : Verdict) : List VerdictMsg :=
  if v.round = 0 then [⟨axis, bcast, 0, v, []⟩] else []

/-- The part completes the message where the earlier parts are kept. -/
theorem completes {s : State} {axis : Axis} {bcast : Bool} {v : Verdict} (h : s.stp.partVerdicts = partsOf axis bcast v) :
    Completes s (lastPart axis bcast v) (wholeMsg axis bcast v) := by
  by_cases hr : v.round = 0
  · refine .inr ⟨⟨axis, bcast, 0, v, []⟩, [⟨1, 128, 0, 1, 1⟩], ?_, ?_, ?_⟩ <;> simp [h, partsOf, wholeMsg, lastPart, hr]
  · refine .inl ⟨?_, ?_, ?_⟩ <;> simp [wholeMsg, lastPart, hr]

/-- A device with no step that keeps the parts of a verdict. -/
def hearing (v : Verdict) : State := { base with stp := { Stp.reset with partVerdicts := partsOf .z false v } }

theorem wit_VerdictsPass_early : ∀ v ∈ [good, { good with round := 1 }], (hearing v).powered = true ∧ (hearing v).stp.active = none
    ∧ (hearing v).slotsWait = none ∧ (hearing v).trn.fetches = [] ∧ (hearing v).deviceRing < v.ring
    ∧ ({ v with ring := (hearing v).deviceRing } : Verdict).ring ≤ (hearing v).deviceRing
    ∧ (hearing v).stp.partVerdicts = partsOf .z false v := by decide +kernel

/-- A step that has voted in a round. -/
def votedIn (round : Nat) (axis : Axis) (sent : Bool) : Step :=
  { votedStep axis sent with round := round, vround := some ⟨round, axis, { good with round := round }, [], sent⟩ }

/-- The middle device of three has voted; its predecessor's message. -/
def middle (round : Nat) : State :=
  { trio 1 with
    pln := { Pln.reset with plans := [planOf 1 small] }
    stp := { Stp.reset with active := some (votedIn round .z false), partVerdicts := partsOf .z false { good with round := round } }
    trn := { Trn.reset with ring := 5 } }

theorem wit_VerdictsPass_combine : ∀ round ∈ [0, 1], (middle round).slotsWait = none ∧ (middle round).trn.fetches = []
    ∧ (middle round).powered = true ∧ (middle round).stp.active = some (votedIn round .z false)
    ∧ (votedIn round .z false).vround = some ⟨round, .z, { good with round := round }, [], false⟩
    ∧ round = (votedIn round .z false).round ∧ (middle round).fab.addr = some 1
    ∧ chainFirst ((middle round).fab.line 1 .z) 1 = false ∧ chainNext ((middle round).fab.line 1 .z) 1 = some 2
    ∧ (middle round).stp.waitVerdict = [] ∧ good.ring = (votedIn round .z false).ring
    ∧ (middle round).stp.partVerdicts = partsOf .z false { good with round := round } := by decide +kernel

/-- The twin of the shard has sent its verdict along the last axis; a verdict comes back. -/
def deciding (round : Nat) (v : Verdict) : State :=
  let s := runs small (votedIn round .x true)
  { s with
    trn := { s.trn with shards := [shard], sel := [(0xFFFFF, ⟨5, true, 0⟩)] }
    stp := { s.stp with partVerdicts := partsOf .x true v } }

theorem wit_VerdictsPass_decide : ∀ round ∈ [0, 1], (deciding round { good with round := round }).slotsWait = none
    ∧ (deciding round { good with round := round }).trn.fetches = [] ∧ (deciding round { good with round := round }).powered = true
    ∧ (deciding round { good with round := round }).stp.active = some (votedIn round .x true)
    ∧ (votedIn round .x true).vround = some ⟨round, .x, { good with round := round }, [], true⟩ ∧ round = (votedIn round .x true).round
    ∧ (deciding round { good with round := round }).fab.addr = some 1 ∧ (deciding round { good with round := round }).stp.waitVerdict = []
    ∧ (votedIn round .x true).verdictFree = false ∧ (deciding round { good with round := round }).stp.notices = []
    ∧ (deciding round { good with round := round }).stp.doneCode (votedIn round .x true).tag = none
    ∧ (deciding round { good with round := round }).held = [shard] ∧ (votedIn round .x true).holdCode = 0
    ∧ (∀ d ∈ (deciding round { good with round := round }).held,
        (deciding round { good with round := round }).redoPoison d ((deciding round { good with round := round }).trn.committed d)
          ((deciding round { good with round := round }).trn.pending d) = none) := by decide +kernel

/-- What the broadcast can decide: every row of R344. -/
theorem wit_VerdictsPass_rules : good.rule = .commit ∧ ({ good with modeHi := 1 } : Verdict).rule = .hold 1 cMODE_SPLIT
    ∧ ({ good with hold := 1, holdCode := cRANGE } : Verdict).rule = .hold 2 cRANGE ∧ ({ good with diverged := 1 } : Verdict).rule = .hold 3 cDIVERGED
    ∧ ({ good with nonfinite := 1 } : Verdict).rule = .skip ∧ ({ good with unsealed := 1 } : Verdict).rule = .hold 5 cINTERNAL
    ∧ ({ good with twinMiss := 1 } : Verdict).rule = .referee false
    ∧ ({ good with round := 1, twinMiss := 1 } : Verdict).rule = .hold 7 cDIVERGED
    ∧ ({ good with sumsq := 0x40800000, clip := one32 } : Verdict).rule = .clip
    ∧ ({ good with twinMiss := 1, sumsq := 0x40800000, clip := one32 } : Verdict).rule = .referee true := by decide +kernel

/-- A machine that keeps a notice of step 6. -/
def noticed : State := { base with stp := { Stp.reset with notices := [⟨6, 0, 0⟩] } }

theorem wit_VerdictsPass_notice : noticed.powered = true ∧ (⟨6, 0, 0⟩ : Notice) ∈ noticed.stp.notices
    ∧ (⟨7, 0, 0⟩ : Notice) ∉ noticed.stp.notices ∧ noticed.deviceRing < 7 ∧ 0 ≤ noticed.deviceRing ∧ noticed.stp.active = none
    ∧ (runs small (stepWith [])).stp.active = some (stepWith []) ∧ (⟨6, 0, 0⟩ : Notice) ∉ (runs small (stepWith [])).stp.notices
    ∧ (runs small (stepWith [])).deviceRing < 6 ∧ (stepWith []).ring = 6 ∧ voteWaits (runs small (stepWith [])) := by
  have h : (⟨6, 0, 0⟩ : Notice) ∈ noticed.stp.notices ∧ (⟨7, 0, 0⟩ : Notice) ∉ noticed.stp.notices ∧ noticed.deviceRing < 7
      ∧ 0 ≤ noticed.deviceRing ∧ (⟨6, 0, 0⟩ : Notice) ∉ (runs small (stepWith [])).stp.notices
      ∧ (runs small (stepWith [])).deviceRing < 6 := by decide +kernel
  exact ⟨rfl, h.1, h.2.1, h.2.2.1, h.2.2.2.1, rfl, rfl, h.2.2.2.2.1, h.2.2.2.2.2, rfl, rfl, 1, rfl, by decide +kernel⟩

/-- A device that has asked its neighbours for the last verdicts: addresses 0 and 2 have not answered yet. -/
def asking : State := { trio 1 with stp := { Stp.reset with resume := some ⟨5, none, true, [0, 2], []⟩ } }

theorem wit_VerdictsPass_history : asking.powered = true ∧ asking.fab.addr = some 1 ∧ asking.slotsWait = none
    ∧ asking.stp.resume = some ⟨5, none, true, [0, 2], []⟩
    ∧ (∃ a ∈ (⟨5, none, true, [0, 2], []⟩ : Resume).awaiting, a ≠ 0 ∧ asking.fab.unreachable a = false) :=
  ⟨rfl, rfl, by decide +kernel, rfl, 2, by decide +kernel⟩

end Sys2Proof.Tests
end

