-- ==== Sys2Proof/Tests/Slice0.lean ====
section
/-! SUPPORT. Ill-formed commands that WellFormed refuses, the words of the operation table, and the spec's worked examples:
the expected values are those its text prints. -/

set_option Elab.async false

namespace Sys2Proof.Tests

open Sys2Proof Sys2Proof.Machine

/-! ### Well-formedness -/

/-- What the outside gives a start-up when it gives nothing. -/
def noInputs : StartInputs := ⟨none, none, [], [], none⟩

/-- One ill-formed command for each check: lengths of bus accesses and lines. -/
theorem test_wf_lengths : [Instr.slotWrite .host 0 (.read 0), .slotWrite .host 0 (.write (zeros 65)),
    .backInvalidateAnswer 0 (some (zeros 63)), .idRead 0 (some (zeros 1985)), .hostHdmAccess 60 false (.read 5),
    .bar2WindowAccess 0 0 (.write []), .adapterWindowAccess 0 0 (.read 65), .coreIoAccess 0 0 (.load 3),
    .coreIoAccess 0 0 (.store (zeros 5)), .flitReceive 0 (zeros 255) 0 0 [], .flitReceive 0 (zeros 256) 0 0 [4],
    .chainMessage (zeros 63), .gatherMessage 0 (zeros 63), .coherenceRequest (.core 0) 0 0 (.store 60 (zeros 5)),
    .coherenceRequest (.core 0) 0 0 (.sc 64 [0#8]), .coherenceRequest (.core 0) 0 0 (.amo .add 2 0 0),
    .coherenceRequest (.core 0) 0 0 (.amo .add 8 60 0), .coherenceRequest (.core 0) 0 0 (.madd .i64 60 0)].all
      (fun c => !c.wf) = true := by decide +kernel

/-- What a start-up is given. -/
theorem test_wf_start : [{ noInputs with carrier := some (zeros 4097) }, { noInputs with power := some (zeros 65) },
    { noInputs with modules := [(18, true)] }, { noInputs with failed := [⟨⟨0, 0⟩, 1⟩] }, { noInputs with failed := [⟨⟨1, 65536⟩, 1⟩] },
    { noInputs with failed := [⟨⟨1, 0⟩, 3⟩] }, { noInputs with stall := some 5 }, { noInputs with stall := some 13 }].all
      (fun i => !(Instr.resetNRise i).wf && !(Instr.deviceResetWarm 0 i).wf && !(Instr.fwActivate 0 i).wf) = true := by
  decide +kernel

/-- Addresses, numbers and codes outside their ranges. -/
theorem test_wf_ranges : [Instr.startBoundExceeded [⟨⟨16, 0⟩, 1⟩], .thermalTrip (.canopy 0) (2 ^ 32), .thermalRestore (.canopy 0) (2 ^ 32),
    .thermalCritical (.stack 0) (2 ^ 32), .hostLinkRetrain 2, .hostLinkUp 1, .coherenceRequest (.core 0) 64 0 .read,
    .coherenceRequest (.core 0) 0 (2 ^ 42) .read, .bar2WindowAccess 0 (2 ^ 42) (.read 1), .adapterInterruptMsg 0 0 (2 ^ 32),
    .adapterLinkUp 0 16 64, .adapterLinkUp 0 8 8, .tileMove place 0 0 false ⟨0, [⟨0, 0⟩]⟩, .prefetchFetch place 0 0 ⟨0, [⟨2 ^ 56 - 1, 2⟩]⟩,
    .walkComplete 194 0 false, .walkComplete 0 (2 ^ 56) false, .demandFaultResolve (2 ^ 56), .migrationCopyDone 64 0,
    .migrationCopyDone 0 (2 ^ 26), .wcDrainAge 64 0, .memorySideAdd 0 (2 ^ 42) .b32 0, .bandwidthWindow [(24, [])],
    .bandwidthWindow [(0, [17])], .patrolScrub 0 [(64, 2 ^ 29, .ok)], .holdNotice 0 0 2 0, .holdNotice 0 0 0 6,
    .gatherRequest 16384 0 0 0 0, .peerReadRequest 16384 0 0 1, .peerReadRequest 0 0 0 0, .e2eAck 0 16384 (.ack 0), .e2eAck 0 0 (.ack 16385), .e2eAck 0 16384 .resend,
    .manifestReady 16 0, .gladePrepareStep 16 0, .gladeLaneStart 0 16, .unitFailure ⟨0, 0⟩, .discoveryBoundExpiry 0,
    .discoveryBoundExpiry 8].all (fun c => !c.wf) = true := by decide +kernel

/-- Messages with a field outside its range. -/
theorem test_wf_messages :
    let v : Verdict := ⟨0, 0, 0, 0, 0, 0, 0, 0, 0, 0, 0, 0, 0⟩
    let b := fun (s : Nat) (l : List Nat) => (⟨.x, false, s, l⟩ : BarrierMsg)
    let m : IdentityMsg := ⟨none, 1, 1, 1, 0, 0, 0, false⟩
    let n : JoinNotice := ⟨0, 0, 1, 1, 1, 0, 0⟩
    ([{ v with ring := 2 ^ 48 }, { v with round := 2 }, { v with holdCode := 256 }, { v with modeLo := 2 ^ 64 }, { v with modeHi := 2 ^ 64 }, { v with sumsq := 2 ^ 32 }].all
        (fun x => !(Instr.verdictMessage (.verdict .x false 0 x)).wf)
      && [{ m with addr := some 16384 }, { m with sx := 33 }, { m with sy := 33 }, { m with sz := 17 }, { m with bundle := 8 }, { m with port := 36 }].all
        (fun x => !(Instr.identityExchange 0 x).wf)
      && [Instr.verdictMessage (.verdict .x false 16384 v), .verdictMessage (.watch .x false 16384 [] true), .linkStateRecord 6 ⟨0, 0, 0, List.replicate 6 ⟨0, 0⟩⟩,
        .linkStateRecord 0 ⟨0, 0, 0, []⟩, .linkStateRecord 0 ⟨0, 0, 0, List.replicate 6 ⟨3, 0⟩⟩,
        .linkStateRecord 0 ⟨0, 0, 0, List.replicate 6 ⟨0, 37⟩⟩, .readinessBarrierMessage (b 16384 []),
        .partialBarrierMessage (b 0 [16384]), .joinBarrierMessage (b 0 [2, 1]), .joinNotice (.notice { n with addr := 16384 } 0),
        .joinNotice (.notice n 6), .joinNotice (.reply [1, 1]), .verdictHistoryRequest (.request 16384),
        .verdictHistoryRequest (.answer 0 (List.replicate 5 v)), .verdictHistoryRequest (.answer 0 [{ v with round := 2 }])].all
        (fun c => !c.wf)) = true := by decide +kernel

/-- Commands within their ranges. -/
theorem test_wf_good : [Instr.slotWrite .host 0 (.read 64), .resetNRise noInputs, .coherenceRequest (.core 0) 63 0 (.store 60 (zeros 4)),
    .walkComplete 193 (2 ^ 56 - 1) true, .hello 0, .stepStart].all Instr.wf = true := by decide +kernel

/-! ### Words of the table -/

/-- No row gives bits: no word spells a command, and none is put in front of the queue. -/
theorem test_words : decodeTableWord 32 0x12345678 = none ∧ (base.withFetchWord 32 0x12345678).pending = base.pending := ⟨rfl, rfl⟩

/-! ### Numbers (chapter 02, worked examples) -/

/-- The elements 1,000.0, 68.0, 3.3 and −0.004 as binary32. -/
def example8 : List Val := [d32 0x447A0000, d32 0x42880000, d32 0x40533333, d32 0xBB83126F]

theorem test_f8e4_fit : encodeBlock 3 false example8 = (0x81, [0x78, 0x58, 0x35, 0x81], 0) := by decide +kernel
theorem test_f8e4_top : (encodeBlock 3 true example8).1 = 0x80 ∧ (encodeBlock 3 true example8).2.1.take 3 = [0x7E, 0x60, 0x3D]
    ∧ (encodeBlock 3 true example8).2.2 = 1 := by decide +kernel
theorem test_wide : encodeVal 1 (d32 0x447A0000) = (0x447A, false) ∧ encodeVal 2 (d32 0x447A0000) = (0x423D, false) := by decide +kernel

/-- 7.0, 5.0, 2.5, 0.25 and −1.2 in F4e2. -/
def example4 : List Val := [d32 0x40E00000, d32 0x40A00000, d32 0x40200000, d32 0x3E800000, d32 0xBF99999A]

theorem test_f4e2 : encodeBlock 5 true example4 = (0x7F, [7, 6, 4, 0, 0xA], 1)
    ∧ (encodeBlock 5 false example4).1 = 0x80 ∧ (encodeBlock 5 false example4).2.1.head? = some 6
    ∧ (encodeBlock 5 false example4).2.2 = 0 := by decide +kernel

/-! ### Products (chapters 03 and 04) -/

/-- Chunks of the segments of a product of `n` chunks in `s` segments. -/
def segmentSizes (n s : Nat) : List Nat :=
  (List.range s).map fun i => ({ product with inner := 128 * n, kc := 128, runs := 1, segs := s }.segment i).2

theorem test_segments : segmentSizes 9 6 = [2, 2, 2, 2, 1, 0] ∧ segmentSizes 5 4 = [2, 2, 1, 0] := by decide +kernel

/-- The retry's operands: 1.5 × 2^127 and −1.375 × 2^127 against 8, at a level. -/
def retryChunk (level : Int) : Nat :=
  chunkSum ([some (Val.fin false 3 (126 - 16 * level)), some (.fin false 0 0), some (.fin true 11 (124 - 16 * level))] ++ List.replicate 125 none)
    (List.replicate 128 (some (.fin false 8 0)))

/-- Level 0 gives a NaN, level 1 gives 2^111, and the output stage 0x4D00 in B16. -/
theorem test_retry : retryChunk 0 = qNaN ∧ retryChunk 1 = 0x77000000
    ∧ encodeVal 1 (d32 (r32 ((d32 0x77000000).shift (16 - 100)))) = (0x4D00, false) := by decide +kernel

/-! ### Translation (chapter 08) -/

/-- Region 12 of the reference run, mapped at 2^40. -/
def activations : Region :=
  { stackRegion with id := 12, mode := 1, pages := 819200, hdmOff := 0x1000000000, map := some ⟨2 ^ 40, true, false⟩ }
def mapped : Rgn :=
  { ((mapTable 12 ⟨2 ^ 40, true, false⟩ (2 ^ 40) (2 ^ 40 + 819200 * 65536) 3 { Rgn.reset with regions := [activations] } 0 0).getD Rgn.reset) with hdmBase := some 0x200000000000 }

theorem test_walk : leNat (mapped.tbl.readN 16 8) = 0x100001 ∧ mapped.walk [] 0x010987654320 false = .leaf 2 0x3009800000000007
    ∧ leafTarget 2 0x3009800000000007 0x010987654320 = (12, 40926266144) := by decide +kernel

theorem test_hdm : ({ mapped with regions := [{ activations with map := some ⟨0x800000000000, true, false⟩ }] } : Rgn).hostView
    { activations with map := some ⟨0x800000000000, true, false⟩ } = 0x201000000000 := by decide +kernel

/-! ### Training, collectives, samples (chapters 10, 12, 13) -/

/-- The hop's contribution F8e5 0x35 under scale code 120 is lost. -/
theorem test_hop : hopAdd [0x3FE0] [(fmtF8e5.decode 0x35).shift (120 - 127)] = [0x3FE0] := by decide +kernel

/-- Norm √3 and factor of the clipped step: 1.732 050 8 and 0.866 025 4. -/
def clipped : Verdict := ⟨7001, 0, 0x40400000, 0, 0, 0, 0, 12288, 1, 1, 0, 0, 0x3FC00000⟩
theorem test_clip : clipped.rule = .clip ∧ clipped.norm = 0x3FDDB3D7 ∧ fdiv clipped.clip clipped.norm = 0x3F5DB3D8 := by decide +kernel

theorem test_pick : gPick 0x4000000000000000 4096 = 1024 := by decide +kernel

/-! ### Bridge groups (chapter 01) -/

/-- The groups of roles C, T and F in BALANCED, STREAM and COHERENT. -/
theorem test_roles : ([0, 1, 2].map fun p => [BridgeRole.C, .T, .F].map fun r =>
    ((List.finRange 16).filter fun g => bridgeRole p g == r).length) = [[8, 6, 2], [4, 10, 2], [12, 2, 2]]
    ∧ bridgeRole 0 7 = .C ∧ bridgeRole 0 8 = .T ∧ bridgeRole 1 4 = .T ∧ bridgeRole 2 11 = .C ∧ bridgeRole 2 14 = .F := by
  decide +kernel

/-! ### Status and heat (chapters 15 and 18) -/

/-- The pending entries before the two QUERYs of the example, and after the first acknowledgement. -/
def twoEntries : Att := ((⟨0x0122, []⟩ : Att).raise 0 aLOG 0 noTag 0 0).raise 0 aSTEP_DONE 0 0x2A41 0 0
theorem test_status : statusWord ⟨0x0122, []⟩ cACCEPTED = 0x01220001 ∧ statusWord (twoEntries.ack 0x0122) cOK = 0x01240700
    ∧ statusWord ((twoEntries.raise 0 aFABRIC 0 noTag 0 0).ack 0x0124) cOK = 0x01250B00 := by decide +kernel

theorem test_trip : (match exec (.thermalTrip (.canopy 1) 840) { base with aon := { base.aon with tickOn := true } } with
    | .next t => t.att.list.map (fun e => (e.cls, e.arg0, e.arg1)) == [(aTHERMAL, 0x0010000100000348, 1)] && t.aon.halved == [.canopy 1]
    | _ => false) = true := by decide +kernel

end Sys2Proof.Tests
end

section
/-! SUPPORT. Frames of a step's work: what an end, a vote, a verdict or a local hold of the active step leaves alone. -/

namespace Sys2Proof.Machine

/-! ### Frames of record updates -/

/-- `t` in the listed parts, `s` in the others. -/
def State.patch (l : List Part) (s t : State) : State where
  pending := if .pending ∈ l then t.pending else s.pending
  out := if .out ∈ l then t.out else s.out
  fresh := if .fresh ∈ l then t.fresh else s.fresh
  aon := if .aon ∈ l then t.aon else s.aon
  att := if .att ∈ l then t.att else s.att
  dev := if .dev ∈ l then t.dev else s.dev
  mbx := if .mbx ∈ l then t.mbx else s.mbx
  mem := if .mem ∈ l then t.mem else s.mem
  rgn := if .rgn ∈ l then t.rgn else s.rgn
  coh := if .coh ∈ l then t.coh else s.coh
  pln := if .pln ∈ l then t.pln else s.pln
  stp := if .stp ∈ l then t.stp else s.stp
  trn := if .trn ∈ l then t.trn else s.trn
  eng := if .eng ∈ l then t.eng else s.eng
  fab := if .fab ∈ l then t.fab else s.fab
  gld := if .gld ∈ l then t.gld else s.gld
  dma := if .dma ∈ l then t.dma else s.dma
  hst := if .hst ∈ l then t.hst else s.hst
  cor := if .cor ∈ l then t.cor else s.cor
  obs := if .obs ∈ l then t.obs else s.obs

/-- A state that differs in the listed parts only keeps the others; for a record update the premise is `rfl`. -/
theorem Keeps.of_patch {l : List Part} {s t : State} (h : t = s.patch l t) : Keeps l s t := by
  intro p hp
  rw [h]
  cases p <;> exact if_neg hp

theorem State.raise_keeps (s : State) (c k t a b : Nat) : Keeps [.att, .obs] s (s.raise c k t a b) := .of_patch rfl
theorem State.trace_keeps (s : State) (c : Nat) (w : Bool) (ty k u : Nat) (p : Bytes) :
    Keeps [.obs] s (s.trace c w ty k u p) := .of_patch rfl
theorem State.emits_keeps (s : State) (os : List Output) : Keeps [.out] s (s.emits os) := .of_patch rfl
theorem State.onStep_keeps (s : State) (f : Step → Step) : Keeps [.stp] s (s.onStep f) := .of_patch rfl

/-! ### A step's phases and its end -/

theorem State.phaseStart_keeps (s : State) (i : Nat) : Keeps [.stp, .obs] s (s.phaseStart i) := by
  unfold State.phaseStart
  split
  · exact .refl _ _
  · split
    · exact .refl _ _
    · exact .of_patch rfl

theorem State.phaseEnd_keeps (s : State) (i : Nat) : Keeps [.stp, .obs] s (s.phaseEnd i) := by
  unfold State.phaseEnd
  split
  · exact .refl _ _
  · exact .of_patch rfl

theorem State.abortQueued_keeps (s : State) : Keeps [.stp, .gld] s s.abortQueued := by
  unfold State.abortQueued
  split
  · exact .refl _ _
  · exact .of_patch rfl

theorem State.policy_keeps (s : State) (committed skipped : Bool) :
    Keeps [.pln, .stp] s (s.policy committed skipped).1 := by
  unfold State.policy
  split
  · exact .refl _ _
  · split
    · exact .refl _ _
    · extract_lets p1 p2 s1
      show Keeps [.pln, .stp] s (if p2.lsExp = p1.lsExp then s1 else s1.addEntry _)
      split <;> exact .of_patch rfl

/-- The parts that the end of a step can change. -/
def endParts : List Part := [.att, .stp, .trn, .eng, .fab, .gld, .obs]

theorem State.endStep_keeps (s : State) (code cls : Nat) (lsNext : Int) :
    Keeps endParts s (s.endStep code cls lsNext) := by
  unfold State.endStep
  split
  · exact .refl _ _
  · dsimp only
    refine Keeps.trans ?_ ((State.raise_keeps _ _ _ _ _ _).mono (by decide))
    split
    · exact .of_patch rfl
    · exact Keeps.trans (.of_patch rfl) ((State.abortQueued_keeps _).mono (by decide))

/-! ### Slots -/

/-- The parts that the work of a step, its vote and its verdict can change. -/
def workParts : List Part := [.out, .att, .mem, .rgn, .coh, .pln, .stp, .trn, .eng, .fab, .gld, .obs]

theorem State.slotWrite_keeps (s : State) (d : ShardDef) (slot off : Nat) (b : Bytes) :
    Keeps [.mem, .coh, .out, .rgn] s (s.slotWrite d slot off b) := by
  unfold State.slotWrite
  split
  · exact s.writeRegion_keeps _ _ _
  · exact .refl _ _

theorem State.updateSeg_keeps (s : State) (d : ShardDef) (a : AuParams) (c : AuConst) (k : Option Nat) (src dst j : Nat) :
    Keeps [.mem, .coh, .out, .rgn] s (s.updateSeg d a c k src dst j).1 := by
  unfold State.updateSeg
  dsimp only
  refine Keeps.trans (Keeps.trans ?_ (State.slotWrite_keeps _ _ _ _ _)) (State.slotWrite_keeps _ _ _ _ _)
  split
  · exact (State.slotWrite_keeps _ _ _ _ _).trans (State.slotWrite_keeps _ _ _ _ _)
  · exact State.slotWrite_keeps _ _ _ _ _

theorem State.recompute_keeps (s : State) (d : ShardDef) (a : AuParams) (src dst : Nat) (h : SlotHdr) (mode : Nat)
    (keep : Option Nat) : Keeps [.mem, .coh, .out, .rgn] s (s.recompute d a src dst h mode keep) := by
  unfold State.recompute
  refine Keeps.trans ?_ (State.slotWrite_keeps _ _ _ _ _)
  refine foldl_keeps (P := fun b : State × Nat × List Nat => Keeps [.mem, .coh, .out, .rgn] s b.1)
    (fun b j hb => hb.trans (State.updateSeg_keeps _ _ _ _ _ _ _ _)) _ _ ?_
  exact (State.slotWrite_keeps _ _ _ _ _).trans (State.slotWrite_keeps _ _ _ _ _)

theorem State.faultEntry_keeps (s : State) (op mb kind va region page line : Nat) :
    Keeps [.stp] s (s.faultEntry op mb kind va region page line) := by
  unfold State.faultEntry
  split
  · exact .refl _ _
  · exact s.onStep_keeps _

theorem State.redoFails_keeps (s : State) (d : ShardDef) (op l : Nat) :
    Keeps [.att, .obs, .stp] s (s.redoFails d op l) :=
  (((s.raise_keeps _ _ _ _ _).mono (by decide)).trans ((State.faultEntry_keeps _ _ _ _ _ _ _ _).mono (by decide))).trans
    ((State.onStep_keeps _ _).mono (by decide))

/-! ### The decision on a verdict -/

theorem State.commitStep_keeps (s : State) (v : Verdict) : Keeps workParts s (s.commitStep v) := by
  unfold State.commitStep
  split
  · exact .refl _ _
  · refine Keeps.trans ?_ ((State.endStep_keeps _ _ _ _).mono (by decide))
    refine Keeps.trans ?_ ((State.phaseEnd_keeps _ _).mono (by decide))
    refine Keeps.trans ?_ ((State.policy_keeps _ _ _).mono (by decide))
    exact ((s.phaseStart_keeps 8).mono (by decide)).trans (.of_patch rfl)

theorem State.clipRound_keeps (s : State) (st : Step) (k : Nat) : Keeps workParts s (s.clipRound st k) := by
  unfold State.clipRound
  split
  · exact .refl _ _
  · refine Keeps.foldl (fun s d => ?_) _ s
    split
    · split
      · exact (s.redoFails_keeps _ _ _).mono (by decide)
      · exact (s.recompute_keeps _ _ _ _ _ _ _).mono (by decide)
    · exact .refl _ _

theorem State.refereeRound_keeps (s : State) : Keeps [.trn, .out] s s.refereeRound := by
  unfold State.refereeRound
  split
  · exact .refl _ _
  · exact .refl _ _
  · exact .of_patch rfl

/-- The verdict is told: the step knows it and its crossings, it joins the last four, and its phase ends. -/
def State.noteVerdict (s : State) (st : Step) (v : Verdict) (watch : List WatchEntry) : State :=
  let s := s.onStep fun st => { st with vround := none, last := some v }
  let s := { s with stp := s.stp.addVerdict v (v.rule == Decision.commit) }
  let s := s.phaseEnd (if v.round = 0 then 6 else 7)
  let s := s.trace 3 false 0x07 uRanger 0 (leBytes 1 v.round ++ leBytes 1 v.rule.row ++ leBytes 6 v.ring)
  if v.round = 0 then
    let cs := s.crossings st.ring watch
    s.onStep fun st => { st with
      crossings := cs
      entries := st.entries ++ cs.map fun c =>
        recEntry 0x03 (leBytes 2 c.2.1 ++ leBytes 2 c.1 ++ leBytes 8 c.2.2.1 ++ leBytes 8 c.2.2.2) }
  else s

theorem State.noteVerdict_keeps (s : State) (st : Step) (v : Verdict) (watch : List WatchEntry) :
    Keeps [.stp, .obs] s (s.noteVerdict st v watch) := by
  have htold : ∀ t : State, Keeps [.stp, .obs] s t → ∀ i c w ty k u p,
      Keeps [.stp, .obs] s ((t.phaseEnd i).trace c w ty k u p) := fun t ht _ _ _ _ _ _ _ =>
    (ht.trans (t.phaseEnd_keeps _)).trans ((State.trace_keeps _ _ _ _ _ _ _).mono (by decide))
  unfold State.noteVerdict
  dsimp only
  split
  · exact (htold _ (.of_patch rfl) _ _ _ _ _ _ _).trans ((State.onStep_keeps _ _).mono (by decide))
  · exact htold _ (.of_patch rfl) _ _ _ _ _ _ _

/-- A round that follows begins: the step runs again, with a clip factor where there is one. -/
def State.nextRound (s : State) (st : Step) (k : Option Nat) : State :=
  let s := s.phaseStart 7
  let t := (s.onStep fun st => { st with round := 1, k := k, st := .running }).stp
  { s with stp := if st.plan = 0 then t else t.moveWord st.tag .running }

/-- The clip round of a verdict. -/
def State.nextClip (s : State) (st : Step) (v : Verdict) : State :=
  ((s.nextRound st (some (fdiv v.clip v.norm))).addEntry
    (recEntry 0x0D (leBytes 4 v.norm ++ leBytes 4 (fdiv v.clip v.norm)))).clipRound st (fdiv v.clip v.norm)

theorem State.nextRound_keeps (s : State) (st : Step) (k : Option Nat) : Keeps workParts s (s.nextRound st k) :=
  ((s.phaseStart_keeps 7).mono (by decide)).trans (.of_patch rfl)

theorem State.nextClip_keeps (s : State) (st : Step) (v : Verdict) : Keeps workParts s (s.nextClip st v) :=
  ((s.nextRound_keeps st _).trans ((State.onStep_keeps _ _).mono (by decide))).trans (State.clipRound_keeps _ _ _)

/-- What a verdict does, by the row of R344 that it matches. -/
theorem State.decideVerdict_eq {s : State} {st : Step} (h : s.stp.active = some st) (v : Verdict) (watch : List WatchEntry) :
    s.decideVerdict v watch = match v.rule with
      | .commit => (s.noteVerdict st v watch).commitStep v
      | .skip => ((s.noteVerdict st v watch).policy false true).1.endStep cNONFINITE aSTEP_DONE
          ((s.noteVerdict st v watch).policy false true).2
      | .hold _ code => ((s.noteVerdict st v watch).policy false false).1.endStep code aSTEP_HELD
          ((s.noteVerdict st v watch).policy false false).2
      | .clip => (s.noteVerdict st v watch).nextClip st v
      | .referee c => ((if c then (s.noteVerdict st v watch).nextClip st v
          else (s.noteVerdict st v watch).nextRound st none).refereeRound).hopeless := by
  unfold State.decideVerdict
  rw [h]
  rfl

theorem State.decideVerdict_keeps (s : State) (v : Verdict) (watch : List WatchEntry) :
    Keeps workParts s (s.decideVerdict v watch) := by
  cases hact : s.stp.active with
  | none =>
    unfold State.decideVerdict
    rw [hact]
    exact .refl _ _
  | some st =>
    rw [State.decideVerdict_eq hact]
    refine Keeps.trans ((s.noteVerdict_keeps st v watch).mono (by decide)) ?_
    cases v.rule with
    | commit => exact State.commitStep_keeps _ v
    | skip | hold =>
      exact ((State.policy_keeps _ _ _).mono (by decide)).trans ((State.endStep_keeps _ _ _ _).mono (by decide))
    | clip => exact State.nextClip_keeps _ _ _
    | referee c =>
      refine Keeps.trans ?_ ((State.onStep_keeps _ _).mono (by decide))
      refine Keeps.trans ?_ ((State.refereeRound_keeps _).mono (by decide))
      cases c with
      | true => exact State.nextClip_keeps _ _ _
      | false => exact State.nextRound_keeps _ _ _

end Sys2Proof.Machine
end

section
/-! SUPPORT. The verdict on its way along the axes, the vote and the local hold: what they leave alone, and that a hold vote
that meets no message of another device commits nothing (R336, R342, R344, R634). -/

namespace Sys2Proof.Machine

/-! ### Moves of the verdict -/

/-- A message of another device is taken from those that wait. -/
def State.takeVerdict (s : State) (m : VerdictMsg) : State :=
  { s with stp := { s.stp with waitVerdict := s.stp.waitVerdict.erase m } }

/-- The round of the step stands at an axis with a verdict. -/
def State.standAt (s : State) (round : Nat) (axis : Axis) (v : Verdict) (w : List WatchEntry) (sent : Bool) : State :=
  s.onStep fun st => { st with vround := some ⟨round, axis, v, w, sent⟩ }

/-- The end of a line: the verdict goes back along it, and then to the next axis, or is decided. -/
def State.endLine (s : State) (me : Nat) (r : VRound) (v : Verdict) (w : List WatchEntry) : State :=
  let s := s.emits ((bcastTargets (s.fab.line me r.axis) me).flatMap fun a => verdictMsgs a r.axis true v w)
  match r.axis with
  | .z => s.standAt r.round .y v w false
  | .y => s.standAt r.round .x v w false
  | .x => s.decideVerdict v w

/-- The device's combination goes on along its line. -/
def State.passVerdict (s : State) (me : Nat) (r : VRound) (v : Verdict) (w : List WatchEntry) : State :=
  match chainNext (s.fab.line me r.axis) me with
  | some nx => (s.standAt r.round r.axis v w true).emits (verdictMsgs nx r.axis false v w)
  | none => s.endLine me r v w

/-- A move of the verdict: something is sent, and then the round stands at an axis, or the verdict is decided. -/
inductive Moved (s : State) (round : Nat) (v : Verdict) (w : List WatchEntry) : State → Prop
  | stands (os : List Output) (axis : Axis) (sent : Bool) : Moved s round v w ((s.emits os).standAt round axis v w sent)
  | decides (os : List Output) : Moved s round v w ((s.emits os).decideVerdict v w)

theorem State.endLine_moved (s : State) (me : Nat) (r : VRound) (v : Verdict) (w : List WatchEntry) :
    Moved s r.round v w (s.endLine me r v w) := by
  unfold State.endLine
  cases r.axis with
  | z => exact .stands _ .y false
  | y => exact .stands _ .x false
  | x => exact .decides _

theorem State.passVerdict_moved (s : State) (me : Nat) (r : VRound) (v : Verdict) (w : List WatchEntry) :
    Moved s r.round v w (s.passVerdict me r v w) := by
  unfold State.passVerdict
  split
  · exact .stands (verdictMsgs _ r.axis false v w) r.axis true
  · exact s.endLine_moved me r v w

/-- What a move of the verdict does: it passes on what the device's round holds, or, where messages of other devices wait,
what one of them makes of it. -/
theorem State.verdictMove_cases {s t : State} (h : s.verdictMove = some t) :
    ∃ st r, s.stp.active = some st ∧ st.vround = some r
      ∧ ((∃ w, Moved s r.round r.v w t)
        ∨ s.stp.waitVerdict ≠ [] ∧ ∃ m v w, Moved (s.takeVerdict m) r.round v w t) := by
  unfold State.verdictMove at h
  split at h
  case h_2 => cases h
  case h_1 st me hact hme =>
    split at h
    case h_1 => cases h
    case h_2 r hr =>
      refine ⟨st, r, hact, hr, ?_⟩
      dsimp only at h
      have hwaits : ∀ {p : VerdictMsg → Bool} {m}, s.stp.waitVerdict.find? p = some m → s.stp.waitVerdict ≠ [] := by
        intro p m hm h0
        simp [h0] at hm
      split at h
      · split at h
        · cases h
        · rename_i m hm
          obtain rfl := Option.some.inj h
          exact .inr ⟨hwaits hm, m, _, _, (s.takeVerdict m).endLine_moved me r _ _⟩
      · split at h
        · obtain rfl := Option.some.inj h
          exact .inl ⟨_, s.passVerdict_moved me r _ _⟩
        · split at h
          · cases h
          · rename_i m hm
            obtain rfl := Option.some.inj h
            exact .inr ⟨hwaits hm, m, _, _, (s.takeVerdict m).passVerdict_moved me r _ _⟩

theorem Moved.keeps {s t : State} {round : Nat} {v : Verdict} {w : List WatchEntry} (h : Moved s round v w t) :
    Keeps workParts s t := by
  cases h with
  | stands os axis sent => exact .of_patch rfl
  | decides os => exact ((s.emits_keeps os).mono (by decide)).trans (State.decideVerdict_keeps _ v w)

theorem State.verdictMove_keeps {s t : State} (h : s.verdictMove = some t) : Keeps workParts s t := by
  obtain ⟨st, r, -, -, ⟨w, hm⟩ | ⟨-, m, v, w, hm⟩⟩ := State.verdictMove_cases h
  · exact hm.keeps
  · exact Keeps.trans (.of_patch rfl) hm.keeps

theorem verdictMoves_keeps : ∀ (n : Nat) (s : State), Keeps workParts s (verdictMoves n s) := by
  intro n
  induction n with
  | zero => exact fun s => .refl _ s
  | succ n ih =>
    intro s
    unfold verdictMoves
    split
    · rename_i t ht
      exact (State.verdictMove_keeps ht).trans (ih t)
    · exact .refl _ s

/-! ### Votes and holds -/

/-- The device has voted, and its verdict has not yet moved (R336). -/
def State.voted (s : State) (v : Verdict) (clear : Bool) (st : Step) : State :=
  let s := s.phaseStart (if st.round = 0 then 6 else 7)
  let w := if st.round = 0 then s.ownWatch st else []
  let s := (s.fence).onStep fun st => { st with
    st := .voted, vround := some ⟨st.round, .z, v, w, false⟩, released := clear, tick := s.aon.tick.toNat }
  let t := if st.plan = 0 then s.stp else s.stp.moveWord st.tag .voted
  { s with stp := { t with vote := some ⟨v, st.attempt⟩ } }

theorem State.voted_keeps (s : State) (v : Verdict) (clear : Bool) (st : Step) :
    Keeps [.stp, .obs, .mem] s (s.voted v clear st) :=
  ((s.phaseStart_keeps _).mono (by decide)).trans (.of_patch rfl)

theorem State.vote_eq {s : State} {st : Step} (h : s.stp.active = some st) (v : Verdict) (clear : Bool) :
    s.vote v clear = verdictMoves 8 (s.voted v clear st) := by
  unfold State.vote
  rw [h]
  rfl

theorem State.vote_keeps (s : State) (v : Verdict) (clear : Bool) : Keeps workParts s (s.vote v clear) := by
  cases h : s.stp.active with
  | none =>
    unfold State.vote
    rw [h]
    exact .refl _ s
  | some st =>
    rw [State.vote_eq h]
    exact ((s.voted_keeps v clear st).mono (by decide)).trans (verdictMoves_keeps 8 _)

theorem State.endFree_keeps (s : State) (code : Nat) : Keeps endParts s (s.endFree code) := by
  unfold State.endFree
  split
  · exact .refl _ s
  · exact s.endStep_keeps _ _ _

/-- The attempt stops with a hold code, and its notice goes out (R634). -/
def State.holdStarts (s : State) (st : Step) (code : Nat) : State :=
  ((s.stopStep).onStep fun x => { x with holdCode := if st.holdCode = 0 then code else st.holdCode }).floodNotice
    st.ring st.attempt st.round 6

/-- The hold vote of the attempt. -/
def State.holdVote (s : State) (st : Step) (code : Nat) : Verdict :=
  { ((s.stopStep).onStep fun x => { x with holdCode := if st.holdCode = 0 then code else st.holdCode }).contribution st with
    hold := 1, holdCode := if st.holdCode = 0 then code else st.holdCode }

/-- A local hold: nothing, a code kept for the round that may follow, the end of a verdict-free step, or a hold vote. -/
theorem State.localHold_cases (s : State) (code : Nat) :
    s.localHold code = s
    ∨ (∃ f, s.localHold code = s.onStep f)
    ∨ s.localHold code = s.endFree code
    ∨ ∃ st, s.stp.active = some st ∧ s.localHold code = (s.holdStarts st code).vote (s.holdVote st code) false := by
  unfold State.localHold
  split
  case h_1 => exact .inl rfl
  case h_2 st hact =>
    split
    · exact .inr (.inl ⟨_, rfl⟩)
    · split
      · exact .inl rfl
      · split
        · exact .inr (.inr (.inl rfl))
        · exact .inr (.inr (.inr ⟨st, hact, rfl⟩))

theorem State.localHold_keeps (s : State) (code : Nat) : Keeps workParts s (s.localHold code) := by
  obtain h | ⟨f, h⟩ | h | ⟨st, -, h⟩ := s.localHold_cases code <;> rw [h]
  · exact .refl _ s
  · exact (s.onStep_keeps f).mono (by decide)
  · exact (s.endFree_keeps code).mono (by decide)
  · exact Keeps.trans (.of_patch rfl) (State.vote_keeps _ _ _)

theorem State.localHold_idle {s : State} (h : s.stp.active = none) (code : Nat) : s.localHold code = s := by
  unfold State.localHold
  rw [h]

/-! ### A hold vote that meets no message commits nothing -/

/-- What a commit would change (R312). -/
def State.commits (s : State) : Nat × AL Selector × Option (Nat × Nat) := (s.trn.ring, s.trn.sel, s.trn.commit)

theorem Keeps.commits {l : List Part} {s t : State} (h : Keeps l s t) (hl : .trn ∉ l) : t.commits = s.commits := by
  have htrn : t.trn = s.trn := h .trn hl
  simp only [State.commits, htrn]

theorem State.endStep_commits (s : State) (code cls : Nat) (lsNext : Int) :
    (s.endStep code cls lsNext).commits = s.commits := by
  unfold State.endStep
  split
  · rfl
  · dsimp only
    refine ((State.raise_keeps _ _ _ _ _ _).commits (by decide)).trans ?_
    split
    · rfl
    · exact (State.abortQueued_keeps _).commits (by decide)

@[simp] theorem Stp.moveWord_active (t : Stp) (tag : Nat) (w : WordState) : (t.moveWord tag w).active = t.active := by
  unfold Stp.moveWord
  split <;> rfl

@[simp] theorem Stp.decideRecord_active (t : Stp) (ring attempt : Nat) (b : Bytes) :
    (t.decideRecord ring attempt b).active = t.active := rfl

@[simp] theorem State.abortQueued_active (s : State) : s.abortQueued.stp.active = s.stp.active := by
  unfold State.abortQueued
  split
  · rfl
  · simp

/-- No step is active once one has ended. -/
theorem State.endStep_active (s : State) (code cls : Nat) (lsNext : Int) : (s.endStep code cls lsNext).stp.active = none := by
  unfold State.endStep
  split
  case h_1 h => exact h
  case h_2 st _ =>
    dsimp only [State.raise_stp]
    split
    · split <;> simp
    · split <;> simp

theorem Verdict.rule_hold {v : Verdict} (h : 0 < v.hold) : ∃ row code, v.rule = .hold row code := by
  unfold Verdict.rule
  rw [if_pos h]
  split
  · exact ⟨_, _, rfl⟩
  · exact ⟨_, _, rfl⟩

/-- The decision on a hold ends the step and commits nothing. -/
theorem State.decideVerdict_hold {s : State} {st : Step} (hact : s.stp.active = some st) {v : Verdict} (hv : 0 < v.hold)
    (w : List WatchEntry) : (s.decideVerdict v w).commits = s.commits ∧ (s.decideVerdict v w).stp.active = none := by
  obtain ⟨row, code, hrule⟩ := Verdict.rule_hold hv
  rw [State.decideVerdict_eq hact, hrule]
  refine ⟨?_, State.endStep_active _ _ _ _⟩
  calc _ = ((s.noteVerdict st v w).policy false false).1.commits := State.endStep_commits _ _ _ _
    _ = (s.noteVerdict st v w).commits := (State.policy_keeps _ _ _).commits (by decide)
    _ = s.commits := (s.noteVerdict_keeps st v w).commits (by decide)

/-- Where a step is active, no message of another device waits, and the verdict that its round holds is a hold. -/
def State.HoldsAlone (s : State) : Prop :=
  ∀ st, s.stp.active = some st → s.stp.waitVerdict = [] ∧ ∀ r, st.vround = some r → 0 < r.v.hold

theorem State.verdictMove_holdsAlone {s t : State} (hs : s.HoldsAlone) (h : s.verdictMove = some t) :
    t.commits = s.commits ∧ t.HoldsAlone := by
  obtain ⟨st, r, hact, hr, hmove⟩ := State.verdictMove_cases h
  obtain ⟨hwait, hhold⟩ := hs st hact
  obtain ⟨w, hm⟩ : ∃ w, Moved s r.round r.v w t := hmove.resolve_right fun hne => hne.1 hwait
  cases hm with
  | stands os axis sent =>
    refine ⟨rfl, fun st' hact' => ⟨hwait, fun r' hr' => ?_⟩⟩
    have hst : st' = { st with vround := some ⟨r.round, axis, r.v, w, sent⟩ } := by
      simpa [State.standAt, State.onStep, hact] using hact'.symm
    obtain rfl : (⟨r.round, axis, r.v, w, sent⟩ : VRound) = r' := by simpa [hst] using hr'
    exact hhold r hr
  | decides os =>
    obtain ⟨hcommits, hnone⟩ := State.decideVerdict_hold (s := s.emits os) hact (hhold r hr) w
    exact ⟨hcommits, fun st' hact' => by simp [hnone] at hact'⟩

theorem verdictMoves_holdsAlone : ∀ (n : Nat) (s : State), s.HoldsAlone → (verdictMoves n s).commits = s.commits := by
  intro n
  induction n with
  | zero => exact fun _ _ => rfl
  | succ n ih =>
    intro s hs
    unfold verdictMoves
    split
    · rename_i t ht
      obtain ⟨hcommits, hst⟩ := State.verdictMove_holdsAlone hs ht
      exact (ih t hst).trans hcommits
    · rfl

@[simp] theorem State.phaseStart_wait (s : State) (i : Nat) : (s.phaseStart i).stp.waitVerdict = s.stp.waitVerdict := by
  unfold State.phaseStart
  split
  · rfl
  · split <;> rfl

@[simp] theorem Stp.moveWord_wait (t : Stp) (tag : Nat) (w : WordState) :
    (t.moveWord tag w).waitVerdict = t.waitVerdict := by
  unfold Stp.moveWord
  split <;> rfl

@[simp] theorem State.voted_wait (s : State) (v : Verdict) (clear : Bool) (st : Step) :
    (s.voted v clear st).stp.waitVerdict = s.stp.waitVerdict := by
  unfold State.voted
  dsimp only
  split <;> simp [State.onStep, State.fence]

/-- The round of a vote stands at the Z axis with the vote. -/
theorem State.voted_vround {s : State} {v : Verdict} {clear : Bool} {st x : Step}
    (h : (s.voted v clear st).stp.active = some x) : ∃ n w, x.vround = some ⟨n, .z, v, w, false⟩ := by
  unfold State.voted at h
  dsimp only at h
  split at h
  all_goals
    simp only [State.onStep, Stp.moveWord_active, Option.map_eq_some_iff] at h
    obtain ⟨y, -, rfl⟩ := h
    exact ⟨_, _, rfl⟩

theorem State.voted_holdsAlone {s : State} {v : Verdict} (hwait : s.stp.waitVerdict = []) (hv : 0 < v.hold) (clear : Bool)
    (st : Step) : (s.voted v clear st).HoldsAlone := by
  intro x hact
  refine ⟨(s.voted_wait v clear st).trans hwait, fun r hr => ?_⟩
  obtain ⟨n, w, hx⟩ := State.voted_vround hact
  obtain rfl := Option.some.inj (hx.symm.trans hr)
  exact hv

/-- A hold vote of a device where no message waits commits nothing. -/
theorem State.vote_hold_commits {s : State} {v : Verdict} (hwait : s.stp.waitVerdict = []) (hv : 0 < v.hold) (clear : Bool) :
    (s.vote v clear).commits = s.commits := by
  cases h : s.stp.active with
  | none =>
    unfold State.vote
    rw [h]
  | some st =>
    rw [State.vote_eq h, verdictMoves_holdsAlone 8 _ (State.voted_holdsAlone hwait hv clear st)]
    exact (s.voted_keeps v clear st).commits (by decide)

/-- A local hold commits nothing where no message of another device waits. -/
theorem State.localHold_commits {s : State} (hwait : s.stp.waitVerdict = []) (code : Nat) :
    (s.localHold code).commits = s.commits := by
  obtain h | ⟨f, h⟩ | h | ⟨st, -, h⟩ := s.localHold_cases code <;> rw [h]
  · rfl
  · unfold State.endFree
    split
    · rfl
    · exact State.endStep_commits _ _ _ _
  · exact State.vote_hold_commits (s := s.holdStarts st code) hwait Nat.one_pos false

end Sys2Proof.Machine
end

section
/-! SUPPORT. Failing units: association lists, a unit that fails while the device runs, bridge groups, and a start-up that
fails (R16, R32, R44, R494, R573). -/

namespace Sys2Proof.Machine

/-! ### Association lists -/

/-- The value found at a key that has been set. -/
@[simp] theorem AL.get_set_same {α : Type} (l : AL α) (k : Nat) (v : α) : (l.set k v).get k = some v := by
  unfold AL.set AL.get
  induction l with
  | nil => simp
  | cons e r ih =>
    by_cases he : e.1 = k
    · simp [he]
    · by_cases hr : r.any (·.1 == k) = true <;> simp_all

/-- Replacing the values of one key leaves what is found at another. -/
theorem AL.find_replace_ne {α : Type} {k j : Nat} (h : j ≠ k) (v : α) (l : AL α) :
    (l.map fun e => if e.1 == k then (k, v) else e).find? (·.1 == j) = l.find? (·.1 == j) := by
  induction l with
  | nil => rfl
  | cons e r ih =>
    rw [List.map_cons, List.find?_cons, List.find?_cons, ih]
    by_cases he : e.1 = k
    · simp [he, beq_false_of_ne h.symm]
    · simp [he]

/-- Another key keeps its value. -/
theorem AL.get_set_ne {α : Type} (l : AL α) {k j : Nat} (h : j ≠ k) (v : α) : (l.set k v).get j = l.get j := by
  unfold AL.set AL.get
  split
  · rw [AL.find_replace_ne h]
  · simp [List.find?_append, Ne.symm h]

/-! ### Units that fail -/

/-- FAULT_N falls, and FAULT attention names the unit. -/
def State.faultOf (s : State) (u : UnitRef) : State :=
  { s with aon := { s.aon with faultN := false } }.raise aFAULT 0 noTag (unitField u.kind u.num 0) 0

theorem State.faultOf_keeps (s : State) (u : UnitRef) : Keeps [.aon, .att, .obs] s (s.faultOf u) := .of_patch rfl

/-- A failed unit pulls FAULT_N low, whatever the step in progress does. -/
theorem State.unitFails_faultN (s : State) (u : UnitRef) : (s.unitFails u).aon.faultN = false := by
  have haon : (s.unitFails u).aon = (s.faultOf u).aon := State.localHold_keeps _ _ .aon (by decide)
  rw [haon]
  rfl

theorem State.unitFails_dev (s : State) (u : UnitRef) : (s.unitFails u).dev = s.dev :=
  State.localHold_keeps (s.faultOf u) cINTERNAL .dev (by decide)

theorem State.unitFails_idle {s : State} (h : s.stp.active = none) (u : UnitRef) : s.unitFails u = s.faultOf u :=
  State.localHold_idle (s := s.faultOf u) h cINTERNAL

theorem State.unitFails_commits {s : State} (h : s.stp.waitVerdict = []) (u : UnitRef) :
    (s.unitFails u).commits = s.commits := State.localHold_commits (s := s.faultOf u) h cINTERNAL

theorem execUnitFailure_ready {s : State} {u : UnitRef} (hp : s.powered = true) (hm : s.dev.mode = .ready)
    (hu : u.wf = true) : exec (.unitFailure u) s = .next (s.unitFails u) := by
  show execUnitFailure u s = _
  simp [execUnitFailure, hp, hm, hu]

/-! ### Bridge groups -/

/-- A CRC failure of a transfer on a bridge group is counted (R32). -/
def State.countCrc (s : State) (g : Fin 16) (x : Nat) : State :=
  { s with dev := { s.dev with bridgeFails := s.dev.bridgeFails.set g (x, crcRow s g x) } }

/-- No further step begins. -/
def State.haltsSteps (s : State) : State := { s with dev := { s.dev with haltSteps := true } }

theorem execBridgeCrcFail_powered {s : State} (hp : s.powered = true) (g : Fin 16) (x : Nat) :
    exec (.bridgeCrcFail ⟨g, x⟩) s = .next (if crcRow s g x = 17 then (s.countCrc g x).haltsSteps.unitFails ⟨uBridge, g⟩
      else s.countCrc g x) := by
  show execBridgeCrcFail ⟨g, x⟩ s = _
  unfold execBridgeCrcFail
  rw [if_neg (by simp [hp])]
  rfl

/-! ### A start-up that fails -/

/-- FAILED at a step of the start, with FAULT_N low and the units in the self-test report (R573). -/
def State.startFailed (s : State) (step : Nat) (cold : Bool) (us : List SelfTestEntry) : State :=
  { s with
    aon := { s.aon with faultN := false, activating := false }
    dev := { s.dev with
      mode := .failed, failCause := some .start, serving := true, starting := some ⟨step, cold⟩
      selfTest := s.dev.selfTest ++ us } }

/-- FAULT attention with a code for each unit, or one without a unit. -/
def State.raiseUnits (s : State) (us : List SelfTestEntry) (code : Nat) : State :=
  if us.isEmpty then s.raise aFAULT code noTag 0 0
  else us.foldl (fun s e => s.raise aFAULT code noTag (unitField e.unit.kind e.unit.num 0) 0) s

theorem State.startFails_eq (s : State) (step : Nat) (cold : Bool) (us : List SelfTestEntry) (code : Nat) :
    s.startFails step cold us code = ((s.startFailed step cold us).raiseUnits us code).drainUndefined := rfl

theorem State.raiseUnits_keeps (s : State) (us : List SelfTestEntry) (code : Nat) :
    Keeps [.att, .obs] s (s.raiseUnits us code) := by
  unfold State.raiseUnits
  split
  · exact s.raise_keeps _ _ _ _ _
  · exact Keeps.foldl (fun _ _ => State.raise_keeps _ _ _ _ _ _) us s

/-- Each condition advances ASEQ by one (R498). -/
theorem foldl_raise_aseq {α : Type} (c code tag : Nat) (arg : α → Nat) : ∀ (l : List α) (s : State),
    (l.foldl (fun s e => s.raise c code tag (arg e) 0) s).att.aseq = s.att.aseq + BitVec.ofNat 16 l.length := by
  intro l
  induction l with
  | nil => intro s; simp
  | cons e l ih =>
    intro s
    rw [List.foldl_cons, ih, State.raise_att, Att.raise_aseq, List.length_cons, Nat.add_comm l.length 1,
      BitVec.ofNat_add, BitVec.add_assoc]
    rfl

theorem State.raiseUnits_aseq (s : State) (us : List SelfTestEntry) (code : Nat) :
    (s.raiseUnits us code).att.aseq = s.att.aseq + BitVec.ofNat 16 (max 1 us.length) := by
  unfold State.raiseUnits
  cases us with
  | nil => rfl
  | cons e r =>
    have hmax : max 1 (e :: r).length = (e :: r).length := Nat.max_eq_right (by simp)
    rw [hmax]
    exact foldl_raise_aseq aFAULT code noTag (fun e : SelfTestEntry => unitField e.unit.kind e.unit.num 0) (e :: r) s

theorem State.startFails_keeps (s : State) (step : Nat) (cold : Bool) (us : List SelfTestEntry) (code : Nat) :
    Keeps [.mbx, .att, .obs] (s.startFailed step cold us) (s.startFails step cold us code) := by
  rw [State.startFails_eq]
  exact ((State.raiseUnits_keeps _ _ _).mono (by decide)).trans ((State.drainUndefined_keeps _).mono (by decide))

theorem State.startFails_att (s : State) (step : Nat) (cold : Bool) (us : List SelfTestEntry) (code : Nat) :
    (s.startFails step cold us code).att = ((s.startFailed step cold us).raiseUnits us code).att := by
  rw [State.startFails_eq]
  exact State.drainUndefined_keeps _ .att (by decide)

theorem execStartBoundExceeded_starting {s : State} {x : Starting} {us : List SelfTestEntry} (hx : s.startingUp = some x)
    (hp : s.powered = true) (hus : ∀ e ∈ us, e.unit.wf = true) :
    exec (.startBoundExceeded us) s = .next (s.startFails x.step x.cold us cINTERNAL) := by
  show execStartBoundExceeded us s = _
  unfold execStartBoundExceeded
  rw [hx, List.filter_eq_self.2 hus]
  simp [hp]

/-! ### The statement -/

/-- A failed unit: the clauses of a device that runs. -/
theorem unitFailure_spec {s : State} {u : UnitRef} (hp : s.powered = true) (hm : s.dev.mode = .ready) (hu : u.wf = true) :
    ∃ t, exec (.unitFailure u) s = .next t ∧ t.aon.faultN = false
      ∧ (s.stp.active = none → t.att = s.att.raise s.aon.tick aFAULT 0 noTag (unitField u.kind u.num 0) 0
        ∧ Keeps [.aon, .att, .obs] s t)
      ∧ (s.stp.waitVerdict = [] → t.trn.ring = s.trn.ring ∧ t.trn.sel = s.trn.sel ∧ t.trn.commit = s.trn.commit) := by
  refine ⟨_, execUnitFailure_ready hp hm hu, s.unitFails_faultN u, fun hidle => ?_, fun hwait => ?_⟩
  · rw [State.unitFails_idle hidle]
    exact ⟨rfl, s.faultOf_keeps u⟩
  · have hc := State.unitFails_commits hwait u
    exact ⟨congrArg (·.1) hc, congrArg (·.2.1) hc, congrArg (·.2.2) hc⟩

/-- A CRC failure on a bridge group: counted, and the seventeenth in a row fails the group. -/
theorem bridgeCrcFail_spec {s : State} (hp : s.powered = true) (g : Fin 16) (x : Nat) :
    ∃ t, exec (.bridgeCrcFail ⟨g, x⟩) s = .next t
      ∧ t.dev.bridgeFails.get g = some (x, crcRow s g x)
      ∧ (crcRow s g x ≠ 17 → Keeps [.dev] s t ∧ t.dev.haltSteps = s.dev.haltSteps)
      ∧ (crcRow s g x = 17 → t.dev.haltSteps = true ∧ t.aon.faultN = false) := by
  refine ⟨_, execBridgeCrcFail_powered hp g x, ?_⟩
  by_cases hrow : crcRow s g x = 17
  · rw [if_pos hrow, State.unitFails_dev]
    exact ⟨AL.get_set_same _ _ _, fun hne => absurd hrow hne, fun _ => ⟨rfl, State.unitFails_faultN _ _⟩⟩
  · rw [if_neg hrow]
    exact ⟨AL.get_set_same _ _ _, fun _ => ⟨.of_patch rfl, rfl⟩, fun h => absurd h hrow⟩

/-- A start-up step that overruns its bound: FAILED, with the commands of R494 answered. -/
theorem startBoundExceeded_spec {s : State} {x : Starting} {us : List SelfTestEntry} (hx : s.startingUp = some x)
    (hp : s.powered = true) (hus : ∀ e ∈ us, e.unit.wf = true) :
    ∃ t, exec (.startBoundExceeded us) s = .next t
      ∧ t.dev.mode = .failed ∧ t.dev.failCause = some .start ∧ t.aon.faultN = false
      ∧ t.dev.selfTest = s.dev.selfTest ++ us ∧ t.serves = true
      ∧ t.att.aseq = s.att.aseq + BitVec.ofNat 16 (max 1 us.length)
      ∧ (us = [] → t.att = s.att.raise s.aon.tick aFAULT cINTERNAL noTag 0 0)
      ∧ t.gated 0x0904 = false ∧ t.gated 0x0105 = false ∧ t.gated 0x0301 = true
      ∧ Keeps [.aon, .att, .dev, .mbx, .obs] s t := by
  refine ⟨_, execStartBoundExceeded_starting hx hp hus, ?_⟩
  have hkeeps := s.startFails_keeps x.step x.cold us cINTERNAL
  have hdev : _ = (s.startFailed x.step x.cold us).dev := hkeeps .dev (by decide)
  have haon : _ = (s.startFailed x.step x.cold us).aon := hkeeps .aon (by decide)
  have hatt := s.startFails_att x.step x.cold us cINTERNAL
  obtain ⟨⟨hgood, -⟩, hwait⟩ : (s.aon.pwrgd = true ∧ s.aon.resetN = true) ∧ s.aon.resetWait = false := by
    simpa [State.powered] using hp
  have hgated : ∀ op, (s.startFails x.step x.cold us cINTERNAL).gated op = !earlyOpcodes.contains op := by
    intro op
    unfold State.gated
    rw [hdev]
    show (true && (!earlyOpcodes.contains op || (false && _))) = _
    simp
  refine ⟨by rw [hdev]; rfl, by rw [hdev]; rfl, by rw [haon]; rfl, by rw [hdev]; rfl, ?_, ?_, ?_, hgated _, hgated _,
    hgated _, ?_⟩
  · simp [State.serves, hdev, haon, State.startFailed, hgood, hwait]
  · rw [hatt, State.raiseUnits_aseq]
    rfl
  · rintro rfl
    exact hatt
  · exact Keeps.trans (t := s.startFailed x.step x.cold us) (.of_patch rfl) (hkeeps.mono (by decide))

/-- Settles O13: a failed unit pulls FAULT_N low at once, and the hold vote that the step in progress then sends commits
nothing; the count of a bridge group's failures and the failed start are read off their own events. -/
theorem unitsFail : Obligations.UnitsFail :=
  ⟨⟨fun _ _ hp hm hu => unitFailure_spec hp hm hu, fun _ g x hp => bridgeCrcFail_spec hp g x⟩,
    fun _ _ _ hx hp hus => startBoundExceeded_spec hx hp hus⟩

end Sys2Proof.Machine
end

section
/-! SUPPORT. Ports and link-state records: lists sorted by a key, the record held for an address, a port's state, and what a
change of the links does to a device without work (R371, R387, R389, R390). -/

namespace Sys2Proof.Machine

/-! ### Lists sorted by a key -/

theorem mem_insertBy {α : Type} {key : α → Nat} {x y : α} {l : List α} : y ∈ insertBy key x l ↔ y = x ∨ y ∈ l := by
  induction l with
  | nil => simp [insertBy]
  | cons z r ih =>
    unfold insertBy
    split
    · simp
    · simp [ih, or_left_comm]

theorem insertBy_sorted {α : Type} {key : α → Nat} (x : α) {l : List α} (h : l.Pairwise (key · ≤ key ·)) :
    (insertBy key x l).Pairwise (key · ≤ key ·) := by
  induction l with
  | nil => simp [insertBy]
  | cons y r ih =>
    obtain ⟨hy, hr⟩ := List.pairwise_cons.1 h
    unfold insertBy
    split
    · rename_i hlt
      refine List.pairwise_cons.2 ⟨fun z hz => ?_, h⟩
      rcases List.mem_cons.1 hz with rfl | hz
      · omega
      · have := hy z hz
        omega
    · refine List.pairwise_cons.2 ⟨fun z hz => ?_, ih hr⟩
      rcases mem_insertBy.1 hz with rfl | hz
      · omega
      · exact hy z hz

/-- In a sorted list the insertion of an element finds, for a key, what its addition at the end finds. -/
theorem insertBy_find {α : Type} {key : α → Nat} (x : α) (k : Nat) {l : List α} (h : l.Pairwise (key · ≤ key ·)) :
    (insertBy key x l).find? (key · == k) = (l ++ [x]).find? (key · == k) := by
  induction l with
  | nil => rfl
  | cons y r ih =>
    obtain ⟨hy, hr⟩ := List.pairwise_cons.1 h
    unfold insertBy
    split
    · rename_i hlt
      by_cases hx : key x = k
      · have hnone : (y :: r).find? (key · == k) = none := by
          refine List.find?_eq_none.2 fun z hz => ?_
          have : key y ≤ key z := by
            rcases List.mem_cons.1 hz with rfl | hz
            · exact Nat.le_refl _
            · exact hy z hz
          simp only [beq_iff_eq]
          omega
        rw [List.find?_append, hnone]
        simp [hx]
      · rw [List.find?_append]
        simp [List.find?_cons, beq_false_of_ne hx]
    · rw [List.cons_append, List.find?_cons, List.find?_cons, ih hr]

/-- Sorting by a key keeps equal keys in their order: the first element of a key stays the first. -/
theorem sortBy_find {α : Type} (key : α → Nat) (k : Nat) (l : List α) :
    (sortBy key l).find? (key · == k) = l.find? (key · == k) := by
  have hfold : ∀ (l acc : List α), acc.Pairwise (key · ≤ key ·) →
      (l.foldl (fun acc x => insertBy key x acc) acc).find? (key · == k) = (acc ++ l).find? (key · == k) := by
    intro l
    induction l with
    | nil => intro acc _; simp
    | cons x r ih =>
      intro acc hacc
      rw [List.foldl_cons, ih _ (insertBy_sorted x hacc), List.find?_append, insertBy_find x k hacc, ← List.find?_append,
        List.append_assoc, List.singleton_append]
  exact hfold l [] List.Pairwise.nil

/-! ### Link-state records -/

/-- The record held for an address once another has been kept. -/
theorem Fab.record_putRecord (f : Fab) (r : LinkState) (a : Nat) :
    (f.putRecord r).record a = if a = r.addr then some r else f.record a := by
  show (sortBy (·.addr) (f.records.filter (·.addr != r.addr) ++ [r])).find? (·.addr == a) = _
  rw [sortBy_find, List.find?_append, List.find?_filter]
  by_cases ha : a = r.addr
  · rw [if_pos ha, List.find?_eq_none.2 (by simp [ha])]
    simp [ha]
  · have hfilter : (fun x : LinkState => decide ((x.addr != r.addr) = true ∧ (x.addr == a) = true)) = (·.addr == a) := by
      funext x
      by_cases hx : x.addr = a
      · simp [hx, ha]
      · simp [hx]
    rw [if_neg ha, hfilter]
    simp [Fab.record, Ne.symm ha]

/-! ### Ports -/

@[simp] theorem State.portState_fab (s : State) (n : Nat) (p : Port) (pi : Nat) :
    (s.portState n p pi).fab = { s.fab with ports := s.fab.ports.set n { p with pi := pi } } := by
  unfold State.portState
  split <;> rfl

theorem State.portState_keeps (s : State) (n : Nat) (p : Port) (pi : Nat) : Keeps [.fab, .obs] s (s.portState n p pi) := by
  unfold State.portState
  split <;> exact .of_patch rfl

theorem State.portState_port_same (s : State) (n : Nat) (p : Port) (pi : Nat) :
    (s.portState n p pi).fab.port n = some { p with pi := pi } := by
  rw [State.portState_fab]
  exact AL.get_set_same _ _ _

theorem State.portState_port_ne (s : State) {n m : Nat} (h : m ≠ n) (p : Port) (pi : Nat) :
    (s.portState n p pi).fab.port m = s.fab.port m := by
  rw [State.portState_fab]
  exact AL.get_set_ne _ h _

/-! ### Changes of the links -/

/-- A change of the links gives the device's record its next number, and changes nothing else of the fabric. -/
theorem State.linkChange_fab (s : State) :
    ∃ n rs, s.linkChange.fab = { s.fab with lsSeq := n, records := rs } := by
  unfold State.linkChange
  split
  · exact ⟨_, _, rfl⟩
  · split
    · exact ⟨_, _, rfl⟩
    · dsimp only
      split <;> exact ⟨_, _, rfl⟩

theorem State.linkChange_keeps (s : State) : Keeps [.fab, .out] s s.linkChange := by
  unfold State.linkChange
  split
  · exact .refl _ s
  · split
    · exact .refl _ s
    · dsimp only
      split <;> exact .of_patch rfl

@[simp] theorem State.linkChange_port (s : State) (n : Nat) : s.linkChange.fab.port n = s.fab.port n := by
  obtain ⟨_, _, h⟩ := s.linkChange_fab
  rw [h]
  rfl

@[simp] theorem State.linkChange_send (s : State) : s.linkChange.fab.send = s.fab.send := by
  obtain ⟨_, _, h⟩ := s.linkChange_fab
  rw [h]

@[simp] theorem State.linkChange_fs (s : State) : s.linkChange.fab.fs = s.fab.fs := by
  obtain ⟨_, _, h⟩ := s.linkChange_fab
  rw [h]

@[simp] theorem State.linkChange_stp (s : State) : s.linkChange.stp = s.stp := s.linkChange_keeps .stp (by decide)

/-- A state with the same contexts and steps has no work either. -/
theorem noWork_congr {s t : State} (h : NoWork s) (hsend : t.fab.send = s.fab.send) (hstp : t.stp = s.stp) : NoWork t := by
  obtain ⟨hctx, hidle⟩ := h
  exact ⟨by rw [hsend]; exact hctx, by rw [hstp]; exact hidle⟩

/-- A device without work has no context that an unreachable destination could fail (R387). -/
theorem State.checkReach_noWork {s : State} (h : NoWork s) : s.checkReach = s := by
  obtain ⟨hctx, hidle⟩ := h
  have hnone : (s.fab.send.filter fun c =>
      !c.failed && (!c.waiting.isEmpty || !c.unacked.isEmpty) && s.fab.unreachable c.dst) = [] := by
    refine List.filter_eq_nil_iff.2 fun c hc => ?_
    rcases hctx c hc with hfailed | ⟨hwaiting, hunacked⟩
    · simp [hfailed]
    · simp [hwaiting, hunacked]
  have hplan : s.stepPlan = none := by simp [State.stepPlan, hidle]
  unfold State.checkReach
  simp only [hnone, List.foldl_nil, hplan]

/-! ### A device that is READY has nothing to discover -/

theorem State.mapped_ready {s : State} (h : s.fab.fs = .ready) : s.mapped = s := by
  unfold State.mapped
  rw [if_pos (by simp [h])]

theorem State.discover_ready {s : State} (h : s.fab.fs = .ready) : s.discover = s := by
  unfold State.discover
  rw [if_neg (by simp [h]), State.mapped_ready h]

theorem State.lateBy_ready {s : State} (h : s.fab.fs = .ready) (far : IdentityMsg) : s.lateBy far = s := by
  unfold State.lateBy
  rw [if_neg (by simp [h])]

theorem State.settleResume_none {s : State} (h : s.stp.resume = none) : s.settleResume = s := by
  unfold State.settleResume
  rw [h]

/-- A port that joins its bundle in a READY device without work changes the device's link state, and no more. -/
theorem State.portJoins_ready {s : State} (hfs : s.fab.fs = .ready) (hw : NoWork s) (n : Nat) (p : Port) :
    s.portJoins n p
      = (s.portState n { p with probation := false, verified := true, inBundle := true } 5).linkChange := by
  unfold State.portJoins
  have hreach : ∀ q, (s.portState n q 5).linkChange.checkReach = (s.portState n q 5).linkChange := fun q =>
    State.checkReach_noWork (noWork_congr hw (by simp)
      ((State.linkChange_stp _).trans (s.portState_keeps n q 5 .stp (by decide))))
  simp only [hreach]
  rw [if_neg (by simp [hfs])]

end Sys2Proof.Machine
end

section
/-! SUPPORT. Discovery: the exchange of identity, link-state records that arrive, and the bounds of discovery's steps (R16,
R368, R377, R387 to R394). -/

namespace Sys2Proof.Machine

/-! ### The exchange of identity -/

/-- The far end is the neighbour that the port's bundle leads to (R368). -/
def Fab.IsNeighbour (f : Fab) (me : Nat) (p : Port) (far : IdentityMsg) (a : Nat) : Prop :=
  far.sx = f.sx ∧ far.sy = f.sy ∧ far.sz = f.sz ∧ far.bundle = opposite p.bundle ∧ a = f.neighbour me p.bundle

section
variable {s : State} {n : Fin 36} {p : Port} {far : IdentityMsg} {me : Nat}

/-- A neighbour found on a port that has not fallen joins its bundle; after a fall the port is on probation first (R377). -/
theorem execIdentityExchange_neighbour (hp : s.powered = true) (hport : s.fab.port n = some p) (ht : p.trained = true)
    (hb : p.inBundle = false) (hme : s.fab.addr = some me) (hfs : s.fab.fs = .ready) (hw : NoWork s) {a : Nat}
    (ha : far.addr = some a) (hfar : s.fab.IsNeighbour me p far a) :
    exec (.identityExchange n far) s = .next (if p.downs = 0
      then (s.portState n { p with far := some far, probation := false, verified := true, inBundle := true } 5).linkChange
      else s.portState n { p with far := some far, verified := true, probation := true } 3) := by
  show execIdentityExchange n far s = _
  obtain ⟨hx, hy, hz, hbundle, hnb⟩ := hfar
  unfold execIdentityExchange
  simp only [hport, hme, ha]
  rw [if_neg (by simp [hp, ht, hb]), if_neg (by simp [hx, hy, hz, hbundle, hnb])]
  by_cases hd : p.downs = 0
  · rw [if_neg (by omega), if_pos hd, State.portJoins_ready hfs hw, State.lateBy_ready (by simpa using hfs),
      State.discover_ready (by simpa using hfs)]
  · rw [if_pos (by omega), if_neg hd, State.discover_ready (by simpa using hfs)]

/-- What a port that is not in place becomes: PI_STATE `pi`, with FABRIC attention when it was not so before. -/
def State.strayPort (s : State) (n : Nat) (p : Port) (pi addr : Nat) : State :=
  if p.pi = pi then s.portState n p pi else (s.portState n p pi).fabricNote addr [n]

theorem State.strayPort_fab (s : State) (n : Nat) (p : Port) (pi addr : Nat) :
    (s.strayPort n p pi addr).fab = (s.portState n p pi).fab := by
  unfold State.strayPort
  split <;> rfl

theorem State.strayPort_keeps (s : State) (n : Nat) (p : Port) (pi addr : Nat) :
    Keeps [.fab, .obs, .att] s (s.strayPort n p pi addr) := by
  unfold State.strayPort
  split
  · exact (s.portState_keeps n p pi).mono (by decide)
  · exact ((s.portState_keeps n p pi).mono (by decide)).trans ((State.raise_keeps _ _ _ _ _ _).mono (by decide))

theorem State.strayPort_att (s : State) (n : Nat) (p : Port) (pi addr : Nat) :
    (s.strayPort n p pi addr).att
      = if p.pi = pi then s.att else s.att.raise s.aon.tick aFABRIC 0 noTag addr (2 ^ n) := by
  have hatt : (s.portState n p pi).att = s.att := s.portState_keeps n p pi .att (by decide)
  have haon : (s.portState n p pi).aon = s.aon := s.portState_keeps n p pi .aon (by decide)
  unfold State.strayPort
  split
  · exact hatt
  · simp [State.fabricNote, hatt, haon]

/-- A stray port: its own state, the attention, and nothing else. -/
theorem State.strayPort_spec (s : State) (n : Nat) (p : Port) (pi addr : Nat) :
    (s.strayPort n p pi addr).fab.port n = some { p with pi := pi }
      ∧ (s.strayPort n p pi addr).att = (if p.pi = pi then s.att else s.att.raise s.aon.tick aFABRIC 0 noTag addr (2 ^ n))
      ∧ (∀ m, m ≠ n → (s.strayPort n p pi addr).fab.port m = s.fab.port m)
      ∧ Keeps [.fab, .obs, .att] s (s.strayPort n p pi addr) := by
  rw [State.strayPort_fab]
  exact ⟨s.portState_port_same n p pi, s.strayPort_att n p pi addr, fun m hm => s.portState_port_ne hm p pi,
    s.strayPort_keeps n p pi addr⟩

theorem execIdentityExchange_stranger (hp : s.powered = true) (hport : s.fab.port n = some p) (ht : p.trained = true)
    (hb : p.inBundle = false) (hme : s.fab.addr = some me) (hfs : s.fab.fs = .ready) {a : Nat}
    (ha : far.addr = some a) (hfar : ¬ s.fab.IsNeighbour me p far a) :
    exec (.identityExchange n far) s = .next (s.strayPort n { p with far := some far } 6 a) := by
  show execIdentityExchange n far s = _
  unfold execIdentityExchange
  simp only [hport, hme, ha]
  rw [if_neg (by simp [hp, ht, hb]), if_pos (by simpa [Fab.IsNeighbour, imp_iff_not_or, or_assoc] using hfar)]
  exact congrArg _ (State.discover_ready (s := s.strayPort n { p with far := some far } 6 a)
    (by rw [State.strayPort_fab]; simpa using hfs))

theorem execIdentityExchange_nameless (hp : s.powered = true) (hport : s.fab.port n = some p) (ht : p.trained = true)
    (hb : p.inBundle = false) (hme : s.fab.addr = some me) (hfs : s.fab.fs = .ready) (ha : far.addr = none) :
    exec (.identityExchange n far) s = .next (s.strayPort n { p with far := some far } 7 0xFFFF) := by
  show execIdentityExchange n far s = _
  unfold execIdentityExchange
  simp only [hport, hme, ha]
  rw [if_neg (by simp [hp, ht, hb])]
  exact congrArg _ (State.discover_ready (s := s.strayPort n { p with far := some far } 7 0xFFFF)
    (by rw [State.strayPort_fab]; simpa using hfs))

theorem execUnverifiedRetry_unverified (hp : s.powered = true) (hport : s.fab.port n = some p) (hpi : p.pi = 7) :
    exec (.unverifiedRetry n) s = .next (s.emit (.identity n (s.fab.identityOf n p))) := by
  show execUnverifiedRetry n s = _
  simp [execUnverifiedRetry, hport, hp, hpi]

end

/-! ### Link-state records -/

/-- A record is kept in place of the one held, and goes on (R389). -/
def State.spreadRecord (s : State) (b : Nat) (r : LinkState) : State :=
  { s with fab := s.fab.putRecord r }.floodRecord r b

/-- The record of another address leaves the device's own number as it is. -/
theorem State.keepRecord_other {s : State} {r : LinkState} (h : s.fab.addr ≠ some r.addr) (b : Nat) :
    s.keepRecord b r = s.spreadRecord b r := by
  have hown : ¬ ((s.fab.putRecord r).addr = some r.addr && (s.fab.putRecord r).lsSeq < r.seq) = true := by
    rw [Bool.and_eq_true, decide_eq_true_eq]
    exact fun hr => h hr.1
  unfold State.keepRecord
  dsimp only
  rw [if_neg hown]
  rfl

/-- The address of a record comes into CONFLICT: FABRIC attention, and it counts as missing (R390). -/
def State.conflicted (s : State) (a : Nat) : State :=
  let s := s.fabricNote a []
  { s with fab := { s.fab with conflicts := s.fab.conflicts ++ [a] } }

theorem State.markConflict_other {s : State} {a : Nat} (hc : a ∉ s.fab.conflicts) (ha : s.fab.addr ≠ some a)
    (hw : NoWork s) : s.markConflict a = s.conflicted a := by
  unfold State.markConflict
  rw [if_neg (by simpa using hc)]
  dsimp only
  have haddr : ¬ ((s.fabricNote a []).fab.addr == some a) = true := by
    rw [beq_iff_eq]
    exact ha
  rw [if_neg haddr]
  exact State.checkReach_noWork (s := s.conflicted a) (noWork_congr hw rfl rfl)

section
variable {s : State} {b : Nat} {r : LinkState} {me : Nat}

/-- A record that is newer than the one held, or the first of its address, is kept and flooded (R389). -/
theorem execLinkStateRecord_newer (hp : s.powered = true) (hme : s.fab.addr = some me) (hne : me ≠ r.addr)
    (hn : s.fab.names r.addr = true) (hfs : s.fab.fs = .ready) (hw : NoWork s) (hres : s.stp.resume = none)
    (hnew : ∀ o, s.fab.record r.addr = some o → o.devid = r.devid ∧ o.seq < r.seq) :
    exec (.linkStateRecord b r) s = .next (s.spreadRecord b r) := by
  have hother : s.fab.addr ≠ some r.addr := by simpa [hme] using hne
  have hkept : ((s.keepRecord b r).checkReach.mapped).settleResume = s.spreadRecord b r := by
    rw [State.keepRecord_other hother, State.checkReach_noWork (noWork_congr (t := s.spreadRecord b r) hw rfl rfl),
      State.mapped_ready (s := s.spreadRecord b r) hfs, State.settleResume_none (s := s.spreadRecord b r) hres]
  show execLinkStateRecord b r s = _
  unfold execLinkStateRecord
  rw [if_neg (by simp [hp, hme, hn])]
  cases ho : s.fab.record r.addr with
  | none => simp [hme, hne, hkept]
  | some o =>
    obtain ⟨hid, hseq⟩ := hnew o ho
    simp [hme, hne, hid, hseq, hkept]

theorem execLinkStateRecord_older (hp : s.powered = true) (hme : s.fab.addr = some me) (hne : me ≠ r.addr)
    (hn : s.fab.names r.addr = true) {o : LinkState} (ho : s.fab.record r.addr = some o) (hid : o.devid = r.devid)
    (hseq : ¬ o.seq < r.seq) : exec (.linkStateRecord b r) s = .next s := by
  show execLinkStateRecord b r s = _
  unfold execLinkStateRecord
  rw [if_neg (by simp [hp, hme, hn])]
  simp only [ho]
  simp [hme, hne, hid, hseq]

/-- The state after a record that shows a conflict: the newer of the two is kept, and the new one goes on in any case. -/
def State.bothRecords (s : State) (b : Nat) (r o : LinkState) : State :=
  if o.seq < r.seq then s.spreadRecord b r else s.floodRecord r b

theorem execLinkStateRecord_clash (hp : s.powered = true) (hme : s.fab.addr = some me) (hne : me ≠ r.addr)
    (hn : s.fab.names r.addr = true) (hc : r.addr ∉ s.fab.conflicts) (hw : NoWork s) {o : LinkState}
    (ho : s.fab.record r.addr = some o) (hid : o.devid ≠ r.devid) :
    exec (.linkStateRecord b r) s = .next ((s.bothRecords b r o).conflicted r.addr) := by
  have hother : s.fab.addr ≠ some r.addr := by simpa [hme] using hne
  show execLinkStateRecord b r s = _
  unfold execLinkStateRecord
  rw [if_neg (by simp [hp, hme, hn])]
  simp only [ho]
  rw [if_pos (by simp [hid])]
  unfold State.bothRecords
  by_cases hseq : o.seq < r.seq
  · rw [if_pos (by simpa using hseq), if_pos hseq, State.keepRecord_other hother]
    exact congrArg _ (State.markConflict_other hc hother (noWork_congr hw rfl rfl))
  · rw [if_neg (by simpa using hseq), if_neg hseq, if_neg (by simpa using hc)]
    exact congrArg _ (State.markConflict_other hc hother (noWork_congr hw rfl rfl))

end

/-! ### The bounds of discovery's steps -/

/-- The flooding of records is over its bound: FABRIC attention once (R392, R394). -/
theorem execDiscoveryFloodTimeout_mapping {s : State} (hp : s.powered = true) (hfs : s.fab.fs = .mapping)
    (hb : s.fab.barrier = none) :
    exec .discoveryFloodTimeout s = .next (if s.fab.floodLate = true then s
      else ({ s with fab := { s.fab with floodLate := true } }).fabricNote (s.fab.unrecorded.head?.getD 0xFFFF) []
        cINTERNAL) := by
  show execDiscoveryFloodTimeout s = _
  unfold execDiscoveryFloodTimeout
  cases s.fab.floodLate <;> simp [hp, hfs, hb]

/-- The ports that a bound of a step finds late. -/
def Fab.latePorts (f : Fab) (k : Nat) : List Nat :=
  (f.usedPorts.filter fun p => if k = 2 then !p.2.trained else p.2.trained && p.2.far.isNone).map (·.1)

/-- The attention of a bound that a step of discovery exceeds (R394). -/
def State.boundNote (s : State) (k : Nat) : State :=
  s.fabricNote (s.fab.addr.getD 0xFFFF) (if k = 2 || k = 3 then s.fab.latePorts k else []) cINTERNAL

theorem execDiscoveryBoundExpiry_inStep {s : State} (hp : s.powered = true) {k : Nat} (hk : s.fab.inStep k = true) :
    exec (.discoveryBoundExpiry k) s = .next (
      if k = 2 then ({ s.boundNote k with fab := { s.fab with trainOver := true } }).discover
      else if k = 3 then (s.boundNote k).formBundles
      else s.boundNote k) := by
  show execDiscoveryBoundExpiry k s = _
  unfold execDiscoveryBoundExpiry
  rw [if_neg (by simp [hp, hk])]
  rfl

theorem Fab.inStep_two {f : Fab} (h : f.inStep 2 = true) : f.fs = .training := by
  unfold Fab.inStep at h
  rw [if_neg (by decide), if_pos rfl, Bool.and_eq_true, Bool.and_eq_true, beq_iff_eq] at h
  obtain ⟨⟨hfs, -⟩, -⟩ := h
  exact hfs

/-- Discovery waits while a used port that has trained has not told its far end. -/
theorem State.discover_waits {s : State} (hfs : s.fab.fs = .training)
    (h : ∃ p ∈ s.fab.usedPorts, p.2.trained = true ∧ p.2.far = none) : s.discover = s := by
  obtain ⟨p, hp, ht, hfar⟩ := h
  have hall : (s.fab.usedPorts.all fun p => !p.2.trained || p.2.far.isSome) = false :=
    List.all_eq_false.2 ⟨p, hp, by simp [ht, hfar]⟩
  unfold State.discover
  simp [hfs, hall]

/-- The map waits while an address that is not retired has no record. -/
theorem State.mapped_waits {s : State} {a : Nat} (he : s.fab.expired = false) (ha : a ∈ s.fab.allAddrs)
    (hr : a ∉ s.fab.retired) (hnone : s.fab.record a = none) : s.mapped = s := by
  have hany : (s.fab.allAddrs.any fun a =>
      !s.fab.retired.contains a && ((s.fab.record a).isNone || s.fab.conflicts.contains a)) = true :=
    List.any_eq_true.2 ⟨a, ha, by simp [hr, hnone]⟩
  unfold State.mapped
  by_cases hm : (s.fab.fs != .mapping || s.fab.barrier.isSome) = true
  · rw [if_pos hm]
  · rw [if_neg hm, if_neg (by simp [he]), if_pos hany]

/-- The fabric with the device's own record under its next number. -/
def Fab.originate (f : Fab) (me : Nat) : Fab :=
  let f := { f with lsSeq := f.lsSeq + 1 }
  f.putRecord (f.ownRecord me)

theorem Fab.record_originate (f : Fab) (me a : Nat) :
    (f.originate me).record a
      = if a = me then some ({ f with lsSeq := f.lsSeq + 1 }.ownRecord me) else f.record a :=
  Fab.record_putRecord { f with lsSeq := f.lsSeq + 1 } _ a

/-- Bundles form where no verified neighbour has joined: the device's record goes out, and it maps the machine, waiting for
the record of another address (R392). -/
theorem State.formBundles_maps {s : State} {me a : Nat} (hme : s.fab.addr = some me)
    (hj : ∀ p ∈ s.fab.ports, p.2.verified = true → ∀ x, p.2.far = some x → x.joined = false)
    (he : s.fab.expired = false) (ha : a ∈ s.fab.allAddrs) (hr : a ∉ s.fab.retired) (hne : a ≠ me)
    (hnone : s.fab.record a = none) :
    s.formBundles = { s with fab := { s.fab.originate me with fs := .mapping } }.floodRecord
      ({ s.fab with lsSeq := s.fab.lsSeq + 1 }.ownRecord me) 6 := by
  have hrec : (s.fab.originate me).record a = none := by rw [Fab.record_originate, if_neg hne, hnone]
  unfold State.formBundles
  split
  case h_1 hno => simp [hme] at hno
  case h_2 me' hme' =>
    obtain rfl : me' = me := Option.some.inj (hme'.symm.trans hme)
    dsimp only
    rw [if_neg]
    · exact State.mapped_waits (s := { s with fab := { s.fab.originate me' with fs := .mapping } }.floodRecord _ 6) he ha hr
        hrec
    · rw [List.any_eq_true]
      rintro ⟨p, hp, hjoined⟩
      obtain ⟨hv, hfar⟩ := (Bool.and_eq_true _ _).mp hjoined
      cases hx : p.2.far with
      | none => simp [hx] at hfar
      | some x => simp [hx, hj p hp hv x hx] at hfar

/-! ### The statement -/

/-- The far end of a port is the neighbour. -/
theorem identityExchange_neighbour_spec {s : State} {n : Fin 36} {p : Port} {far : IdentityMsg} {me : Nat}
    (hp : s.powered = true) (hport : s.fab.port n = some p) (ht : p.trained = true)
    (hb : p.inBundle = false) (hme : s.fab.addr = some me) (hfs : s.fab.fs = .ready) (hw : NoWork s) {a : Nat}
    (ha : far.addr = some a) (hfar : s.fab.IsNeighbour me p far a) :
    ∃ t, exec (.identityExchange n far) s = .next t
      ∧ t.fab.port n = some (if p.downs = 0
          then { p with far := some far, probation := false, verified := true, inBundle := true, pi := 5 }
          else { p with far := some far, verified := true, probation := true, pi := 3 })
      ∧ (∀ m, m ≠ n.val → t.fab.port m = s.fab.port m) ∧ Keeps [.fab, .out, .obs] s t := by
  refine ⟨_, execIdentityExchange_neighbour hp hport ht hb hme hfs hw ha hfar, ?_⟩
  by_cases hd : p.downs = 0
  · rw [if_pos hd, if_pos hd]
    simp only [State.linkChange_port]
    exact ⟨s.portState_port_same _ _ _, fun m hm => s.portState_port_ne hm _ _,
      ((s.portState_keeps _ _ _).mono (by decide)).trans ((State.linkChange_keeps _).mono (by decide))⟩
  · rw [if_neg hd, if_neg hd]
    exact ⟨s.portState_port_same _ _ _, fun m hm => s.portState_port_ne hm _ _, (s.portState_keeps _ _ _).mono (by decide)⟩

/-- A newer record, or the first, of another address. -/
theorem linkStateRecord_newer_spec {s : State} {b : Nat} {r : LinkState} {me : Nat} (hp : s.powered = true)
    (hme : s.fab.addr = some me) (hne : me ≠ r.addr) (hn : s.fab.names r.addr = true) (hfs : s.fab.fs = .ready)
    (hw : NoWork s) (hres : s.stp.resume = none)
    (hnew : ∀ o, s.fab.record r.addr = some o → o.devid = r.devid ∧ o.seq < r.seq) :
    ∃ t, exec (.linkStateRecord b r) s = .next t ∧ t.fab.record r.addr = some r
      ∧ (∀ a, a ≠ r.addr → t.fab.record a = s.fab.record a) ∧ Keeps [.fab, .out] s t
      ∧ t.out = s.out ++ (s.fab.upBundles.filter (· != b)).map fun c => .linkState c r := by
  refine ⟨_, execLinkStateRecord_newer hp hme hne hn hfs hw hres hnew, ?_, fun a ha => ?_, .of_patch rfl, rfl⟩
  · exact (s.fab.record_putRecord r r.addr).trans (if_pos rfl)
  · exact (s.fab.record_putRecord r a).trans (if_neg ha)

/-- A record of another device under an address that holds one. -/
theorem linkStateRecord_clash_spec {s : State} {b : Nat} {r o : LinkState} {me : Nat} (hp : s.powered = true)
    (hme : s.fab.addr = some me) (hne : me ≠ r.addr) (hn : s.fab.names r.addr = true) (hc : r.addr ∉ s.fab.conflicts)
    (hw : NoWork s) (ho : s.fab.record r.addr = some o) (hid : o.devid ≠ r.devid) :
    ∃ t, exec (.linkStateRecord b r) s = .next t ∧ r.addr ∈ t.fab.conflicts
      ∧ t.fab.record r.addr = some (if o.seq < r.seq then r else o)
      ∧ t.out = s.out ++ ((s.fab.upBundles.filter (· != b)).map fun c => .linkState c r)
      ∧ t.att = s.att.raise s.aon.tick aFABRIC 0 noTag r.addr 0 ∧ Keeps [.fab, .out, .att, .obs] s t := by
  refine ⟨_, execLinkStateRecord_clash hp hme hne hn hc hw ho hid, List.mem_append_right _ (List.mem_singleton.2 rfl), ?_⟩
  unfold State.bothRecords
  by_cases hseq : o.seq < r.seq
  · rw [if_pos hseq, if_pos hseq]
    exact ⟨(s.fab.record_putRecord r r.addr).trans (if_pos rfl), rfl, rfl, .of_patch rfl⟩
  · rw [if_neg hseq, if_neg hseq]
    exact ⟨ho, rfl, rfl, .of_patch rfl⟩

/-- The bound of step 5, once. -/
theorem discoveryFloodTimeout_spec {s : State} (hp : s.powered = true) (hfs : s.fab.fs = .mapping)
    (hb : s.fab.barrier = none) :
    (s.fab.floodLate = false → ∃ t, exec .discoveryFloodTimeout s = .next t ∧ t.fab = { s.fab with floodLate := true }
      ∧ t.att = s.att.raise s.aon.tick aFABRIC cINTERNAL noTag (s.fab.unrecorded.head?.getD 0xFFFF) 0
      ∧ Keeps [.fab, .att, .obs] s t)
    ∧ (s.fab.floodLate = true → exec .discoveryFloodTimeout s = .next s) := by
  rw [execDiscoveryFloodTimeout_mapping hp hfs hb]
  refine ⟨fun hl => ?_, fun hl => by rw [if_pos hl]⟩
  rw [if_neg (by simp [hl])]
  exact ⟨_, rfl, rfl, rfl, .of_patch rfl⟩

/-- The bound of a step that trains or tells no port. -/
theorem discoveryBoundExpiry_spec {s : State} {k : Nat} (hp : s.powered = true) (hk : s.fab.inStep k = true) (h2 : k ≠ 2)
    (h3 : k ≠ 3) : ∃ t, exec (.discoveryBoundExpiry k) s = .next t
      ∧ t.att = s.att.raise s.aon.tick aFABRIC cINTERNAL noTag (s.fab.addr.getD 0xFFFF) 0 ∧ Keeps [.att, .obs] s t := by
  rw [execDiscoveryBoundExpiry_inStep hp hk, if_neg h2, if_neg h3]
  refine ⟨_, rfl, ?_, State.raise_keeps _ _ _ _ _ _⟩
  simp [State.boundNote, State.fabricNote, h2, h3]

/-- The bound of step 2. -/
theorem discoveryBoundExpiry_training_spec {s : State} (hp : s.powered = true) (hk : s.fab.inStep 2 = true)
    (hwait : ∃ p ∈ s.fab.usedPorts, p.2.trained = true ∧ p.2.far = none) :
    ∃ t, exec (.discoveryBoundExpiry 2) s = .next t ∧ t.fab = { s.fab with trainOver := true }
      ∧ t.att = s.att.raise s.aon.tick aFABRIC cINTERNAL noTag (s.fab.addr.getD 0xFFFF)
          ((s.fab.usedPorts.filter (!·.2.trained)).map fun p => 2 ^ p.1).sum
      ∧ Keeps [.fab, .att, .obs] s t := by
  have hfs : s.fab.fs = .training := Fab.inStep_two hk
  rw [execDiscoveryBoundExpiry_inStep hp hk, if_pos rfl,
    State.discover_waits (s := { s.boundNote 2 with fab := { s.fab with trainOver := true } }) hfs hwait]
  refine ⟨_, rfl, rfl, ?_, .of_patch rfl⟩
  simp [State.boundNote, State.fabricNote, Fab.latePorts, Function.comp_def]

/-- The bound of step 3, where no neighbour has joined and another address has no record. -/
theorem discoveryBoundExpiry_exchange_spec {s : State} {me a : Nat} (hp : s.powered = true) (hk : s.fab.inStep 3 = true)
    (hme : s.fab.addr = some me) (hj : ∀ p ∈ s.fab.ports, p.2.verified = true → ∀ x, p.2.far = some x → x.joined = false)
    (he : s.fab.expired = false) (ha : a ∈ s.fab.allAddrs) (hr : a ∉ s.fab.retired) (hne : a ≠ me)
    (hnone : s.fab.record a = none) :
    ∃ t, exec (.discoveryBoundExpiry 3) s = .next t ∧ t.fab.fs = .mapping ∧ (t.fab.record me).isSome = true
      ∧ t.att = s.att.raise s.aon.tick aFABRIC cINTERNAL noTag me
          ((s.fab.usedPorts.filter fun p => p.2.trained && p.2.far.isNone).map fun p => 2 ^ p.1).sum
      ∧ Keeps [.fab, .out, .att, .obs] s t := by
  rw [execDiscoveryBoundExpiry_inStep hp hk, if_neg (by decide), if_pos rfl,
    State.formBundles_maps (s := s.boundNote 3) hme hj he ha hr hne hnone]
  refine ⟨_, rfl, rfl, ?_, ?_, .of_patch rfl⟩
  · show ((s.fab.originate me).record me).isSome = true
    rw [Fab.record_originate, if_pos rfl]
    rfl
  · simp [State.boundNote, State.fabricNote, State.floodRecord, Fab.latePorts, hme, Function.comp_def]

/-- Settles O51: each event is read off its own arm, where a READY device without work has nothing to discover and no context
that could fail, and a record kept for an address is the one found there. -/
theorem discoveryRuns : Obligations.DiscoveryRuns := by
  refine ⟨fun s n p far me hp hport ht hb hme hfs hw => ⟨?_, ?_, ?_⟩, ?_, ?_, ?_, ?_, ?_, ?_⟩
  · exact fun a ha hx hy hz hbundle hnb =>
      identityExchange_neighbour_spec hp hport ht hb hme hfs hw ha ⟨hx, hy, hz, hbundle, hnb⟩
  · exact fun a ha hfar => ⟨_, execIdentityExchange_stranger hp hport ht hb hme hfs ha hfar,
      s.strayPort_spec n { p with far := some far } 6 a⟩
  · exact fun ha => ⟨_, execIdentityExchange_nameless hp hport ht hb hme hfs ha,
      s.strayPort_spec n { p with far := some far } 7 0xFFFF⟩
  · exact fun s n p hp hport hpi => ⟨_, execUnverifiedRetry_unverified hp hport hpi, rfl, .of_patch rfl⟩
  · exact fun s b r me hp hme hne hn hc hfs hw hres => ⟨linkStateRecord_newer_spec hp hme hne hn hfs hw hres, fun o ho =>
      ⟨execLinkStateRecord_older hp hme hne hn ho, linkStateRecord_clash_spec hp hme hne hn hc hw ho⟩⟩
  · exact fun s hp hfs hb => discoveryFloodTimeout_spec hp hfs hb
  · exact fun s k hp hk h2 h3 => discoveryBoundExpiry_spec hp hk h2 h3
  · exact fun s hp hk hwait => discoveryBoundExpiry_training_spec hp hk hwait
  · exact fun s me a hp hk hme hj he _ ha hr hne hnone => discoveryBoundExpiry_exchange_spec hp hk hme hj he ha hr hne hnone

end Sys2Proof.Machine
end

section
/-! SUPPORT. Discovery of a device without work: its fabric assembles itself, and no other unit changes (R370, R392,
R395). -/

namespace Sys2Proof.Machine

/-- The device works on no step and owes none, its contexts hold no flit, and no join barrier is under way. -/
structure State.AtRest (s : State) : Prop where
  idle : NoWork s
  settled : s.stp.resume = none
  forming : ∀ b, s.fab.barrier = some b → b.kind < 2

/-- What the discovery of a device at rest can change: the fabric, but for its send contexts, and what reports on it. -/
structure Discovers (s t : State) : Prop where
  keeps : Keeps [.out, .att, .fab, .obs] s t
  send : t.fab.send = s.fab.send
  forming : ∀ b, t.fab.barrier = some b → b.kind < 2

theorem State.AtRest.congr {s t : State} (h : s.AtRest) (hfab : t.fab = s.fab) (hstp : t.stp = s.stp) : t.AtRest :=
  ⟨noWork_congr h.idle (by rw [hfab]) hstp, by rw [hstp]; exact h.settled, by rw [hfab]; exact h.forming⟩

theorem State.AtRest.discovers {s : State} (h : s.AtRest) : Discovers s s := ⟨.refl _ s, rfl, h.forming⟩

theorem Discovers.atRest {s t : State} (d : Discovers s t) (h : s.AtRest) : t.AtRest := by
  have hstp : t.stp = s.stp := d.keeps .stp (by decide)
  exact ⟨noWork_congr h.idle d.send hstp, by rw [hstp]; exact h.settled, d.forming⟩

theorem Discovers.trans {s t u : State} (d : Discovers s t) (e : Discovers t u) : Discovers s u :=
  ⟨d.keeps.trans e.keeps, e.send.trans d.send, e.forming⟩

/-! ### The end of a barrier -/

theorem State.beginResume_none {s : State} (h : s.stp.resume = none) : s.beginResume = s := by
  unfold State.beginResume
  rw [h]

/-- The device becomes a member: no context of a device without work fails by it. -/
theorem State.becomeMember_discovers {s : State} (h : s.AtRest) (members : List Nat) :
    Discovers s (s.becomeMember members) := by
  unfold State.becomeMember
  extract_lets _ _ _ joined
  have hwork : NoWork (joined.fabricNote (joined.fab.addr.getD 0xFFFF) []) := noWork_congr h.idle rfl rfl
  rw [State.checkReach_noWork hwork]
  exact ⟨.of_patch rfl, rfl, h.forming⟩

/-- No recovery is owed, so that none begins. -/
theorem Discovers.beginResume {s t : State} (d : Discovers s t) (h : s.AtRest) : Discovers s t.beginResume := by
  rw [State.beginResume_none (d.atRest h).settled]
  exact d

theorem State.readyResult_discovers {s : State} (h : s.AtRest) : Discovers s s.readyResult :=
  (State.becomeMember_discovers h _).beginResume h

theorem State.partialResult_discovers {s : State} (h : s.AtRest) (me : Nat) (set : List Nat) :
    Discovers s (s.partialResult me set) := by
  unfold State.partialResult
  split
  · have hmember := State.becomeMember_discovers h set
    exact Discovers.beginResume (hmember.trans ⟨.of_patch rfl, rfl, hmember.forming⟩) h
  · exact ⟨.of_patch rfl, rfl, h.forming⟩

/-- A readiness or a partial barrier ends. -/
theorem State.barrierResult_discovers {s : State} (h : s.AtRest) {b : Barrier} (hb : b.kind < 2) (me : Nat)
    (set : List Nat) : Discovers s (s.barrierResult b me set) := by
  unfold State.barrierResult
  extract_lets _ ended
  have hended : Discovers s ended := ⟨.of_patch rfl, rfl, fun _ hnone => nomatch hnone⟩
  split
  · exact hended.trans (State.readyResult_discovers (hended.atRest h))
  · rw [if_pos (by omega)]
    exact hended.trans (State.partialResult_discovers (hended.atRest h) me set)

/-! ### Moves of a barrier -/

/-- A barrier message that is held has been used. -/
def State.eatBarrier (s : State) (m : Nat × BarrierMsg) : State :=
  { s with fab := { s.fab with heldBarrier := s.fab.heldBarrier.erase m } }

/-- The barrier goes on along the next axis. -/
def State.nextAxis (s : State) (b : Barrier) (ax : Axis) (set : List Nat) : State :=
  { s with fab := { s.fab with barrier := some { b with axis := ax, set := set, sent := false } } }

/-- The barrier's result of an axis, broadcast: then the next axis, or the end. -/
def State.finishAxis (s : State) (b : Barrier) (line : List Nat) (me : Nat) (set : List Nat) : State :=
  let s := s.emits ((bcastTargets line me).map fun a => .barrier a b.kind ⟨b.axis, true, me, set⟩)
  match b.axis with
  | .z => s.nextAxis b .y set
  | .y => s.nextAxis b .x set
  | .x => s.barrierResult b me set

/-- The device hands the barrier on to the next of its chain; the last one knows the result. -/
def State.passBarrier (s : State) (b : Barrier) (line : List Nat) (me : Nat) (set : List Nat) : State :=
  match chainNext line me with
  | some nx =>
    { s.emit (.barrier nx b.kind ⟨b.axis, false, me, set⟩) with
      fab := { s.fab with barrier := some { b with set := set, sent := true } } }
  | none => s.finishAxis b line me set

/-- What a move of the barrier can be: the chain's first device passes it on, another one does so with the message before
it, or the broadcast result has come. -/
theorem State.barrierMove_cases {s t : State} (h : s.barrierMove = some t) :
    ∃ b me, s.fab.barrier = some b ∧ s.fab.addr = some me ∧ ∃ line,
      (t = s.passBarrier b line me b.set
        ∨ ∃ m set, t = (s.eatBarrier m).passBarrier b line me set
          ∨ t = (s.eatBarrier m).finishAxis b line me set) := by
  unfold State.barrierMove at h
  split at h
  case h_1 b me hb hme =>
    refine ⟨b, me, hb, hme, s.fab.barrierLine b me, ?_⟩
    dsimp only at h
    split at h
    · obtain ⟨m, -, rfl⟩ := Option.map_eq_some_iff.1 h
      exact .inr ⟨m, _, .inr rfl⟩
    · split at h
      · exact .inl (Option.some.inj h).symm
      · obtain ⟨m, -, rfl⟩ := Option.map_eq_some_iff.1 h
        exact .inr ⟨m, _, .inl rfl⟩
  case h_2 => cases h

theorem State.nextAxis_discovers (s : State) {b : Barrier} (hb : b.kind < 2) (ax : Axis) (set : List Nat) :
    Discovers s (s.nextAxis b ax set) :=
  ⟨.of_patch rfl, rfl, fun _ heq => Option.some.inj heq ▸ hb⟩

section
variable {s : State} (h : s.AtRest)
include h

theorem State.eatBarrier_discovers (m : Nat × BarrierMsg) : Discovers s (s.eatBarrier m) :=
  ⟨.of_patch rfl, rfl, h.forming⟩

theorem State.emits_discovers (os : List Output) : Discovers s (s.emits os) := ⟨.of_patch rfl, rfl, h.forming⟩

theorem State.finishAxis_discovers {b : Barrier} (hb : b.kind < 2) (line : List Nat) (me : Nat) (set : List Nat) :
    Discovers s (s.finishAxis b line me set) := by
  unfold State.finishAxis
  extract_lets told
  have htold : Discovers s told := State.emits_discovers h _
  have hrest := htold.atRest h
  refine htold.trans ?_
  cases b.axis with
  | z => exact State.nextAxis_discovers _ hb .y set
  | y => exact State.nextAxis_discovers _ hb .x set
  | x => exact State.barrierResult_discovers hrest hb me set

theorem State.passBarrier_discovers {b : Barrier} (hb : b.kind < 2) (line : List Nat) (me : Nat) (set : List Nat) :
    Discovers s (s.passBarrier b line me set) := by
  unfold State.passBarrier
  split
  · exact ⟨.of_patch rfl, rfl, fun _ heq => Option.some.inj heq ▸ hb⟩
  · exact State.finishAxis_discovers h hb line me set

theorem State.barrierMove_discovers {t : State} (hm : s.barrierMove = some t) : Discovers s t := by
  obtain ⟨b, me, hbar, -, line, hcase⟩ := State.barrierMove_cases hm
  have hb : b.kind < 2 := h.forming b hbar
  rcases hcase with rfl | ⟨m, set, hpass | hfinish⟩
  · exact State.passBarrier_discovers h hb line me b.set
  · have heat := State.eatBarrier_discovers h m
    exact hpass ▸ heat.trans (State.passBarrier_discovers (heat.atRest h) hb line me set)
  · have heat := State.eatBarrier_discovers h m
    exact hfinish ▸ heat.trans (State.finishAxis_discovers (heat.atRest h) hb line me set)

end

theorem barrierMoves_discovers : ∀ (n : Nat) {s : State}, s.AtRest → Discovers s (barrierMoves n s) := by
  intro n
  induction n with
  | zero => exact fun h => h.discovers
  | succ n ih =>
    intro s h
    unfold barrierMoves
    split
    · rename_i t ht
      have hmove := State.barrierMove_discovers h ht
      exact hmove.trans (ih (hmove.atRest h))
    · exact h.discovers

/-! ### Discovery -/

section
variable {s : State} (h : s.AtRest)
include h

theorem State.enterBarrier_discovers {kind : Nat} (hk : kind < 2) (own : List Nat) :
    Discovers s (s.enterBarrier kind own) := by
  have hentered : Discovers s { s with fab := { s.fab with barrier := some ⟨kind, .z, own, own, false⟩ } } :=
    ⟨.of_patch rfl, rfl, fun _ heq => Option.some.inj heq ▸ hk⟩
  exact hentered.trans (barrierMoves_discovers 8 (hentered.atRest h))

theorem State.enterPartial_discovers : Discovers s s.enterPartial := by
  unfold State.enterPartial
  split
  · exact h.discovers
  · exact State.enterBarrier_discovers h (by decide) _
  · exact h.discovers

theorem State.mapped_discovers : Discovers s s.mapped := by
  unfold State.mapped
  split
  · exact h.discovers
  split
  · exact State.enterPartial_discovers h
  split
  · exact h.discovers
  split
  · exact State.enterBarrier_discovers h (by decide) []
  · exact State.enterPartial_discovers h

theorem State.sendNotice_discovers : Discovers s s.sendNotice := by
  unfold State.sendNotice
  split
  · exact h.discovers
  · exact State.emits_discovers h _

theorem State.formBundles_discovers : Discovers s s.formBundles := by
  unfold State.formBundles
  split
  · exact h.discovers
  extract_lets _ _ r kept
  split
  · have hlate : Discovers s { kept with fab := { kept.fab with fs := .isolated, reason := 4 } } :=
      ⟨.of_patch rfl, rfl, h.forming⟩
    exact hlate.trans (State.sendNotice_discovers (hlate.atRest h))
  · have hmapping : Discovers s (State.floodRecord { kept with fab := { kept.fab with fs := .mapping } } r 6) :=
      ⟨.of_patch rfl, rfl, h.forming⟩
    exact hmapping.trans (State.mapped_discovers (hmapping.atRest h))

/-- Discovery of a device at rest changes its fabric alone, and reports. -/
theorem State.discover_discovers : Discovers s s.discover := by
  unfold State.discover
  split
  · dsimp only
    split
    · exact State.formBundles_discovers h
    · exact h.discovers
  · exact State.mapped_discovers h

end

end Sys2Proof.Machine
end

section
/-! SUPPORT. A start in which no unit fails and no step overruns: the loss of power before it, its steps, and READY (R38,
R41, R493, R571, R580, R588). -/

namespace Sys2Proof.Machine

/-! ### Without power -/

theorem State.freeBacking_keeps (s : State) : Keeps [.fresh, .mem] s s.freeBacking := by
  unfold State.freeBacking
  exact Keeps.foldl (fun _ _ => .of_patch rfl) _ s

/-- What the always-on domain holds without power: fuses, banks, the selector, and HOST_PERST_N. -/
def Aon.unpowered (a : Aon) : Aon :=
  { Aon.reset with
    perstN := a.perstN
    fzKeys := a.fzKeys, fzRevoke := a.fzRevoke, fzRollback := a.fzRollback
    fzIdKey := a.fzIdKey, fzSerial := a.fzSerial, banks := a.banks, selCopies := a.selCopies }

theorem State.unpowered_aon (s : State) : s.unpowered.aon = s.aon.unpowered := by
  have haon : s.freeBacking.aon = s.aon := s.freeBacking_keeps .aon (by decide)
  show s.freeBacking.aon.unpowered = _
  rw [haon]

/-- Power is good and RESET_N high again: DEV_TICK starts, the boot ROM runs, and the host port may train. -/
def State.coldBegun (s : State) : State :=
  { s.unpowered with
    aon := { s.unpowered.aon with
      pwrgd := true, resetN := true, tickOn := true, faultN := true, primary := .rom }
    dev := { s.unpowered.dev with starting := some ⟨6, true⟩ }
    hst := { s.unpowered.hst with link := if s.unpowered.aon.perstN then .training else .down } }

theorem State.coldStart_eq (s : State) {inp : StartInputs} (h : inp.stall = none) :
    s.coldStart inp = s.coldBegun.startSteps true inp := by
  unfold State.coldStart
  dsimp only
  rw [if_neg (by simp [h])]
  rfl

theorem execResetNRise_cold {s : State} {inp : StartInputs} (hp : s.aon.pwrgd = true) (hc : s.aon.coldArmed = true)
    (hr : s.aon.resetN = false) : exec (.resetNRise inp) s = .next (s.coldStart inp) := by
  show execResetNRise inp s = _
  simp [execResetNRise, hp, hc, hr]

/-- The cold start begins with everything at its reset value. -/
theorem State.coldBegun_keeps (s : State) :
    Keeps [.pending, .out, .fresh, .aon, .dev, .mem, .hst] State.reset s.coldBegun := .of_patch rfl

theorem State.coldBegun_aon (s : State) : s.coldBegun.aon =
    { s.aon.unpowered with pwrgd := true, resetN := true, tickOn := true, faultN := true, primary := .rom } := by
  rw [← s.unpowered_aon]
  rfl

/-! ### The boot ROM -/

/-- The image of a bank verifies (R587). -/
def Aon.bankVerifies (a : Aon) (n : Nat) : Bool := (a.verifyImage (a.banks.getD n [])).isNone

/-- Whether images verify is a matter of the fuses. -/
theorem Aon.verifyImage_congr {a b : Aon} (hk : b.fzKeys = a.fzKeys) (hv : b.fzRevoke = a.fzRevoke)
    (hr : b.fzRollback = a.fzRollback) (x : Bytes) : b.verifyImage x = a.verifyImage x := by
  unfold Aon.verifyImage Aon.rollback
  rw [hk, hv, hr]

/-- A bank whose image the boot ROM may run, and whether it is the fallback (R588). -/
def Aon.Boots (a : Aon) (n : Nat) (fallback : Bool) : Prop :=
  a.bankVerifies n = true ∧ (fallback = true ↔ n ≠ a.selectedBank)

/-- The other bank runs, with FW_NOTE attention (R588). -/
def State.fallsBack (s : State) : State :=
  ({ s with dev := { s.dev with fallback := true } }).raise aFW_NOTE 0 noTag 1 0

theorem State.bootBank_selected {s : State} (h : s.aon.bankVerifies s.aon.selectedBank = true) :
    s.bootBank = some (s, runningOf s.aon.selectedBank (s.aon.banks.getD s.aon.selectedBank [])) := by
  unfold State.bootBank
  unfold Aon.bankVerifies at h
  simp only [h, if_true]

theorem State.bootBank_other {s : State} (h : s.aon.bankVerifies s.aon.selectedBank = false)
    (ho : s.aon.bankVerifies (1 - s.aon.selectedBank) = true) :
    s.bootBank = some (s.fallsBack,
      runningOf (1 - s.aon.selectedBank) (s.aon.banks.getD (1 - s.aon.selectedBank) [])) := by
  unfold State.bootBank
  unfold Aon.bankVerifies at h ho
  simp only [h, ho, if_true]
  rfl

/-- The boot ROM finds an image where one of the banks verifies. -/
theorem State.bootBank_boots {s : State} (hf : s.dev.fallback = false)
    (h : s.aon.bankVerifies s.aon.selectedBank = true ∨ s.aon.bankVerifies (1 - s.aon.selectedBank) = true) :
    ∃ t n fallback, s.bootBank = some (t, runningOf n (s.aon.banks.getD n [])) ∧ s.aon.Boots n fallback
      ∧ t.dev = { s.dev with fallback := fallback } ∧ Keeps [.att, .dev, .obs] s t := by
  by_cases hsel : s.aon.bankVerifies s.aon.selectedBank = true
  · exact ⟨s, _, s.dev.fallback, State.bootBank_selected hsel, ⟨hsel, by simp [hf]⟩, rfl, .refl _ s⟩
  · have hother := h.resolve_left hsel
    have hbank : 1 - s.aon.selectedBank ≠ s.aon.selectedBank := by omega
    exact ⟨s.fallsBack, _, true, State.bootBank_other (Bool.eq_false_iff.2 hsel) hother,
      ⟨hother, iff_of_true rfl hbank⟩, rfl, .of_patch rfl⟩

/-! ### The identity buses -/

/-- Step 8 of R571, without the attention that it raises. -/
def State.identified (s : State) (inp : StartInputs) : State :=
  let record := inp.carrier.bind carrierRecord
  let ap := topoOf record % 2 ^ 18
  let fresh := s.fab.send.map fun c =>
    { c with next := 0, credits := 256, kept := [], unacked := [], waiting := [], resends := 0, failed := false }
  { s with
    aon := { s.aon with mate := .awake }
    dev := { s.dev with
      topo := BitVec.ofNat 32 (topoOf record), carrier := record.getD [], carrierValid := record.isSome
      psUnderrated := (inp.power.bind powerRecord) == some false, serving := true }
    fab := { Fab.init record ap s.aon.devid s.aon.tick.toNat with send := fresh }
    hst := { s.hst with adapters := adaptersOf ap } }

theorem State.readIdentity_keeps (s : State) (inp : StartInputs) :
    Keeps [.att, .obs] (s.identified inp) (s.readIdentity inp) := by
  unfold State.readIdentity
  extract_lets _ _ _ _ _ _ _ _ s1 s2 s3 s4
  have h2 : Keeps [.att, .obs] s1 s2 := by
    show Keeps _ s1 (if _ then _ else _)
    split
    · exact .refl _ _
    · exact s1.raise_keeps _ _ _ _ _
  have h3 : Keeps [.att, .obs] s2 s3 := by
    show Keeps _ s2 (if _ then _ else _)
    split
    · exact s2.raise_keeps _ _ _ _ _
    · exact .refl _ _
  have h4 : Keeps [.att, .obs] s3 s4 := by
    show Keeps _ s3 (match inp.power.bind powerRecord with | none => _ | some true => _ | some false => _)
    split
    · exact s3.raise_keeps _ _ _ _ _
    · exact .refl _ _
    · exact s3.raise_keeps _ _ _ _ _
  exact ((h2.trans h3).trans h4).trans (Keeps.foldl (fun _ _ => State.raise_keeps _ _ _ _ _ _) _ s4)

/-! ### Steps without a failure -/

/-- The start is at a step. -/
def State.atStep (s : State) (step : Nat) (cold : Bool) : State :=
  { s with dev := { s.dev with starting := some ⟨step, cold⟩ } }

/-- With no latched request none is answered. -/
theorem State.drainUndefined_empty {s : State} (h : s.mbx.latch = []) : s.drainUndefined = s := by
  unfold State.drainUndefined
  rw [h]
  rfl

/-- A step in which no unit fails and which ends within its bound goes on to what follows. -/
theorem State.startAt_clean (s : State) (step : Nat) (cold : Bool) {inp : StartInputs} (next : State → State)
    (hf : inp.failed = []) (hs : inp.stall = none) : s.startAt step cold inp next = next (s.atStep step cold) := by
  unfold State.startAt StartInputs.failedAt
  simp [hf, hs, State.atStep]

/-- A verified image runs, and the start is at step 8. -/
def State.runs (s : State) (r : Running) (cold : Bool) : State :=
  ({ s with aon := { s.aon with primary := .awake }, dev := { s.dev with running := some r } }).atStep 8 cold

/-- The stacks have left self-refresh, and the self-test has passed. -/
def State.tested (s : State) (cold : Bool) : State :=
  ({ s with mem := { s.mem with selfRefresh := [] }, dev := { s.dev with mode := .selftest } }).atStep 12 cold

/-- Steps 9 to 12 of R571 without a failure. -/
theorem State.tests_clean {s : State} {cold : Bool} {inp : StartInputs} (hf : inp.failed = []) (hs : inp.stall = none) :
    (s.startAt 9 cold inp fun s => s.startAt 10 cold inp fun s =>
      ({ s with mem := { s.mem with selfRefresh := [] }, dev := { s.dev with mode := .selftest } }).startAt 11 cold inp
        fun s => s.startAt 12 cold inp State.becomeReady) = (s.tested cold).becomeReady := by
  simp only [State.startAt_clean _ _ _ _ hf hs]
  rfl

/-- Steps 7 to 12 of R571 without a failure and without a latched request. -/
theorem State.startSteps_clean {s t : State} {cold : Bool} {inp : StartInputs} {r : Running} (hf : inp.failed = [])
    (hs : inp.stall = none) (hb : (s.atStep 7 cold).bootBank = some (t, r)) (hl : t.mbx.latch = []) :
    s.startSteps cold inp = (((t.runs r cold).readIdentity inp).tested cold).becomeReady := by
  have hlatch : ((t.runs r cold).readIdentity inp).mbx.latch = [] := by
    rw [State.readIdentity_keeps _ inp .mbx (by decide)]
    exact hl
  unfold State.startSteps
  rw [State.startAt_clean _ 7 _ _ hf hs]
  simp only [hb]
  rw [State.startAt_clean _ 8 _ _ hf hs, State.tests_clean hf hs]
  exact congrArg (fun u => (State.tested u cold).becomeReady) (State.drainUndefined_empty hlatch)

/-! ### READY -/

/-- READY, with the fuses blown and FAULT_N released. -/
def State.readied (s : State) : State :=
  let aon := match s.dev.running with
    | some r => s.aon.blow r
    | none => s.aon
  { s with
    aon := { aon with faultN := true, activating := false }
    dev := { s.dev with mode := .ready, failCause := none, starting := none } }

theorem State.readied_aon {s : State} {r : Running} (h : s.dev.running = some r) :
    s.readied.aon = { s.aon.blow r with faultN := true, activating := false } := by
  unfold State.readied
  rw [h]

/-- A device without shards and without a commit record has nothing to classify. -/
theorem State.settleStart_empty {s : State} (hd : s.trn.shards = []) (hc : s.trn.commit = none) : s.settleStart = s := by
  have hheld : s.held = [] := by
    unfold State.held
    rw [hd]
    rfl
  unfold State.settleStart State.settleClasses State.settleClasses.again
  simp only [hc, hheld, List.foldl_nil, ite_self]

/-- Where nothing is kept, READY leaves discovery alone to do. -/
theorem State.becomeReady_discovers {s : State} (h : s.AtRest) (hl : s.mbx.latch = []) (hd : s.trn.shards = [])
    (hc : s.trn.commit = none) : Discovers s.readied s.becomeReady := by
  have hrest : s.readied.AtRest := ⟨h.idle, h.settled, h.forming⟩
  have heq : s.becomeReady = s.readied.discover := by
    show s.readied.settleStart.drainUndefined.discover = _
    rw [State.settleStart_empty (s := s.readied) hd hc, State.drainUndefined_empty (s := s.readied) hl]
  rw [heq]
  exact State.discover_discovers hrest

/-- Flow contexts start afresh with the fabric, so that no work is left where no step is. -/
theorem State.identified_atRest {s : State} (ha : s.stp.active = none) (hr : s.stp.resume = none) (inp : StartInputs) :
    (s.identified inp).AtRest := by
  refine ⟨⟨fun c hc => .inr ?_, ha⟩, hr, fun _ hnone => nomatch hnone⟩
  obtain ⟨_, -, rfl⟩ := List.mem_map.1 hc
  exact ⟨rfl, rfl⟩

/-- The always-on domain after a start, with the fuses of the running image blown. -/
def Aon.started (a : Aon) (r : Running) : Aon :=
  { ({ a with primary := .awake, mate := .awake } : Aon).blow r with faultN := true, activating := false }

/-- DEV_STATE, DEV_TOPO and the identity copies after a start. -/
def Dev.started (d : Dev) (r : Running) (inp : StartInputs) : Dev :=
  let record := inp.carrier.bind carrierRecord
  { d with
    mode := .ready, failCause := none, serving := true, starting := none, topo := BitVec.ofNat 32 (topoOf record)
    carrier := record.getD [], carrierValid := record.isSome
    psUnderrated := (inp.power.bind powerRecord) == some false, running := some r }

/-- The parts that the steps of a start without a failure can change. -/
def startParts : List Part := [.out, .aon, .att, .dev, .mem, .fab, .hst, .obs]

/-- A start that finds an image, and in which nothing fails, ends READY where nothing is kept. -/
theorem State.startSteps_ready {s t : State} {cold : Bool} {inp : StartInputs} {r : Running}
    (hf : inp.failed = []) (hs : inp.stall = none) (hb : (s.atStep 7 cold).bootBank = some (t, r))
    (hl : t.mbx.latch = []) (hstp : t.stp = Stp.reset) (htrn : t.trn = Trn.reset) :
    (s.startSteps cold inp).aon = t.aon.started r
      ∧ (s.startSteps cold inp).dev = t.dev.started r inp
      ∧ Keeps startParts t (s.startSteps cold inp) := by
  rw [State.startSteps_clean hf hs hb hl]
  have hread := (t.runs r cold).readIdentity_keeps inp
  generalize (t.runs r cold).readIdentity inp = u at hread ⊢
  have haon : u.aon = _ := hread .aon (by decide)
  have hdev : u.dev = _ := hread .dev (by decide)
  have hfab : u.fab = _ := hread .fab (by decide)
  have hmbx : u.mbx = t.mbx := hread .mbx (by decide)
  have htrn' : u.trn = t.trn := hread .trn (by decide)
  have hstp' : u.stp = t.stp := hread .stp (by decide)
  have hrest : (u.tested cold).AtRest :=
    (State.identified_atRest (s := t.runs r cold) (congrArg Stp.active hstp) (congrArg Stp.resume hstp) inp).congr hfab
      hstp'
  have hready : Discovers (u.tested cold).readied (u.tested cold).becomeReady :=
    State.becomeReady_discovers hrest ((congrArg Mbx.latch hmbx).trans hl) (congrArg Trn.shards (htrn'.trans htrn))
      (congrArg Trn.commit (htrn'.trans htrn))
  have hrunning : (u.tested cold).dev.running = some r := congrArg Dev.running hdev
  refine ⟨?_, ?_, ?_⟩
  · rw [hready.keeps .aon (by decide), State.readied_aon hrunning]
    show { u.aon.blow r with faultN := true, activating := false } = _
    rw [haon]
    rfl
  · rw [hready.keeps .dev (by decide)]
    show { u.dev with mode := .ready, failCause := none, starting := none } = _
    rw [hdev]
    rfl
  · have hbefore : Keeps startParts t ((t.runs r cold).identified inp) := .of_patch rfl
    have hafter : Keeps startParts u (u.tested cold).readied := .of_patch rfl
    exact ((hbefore.trans (hread.mono (by decide))).trans hafter).trans (hready.keeps.mono (by decide))

/-! ### The cold start -/

/-- The images that verify, and the bank to run, stay over the loss of power. -/
theorem State.coldBegun_bankVerifies (s : State) (n : Nat) : s.coldBegun.aon.bankVerifies n = s.aon.bankVerifies n := by
  rw [s.coldBegun_aon]
  exact congrArg Option.isNone (Aon.verifyImage_congr rfl rfl rfl _)

theorem State.coldBegun_selectedBank (s : State) : s.coldBegun.aon.selectedBank = s.aon.selectedBank := by
  rw [s.coldBegun_aon]
  rfl

theorem State.coldBegun_banks (s : State) : s.coldBegun.aon.banks = s.aon.banks := by
  rw [s.coldBegun_aon]
  rfl

theorem State.coldBegun_boots (s : State) (n : Nat) (fallback : Bool) :
    s.coldBegun.aon.Boots n fallback ↔ s.aon.Boots n fallback := by
  unfold Aon.Boots
  rw [s.coldBegun_bankVerifies, s.coldBegun_selectedBank]

/-- The parts that a cold start can leave with other than their reset values. -/
def coldParts : List Part := [.pending, .out, .fresh, .aon, .att, .dev, .mem, .fab, .hst, .obs]

/-- A clean cold start runs an image that verifies, and leaves no unit with anything from before. -/
theorem State.coldStart_clean {s : State} {inp : StartInputs} (h : StartsClean s inp) :
    ∃ n fallback, s.aon.Boots n fallback
      ∧ (s.coldStart inp).aon = s.coldBegun.aon.started (runningOf n (s.aon.banks.getD n []))
      ∧ (s.coldStart inp).dev
        = ({ Dev.reset with fallback := fallback } : Dev).started (runningOf n (s.aon.banks.getD n [])) inp
      ∧ Keeps coldParts State.reset (s.coldStart inp) := by
  obtain ⟨himage, hf, hs⟩ := h
  have hbanks : s.coldBegun.aon.bankVerifies s.coldBegun.aon.selectedBank = true
      ∨ s.coldBegun.aon.bankVerifies (1 - s.coldBegun.aon.selectedBank) = true := by
    rw [s.coldBegun_bankVerifies, s.coldBegun_bankVerifies, s.coldBegun_selectedBank]
    exact himage
  obtain ⟨t, n, fallback, hboot, hboots, hdev, ht⟩ :=
    State.bootBank_boots (s := s.coldBegun.atStep 7 true) rfl hbanks
  have hreset : Keeps coldParts State.reset t :=
    (s.coldBegun_keeps.mono (by decide)).trans
      (Keeps.trans (t := s.coldBegun.atStep 7 true) (.of_patch rfl) (ht.mono (by decide)))
  have hlatch : t.mbx.latch = [] := by rw [hreset .mbx (by decide)]; rfl
  obtain ⟨haon, hdev', hkeeps⟩ := State.startSteps_ready hf hs hboot hlatch (hreset .stp (by decide))
    (hreset .trn (by decide))
  have hbank : (s.coldBegun.atStep 7 true).aon.banks = s.aon.banks := s.coldBegun_banks
  rw [hbank] at haon hdev'
  rw [s.coldStart_eq hs]
  refine ⟨n, fallback, (s.coldBegun_boots n fallback).1 hboots, ?_, ?_, hreset.trans (hkeeps.mono (by decide))⟩
  · rw [haon, ht .aon (by decide)]
    rfl
  · rw [hdev', hdev]
    rfl

/-- Settles O7: no unit holds anything over the loss of power but the fuses and banks, by which the boot ROM chooses the
image; steps 8 to 12 and the discovery after them change neither the lists that are empty nor DEV_TICK. -/
theorem coldStartReady : Obligations.ColdStartReady := by
  intro s inp hp hc hr h
  obtain ⟨n, fallback, ⟨hverifies, hfallback⟩, haon, hdev, hkeeps⟩ := State.coldStart_clean h
  rw [s.coldBegun_aon] at haon
  refine ⟨s.coldStart inp, execResetNRise_cold hp hc hr, ?_⟩
  generalize s.coldStart inp = t at haon hdev hkeeps ⊢
  have hmbx : t.mbx = Mbx.reset := hkeeps .mbx (by decide)
  have hrgn : t.rgn = Rgn.reset := hkeeps .rgn (by decide)
  have hpln : t.pln = Pln.reset := hkeeps .pln (by decide)
  have htrn : t.trn = Trn.reset := hkeeps .trn (by decide)
  have hstp : t.stp = Stp.reset := hkeeps .stp (by decide)
  have hcor : t.cor = Cor.reset := hkeeps .cor (by decide)
  have hdma : t.dma = Dma.reset := hkeeps .dma (by decide)
  unfold State.serves State.powered
  rw [hmbx, hrgn, hpln, htrn, hstp, hcor, hdma, haon, hdev]
  exact ⟨rfl, rfl, rfl, rfl, rfl, rfl, rfl, rfl, rfl, rfl, rfl, rfl, rfl, rfl, _, rfl, hverifies, rfl, hfallback⟩

end Sys2Proof.Machine
end

section
/-! SUPPORT. What the issue of an instance leaves: the instance at work, and a task context at each of its places (R92, R105,
R326). -/

namespace Sys2Proof.Machine

/-! ### The instance -/

theorem State.stepPlan_active {s : State} {st : Step} {p : Plan} (h : s.stepPlan = some (st, p)) :
    s.stp.active = some st := by
  simp only [State.stepPlan, Option.bind_eq_some_iff, Option.map_eq_some_iff] at h
  obtain ⟨_, hact, _, _, rfl, _⟩ := h
  exact hact

/-- The phases of a step are not part of how far its instances are. -/
theorem State.phaseStart_inst (s : State) (i op mb : Nat) : (s.phaseStart i).inst op mb = s.inst op mb := by
  unfold State.phaseStart
  split
  · rfl
  · rename_i st hact
    split
    · rfl
    · simp [State.inst, State.onStep, hact, Step.inst]

theorem State.issue_inst {s : State} {st : Step} {op mb : Nat} (hact : s.stp.active = some st)
    (hnew : (st.inst op mb).isNone = true) (p : Plan) : (s.issue p st op mb).inst op mb = some .issued := by
  have hadd : (s.onStep fun st => { st with insts := st.insts ++ [⟨op, mb, .issued⟩] }).inst op mb = some .issued := by
    simp only [Option.isNone_iff_eq_none, Step.inst] at hnew
    simp [State.inst, State.onStep, hact, Step.inst, List.find?_append, hnew]
  unfold State.issue
  dsimp only
  split
  · exact (State.phaseStart_inst _ _ _ _).trans hadd
  · exact hadd

theorem find_map_of_find {α : Type} {q : α → Bool} {f : α → α} (hf : ∀ x, q (f x) = q x) {l : List α} {x : α}
    (h : l.find? q = some x) : (l.map f).find? q = some (f x) := by
  rw [List.find?_map]
  have : q ∘ f = q := funext hf
  rw [this, h]
  rfl

theorem State.setInst_inst {s : State} {st : Step} {op mb : Nat} {i : Inst} (hact : s.stp.active = some st)
    (hi : st.inst op mb = some i) (x : InstState) : (s.setInst op mb x).inst op mb = some x := by
  have hkey := List.find?_some hi
  have hfind := find_map_of_find (f := fun i : Inst => if i.op == op && i.mb == mb then { i with st := x } else i)
    (fun i => by split <;> rfl) hi
  simp only [State.inst, State.setInst, State.onStep, hact, Option.map_some, Option.bind_some, Step.inst, hfind]
  simp only [if_pos hkey]

theorem State.issue_keeps (s : State) (p : Plan) (st : Step) (op mb : Nat) : Keeps [.stp, .obs] s (s.issue p st op mb) := by
  unfold State.issue
  dsimp only
  refine Keeps.trans ?_ ((State.trace_keeps _ _ _ _ _ _ _).mono (by decide))
  split
  · exact ((s.onStep_keeps _).mono (by decide)).trans (State.phaseStart_keeps _ _)
  · exact (s.onStep_keeps _).mono (by decide)

/-- Work on an instance begins with the instance issued, and changes the step and what traces it. -/
theorem State.enter_some {s u : State} {st : Step} {p : Plan} {code op mb : Nat}
    (h : s.enter code op mb = some (u, st, p)) : u.inst op mb = some .issued ∧ Keeps [.stp, .obs] s u := by
  unfold State.enter at h
  split at h
  · cases h
  · rename_i st' p' hsp
    have hact := State.stepPlan_active hsp
    split at h
    · cases h
    · split at h
      · rename_i hmay
        cases h
        simp only [Step.mayIssue, Bool.and_eq_true] at hmay
        obtain ⟨⟨-, hnew⟩, -⟩ := hmay
        exact ⟨State.issue_inst hact hnew p, s.issue_keeps p st op mb⟩
      · split at h
        · rename_i i hi
          split at h
          · cases h
            exact ⟨State.setInst_inst hact hi _, (s.onStep_keeps _).mono (by decide)⟩
          · cases h
        · cases h

/-! ### Its task contexts -/

/-- The tasks at a place are an instance's. -/
def Eng.openFor (e : Eng) (a : Place) (op mb : Nat) : Prop :=
  ∀ x ∈ e.tasks, x.grove = a.grove.val → x.task = a.task.val → x.op = op ∧ x.mb = mb

/-- The tile program that a task context takes up. -/
def State.newTask (s : State) (a : Place) (op mb : Nat) : Task :=
  ⟨a.grove, a.task, op, mb, false, s.freeNat.1, a.task * partBytes, partBytes⟩

/-- A place where a task runs, or whose Grove has stopped, takes up nothing; another takes up the tile program. -/
theorem State.startTask_cases (s : State) (a : Place) (op mb : Nat) :
    (s.startTask a op mb = s ∧ (s.groveStopped a.grove = true ∨ ∃ x ∈ s.eng.tasks, x.grove = a.grove.val ∧ x.task = a.task.val))
    ∨ (s.startTask a op mb).eng.tasks = s.eng.tasks ++ [s.newTask a op mb] := by
  unfold State.startTask
  split
  · rename_i h
    refine .inl ⟨rfl, ?_⟩
    simpa using h
  · exact .inr rfl

theorem State.engOnly_keeps (s : State) (e : Eng) : Keeps [.eng] s { s with eng := e } := .of_patch rfl

theorem State.startTask_keeps (s : State) (a : Place) (op mb : Nat) :
    Keeps [.fresh, .aon, .eng, .obs] s (s.startTask a op mb) := by
  have hnew : ∀ (t : State) (n : Task), Keeps [.fresh, .aon] s t →
      Keeps [.fresh, .aon, .eng, .obs] s ({ t with eng := { t.eng with tasks := t.eng.tasks ++ [n] } }.traceTask n false) :=
    fun t n ht => ((ht.mono (by decide)).trans ((t.engOnly_keeps _).mono (by decide))).trans
      ((State.trace_keeps _ _ _ _ _ _ _).mono (by decide))
  unfold State.startTask
  split
  · exact .refl _ s
  · exact hnew _ _ (.of_patch rfl)

theorem State.startTask_stopped (s : State) (a : Place) (op mb g : Nat) :
    (s.startTask a op mb).groveStopped g = s.groveStopped g := by
  unfold State.startTask
  split <;> rfl

theorem State.startTask_openFor {s : State} {b : Place} {op mb : Nat} (h : s.eng.openFor b op mb) (a : Place) :
    (s.startTask a op mb).eng.openFor b op mb := by
  obtain ⟨heq, -⟩ | htasks := s.startTask_cases a op mb
  · rwa [heq]
  · intro x hx hg ht
    rw [htasks] at hx
    obtain hx | rfl := by simpa using hx
    · exact h x hx hg ht
    · exact ⟨rfl, rfl⟩

/-- A context that runs the instance's tile program goes on to run it. -/
theorem State.startTask_taskAt_mono {s : State} {b : Place} {op mb : Nat} (h : (s.eng.taskAt b op mb).isSome = true)
    (a : Place) : ((s.startTask a op mb).eng.taskAt b op mb).isSome = true := by
  obtain ⟨heq, -⟩ | htasks := s.startTask_cases a op mb
  · rwa [heq]
  · obtain ⟨x, hx⟩ := Option.isSome_iff_exists.1 h
    rw [Eng.taskAt, htasks, List.find?_append, show s.eng.tasks.find? _ = some x from hx]
    rfl

theorem State.startTask_taskAt {s : State} {a : Place} {op mb : Nat} (hrun : s.groveStopped a.grove = false)
    (hopen : s.eng.openFor a op mb) : ((s.startTask a op mb).eng.taskAt a op mb).isSome = true := by
  rw [Eng.taskAt, List.find?_isSome]
  obtain ⟨heq, hstop | ⟨x, hx, hg, ht⟩⟩ | htasks := s.startTask_cases a op mb
  · simp [hrun] at hstop
  · obtain ⟨hop, hmb⟩ := hopen x hx hg ht
    exact ⟨x, by rwa [heq], by simp [hg, ht, hop, hmb]⟩
  · exact ⟨s.newTask a op mb, by simp [htasks], by simp [State.newTask]⟩

/-- Each place of a list takes up the instance's tile program. -/
theorem startTasks_taskAt (op mb : Nat) : ∀ (places : List Place) (s : State), (∀ a ∈ places, s.groveStopped a.grove = false) →
    (∀ a ∈ places, s.eng.openFor a op mb) →
    ∀ a ∈ places, ((places.foldl (fun s a => s.startTask a op mb) s).eng.taskAt a op mb).isSome = true := by
  intro places
  induction places with
  | nil => simp
  | cons b r ih =>
    intro s hrun hopen a ha
    obtain rfl | ha := List.mem_cons.1 ha
    · exact foldl_keeps (P := fun s : State => (s.eng.taskAt a op mb).isSome = true)
        (fun s c h => State.startTask_taskAt_mono h c) r _
        (State.startTask_taskAt (hrun a List.mem_cons_self) (hopen a List.mem_cons_self))
    · exact ih _ (fun c hc => (s.startTask_stopped b op mb c.grove).trans (hrun c (List.mem_cons_of_mem _ hc)))
        (fun c hc => State.startTask_openFor (hopen c (List.mem_cons_of_mem _ hc)) b) a ha

/-- A product's instance issues on free task contexts. -/
theorem State.issueOn_spec {s u : State} {st : Step} {p : Plan} {code op mb : Nat} {places : List Place}
    (h : s.enter code op mb = some (u, st, p)) (hrun : ∀ a ∈ places, s.groveStopped a.grove = false)
    (hfree : ∀ a ∈ places, ∀ x ∈ s.eng.tasks, ¬ (x.grove = a.grove.val ∧ x.task = a.task.val)) :
    (s.issueOn code op mb places).inst op mb = some .issued
      ∧ (∀ a ∈ places, ((s.issueOn code op mb places).eng.taskAt a op mb).isSome = true)
      ∧ Keeps [.fresh, .aon, .stp, .eng, .obs] s (s.issueOn code op mb places) := by
  have heq : s.issueOn code op mb places = places.foldl (fun s a => s.startTask a op mb) u := by
    unfold State.issueOn
    rw [h]
  obtain ⟨hinst, hu⟩ := State.enter_some h
  have haon : u.aon = s.aon := hu .aon (by decide)
  have heng : u.eng = s.eng := hu .eng (by decide)
  have htasks := Keeps.foldl (f := fun s a => s.startTask a op mb) (fun s a => s.startTask_keeps a op mb) places u
  have hstp : (places.foldl (fun s a => s.startTask a op mb) u).stp = u.stp := htasks .stp (by decide)
  rw [heq]
  refine ⟨?_, startTasks_taskAt op mb places u (fun a ha => ?_) (fun a ha x hx hg ht => ?_), ?_⟩
  · simpa only [State.inst, hstp] using hinst
  · simpa only [State.groveStopped, State.blockStopped, haon] using hrun a ha
  · exact absurd ⟨hg, ht⟩ (hfree a ha x (heng ▸ hx))
  · exact (hu.mono (by decide)).trans (htasks.mono (by decide))

end Sys2Proof.Machine
end

section
/-! SUPPORT. Runs of a block's segments: a run put in place of another, a pass, and what a combination makes of the finished
ones (R87, R102, R105, R114, R118 to R122). -/

namespace Sys2Proof.Machine

/-! ### A run in its place -/

theorem Plan.prod_key {p : Plan} {op mb : Nat} {q : Prod} (h : p.prod op mb = some q) : q.op = op ∧ q.mb = mb := by
  unfold Plan.prod at h
  split at h
  · dsimp only at h
    split at h
    · cases h
      exact ⟨rfl, rfl⟩
    · split at h
      · cases h
        exact ⟨rfl, rfl⟩
      · split at h
        · cases h
          exact ⟨rfl, rfl⟩
        · cases h
  · cases h

/-- A run is one of a segment of a block of an instance. -/
def Run.of (x : Run) (op mb block seg : Nat) : Prop := x.op = op ∧ x.mb = mb ∧ x.block = block ∧ x.seg = seg

theorem Eng.run_of {e : Eng} {op mb block seg : Nat} {x : Run} (h : e.run op mb block seg = some x) :
    x.of op mb block seg := by
  simpa [Run.of, and_assoc] using List.find?_some h

theorem Eng.run_putRun_same {e : Eng} {op mb block seg : Nat} {x : Run} (h : x.of op mb block seg) :
    (e.putRun x).run op mb block seg = some x := by
  obtain ⟨rfl, rfl, rfl, rfl⟩ := h
  simp only [Eng.run, Eng.putRun, List.find?_append, List.find?_filter]
  rw [List.find?_eq_none.2 fun r _ => by simp; tauto]
  simp

theorem Eng.run_putRun_ne {e : Eng} {op mb block seg : Nat} {x : Run} (h : x.seg ≠ seg) :
    (e.putRun x).run op mb block seg = e.run op mb block seg := by
  have hkey : (fun r : Run => decide ((!(r.op == x.op && r.mb == x.mb && r.block == x.block && r.seg == x.seg)) = true
      ∧ (r.op == op && r.mb == mb && r.block == block && r.seg == seg) = true))
      = fun r => r.op == op && r.mb == mb && r.block == block && r.seg == seg := by
    funext r
    rw [Bool.eq_iff_iff]
    by_cases hr : r.seg = seg
    · simp [hr, Ne.symm h]
    · simp [hr]
  simp only [Eng.run, Eng.putRun, List.find?_append, List.find?_filter, hkey]
  simp [h]

/-! ### Runs that begin again -/

/-- A run from its first chunk at a level; beyond level 2 it has failed (R121, R124). -/
def Run.restarted (x : Run) (level : Nat) : Run :=
  { x with level := level, chunk := 0, sums := [], finished := decide (2 < level), failed := decide (2 < level) }

theorem State.traceLevel_keeps (s : State) (west : Bool) (kind num op block level : Nat) :
    Keeps [.obs] s (s.traceLevel west kind num op block level) := by
  unfold State.traceLevel
  dsimp only
  split
  · exact s.trace_keeps _ _ _ _ _ _
  · exact .of_patch rfl

theorem State.rerun_eng (s : State) (x : Run) (level : Nat) : (s.rerun x level).eng = s.eng.putRun (x.restarted level) :=
  State.traceLevel_keeps _ _ _ _ _ _ _ .eng (by decide)

theorem State.rerun_keeps (s : State) (x : Run) (level : Nat) : Keeps [.eng, .obs] s (s.rerun x level) :=
  ((s.engOnly_keeps (s.eng.putRun (x.restarted level))).mono (by decide)).trans
    ((State.traceLevel_keeps _ _ _ _ _ _ _).mono (by decide))

/-- Other segments' runs that begin again leave a segment's run. -/
theorem reruns_run_ne {op mb block seg level : Nat} : ∀ (rs : List Run) (s : State), (∀ r ∈ rs, r.seg ≠ seg) →
    (rs.foldl (fun s r => s.rerun r level) s).eng.run op mb block seg = s.eng.run op mb block seg := by
  intro rs
  induction rs with
  | nil => exact fun _ _ => rfl
  | cons r rs ih =>
    intro s h
    rw [List.foldl_cons, ih _ fun x hx => h x (List.mem_cons_of_mem _ hx), State.rerun_eng]
    exact Eng.run_putRun_ne (h r List.mem_cons_self)

/-- Runs of different segments of a block all begin again. -/
theorem reruns_run {op mb block level : Nat} : ∀ (rs : List Run) (s : State), (∀ r ∈ rs, r.of op mb block r.seg) →
    (rs.map (·.seg)).Nodup →
    ∀ r ∈ rs, (rs.foldl (fun s r => s.rerun r level) s).eng.run op mb block r.seg = some (r.restarted level) := by
  intro rs
  induction rs with
  | nil => simp
  | cons x rs ih =>
    intro s hof hnodup r hr
    obtain ⟨hx, hnodup⟩ := List.nodup_cons.1 hnodup
    rw [List.foldl_cons]
    obtain rfl | hr := List.mem_cons.1 hr
    · rw [reruns_run_ne rs _ fun y hy heq => hx (List.mem_map.2 ⟨y, hy, heq⟩), State.rerun_eng]
      exact Eng.run_putRun_same (hof r List.mem_cons_self)
    · exact ih _ (fun y hy => hof y (List.mem_cons_of_mem _ hy)) hnodup r hr

/-! ### Taint -/

theorem State.readKey_congr {s t : State} (hmem : t.mem = s.mem) (hrgn : t.rgn = s.rgn) (hcoh : t.coh = s.coh) (k n : Nat) :
    t.readKey k n = s.readKey k n := by
  simp only [State.readKey, State.cleanRange, hmem, hrgn, hcoh]

theorem State.elemAt_congr {s t : State} (hmem : t.mem = s.mem) (hrgn : t.rgn = s.rgn) (hcoh : t.coh = s.coh) :
    t.elemAt = s.elemAt := by
  have hbyte : t.byteOf = s.byteOf := by
    funext va
    simp only [State.byteOf, hrgn, State.readKey_congr hmem hrgn hcoh]
  funext d e
  simp only [State.elemAt, hbyte]

/-- The taint of a block's element depends on the scratchpads, the runs and memory. -/
theorem State.runTaint_congr {s t : State} (h : Keeps [.eng, .obs] s t) (hscratch : t.eng.scratch = s.eng.scratch)
    (hruns : t.eng.runs = s.eng.runs) (q : Prod) (k : Blk) (a : Place) (rs : List Run) :
    t.runTaint q k a rs = s.runTaint q k a rs := by
  have helem : t.elemAt = s.elemAt :=
    State.elemAt_congr (h .mem (by decide)) (h .rgn (by decide)) (h .coh (by decide))
  have hoperand : t.operand = s.operand := by
    funext a op mb stripe d e
    simp only [State.operand, Eng.tile, hscratch, helem]
  funext r c
  simp only [State.runTaint, hruns, hoperand]

/-! ### Passes -/

theorem State.obsOnly_keeps (s : State) (o : Obs) : Keeps [.obs] s { s with obs := o } := .of_patch rfl

theorem State.count_keeps (s : State) (ev unit n : Nat) : Keeps [.obs] s (s.count ev unit n) := s.obsOnly_keeps _

theorem State.debugPass_keeps (s : State) (west : Bool) (kind num op block chunk cn : Nat) (cs ps : List Nat) :
    Keeps [.obs] s (s.debugPass west kind num op block chunk cn cs ps) := by
  unfold State.debugPass
  exact Keeps.foldl (fun s _ => s.obsOnly_keeps _) _ s

/-- A pass is counted and traced, and its task is the one that issued last. -/
def State.passed (s : State) (q : Prod) (k : Blk) (x : Run) (i : PassIn) : State :=
  let r := passSums q k x.level i
  let g := x.place.grove.val
  let s := ((s.count 0x000 g).count 0x001 g 128).debugPass (westPlace x.place) uGrove g x.op x.block x.chunk k.cn r.1 r.2.1
  { s with eng := { s.eng with lastTask := s.eng.lastTask.set g x.place.task } }

/-- The state once a pass is counted, with the engines of `s` but for the task that issued last. -/
theorem State.passed_spec (s : State) (q : Prod) (k : Blk) (x : Run) (i : PassIn) :
    Keeps [.eng, .obs] s (s.passed q k x i) ∧ (s.passed q k x i).eng.scratch = s.eng.scratch
      ∧ (s.passed q k x i).eng.runs = s.eng.runs := by
  have h : ∀ t : State, Keeps [.obs] s t → ∀ l, Keeps [.eng, .obs] s { t with eng := { t.eng with lastTask := l } }
      ∧ t.eng.scratch = s.eng.scratch ∧ t.eng.runs = s.eng.runs := by
    intro t ht l
    have heng : t.eng = s.eng := ht .eng (by decide)
    exact ⟨(ht.mono (by decide)).trans ((t.engOnly_keeps _).mono (by decide)), by rw [heng], by rw [heng]⟩
  exact h _ (((s.count_keeps _ _ _).trans (State.count_keeps _ _ _ _)).trans (State.debugPass_keeps _ _ _ _ _ _ _ _ _ _)) _

/-- What a pass leaves: the segment at the next retry level where a sum overflows, or its run with the chunk added. -/
theorem State.passDone_eq (s : State) (q : Prod) (k : Blk) (x : Run) (i : PassIn) :
    s.passDone q k x i
      = if (if q.int then (passSums q k x.level i).2.2
          else k.overflowed (s.runTaint q k x.place [x.reads i]) (passSums q k x.level i).2.1) then
        ((s.passed q k x i).count 0x005 x.place.grove).rerun (x.reads i) (x.level + 1)
      else
        { s.passed q k x i with eng := (s.passed q k x i).eng.putRun { x.reads i with
          sums := (passSums q k x.level i).2.1, finished := decide ((q.segment x.seg).2 ≤ (x.reads i).chunk) } } := by
  obtain ⟨hkeeps, hscratch, hruns⟩ := s.passed_spec q k x i
  rw [← State.runTaint_congr hkeeps hscratch hruns]
  rfl

/-- The run that a pass of a block's segment goes on with is the segment's, at the place. -/
theorem Eng.nextRun_some {e : Eng} {q : Prod} {a : Place} {block seg : Nat} {k : Blk} {x : Run}
    (h : e.nextRun q a block seg = some (k, x)) : x.of q.op q.mb block seg ∧ x.place = a := by
  unfold Eng.nextRun at h
  split at h
  · cases h
  · dsimp only at h
    split at h
    · cases h
    · rename_i hgo
      cases h
      refine ⟨?_, not_not.1 fun hne => hgo (by simp [hne])⟩
      cases hrun : e.run q.op q.mb block seg with
      | none => exact ⟨rfl, rfl, rfl, rfl⟩
      | some y => exact Eng.run_of hrun

theorem State.nextPass_some {s : State} {q : Prod} {a : Place} {block seg : Nat} {k : Blk} {x : Run} {i : PassIn}
    (h : s.nextPass q a block seg = some (k, x, i)) : x.of q.op q.mb block seg ∧ x.place = a := by
  simp only [State.nextPass, Option.bind_eq_some_iff, Option.map_eq_some_iff] at h
  obtain ⟨⟨k', x'⟩, hnext, _, _, heq⟩ := h
  cases heq
  exact Eng.nextRun_some hnext

/-- The pass of a task that has its turn, with its operands resident and room for its sums. -/
theorem execPass_ready {s : State} {st : Step} {p : Plan} {op mb block seg : Nat} {pl : Place} {k : Task} {q : Prod} {b : Blk}
    {x : Run} {i : PassIn} {e : Eng} (hwork : s.atWork op mb = some (st, p)) (htask : s.eng.taskAt pl op mb = some k)
    (hwait : k.waiting = false) (hrun : s.groveStopped pl.grove = false) (hprod : p.prod op mb = some q)
    (hturn : s.hasTurn pl = true) (hnext : s.nextPass q pl block seg = some (b, x, i))
    (hroom : s.eng.makeRoom pl (if (s.eng.run op mb block seg).isSome then 0 else 65536) = some e) :
    exec (.pass op mb block seg pl) s = .next ({ s with eng := e }.passDone q b x i) := by
  show execPass op mb block seg pl s = _
  simp [execPass, hwork, htask, hwait, hrun, hprod, hturn, hnext, hroom]

/-- A pass adds the next chunk to its segment's run, or, on an overflow, sends the segment to the next level. -/
theorem State.passDone_spec {s : State} {q : Prod} {b : Blk} {block seg : Nat} {x : Run} {i : PassIn} {over_ : Bool}
    (hx : x.of q.op q.mb block seg)
    (hover : over_ = (if q.int then (passSums q b x.level i).2.2
      else b.overflowed (s.runTaint q b x.place [x.reads i]) (passSums q b x.level i).2.1)) :
    Keeps [.eng, .obs] s (s.passDone q b x i)
      ∧ (over_ = false → (s.passDone q b x i).eng.run q.op q.mb block seg = some { x.reads i with
          sums := (passSums q b x.level i).2.1, finished := decide ((q.segment seg).2 ≤ x.chunk + 1) })
      ∧ (over_ = true → (s.passDone q b x i).eng.run q.op q.mb block seg = some ((x.reads i).restarted (x.level + 1))) := by
  obtain ⟨hkeeps, -⟩ := s.passed_spec q b x i
  have hseg : x.seg = seg := hx.2.2.2
  rw [State.passDone_eq, ← hover]
  cases over_ with
  | true =>
    simp only [if_true, State.rerun_eng]
    refine ⟨?_, fun h => by simp at h, fun _ => Eng.run_putRun_same hx⟩
    exact (hkeeps.trans ((State.count_keeps _ _ _ _).mono (by decide))).trans (State.rerun_keeps _ _ _)
  | false =>
    simp only [Bool.false_eq_true, if_false, hseg]
    exact ⟨hkeeps.trans ((State.engOnly_keeps _ _).mono (by decide)), fun _ => Eng.run_putRun_same hx, fun h => by simp at h⟩

/-! ### Combinations -/

/-- What a list of lookups finds, in order, where a thing found names what it was looked up by. -/
theorem mapM_some {α β : Type} {f : α → Option β} {g : β → α} (hg : ∀ a b, f a = some b → g b = a) :
    ∀ {l : List α} {r : List β}, l.mapM f = some r → r.map g = l ∧ ∀ b ∈ r, f (g b) = some b := by
  intro l
  induction l with
  | nil =>
    intro r h
    cases h
    simp
  | cons a l ih =>
    intro r h
    simp only [List.mapM_cons, Option.bind_eq_bind, Option.bind_eq_some_iff] at h
    obtain ⟨b, hb, r', hr', heq⟩ := h
    cases heq
    obtain ⟨hmap, hall⟩ := ih hr'
    refine ⟨by rw [List.map_cons, hg a b hb, hmap], fun c hc => ?_⟩
    obtain rfl | hc := List.mem_cons.1 hc
    · rwa [hg a c hb]
    · exact hall c hc

/-- The finished runs of a block are those of different segments. -/
theorem Eng.finishedRuns_some {e : Eng} {q : Prod} {block : Nat} {rs : List Run} (h : e.finishedRuns q block = some rs) :
    (∀ r ∈ rs, r.of q.op q.mb block r.seg) ∧ (rs.map (·.seg)).Nodup := by
  have hof : ∀ i r, (e.run q.op q.mb block i).filter (·.finished) = some r → r.of q.op q.mb block i := fun i r hr =>
    Eng.run_of (Option.filter_eq_some_iff.1 hr).1
  obtain ⟨hmap, hall⟩ := mapM_some (g := Run.seg) (fun i r hr => (hof i r hr).2.2.2) h
  exact ⟨fun r hr => hof _ r (hall r hr), hmap ▸ List.nodup_range.filter _⟩

theorem foldl_max_level {top : Nat} : ∀ {rs : List Run}, (∀ r ∈ rs, r.level = top) →
    rs.foldl (fun m r => max m r.level) top = top := by
  intro rs
  induction rs with
  | nil => exact fun _ => rfl
  | cons r rs ih =>
    intro h
    rw [List.foldl_cons, h r List.mem_cons_self, Nat.max_self]
    exact ih fun x hx => h x (List.mem_cons_of_mem _ hx)

/-- The combination of finished runs that have one level. -/
theorem execSegmentCombine_level {s : State} {st : Step} {p : Plan} {op mb block top : Nat} {q : Prod} {b : Blk} {x : Run}
    {rs : List Run} {segs : List (List Nat)} {over_ : Bool} (hwork : s.atWork op mb = some (st, p))
    (hprod : p.prod op mb = some q) (hblk : q.blocks[block]? = some b) (hruns : s.eng.finishedRuns q block = some (x :: rs))
    (hsplit : 1 < q.segs) (hrun : s.groveStopped x.place.grove = false)
    (hlevel : ∀ r ∈ x :: rs, r.failed = false ∧ r.level = top)
    (hsegs : segs = (List.range q.segs).map (fun j => (((x :: rs).find? (·.seg == j)).map (·.sums)).getD
      (List.replicate (b.rn * b.cn) 0)))
    (hover : over_ = (if q.int then (combineSums q.int segs (b.rn * b.cn)).2
      else b.overflowed (flagged (x :: rs) b.cn) (combineSums q.int segs (b.rn * b.cn)).1)) :
    exec (.segmentCombine op mb block) s = .next (if over_ then
        if top = 2 then (s.traceLevel (westPlace x.place) uGrove x.place.grove op block 3).putBlock q block x.place 3 [] true
        else (x :: rs).foldl (fun s r => s.rerun r (top + 1)) s
      else s.putBlock q block x.place top (combineSums q.int segs (b.rn * b.cn)).1 false) := by
  have htop : (x :: rs).foldl (fun m r => max m r.level) 0 = top := by
    rw [List.foldl_cons, Nat.zero_max, (hlevel x List.mem_cons_self).2]
    exact foldl_max_level fun r hr => (hlevel r (List.mem_cons_of_mem _ hr)).2
  have hfailed : (x :: rs).any (·.failed) = false := List.any_eq_false.2 fun r hr => by simp [(hlevel r hr).1]
  have hbelow : (x :: rs).any (·.level < top) = false := List.any_eq_false.2 fun r hr => by simp [(hlevel r hr).2]
  show execSegmentCombine op mb block s = _
  unfold execSegmentCombine
  simp only [hwork, Option.bind_some, hprod, hblk, hruns]
  rw [if_neg (by simp [hrun]; omega), htop, hfailed, if_neg Bool.false_ne_true, hbelow, if_neg Bool.false_ne_true,
    ← hsegs, ← hover]

end Sys2Proof.Machine
end

section
/-! SUPPORT. The output stage: the block that it takes, the parts that it changes, and the tile record that it forms (R90, R123,
R129, R130). -/

namespace Sys2Proof.Machine

/-! ### Memory that no part of it has changed reads the same -/

theorem Keeps.sameBytes {l : List Part} {s t : State} (h : Keeps l s t) (hl : .mem ∉ l ∧ .rgn ∉ l ∧ .coh ∉ l)
    (but : Nat → Prop) : SameBytes but s t := by
  intro a _
  have hmem : t.mem = s.mem := h .mem hl.1
  have hrgn : t.rgn = s.rgn := h .rgn hl.2.1
  have hcoh : t.coh = s.coh := h .coh hl.2.2
  simp only [State.byte, State.cleanRange, hmem, hrgn, hcoh]

/-! ### The block taken -/

/-- A finished block is one of an instance's blocks. -/
def Block.of (y : Block) (q : Prod) (block : Nat) : Bool := y.op == q.op && y.mb == q.mb && y.block == block

theorem State.putBlock_keeps (s : State) (q : Prod) (block : Nat) (a : Place) (level : Nat) (sums : List Nat)
    (failed : Bool) : Keeps [.eng] s (s.putBlock q block a level sums failed) := s.engOnly_keeps _

/-- The block that the output stage takes has not drained, and no other of its instance has its number before it. -/
theorem State.drainable_some {s s1 : State} {q : Prod} {block : Nat} {y : Block} (h : s.drainable q block = some (s1, y)) :
    Keeps [.eng] s s1 ∧ s1.eng.blocks.find? (·.of q block) = some y ∧ y.drained = false := by
  unfold State.drainable at h
  split at h
  · rename_i b hb
    split at h
    · cases h
    · rename_i hd
      cases h
      exact ⟨.refl _ s, hb, by simpa using hd⟩
  · rename_i hnone
    split at h
    · split at h
      · rename_i x _
        split at h
        · simp only [State.putBlock, List.getLast?_append, List.getLast?_singleton, Option.some_or, Option.map_some,
            Option.some.injEq] at h
          obtain ⟨rfl, rfl⟩ := h
          refine ⟨.of_patch rfl, ?_, rfl⟩
          rw [List.find?_append, show s.eng.blocks.find? (·.of q block) = none from hnone]
          simp [Block.of]
        · cases h
      · cases h
    · cases h

/-! ### The parts that the drain changes -/

theorem State.watchAdd_keeps (s : State) (d c n : Nat) : Keeps [.stp] s (s.watchAdd d c n) := s.onStep_keeps _

theorem State.nonfiniteAdd_keeps (s : State) (d n : Nat) : Keeps [.stp] s (s.nonfiniteAdd d n) := by
  unfold State.nonfiniteAdd
  split
  · exact .refl _ s
  · exact s.onStep_keeps _

theorem State.putResult_keeps (s : State) (p : Plan) (a : Place) (op mb slot : Nat) (t : TD) (c : List Nat)
    (f : Nat → Nat → Val) : Keeps [.stp, .eng] s (s.putResult p a op mb slot t c f) :=
  (((s.watchAdd_keeps _ _ _).trans (State.nonfiniteAdd_keeps _ _ _)).mono (by decide)).trans
    ((State.engOnly_keeps _ _).mono (by decide))

theorem State.putTile_keeps (s : State) (p : Plan) (q : Prod) (k : Blk) (a : Place) :
    Keeps [.stp, .eng] s (s.putTile p q k a) := by
  unfold State.putTile
  split
  · exact .refl _ s
  · dsimp only
    refine Keeps.trans ?_ ((State.engOnly_keeps _ _).mono (by decide))
    split
    · exact (s.putResult_keeps _ _ _ _ _ _ _ _).trans (State.putResult_keeps _ _ _ _ _ _ _ _ _)
    · exact s.putResult_keeps _ _ _ _ _ _ _ _

/-- What the output stage makes of a finished block (R129). -/
def Prod.drained (q : Prod) (cols : Option Loaded) (k : Blk) (y : Block) : Block :=
  { y with drained := true, out0 := (q.drain cols k y.level y.failed y.sums).1, out1 := (q.drain cols k y.level y.failed y.sums).2 }

/-- A block is counted, and it has its values. -/
def State.drainedOnly (s : State) (q : Prod) (k : Blk) (y : Block) (cols : Option Loaded) : State :=
  let lvl := if y.failed then 0 else y.level
  let s := if lvl = 0 then s else s.count (0x002 + lvl) y.place.grove
  let s := s.addCounts 0x05 q.op [b2n (lvl == 1), b2n (lvl == 2)]
  { s with eng := { s.eng with blocks := s.eng.blocks.map fun u => if u == y then q.drained cols k y else u } }

theorem State.drainBlock_eq (s : State) (p : Plan) (q : Prod) (k : Blk) (y : Block) (cols : Option Loaded) :
    s.drainBlock p q k y cols = (s.drainedOnly q k y cols).putTile p q k y.place := rfl

theorem State.drainedOnly_spec (s : State) (q : Prod) (k : Blk) (y : Block) (cols : Option Loaded) :
    Keeps [.stp, .eng, .obs] s (s.drainedOnly q k y cols)
      ∧ (s.drainedOnly q k y cols).eng.blocks = s.eng.blocks.map fun u => if u == y then q.drained cols k y else u := by
  unfold State.drainedOnly
  dsimp only
  generalize (if y.failed then 0 else y.level) = lvl
  split
  · exact ⟨.of_patch rfl, rfl⟩
  · exact ⟨.of_patch rfl, rfl⟩

theorem State.drainBlock_keeps (s : State) (p : Plan) (q : Prod) (k : Blk) (y : Block) (cols : Option Loaded) :
    Keeps [.stp, .eng, .obs] s (s.drainBlock p q k y cols) := by
  rw [State.drainBlock_eq]
  exact (s.drainedOnly_spec q k y cols).1.trans ((State.putTile_keeps _ _ _ _ _).mono (by decide))

/-! ### The blocks and the tile record that it leaves -/

/-- A tile record that is formed leaves every block, though not its values. -/
theorem State.putTile_blocks (s : State) (p : Plan) (q : Prod) (k : Blk) (a : Place) {y : Block} (hy : y ∈ s.eng.blocks) :
    ∃ z ∈ (s.putTile p q k a).eng.blocks, z.op = y.op ∧ z.mb = y.mb ∧ z.block = y.block ∧ z.drained = y.drained := by
  unfold State.putTile
  split
  · exact ⟨y, hy, rfl, rfl, rfl, rfl⟩
  · rename_i bs _
    have hblocks : ∀ t : State, t.eng.blocks = s.eng.blocks → ∃ z ∈ t.eng.blocks.map fun b : Block =>
        if bs.any (fun u => u.2 == b) then { b with sums := [], out0 := [], out1 := [] } else b,
        z.op = y.op ∧ z.mb = y.mb ∧ z.block = y.block ∧ z.drained = y.drained := by
      intro t ht
      refine ⟨_, List.mem_map_of_mem (ht ▸ hy), ?_⟩
      split <;> exact ⟨rfl, rfl, rfl, rfl⟩
    dsimp only
    split
    · exact hblocks _ (by simp only [State.putResult_eng])
    · exact hblocks _ (by simp only [State.putResult_eng])

/-- The tile record that OUT0's blocks form. -/
def Prod.record (q : Prod) (k : Blk) (a : Place) (bs : List (Blk × Block)) : ScratchTile :=
  let c := [k.c0 / 128, k.r0 / 128] ++ k.rest
  let x := q.d.encodeTile c (blocksAt bs false)
  ⟨a.grove, a.task, q.op, q.mb, 0, (q.d.recordAt (q.d.tileIndex c)).1, q.d.toCells x.1, x.2.1, true⟩

theorem State.putTile_record {s : State} {q : Prod} {k : Blk} {bs : List (Blk × Block)}
    (h : s.eng.tileBlocks q k = some bs) (p : Plan) (a : Place) : q.record k a bs ∈ (s.putTile p q k a).eng.scratch := by
  unfold State.putTile
  rw [h]
  dsimp only
  split
  · simp only [State.putResult_eng]
    exact List.mem_append_left _ (List.mem_append_right _ List.mem_cons_self)
  · simp only [State.putResult_eng]
    exact List.mem_append_right _ List.mem_cons_self

/-- The first block that a key picks, replaced by one that a narrower key picks, is the first that it picks. -/
theorem find_replaced {α : Type} [BEq α] [LawfulBEq α] {l : List α} {p q : α → Bool} {y z : α} (h : l.find? p = some y)
    (hpq : ∀ u, q u = true → p u = true) (hz : q z = true) :
    (l.map fun u => if u == y then z else u).find? q = some z := by
  obtain ⟨-, as, bs, rfl, has⟩ := List.find?_eq_some_iff_append.1 h
  have hp : p y = true := List.find?_some h
  have hmap : as.map (fun u => if u == y then z else u) = as := by
    refine (List.map_congr_left fun u hu => if_neg ?_).trans (List.map_id' as)
    rintro huy
    have hu := has u hu
    rw [eq_of_beq huy, hp] at hu
    simp at hu
  rw [List.map_append, hmap, List.find?_append, List.find?_eq_none.2 fun u hu hq => by simpa [hpq u hq] using has u hu]
  simp [hz]

/-- A block that has a tile of its own forms its record as soon as it has drained. -/
theorem State.drainedOnly_tileBlocks {s : State} {q : Prod} {block : Nat} {k : Blk} {y : Block}
    (hfind : s.eng.blocks.find? (·.of q block) = some y)
    (halone : q.blocks.zipIdx.filter (fun z => k.mate z.1) = [(k, block)]) (cols : Option Loaded) :
    (s.drainedOnly q k y cols).eng.tileBlocks q k = some [(k, q.drained cols k y)] := by
  have hy := List.find?_some hfind
  have hdrained : (s.drainedOnly q k y cols).eng.blocks.find?
      (fun u => u.op == q.op && u.mb == q.mb && u.block == block && u.drained) = some (q.drained cols k y) := by
    rw [(s.drainedOnly_spec q k y cols).2]
    exact find_replaced hfind (fun u hu => (Bool.and_eq_true_iff.1 hu).1) (Bool.and_eq_true_iff.2 ⟨hy, rfl⟩)
  unfold Eng.tileBlocks
  rw [halone, List.mapM_cons, hdrained]
  rfl

/-! ### The drain -/

/-- The state after the output stage has drained a block, with room made for what it has formed. -/
theorem execOutputStageDrain_ready {s s1 : State} {st : Step} {p : Plan} {op mb block : Nat} {q : Prod} {b : Blk} {y : Block}
    {cols : Option Loaded} {e : Eng} (hwork : s.atWork op mb = some (st, p)) (hprod : p.prod op mb = some q)
    (hblk : q.blocks[block]? = some b) (hdrain : s.drainable q block = some (s1, y))
    (hrun : s.groveStopped y.place.grove = false) (hcols : s1.eng.columns y.place q b = some cols)
    (hroom : (s1.drainBlock p q b y cols).eng.makeRoom y.place 0 = some e) :
    exec (.outputStageDrain op mb block) s = .next { s1.drainBlock p q b y cols with eng := e } := by
  show execOutputStageDrain op mb block s = _
  simp [execOutputStageDrain, hwork, hprod, hblk, hdrain, hrun, hcols, hroom]

theorem State.drained_spec {s s1 : State} {p : Plan} {q : Prod} {block : Nat} {b : Blk} {y : Block} {cols : Option Loaded}
    {e : Eng} (hdrain : s.drainable q block = some (s1, y))
    (hroom : (s1.drainBlock p q b y cols).eng.makeRoom y.place 0 = some e) :
    Keeps [.stp, .eng, .obs] s { s1.drainBlock p q b y cols with eng := e }
      ∧ (∃ z ∈ e.blocks, z.op = y.op ∧ z.mb = y.mb ∧ z.block = y.block ∧ z.drained = true)
      ∧ (q.blocks.zipIdx.filter (fun z => b.mate z.1) = [(b, block)] →
        q.record b y.place [(b, q.drained cols b y)] ∈ e.scratch) := by
  obtain ⟨hs1, hfind, -⟩ := State.drainable_some hdrain
  obtain ⟨-, hresults, he⟩ := Eng.makeRoom_some hroom
  have hblocks : e.blocks = (s1.drainBlock p q b y cols).eng.blocks := by rw [he]
  have hmem : q.drained cols b y ∈ (s1.drainedOnly q b y cols).eng.blocks := by
    rw [(s1.drainedOnly_spec q b y cols).2]
    exact List.mem_map.2 ⟨y, List.mem_of_find?_eq_some hfind, if_pos (beq_self_eq_true y)⟩
  refine ⟨?_, ?_, fun halone => ?_⟩
  · exact ((hs1.mono (by decide)).trans (s1.drainBlock_keeps p q b y cols)).trans ((State.engOnly_keeps _ e).mono (by decide))
  · rw [hblocks, State.drainBlock_eq]
    exact State.putTile_blocks _ p q b y.place hmem
  · refine hresults _ ?_ (.inr rfl)
    rw [State.drainBlock_eq]
    exact State.putTile_record (State.drainedOnly_tileBlocks hfind halone cols) p y.place

/-! ### The statement -/

theorem productIssues_spec {s u : State} {st : Step} {p : Plan} {op mb code : Nat} {places : List Place} {cmd : Instr}
    (henter : s.enter code op mb = some (u, st, p))
    (hcmd : cmd = .matmul op mb places ∧ code = 1 ∨ cmd = .conv op mb places ∧ code = 0x10)
    (hfree : ∀ a ∈ places, s.groveStopped a.grove = false
      ∧ ∀ x ∈ s.eng.tasks, ¬ (x.grove = a.grove.val ∧ x.task = a.task.val)) :
    ∃ t, exec cmd s = .next t ∧ t.inst op mb = some .issued ∧ (∀ a ∈ places, (t.eng.taskAt a op mb).isSome = true)
      ∧ Keeps [.fresh, .aon, .stp, .eng, .obs] s t := by
  have hexec : exec cmd s = .next (s.issueOn code op mb places) := by
    obtain ⟨rfl, rfl⟩ | ⟨rfl, rfl⟩ := hcmd <;> rfl
  exact ⟨_, hexec, State.issueOn_spec henter (fun a ha => (hfree a ha).1) fun a ha => (hfree a ha).2⟩

theorem segmentCombine_spec {s : State} {st : Step} {p : Plan} {op mb block top : Nat} {q : Prod} {b : Blk} {x : Run}
    {rs : List Run} {segs : List (List Nat)} {over_ : Bool} (hwork : s.atWork op mb = some (st, p))
    (hprod : p.prod op mb = some q) (hblk : q.blocks[block]? = some b) (hruns : s.eng.finishedRuns q block = some (x :: rs))
    (hsplit : 1 < q.segs) (hrun : s.groveStopped x.place.grove = false)
    (hlevel : ∀ r ∈ x :: rs, r.failed = false ∧ r.level = top)
    (hsegs : segs = (List.range q.segs).map (fun j => (((x :: rs).find? (·.seg == j)).map (·.sums)).getD
      (List.replicate (b.rn * b.cn) 0)))
    (hover : over_ = (if q.int then (combineSums q.int segs (b.rn * b.cn)).2
      else b.overflowed (flagged (x :: rs) b.cn) (combineSums q.int segs (b.rn * b.cn)).1)) :
    ∃ t, exec (.segmentCombine op mb block) s = .next t ∧ Keeps [.eng, .obs] s t
      ∧ (over_ = false → t.eng.blocks = s.eng.blocks
          ++ [⟨op, mb, block, x.place, top, (combineSums q.int segs (b.rn * b.cn)).1, false, false, [], []⟩])
      ∧ (over_ = true → top < 2 → ∀ r ∈ x :: rs, t.eng.run op mb block r.seg = some { r with
          level := top + 1, chunk := 0, sums := [], finished := false, failed := false })
      ∧ (over_ = true → top = 2 →
        t.eng.blocks = s.eng.blocks ++ [⟨op, mb, block, x.place, 3, [], true, false, [], []⟩]) := by
  obtain ⟨hop, hmb⟩ := Plan.prod_key hprod
  refine ⟨_, execSegmentCombine_level hwork hprod hblk hruns hsplit hrun hlevel hsegs hover, ?_⟩
  cases over_ with
  | false =>
    refine ⟨(s.putBlock_keeps _ _ _ _ _ _).mono (by decide), fun _ => ?_, fun h => by simp at h, fun h => by simp at h⟩
    rw [← hop, ← hmb]
    rfl
  | true =>
    by_cases htop : top = 2
    · have htrace := s.traceLevel_keeps (westPlace x.place) uGrove x.place.grove op block 3
      have heng : _ = s.eng := htrace .eng (by decide)
      simp only [if_true, if_pos htop]
      refine ⟨(htrace.mono (by decide)).trans ((State.putBlock_keeps _ _ _ _ _ _ _).mono (by decide)), fun h => by simp at h,
        fun _ hlt => by omega, fun _ _ => ?_⟩
      rw [State.putBlock, heng, ← hop, ← hmb]
    · obtain ⟨hof, hnodup⟩ := Eng.finishedRuns_some hruns
      rw [hop, hmb] at hof
      simp only [if_true, if_neg htop]
      refine ⟨Keeps.foldl (fun s r => s.rerun_keeps r _) _ s, fun h => by simp at h, fun _ hlt r hr => ?_,
        fun _ h => absurd h htop⟩
      rw [reruns_run _ s hof hnodup r hr, Run.restarted, decide_eq_false (by omega : ¬ 2 < top + 1)]

/-- Settles O57: what a command of a product changes is read off its own equation; the runs and blocks of an instance are
told apart by their segments and numbers, so that a run put in place, or a block that has drained, is found again. -/
theorem productsRun : Obligations.ProductsRun := by
  refine ⟨fun s u st p op mb code places cmd henter hcmd hfree => productIssues_spec henter hcmd hfree, ?_, ?_, ?_⟩
  · intro s st p op mb block seg pl k q b x i e over_ hwork htask hwait hrun hprod hturn hnext hroom hover
    obtain ⟨hop, hmb⟩ := Plan.prod_key hprod
    obtain ⟨hof, rfl⟩ := State.nextPass_some hnext
    obtain ⟨hkeeps, hadds, hretries⟩ := State.passDone_spec (s := { s with eng := e }) hof hover
    rw [hop, hmb] at hadds hretries
    exact ⟨_, execPass_ready hwork htask hwait hrun hprod hturn hnext hroom,
      ((s.engOnly_keeps e).mono (by decide)).trans hkeeps, hadds, hretries⟩
  · exact fun s st p op mb block top q b x rs segs over_ hwork hprod hblk hruns hsplit hrun hlevel hsegs hover =>
      segmentCombine_spec hwork hprod hblk hruns hsplit hrun hlevel hsegs hover
  · intro s s1 st p op mb block q b y cols hwork hprod hblk hdrain hrun hcols hroom
    obtain ⟨hop, hmb⟩ := Plan.prod_key hprod
    obtain ⟨e, hroom⟩ := Option.isSome_iff_exists.1 hroom
    obtain ⟨hkeeps, hblocks, hrecord⟩ := State.drained_spec hdrain hroom
    refine ⟨_, execOutputStageDrain_ready hwork hprod hblk hdrain hrun hcols hroom, hkeeps.sameBytes (by decide) _, hkeeps,
      hblocks, fun halone z hz => ?_⟩
    subst hz
    exact ⟨_, hrecord halone, rfl, hop, hmb, rfl, rfl, rfl⟩

end Sys2Proof.Machine
end

section
/-! SUPPORT. A stored result whose side data are longer than its tensor's record, and the byte past the record that its store
then writes (R184, R185). -/

namespace Sys2Proof.Machine

/-! ### A machine that stores it -/

/-- A container of one 4-bit tensor of a single tile, at 0x4000_0000, and of one VECTOR that writes it. -/
def strayContainer : Bytes :=
  zeros 0x40 ++ leBytes 4 128 ++ leBytes 4 1 ++ zeros 8 ++ leBytes 4 192 ++ leBytes 4 1 ++ zeros 40
    ++ [8#8, 2#8] ++ zeros 6 ++ leBytes 8 0x40000000 ++ (List.replicate 6 1).flatMap (leBytes 4) ++ zeros 24
    ++ leBytes 2 0x20 ++ zeros 6 ++ (List.replicate 4 absent).flatMap (leBytes 2) ++ leBytes 2 0 ++ leBytes 2 absent

def strayPlan : Plan :=
  { handle := 1, bytes := strayContainer, loadNo := 0, base := [], formats := [], escalations := [], modes := [],
    inForce := [], before := [], stampRing := 0, stampCount := 0, lsExp := 0, clean := 0, continuityBad := false }

/-- A step in which the VECTOR is at work. -/
def strayStep : Step :=
  { tag := 0, plan := 1, ring := 1, attempt := 0, replay := false, fromAttempt := 0, source := [], verdictFree := false,
    st := .running, round := 0, stamp := 0, lsExp := 0, insts := [⟨0, 0, .issued⟩], phases := [], entries := [], watch := [],
    crossings := [], nonfinite := [], disputes := [], holdCode := 0, released := false, stopped := false, k := none,
    vround := none, last := none, resumed := false, digests := [], diverged := 0, tick := 0 }

/-- A STACK region of 1 GiB with id 0, mapped writable at 0x4000_0000. -/
def strayRegion : Region :=
  { id := 0, kind := 0, mode := 2, target := 0, pages := 16384, t2Pages := 0, hostBase := 0, part := 0, cache := 2,
    hdmOff := 0, map := some ⟨0x40000000, true, false⟩, reg := none, stale := false, inT2 := [], pinned := [], heat := [],
    shared := [], flipping := [] }

/-- The store of the tensor's one record, which is 8 KiB without side data. -/
def strayMove : TileMove := ⟨⟨0, 0⟩, 0, 0, true, 0, [⟨0x40000000, 8192⟩], 0, false⟩

/-- The result that it stores, with a byte of side data; what its cells hold does not matter, and they are left out. -/
def strayResult : ScratchTile := ⟨0, 0, 0, 0, 0, 0x40000000, [], [1#8], true⟩

/-- The step runs, and the result waits for the end of its store. -/
def strayState : State :=
  { State.reset with
    aon := { Aon.reset with pwrgd := true, resetN := true }
    rgn := { Rgn.reset with
      regions := [strayRegion], tables := [(2 ^ 20, 4096)], tbl := [(0, 1#8), (2, 0x10#8), (2 ^ 20 + 8, 7#8)] }
    pln := { Pln.reset with plans := [strayPlan] }
    stp := { Stp.reset with active := some strayStep }
    eng := { Eng.reset with scratch := [strayResult], moves := [strayMove] } }

/-! ### It meets the hypotheses of the statement -/

theorem strayState_inv : strayState.Inv where
  mem := rfl
  mbx := rfl
  tbl := by decide
  trace := rfl
  attn := by decide
  lines := by decide
  fits := by decide
  ids := by decide
  sizes := by decide

theorem strayState_move : strayState.eng.moves.find? (fun y => y.place == strayMove.place && !strayState.moveWaits y)
    = some strayMove := by decide +kernel

theorem strayState_atWork : strayState.atWork strayMove.op strayMove.mb = some (strayStep, strayPlan) := by decide +kernel

theorem strayState_chunks : chunksOf 0x40000000 8192 = [(0x40000000, 8192)] := by decide

theorem strayState_xlate : strayState.xlate 0x40000000 true = .ok (strayRegion, 0) := by rfl

theorem strayState_accessible : ∀ x ∈ strayMove.pieces, Accessible strayState x.va x.len strayMove.store := by
  intro x hx
  obtain rfl : x = ⟨0x40000000, 8192⟩ := List.mem_singleton.1 hx
  refine ⟨fun c hc => ?_, by decide +kernel, by decide +kernel⟩
  rw [strayState_chunks, List.mem_singleton] at hc
  subst hc
  exact ⟨strayRegion, 0, by decide, strayState_xlate⟩

theorem strayPlan_moveRecs :
    ∃ rs, strayPlan.moveRecs strayMove.op strayMove.mb strayMove.store strayMove.pieces = some rs :=
  Option.isSome_iff_exists.1 (by decide +kernel)

/-! ### It refutes the statement -/

/-- A store to the move's pieces does not reach the byte past the record. -/
theorem strayState_past : ¬ ∃ x ∈ strayMove.pieces, strayState.storesTo x.va x.len 8192 := by
  rintro ⟨x, hx, c, hc, r, off, hr, -, hlt⟩
  obtain rfl : x = ⟨0x40000000, 8192⟩ := List.mem_singleton.1 hx
  rw [strayState_chunks, List.mem_singleton] at hc
  subst hc
  rw [strayState_xlate] at hr
  cases hr
  exact absurd hlt (by decide)

/-- The end of the move has changed it. -/
theorem strayState_writes :
    (match exec (.tileMoveComplete strayMove.place [] 0 0) strayState with
      | .next t => t.byte 8192 != strayState.byte 8192
      | _ => false) = true := by decide +kernel

/-- Refutes O58: the end of a store writes all of a result's side data, but nothing in the statement (State.Inv says nothing
of the scratchpad) holds them to the side data of the tensor's record; `strayState` meets every hypothesis, and a byte past
the move's pieces changes. -/
theorem not_tilesMove : ¬ Obligations.TilesMove := by
  rintro ⟨-, hend, -⟩
  obtain ⟨rs, hrs⟩ := strayPlan_moveRecs
  obtain ⟨t, ht, -, -, -, hstore⟩ := hend strayState strayState strayStep strayPlan strayMove rs 0 0 strayState_inv rfl
    strayState_move strayState_atWork rfl strayState_accessible hrs rfl
  have hsame : t.byte 8192 = strayState.byte 8192 := (hstore rfl).1 8192 strayState_past
  have hdiffer := strayState_writes
  rw [ht] at hdiffer
  simp [hsame] at hdiffer

end Sys2Proof.Machine
end

section
/-! SUPPORT. The pages of a range, and what the tables say of the addresses of one page (R228 to R234). -/

namespace Sys2Proof.Machine

/-! ### The parts of a range, page by page -/

/-- A part of a range lies in the range and in one page. -/
theorem mem_pageChunks {c : Nat × Nat} : ∀ {n len va : Nat}, c ∈ pageChunks len va n →
    va ≤ c.1 ∧ c.1 + c.2 ≤ va + len ∧ 0 < c.2 ∧ c.1 % pageBytes + c.2 ≤ pageBytes := by
  intro n
  induction n with
  | zero => intro len va h; simp [pageChunks] at h
  | succ n ih =>
    intro len va h
    have hlt : va % pageBytes < pageBytes := Nat.mod_lt _ (by decide)
    unfold pageChunks at h
    split at h
    · simp at h
    · obtain rfl | h := List.mem_cons.1 h
      · dsimp only
        omega
      · have := ih h
        omega

/-- A range that ends within `n` pages of the start of its first: its parts cover it. -/
theorem pageChunks_cover : ∀ {n len va a : Nat}, va % pageBytes + len ≤ n * pageBytes → va ≤ a → a < va + len →
    ∃ c ∈ pageChunks len va n, c.1 ≤ a ∧ a < c.1 + c.2 := by
  intro n
  induction n with
  | zero => intro len va a h hlo hhi; omega
  | succ n ih =>
    intro len va a h hlo hhi
    unfold pageChunks
    rw [if_neg (by omega)]
    by_cases ha : a < va + min len (pageBytes - va % pageBytes)
    · exact ⟨_, List.mem_cons_self, hlo, ha⟩
    · have hk : min len (pageBytes - va % pageBytes) = pageBytes - va % pageBytes := by omega
      obtain ⟨c, hc, hin⟩ := ih (len := len - min len (pageBytes - va % pageBytes))
        (va := va + min len (pageBytes - va % pageBytes)) (a := a) (by
          have : (va + (pageBytes - va % pageBytes)) % pageBytes = 0 := by unfold pageBytes; omega
          rw [hk, this]
          unfold pageBytes at *
          omega) (by omega) (by omega)
      exact ⟨c, List.mem_cons_of_mem _ hc, hin⟩

@[simp] theorem pageChunks_empty (va n : Nat) : pageChunks 0 va n = [] := by cases n <;> rfl

theorem pageChunks_sum : ∀ {n len va : Nat}, va % pageBytes + len ≤ n * pageBytes →
    ((pageChunks len va n).map (·.2)).sum = len := by
  intro n
  induction n with
  | zero => intro len va h; simp only [pageChunks, List.map_nil, List.sum_nil]; omega
  | succ n ih =>
    intro len va h
    unfold pageChunks
    split
    · simpa using ‹len = 0›.symm
    · rcases Nat.lt_or_ge (pageBytes - va % pageBytes) len with hk | hk
      · dsimp only
        rw [Nat.min_eq_right (Nat.le_of_lt hk), List.map_cons, List.sum_cons, ih]
        · exact Nat.add_sub_cancel' (Nat.le_of_lt hk)
        · have : (va + (pageBytes - va % pageBytes)) % pageBytes = 0 := by unfold pageBytes; omega
          rw [this]
          unfold pageBytes at *
          omega
      · simp [Nat.min_eq_left hk]

theorem chunksOf_fuel (va len : Nat) : va % pageBytes + len ≤ (len / pageBytes + 2) * pageBytes := by
  unfold pageBytes
  omega

theorem mem_chunksOf {va len : Nat} {c : Nat × Nat} (h : c ∈ chunksOf va len) :
    va ≤ c.1 ∧ c.1 + c.2 ≤ va + len ∧ 0 < c.2 ∧ c.1 % pageBytes + c.2 ≤ pageBytes := mem_pageChunks h

theorem chunksOf_cover {va len a : Nat} (hlo : va ≤ a) (hhi : a < va + len) :
    ∃ c ∈ chunksOf va len, c.1 ≤ a ∧ a < c.1 + c.2 := pageChunks_cover (chunksOf_fuel va len) hlo hhi

theorem chunksOf_sum (va len : Nat) : ((chunksOf va len).map (·.2)).sum = len := pageChunks_sum (chunksOf_fuel va len)

@[simp] theorem chunksOf_zero (va : Nat) : chunksOf va 0 = [] := by simp [chunksOf]

/-- A range within one page is its only part. -/
theorem chunksOf_one {va len : Nat} (hpos : 0 < len) (h : va % pageBytes + len ≤ pageBytes) :
    chunksOf va len = [(va, len)] := by
  have hk : min len (pageBytes - va % pageBytes) = len := by omega
  unfold chunksOf pageChunks
  simp [hk, Nat.ne_of_gt hpos]

/-! ### The walk -/

theorem bits_page (va hi lo : Nat) (h : 16 ≤ lo) : bits va hi lo = va / pageBytes / 2 ^ (lo - 16) % 2 ^ (hi + 1 - lo) := by
  unfold bits pageBytes
  rw [Nat.div_div_eq_div_mul, show 65536 = 2 ^ 16 from rfl, ← Nat.pow_add, Nat.add_sub_cancel' h]

/-- The index of a level is the same throughout a page. -/
theorem levelIndex_page {a b : Nat} (h : a / pageBytes = b / pageBytes) (lvl : Nat) : levelIndex lvl a = levelIndex lvl b := by
  unfold levelIndex
  split <;> simp only [bits_page _ _ _ (by decide : 16 ≤ 16), bits_page _ _ _ (by decide : 16 ≤ 21),
    bits_page _ _ _ (by decide : 16 ≤ 30), bits_page _ _ _ (by decide : 16 ≤ 39), h]

theorem walkFrom_page {a b : Nat} (h : a / pageBytes = b / pageBytes) (tbl : Store) (poison : List Nat) (store : Bool) :
    ∀ lvl base, walkFrom tbl poison a store lvl base = walkFrom tbl poison b store lvl base := by
  intro lvl
  induction lvl with
  | zero => intro base; unfold walkFrom; rw [levelIndex_page h]
  | succ l ih => intro base; unfold walkFrom; simp only [levelIndex_page h, ih]

theorem readEntry_fewer {tbl : Store} {p q : List Nat} (hq : ∀ l, p.contains l = false → q.contains l = false) {off x : Nat}
    (h : readEntry tbl p off = some x) : readEntry tbl q off = some x := by
  unfold readEntry at h ⊢
  cases hc : p.contains (tblLine off) with
  | true => simp only [hc, if_true] at h; cases h
  | false => simpa only [hc, hq _ hc] using h

/-- A leaf that the walk finds past some poisoned lines it finds past fewer, and for a load where it does for a store. -/
theorem walkFrom_leaf {tbl : Store} {p q : List Nat} (hq : ∀ l, p.contains l = false → q.contains l = false) {va : Nat}
    {store store' : Bool} (hs : store' = true → store = true) {n e lvl base : Nat}
    (h : walkFrom tbl p va store lvl base = .leaf n e) : walkFrom tbl q va store' lvl base = .leaf n e := by
  fun_induction walkFrom tbl p va store lvl base
  case case5 h0 h1 l h2 hx ih =>
    unfold walkFrom
    simp only [readEntry_fewer hq hx, if_neg h0, if_pos h1, if_pos h2]
    exact ih h
  case case9 x hx h0 h1 h2 h3 =>
    have hwrite : ¬ (store' && !bit x 2) = true := fun h' => h3 (by
      rw [Bool.and_eq_true] at h' ⊢
      exact ⟨hs h'.1, h'.2⟩)
    unfold walkFrom
    simp only [readEntry_fewer hq hx, if_neg h0, if_neg h1, if_neg h2, if_neg hwrite]
    exact h
  all_goals cases h

/-! ### The place of an address -/

theorem Rgn.place_ok {g : Rgn} {poison : List Nat} {va off : Nat} {store : Bool} {r : Region} :
    g.place poison va store = .ok (r, off) ↔
      ∃ n e, g.walk poison va store = .leaf n e ∧ g.get (leafTarget n e va).1 = some r ∧ (leafTarget n e va).2 = off := by
  unfold Rgn.place
  cases g.walk poison va store with
  | fault k => simp
  | leaf n e => cases h : g.get (leafTarget n e va).1 <;> simp [h]

/-- An address that translates past some poisoned lines translates alike past fewer, and for a load where it does for a
store. -/
theorem Rgn.place_fewer {g : Rgn} {p q : List Nat} (hq : ∀ l, p.contains l = false → q.contains l = false) {va : Nat}
    {store store' : Bool} (hs : store' = true → store = true) {x : Region × Nat} (h : g.place p va store = .ok x) :
    g.place q va store' = .ok x := by
  obtain ⟨n, e, hwalk, hget⟩ := Rgn.place_ok.1 h
  exact Rgn.place_ok.2 ⟨n, e, walkFrom_leaf hq hs hwalk, hget⟩

theorem leafTarget_page (n e va : Nat) :
    ∃ q, ∀ b, b / pageBytes = va / pageBytes → leafTarget n e b = ((leafTarget n e va).1, q * pageBytes + b % pageBytes) := by
  obtain ⟨k, hk⟩ : ∃ k, levelSpan n = pageBytes * k := by
    unfold levelSpan
    split
    · exact ⟨1, rfl⟩
    · exact ⟨32, rfl⟩
    · exact ⟨16384, rfl⟩
    · exact ⟨8388608, rfl⟩
  refine ⟨bits e 57 32 + va / pageBytes % k, fun b hb => ?_⟩
  rw [leafTarget, leafTarget, hk, Nat.mod_mul, hb, Nat.add_mul, Nat.mul_comm (va / pageBytes % k), Nat.add_assoc,
    Nat.add_comm (b % pageBytes)]

/-- The addresses of a page lie in one page of one region, each at its own offset. -/
theorem Rgn.place_page {g : Rgn} {poison : List Nat} {a : Nat} {store : Bool} {r : Region} {off : Nat}
    (h : g.place poison a store = .ok (r, off)) :
    ∃ q, off = q * pageBytes + a % pageBytes
      ∧ ∀ b, b / pageBytes = a / pageBytes → g.place poison b store = .ok (r, q * pageBytes + b % pageBytes) := by
  obtain ⟨n, e, hwalk, hget, hoff⟩ := Rgn.place_ok.1 h
  obtain ⟨q, hq⟩ := leafTarget_page n e a
  have hself := hq a rfl
  refine ⟨q, by rw [← hoff, hself], fun b hb => Rgn.place_ok.2 ⟨n, e, ?_, ?_, ?_⟩⟩
  · exact (walkFrom_page hb _ _ _ _ _).trans hwalk
  · rw [hq b hb]
    exact hget
  · rw [hq b hb]

/-- The bytes of a region's page lie at keys in a row. -/
theorem Region.key_page (r : Region) (q : Nat) {m : Nat} (hm : m < pageBytes) :
    r.key (q * pageBytes + m) = r.key (q * pageBytes) + m := by
  have hdiv : (q * pageBytes + m) / pageBytes = q := by unfold pageBytes at *; omega
  have hdiv0 : q * pageBytes / pageBytes = q := by unfold pageBytes; omega
  unfold Region.key
  rw [hdiv, hdiv0]
  split <;> omega

end Sys2Proof.Machine
end

section
/-! SUPPORT. What a byte of memory reads as while cores hold modified lines: it is theirs until a line is written back, and
neither writing lines back nor an agent's write disturbs any other byte (R223, R269, R270). -/

namespace Sys2Proof.Machine

/-! ### A byte and the copies of its line -/

/-- What an agent needs to read: canonical memory, and whole lines in the cores. -/
structure State.Sound (s : State) : Prop where
  wf : s.mem.cells.wf = true
  lines : ∀ c ∈ s.coh.cached ++ s.coh.wbs, c.data.length = 64

/-- The lines that cores have modified. -/
def State.dirty (s : State) : List CoreLine := (s.coh.cached ++ s.coh.wbs).filter (·.dirty)

/-- A byte after a line is written back over it. -/
def lineOver (a : Nat) (b : Byte) (c : CoreLine) : Byte := if c.line = a / 64 then c.data.getD (a % 64) 0#8 else b

theorem lineOver_others {a : Nat} {b : Byte} : ∀ {l : List CoreLine}, (∀ c ∈ l, c.line ≠ a / 64) → l.foldl (lineOver a) b = b := by
  intro l
  induction l with
  | nil => intro _; rfl
  | cons c r ih =>
    intro h
    rw [List.foldl_cons, lineOver, if_neg (h c List.mem_cons_self)]
    exact ih fun x hx => h x (List.mem_cons_of_mem _ hx)

/-- Lines that are not the byte's can be left out. -/
theorem lineOver_filter {a : Nat} {p : CoreLine → Bool} (hp : ∀ c, c.line = a / 64 → p c = true) : ∀ (l : List CoreLine) (b : Byte),
    (l.filter p).foldl (lineOver a) b = l.foldl (lineOver a) b := by
  intro l
  induction l with
  | nil => intro b; rfl
  | cons c r ih =>
    intro b
    cases hc : p c with
    | true => rw [List.filter_cons_of_pos hc, List.foldl_cons, List.foldl_cons, ih]
    | false =>
      have hne : c.line ≠ a / 64 := fun he => by simp [hp c he] at hc
      rw [List.filter_cons_of_neg (by simp [hc]), ih, List.foldl_cons, lineOver, if_neg hne]

theorem Mem.putLine_byte {m : Mem} (h : m.cells.wf = true) {c : CoreLine} (hc : c.data.length = 64) (a : Nat) :
    (m.putLine c.line c.data).byte a = lineOver a (m.byte a) c := by
  show (m.write (c.line * 64) c.data).byte a = _
  rw [Mem.byte_write h, hc, lineOver]
  by_cases ha : c.line = a / 64
  · rw [if_pos (by omega), if_pos ha]
    congr 1
    omega
  · rw [if_neg (by omega), if_neg ha]

theorem Mem.putLines_byte (a : Nat) : ∀ (l : List CoreLine) (m : Mem), m.cells.wf = true → (∀ c ∈ l, c.data.length = 64) →
    (l.foldl (fun m c => m.putLine c.line c.data) m).byte a = l.foldl (lineOver a) (m.byte a) := by
  intro l
  induction l with
  | nil => intros; rfl
  | cons c r ih =>
    intro m hm hl
    rw [List.foldl_cons, ih _ (Store.wf_writeN hm _) fun x hx => hl x (List.mem_cons_of_mem _ hx),
      Mem.putLine_byte hm (hl c List.mem_cons_self), List.foldl_cons]

theorem mem_inRange {lo n a : Nat} (hlo : lo ≤ a) (hhi : a < lo + n) : inRange lo n (a / 64) = true := by
  simp only [inRange, Bool.and_eq_true, decide_eq_true_eq]
  omega

/-- What memory holds after the modified lines of a range are written back. -/
theorem State.cleanRange_held {s : State} (h : s.Sound) (lo n a : Nat) :
    (s.cleanRange lo n).mem.byte a = (s.dirty.filter fun c => inRange lo n c.line).foldl (lineOver a) (s.mem.byte a) := by
  have hfilter : (s.dirty.filter fun c => inRange lo n c.line)
      = (s.coh.cached ++ s.coh.wbs).filter fun c => c.dirty && inRange lo n c.line := by
    rw [State.dirty, List.filter_filter]
    exact List.filter_congr fun c _ => Bool.and_comm _ _
  rw [hfilter]
  exact Mem.putLines_byte a _ _ h.wf fun c hc => h.lines c (List.mem_filter.1 hc).1

/-- A byte is the last modified copy's, or memory's. -/
theorem State.byte_eq {s : State} (h : s.Sound) (a : Nat) : s.byte a = s.dirty.foldl (lineOver a) (s.mem.byte a) := by
  rw [State.byte, State.cleanRange_held h]
  exact lineOver_filter (fun c hc => hc ▸ mem_inRange (Nat.le_refl a) (Nat.lt_succ_self a)) _ _

/-- No core has modified the line of a byte. -/
def State.CleanAt (s : State) (a : Nat) : Prop := ∀ c ∈ s.dirty, c.line ≠ a / 64

theorem State.CleanAt.byte {s : State} {a : Nat} (hc : s.CleanAt a) (h : s.Sound) : s.byte a = s.mem.byte a := by
  rw [State.byte_eq h, lineOver_others hc]

/-! ### Lines written back -/

theorem State.cleanRange_dirty (s : State) (lo n : Nat) :
    (s.cleanRange lo n).dirty = s.dirty.filter fun c => !inRange lo n c.line := by
  have hclean : ∀ l : List CoreLine,
      (l.map fun c => if inRange lo n c.line then { c with dirty := false } else c).filter (·.dirty)
        = (l.filter (·.dirty)).filter fun c => !inRange lo n c.line := by
    intro l
    induction l with
    | nil => rfl
    | cons c r ih =>
      rw [List.map_cons]
      cases hr : inRange lo n c.line <;> cases hd : c.dirty <;> simp [hr, hd, ih]
  rw [State.dirty, State.dirty, ← hclean, List.map_append]
  rfl

theorem State.cleanRange_sound {s : State} (h : s.Sound) (lo n : Nat) : (s.cleanRange lo n).Sound where
  wf := State.cleanRange_wf h.wf lo n
  lines := by
    intro c hc
    have hc : c ∈ (s.coh.cached ++ s.coh.wbs).map fun c => if inRange lo n c.line then { c with dirty := false } else c := by
      rw [List.map_append]
      exact hc
    obtain ⟨x, hx, rfl⟩ := List.mem_map.1 hc
    have := h.lines x hx
    split <;> exact this

theorem State.CleanAt.mono {s t : State} {a : Nat} (h : s.CleanAt a) (hd : ∀ c ∈ t.dirty, c ∈ s.dirty) : t.CleanAt a :=
  fun c hc => h c (hd c hc)

theorem State.cleanRange_clean {lo n a : Nat} (h : inRange lo n (a / 64) = true) (s : State) : (s.cleanRange lo n).CleanAt a := by
  intro c hc he
  rw [State.cleanRange_dirty, List.mem_filter, he, h] at hc
  simp at hc

/-- Writing lines back changes no byte. -/
theorem State.cleanRange_byte {s : State} (h : s.Sound) (lo n a : Nat) : (s.cleanRange lo n).byte a = s.byte a := by
  rw [State.byte_eq (State.cleanRange_sound h lo n), State.cleanRange_held h, State.cleanRange_dirty, State.byte_eq h]
  cases hr : inRange lo n (a / 64) with
  | true =>
    rw [lineOver_others (l := s.dirty.filter fun c => !inRange lo n c.line) fun c hc he => by simp [he, hr] at hc]
    exact lineOver_filter (fun c hc => hc ▸ hr) _ _
  | false =>
    rw [lineOver_others (l := s.dirty.filter fun c => inRange lo n c.line) fun c hc he => by simp [he, hr] at hc]
    exact lineOver_filter (fun c hc => by simp [hc, hr]) _ _

/-- A state whose cores hold no other modified lines, and whose memory holds the same, reads the same. -/
theorem State.byte_congr {s t : State} (hs : s.Sound) (ht : t.Sound) (hd : t.dirty = s.dirty)
    (hm : t.mem.byte = s.mem.byte) (a : Nat) : t.byte a = s.byte a := by
  rw [State.byte_eq ht, State.byte_eq hs, hd, hm]

/-! ### An agent's write -/

theorem State.invalRange_dirty (s : State) (lo n : Nat) : (s.invalRange lo n).dirty = (s.cleanRange lo n).dirty := by
  have hout : ∀ l : List CoreLine, ((l.filter fun c => !inRange lo n c.line).filter (·.dirty)).filter (fun c => !inRange lo n c.line)
      = (l.filter (·.dirty)).filter fun c => !inRange lo n c.line := by
    intro l
    simp only [List.filter_filter]
    exact List.filter_congr fun c _ => by cases inRange lo n c.line <;> simp
  have hkeep : ∀ l : List CoreLine, (∀ c ∈ l, c.dirty = true → inRange lo n c.line = false) →
      (l.filter fun c => !inRange lo n c.line).filter (·.dirty) = l.filter (·.dirty) := by
    intro l hl
    rw [List.filter_filter]
    refine List.filter_congr fun c hc => ?_
    cases hd : c.dirty with
    | false => simp
    | true => simp [hl c hc hd]
  have hclean : ∀ c ∈ (s.cleanRange lo n).coh.cached, c.dirty = true → inRange lo n c.line = false := by
    intro c hc hd
    have hmem : c ∈ (s.cleanRange lo n).dirty := List.mem_filter.2 ⟨List.mem_append_left _ hc, hd⟩
    rw [State.cleanRange_dirty, List.mem_filter] at hmem
    simpa using hmem.2
  simp only [State.dirty, List.filter_append]
  exact congrArg (· ++ _) (hkeep _ hclean)

theorem State.invalRange_sound {s : State} (h : s.Sound) (lo n : Nat) : (s.invalRange lo n).Sound where
  wf := State.invalRange_wf h.wf lo n
  lines := by
    intro c hc
    refine (State.cleanRange_sound h lo n).lines c ?_
    obtain hc | hc := List.mem_append.1 hc
    · exact List.mem_append_left _ (List.mem_filter.1 hc).1
    · exact List.mem_append_right _ hc

theorem State.invalRange_byte {s : State} (h : s.Sound) (lo n a : Nat) : (s.invalRange lo n).byte a = s.byte a :=
  (State.byte_congr (State.cleanRange_sound h lo n) (State.invalRange_sound h lo n) (s.invalRange_dirty lo n) rfl a).trans
    (State.cleanRange_byte h lo n a)

/-! ### What leaves every byte alone -/

/-- The bytes of memory and the lines in the cores are the same. -/
structure SameData (s t : State) : Prop where
  cells : t.mem.cells = s.mem.cells
  free : t.mem.free = s.mem.free
  cached : t.coh.cached = s.coh.cached
  wbs : t.coh.wbs = s.coh.wbs

theorem SameData.refl (s : State) : SameData s s := ⟨rfl, rfl, rfl, rfl⟩

theorem SameData.trans {s t u : State} (h : SameData s t) (k : SameData t u) : SameData s u :=
  ⟨k.cells.trans h.cells, k.free.trans h.free, k.cached.trans h.cached, k.wbs.trans h.wbs⟩

theorem SameData.dirty {s t : State} (h : SameData s t) : t.dirty = s.dirty := by
  simp only [State.dirty, h.cached, h.wbs]

theorem SameData.memByte {s t : State} (h : SameData s t) : t.mem.byte = s.mem.byte := by
  funext a
  simp only [Mem.byte, h.cells, h.free]

theorem SameData.sound {s t : State} (h : SameData s t) (hs : s.Sound) : t.Sound :=
  ⟨h.cells ▸ hs.wf, h.cached ▸ h.wbs ▸ hs.lines⟩

theorem SameData.byte {s t : State} (h : SameData s t) (hs : s.Sound) (a : Nat) : t.byte a = s.byte a :=
  State.byte_congr hs (h.sound hs) h.dirty h.memByte a

/-- A state that keeps memory and the coherence directories keeps the data. -/
theorem Keeps.sameData {l : List Part} {s t : State} (h : Keeps l s t) (hl : .mem ∉ l ∧ .coh ∉ l) : SameData s t := by
  have hmem : t.mem = s.mem := h .mem hl.1
  have hcoh : t.coh = s.coh := h .coh hl.2
  exact ⟨by rw [hmem], by rw [hmem], by rw [hcoh], by rw [hcoh]⟩

theorem State.wakeRange_data (s : State) (lo n : Nat) : SameData s (s.wakeRange lo n) := by
  unfold State.wakeRange
  split
  · exact .refl s
  · exact ⟨rfl, rfl, rfl, rfl⟩

theorem State.combine_data (s : State) (line : Nat) (m : BitVec 64) : SameData s (s.combine line m) := by
  unfold State.combine
  split
  · exact .refl s
  · dsimp only
    split <;> exact ⟨rfl, rfl, rfl, rfl⟩

theorem State.combineRange_data (s : State) (lo n : Nat) : SameData s (s.combineRange lo n) := by
  unfold State.combineRange
  split
  · exact .refl s
  · have h1 : ∀ wc poison, SameData s { s with mem := { s.mem with wc := wc, poison := poison } } :=
      fun _ _ => ⟨rfl, rfl, rfl, rfl⟩
    dsimp only
    split <;> split
    · exact h1 _ _
    · exact (h1 _ _).trans (State.combine_data _ _ _)
    · exact (h1 _ _).trans (State.combine_data _ _ _)
    · exact ((h1 _ _).trans (State.combine_data _ _ _)).trans (State.combine_data _ _ _)

theorem Coh.place_lines (c : Coh) (g : Rgn) (r : Region) (first n : Nat) :
    (c.place g r first n).cached = c.cached ∧ (c.place g r first n).wbs = c.wbs := by
  unfold Coh.place
  split <;> exact ⟨rfl, rfl⟩

theorem State.placeKey_data (s : State) (r : Region) (off k n : Nat) : SameData s (s.placeKey r off k n) := by
  obtain ⟨hcached, hwbs⟩ := s.coh.place_lines s.rgn r (k / 64) ((k + n - 1) / 64 + 1 - k / 64)
  unfold State.placeKey
  split
  · exact .refl s
  · exact ⟨rfl, rfl, hcached, hwbs⟩

end Sys2Proof.Machine
end

section
/-! SUPPORT. An agent's reads by device virtual address: what a read gives, and that it neither moves the place of any address
nor changes a byte (R191, R194, R234, R269, R270). -/

namespace Sys2Proof.Machine

/-! ### The same translations -/

/-- A region without its heat, which no translation depends on. -/
def Region.cold (r : Region) : Region := { r with heat := [] }

theorem Region.key_of_cold {r r' : Region} (h : r'.cold = r.cold) : r'.key = r.key := by
  have hkey : ∀ x : Region, x.key = x.cold.key := fun _ => rfl
  rw [hkey r', h, ← hkey]

/-- The tables are the same, and the regions but for their heat. -/
structure Rgn.Alike (g g' : Rgn) : Prop where
  tbl : g'.tbl = g.tbl
  get : ∀ id, (g'.get id).map Region.cold = (g.get id).map Region.cold

theorem Rgn.Alike.of_eq {g g' : Rgn} (ht : g'.tbl = g.tbl) (hr : g'.regions = g.regions) : g.Alike g' :=
  ⟨ht, fun id => by rw [Rgn.get, Rgn.get, hr]⟩

theorem Rgn.Alike.refl (g : Rgn) : g.Alike g := .of_eq rfl rfl

theorem Rgn.Alike.symm {g g' : Rgn} (h : g.Alike g') : g'.Alike g := ⟨h.tbl.symm, fun id => (h.get id).symm⟩

theorem Rgn.Alike.trans {g g' g'' : Rgn} (h : g.Alike g') (k : g'.Alike g'') : g.Alike g'' :=
  ⟨k.tbl.trans h.tbl, fun id => (k.get id).trans (h.get id)⟩

theorem Rgn.Alike.place {g g' : Rgn} (h : g.Alike g') (va : Nat) (store : Bool) :
    (g'.place [] va store).map (fun x => (x.1.cold, x.2)) = (g.place [] va store).map fun x => (x.1.cold, x.2) := by
  unfold Rgn.place Rgn.walk
  rw [h.tbl]
  cases walkFrom g.tbl [] va store 3 0 with
  | fault k => rfl
  | leaf n e =>
    have := h.get (leafTarget n e va).1
    dsimp only
    cases h1 : g'.get (leafTarget n e va).1 <;> cases h2 : g.get (leafTarget n e va).1 <;> simp_all [Except.map]

theorem Rgn.Alike.place_ok {g g' : Rgn} (h : g.Alike g') {va off : Nat} {store : Bool} {r : Region}
    (hp : g'.place [] va store = .ok (r, off)) : ∃ r', g.place [] va store = .ok (r', off) ∧ r.key = r'.key := by
  have hmap := h.place va store
  rw [hp] at hmap
  cases hg : g.place [] va store with
  | error e => simp [hg, Except.map] at hmap
  | ok x =>
    obtain ⟨r', off'⟩ := x
    rw [hg] at hmap
    injection hmap with hmap
    injection hmap with hcold hoff
    subst hoff
    exact ⟨r', rfl, Region.key_of_cold hcold⟩

theorem Rgn.get_some {g : Rgn} {id : Nat} {r : Region} (h : g.get id = some r) : r.id = id := by
  simpa using List.find?_some h

/-- A region takes another heat. -/
theorem Rgn.put_alike {g : Rgn} {r r' : Region} (h : g.get r.id = some r) (hc : r'.cold = r.cold) : g.Alike (g.put r') := by
  have hid : r'.cold.id = r.cold.id := congrArg Region.id hc
  refine ⟨rfl, fun id => ?_⟩
  have hkey : ∀ x : Region, ((if x.id == r'.id then r' else x).id == id) = (x.id == id) := by
    intro x
    by_cases hx : x.id = r'.id <;> simp [hx]
  cases hg : g.get id with
  | none =>
    have : (g.put r').get id = none := by
      unfold Rgn.get Rgn.put at *
      rw [List.find?_map, Option.map_eq_none_iff]
      simpa only [Function.comp_def, hkey] using hg
    rw [this]
  | some x =>
    have hput : (g.put r').get id = some (if x.id == r'.id then r' else x) := find_map_of_find hkey hg
    rw [hput]
    split
    · rename_i hx
      have hrid : r.id = id := hid.symm.trans ((eq_of_beq hx).symm.trans (Rgn.get_some hg))
      obtain rfl : x = r := Option.some.inj (hg.symm.trans (hrid ▸ h))
      rw [Option.map_some, Option.map_some, hc]
    · rfl

theorem Rgn.promote_alike (g : Rgn) (id page : Nat) : g.Alike (g.promote id page) := by
  unfold Rgn.promote
  split
  · exact .refl g
  · dsimp only
    split
    · exact .refl g
    · split
      · exact .of_eq rfl rfl
      · split
        · exact .refl g
        · split
          · exact .of_eq rfl rfl
          · exact .refl g

theorem Rgn.Alike.foldl {α : Type} {f : Rgn → α → Rgn} (hf : ∀ g a, Rgn.Alike g (f g a)) (l : List α) (g : Rgn) :
    g.Alike (l.foldl f g) :=
  foldl_keeps (P := g.Alike) (fun g' a h => h.trans (hf g' a)) l g (.refl g)

theorem Rgn.promoteHot_alike (g : Rgn) : g.Alike g.promoteHot := by
  refine Rgn.Alike.foldl (fun g r => ?_) _ g
  split
  · exact .refl g
  · exact Rgn.Alike.foldl (fun g h => g.promote_alike _ _) _ g

theorem Rgn.writeAbandons_alike (g : Rgn) (id page : Nat) : g.Alike (g.writeAbandons id page) := by
  unfold Rgn.writeAbandons
  split
  · exact Rgn.Alike.trans (g' := g.abandonMigration id page) (.of_eq rfl rfl) (Rgn.promoteHot_alike _)
  · exact .refl g

theorem Region.heatUp_cold (r : Region) (off len : Nat) : (r.heatUp off len).cold = r.cold := by
  unfold Region.heatUp
  split <;> rfl

theorem State.heatAccess_alike (s : State) (id off len : Nat) : s.rgn.Alike (s.heatAccess id off len).rgn := by
  unfold State.heatAccess
  split
  · exact .refl _
  · rename_i r hr
    split
    · exact .refl _
    · exact (Rgn.put_alike (Rgn.get_some hr ▸ hr) (r.heatUp_cold off len)).trans
        (Rgn.Alike.foldl (fun g c => g.promote_alike _ _) _ _)

/-! ### What memory reads as afterwards -/

/-- `t` reads as `s` outside some keys, and translates alike. -/
structure Rewrites (W : Nat → Prop) (s t : State) : Prop where
  sound : t.Sound
  alike : s.rgn.Alike t.rgn
  bytes : SameBytes W s t

theorem Rewrites.refl {W : Nat → Prop} {s : State} (h : s.Sound) : Rewrites W s s := ⟨h, .refl _, fun _ _ => rfl⟩

theorem Rewrites.trans {W : Nat → Prop} {s t u : State} (h : Rewrites W s t) (k : Rewrites W t u) : Rewrites W s u :=
  ⟨k.sound, h.alike.trans k.alike, fun a ha => (k.bytes a ha).trans (h.bytes a ha)⟩

theorem Rewrites.mono {W V : Nat → Prop} {s t : State} (h : Rewrites W s t) (hv : ∀ a, W a → V a) : Rewrites V s t :=
  ⟨h.sound, h.alike, fun a ha => h.bytes a fun hw => ha (hv a hw)⟩

theorem SameData.rewrites {W : Nat → Prop} {s t : State} (h : SameData s t) (hs : s.Sound) (hr : s.rgn.Alike t.rgn) :
    Rewrites W s t := ⟨h.sound hs, hr, fun a _ => h.byte hs a⟩

/-- A state that keeps memory, regions and coherence directories reads the same. -/
theorem Keeps.rewrites {l : List Part} {W : Nat → Prop} {s t : State} (h : Keeps l s t) (hl : .mem ∉ l ∧ .rgn ∉ l ∧ .coh ∉ l)
    (hs : s.Sound) : Rewrites W s t := by
  have hrgn : t.rgn = s.rgn := h .rgn hl.2.1
  exact (h.sameData ⟨hl.1, hl.2.2⟩).rewrites hs (hrgn ▸ .refl _)

/-! ### Reads -/

/-- An agent's read of a part of a region reaches its lines. -/
def State.fetchPart (s : State) (r : Region) (c : Nat × Nat) : State :=
  ((s.cleanRange (r.key c.1) c.2).wakeRange (r.key c.1) c.2).placeKey r c.1 (r.key c.1) c.2

theorem State.fetchPart_data (s : State) (r : Region) (c : Nat × Nat) :
    SameData (s.cleanRange (r.key c.1) c.2) (s.fetchPart r c) := (State.wakeRange_data _ _ _).trans (State.placeKey_data _ _ _ _ _)

theorem State.fetchPart_rewrites {s : State} (h : s.Sound) (r : Region) (c : Nat × Nat) :
    Rewrites (fun _ => False) s (s.fetchPart r c) := by
  have hrgn : (s.fetchPart r c).rgn = s.rgn :=
    (((s.cleanRange_keeps _ _).mono (by decide)).trans (((State.wakeRange_keeps _ _ _).mono (by decide)).trans
      ((State.placeKey_keeps _ _ _ _ _).mono (by decide))) : Keeps [.mem, .coh] _ _) .rgn (by decide)
  refine Rewrites.trans (t := s.cleanRange (r.key c.1) c.2) ⟨State.cleanRange_sound h _ _, .refl _, fun a _ =>
    State.cleanRange_byte h _ _ a⟩ ?_
  exact (s.fetchPart_data r c).rewrites (State.cleanRange_sound h _ _) (hrgn ▸ .refl _)

/-- Once the parts have been reached, no core has modified their lines. -/
theorem State.fetchParts_spec (r : Region) : ∀ (cs : List (Nat × Nat)) {s : State}, s.Sound →
    Rewrites (fun _ => False) s (cs.foldl (fun s c => s.fetchPart r c) s)
      ∧ (∀ a, s.CleanAt a → (cs.foldl (fun s c => s.fetchPart r c) s).CleanAt a)
      ∧ ∀ c ∈ cs, ∀ a, r.key c.1 ≤ a → a < r.key c.1 + c.2 → (cs.foldl (fun s c => s.fetchPart r c) s).CleanAt a := by
  intro cs
  induction cs with
  | nil => exact fun {s} h => ⟨.refl h, fun _ ha => ha, by simp⟩
  | cons c cs ih =>
    intro s h
    have hstep := State.fetchPart_rewrites h r c
    have hdirty : (s.fetchPart r c).dirty = (s.cleanRange (r.key c.1) c.2).dirty := (s.fetchPart_data r c).dirty
    obtain ⟨hrest, hkeep, hparts⟩ := ih hstep.sound
    refine ⟨hstep.trans hrest, fun a ha => hkeep a (ha.mono fun x hx => ?_), fun x hx a hlo hhi => ?_⟩
    · rw [hdirty, State.cleanRange_dirty] at hx
      exact (List.mem_filter.1 hx).1
    · obtain rfl | hx := List.mem_cons.1 hx
      · refine hkeep a ((State.cleanRange_clean (mem_inRange hlo hhi) s).mono fun y hy => ?_)
        rwa [hdirty] at hy
      · exact hparts x hx a hlo hhi

theorem Mem.read_eq (m : Mem) (k n : Nat) : m.read k n = (upFrom k n).map m.byte := by
  unfold Mem.read
  split
  · rename_i hfree
    have hbyte : m.byte = m.cells.read := funext (Mem.byte_cells hfree)
    rw [hbyte]
    induction n generalizing k with
    | zero => rfl
    | succ n ih =>
      rw [Store.readN, ih]
      simp [upFrom, List.range_succ_eq_map, Function.comp_def, Nat.add_assoc, Nat.add_comm 1]
  · rfl

/-- The bytes of a range of a region, as agents read them. -/
def State.regionBytes (s : State) (r : Region) (off len : Nat) : Bytes :=
  (chunksOf off len).flatMap fun c => (upFrom (r.key c.1) c.2).map s.byte

theorem State.readRegion_spec {s : State} (h : s.Sound) (r : Region) (off len : Nat) :
    (s.readRegion r off len).1 = s.regionBytes r off len ∧ Rewrites (fun _ => False) s (s.readRegion r off len).2 := by
  obtain ⟨hrew, -, hclean⟩ := State.fetchParts_spec r (chunksOf off len) h
  refine ⟨?_, hrew.trans ?_⟩
  · show (r.chunks off len).flatMap (fun c => ((chunksOf off len).foldl (fun s c => s.fetchPart r c) s).mem.read c.1 c.2) = _
    rw [Region.chunks, List.flatMap_map, State.regionBytes]
    refine List.flatMap_congr fun c hc => ?_
    rw [Mem.read_eq]
    refine List.map_congr_left fun a ha => ?_
    obtain ⟨i, hi, rfl⟩ := List.mem_map.1 ha
    have hi := List.mem_range.1 hi
    rw [← (hclean c hc _ (by omega) (by omega)).byte hrew.sound]
    exact hrew.bytes _ not_false
  · exact ((State.heatAccess_keeps _ _ _ _).sameData (by decide)).rewrites hrew.sound (State.heatAccess_alike _ _ _ _)

/-- The bytes of one page's part of a range of device virtual addresses. -/
def State.chunkBytes (s : State) (c : Nat × Nat) : Bytes :=
  match s.spot c.1 false with
  | .ok (r, off) => s.regionBytes r off c.2
  | .error _ => zeros c.2

/-- The bytes of a range of device virtual addresses. -/
def State.vaBytes (s : State) (va len : Nat) : Bytes := (chunksOf va len).flatMap s.chunkBytes

theorem State.chunkBytes_congr {s t : State} (h : Rewrites (fun _ => False) s t) (c : Nat × Nat) :
    t.chunkBytes c = s.chunkBytes c := by
  have hbyte : t.byte = s.byte := funext fun a => h.bytes a not_false
  have hplace := h.alike.place c.1 false
  unfold State.chunkBytes State.spot
  cases ht : t.rgn.place [] c.1 false <;> cases hs : s.rgn.place [] c.1 false <;> rw [ht, hs] at hplace
  case error.ok => cases hplace
  case ok.error => cases hplace
  case ok.ok x y =>
    injection hplace with hplace
    injection hplace with hcold hoff
    simp only [State.regionBytes, hbyte, Region.key_of_cold hcold, hoff]

theorem State.vaBytes_congr {s t : State} (h : Rewrites (fun _ => False) s t) (va len : Nat) :
    t.vaBytes va len = s.vaBytes va len := by
  unfold State.vaBytes
  exact List.flatMap_congr fun c _ => State.chunkBytes_congr h c

/-- One page's part of a read. -/
def State.readChunk (a : Bytes × State) (c : Nat × Nat) : Bytes × State :=
  match a.2.spot c.1 false with
  | .ok (r, off) => (a.1 ++ (a.2.readRegion r off c.2).1, (a.2.readRegion r off c.2).2)
  | .error _ => (a.1 ++ zeros c.2, a.2)

theorem State.readChunk_spec {b : Bytes} {s : State} (h : s.Sound) (c : Nat × Nat) :
    (State.readChunk (b, s) c).1 = b ++ s.chunkBytes c ∧ Rewrites (fun _ => False) s (State.readChunk (b, s) c).2 := by
  unfold State.readChunk State.chunkBytes
  dsimp only
  cases s.spot c.1 false with
  | error e => exact ⟨rfl, .refl h⟩
  | ok x =>
    obtain ⟨hbytes, hrew⟩ := State.readRegion_spec h x.1 x.2 c.2
    exact ⟨congrArg (b ++ ·) hbytes, hrew⟩

/-- A read gives the bytes of its range, and changes none. -/
theorem State.readVa_spec {s : State} (h : s.Sound) (va len : Nat) :
    (s.readVa va len).1 = s.vaBytes va len ∧ Rewrites (fun _ => False) s (s.readVa va len).2 := by
  have hfold : ∀ (cs : List (Nat × Nat)) (b : Bytes) {t : State}, t.Sound →
      (cs.foldl State.readChunk (b, t)).1 = b ++ cs.flatMap t.chunkBytes
        ∧ Rewrites (fun _ => False) t (cs.foldl State.readChunk (b, t)).2 := by
    intro cs
    induction cs with
    | nil => exact fun b t ht => ⟨by simp, .refl ht⟩
    | cons c cs ih =>
      intro b t ht
      obtain ⟨hbytes, hrew⟩ := State.readChunk_spec (b := b) ht c
      rw [List.foldl_cons]
      generalize State.readChunk (b, t) c = x at hbytes hrew
      obtain ⟨b', u⟩ := x
      obtain rfl : b' = b ++ t.chunkBytes c := hbytes
      obtain ⟨hrest, hrew'⟩ := ih (b ++ t.chunkBytes c) hrew.sound
      refine ⟨hrest.trans ?_, hrew.trans hrew'⟩
      rw [List.append_assoc, List.flatMap_cons, List.flatMap_congr fun x _ => State.chunkBytes_congr hrew x]
  obtain ⟨hbytes, hrew⟩ := hfold (chunksOf va len) [] h
  exact ⟨hbytes.trans (List.nil_append _), hrew⟩

end Sys2Proof.Machine
end

section
/-! SUPPORT. An agent's writes by device virtual address: the keys that they reach, and what a read of the range then gives (R191,
R194, R234, R269, R270). -/

namespace Sys2Proof.Machine

/-! ### Writes -/

/-- `t` holds bytes from a key on, and reads as `s` elsewhere. -/
structure Stores (s : State) (k : Nat) (d : Bytes) (t : State) : Prop where
  sound : t.Sound
  alike : s.rgn.Alike t.rgn
  bytes : ∀ a, t.byte a = if k ≤ a ∧ a < k + d.length then d.getD (a - k) 0#8 else s.byte a

theorem Stores.rewrites {s t : State} {k : Nat} {d : Bytes} (h : Stores s k d t) {W : Nat → Prop}
    (hw : ∀ a, k ≤ a → a < k + d.length → W a) : Rewrites W s t :=
  ⟨h.sound, h.alike, fun a ha => (h.bytes a).trans (if_neg fun hin => ha (hw a hin.1 hin.2))⟩

/-- What leaves the data alone after a store leaves the store. -/
theorem Stores.trans_data {s t u : State} {k : Nat} {d : Bytes} (h : Stores s k d t) (hd : SameData t u)
    (hr : t.rgn.Alike u.rgn) : Stores s k d u :=
  ⟨hd.sound h.sound, h.alike.trans hr, fun a => (hd.byte h.sound a).trans (h.bytes a)⟩

theorem State.writeKey_stores {s : State} (h : s.Sound) (k : Nat) (d : Bytes) : Stores s k d (s.writeKey k d) := by
  let u : State := (s.invalRange k d.length).wakeRange k d.length
  let v : State := { u with mem := u.mem.write k d }
  have hdata : SameData (s.invalRange k d.length) u := State.wakeRange_data _ _ _
  have hinv := State.invalRange_sound h k d.length
  have hu : u.Sound := hdata.sound hinv
  have hv : v.Sound := ⟨Store.wf_writeN hu.wf _, hu.lines⟩
  have hbytes : ∀ a, v.byte a = if k ≤ a ∧ a < k + d.length then d.getD (a - k) 0#8 else s.byte a := by
    intro a
    have hub : u.byte a = s.byte a := (hdata.byte hinv a).trans (State.invalRange_byte h _ _ a)
    by_cases hin : k ≤ a ∧ a < k + d.length
    · have hclean : v.CleanAt a := by
        refine (State.cleanRange_clean (mem_inRange hin.1 hin.2) s).mono fun c hc => ?_
        rw [← s.invalRange_dirty, ← hdata.dirty]
        exact hc
      rw [if_pos hin, hclean.byte hv]
      exact (Mem.byte_write hu.wf k a d).trans (if_pos hin)
    · rw [if_neg hin, ← hub, State.byte_eq hv, State.byte_eq hu]
      exact congrArg (List.foldl (lineOver a) · _) ((Mem.byte_write hu.wf k a d).trans (if_neg hin))
  have hrgn : (s.writeKey k d).rgn = s.rgn := s.writeKey_keeps k d .rgn (by decide)
  have hcombine : SameData v (s.writeKey k d) := State.combineRange_data _ _ _
  exact ⟨hcombine.sound hv, hrgn ▸ .refl _, fun a => (hcombine.byte hv a).trans (hbytes a)⟩

theorem Stores.nil {s : State} (h : s.Sound) (k : Nat) : Stores s k [] s :=
  ⟨h, .refl _, fun a => (if_neg (by simp)).symm⟩

/-- A write within one page of a region. -/
theorem State.writeRegion_stores {s : State} (h : s.Sound) (r : Region) {off : Nat} {d : Bytes}
    (hpage : off % pageBytes + d.length ≤ pageBytes) : Stores s (r.key off) d (s.writeRegion r off d) := by
  have hheat : ∀ t : State, Stores s (r.key off) d t → Stores s (r.key off) d (t.heatAccess r.id off d.length) := fun t ht =>
    ht.trans_data ((State.heatAccess_keeps _ _ _ _).sameData (by decide)) (State.heatAccess_alike _ _ _ _)
  have habandon : ∀ (l : List (Nat × Nat)) (t : State), Stores s (r.key off) d t →
      Stores s (r.key off) d { t with rgn := l.foldl (fun g c => g.writeAbandons r.id (c.1 / pageBytes)) t.rgn } := fun l t ht =>
    ht.trans_data ⟨rfl, rfl, rfl, rfl⟩ (Rgn.Alike.foldl (fun g c => g.writeAbandons_alike _ _) l _)
  refine hheat _ (habandon _ _ ?_)
  rcases Nat.eq_zero_or_pos d.length with hd | hd
  · obtain rfl := List.eq_nil_of_length_eq_zero hd
    exact .nil h _
  · rw [chunksOf_one hd hpage]
    have hrgn : ((s.writeKey (r.key off) d).placeKey r off (r.key off) d.length).rgn = (s.writeKey (r.key off) d).rgn :=
      State.placeKey_keeps _ _ _ _ _ .rgn (by decide)
    have hkey := (State.writeKey_stores h (r.key off) d).trans_data (State.placeKey_data _ r off (r.key off) d.length) (hrgn ▸ .refl _)
    simpa using hkey

/-- A write to a range of device virtual addresses reaches a key. -/
def State.reaches (s : State) (va len key : Nat) : Prop :=
  ∃ c ∈ chunksOf va len, ∃ r off, s.spot c.1 true = .ok (r, off) ∧ r.key off ≤ key ∧ key < r.key off + c.2

theorem Rgn.Alike.reaches {s t : State} (h : s.rgn.Alike t.rgn) {va len key : Nat} (hr : t.reaches va len key) :
    s.reaches va len key := by
  obtain ⟨c, hc, r, off, hspot, hkey⟩ := hr
  obtain ⟨r', hspot', hr'⟩ := h.place_ok hspot
  exact ⟨c, hc, r', off, hspot', hr' ▸ hkey⟩

theorem State.spot_page {s : State} {a off : Nat} {store : Bool} {r : Region} (h : s.spot a store = .ok (r, off)) :
    off % pageBytes = a % pageBytes := by
  obtain ⟨q, hoff, -⟩ := Rgn.place_page h
  rw [hoff]
  unfold pageBytes
  omega

/-- One page's part of a write. -/
def State.writeChunk (a : State × Bytes) (c : Nat × Nat) : State × Bytes :=
  ((match a.1.spot c.1 true with
    | .ok (r, off) => a.1.writeRegion r off (a.2.take c.2)
    | .error _ => a.1), a.2.drop c.2)

theorem State.writeChunk_rewrites {W : Nat → Prop} {s : State} (h : s.Sound) {c : Nat × Nat}
    (hpage : c.1 % pageBytes + c.2 ≤ pageBytes)
    (hw : ∀ r off, s.spot c.1 true = .ok (r, off) → ∀ key, r.key off ≤ key → key < r.key off + c.2 → W key) (d : Bytes) :
    Rewrites W s (State.writeChunk (s, d) c).1 := by
  unfold State.writeChunk
  dsimp only
  cases hspot : s.spot c.1 true with
  | error e => exact .refl h
  | ok x =>
    have hlen : (d.take c.2).length ≤ c.2 := List.length_take_le _ _
    have hoff := State.spot_page hspot
    exact (State.writeRegion_stores h x.1 (by omega)).rewrites fun a hlo hhi => hw x.1 x.2 hspot a hlo (by omega)

/-- A write changes no byte but those that it reaches. -/
theorem State.writeVa_rewrites {W : Nat → Prop} {s : State} (h : s.Sound) (va : Nat) (d : Bytes)
    (hw : ∀ key, s.reaches va d.length key → W key) : Rewrites W s (s.writeVa va d) := by
  have hfold : ∀ (cs : List (Nat × Nat)) (b : Bytes) {t : State}, Rewrites W s t → (∀ c ∈ cs, c ∈ chunksOf va d.length) →
      Rewrites W s (cs.foldl State.writeChunk (t, b)).1 := by
    intro cs
    induction cs with
    | nil => exact fun b t ht _ => ht
    | cons c cs ih =>
      intro b t ht hcs
      have hc := hcs c List.mem_cons_self
      obtain ⟨-, -, -, hpage⟩ := mem_chunksOf hc
      refine ih _ (ht.trans (State.writeChunk_rewrites ht.sound hpage (fun r off hspot key hlo hhi => ?_) b))
        fun x hx => hcs x (List.mem_cons_of_mem _ hx)
      exact hw key (ht.alike.reaches ⟨c, hc, r, off, hspot, hlo, hhi⟩)
  exact hfold _ d (.refl h) fun _ hc => hc

/-- What has been written within one page is read back. -/
theorem State.writeVa_peek {s : State} (h : s.Sound) {va off : Nat} {d : Bytes} {r : Region}
    (hpage : va % pageBytes + d.length ≤ pageBytes) (hspot : s.spot va true = .ok (r, off)) :
    (s.writeVa va d).Sound ∧ (s.writeVa va d).vaBytes va d.length = d := by
  rcases Nat.eq_zero_or_pos d.length with hd | hd
  · obtain rfl := List.eq_nil_of_length_eq_zero hd
    have hnil : s.writeVa va [] = s := by simp [State.writeVa]
    rw [hnil]
    exact ⟨h, by simp [State.vaBytes]⟩
  · have hchunks := chunksOf_one hd hpage
    have hoff := State.spot_page hspot
    have heq : s.writeVa va d = s.writeRegion r off d := by
      simp [State.writeVa, hchunks, hspot]
    have hst := State.writeRegion_stores h r (off := off) (d := d) (by omega)
    have hload : s.spot va false = .ok (r, off) := Rgn.place_fewer (fun _ h => h) (by simp) hspot
    obtain ⟨r', hspot', hkey⟩ : ∃ r', (s.writeRegion r off d).spot va false = .ok (r', off) ∧ r.key = r'.key :=
      hst.alike.symm.place_ok hload
    rw [heq]
    refine ⟨hst.sound, ?_⟩
    rw [State.vaBytes, hchunks]
    simp only [List.flatMap_cons, List.flatMap_nil, List.append_nil, State.chunkBytes, hspot', State.regionBytes,
      chunksOf_one hd (show off % pageBytes + d.length ≤ pageBytes by omega), ← hkey]
    refine List.ext_getElem (by simp [upFrom]) fun i hi hi' => ?_
    simp only [upFrom, List.getElem_map, List.getElem_range]
    rw [hst.bytes, if_pos (by omega), Nat.add_sub_cancel_left, List.getD_eq_getElem _ _ hi']

/-- What a write inside an accessible range reaches, a store to the range writes. -/
theorem Accessible.storesTo {s : State} {pva plen va len key : Nat} (hacc : Accessible s pva plen true) (hlo : pva ≤ va)
    (hhi : va + len ≤ pva + plen) (h : s.reaches va len key) : s.storesTo pva plen key := by
  obtain ⟨c, hc, r, off, hspot, hklo, hkhi⟩ := h
  obtain ⟨hc1, hc2, -, hpage⟩ := mem_chunksOf hc
  obtain ⟨x, hx, hxlo, hxhi⟩ := chunksOf_cover (va := pva) (len := plen) (a := c.1 + (key - r.key off)) (by omega) (by omega)
  obtain ⟨-, -, -, hxpage⟩ := mem_chunksOf hx
  obtain ⟨r', off', -, hxlate⟩ := hacc.1 x hx
  have hplace : s.rgn.place [] x.1 true = .ok (r', off') := Rgn.place_fewer (fun _ _ => rfl) (fun h => h) hxlate
  obtain ⟨q, hoff', hall⟩ := Rgn.place_page hplace
  have hsame := hall c.1 (by unfold pageBytes at *; omega)
  rw [show s.rgn.place [] c.1 true = _ from hspot] at hsame
  injection hsame with hsame
  injection hsame with hr hoff
  have hlt : ∀ a : Nat, a % pageBytes < pageBytes := fun a => Nat.mod_lt _ (by decide)
  have hk := r'.key_page q (hlt c.1)
  have hk' := r'.key_page q (hlt x.1)
  rw [hr, hoff, hk] at hklo hkhi
  rw [hr, hoff, hk] at hxlo hxhi
  refine ⟨x, hx, r', off', hxlate, ?_, ?_⟩
  · rw [hoff', hk']
    unfold pageBytes at *
    omega
  · rw [hoff', hk']
    unfold pageBytes at *
    omega

end Sys2Proof.Machine
end

section
/-! SUPPORT. Tensors in memory: what reading tiles gives, and which keys writing them reaches (R63 to R70, R80 to R84). -/

namespace Sys2Proof.Machine

/-! ### An operation's work on the state -/

/-- Work on an instance: it changes the listed parts only, no byte outside some keys, and not how far any instance is. -/
structure Works (l : List Part) (W : Nat → Prop) (s t : State) : Prop where
  keeps : Keeps l s t
  inst : t.inst = s.inst
  rewrites : Rewrites W s t

theorem Works.refl {l : List Part} {W : Nat → Prop} {s : State} (h : s.Sound) : Works l W s s := ⟨.refl l s, rfl, .refl h⟩

theorem Works.trans {l : List Part} {W : Nat → Prop} {s t u : State} (h : Works l W s t) (k : Works l W t u) : Works l W s u :=
  ⟨h.keeps.trans k.keeps, k.inst.trans h.inst, h.rewrites.trans k.rewrites⟩

theorem Works.mono {l k : List Part} {W V : Nat → Prop} {s t : State} (h : Works l W s t) (hl : ∀ p ∈ l, p ∈ k)
    (hv : ∀ a, W a → V a) : Works k V s t := ⟨h.keeps.mono hl, h.inst, h.rewrites.mono hv⟩

/-- A fold of work on parts of what is at hand is work. -/
theorem Works.foldl {α : Type} {l : List Part} {W : Nat → Prop} {f : State → α → State} : ∀ {as : List α} {s : State}, s.Sound →
    (∀ t, Works l W s t → ∀ a ∈ as, Works l W t (f t a)) → Works l W s (as.foldl f s) := by
  intro as s h hf
  have hfold : ∀ (bs : List α) (t : State), Works l W s t → (∀ a ∈ bs, a ∈ as) → Works l W s (bs.foldl f t) := by
    intro bs
    induction bs with
    | nil => exact fun t ht _ => ht
    | cons b bs ih =>
      exact fun t ht hbs => ih _ (ht.trans (hf t ht b (hbs b List.mem_cons_self))) fun a ha => hbs a (List.mem_cons_of_mem _ ha)
  exact hfold as s (.refl h) fun _ ha => ha

theorem Keeps.inst {l : List Part} {s t : State} (h : Keeps l s t) (hl : .stp ∉ l) : t.inst = s.inst := by
  have hstp : t.stp = s.stp := h .stp hl
  unfold State.inst
  rw [hstp]

/-- What leaves the step alone is work wherever it leaves the bytes alone. -/
theorem Keeps.works {l : List Part} {W : Nat → Prop} {s t : State} (h : Keeps l s t) (hl : .stp ∉ l) (hr : Rewrites W s t) :
    Works l W s t := ⟨h, h.inst hl, hr⟩

/-- A change of the step that leaves its instances as they are. -/
theorem State.onStep_works {W : Nat → Prop} {s : State} (h : s.Sound) {f : Step → Step} (hf : ∀ st, (f st).insts = st.insts) :
    Works [.stp] W s (s.onStep f) where
  keeps := s.onStep_keeps f
  inst := by
    funext op mb
    simp only [State.inst, State.onStep, Step.inst]
    cases s.stp.active with
    | none => rfl
    | some st => simp only [Option.map_some, Option.bind_some, hf]
  rewrites := (s.onStep_keeps f).rewrites (by decide) h

theorem State.watchAdd_works {W : Nat → Prop} {s : State} (h : s.Sound) (desc conv sat : Nat) :
    Works [.stp] W s (s.watchAdd desc conv sat) :=
  State.onStep_works h fun st => by split <;> rfl

theorem State.nonfiniteAdd_works {W : Nat → Prop} {s : State} (h : s.Sound) (desc n : Nat) :
    Works [.stp] W s (s.nonfiniteAdd desc n) := by
  unfold State.nonfiniteAdd
  split
  · exact .refl h
  · exact State.onStep_works h fun _ => rfl

theorem State.addCounts_works {W : Nat → Prop} {s : State} (h : s.Sound) (ty op : Nat) (ns : List Nat) :
    Works [.stp] W s (s.addCounts ty op ns) := State.onStep_works h fun _ => rfl

/-! ### Reading tiles -/

@[simp] theorem State.regionBytes_length (s : State) (r : Region) (off len : Nat) : (s.regionBytes r off len).length = len := by
  rw [State.regionBytes, List.length_flatMap]
  simpa [upFrom] using chunksOf_sum off len

@[simp] theorem State.chunkBytes_length (s : State) (c : Nat × Nat) : (s.chunkBytes c).length = c.2 := by
  unfold State.chunkBytes
  split <;> simp

@[simp] theorem State.vaBytes_length (s : State) (va len : Nat) : (s.vaBytes va len).length = len := by
  rw [State.vaBytes, List.length_flatMap]
  simpa using chunksOf_sum va len

/-- The bytes of a tile record's side data. -/
def State.sideBytes (s : State) (t : TD) (idx : Nat) : Bytes :=
  if t.side = 0 then [] else s.vaBytes (t.recordAt idx).2 t.side

@[simp] theorem State.sideBytes_length (s : State) (t : TD) (idx : Nat) : (s.sideBytes t idx).length = t.side := by
  unfold State.sideBytes
  split
  · simpa using ‹t.side = 0›.symm
  · simp

/-- Reading a tile record gives its bytes, and changes none. -/
theorem State.readTile_spec {s : State} (h : s.Sound) (t : TD) (idx : Nat) :
    (s.readTile t idx).1 = s.vaBytes (t.recordAt idx).1 t.elems ∧ (s.readTile t idx).2.1 = s.sideBytes t idx
      ∧ Works [.mem, .coh, .rgn] (fun _ => False) s (s.readTile t idx).2.2 := by
  obtain ⟨hel, hrew⟩ := State.readVa_spec h (t.recordAt idx).1 t.elems
  have hworks := (s.readVa_keeps (t.recordAt idx).1 t.elems).works (by decide) hrew
  unfold State.readTile State.sideBytes
  dsimp only
  split
  · exact ⟨hel, rfl, hworks⟩
  · obtain ⟨hside, hrew'⟩ := State.readVa_spec hrew.sound (t.recordAt idx).2 t.side
    exact ⟨hel, hside.trans (State.vaBytes_congr hrew _ _), hworks.trans ((State.readVa_keeps _ _ _).works (by decide) hrew')⟩

/-- The values of a tile, where it is picked. -/
def State.tileAt (s : State) (keep : List Nat → Bool) (t : TD) (c : List Nat) : Array Val :=
  if keep c then
    t.tileVals c (s.vaBytes (t.recordAt (t.tileIndex c)).1 t.elems).toArray (s.sideBytes t (t.tileIndex c)).toArray
  else #[]

theorem State.tileAt_congr {s t : State} (h : Rewrites (fun _ => False) s t) : t.tileAt = s.tileAt := by
  funext keep d c
  simp only [State.tileAt, State.sideBytes, State.vaBytes_congr h]

/-- Reading the picked tiles of a tensor gives their values, and changes no byte. -/
theorem State.loadSome_spec {s : State} (h : s.Sound) (keep : List Nat → Bool) (t : TD) :
    (s.loadSome keep t).1 = ⟨t, t.tiles.foldl (fun a c => a.push (s.tileAt keep t c)) #[]⟩
      ∧ Works [.mem, .coh, .rgn] (fun _ => False) s (s.loadSome keep t).2 := by
  have hfold : ∀ (cs : List (List Nat)) (a : Array (Array Val)) (u : State), Works [.mem, .coh, .rgn] (fun _ => False) s u →
      ∃ v, cs.foldl (fun (a : Array (Array Val) × State) c =>
          if keep c then
            (a.1.push (t.tileVals c (a.2.readTile t (t.tileIndex c)).1.toArray (a.2.readTile t (t.tileIndex c)).2.1.toArray),
              (a.2.readTile t (t.tileIndex c)).2.2)
          else (a.1.push #[], a.2)) (a, u) = (cs.foldl (fun a c => a.push (s.tileAt keep t c)) a, v)
        ∧ Works [.mem, .coh, .rgn] (fun _ => False) s v := by
    intro cs
    induction cs with
    | nil => exact fun a u hu => ⟨u, rfl, hu⟩
    | cons c cs ih =>
      intro a u hu
      rw [List.foldl_cons, List.foldl_cons, State.tileAt]
      cases keep c with
      | false =>
        simp only [Bool.false_eq_true, if_false]
        exact ih _ u hu
      | true =>
        obtain ⟨hel, hside, hworks⟩ := State.readTile_spec hu.rewrites.sound t (t.tileIndex c)
        simp only [if_true, hel, hside]
        rw [State.vaBytes_congr hu.rewrites, show u.sideBytes t (t.tileIndex c) = s.sideBytes t (t.tileIndex c) by
          simp only [State.sideBytes, State.vaBytes_congr hu.rewrites]]
        have hnext := hu.trans hworks
        exact ih _ _ hnext
  obtain ⟨v, hv, hworks⟩ := hfold t.tiles #[] s (.refl h)
  unfold State.loadSome
  dsimp only
  rw [hv]
  dsimp only
  exact ⟨rfl, hworks⟩

/-- The value of a tensor that may be absent. -/
def State.optAt (s : State) (keep : List Nat → Bool) (t : Option TD) : Option Loaded :=
  t.map fun t => ⟨t, t.tiles.foldl (fun a c => a.push (s.tileAt keep t c)) #[]⟩

theorem State.loadOpt_spec {s : State} (h : s.Sound) (t : Option TD) (keep : List Nat → Bool) :
    (s.loadOpt t keep).1 = s.optAt keep t ∧ Works [.mem, .coh, .rgn] (fun _ => False) s (s.loadOpt t keep).2 := by
  cases t with
  | none =>
    have heq : s.loadOpt none keep = (none, s) := by simp only [State.loadOpt]
    rw [heq]
    exact ⟨rfl, .refl h⟩
  | some t =>
    have heq : s.loadOpt (some t) keep = (some (s.loadSome keep t).1, (s.loadSome keep t).2) := by
      simp only [State.loadOpt]
    obtain ⟨hval, hworks⟩ := State.loadSome_spec h keep t
    rw [heq, State.optAt, Option.map_some, ← hval]
    dsimp only
    exact ⟨rfl, hworks⟩

/-- Reading an instance's inputs gives their values, and changes no byte. -/
theorem State.loadAll_spec {s : State} (h : s.Sound) (keep : Keep) (ts : List (Option TD)) :
    (s.loadAll keep ts).1 = ts.zipIdx.map (fun t => s.optAt (keep t.2) t.1)
      ∧ Works [.mem, .coh, .rgn] (fun _ => False) s (s.loadAll keep ts).2 := by
  have hfold : ∀ (ts : List (Option TD × Nat)) (a : List (Option Loaded)) (u : State),
      Works [.mem, .coh, .rgn] (fun _ => False) s u →
      ∃ v, ts.foldl (fun (a : List (Option Loaded) × State) t =>
          (a.1 ++ [(a.2.loadOpt t.1 (keep t.2)).1], (a.2.loadOpt t.1 (keep t.2)).2)) (a, u)
            = (a ++ ts.map (fun t => s.optAt (keep t.2) t.1), v)
        ∧ Works [.mem, .coh, .rgn] (fun _ => False) s v := by
    intro ts
    induction ts with
    | nil => exact fun a u hu => ⟨u, by simp, hu⟩
    | cons t ts ih =>
      intro a u hu
      obtain ⟨hval, hworks⟩ := State.loadOpt_spec hu.rewrites.sound t.1 (keep t.2)
      obtain ⟨v, hv, hrest⟩ := ih (a ++ [s.optAt (keep t.2) t.1]) _ (hu.trans hworks)
      refine ⟨v, ?_, hrest⟩
      rw [List.foldl_cons, hval, show u.optAt (keep t.2) t.1 = s.optAt (keep t.2) t.1 by
        simp only [State.optAt, State.tileAt_congr hu.rewrites], hv]
      simp
  obtain ⟨v, hv, hworks⟩ := hfold ts.zipIdx [] s (.refl h)
  unfold State.loadAll
  dsimp only
  rw [hv]
  exact ⟨by simp, hworks⟩

/-- Memory that reads the same gives the same values. -/
theorem State.loadAll_congr {s t : State} (h : Rewrites (fun _ => False) s t) (hs : s.Sound) (keep : Keep) (ts : List (Option TD)) :
    (t.loadAll keep ts).1 = (s.loadAll keep ts).1 := by
  obtain ⟨hval, -⟩ := State.loadAll_spec hs keep ts
  obtain ⟨hval', -⟩ := State.loadAll_spec h.sound keep ts
  rw [hval, hval']
  simp only [State.optAt, State.tileAt_congr h]

/-! ### Writing tiles -/

/-- The parts that writing outputs changes. -/
def writeParts : List Part := [.out, .mem, .rgn, .coh, .stp]

/-- Every write inside one of the pieces reaches some keys only. -/
def State.Covers (s : State) (W : Nat → Prop) (ps : List Piece) : Prop :=
  ∀ x ∈ ps, ∀ va len, x.va ≤ va → va + len ≤ x.va + x.len → ∀ key, s.reaches va len key → W key

theorem State.Covers.after {W V : Nat → Prop} {s t : State} {ps : List Piece} (h : s.Covers W ps) (hr : Rewrites V s t) :
    t.Covers W ps :=
  fun x hx va len hlo hhi key hk => h x hx va len hlo hhi key (hr.alike.reaches hk)

theorem State.Covers.mono {W : Nat → Prop} {s : State} {ps qs : List Piece} (h : s.Covers W ps) (hq : ∀ x ∈ qs, x ∈ ps) :
    s.Covers W qs := fun x hx => h x (hq x hx)

theorem State.writeVa_works {W : Nat → Prop} {s : State} (h : s.Sound) (va : Nat) (d : Bytes)
    (hw : ∀ key, s.reaches va d.length key → W key) : Works writeParts W s (s.writeVa va d) :=
  ((s.writeVa_keeps va d).works (by decide) (State.writeVa_rewrites h va d hw)).mono (by decide) fun _ h => h

/-- Writing a tile record whose parts fit reaches its pieces only. -/
theorem State.writeTile_works {W : Nat → Prop} {s : State} (h : s.Sound) {t : TD} {idx : Nat} (hc : s.Covers W (t.recordPieces idx))
    {el sd : Bytes} (hel : el.length ≤ t.elems) (hsd : sd.length ≤ t.side) : Works writeParts W s (s.writeTile t idx el sd) := by
  have hpiece : (∃ x ∈ t.recordPieces idx, x.va = (t.recordAt idx).1 ∧ t.elems ≤ x.len)
      ∧ (t.side ≠ 0 → ∃ x ∈ t.recordPieces idx, x.va ≤ (t.recordAt idx).2 ∧ (t.recordAt idx).2 + t.side ≤ x.va + x.len) := by
    unfold TD.recordPieces TD.recordAt
    dsimp only
    split
    · exact ⟨⟨_, List.mem_singleton_self _, rfl, Nat.le_refl _⟩, fun h => absurd ‹_› h⟩
    · split
      · exact ⟨⟨_, List.mem_cons_self, rfl, Nat.le_refl _⟩, fun _ => ⟨_, List.mem_cons_of_mem _ List.mem_cons_self, Nat.le_refl _, Nat.le_refl _⟩⟩
      · exact ⟨⟨_, List.mem_singleton_self _, rfl, Nat.le_add_right _ _⟩,
          fun _ => ⟨_, List.mem_singleton_self _, Nat.le_add_right _ _, by dsimp only; omega⟩⟩
  obtain ⟨⟨x, hx, hxva, hxlen⟩, hside⟩ := hpiece
  have hfirst := State.writeVa_works h (t.recordAt idx).1 el (hc x hx _ _ (by omega) (by omega))
  unfold State.writeTile
  dsimp only
  split
  · exact hfirst
  · rename_i hne
    have hpos : 0 < sd.length := List.length_pos_iff.2 fun h0 => hne (by simp [h0])
    obtain ⟨y, hy, hylo, hyhi⟩ := hside (by omega)
    exact hfirst.trans (State.writeVa_works hfirst.rewrites.sound _ _
      ((hc.after hfirst.rewrites) y hy _ _ hylo (by omega)))

theorem packCodes_pairs_length : ∀ cs : List Nat, (packCodes.pairs cs).length = (cs.length + 1) / 2
  | [] => by simp [packCodes.pairs]
  | [_] => by simp [packCodes.pairs]
  | _ :: _ :: r => by
    simp only [packCodes.pairs, List.length_cons, packCodes_pairs_length r]
    omega

/-- The codes of a tile take no more than its element area. -/
theorem packCodes_length {f : Nat} {cs : List Nat} (h : cs.length = 16384) : (packCodes (formatBits f) cs).length ≤ elemBytes f := by
  have hbytes : ∀ b, (cs.flatMap (leBytes b)).length = 16384 * b := by
    intro b
    simp only [List.length_flatMap, leBytes_length, List.map_const', List.sum_replicate_nat, h]
  unfold packCodes elemBytes
  split
  · rename_i h4
    rw [h4, packCodes_pairs_length, h]
  · rw [hbytes]
    omega

@[simp] theorem TD.unblock_length (t : TD) (blocks : Array (Array Nat)) : (t.unblock blocks).length = 16384 := by
  simp [TD.unblock]

/-- An encoded tile fits its record. -/
theorem TD.encodeTile_fits (t : TD) (c : List Nat) (f : Nat → Nat → Val) :
    (t.encodeTile c f).1.length ≤ t.elems ∧ (t.encodeTile c f).2.1.length ≤ t.side := by
  unfold TD.encodeTile
  dsimp only
  split
  · rename_i hmode
    refine ⟨packCodes_length (by simp), ?_⟩
    simp only [List.length_map, List.length_range, TD.side, blockBytes, if_pos hmode]
    exact Nat.le_add_right _ _
  · exact ⟨packCodes_length (by simp), by simp⟩

/-- The values of a tile by its coordinates. -/
def tileFun (c : List Nat) (f : List Nat → Val) (r k : Nat) : Val :=
  f [128 * c.getD 0 0 + k, 128 * c.getD 1 0 + r, c.getD 2 0, c.getD 3 0, c.getD 4 0, c.getD 5 0]

/-- Writing an encoded tile of a tensor reaches the tensor's pieces only. -/
theorem State.writeEncoded_works {W : Nat → Prop} {s : State} (h : s.Sound) {t : TD} (hc : s.Covers W t.spans) {c : List Nat}
    (hmem : c ∈ t.tiles) (f : Nat → Nat → Val) :
    Works writeParts W s (s.writeTile t (t.tileIndex c) (t.encodeTile c f).1 (t.encodeTile c f).2.1) :=
  State.writeTile_works h (hc.mono fun _ hx => List.mem_flatMap.2 ⟨c, hmem, hx⟩) (t.encodeTile_fits c f).1 (t.encodeTile_fits c f).2

theorem State.storeGrove_works {W : Nat → Prop} {s : State} (h : s.Sound) {t : TD} (hc : s.Covers W t.spans) (p : Plan)
    (op slot : Nat) (f : List Nat → Val) : Works writeParts W s (s.storeGrove p op slot t f) := by
  refine Works.foldl h fun u hu c hmem => ?_
  have hwrite := State.writeEncoded_works hu.rewrites.sound (hc.after hu.rewrites) hmem (tileFun c f)
  have hwatch := State.watchAdd_works (W := W) hwrite.rewrites.sound ((p.op op).outs.getD slot absent)
    (t.encodeTile c (tileFun c f)).2.2.1 (t.encodeTile c (tileFun c f)).2.2.2
  exact (hwrite.trans (hwatch.mono (by decide) fun _ h => h)).trans
    ((State.nonfiniteAdd_works hwatch.rewrites.sound _ _).mono (by decide) fun _ h => h)

theorem State.storeOut_works {W : Nat → Prop} {s : State} (h : s.Sound) {t : TD} (hc : s.Covers W t.spans) (p : Plan)
    (op slot : Nat) (f : List Nat → Val) : Works writeParts W s (s.storeOut p op slot t f) := by
  have hfold : ∀ (cs : List (List Nat)) (a : State × Nat × Nat), (∀ c ∈ cs, c ∈ t.tiles) → Works writeParts W s a.1 →
      Works writeParts W s (cs.foldl (fun (a : State × Nat × Nat) c =>
        (a.1.writeTile t (t.tileIndex c) (t.encodeTile c (tileFun c f)).1 (t.encodeTile c (tileFun c f)).2.1,
          a.2.1 + (t.encodeTile c (tileFun c f)).2.2.1, a.2.2 + (t.encodeTile c (tileFun c f)).2.2.2)) a).1 := by
    intro cs
    induction cs with
    | nil => exact fun a _ ha => ha
    | cons c cs ih =>
      exact fun a hcs ha => ih _ (fun x hx => hcs x (List.mem_cons_of_mem _ hx)) (ha.trans (State.writeEncoded_works
        ha.rewrites.sound (hc.after ha.rewrites) (hcs c List.mem_cons_self) (tileFun c f)))
  have htiles := hfold t.tiles (s, 0, 0) (fun _ hc => hc) (.refl h)
  exact htiles.trans ((State.watchAdd_works htiles.rewrites.sound _ _ _).mono (by decide) fun _ h => h)

end Sys2Proof.Machine
end

section
/-! SUPPORT. Accesses that nothing obstructs: an instance that makes them goes on, and only its translation cache has changed
(R242, R245, R247, R326). -/

namespace Sys2Proof.Machine

/-! ### An access that can proceed -/

/-- `t` obstructs no access that `s` lets proceed: it translates alike, and no more lines are poisoned. -/
structure NoHarder (s t : State) : Prop where
  tbl : t.rgn.tbl = s.rgn.tbl
  regions : t.rgn.regions = s.rgn.regions
  coh : t.coh = s.coh
  poison : ∀ l ∈ t.mem.poison, l ∈ s.mem.poison

theorem NoHarder.trans {s t u : State} (h : NoHarder s t) (k : NoHarder t u) : NoHarder s u :=
  ⟨k.tbl.trans h.tbl, k.regions.trans h.regions, k.coh.trans h.coh, fun l hl => h.poison l (k.poison l hl)⟩

theorem Keeps.noHarder {l : List Part} {s t : State} (h : Keeps l s t) (hl : .mem ∉ l ∧ .rgn ∉ l ∧ .coh ∉ l) : NoHarder s t := by
  have hmem : t.mem = s.mem := h .mem hl.1
  have hrgn : t.rgn = s.rgn := h .rgn hl.2.1
  exact ⟨by rw [hrgn], by rw [hrgn], h .coh hl.2.2, fun l hl => hmem ▸ hl⟩

theorem NoHarder.xlate {s t : State} (h : NoHarder s t) {va : Nat} {store : Bool} {x : Region × Nat}
    (hx : s.xlate va store = .ok x) : t.xlate va store = .ok x := by
  have hplace : t.xlate va store = s.rgn.place t.mem.poison va store := by
    simp only [State.xlate, Rgn.place, Rgn.walk, Rgn.get, h.tbl, h.regions]
  rw [hplace]
  refine Rgn.place_fewer (fun l hl => ?_) (fun h => h) hx
  rw [← Bool.not_eq_true, List.contains_iff_mem] at hl ⊢
  exact fun hm => hl (h.poison l hm)

/-- An access that can proceed translates on every page. -/
theorem State.accessChunk_ok {s : State} {store : Bool} {c : Nat × Nat} (h : s.accessChunk store c = .ok) :
    ∃ x, s.xlate c.1 store = .ok x := by
  unfold State.accessChunk at h
  cases hx : s.xlate c.1 store with
  | error k => simp [hx] at h
  | ok x => exact ⟨x, rfl⟩

theorem NoHarder.accessChunk {s t : State} (h : NoHarder s t) {store : Bool} {c : Nat × Nat} (hc : s.accessChunk store c = .ok) :
    t.accessChunk store c = .ok := by
  obtain ⟨x, hx⟩ := State.accessChunk_ok hc
  unfold State.accessChunk at hc ⊢
  simp only [hx] at hc
  simp only [h.xlate hx, h.coh]
  split at hc
  · cases hc
  · rename_i h1
    rw [if_neg h1]
    split at hc
    · cases hc
    · rename_i h2
      rw [if_neg h2]
      split at hc
      · cases hc
      · rename_i h3
        rw [if_neg h3]
        split at hc
        · rename_i h4
          rw [if_pos h4]
        · rename_i h4
          rw [if_neg h4]
          have hnone : s.mem.poisonIn (x.1.key x.2) c.2 = none := by
            cases hp : s.mem.poisonIn (x.1.key x.2) c.2 with
            | none => rfl
            | some l => simp [hp] at hc
          have hnone' : t.mem.poisonIn (x.1.key x.2) c.2 = none := by
            unfold Mem.poisonIn at *
            rw [List.find?_eq_none] at *
            exact fun l hl => hnone l (h.poison l hl)
          rw [hnone']

theorem State.access_ok {s : State} {va len : Nat} {store : Bool} :
    s.access va len store = .ok ↔ ∀ c ∈ chunksOf va len, s.accessChunk store c = .ok := by
  unfold State.access
  constructor
  · intro h c hc
    dsimp only at h
    split at h
    · rename_i f hf
      obtain ⟨x, -, hx⟩ := List.exists_of_findSome?_eq_some hf
      split at hx
      · subst h
        cases hx
      · cases hx
    · split at h
      · rename_i f hf
        obtain ⟨x, -, hx⟩ := List.exists_of_findSome?_eq_some hf
        split at hx
        · cases hx
        · rename_i hne
          subst h
          exact absurd (Option.some.inj hx) hne
      · rename_i hnone
        have := List.findSome?_eq_none_iff.1 hnone c hc
        split at this
        · assumption
        · cases this
  · intro h
    dsimp only
    rw [List.findSome?_eq_none_iff.2 fun c hc => by
      obtain ⟨x, hx⟩ := State.accessChunk_ok (h c hc)
      rw [hx]]
    rw [List.findSome?_eq_none_iff.2 fun c hc => by rw [h c hc]]

theorem NoHarder.access {s t : State} (h : NoHarder s t) {va len : Nat} {store : Bool} (ha : s.access va len store = .ok) :
    t.access va len store = .ok :=
  State.access_ok.2 fun c hc => h.accessChunk (State.access_ok.1 ha c hc)

theorem NoHarder.accessIn {s t : State} (h : NoHarder s t) (cache : Nat) {va len : Nat} {store : Bool}
    (ha : s.access va len store = .ok) : t.accessIn cache va len store = .ok := by
  unfold State.accessIn
  split
  · refine NoHarder.access (s := s) (h.trans ?_) ha
    exact ⟨rfl, rfl, rfl, fun l hl => List.mem_of_mem_filter hl⟩
  · exact h.access ha

/-! ### An instance goes on -/

/-- An agent has looked addresses up: its translation cache has changed. -/
def Looked (s t : State) : Prop := ∃ tc, t = { s with rgn := { s.rgn with tcache := tc } }

theorem Looked.refl (s : State) : Looked s s := ⟨s.rgn.tcache, rfl⟩

theorem Looked.trans {s t u : State} (h : Looked s t) (k : Looked t u) : Looked s u := by
  obtain ⟨a, rfl⟩ := h
  obtain ⟨b, rfl⟩ := k
  exact ⟨b, rfl⟩

theorem Looked.noHarder {s t : State} (h : Looked s t) : NoHarder s t := by
  obtain ⟨tc, rfl⟩ := h
  exact ⟨rfl, rfl, rfl, fun _ hl => hl⟩

theorem Looked.works {W : Nat → Prop} {s t : State} (h : Looked s t) (hs : s.Sound) : Works [.rgn] W s t := by
  obtain ⟨tc, rfl⟩ := h
  have hkeeps : Keeps [.rgn] s { s with rgn := { s.rgn with tcache := tc } } := .of_patch rfl
  exact hkeeps.works (by decide) ((hkeeps.sameData (by decide)).rewrites hs (.of_eq rfl rfl))

theorem State.look_looked (s : State) (cache va : Nat) : Looked s (s.look cache va) := by
  unfold State.look
  split
  · exact .refl s
  · split
    · unfold Rgn.fillCache
      split
      · exact .refl s
      · exact ⟨_, rfl⟩
    · exact .refl s

/-- Where no page faults, an agent's accesses only fill its cache. -/
theorem State.resolveCount_looked {s : State} {cache : Nat} {a : Nat × Nat × Bool} (h : s.access a.1 a.2.1 a.2.2 = .ok) :
    ∃ t, s.resolveCount cache a = some t ∧ Looked s t := by
  have hstep : ∀ (u : State) (c : Nat × Nat), Looked s u → c ∈ chunksOf a.1 a.2.1 → ∃ x, u.xlate c.1 false = .ok x := by
    intro u c hu hc
    obtain ⟨x, hx⟩ := State.accessChunk_ok (State.access_ok.1 h c hc)
    exact ⟨x, hu.noHarder.xlate (Rgn.place_fewer (fun _ h => h) (by simp) hx)⟩
  unfold State.resolveCount
  have hfold : ∀ (cs : List (Nat × Nat)) (u : State), Looked s u → (∀ c ∈ cs, c ∈ chunksOf a.1 a.2.1) →
      ∃ t, cs.foldlM (fun s c =>
        if (s.rgn.cached cache c.1).isSome then some s
        else (match s.xlate c.1 false with
          | .error 1 => (s.rgn.resolve c.1).map fun g => (s.withTables g).count 0x602 (cacheHalf cache)
          | _ => some s).map fun (s : State) => s.look cache c.1) u = some t ∧ Looked s t := by
    intro cs
    induction cs with
    | nil => exact fun u hu _ => ⟨u, rfl, hu⟩
    | cons c cs ih =>
      intro u hu hcs
      obtain ⟨x, hx⟩ := hstep u c hu (hcs c List.mem_cons_self)
      have hrest : ∀ v, Looked s v → _ := fun v hv => ih v hv fun y hy => hcs y (List.mem_cons_of_mem _ hy)
      rw [List.foldlM_cons]
      split
      · exact hrest u hu
      · rw [hx]
        exact hrest _ (hu.trans (u.look_looked cache c.1))
  exact hfold _ s (.refl s) fun _ hc => hc

/-- An instance whose accesses nothing obstructs goes on. -/
theorem State.permit_ok {s : State} {op mb cache : Nat} {accs : List (Nat × Nat × Bool)}
    (h : ∀ a ∈ accs, s.access a.1 a.2.1 a.2.2 = .ok) : ∃ t, s.permit op mb cache accs = (t, true) ∧ Looked s t := by
  have hfold : ∀ (as : List (Nat × Nat × Bool)) (u : State), Looked s u → (∀ a ∈ as, a ∈ accs) →
      ∃ t, as.foldlM (fun s a => s.resolveCount cache a) u = some t ∧ Looked s t := by
    intro as
    induction as with
    | nil => exact fun u hu _ => ⟨u, rfl, hu⟩
    | cons a as ih =>
      intro u hu has
      obtain ⟨v, hv, hlook⟩ := State.resolveCount_looked (cache := cache) (hu.noHarder.access (h a (has a List.mem_cons_self)))
      rw [List.foldlM_cons, hv]
      exact ih v (hu.trans hlook) fun y hy => has y (List.mem_cons_of_mem _ hy)
  have hfree : ∀ (as : List (Nat × Nat × Bool)) (t : State), Looked s t → (∀ a ∈ as, a ∈ accs) → t.firstObstacle cache as = none := by
    intro as
    induction as with
    | nil => exact fun t _ _ => rfl
    | cons a as ih =>
      intro t ht has
      unfold State.firstObstacle
      rw [ht.noHarder.accessIn cache (h a (has a List.mem_cons_self))]
      exact ih t ht fun y hy => has y (List.mem_cons_of_mem _ hy)
  obtain ⟨t, ht, hlook⟩ := hfold accs s (.refl s) fun _ ha => ha
  refine ⟨t, ?_, hlook⟩
  unfold State.permit
  rw [ht]
  dsimp only
  rw [hfree accs t hlook fun _ ha => ha]

end Sys2Proof.Machine
end

section
/-! SUPPORT. An instance at work, from its entry to its end, and the work of the vector operations, which stays in their outputs
(R150 to R154, R326). -/

namespace Sys2Proof.Machine

/-! ### An instance at work -/

theorem State.Inv.sound {s : State} (h : s.Inv) : s.Sound := ⟨h.mem, h.lines⟩

/-- An instance is at work: so far no byte has changed, only the listed parts. -/
structure Begun (l : List Part) (op mb : Nat) (s v : State) : Prop where
  keeps : Keeps l s v
  inst : v.inst op mb = some .issued
  rewrites : Rewrites (fun _ => False) s v

theorem State.enter_begun {s u : State} {st : Step} {p : Plan} {code op mb : Nat} (hs : s.Sound)
    (h : s.enter code op mb = some (u, st, p)) : Begun [.stp, .obs] op mb s u := by
  obtain ⟨hinst, hkeeps⟩ := State.enter_some h
  exact ⟨hkeeps, hinst, hkeeps.rewrites (by decide) hs⟩

theorem Begun.step {l k m : List Part} {op mb : Nat} {s v w : State} (h : Begun l op mb s v) (hw : Works k (fun _ => False) v w)
    (hl : ∀ p ∈ l, p ∈ m) (hk : ∀ p ∈ k, p ∈ m) : Begun m op mb s w :=
  ⟨(h.keeps.mono hl).trans (hw.keeps.mono hk), hw.inst ▸ h.inst, h.rewrites.trans hw.rewrites⟩

/-- An agent's accesses are permitted where nothing obstructs them. -/
theorem Begun.permit {l m : List Part} {op mb : Nat} {s v : State} (h : Begun l op mb s v) (hv : NoHarder s v) (cache : Nat)
    {accs : List (Nat × Nat × Bool)} (ha : ∀ a ∈ accs, Accessible s a.1 a.2.1 a.2.2) (hl : ∀ p ∈ l, p ∈ m)
    (hm : .rgn ∈ m) : ∃ w, v.permit op mb cache accs = (w, true) ∧ Begun m op mb s w := by
  obtain ⟨w, hw, hlook⟩ := State.permit_ok (op := op) (mb := mb) (cache := cache) fun a h => hv.access (ha a h).2.1
  exact ⟨w, hw, h.step (hlook.works h.rewrites.sound) hl (by simpa using hm)⟩

theorem State.setInst_at {s : State} {op mb : Nat} {x : InstState} (h : s.inst op mb = some x) (y : InstState) :
    (s.setInst op mb y).inst op mb = some y := by
  simp only [State.inst, Option.map_eq_some_iff, Option.bind_eq_some_iff] at h
  obtain ⟨i, ⟨st, hact, hi⟩, -⟩ := h
  exact State.setInst_inst hact hi y

/-- The work of an instance done: its bytes, its parts and its state. -/
theorem Begun.ends {l k m : List Part} {W : Nat → Prop} {op mb : Nat} {s v w : State} (h : Begun l op mb s v)
    (hw : Works k W v w) (hl : ∀ p ∈ l, p ∈ m) (hk : ∀ p ∈ k, p ∈ m) (hm : .stp ∈ m) (y : InstState) :
    (w.setInst op mb y).inst op mb = some y ∧ SameBytes W s (w.setInst op mb y) ∧ Keeps m s (w.setInst op mb y) := by
  have hstp : Keeps [.stp] w (w.setInst op mb y) := w.onStep_keeps _
  have hrew : Rewrites W s (w.setInst op mb y) :=
    ((h.rewrites.mono (fun _ h => h.elim)).trans hw.rewrites).trans (hstp.rewrites (by decide) hw.rewrites.sound)
  exact ⟨State.setInst_at (hw.inst ▸ h.inst) y, hrew.bytes,
    ((h.keeps.mono hl).trans (hw.keeps.mono hk)).trans (hstp.mono (by simpa using hm))⟩

/-! ### The bytes of its outputs -/

/-- Writes inside any of the tensors reach some keys only. -/
def State.CoversAll (s : State) (W : Nat → Prop) (ts : List (Option TD)) : Prop := ∀ t, some t ∈ ts → s.Covers W t.spans

theorem State.CoversAll.after {W V : Nat → Prop} {s t : State} {ts : List (Option TD)} (h : s.CoversAll W ts)
    (hr : Rewrites V s t) : t.CoversAll W ts := fun o ho => (h o ho).after hr

theorem mem_optAccs {ts : List (Option TD)} {t : TD} (ht : some t ∈ ts) {store : Bool} {a : Nat × Nat × Bool}
    (ha : a ∈ t.accs store) : a ∈ optAccs ts store := List.mem_flatMap.2 ⟨some t, ht, ha⟩

/-- Where its outputs are accessible, what an instance writes in them reaches their bytes only. -/
theorem State.coversAll_of_accessible {s : State} {ts : List (Option TD)}
    (h : ∀ a ∈ optAccs ts true, Accessible s a.1 a.2.1 a.2.2) : s.CoversAll (optBytes s ts) ts := by
  intro t ht x hx va len hlo hhi key hk
  have hacc : Accessible s x.va x.len true := h _ (mem_optAccs ht (List.mem_map_of_mem (f := fun p : Piece => (p.va, p.len, true)) hx))
  exact ⟨t, ht, x, hx, hacc.storesTo hlo hhi hk⟩

/-- A one-event operation's work writes its outputs and nothing else. -/
def WritesOutputs (work : Bulk → State → State) : Prop :=
  ∀ (W : Nat → Prop) (b : Bulk) (s : State), s.Sound → s.CoversAll W b.outs → Works writeParts W s (work b s)

theorem State.storeGroveOpt_works {W : Nat → Prop} {s : State} (h : s.Sound) {b : Bulk} (hc : s.CoversAll W b.outs) (p : Plan)
    (op slot j : Nat) (f : List Nat → Val) : Works writeParts W s (s.storeGroveOpt p op slot (b.out j) f) := by
  unfold State.storeGroveOpt
  split
  · rename_i t ht
    refine State.storeGrove_works h (hc t ?_) p op slot f
    unfold Bulk.out at ht
    rw [List.getD_eq_getElem?_getD] at ht
    cases hj : b.outs[j]? with
    | none => simp [hj] at ht
    | some o =>
      obtain rfl : o = some t := by simpa [hj] using ht
      exact List.mem_of_getElem? hj
  · exact .refl h

theorem writesOutputs_two (op : Nat) (f g : Bulk → List Nat → Val) :
    WritesOutputs fun b s => (s.storeGroveOpt b.p op 0 (b.out 0) (f b)).storeGroveOpt b.p op 1 (b.out 1) (g b) := by
  intro W b s h hc
  have hfirst := State.storeGroveOpt_works h hc b.p op 0 0 (f b)
  exact hfirst.trans (State.storeGroveOpt_works hfirst.rewrites.sound (hc.after hfirst.rewrites) _ _ _ _ _)

/-- A count in the step record after the work leaves the work. -/
theorem WritesOutputs.counted {work : Bulk → State → State} (h : WritesOutputs work) (ty op : Nat) (n : Bulk → List Nat) :
    WritesOutputs fun b s => (work b s).addCounts ty op (n b) := fun W b s hs hc =>
  (h W b s hs hc).trans ((State.addCounts_works (h W b s hs hc).rewrites.sound _ _ _).mono (by decide) fun _ h => h)

theorem Bulk.elementwise_writes (op : Nat) : WritesOutputs fun b s => b.elementwise op s :=
  writesOutputs_two op (fun b e => d32 ((b.run op e).getD 14 0)) fun b e => d32 ((b.run op e).getD 15 0)

theorem Bulk.reduce_writes (op : Nat) : WritesOutputs fun b s => b.reduce op s := by
  intro W b s h hc
  exact writesOutputs_two op (fun _ => _) (fun _ => _) W b s h hc

theorem Bulk.gather_writes (op : Nat) : WritesOutputs fun b s => b.gather op s := by
  intro W b s h hc
  exact (writesOutputs_two op (fun _ => _) (fun _ => _)).counted 0x08 op (fun _ => _) W b s h hc

theorem Bulk.scatter_writes (op : Nat) : WritesOutputs fun b s => b.scatter op s := by
  intro W b s h hc
  exact (writesOutputs_two op (fun _ => _) (fun _ => _)).counted 0x08 op (fun _ => _) W b s h hc

end Sys2Proof.Machine
end

section
/-! SUPPORT. An operation that runs in one event on the vector engine: what it leaves, what a one-tile output of it holds, and the
work of each of them (R150 to R154, R159 to R162, R169 to R171, R179, R182, R326). -/

namespace Sys2Proof.Machine

/-! ### One event -/

/-- The accesses of an instance are to its inputs and outputs. -/
theorem mem_bulkAccs {keep : Keep} {ins outs : List (Option TD)} {a : Nat × Nat × Bool} (h : a ∈ bulkAccs keep ins outs) :
    a ∈ optAccs ins false ++ optAccs outs true := by
  obtain h | h := List.mem_append.1 h
  · obtain ⟨x, hx, ha⟩ := List.mem_flatMap.1 h
    obtain ⟨-, -, hmem⟩ := List.mem_zipIdx hx
    split at ha
    · rename_i t ht
      have ht' : some t ∈ ins := by
        rw [← ht, hmem]
        exact List.getElem_mem _
      obtain ⟨y, hy, rfl⟩ := List.mem_map.1 ha
      obtain ⟨c, hc, hpiece⟩ := List.mem_flatMap.1 hy
      exact List.mem_append_left _ (mem_optAccs ht' (List.mem_map_of_mem (List.mem_flatMap.2 ⟨c, List.mem_of_mem_filter hc, hpiece⟩)))
    · simp at ha
  · obtain ⟨o, ho, ha⟩ := List.mem_flatMap.1 h
    split at ha
    · exact List.mem_append_right _ (mem_optAccs ho ha)
    · simp at ha

/-- The parts that an operation on the vector engine changes. -/
def bulkParts : List Part := [.out, .fresh, .aon, .mem, .rgn, .coh, .stp, .eng, .obs]

/-- An instance whose tensors are accessible does its work on what memory holds. -/
theorem State.bulkSome_runs {s u : State} {st : Step} {p : Plan} {code op mb : Nat} {pl : Place} (hs : s.Sound)
    (henter : s.enter code op mb = some (u, st, p)) (hgrove : s.groveStopped pl.grove = false)
    (hacc : ∀ a ∈ optAccs (p.insOf op mb) false ++ optAccs (p.outsOf op mb) true, Accessible s a.1 a.2.1 a.2.2)
    (keep : Plan → State → Keep) (work : Bulk → State → State) :
    ∃ x v, s.bulkSome code op mb pl keep work
        = (work ⟨p, st, (s.loadAll (keep p x) (p.insOf op mb)).1, p.outsOf op mb⟩ v).computed op mb
      ∧ Begun bulkParts op mb s v := by
  have hu := State.enter_begun hs henter
  have htask := u.startTask_keeps pl op mb
  have hv : Begun bulkParts op mb s (u.startTask pl op mb) :=
    hu.step (htask.works (by decide) (htask.rewrites (by decide) hu.rewrites.sound)) (by decide) (by decide)
  have hharder : NoHarder s (u.startTask pl op mb) := (hu.keeps.noHarder (by decide)).trans (htask.noHarder (by decide))
  obtain ⟨w, hw, hbegun⟩ := hv.permit hharder pl.grove
    (accs := bulkAccs (keep p (u.startTask pl op mb)) (p.insOf op mb) (p.outsOf op mb))
    (fun a ha => hacc a (mem_bulkAccs ha)) (fun _ h => h) (by decide)
  obtain ⟨-, hload⟩ := State.loadAll_spec hbegun.rewrites.sound (keep p w) (p.insOf op mb)
  refine ⟨w, (w.loadAll (keep p w) (p.insOf op mb)).2, ?_, hbegun.step hload (fun _ h => h) (by decide)⟩
  unfold State.bulkSome
  rw [if_neg (by simp [hgrove]), henter]
  dsimp only
  rw [hw]
  dsimp only
  rw [State.loadAll_congr hbegun.rewrites hs]

/-- What every operation of the vector engine does: its work is done with OK, and no byte outside its outputs changes. -/
theorem State.bulkSome_spec {s u : State} {st : Step} {p : Plan} {code op mb : Nat} {pl : Place} (hs : s.Sound)
    (henter : s.enter code op mb = some (u, st, p)) (hgrove : s.groveStopped pl.grove = false)
    (hacc : ∀ a ∈ optAccs (p.insOf op mb) false ++ optAccs (p.outsOf op mb) true, Accessible s a.1 a.2.1 a.2.2)
    (keep : Plan → State → Keep) {work : Bulk → State → State} (hwork : WritesOutputs work) :
    (s.bulkSome code op mb pl keep work).inst op mb = some (.computed cOK)
      ∧ SameBytes (optBytes s (p.outsOf op mb)) s (s.bulkSome code op mb pl keep work)
      ∧ Keeps bulkParts s (s.bulkSome code op mb pl keep work) := by
  obtain ⟨x, v, heq, hbegun⟩ := State.bulkSome_runs hs henter hgrove hacc keep work
  have hcovers := State.coversAll_of_accessible fun a ha => hacc a (List.mem_append_right _ ha)
  rw [heq]
  exact hbegun.ends (hwork _ _ v hbegun.rewrites.sound (hcovers.after hbegun.rewrites)) (fun _ h => h) (by decide) (by decide) _

/-! ### What a one-tile output holds -/

/-- The bytes of a tile without per-block data can be read back once the tensor has been written. -/
theorem State.storeGrove_peek {v : State} (hv : v.Sound) {o : TD} {c : List Nat} {va off : Nat} {el : Bytes} {r : Region}
    (p : Plan) (op slot : Nat) {f : List Nat → Val} (htiles : o.tiles = [c]) (hmode : o.mode = 0)
    (hva : va = (o.recordAt (o.tileIndex c)).1) (hel : el = (o.encodeTile c (tileFun c f)).1)
    (hspot : v.spot va true = .ok (r, off)) (hpage : va % pageBytes + el.length ≤ pageBytes) :
    (v.storeGrove p op slot o f).Sound ∧ (v.storeGrove p op slot o f).vaBytes va el.length = el := by
  have hside : (o.encodeTile c (tileFun c f)).2.1 = [] := by
    unfold TD.encodeTile
    simp [hmode]
  obtain ⟨hsound, hpeek⟩ := State.writeVa_peek hv hpage hspot
  have hwatch := State.watchAdd_works (W := fun _ => False) hsound ((p.op op).outs.getD slot absent)
    (o.encodeTile c (tileFun c f)).2.2.1 (o.encodeTile c (tileFun c f)).2.2.2
  have hrest := hwatch.rewrites.trans (State.nonfiniteAdd_works hwatch.rewrites.sound ((p.op op).outs.getD slot absent)
    (o.nonfiniteIn c (o.encodeTile c (tileFun c f)).1 (o.encodeTile c (tileFun c f)).2.1)).rewrites
  have heq : v.storeGrove p op slot o f = ((v.writeVa va el).watchAdd ((p.op op).outs.getD slot absent)
      (o.encodeTile c (tileFun c f)).2.2.1 (o.encodeTile c (tileFun c f)).2.2.2).nonfiniteAdd ((p.op op).outs.getD slot absent)
      (o.nonfiniteIn c (o.encodeTile c (tileFun c f)).1 (o.encodeTile c (tileFun c f)).2.1) := by
    have hwrite : v.writeTile o (o.tileIndex c) (o.encodeTile c (tileFun c f)).1 (o.encodeTile c (tileFun c f)).2.1
        = v.writeVa va el := by
      unfold State.writeTile
      rw [hside, hva, hel]
      rfl
    rw [← hwrite]
    unfold State.storeGrove
    rw [htiles]
    rfl
  rw [heq]
  exact ⟨hrest.sound, (State.vaBytes_congr hrest _ _).trans hpeek⟩

theorem TD.elems_pos (t : TD) : 0 < t.elems := by
  unfold TD.elems elemBytes formatBits
  split_ifs <;> decide

/-- An accessible tensor's tiles are in their places. -/
theorem Accessible.spot_tile {s : State} {o : TD} {c : List Nat} (hc : c ∈ o.tiles)
    (h : ∀ a ∈ o.accs true, Accessible s a.1 a.2.1 a.2.2) :
    ∃ r off, s.spot (o.recordAt (o.tileIndex c)).1 true = .ok (r, off) := by
  obtain ⟨x, hx, hxva, hpos⟩ : ∃ x ∈ o.recordPieces (o.tileIndex c), x.va = (o.recordAt (o.tileIndex c)).1 ∧ 0 < x.len := by
    have := o.elems_pos
    unfold TD.recordPieces
    dsimp only
    split
    · exact ⟨_, List.mem_cons_self, rfl, this⟩
    · split
      · exact ⟨_, List.mem_cons_self, rfl, this⟩
      · exact ⟨_, List.mem_cons_self, rfl, Nat.lt_add_right _ this⟩
  have hacc := h _ (List.mem_map_of_mem (f := fun p : Piece => (p.va, p.len, true)) (List.mem_flatMap.2 ⟨c, hc, hx⟩))
  obtain ⟨y, hy, hlo, -⟩ := chunksOf_cover (va := x.va) (len := x.len) (a := x.va) (Nat.le_refl _) (by omega)
  obtain ⟨r, off, -, hxlate⟩ := hacc.1 y hy
  obtain ⟨hle, -⟩ := mem_chunksOf hy
  have hva : y.1 = (o.recordAt (o.tileIndex c)).1 := hxva ▸ Nat.le_antisymm hlo hle
  exact ⟨r, off, hva ▸ Rgn.place_fewer (fun _ _ => rfl) (fun h => h) hxlate⟩

/-- An operation that writes one tile, and reads all of its inputs, leaves the tile's bytes. -/
theorem State.bulkAt_peek {s u : State} {st : Step} {p : Plan} {code op mb : Nat} {pl : Place} {o : TD} {c : List Nat} {va : Nat}
    {el : Bytes} {f : List Nat → Val} (hs : s.Sound) (henter : s.enter code op mb = some (u, st, p))
    (hgrove : s.groveStopped pl.grove = false)
    (hacc : ∀ a ∈ optAccs (p.insOf op mb) false ++ optAccs (p.outsOf op mb) true, Accessible s a.1 a.2.1 a.2.2)
    (hout : some o ∈ p.outsOf op mb) (htiles : o.tiles = [c]) (hmode : o.mode = 0)
    (hva : va = (o.recordAt (o.tileIndex c)).1) (hel : el = (o.encodeTile c (tileFun c f)).1)
    (hpage : va / pageBytes = (va + el.length - 1) / pageBytes) {work : Bulk → State → State}
    (hwork : ∀ v, work ⟨p, st, (s.loadAll (fun _ _ => true) (p.insOf op mb)).1, p.outsOf op mb⟩ v = v.storeGrove p op 0 o f) :
    (s.bulkAt code op mb pl work).peekVa va el.length = el := by
  obtain ⟨x, v, heq, hbegun⟩ := State.bulkSome_runs hs henter hgrove hacc (fun _ _ _ _ => true) work
  obtain ⟨r, off, hspot⟩ := Accessible.spot_tile (htiles ▸ List.mem_singleton_self c)
    fun a ha => hacc a (List.mem_append_right _ (mem_optAccs hout ha))
  obtain ⟨r', hspot', -⟩ := hbegun.rewrites.alike.symm.place_ok hspot
  obtain ⟨hsound, hpeek⟩ := State.storeGrove_peek hbegun.rewrites.sound p op 0 htiles hmode hva hel (hva ▸ hspot')
    (by unfold pageBytes at *; omega)
  rw [State.bulkAt, heq, hwork, State.peekVa]
  have hdone : Rewrites (fun _ => False) (v.storeGrove p op 0 o f) ((v.storeGrove p op 0 o f).computed op mb) :=
    (State.onStep_keeps _ _).rewrites (by decide) hsound
  rw [(State.readVa_spec hdone.sound _ _).1, State.vaBytes_congr hdone, hpeek]

/-! ### The work of each operation -/

/-- The work of ACT_BACKWARD (R179). -/
def actWork (op : Nat) (b : Bulk) (s : State) : State :=
  match b.inp 0, b.inp 1 with
  | some dy, some v => s.storeGroveOpt b.p op 0 (b.out 0) fun e =>
      d32 (actBack (bits (byteAt (b.p.param op) 0) 5 3) (bit (byteAt (b.p.param op) 0) 2) (fld (b.p.param op) 4 4) (dy.at32 e)
        (v.at32 e))
  | _, _ => s

/-- The work of GRAD_GATHER (R182). -/
def gradWork (op : Nat) (b : Bulk) (s : State) : State :=
  match (b.ins.take (byteAt (b.p.param op) 0)).filterMap id with
  | a :: r => s.storeGroveOpt b.p op 0 (b.out 0) fun e => d32 (r.foldl (fun y l => fadd y (l.at32 e)) (a.at32 e))
  | [] => s

theorem actWork_writes (op : Nat) : WritesOutputs (actWork op) := by
  intro W b s h hc
  unfold actWork
  split
  · exact State.storeGroveOpt_works h hc _ _ _ _ _
  · exact .refl h

theorem gradWork_writes (op : Nat) : WritesOutputs (gradWork op) := by
  intro W b s h hc
  unfold gradWork
  split
  · exact State.storeGroveOpt_works h hc _ _ _ _ _
  · exact .refl h

/-- A command of an operation that runs in one event on the vector engine. -/
inductive RunsBulk (s : State) (op mb : Nat) (pl : Place) : Instr → Nat → Prop
  | elementwise : s.vecMode op = some 0 → RunsBulk s op mb pl (.vectorElementwise op mb pl) 0x20
  | reduce : s.vecMode op = some 1 → RunsBulk s op mb pl (.vectorReduce op mb pl) 0x20
  | gather : s.vecMode op = some 2 → RunsBulk s op mb pl (.vectorGather op mb pl) 0x20
  | scatter : s.vecMode op = some 3 → RunsBulk s op mb pl (.vectorScatter op mb pl) 0x20
  | actBackward : RunsBulk s op mb pl (.actBackward op mb pl) 0x21
  | gradGather : RunsBulk s op mb pl (.gradGather op mb pl) 0x22
  | pool : RunsBulk s op mb pl (.pool op mb pl) 0x11
  | boxDecode : RunsBulk s op mb pl (.boxDecode op mb pl) 0x12
  | suppress : RunsBulk s op mb pl (.suppress op mb pl) 0x13

theorem State.vector_mode {s : State} {mode op : Nat} (h : s.vecMode op = some mode) (mb : Nat) (pl : Place)
    (work : Bulk → State → State) (keep : Plan → State → Keep) :
    s.vector mode op mb pl work keep = s.bulkSome 0x20 op mb pl keep work := by
  unfold State.vector
  rw [if_pos (by rw [h]; exact beq_self_eq_true _)]

/-- Such a command reads tiles of its inputs and writes its outputs. -/
theorem RunsBulk.exec {s : State} {op mb code : Nat} {pl : Place} {cmd : Instr} (h : RunsBulk s op mb pl cmd code) :
    ∃ keep work, Machine.exec cmd s = .next (s.bulkSome code op mb pl keep work) ∧ WritesOutputs work := by
  cases h with
  | elementwise hm => exact ⟨_, _, congrArg Host.Outcome.next (State.vector_mode hm mb pl _ _), Bulk.elementwise_writes op⟩
  | reduce hm => exact ⟨_, _, congrArg Host.Outcome.next (State.vector_mode hm mb pl _ _), Bulk.reduce_writes op⟩
  | gather hm => exact ⟨_, _, congrArg Host.Outcome.next (State.vector_mode hm mb pl _ _), Bulk.gather_writes op⟩
  | scatter hm => exact ⟨_, _, congrArg Host.Outcome.next (State.vector_mode hm mb pl _ _), Bulk.scatter_writes op⟩
  | actBackward => exact ⟨_, actWork op, rfl, actWork_writes op⟩
  | gradGather => exact ⟨_, gradWork op, rfl, gradWork_writes op⟩
  | pool =>
    refine ⟨_, _, rfl, fun W b v hv hc => ?_⟩
    dsimp only
    split
    · exact State.storeGroveOpt_works hv hc _ _ _ _ _
    · exact State.storeGroveOpt_works hv hc _ _ _ _ _
    · exact .refl hv
  | boxDecode =>
    refine ⟨_, _, rfl, fun W b v hv hc => ?_⟩
    dsimp only
    split
    · exact State.storeGroveOpt_works hv hc _ _ _ _ _
    · exact .refl hv
  | suppress =>
    refine ⟨_, _, rfl, fun W b v hv hc => ?_⟩
    dsimp only
    split
    · exact (writesOutputs_two op (fun _ => _) (fun _ => _)).counted 0x07 op (fun _ => _) W b v hv hc
    · exact .refl hv

end Sys2Proof.Machine
end

section
/-! SUPPORT. The count of failed flow contexts: neither the end of an instance nor what a local hold sets going changes it
(R387, R634). -/

namespace Sys2Proof.Machine

/-! ### Verdicts and holds -/

theorem Keeps.ctxFailed {l : List Part} {s t : State} (h : Keeps l s t) (hl : .fab ∉ l) : t.fab.ctxFailed = s.fab.ctxFailed := by
  have hfab : t.fab = s.fab := h .fab hl
  rw [hfab]

theorem State.endStep_ctxFailed (s : State) (code cls : Nat) (lsNext : Int) :
    (s.endStep code cls lsNext).fab.ctxFailed = s.fab.ctxFailed := by
  unfold State.endStep
  split
  · rfl
  · dsimp only
    refine ((State.raise_keeps _ _ _ _ _ _).ctxFailed (by decide)).trans ?_
    split
    · rfl
    · exact (State.abortQueued_keeps _).ctxFailed (by decide)

theorem State.commitStep_ctxFailed (s : State) (v : Verdict) : (s.commitStep v).fab.ctxFailed = s.fab.ctxFailed := by
  unfold State.commitStep
  split
  · rfl
  · refine (State.endStep_ctxFailed _ _ _ _).trans ?_
    refine ((State.phaseEnd_keeps _ _).ctxFailed (by decide)).trans ?_
    refine ((State.policy_keeps _ _ _).ctxFailed (by decide)).trans ?_
    exact (s.phaseStart_keeps 8).ctxFailed (by decide)

theorem State.clipRound_ctxFailed (s : State) (st : Step) (k : Nat) : (s.clipRound st k).fab.ctxFailed = s.fab.ctxFailed := by
  unfold State.clipRound
  split
  · rfl
  · refine foldl_keeps (P := fun t : State => t.fab.ctxFailed = s.fab.ctxFailed) (fun t d ht => ?_) _ s rfl
    refine Eq.trans ?_ ht
    split
    · split
      · exact (State.redoFails_keeps _ _ _ _).ctxFailed (by decide)
      · exact (State.recompute_keeps _ _ _ _ _ _ _ _).ctxFailed (by decide)
    · rfl

theorem State.nextRound_ctxFailed (s : State) (st : Step) (k : Option Nat) :
    (s.nextRound st k).fab.ctxFailed = s.fab.ctxFailed := (s.phaseStart_keeps 7).ctxFailed (by decide)

theorem State.nextClip_ctxFailed (s : State) (st : Step) (v : Verdict) : (s.nextClip st v).fab.ctxFailed = s.fab.ctxFailed :=
  (State.clipRound_ctxFailed _ _ _).trans (s.nextRound_ctxFailed st (some (fdiv v.clip v.norm)))

theorem State.decideVerdict_ctxFailed (s : State) (v : Verdict) (watch : List WatchEntry) :
    (s.decideVerdict v watch).fab.ctxFailed = s.fab.ctxFailed := by
  cases hact : s.stp.active with
  | none =>
    unfold State.decideVerdict
    rw [hact]
  | some st =>
    rw [State.decideVerdict_eq hact]
    refine Eq.trans ?_ ((s.noteVerdict_keeps st v watch).ctxFailed (by decide))
    cases v.rule with
    | commit => exact State.commitStep_ctxFailed _ v
    | skip | hold => exact (State.endStep_ctxFailed _ _ _ _).trans ((State.policy_keeps _ _ _).ctxFailed (by decide))
    | clip => exact State.nextClip_ctxFailed _ _ _
    | referee c =>
      refine ((State.onStep_keeps _ _).ctxFailed (by decide)).trans (((State.refereeRound_keeps _).ctxFailed (by decide)).trans ?_)
      cases c with
      | true => exact State.nextClip_ctxFailed _ _ _
      | false => exact State.nextRound_ctxFailed _ _ _

theorem Moved.ctxFailed {s t : State} {round : Nat} {v : Verdict} {w : List WatchEntry} (h : Moved s round v w t) :
    t.fab.ctxFailed = s.fab.ctxFailed := by
  cases h with
  | stands os axis sent => rfl
  | decides os => exact State.decideVerdict_ctxFailed _ v w

theorem State.verdictMove_ctxFailed {s t : State} (h : s.verdictMove = some t) : t.fab.ctxFailed = s.fab.ctxFailed := by
  obtain ⟨st, r, -, -, ⟨w, hm⟩ | ⟨-, m, v, w, hm⟩⟩ := State.verdictMove_cases h
  · exact hm.ctxFailed
  · exact hm.ctxFailed

theorem verdictMoves_ctxFailed : ∀ (n : Nat) (s : State), (verdictMoves n s).fab.ctxFailed = s.fab.ctxFailed := by
  intro n
  induction n with
  | zero => exact fun _ => rfl
  | succ n ih =>
    intro s
    unfold verdictMoves
    split
    · rename_i t ht
      exact (ih t).trans (State.verdictMove_ctxFailed ht)
    · rfl

theorem State.vote_ctxFailed (s : State) (v : Verdict) (clear : Bool) : (s.vote v clear).fab.ctxFailed = s.fab.ctxFailed := by
  cases h : s.stp.active with
  | none =>
    unfold State.vote
    rw [h]
  | some st =>
    rw [State.vote_eq h, verdictMoves_ctxFailed]
    exact (s.voted_keeps v clear st).ctxFailed (by decide)

theorem State.localHold_ctxFailed (s : State) (code : Nat) : (s.localHold code).fab.ctxFailed = s.fab.ctxFailed := by
  obtain h | ⟨f, h⟩ | h | ⟨st, -, h⟩ := s.localHold_cases code <;> rw [h]
  · rfl
  · unfold State.endFree
    split
    · rfl
    · exact State.endStep_ctxFailed _ _ _ _
  · exact State.vote_ctxFailed _ _ _

/-! ### An instance that fails -/

theorem State.endTasks_keeps (s : State) (op mb : Nat) : Keeps [.eng, .obs] s (s.endTasks op mb) := by
  unfold State.endTasks
  exact ((s.engOnly_keeps _).mono (by decide)).trans
    (Keeps.foldl (fun t k => (State.trace_keeps _ _ _ _ _ _ _).mono (by decide)) _ _)

theorem State.instDone_keeps (s : State) (op mb code : Nat) : Keeps [.mem, .stp, .eng, .obs] s (s.instDone op mb code) := by
  have hdone : Keeps [.mem, .stp, .eng, .obs] s (((s.fence.setInst op mb (.done code)).trace 0 false 0x02 uRanger 0
      (leBytes 2 op ++ leBytes 1 mb ++ leBytes 1 code)).endTasks op mb) :=
    Keeps.trans (.of_patch rfl) ((State.endTasks_keeps _ _ _).mono (by decide))
  unfold State.instDone
  dsimp only
  split
  · exact hdone
  · split
    · exact hdone
    · split
      · exact hdone.trans ((State.phaseEnd_keeps _ _).mono (by decide))
      · exact hdone

theorem State.instFails_ctxFailed (s : State) (op mb code : Nat) : (s.instFails op mb code).fab.ctxFailed = s.fab.ctxFailed :=
  (State.localHold_ctxFailed _ _).trans ((s.instDone_keeps op mb code).ctxFailed (by decide))

/-- A request on a reserved context that reaches nobody fails one context (R387). -/
theorem State.askFails_ctxFailed (s : State) (op mb dst : Nat) : (s.askFails op mb dst).fab.ctxFailed = s.fab.ctxFailed + 1 :=
  State.instFails_ctxFailed (s.ctxFailNote dst) op mb cINTERNAL

end Sys2Proof.Machine
end

section
/-! SUPPORT. What a MOVE writes: its copies and sums stay in the destination, whether the tiles are the device's own or came from
a peer (R204 to R207). -/

namespace Sys2Proof.Machine

/-! ### Tile records in another layout -/

theorem TD.packBits_length (b : Nat) {l : List Nat} (h : l.length = 16384) : (TD.recast.packBits b l).length = 2048 * b := by
  simp only [TD.recast.packBits, List.length_flatMap, leBytes_length, List.map_const', List.sum_replicate_nat, List.length_range, h]

/-- A record in another layout fits the destination's record, with the source's side data. -/
theorem TD.recast_fits (t u : TD) (c : List Nat) (el side : Bytes) :
    (t.recast u c el side).1.length ≤ u.elems ∧ (t.recast u c el side).2.length = side.length := by
  unfold TD.recast
  dsimp only
  constructor
  · split
    · rw [TD.packBits_length _ (by simp)]
      exact Nat.le_refl _
    · exact packCodes_length (by simp)
  · split
    · simp only [List.length_append, List.length_map, List.length_zipIdx, List.length_take, List.length_drop]
      omega
    · rfl

/-! ### Copies and sums on the device -/

theorem State.addTile_works {W : Nat → Prop} {s : State} (h : s.Sound) {u : TD} (hc : s.Covers W u.spans) {c : List Nat}
    (hmem : c ∈ u.tiles) (t : TD) (el : Bytes) : Works writeParts W s (s.addTile u c t el) := by
  obtain ⟨-, -, hread⟩ := State.readTile_spec h u (u.tileIndex c)
  have hread := hread.mono (k := writeParts) (V := W) (by decide) (fun _ h => h.elim)
  have hcovers : (s.readTile u (u.tileIndex c)).2.2.Covers W (u.recordPieces (u.tileIndex c)) :=
    (hc.after hread.rewrites).mono fun x hx => List.mem_flatMap.2 ⟨c, hmem, hx⟩
  exact hread.trans (State.writeTile_works (sd := []) hread.rewrites.sound hcovers (packCodes_length (by simp)) (Nat.zero_le _))

theorem State.copyTiles_works {W : Nat → Prop} {s : State} (h : s.Sound) {x o : TD} (hc : s.Covers W o.spans)
    (hside : x.side = o.side) (blk : Bytes) (add : Bool) : Works writeParts W s (s.copyTiles blk add x o) := by
  refine Works.foldl h fun t ht c hmem => ?_
  obtain ⟨-, hsd, hread⟩ := State.readTile_spec ht.rewrites.sound x (x.tileIndex (moveFrom blk c))
  have hread := hread.mono (k := writeParts) (V := W) (by decide) (fun _ h => h.elim)
  have hcovers := (hc.after ht.rewrites).after hread.rewrites
  cases add with
  | true => exact hread.trans (State.addTile_works hread.rewrites.sound hcovers hmem _ _)
  | false =>
    obtain ⟨hel, hlen⟩ := x.recast_fits o c (t.readTile x (x.tileIndex (moveFrom blk c))).1
      (t.readTile x (x.tileIndex (moveFrom blk c))).2.1
    exact hread.trans (State.writeTile_works hread.rewrites.sound (hcovers.mono fun _ hx => List.mem_flatMap.2 ⟨c, hmem, hx⟩) hel
      (by rw [hlen, hsd, State.sideBytes_length, hside]))

/-! ### Copies from a peer -/

/-- Lengths of the pieces of a tile record. -/
def TD.pieceLens (t : TD) : List Nat :=
  if t.side = 0 then [t.elems] else if t.trailing then [t.elems, t.side] else [t.elems + t.side]

theorem TD.recordPieces_lens (t : TD) (idx : Nat) : (t.recordPieces idx).map (·.len) = t.pieceLens := by
  unfold TD.recordPieces TD.pieceLens
  dsimp only
  split
  · rfl
  · split <;> rfl

theorem TD.pieceLens_sum (t : TD) : t.pieceLens.sum = t.elems + t.side := by
  unfold TD.pieceLens
  split
  · rename_i h
    simp [h]
  · split <;> simp

/-- Pieces of a tile record that come from a peer. -/
def TD.pieceCount (t : TD) : Nat := if t.side ≠ 0 && t.trailing then 2 else 1

theorem TD.pieceLens_length (t : TD) : t.pieceLens.length = t.pieceCount := by
  unfold TD.pieceLens TD.pieceCount
  by_cases hs : t.side = 0 <;> cases t.trailing <;> simp [hs]

/-- A run of equal parts, cut at a part's start, begins with it. -/
theorem take_drop_flatten_replicate {α : Type} (l : List α) : ∀ (m i : Nat), i < m →
    ((List.replicate m l).flatten.drop (l.length * i)).take l.length = l := by
  intro m
  induction m with
  | zero => intro i h; omega
  | succ m ih =>
    intro i h
    rw [List.replicate_succ, List.flatten_cons]
    cases i with
    | zero => simp
    | succ i =>
      rw [Nat.mul_succ, Nat.add_comm, ← List.drop_drop, List.drop_left]
      exact ih i (by omega)

/-- The side data in what has come for a tile are those of a record. -/
theorem TD.splitRecord_side {x o : TD} {blk : Bytes} {ds : List Bytes}
    (hlens : ds.map List.length = (movePieces blk x o).map (·.len)) {i : Nat} (hi : i < o.tiles.length) :
    (splitRecord x ((ds.drop (x.pieceCount * i)).take x.pieceCount)).2.length = x.side := by
  have hall : ds.map List.length = (List.replicate o.tiles.length x.pieceLens).flatten := by
    rw [hlens, movePieces, List.map_flatMap]
    simp only [TD.recordPieces_lens]
    rw [List.flatMap_def, List.map_const']
  have hpart : ((ds.drop (x.pieceCount * i)).take x.pieceCount).map List.length = x.pieceLens := by
    rw [List.map_take, List.map_drop, hall, ← x.pieceLens_length]
    exact take_drop_flatten_replicate _ _ i hi
  have hflat : ((ds.drop (x.pieceCount * i)).take x.pieceCount).flatten.length = x.elems + x.side := by
    rw [List.length_flatten, hpart, x.pieceLens_sum]
  unfold splitRecord
  rw [List.length_drop, hflat]
  omega

/-- The destination written from a peer's answers. -/
def State.pullTiles (s : State) (x o : TD) (ds : List Bytes) : State :=
  o.tiles.zipIdx.foldl (fun s c =>
    let r := splitRecord x ((ds.drop (x.pieceCount * c.2)).take x.pieceCount)
    let y := x.recast o c.1 r.1 r.2
    s.writeTile o (o.tileIndex c.1) y.1 y.2) s

theorem State.pullTiles_works {W : Nat → Prop} {s : State} (h : s.Sound) {x o : TD} (hc : s.Covers W o.spans)
    (hside : x.side = o.side) {blk : Bytes} {ds : List Bytes} (hlens : ds.map List.length = (movePieces blk x o).map (·.len)) :
    Works writeParts W s (s.pullTiles x o ds) := by
  refine Works.foldl h fun t ht c hmem => ?_
  obtain ⟨-, hi, htile⟩ := List.mem_zipIdx hmem
  have hctile : c.1 ∈ o.tiles := by
    rw [htile]
    exact List.getElem_mem _
  obtain ⟨hel, hlen⟩ := x.recast_fits o c.1 (splitRecord x ((ds.drop (x.pieceCount * c.2)).take x.pieceCount)).1
    (splitRecord x ((ds.drop (x.pieceCount * c.2)).take x.pieceCount)).2
  refine State.writeTile_works ht.rewrites.sound ((hc.after ht.rewrites).mono fun _ hx => List.mem_flatMap.2 ⟨c.1, hctile, hx⟩) hel ?_
  rw [hlen, TD.splitRecord_side hlens (by omega), hside]

end Sys2Proof.Machine
end

section
/-! SUPPORT. MOVE: on the device in one event, from a peer in pieces asked for and answered, to a peer when everything sent is
acknowledged (R204 to R207, R272, R387, R421). -/

namespace Sys2Proof.Machine

/-! ### MOVE -/

theorem mem_optAccs_singleton {t : TD} {store : Bool} {a : Nat × Nat × Bool} (h : a ∈ optAccs [some t] store) : a ∈ t.accs store := by
  simpa [optAccs] using h

theorem State.covers_of_accessible {s : State} {o : TD} (h : ∀ a ∈ o.accs true, Accessible s a.1 a.2.1 a.2.2) :
    s.Covers (optBytes s [some o]) o.spans :=
  State.coversAll_of_accessible (fun a ha => h a (mem_optAccs_singleton ha)) o List.mem_cons_self

theorem execMove_begins {s u : State} {st : Step} {p : Plan} {op mb : Nat} {x o : TD}
    (henter : s.enter 0x60 op mb = some (u, st, p)) (hin : p.inTd op 0 mb = some x) (hout : p.outTd op 0 mb = some o) :
    exec (.move op mb none) s = .next (u.moveBegins st p op mb x o) := by
  show execMove op mb none s = _
  simp only [execMove, henter, hin, hout]

/-- A MOVE on the device runs in one event (R204, R205). -/
theorem moveLocal_spec {s u : State} {st : Step} {p : Plan} {op mb : Nat} {x o : TD} (hs : s.Sound)
    (henter : s.enter 0x60 op mb = some (u, st, p)) (hpo : p.peerOut op = false) (hpi : p.peerIn op = false)
    (hin : p.inTd op 0 mb = some x) (hout : p.outTd op 0 mb = some o) (hside : x.side = o.side)
    (hacc : ∀ a ∈ (movePieces (p.param op) x o).map (fun r => (r.va, r.len, false)) ++ o.accs false ++ o.accs true,
      Accessible s a.1 a.2.1 a.2.2) :
    ∃ t, exec (.move op mb none) s = .next t ∧ t.inst op mb = some (.computed cOK) ∧ SameBytes (optBytes s [some o]) s t
      ∧ Keeps [.out, .mem, .rgn, .coh, .stp, .obs] s t := by
  have hu := State.enter_begun hs henter
  obtain ⟨v, hv, hbegun⟩ := hu.permit (hu.keeps.noHarder (by decide)) (agentCache 0) (m := [.rgn, .stp, .obs])
    (accs := (movePieces (p.param op) x o).map (fun r => (r.va, r.len, false))
      ++ (if bit (byteAt (p.param op) 0) 2 then o.accs false else []) ++ o.accs true) (fun a ha => hacc a (by
        simp only [List.mem_append] at ha ⊢
        obtain (ha | ha) | ha := ha
        · exact .inl (.inl ha)
        · split at ha
          · exact .inl (.inr ha)
          · simp at ha
        · exact .inr ha)) (by decide) (by decide)
  have hcovers := State.covers_of_accessible fun a ha => hacc a (List.mem_append_right _ ha)
  have hworks := State.copyTiles_works hbegun.rewrites.sound (hcovers.after hbegun.rewrites) hside (p.param op)
    (bit (byteAt (p.param op) 0) 2)
  refine ⟨_, execMove_begins henter hin hout, ?_⟩
  unfold State.moveBegins
  simp only [hpo, hpi, Bool.false_eq_true, if_false, hv]
  exact hbegun.ends hworks (by decide) (by decide) (by decide) _

/-- A MOVE of a peer's tensor asks for its pieces, or fails where the peer cannot be reached (R387, R421). -/
theorem movePeer_spec {s u : State} {st : Step} {p : Plan} {op mb : Nat} {x o : TD}
    (henter : s.enter 0x60 op mb = some (u, st, p)) (hpo : p.peerOut op = false) (hpi : p.peerIn op = true)
    (hin : p.inTd op 0 mb = some x) (hout : p.outTd op 0 mb = some o) :
    (s.fab.unreachable (fld (p.param op) 2 2) = true → ∃ t, exec (.move op mb none) s = .next t
      ∧ t.fab.ctxFailed = s.fab.ctxFailed + 1)
    ∧ (s.fab.unreachable (fld (p.param op) 2 2) = false → ∃ t, exec (.move op mb none) s = .next t
      ∧ t.inst op mb = some .sent ∧ Keeps [.out, .stp, .obs] s t
      ∧ t.out = s.out ++ (movePieces (p.param op) x o).map fun r =>
          .peerReadRequest (fld (p.param op) 2 2) st.ring r.va r.len) := by
  obtain ⟨hinst, hkeeps⟩ := State.enter_some henter
  have hfab : u.fab = s.fab := hkeeps .fab (by decide)
  have hu : u.out = s.out := hkeeps .out (by decide)
  have hexec := execMove_begins henter hin hout
  simp only [State.moveBegins, hpo, hpi, Bool.false_eq_true, if_false, if_true, hfab] at hexec
  refine ⟨fun hcut => ⟨_, hexec, ?_⟩, fun hreach => ⟨_, hexec, ?_⟩⟩
  · rw [if_pos hcut, State.askFails_ctxFailed, hfab]
  · rw [if_neg (by simp [hreach])]
    have hsent : Keeps [.stp] u (u.setInst op mb .sent) := u.onStep_keeps _
    have hat := State.setInst_at hinst .sent
    refine ⟨?_, ?_, ?_⟩
    · rw [(State.emits_keeps _ _).inst (by decide)]
      exact hat
    · exact ((hkeeps.mono (by decide)).trans (hsent.mono (by decide))).trans ((State.emits_keeps _ _).mono (by decide))
    · have hout : (u.setInst op mb .sent).out = u.out := hsent .out (by decide)
      rw [State.emits_out, hout, hu]

theorem execMove_answered {s : State} {st : Step} {p : Plan} {op mb : Nat} {x o : TD} {ds : List Bytes}
    (hplan : s.stepPlan = some (st, p)) (hinst : s.inst op mb = some .sent) (hp : s.powered = true) (hrun : st.st = .running)
    (hstop : st.stopped = false) (hin : p.inTd op 0 mb = some x) (hout : p.outTd op 0 mb = some o) :
    exec (.move op mb (some ds)) s = .next (s.moveAnswered p op mb x o ds) := by
  simp only [State.inst, State.stepPlan_active hplan, Option.bind_some, Option.map_eq_some_iff] at hinst
  obtain ⟨i, hi, hsent⟩ := hinst
  show execMove op mb (some ds) s = _
  simp [execMove, hplan, hi, hin, hout, hp, hrun, hstop, hsent]

/-- A MOVE to a peer is done once everything sent is acknowledged; one from a peer writes what has come (R206, R421). -/
theorem moveAnswered_spec {s : State} {st : Step} {p : Plan} {op mb : Nat} {x o : TD} {ds : List Bytes} (hs : s.Sound)
    (hplan : s.stepPlan = some (st, p)) (hinst : s.inst op mb = some .sent) (hp : s.powered = true) (hrun : st.st = .running)
    (hstop : st.stopped = false) (hin : p.inTd op 0 mb = some x) (hout : p.outTd op 0 mb = some o) (hds : ds ≠ []) :
    (p.peerOut op = true → s.ctxSent p op mb (fld (p.param op) 2 2) = true →
      ∃ t, exec (.move op mb (some ds)) s = .next t ∧ t.inst op mb = some (.computed cOK) ∧ Keeps [.stp] s t)
    ∧ (p.peerOut op = false → ds.map List.length = (movePieces (p.param op) x o).map (·.len) → x.side = o.side →
      (∀ a ∈ o.accs true, Accessible s a.1 a.2.1 a.2.2) →
      ∃ t, exec (.move op mb (some ds)) s = .next t ∧ t.inst op mb = some (.computed cOK)
        ∧ SameBytes (optBytes s [some o]) s t ∧ Keeps [.out, .mem, .rgn, .coh, .stp] s t) := by
  have hexec := execMove_answered (ds := ds) hplan hinst hp hrun hstop hin hout
  have hsome : ds.isEmpty = false := by simpa using hds
  refine ⟨fun hpo hsent => ⟨_, hexec, ?_⟩, fun hpo hlens hside hacc => ⟨_, hexec, ?_⟩⟩
  · have heq : s.moveAnswered p op mb x o ds = s.setInst op mb (.computed cOK) := by
      simp only [State.moveAnswered, hsome, hpo, hsent, Bool.false_eq_true, if_false, if_true]
      rfl
    rw [heq]
    exact ⟨State.setInst_at hinst _, s.onStep_keeps _⟩
  · obtain ⟨v, hv, hlook⟩ := State.permit_ok (op := op) (mb := mb) (cache := agentCache 0) fun a ha => (hacc a ha).2.1
    have hlooks := (hlook.works (W := fun _ => False) hs).mono (k := writeParts) (V := optBytes s [some o]) (by decide)
      (fun _ h => h.elim)
    have hpull := State.pullTiles_works hlooks.rewrites.sound ((State.covers_of_accessible hacc).after hlooks.rewrites) hside hlens
    have hworks := hlooks.trans hpull
    have heq : s.moveAnswered p op mb x o ds = (v.pullTiles x o ds).setInst op mb (.computed cOK) := by
      simp only [State.moveAnswered, hsome, hpo, Bool.false_eq_true, if_false, State.movePull, hlens, ne_eq, not_true_eq_false, hv]
      rfl
    have hat : (v.pullTiles x o ds).inst op mb = some .sent := by
      rw [hworks.inst]
      exact hinst
    have hstp : Keeps [.stp] (v.pullTiles x o ds) ((v.pullTiles x o ds).setInst op mb (.computed cOK)) := State.onStep_keeps _ _
    rw [heq]
    exact ⟨State.setInst_at hat _,
      (hworks.rewrites.trans (hstp.rewrites (by decide) hworks.rewrites.sound)).bytes,
      hworks.keeps.trans (hstp.mono (by decide))⟩

end Sys2Proof.Machine
end

section
/-! SUPPORT. SAPLING_CONV and PREFETCH: the tensors of the one, and what the other places without touching a byte (R155 to R158,
R191, R194, R208). -/

namespace Sys2Proof.Machine

/-! ### SAPLING_CONV -/

theorem State.saplingTrace_keeps (s : State) (op block engine cn : Nat) (levels : List (List (List Nat × List Nat))) (final : Nat) :
    Keeps [.obs] s (s.saplingTrace op block engine cn levels final) := by
  refine Keeps.foldl (fun s l => ?_) _ s
  have hpasses : ∀ (w : Bool), Keeps [.obs] s (l.1.zipIdx.foldl (fun s x => s.debugPass w uSapling engine op block x.2 cn x.1.1 x.1.2) s) :=
    fun w => Keeps.foldl (fun s x => State.debugPass_keeps s _ _ _ _ _ _ _ _ _) _ s
  dsimp only
  split
  · exact (hpasses _).trans (State.traceLevel_keeps _ _ _ _ _ _ _)
  · exact hpasses _

/-- The outputs of a SAPLING_CONV are stored, and its blocks at levels 1 and 2 counted. -/
def State.sapStore (s : State) (p : Plan) (op : Nat) (q : Prod) (f g : List Nat → Val) (ns : List Nat) : State :=
  let s := s.storeOut p op 0 q.d f
  let s := match q.save with
    | some t => s.storeOut p op 1 t g
    | none => s
  s.addCounts 0x05 op ns

theorem State.sapStore_works {W : Nat → Prop} {s : State} (h : s.Sound) {q : Prod} (hc : s.CoversAll W [some q.d, q.save])
    (p : Plan) (op : Nat) (f g : List Nat → Val) (ns : List Nat) : Works writeParts W s (s.sapStore p op q f g ns) := by
  have hcount : ∀ t, Works writeParts W s t → Works writeParts W s (t.addCounts 0x05 op ns) := fun t ht =>
    ht.trans ((State.addCounts_works ht.rewrites.sound _ _ _).mono (by decide) fun _ h => h)
  have hfirst := State.storeOut_works h (hc q.d List.mem_cons_self) p op 0 f
  unfold State.sapStore
  dsimp only
  split
  · rename_i t ht
    have hcovers : s.Covers W t.spans := hc t (by rw [ht]; exact List.mem_cons_of_mem _ List.mem_cons_self)
    exact hcount _ (hfirst.trans (State.storeOut_works hfirst.rewrites.sound (hcovers.after hfirst.rewrites) p op 1 g))
  · exact hcount _ hfirst

/-- The accesses of a SAPLING_CONV. -/
def Prod.sapAccs (q : Prod) : List (Nat × Nat × Bool) :=
  q.a.accs false ++ q.b.accs false ++ (match q.cols with | some t => t.accs false | none => [])
    ++ q.d.accs true ++ (match q.save with | some t => t.accs true | none => [])

theorem Prod.sapAccs_eq (q : Prod) :
    q.sapAccs = q.a.accs false ++ q.b.accs false ++ optAccs [q.cols] false ++ q.d.accs true ++ optAccs [q.save] true := by
  have hopt : ∀ (t : Option TD) (store : Bool), (match t with | some t => t.accs store | none => []) = optAccs [t] store := by
    intro t store
    cases t <;> simp [optAccs]
  simp only [sapAccs, hopt]

theorem mem_optAccs_cons {t : TD} {o : Option TD} {store : Bool} {a : Nat × Nat × Bool} (h : a ∈ optAccs [some t, o] store) :
    a ∈ t.accs store ++ optAccs [o] store := by
  simpa [optAccs] using h

/-- What a SAPLING_CONV leaves: its outputs' bytes and its instance's code. -/
structure SapDone (op mb : Nat) (q : Prod) (s t : State) : Prop where
  inst : t.inst op mb = some (.computed cOK) ∨ t.inst op mb = some (.computed cRANGE)
  bytes : SameBytes (optBytes s [some q.d, q.save]) s t
  keeps : Keeps [.out, .aon, .mem, .rgn, .coh, .stp, .obs] s t

theorem SapDone.of_begun {s v w : State} {op mb : Nat} {q : Prod} {c : Nat} (hc : c = cOK ∨ c = cRANGE)
    (h : Begun [.aon, .mem, .rgn, .coh, .stp, .obs] op mb s v)
    (hw : Works (.obs :: writeParts) (optBytes s [some q.d, q.save]) v w) : SapDone op mb q s (w.setInst op mb (.computed c)) := by
  obtain ⟨hinst, hbytes, hkeeps⟩ := h.ends (m := [.out, .aon, .mem, .rgn, .coh, .stp, .obs]) hw
    (by decide) (by decide) (by decide) (.computed c)
  rcases hc with rfl | rfl
  · exact ⟨.inl hinst, hbytes, hkeeps⟩
  · exact ⟨.inr hinst, hbytes, hkeeps⟩

/-- Once permitted, a SAPLING_CONV reads its operands, traces and stores its blocks, and ends. -/
theorem execSaplingConv_done {s u v t : State} {st : Step} {p : Plan} {op mb : Nat} {engs : List (Fin 4)} {q : Prod}
    (hgo : (engs.isEmpty || engs.any fun e => s.floorStopped (e.val / 2)) = false)
    (henter : s.enter 0x14 op mb = some (u, st, p)) (hprod : p.prod op mb = some q)
    (hv : (engs.foldl (fun s e => s.wakeBlock (.sapling e)) u).permit op mb (agentCache ((engs.headD 0).val / 2)) q.sapAccs
      = (v, true))
    (hbegun : Begun [.aon, .rgn, .stp, .obs] op mb s v)
    (hcovers : s.CoversAll (optBytes s [some q.d, q.save]) [some q.d, q.save])
    (hexec : execSaplingConv op mb engs s = .next t) : SapDone op mb q s t := by
  unfold execSaplingConv at hexec
  injection hexec with ht
  subst ht
  rw [if_neg (by rw [hgo]; exact Bool.false_ne_true), henter]
  split
  · rename_i hnone
    cases hnone
  rename_i hsome
  cases hsome
  split
  · rename_i hnone
    cases hnone.symm.trans hprod
  rename_i q' hq
  obtain rfl : q' = q := Option.some.inj (hq.symm.trans hprod)
  extract_lets accs half
  split
  · rename_i hdenied
    cases hdenied.symm.trans hv
  rename_i v' hpermit
  obtain rfl : v' = v := congrArg Prod.fst (hpermit.symm.trans hv)
  extract_lets a b l v1 blocks v2 arr at_ v3 v4 level v5
  obtain ⟨-, ha⟩ := State.loadSome_spec hbegun.rewrites.sound (fun _ => true) q'.a
  obtain ⟨-, hb⟩ := State.loadSome_spec ha.rewrites.sound (fun _ => true) q'.b
  obtain ⟨-, hl⟩ := State.loadOpt_spec hb.rewrites.sound q'.cols (fun _ => true)
  have hread : Begun [.aon, .mem, .rgn, .coh, .stp, .obs] op mb s v1 :=
    hbegun.step ((ha.trans hb).trans hl) (by decide) (by decide)
  have htraced : Begun [.aon, .mem, .rgn, .coh, .stp, .obs] op mb s v2 :=
    have hkeeps : Keeps [.obs] v1 v2 := Keeps.foldl (fun s x => s.saplingTrace_keeps _ _ _ _ _ _) _ v1
    hread.step (hkeeps.works (by decide) (hkeeps.rewrites (by decide) hread.rewrites.sound)) (by decide) (by decide)
  clear_value v2 at_ level
  have hstored : Works writeParts (optBytes s [some q'.d, q'.save]) v2 v5 :=
    State.sapStore_works htraced.rewrites.sound (hcovers.after htraced.rewrites) p op (at_ false) (at_ true) [level 1, level 2]
  split
  · exact .of_begun (.inl rfl) htraced (hstored.mono (by decide) fun _ h => h)
  · rename_i n _
    have hranged := hstored.trans ((State.onStep_works hstored.rewrites.sound
      (f := fun st => { st with entries := addRange op (p.mbByte op mb) n st.entries }) fun _ => rfl).mono (by decide) fun _ h => h)
    exact .of_begun (.inr rfl) htraced (hranged.mono (by decide) fun _ h => h)

/-- A SAPLING_CONV on engines that run reads its operands and stores its outputs; then it is done, with OK or RANGE. -/
theorem saplingConv_spec {s u : State} {st : Step} {p : Plan} {op mb : Nat} {engs : List (Fin 4)} {q : Prod} (hs : s.Sound)
    (henter : s.enter 0x14 op mb = some (u, st, p)) (hprod : p.prod op mb = some q) (hengs : engs ≠ [])
    (hrun : ∀ e ∈ engs, s.floorStopped (e.val / 2) = false)
    (hacc : ∀ a ∈ q.a.accs false ++ q.b.accs false ++ optAccs [q.cols] false ++ q.d.accs true ++ optAccs [q.save] true,
      Accessible s a.1 a.2.1 a.2.2) :
    ∃ t, exec (.saplingConv op mb engs) s = .next t
      ∧ (t.inst op mb = some (.computed cOK) ∨ t.inst op mb = some (.computed cRANGE))
      ∧ SameBytes (optBytes s [some q.d, q.save]) s t ∧ Keeps [.out, .aon, .mem, .rgn, .coh, .stp, .obs] s t := by
  have hu := State.enter_begun hs henter
  have hwake : Keeps [.aon] u (engs.foldl (fun s e => s.wakeBlock (.sapling e)) u) := Keeps.foldl (fun s e => .of_patch rfl) engs u
  have hawake : Begun [.aon, .stp, .obs] op mb s (engs.foldl (fun s e => s.wakeBlock (.sapling e)) u) :=
    hu.step (hwake.works (by decide) (hwake.rewrites (by decide) hu.rewrites.sound)) (by decide) (by decide)
  obtain ⟨v, hv, hbegun⟩ := hawake.permit ((hu.keeps.noHarder (by decide)).trans (hwake.noHarder (by decide)))
    (agentCache ((engs.headD 0).val / 2)) (m := [.aon, .rgn, .stp, .obs]) (accs := q.sapAccs)
    (fun a ha => hacc a (q.sapAccs_eq ▸ ha)) (by decide) (by decide)
  have hcovers : s.CoversAll (optBytes s [some q.d, q.save]) [some q.d, q.save] :=
    State.coversAll_of_accessible fun a ha => hacc a (by
      rw [List.append_assoc]
      exact List.mem_append_right _ (mem_optAccs_cons ha))
  have hgo : (engs.isEmpty || engs.any fun e => s.floorStopped (e.val / 2)) = false := by
    simpa [hengs] using hrun
  obtain ⟨t, hexec⟩ : ∃ t, execSaplingConv op mb engs s = .next t := ⟨_, rfl⟩
  obtain ⟨hinst, hbytes, hkeeps⟩ := execSaplingConv_done hgo henter hprod hv hbegun hcovers hexec
  exact ⟨t, hexec, hinst, hbytes, hkeeps⟩

/-! ### PREFETCH -/

/-- Placing a tensor's lines in the Floor caches touches no byte. -/
theorem State.placeTensor_works {s : State} (h : s.Sound) (x : TD) : Works [.coh] (fun _ => False) s (s.placeTensor x) := by
  refine foldl_keeps (P := fun a : State × List Nat => Works [.coh] (fun _ => False) s a.1) (fun a y ha => ?_) _ _ (.refl h)
  refine foldl_keeps (P := fun a : State × List Nat => Works [.coh] (fun _ => False) s a.1) (fun a c ha => ?_) _ _ ha
  dsimp only
  split
  · split
    · exact ha
    · refine foldl_keeps (P := fun a : State × List Nat => Works [.coh] (fun _ => False) s a.1) (fun a l ha => ?_) _ _ ha
      split
      · rename_i r _ _ _ _
        obtain ⟨hcached, hwbs⟩ := a.1.coh.place_lines a.1.rgn r l 1
        have hdata : SameData a.1 { a.1 with coh := a.1.coh.place a.1.rgn r l 1 } := ⟨rfl, rfl, hcached, hwbs⟩
        have hkeeps : Keeps [.coh] a.1 { a.1 with coh := a.1.coh.place a.1.rgn r l 1 } := .of_patch rfl
        exact ha.trans (hkeeps.works (by decide) (hdata.rewrites ha.rewrites.sound (.refl _)))
      · exact ha
  · exact ha

/-- Heating and promoting a tensor's pages touches no byte. -/
theorem State.promoteTensor_works {s : State} (h : s.Sound) (x : TD) : Works [.rgn] (fun _ => False) s (s.promoteTensor x) := by
  refine foldl_keeps (P := Works [.rgn] (fun _ => False) s) (fun t y ht => ?_) _ _ (.refl h)
  refine foldl_keeps (P := Works [.rgn] (fun _ => False) s) (fun t c ht => ?_) _ _ ht
  dsimp only
  split
  · rename_i r off hspot
    split
    · obtain ⟨n, e, -, hget, -⟩ := Rgn.place_ok.1 hspot
      have hput : t.rgn.Alike (t.rgn.put { r with heat := r.heat.set (off / pageBytes) 255 }) :=
        Rgn.put_alike (r := r) (Rgn.get_some hget ▸ hget) rfl
      have halike := hput.trans (Rgn.promote_alike _ r.id (off / pageBytes))
      refine ht.trans (Keeps.works (.of_patch rfl) (by decide) ?_)
      exact SameData.rewrites ⟨rfl, rfl, rfl, rfl⟩ ht.rewrites.sound halike
    · exact ht
  · exact ht

/-- A PREFETCH places or promotes its tensor and is done, its memory as it was. -/
theorem prefetch_spec {s u : State} {st : Step} {p : Plan} {op mb : Nat} {x : TD} (hs : s.Sound)
    (henter : s.enter 0x61 op mb = some (u, st, p)) (hin : p.inTd op 0 mb = some x)
    (hacc : ∀ a ∈ x.accs false, Accessible s a.1 a.2.1 a.2.2) :
    ∃ t, exec (.prefetch op mb) s = .next t ∧ t.inst op mb = some (.computed cOK) ∧ SameBytes (fun _ => False) s t
      ∧ t.mem = s.mem ∧ Keeps [.rgn, .coh, .stp, .obs] s t := by
  have hu := State.enter_begun hs henter
  obtain ⟨v, hv, hbegun⟩ := hu.permit (hu.keeps.noHarder (by decide)) (agentCache 0) (m := [.rgn, .stp, .obs]) hacc
    (by decide) (by decide)
  have hworks : Works [.rgn, .coh] (fun _ => False) v
      (if bits (byteAt (p.param op) 0) 1 0 = 0 then v.placeTensor x else v.promoteTensor x) := by
    split
    · exact (State.placeTensor_works hbegun.rewrites.sound x).mono (by decide) fun _ h => h
    · exact (State.promoteTensor_works hbegun.rewrites.sound x).mono (by decide) fun _ h => h
  have hexec : execPrefetch op mb s = .next
      ((if bits (byteAt (p.param op) 0) 1 0 = 0 then v.placeTensor x else v.promoteTensor x).computed op mb) := by
    simp only [execPrefetch, henter, hin, hv]
  obtain ⟨hinst, hbytes, hkeeps⟩ := hbegun.ends (m := [.rgn, .coh, .stp, .obs]) hworks (by decide) (by decide) (by decide)
    (.computed cOK)
  exact ⟨_, hexec, hinst, hbytes, hkeeps .mem (by decide), hkeeps⟩

end Sys2Proof.Machine
end

section
/-! SUPPORT. The operations that run in one event, together (R150 to R162, R169 to R171, R179, R182, R204 to R208, R326, R387,
R421). -/

namespace Sys2Proof.Machine

theorem Plan.mem_outsOf {p : Plan} {op mb : Nat} {o : TD} (h : p.outTd op 0 mb = some o) : some o ∈ p.outsOf op mb :=
  List.mem_map.2 ⟨0, by decide, h⟩

theorem exec_actBackward (s : State) (op mb : Nat) (pl : Place) :
    exec (.actBackward op mb pl) s = .next (s.bulkAt 0x21 op mb pl (actWork op)) := rfl

theorem exec_gradGather (s : State) (op mb : Nat) (pl : Place) :
    exec (.gradGather op mb pl) s = .next (s.bulkAt 0x22 op mb pl (gradWork op)) := rfl

section
variable {s u : State} {st : Step} {p : Plan} {op mb va : Nat} {pl : Place} {o : TD} {c : List Nat} {el : Bytes} {f : List Nat → Nat}

/-- What ACT_BACKWARD leaves in a one-tile output (R179). -/
theorem actBackward_peek (hs : s.Sound) (henter : s.enter 0x21 op mb = some (u, st, p)) (hgrove : s.groveStopped pl.grove = false)
    (hacc : ∀ a ∈ optAccs (p.insOf op mb) false ++ optAccs (p.outsOf op mb) true, Accessible s a.1 a.2.1 a.2.2)
    (hout : p.outTd op 0 mb = some o) (htiles : o.tiles = [c]) (hmode : o.mode = 0) (hva : va = (o.recordAt (o.tileIndex c)).1)
    (hel : el = (o.encodeTile c fun r k => d32 (f (tileElem c r k))).1) (hpage : va / pageBytes = (va + el.length - 1) / pageBytes)
    {dy v : Loaded} {rest : List (Option Loaded)}
    (hins : (s.loadAll (fun _ _ => true) (p.insOf op mb)).1 = some dy :: some v :: rest)
    (hf : ∀ e, f e = actBack (bits (byteAt (p.param op) 0) 5 3) (bit (byteAt (p.param op) 0) 2) (fld (p.param op) 4 4)
      (dy.at32 e) (v.at32 e)) :
    (s.bulkAt 0x21 op mb pl (actWork op)).peekVa va el.length = el := by
  refine State.bulkAt_peek (f := fun e => d32 (f e)) hs henter hgrove hacc (Plan.mem_outsOf hout) htiles hmode hva hel hpage
    fun w => ?_
  have hfirst : (p.outsOf op mb).getD 0 none = some o := hout
  simp only [actWork, Bulk.inp, Bulk.out, hins, hfirst, List.getD_cons_zero, List.getD_cons_succ, State.storeGroveOpt, hf]

/-- What GRAD_GATHER leaves in a one-tile output (R182). -/
theorem gradGather_peek (hs : s.Sound) (henter : s.enter 0x22 op mb = some (u, st, p)) (hgrove : s.groveStopped pl.grove = false)
    (hacc : ∀ a ∈ optAccs (p.insOf op mb) false ++ optAccs (p.outsOf op mb) true, Accessible s a.1 a.2.1 a.2.2)
    (hout : p.outTd op 0 mb = some o) (htiles : o.tiles = [c]) (hmode : o.mode = 0) (hva : va = (o.recordAt (o.tileIndex c)).1)
    (hel : el = (o.encodeTile c fun r k => d32 (f (tileElem c r k))).1) (hpage : va / pageBytes = (va + el.length - 1) / pageBytes)
    {a : Loaded} {r : List Loaded}
    (hins : ((s.loadAll (fun _ _ => true) (p.insOf op mb)).1.take (byteAt (p.param op) 0)).filterMap id = a :: r)
    (hf : ∀ e, f e = r.foldl (fun y l => fadd y (l.at32 e)) (a.at32 e)) :
    (s.bulkAt 0x22 op mb pl (gradWork op)).peekVa va el.length = el := by
  refine State.bulkAt_peek (f := fun e => d32 (f e)) hs henter hgrove hacc (Plan.mem_outsOf hout) htiles hmode hva hel hpage
    fun w => ?_
  have hfirst : (p.outsOf op mb).getD 0 none = some o := hout
  simp only [gradWork, Bulk.out, hins, hfirst, State.storeGroveOpt, hf]

end

/-- Settles O56: every operation's work stays inside its outputs, since what it reads changes no byte, what it writes reaches
its tensors' pieces only, and an accessible tensor lies where it was found; a one-tile output holds the tile last written. -/
theorem operationsRun : Obligations.OperationsRun := by
  unfold Obligations.OperationsRun
  refine ⟨fun s u st p cmd code op mb pl hInv henter hgrove hcmd hacc => ?_,
    fun s u st p op mb engs q hInv => saplingConv_spec hInv.sound,
    fun s u st p op mb x o hInv => moveLocal_spec hInv.sound,
    fun s u st p op mb x o => movePeer_spec,
    fun s st p op mb x o ds hInv => moveAnswered_spec hInv.sound,
    fun s u st p op mb x hInv => prefetch_spec hInv.sound⟩
  have hruns : RunsBulk s op mb pl cmd code := by
    obtain ⟨rfl, rfl, hm⟩ | ⟨rfl, rfl, hm⟩ | ⟨rfl, rfl, hm⟩ | ⟨rfl, rfl, hm⟩ | ⟨rfl, rfl⟩ | ⟨rfl, rfl⟩ | ⟨rfl, rfl⟩ | ⟨rfl, rfl⟩
      | ⟨rfl, rfl⟩ := hcmd
    · exact .elementwise hm
    · exact .reduce hm
    · exact .gather hm
    · exact .scatter hm
    · exact .actBackward
    · exact .gradGather
    · exact .pool
    · exact .boxDecode
    · exact .suppress
  obtain ⟨keep, work, hexec, hwrites⟩ := hruns.exec
  obtain ⟨hinst, hbytes, hkeeps⟩ := State.bulkSome_spec hInv.sound henter hgrove hacc keep hwrites
  refine ⟨_, hexec, hinst, hbytes, hkeeps, fun o c va el f hout htiles hmode hva hel hpage => ⟨?_, ?_⟩⟩
  · rintro rfl dy v rest hins hf
    cases hruns
    rw [Host.Outcome.next.inj (hexec.symm.trans (exec_actBackward s op mb pl))]
    exact actBackward_peek hInv.sound henter hgrove hacc hout htiles hmode hva hel hpage hins hf
  · rintro rfl a r hins hf
    cases hruns
    rw [Host.Outcome.next.inj (hexec.symm.trans (exec_gradGather s op mb pl))]
    exact gradGather_peek hInv.sound henter hgrove hacc hout htiles hmode hva hel hpage hins hf

end Sys2Proof.Machine
end

section
/-! SUPPORT. A mailbox command that replies: what its slot holds afterwards, and that the undefined requests answered behind it
leave its slot alone (R487, R490, R496, R497). -/

namespace Sys2Proof.Machine

/-! ### Slots -/

/-- The bytes of a slot are the same. -/
def Mbx.SameSlot (k : Nat) (m m' : Mbx) : Prop := ∀ a, slotBase k ≤ a → a < slotBase k + 4096 → m'.cells.read a = m.cells.read a

theorem Mbx.SameSlot.readN {k : Nat} {m m' : Mbx} (h : m.SameSlot k m') {x n : Nat} (hlo : slotBase k ≤ x)
    (hhi : x + n ≤ slotBase k + 4096) : m'.cells.readN x n = m.cells.readN x n :=
  Store.readN_congr fun i hi => h (x + i) (by omega) (by omega)

/-- A reply in another slot leaves a slot alone. -/
theorem Mbx.putReply_sameSlot {m : Mbx} (h : m.cells.wf = true) {j k : Nat} (hjk : j ≠ k) (tag status : Nat) (d : Bytes) :
    m.SameSlot k (m.putReply j tag status d) := by
  intro a hlo hhi
  have hlen : (d.take 1984).length ≤ 1984 := List.length_take_le _ _
  have hout : a < slotBase j ∨ slotBase j + 4096 ≤ a := by
    unfold slotBase at *
    omega
  rw [Mbx.putReply_read h, if_neg (by omega), if_neg (by omega), if_neg (by omega)]

theorem State.front_mem {s : State} {k : Nat} (h : s.front = some k) : k ∈ s.mbx.latch := by
  unfold State.front at h
  split at h
  · rename_i j hj
    cases h
    exact List.mem_of_find?_eq_some hj
  · split at h
    · cases h
    · rename_i j r hlatch
      split at h
      · cases h
      · cases h
        rw [hlatch]
        exact List.mem_cons_self

/-- The undefined requests that are answered are those of latched slots. -/
theorem serveUndefined_sameSlot {k : Nat} : ∀ (n : Nat) (s : State), s.mbx.cells.wf = true → k ∉ s.mbx.latch →
    k ∉ (serveUndefined n s).mbx.latch ∧ s.mbx.SameSlot k (serveUndefined n s).mbx := by
  intro n
  induction n with
  | zero => exact fun s _ hk => ⟨hk, fun _ _ _ => rfl⟩
  | succ n ih =>
    intro s hwf hk
    have hstays : k ∉ s.mbx.latch ∧ s.mbx.SameSlot k s.mbx := ⟨hk, fun _ _ _ => rfl⟩
    unfold serveUndefined
    split
    · exact hstays
    · split
      · rename_i j hj
        dsimp only
        split
        · exact hstays
        · have hne : j ≠ k := fun h => hk (h ▸ State.front_mem hj)
          obtain ⟨hlatch, hsame⟩ := ih ({ s with mbx := s.mbx.unlatch j }.reply j (s.mbx.req j).tag cBAD_OPCODE [])
            (Mbx.putReply_wf hwf _ _ _ _) fun h => hk (List.mem_filter.1 h).1
          exact ⟨hlatch, fun a hlo hhi => (hsame a hlo hhi).trans
            (Mbx.putReply_sameSlot (m := s.mbx.unlatch j) hwf hne _ _ _ a hlo hhi)⟩
      · exact hstays

/-! ### Replies -/

theorem Store.readN_add (m : Store) (b : Nat) : ∀ (a x : Nat), m.readN x (a + b) = m.readN x a ++ m.readN (x + a) b := by
  intro a
  induction a with
  | zero => intro x; simp [Store.readN]
  | succ a ih =>
    intro x
    rw [show a + 1 + b = (a + b) + 1 by omega, Store.readN, Store.readN, ih, show x + 1 + a = x + (a + 1) by omega]
    rfl

/-- A range whose bytes are those of a string reads as the string. -/
theorem Store.readN_eq {m : Store} {x : Nat} {d : Bytes} (h : ∀ i < d.length, m.read (x + i) = d.getD i 0#8) :
    m.readN x d.length = d := by
  refine List.ext_getElem (Store.readN_length _ _ _) fun i hi hd => ?_
  rw [← List.getD_eq_getElem _ 0#8 hi, Store.readN_getD _ _ _ _ hd, h i hd, List.getD_eq_getElem _ _ hd]

/-- The low byte of the status word is the code (R496). -/
theorem statusWord_code (a : Att) (code : Nat) : BitVec.ofNat 8 (statusWord a code) = BitVec.ofNat 8 code := by
  apply BitVec.eq_of_toNat_eq
  simp only [BitVec.toNat_ofNat, statusWord]
  omega

/-- What a slot holds once a reply is put in it. -/
theorem Mbx.putReply_holds {m : Mbx} (h : m.cells.wf = true) (k tag status : Nat) (d : Bytes) :
    (m.putReply k tag status d).cells.readN (slotBase k + 0x800) 12 = leBytes 4 status ++ leBytes 4 tag ++ leBytes 4 d.length
      ∧ (m.putReply k tag status d).cells.readN (slotBase k + 0x840) (min d.length 1984) = d.take 1984
      ∧ (m.putReply k tag status d).own k = false := by
  have hlen : (d.take 1984).length = min d.length 1984 := by rw [List.length_take, Nat.min_comm]
  refine ⟨?_, ?_, ?_⟩
  · have hwords : (leBytes 4 status ++ leBytes 4 tag ++ leBytes 4 d.length).length = 12 := by simp
    rw [← hwords]
    refine Store.readN_eq fun i hi => ?_
    rw [Mbx.putReply_read h, if_neg (by omega), if_neg (by omega), if_pos (by omega), Nat.add_sub_cancel_left]
  · rw [← hlen]
    refine Store.readN_eq fun i hi => ?_
    rw [Mbx.putReply_read h, if_neg (by omega), if_pos (by omega), Nat.add_sub_cancel_left]
  · rw [Mbx.own, Mbx.putReply_read h, if_pos rfl]
    rfl

/-- A command that has put its reply in its slot has replied. -/
theorem State.reply_replied {s u : State} {k : SlotId} (hwf : u.mbx.cells.wf = true) (hlatch : k.val ∉ u.mbx.latch)
    (code : Nat) (d : Bytes) : Replied s ((u.reply k (s.asks k).tag code d).drainUndefined) k code d := by
  obtain ⟨hout, hsame⟩ := serveUndefined_sameSlot (k := k) (u.reply k (s.asks k).tag code d).mbx.latch.length
    (u.reply k (s.asks k).tag code d) (Mbx.putReply_wf hwf _ _ _ _) hlatch
  obtain ⟨hwords, hpay, hown⟩ := Mbx.putReply_holds hwf k (s.asks k).tag (statusWord u.att code) d
  have hthree : ∀ {a b c x y z : Bytes}, a.length = x.length → b.length = y.length →
      a ++ b ++ c = x ++ y ++ z → a = x ∧ b = y ∧ c = z := by
    intro a b c x y z ha hb he
    obtain ⟨hab, hc⟩ := List.append_inj he (by simp [ha, hb])
    obtain ⟨ha', hb'⟩ := List.append_inj hab ha
    exact ⟨ha', hb', hc⟩
  rw [show 12 = 4 + 4 + 4 from rfl, Store.readN_add, Store.readN_add] at hwords
  obtain ⟨hstatus, htag, hlength⟩ := hthree (by simp) (by simp) hwords
  have hcode : (u.mbx.putReply k (s.asks k).tag (statusWord u.att code) d).cells.read (slotBase k + 0x800) = BitVec.ofNat 8 code :=
    (List.cons.inj hstatus).1.trans (statusWord_code _ _)
  refine ⟨(hsame _ (by omega) (by omega)).trans hcode, (hsame.readN (by omega) (by omega)).trans htag,
    (hsame.readN (by omega) (by omega)).trans hlength, (hsame.readN (by omega) (by omega)).trans hpay, ?_, hout⟩
  rw [Mbx.own, show (State.drainUndefined _).mbx.cells.read (slotBase k + 0x38) = _ from hsame _ (by omega) (by omega)]
  exact hown

/-- A command that is served and answers at once replies; the rest is its body's. -/
theorem IsServed.take_replied {s u : State} {k : SlotId} {op code : Nat} {d : Bytes} {body : Req → State → State × Resp}
    (h : IsServed s k op) (hwf : s.mbx.cells.wf = true) (hbody : body (s.asks k) (s.taken k) = (u, some (code, d)))
    (hcode : code ≠ cWAIT) (hmbx : u.mbx = (s.taken k).mbx) :
    Replied s (s.take k (·.opcode == op) body) k code d ∧ Keeps [.mbx] u (s.take k (·.opcode == op) body) := by
  obtain ⟨hserves, hfront, hop, hpre⟩ := h
  have htake : s.take k (·.opcode == op) body = (u.reply k (s.asks k).tag code d).drainUndefined := by
    rw [State.take_served hserves hfront (by simp [hop]) hpre, show s.mbx.req k = s.asks k from rfl, hbody]
    exact if_neg hcode
  rw [htake]
  refine ⟨State.reply_replied (hmbx ▸ hwf) (hmbx ▸ fun hk => ?_) _ _, Keeps.trans (.of_patch rfl) (State.drainUndefined_keeps _)⟩
  simp [State.taken, Mbx.unlatch] at hk

theorem State.taken_keeps (s : State) (k : Nat) : Keeps [.mbx, .aon] s (s.taken k) := .of_patch rfl

end Sys2Proof.Machine
end

section
/-! SUPPORT. REGION_CREATE and REGION_REGISTER: the lowest free id, the zeroed bytes of a new region, and a region in its place
(R187 to R190, R253, R460, R517). -/

namespace Sys2Proof.Machine

/-! ### Region ids -/

theorem Rgn.get_isNone {g : Rgn} {i : Nat} : (g.get i).isNone = true ↔ ∀ x ∈ g.regions, x.id ≠ i := by
  rw [Option.isNone_iff_eq_none, Rgn.get, List.find?_eq_none]
  simp

/-- With fewer than 64 regions, all of different ids, the id of a new one is the lowest that none holds (R517). -/
theorem freeRegionId_lowest {g : Rgn} (h : g.regions.length < 64) :
    freeRegionId g < 64 ∧ (∀ x ∈ g.regions, x.id ≠ freeRegionId g) ∧ ∀ j < freeRegionId g, ∃ x ∈ g.regions, x.id = j := by
  obtain ⟨i, hi⟩ : ∃ i, (List.range 64).find? (fun i => (g.get i).isNone) = some i := by
    rw [← Option.isSome_iff_exists, List.find?_isSome]
    by_contra hall
    have hsub : List.range 64 ⊆ g.regions.map (·.id) := by
      intro j hj
      by_contra hno
      exact hall ⟨j, hj, Rgn.get_isNone.2 fun x hx he => hno (List.mem_map.2 ⟨x, hx, he⟩)⟩
    have hle := (List.nodup_range.subperm hsub).length_le
    simp only [List.length_range, List.length_map] at hle
    omega
  have hid : freeRegionId g = i := by rw [freeRegionId, hi]; rfl
  rw [hid]
  obtain ⟨hnone, as, bs, hrange, hbefore⟩ := List.find?_eq_some_iff_append.1 hi
  have hlt : i < 64 := List.mem_range.1 (List.mem_of_find?_eq_some hi)
  refine ⟨hlt, Rgn.get_isNone.1 hnone, fun j hj => ?_⟩
  have hjlt : j < 64 := by omega
  have hmem : j ∈ as := by
    have hall : j ∈ as ++ i :: bs := hrange ▸ List.mem_range.2 hjlt
    have hsorted : (as ++ i :: bs).Pairwise (· < ·) := hrange ▸ List.pairwise_lt_range
    obtain hmem | hmem := List.mem_append.1 hall
    · exact hmem
    · obtain rfl | hmem := List.mem_cons.1 hmem
      · exact absurd hj (Nat.lt_irrefl _)
      · have := (List.pairwise_cons.1 (List.pairwise_append.1 hsorted).2.1).1 j hmem
        omega
  by_contra hno
  have := hbefore j hmem
  rw [Rgn.get_isNone.2 fun x hx he => hno ⟨x, hx, he⟩] at this
  simp at this

/-! ### Zeroed bytes -/

theorem State.zeroRange_keeps (s : State) (lo n : Nat) : Keeps [.mem, .coh] s (s.zeroRange lo n) := .of_patch rfl

theorem State.wakeRegion_keeps (s : State) (r : Region) : Keeps [.mem] s (s.wakeRegion r) := .of_patch rfl

theorem State.wakeRegion_data (s : State) (r : Region) : SameData s (s.wakeRegion r) := ⟨rfl, rfl, rfl, rfl⟩

/-- What memory holds after a range is zeroed. -/
theorem State.zeroRange_mem {s : State} (h : s.mem.cells.wf = true) (lo n a : Nat) :
    (s.zeroRange lo n).mem.byte a = if lo ≤ a ∧ a < lo + n then 0#8 else s.mem.byte a := by
  unfold Mem.byte State.zeroRange
  simp only [FreeRange.cuts_at, Store.read_zero h]
  by_cases hin : lo ≤ a ∧ a < lo + n <;> simp [hin]

theorem State.zeroRange_sound {s : State} (h : s.Sound) (lo n : Nat) : (s.zeroRange lo n).Sound where
  wf := Store.wf_zero h.wf lo n
  lines := by
    intro c hc
    refine h.lines c ?_
    obtain hc | hc := List.mem_append.1 hc
    · exact List.mem_append_left _ (List.mem_filter.1 hc).1
    · exact List.mem_append_right _ hc

/-- Zeroing whole lines changes no byte of another line. -/
theorem State.zeroRange_rewrites {s : State} (h : s.Sound) {lo n : Nat} (hlo : lo % 64 = 0) (hn : n % 64 = 0) :
    Rewrites (fun a => lo ≤ a ∧ a < lo + n) s (s.zeroRange lo n) := by
  refine ⟨State.zeroRange_sound h lo n, .refl _, fun a ha => ?_⟩
  have hline : inRange lo n (a / 64) = false := by
    simp only [inRange, Bool.and_eq_false_iff, decide_eq_false_iff_not]
    omega
  have hdirty : (s.zeroRange lo n).dirty.foldl (lineOver a) (s.mem.byte a) = s.dirty.foldl (lineOver a) (s.mem.byte a) := by
    have hkeep := lineOver_filter (a := a) (p := fun c => !inRange lo n c.line) fun c hc => by simp [hc, hline]
    simp only [State.dirty, State.zeroRange, List.filter_append, List.foldl_append]
    rw [List.filter_comm, hkeep]
  rw [State.byte_eq (State.zeroRange_sound h lo n), State.zeroRange_mem h.wf, if_neg ha, hdirty, State.byte_eq h]

/-! ### A new region -/

/-- The region that REGION_CREATE makes of a request (R187, R253, R517). -/
def Rgn.created (g : Rgn) (q : Req) : Region :=
  { id := freeRegionId g, kind := bits (q.f 0 1) 1 0, mode := bits (q.f 0 1) 3 2, target := q.f 2 2, pages := q.f 4 4
    t2Pages := q.f 8 4, hostBase := q.f 0x10 8, part := q.f 1 1, cache := bits (q.f 0 1) 5 4
    hdmOff := if bits (q.f 0 1) 1 0 = 0 then nextHdmOff g else 0, map := none, reg := none, stale := false, inT2 := []
    pinned := [], heat := [], shared := [], flipping := [] }

/-- The attributes of a new region, field by field. -/
theorem Rgn.created_attributes (g : Rgn) (q : Req) :
    (g.created q).kind = bits (q.f 0 1) 1 0 ∧ (g.created q).mode = bits (q.f 0 1) 3 2 ∧ (g.created q).cache = bits (q.f 0 1) 5 4
      ∧ (g.created q).part = q.f 1 1 ∧ (g.created q).target = q.f 2 2 ∧ (g.created q).pages = q.f 4 4
      ∧ (g.created q).t2Pages = q.f 8 4 ∧ (g.created q).hostBase = q.f 0x10 8 ∧ (g.created q).map = none
      ∧ (g.created q).reg = none ∧ (g.created q).inT2 = []
      ∧ (g.created q).hdmOff
        = (if bits (q.f 0 1) 1 0 = 0 then ((g.regions.filter (·.kind == 0)).map Region.size).sum else 0) :=
  ⟨rfl, rfl, rfl, rfl, rfl, rfl, rfl, rfl, rfl, rfl, rfl, rfl⟩

/-- The bytes of a new STACK or TIERED region in the stacks become zero. -/
def State.zeroNew (s : State) (r : Region) : State :=
  if r.kind = 2 then s else (s.wakeRegion r).zeroRange (r.id * 2 ^ 42) r.size

/-- A region is added to the others. -/
def State.addRegion (s : State) (r : Region) : State := { s with rgn := { s.rgn with regions := s.rgn.regions ++ [r] } }

theorem State.addRegion_keeps (s : State) (r : Region) : Keeps [.rgn] s (s.addRegion r) := .of_patch rfl

theorem State.zeroNew_keeps (s : State) (r : Region) : Keeps [.mem, .coh] s (s.zeroNew r) := by
  unfold State.zeroNew
  split
  · exact .refl _ s
  · exact ((s.wakeRegion_keeps r).mono (by decide)).trans (State.zeroRange_keeps _ _ _)

theorem State.zeroNew_rewrites {s : State} (h : s.Sound) (r : Region) :
    Rewrites (fun a => r.id * 2 ^ 42 ≤ a ∧ a < r.id * 2 ^ 42 + r.size) s (s.zeroNew r) := by
  unfold State.zeroNew
  split
  · exact .refl h
  · have hwoken := s.wakeRegion_data r
    exact (hwoken.rewrites h (.refl _)).trans
      (State.zeroRange_rewrites (hwoken.sound h) (by omega) (by unfold Region.size pageBytes; omega))

/-- A legal request that finds room makes its region. -/
theorem regionCreateBody_ok {s : State} {q : Req} (hkind : q.rz 0 1 7 6 = true) (hattr : q.rz 1 1 7 4 = true)
    (hzero : q.zb 0x0C 4 = true) (hrest : q.zb 0x18 8 = true)
    (hlegal : regionLegal (bits (q.f 0 1) 1 0) (bits (q.f 0 1) 3 2) (q.f 2 2) (q.f 4 4) (q.f 8 4) (q.f 0x10 8)
      (bits (q.f 0 1) 5 4) = true)
    (hcount : s.rgn.regions.length < 64)
    (hroom : bits (q.f 0 1) 1 0 ≠ 2 → channelsSuffice s.rgn (bits (q.f 0 1) 3 2) (q.f 2 2)
      (if bits (q.f 0 1) 1 0 = 0 then q.f 4 4 else q.f 8 4) = true) :
    regionCreateBody q s = ((s.zeroNew (s.rgn.created q)).addRegion (s.rgn.created q),
      some (cOK, leBytes 1 (s.rgn.created q).id ++ zeros 7 ++ leBytes 8 (s.rgn.created q).hdmOff)) := by
  have hfits : ¬ ((decide (64 ≤ s.rgn.regions.length) || (bits (q.f 0 1) 1 0 != 2 && !channelsSuffice s.rgn (bits (q.f 0 1) 3 2)
      (q.f 2 2) (if bits (q.f 0 1) 1 0 = 0 then q.f 4 4 else if bits (q.f 0 1) 1 0 = 1 then q.f 8 4 else 0))) = true) := by
    have hlt : bits (q.f 0 1) 1 0 < 3 := by
      simp only [regionLegal, Bool.and_eq_true, decide_eq_true_eq] at hlegal
      obtain ⟨⟨⟨⟨⟨⟨⟨hlt, -⟩, -⟩, -⟩, -⟩, -⟩, -⟩, -⟩ := hlegal
      exact hlt
    by_cases h2 : bits (q.f 0 1) 1 0 = 2
    · simp [h2, hcount]
    · have hneed := hroom h2
      by_cases h0 : bits (q.f 0 1) 1 0 = 0
      · simp_all
      · have h1 : bits (q.f 0 1) 1 0 = 1 := by omega
        simp_all
  unfold regionCreateBody
  dsimp only
  rw [if_neg (by simp [hkind, hattr, hzero, hrest]), if_neg (by simp [hlegal]), if_neg hfits]
  rfl

/-! ### A region in its place -/

theorem Rgn.put_key (r : Region) (id : Nat) (x : Region) : ((if x.id == r.id then r else x).id == id) = (x.id == id) := by
  by_cases hx : x.id = r.id <;> simp [hx]

theorem Rgn.get_put_same {g : Rgn} {r x : Region} (h : g.get r.id = some x) : (g.put r).get r.id = some r := by
  have hput : (g.put r).get r.id = some (if x.id == r.id then r else x) := find_map_of_find (Rgn.put_key r r.id) h
  rw [hput, Rgn.get_some h]
  simp

theorem Rgn.get_put_ne {g : Rgn} {r : Region} {id : Nat} (h : id ≠ r.id) : (g.put r).get id = g.get id := by
  cases hg : g.get id with
  | none =>
    rw [Rgn.get, Rgn.put, List.find?_map, Option.map_eq_none_iff]
    simp only [Function.comp_def, Rgn.put_key]
    exact hg
  | some x =>
    have hput : (g.put r).get id = some (if x.id == r.id then r else x) := find_map_of_find (Rgn.put_key r id) hg
    have hne : x.id ≠ r.id := fun he => h ((Rgn.get_some hg).symm.trans he)
    simpa [hne] using hput

theorem State.rgnOnly_keeps (s : State) (g : Rgn) : Keeps [.rgn] s { s with rgn := g } := .of_patch rfl

/-- The registration that a request asks for; none where it names no source (R460). -/
def Req.registration (q : Req) : Option Registration :=
  if q.f 1 1 = 0 then none else some ⟨q.f 8 8, q.f 1 1, bit (q.f 2 1) 0, bit (q.f 2 1) 1⟩

/-- A request within R460's legal values, which no access admitted before waits on, registers its region. -/
theorem regionRegisterBody_ok {s : State} {q : Req} {r : Region} (hid : q.rz 0 1 7 6 = true) (hrights : q.rz 2 1 7 2 = true)
    (hzero : q.zb 3 5 = true) (hr : s.rgn.get (bits (q.f 0 1) 5 0) = some r) (hkind : r.kind ≠ 2) (hsources : q.f 1 1 < 32)
    (haligned : q.f 8 8 % pageBytes = 0) (hfits : q.f 8 8 + r.size ≤ 2 ^ 42)
    (hfree : q.f 1 1 ≠ 0 → ∀ x ∈ s.rgn.regions, x.id ≠ r.id → x.windowHits (q.f 8 8) r.size = false)
    (hheld : ∀ w ∈ s.hst.held, w.place.any (·.1 == r.id) = false) :
    regionRegisterBody q s = ({ s with rgn := s.rgn.put { r with reg := q.registration } }, rcode cOK) := by
  have hhits : ¬ ((q.f 1 1 != 0 && s.rgn.regions.any fun x => x.id != r.id && x.windowHits (q.f 8 8) r.size) = true) := by
    simp only [Bool.and_eq_true, bne_iff_ne, List.any_eq_true, not_and, not_exists]
    intro h0 x hx hne
    simp [hfree h0 x hx hne]
  have hwaits : ¬ ((s.hst.held.any fun w => w.place.any (·.1 == r.id)) = true) := by
    simp only [List.any_eq_true, not_exists, not_and]
    intro w hw
    simp [hheld w hw]
  unfold regionRegisterBody
  dsimp only
  rw [if_neg (by simp [hid, hrights, hzero])]
  simp only [hr]
  rw [if_neg (by simp [hkind]; omega), if_neg (by simpa using hhits), if_neg hwaits]
  rfl

/-! ### The statement -/

/-- REGION_CREATE of a legal request. -/
theorem regionCreate_spec {s : State} {k : SlotId} (hInv : s.Inv) (hserved : IsServed s k 0x0201) {r : Region}
    (hbody : regionCreateBody (s.asks k) (s.taken k)
      = (((s.taken k).zeroNew r).addRegion r, some (cOK, leBytes 1 r.id ++ zeros 7 ++ leBytes 8 r.hdmOff))) :
    ∃ t, exec (.regionCreate k) s = .next t ∧ t.rgn.regions = s.rgn.regions ++ [r]
      ∧ Replied s t k cOK (leBytes 1 r.id ++ zeros 7 ++ leBytes 8 r.hdmOff)
      ∧ (r.kind ≠ 2 → ∀ i < r.size, t.mem.byte (r.id * 2 ^ 42 + i) = 0#8)
      ∧ (r.kind = 2 → t.mem = s.mem)
      ∧ SameBytes (fun a => r.id * 2 ^ 42 ≤ a ∧ a < r.id * 2 ^ 42 + r.size) s t
      ∧ Keeps [.mbx, .aon, .mem, .coh, .rgn] s t := by
  have hzero := (s.taken k).zeroNew_keeps r
  have hadd := ((s.taken k).zeroNew r).addRegion_keeps r
  have hrewrites := (((s.taken_keeps k).rewrites (by decide) hInv.sound).trans
    (State.zeroNew_rewrites (((s.taken_keeps k).sameData (by decide)).sound hInv.sound) r))
  obtain ⟨hreplied, hkeeps⟩ := hserved.take_replied hInv.mbx hbody (by decide)
    ((hadd .mbx (by decide)).trans (hzero .mbx (by decide)))
  generalize ht : s.take k (·.opcode == 0x0201) regionCreateBody = t at hreplied hkeeps
  have hrgn : t.rgn = (((s.taken k).zeroNew r).addRegion r).rgn := hkeeps .rgn (by decide)
  have hregions : ((s.taken k).zeroNew r).rgn = s.rgn := hzero .rgn (by decide)
  have hmem : t.mem = ((s.taken k).zeroNew r).mem := hkeeps .mem (by decide)
  refine ⟨t, congrArg Host.Outcome.next ht, ?_, hreplied, fun h2 i hi => ?_, fun h2 => ?_, fun a ha => ?_, ?_⟩
  · rw [hrgn]
    exact congrArg (·.regions ++ [r]) hregions
  · rw [hmem, State.zeroNew, if_neg h2, State.zeroRange_mem (s := (s.taken k).wakeRegion r) hInv.mem, if_pos (by omega)]
  · rw [hmem, State.zeroNew, if_pos h2]
    rfl
  · have hdata : SameData ((s.taken k).zeroNew r) t := (hadd.sameData (by decide)).trans (hkeeps.sameData (by decide))
    exact (hdata.byte hrewrites.sound a).trans (hrewrites.bytes a ha)
  · exact (((s.taken_keeps k).mono (by decide)).trans (hzero.mono (by decide))).trans
      ((hadd.mono (by decide)).trans (hkeeps.mono (by decide)))

/-- REGION_REGISTER of a legal request. -/
theorem regionRegister_spec {s : State} {k : SlotId} (hInv : s.Inv) (hserved : IsServed s k 0x0202) {r : Region}
    {reg : Option Registration}
    (hbody : regionRegisterBody (s.asks k) (s.taken k)
      = ({ s.taken k with rgn := s.rgn.put { r with reg := reg } }, rcode cOK)) :
    ∃ t, exec (.regionRegister k) s = .next t ∧ Replied s t k cOK [] ∧ t.rgn = s.rgn.put { r with reg := reg }
      ∧ Keeps [.mbx, .aon, .rgn] s t := by
  obtain ⟨hreplied, hkeeps⟩ := hserved.take_replied hInv.mbx hbody (by decide) rfl
  exact ⟨_, rfl, hreplied, hkeeps .rgn (by decide),
    ((s.taken_keeps k).mono (by decide)).trans ((((s.taken k).rgnOnly_keeps _).mono (by decide)).trans
      (hkeeps.mono (by decide)))⟩

/-- Settles O25: each command's body is the one update that the statement speaks of, and its reply changes the slots only. -/
theorem regionsMade : Obligations.RegionsMade := by
  unfold Obligations.RegionsMade
  refine ⟨?_, ?_⟩
  · rintro s k q kind hInv rfl hserved hkind hattr hzero hrest rfl hlegal hcount hroom
    obtain ⟨hlt, hfresh, hlowest⟩ := freeRegionId_lowest hcount
    have hbody := regionCreateBody_ok (s := s.taken k) hkind hattr hzero hrest hlegal hcount hroom
    obtain ⟨t, hexec, hregions, hreplied, hzeroed, hmem, hbytes, hkeeps⟩ := regionCreate_spec hInv hserved hbody
    obtain ⟨hk, hm, hc, hp, ht, hpages, ht2, hbase, hmap, hreg, hin, hoff⟩ := s.rgn.created_attributes (s.asks k)
    exact ⟨t, s.rgn.created (s.asks k), hexec, hregions, hlt, hfresh, hlowest, hk, hm, hc, hp, ht, hpages, ht2, hbase, hmap,
      hreg, hin, hoff, hreplied, fun h2 => hzeroed (hk ▸ h2), fun h2 => hmem (hk ▸ h2), hbytes, hkeeps⟩
  · rintro s k q r rfl hInv hserved hid hrights hzero hr hkind hsources haligned hfits hfree hheld
    have hown : s.rgn.get r.id = some r := (Rgn.get_some hr).symm ▸ hr
    obtain ⟨t, hexec, hreplied, hrgn, hkeeps⟩ := regionRegister_spec hInv hserved
      (regionRegisterBody_ok (s := s.taken k) hid hrights hzero hr hkind hsources haligned hfits hfree hheld)
    have hput : t.rgn.get r.id = some { r with reg := (s.asks k).registration } := hrgn ▸ Rgn.get_put_same hown
    refine ⟨t, hexec, hreplied, fun h0 => ?_, fun h0 => ?_, fun i hi => hrgn ▸ Rgn.get_put_ne hi, hrgn ▸ rfl, hkeeps⟩
    · rw [hput, Req.registration, if_pos h0]
    · rw [hput, Req.registration, if_neg h0]

end Sys2Proof.Machine
end

section
/-! SUPPORT. OBJECT_PIN and REGION_INFO: a page that migrates joins or leaves T2, and nothing else of its region or of another
moves (R195, R198, R252, R518). -/

namespace Sys2Proof.Machine

/-! ### A page that migrates -/

/-- A region with some pages in T2. -/
def Region.withT2 (r : Region) (ps : List Nat) : Region := { r with inT2 := ps }

/-- A region with some pages pinned. -/
def Region.withPins (r : Region) (ps : List Nat) : Region := { r with pinned := ps }

/-- Of regions and slots, only the region of an id has changed, and is `r`. -/
structure OnlyRegion (id : Nat) (s t : State) (r : Region) : Prop where
  here : t.rgn.get id = some r
  others : ∀ i, i ≠ id → t.rgn.get i = s.rgn.get i
  mbx : t.mbx = s.mbx

theorem OnlyRegion.trans {id : Nat} {s t u : State} {r r' : Region} (h : OnlyRegion id s t r) (k : OnlyRegion id t u r') :
    OnlyRegion id s u r' := ⟨k.here, fun i hi => (k.others i hi).trans (h.others i hi), k.mbx.trans h.mbx⟩

/-- A region put in its place. -/
theorem OnlyRegion.of_put {s t : State} {g : Rgn} {r r' : Region} (h : s.rgn.get r.id = some r) (hg : g.regions = s.rgn.regions)
    (hid : r'.id = r.id) (hrgn : t.rgn = g.put r') (hmbx : t.mbx = s.mbx) : OnlyRegion r.id s t r' := by
  have hget : ∀ i, g.get i = s.rgn.get i := fun i => by rw [Rgn.get, hg, Rgn.get]
  refine ⟨?_, fun i hi => ?_, hmbx⟩
  · rw [hrgn, ← hid]
    exact Rgn.get_put_same (by rw [hget, hid, h])
  · rw [hrgn, Rgn.get_put_ne (by rwa [hid]), hget]

theorem State.migrate_region {s : State} {r : Region} (h : s.rgn.get r.id = some r) (page : Nat) (toT2 : Bool) :
    OnlyRegion r.id s (s.migrate r.id page toT2)
      (r.withT2 (if toT2 then r.inT2 ++ [page] else r.inT2.filter (· != page))) := by
  have hwoken : ∀ (t : State) (lo n : Nat), (t.wakeRange lo n).rgn = t.rgn ∧ (t.wakeRange lo n).mbx = t.mbx := fun t lo n =>
    ⟨t.wakeRange_keeps lo n .rgn (by decide), t.wakeRange_keeps lo n .mbx (by decide)⟩
  unfold State.migrate
  simp only [h]
  exact .of_put h rfl rfl (by simp only [hwoken, State.invalRange_rgn, Region.withT2]) (by simp only [hwoken, State.invalRange_mbx])

/-! ### The pages of a pin range -/

/-- Pages for which there is room join T2, and none leaves it (R198). -/
theorem State.pinPages_region (range : List Nat) : ∀ (ps : List Nat) {s : State} {r : Region}, s.rgn.get r.id = some r →
    r.inT2.length + ps.length ≤ r.t2Pages →
    ∃ x, OnlyRegion r.id s (ps.foldl (fun s p => s.pinPage r.id range p) s) (r.withT2 x) ∧ ∀ p, p ∈ x ↔ p ∈ r.inT2 ∨ p ∈ ps := by
  intro ps
  induction ps with
  | nil => exact fun {s r} h _ => ⟨r.inT2, ⟨h, fun _ _ => rfl, rfl⟩, by simp⟩
  | cons a ps ih =>
    intro s r h hroom
    simp only [List.length_cons] at hroom
    rw [List.foldl_cons]
    by_cases ha : a ∈ r.inT2
    · have hstays : s.pinPage r.id range a = s := by simp [State.pinPage, h, ha]
      obtain ⟨x, hx, hmem⟩ := ih h (by omega)
      refine ⟨x, hstays.symm ▸ hx, fun p => ?_⟩
      simp only [hmem, List.mem_cons]
      exact ⟨fun hp => hp.imp_right .inr, fun hp => hp.elim .inl (·.elim (fun he => .inl (he ▸ ha)) .inr)⟩
    · have hmoves : s.pinPage r.id range a = s.migrate r.id a true := by
        simp [State.pinPage, h, ha, show r.inT2.length < r.t2Pages by omega]
      have hstep := State.migrate_region h a true
      obtain ⟨x, hx, hmem⟩ := ih (r := r.withT2 (r.inT2 ++ [a])) hstep.here (by simp [Region.withT2]; omega)
      refine ⟨x, hmoves.symm ▸ hstep.trans hx, fun p => ?_⟩
      simp only [hmem, Region.withT2, List.mem_append, List.mem_cons, List.not_mem_nil, or_false, or_assoc]

/-- Pages that are in T2 leave it. -/
theorem State.unpinPages_region (held : List Nat) : ∀ (ps : List Nat) {s : State} {r : Region}, s.rgn.get r.id = some r →
    ∃ x, OnlyRegion r.id s (ps.foldl (fun s p => if held.contains p then s.migrate r.id p false else s) s) (r.withT2 x)
      ∧ ∀ p, p ∈ x ↔ p ∈ r.inT2 ∧ ¬ (p ∈ ps ∧ p ∈ held) := by
  intro ps
  induction ps with
  | nil => exact fun {s r} h => ⟨r.inT2, ⟨h, fun _ _ => rfl, rfl⟩, by simp⟩
  | cons a ps ih =>
    intro s r h
    rw [List.foldl_cons]
    by_cases ha : a ∈ held
    · have hstep := State.migrate_region h a false
      obtain ⟨x, hx, hmem⟩ := ih (r := r.withT2 (r.inT2.filter (· != a))) hstep.here
      rw [if_pos (List.contains_iff_mem.2 ha)]
      refine ⟨x, hstep.trans hx, fun p => ?_⟩
      simp only [hmem, Region.withT2, List.mem_filter, bne_iff_ne, List.mem_cons]
      by_cases hp : p = a
      · simp [hp, ha]
      · simp [hp]
    · obtain ⟨x, hx, hmem⟩ := ih h
      rw [if_neg (by simpa using ha)]
      refine ⟨x, hx, fun p => ?_⟩
      simp only [hmem, List.mem_cons]
      by_cases hp : p = a
      · simp [hp, ha]
      · simp [hp]

/-! ### OBJECT_PIN -/

theorem Rgn.pageRange_some {g : Rgn} {q : Req} {r : Region} (h : g.pageRange q = some r) : g.get r.id = some r := by
  unfold Rgn.pageRange at h
  split at h
  · cases h
  · have hget := (Option.filter_eq_some_iff.1 h).1
    rwa [Rgn.get_some hget]

/-- What OBJECT_PIN makes of a region: the pages outside the range stay, those inside are pinned in their tier or released. -/
structure Pinned (target : Nat) (range : List Nat) (r r' : Region) : Prop where
  outside : ∀ p, p ∉ range → (p ∈ r'.inT2 ↔ p ∈ r.inT2) ∧ (p ∈ r'.pinned ↔ p ∈ r.pinned)
  released : target = 0 → r'.inT2 = r.inT2 ∧ ∀ p ∈ range, p ∉ r'.pinned
  toT2 : target = 1 → ∀ p ∈ range, p ∈ r'.inT2 ∧ p ∈ r'.pinned
  toT3 : target = 2 → ∀ p ∈ range, p ∉ r'.inT2 ∧ p ∈ r'.pinned

/-- The pins of a region once a range is pinned. -/
def Region.pinsWith (r : Region) (range : List Nat) : List Nat := (r.pinned.filter fun p => !range.contains p) ++ range

theorem Region.mem_pinsWith (r : Region) (range : List Nat) (p : Nat) : p ∈ r.pinsWith range ↔ p ∈ r.pinned ∨ p ∈ range := by
  by_cases hp : p ∈ range <;> simp [Region.pinsWith, hp]

/-- A range is pinned, and migrations of its pages are abandoned (R198). -/
def State.pinRange (s : State) (r : Region) (range : List Nat) : State :=
  { s with rgn := (range.foldl (fun (g : Rgn) p => g.abandonMigration r.id p) s.rgn).put (r.withPins (r.pinsWith range)) }

theorem State.pinRange_region {s : State} {r : Region} (h : s.rgn.get r.id = some r) (range : List Nat) :
    OnlyRegion r.id s (s.pinRange r range) (r.withPins (r.pinsWith range)) :=
  .of_put h (foldl_keeps (P := fun g : Rgn => g.regions = s.rgn.regions) (f := fun g p => g.abandonMigration r.id p)
    (fun _ _ hg => hg) range s.rgn rfl) rfl rfl rfl

theorem objectPinBody_ok {s : State} {q : Req} {r : Region} (hr : s.rgn.pageRange q = some r) (hkind : r.kind = 1)
    (hstale : r.stale = false) (htarget : bits (q.f 1 1) 1 0 ≠ 3)
    (hroom : bits (q.f 1 1) 1 0 = 1 → r.inT2.length + (rangePages q).length ≤ r.t2Pages ∧ r.pinned.length ≤ r.inT2.length) :
    ∃ u r', objectPinBody q s = (u, rcode cOK) ∧ OnlyRegion r.id s u r' ∧ Pinned (bits (q.f 1 1) 1 0) (rangePages q) r r' := by
  have hget := Rgn.pageRange_some hr
  have hlt : bits (q.f 1 1) 1 0 < 4 := Nat.mod_lt _ (by decide)
  unfold objectPinBody
  simp only [hr]
  rw [if_neg (by simp [hkind, htarget])]
  generalize bits (q.f 1 1) 1 0 = target at *
  generalize rangePages q = range at *
  have hpinned := State.pinRange_region hget range
  obtain rfl | rfl | rfl : target = 0 ∨ target = 1 ∨ target = 2 := by omega
  · refine ⟨_, _, rfl, .of_put (r' := r.withPins (r.pinned.filter fun p => !range.contains p)) hget rfl rfl rfl rfl, ?_, ?_, ?_, ?_⟩
    · exact fun p hp => ⟨Iff.rfl, by simp [Region.withPins, hp]⟩
    · exact fun _ => ⟨rfl, fun p hp => by simp [Region.withPins, hp]⟩
    · intro h; cases h
    · intro h; cases h
  · obtain ⟨hfits, hpins⟩ := hroom rfl
    have hothers : (r.pinned.filter fun p => r.inT2.contains p && !range.contains p).length ≤ r.pinned.length :=
      List.length_filter_le _ _
    obtain ⟨x, hx, hmem⟩ := State.pinPages_region range range (r := r.withPins (r.pinsWith range)) hpinned.here hfits
    rw [if_neg (by decide), if_neg (by simp only [BEq.rfl, Bool.true_and, decide_eq_true_eq]; omega),
      if_neg (by simp [hstale])]
    refine ⟨_, _, rfl, hpinned.trans hx, fun p hp => ?_, fun h => ?_, fun _ p hp => ?_, fun h => ?_⟩
    · simp [Region.withT2, Region.withPins, hmem, Region.mem_pinsWith, hp]
    · cases h
    · simp [Region.withT2, Region.withPins, hmem, Region.mem_pinsWith, hp]
    · cases h
  · obtain ⟨x, hx, hmem⟩ := State.unpinPages_region r.inT2 range (r := r.withPins (r.pinsWith range)) hpinned.here
    rw [if_neg (by decide), if_neg (by simp), if_neg (by simp [hstale])]
    refine ⟨_, _, rfl, hpinned.trans hx, fun p hp => ?_, fun h => ?_, fun h => ?_, fun _ p hp => ?_⟩
    · simp [Region.withT2, Region.withPins, hmem, Region.mem_pinsWith, hp]
    · cases h
    · cases h
    · simp [Region.withT2, Region.withPins, hmem, Region.mem_pinsWith, hp]

/-! ### The statement -/

/-- Settles O28: a pin range's pages move one by one, each move changing the place of its own page only. -/
theorem pinningPlaces : Obligations.PinningPlaces := by
  unfold Obligations.PinningPlaces
  refine ⟨?_, ?_⟩
  · rintro s k q r rfl hInv hserved hr hkind htarget hstale hroom
    obtain ⟨u, r', hbody, hregion, hpinned⟩ := objectPinBody_ok (s := s.taken k) hr hkind hstale htarget hroom
    obtain ⟨hreplied, hkeeps⟩ := hserved.take_replied hInv.mbx hbody (by decide) hregion.mbx
    have hrgn : (s.take k (·.opcode == 0x0204) objectPinBody).rgn = u.rgn := hkeeps .rgn (by decide)
    exact ⟨_, r', rfl, hreplied, by rw [hrgn, hregion.here], hpinned.outside, hpinned.released, hpinned.toT2, hpinned.toT3,
      fun i hi => by rw [hrgn, hregion.others i hi]; rfl⟩
  · intro s k r hInv hserved hid hzero hr
    have hbody : regionInfoBody (s.asks k) (s.taken k) = (s.taken k, some (cOK, s.rgn.infoBytes r)) := by
      unfold regionInfoBody
      rw [if_neg (by simp [hid, hzero])]
      simp only [State.taken, hr]
    obtain ⟨hreplied, hkeeps⟩ := hserved.take_replied hInv.mbx hbody (by decide) rfl
    have haon : (s.take k (·.opcode == 0x0207) regionInfoBody).aon = (s.taken k).aon := hkeeps .aon (by decide)
    exact ⟨_, rfl, hreplied, (s.taken_keeps k).trans (hkeeps.mono (by decide)), by rw [haon]; rfl⟩

end Sys2Proof.Machine
end

section
/-! SUPPORT. Slots in a STACK region: their bytes lie in one row of keys, a write to a slot is read back, and what it does not reach
reads as before (R187, R276, R279). -/

namespace Sys2Proof.Machine

/-! ### Ranges of a STACK region -/

/-- Parts of a range one after the other. -/
inductive InRow : Nat → Nat → List (Nat × Nat) → Prop
  | nil (off : Nat) : InRow off 0 []
  | cons {off k n : Nat} {cs : List (Nat × Nat)} (h : InRow (off + k) n cs) : InRow off (k + n) ((off, k) :: cs)

theorem pageChunks_inRow : ∀ {n len off : Nat}, off % pageBytes + len ≤ n * pageBytes → InRow off len (pageChunks len off n) := by
  intro n
  induction n with
  | zero =>
    intro len off h
    obtain rfl : len = 0 := by omega
    exact .nil off
  | succ n ih =>
    intro len off h
    unfold pageChunks
    split
    · rename_i h0
      exact h0 ▸ .nil off
    · generalize hmin : min len (pageBytes - off % pageBytes) = k
      have hrest : InRow (off + k) (len - k) (pageChunks (len - k) (off + k) n) := by
        rcases Nat.le_total len (pageBytes - off % pageBytes) with hle | hle
        · obtain rfl : len = k := (Nat.min_eq_left hle).symm.trans hmin
          rw [Nat.sub_self, pageChunks_empty]
          exact .nil _
        · obtain rfl : pageBytes - off % pageBytes = k := (Nat.min_eq_right hle).symm.trans hmin
          refine ih ?_
          unfold pageBytes at *
          omega
      have hrow := InRow.cons hrest
      rw [show k + (len - k) = len by omega] at hrow
      exact hrow

theorem chunksOf_inRow (off len : Nat) : InRow off len (chunksOf off len) := pageChunks_inRow (chunksOf_fuel off len)

theorem Region.key_stack {r : Region} (h : r.kind = 0) (off : Nat) : r.key off = r.id * 2 ^ 42 + off := by
  simp [Region.key, Region.pageInT2, h]

theorem upFrom_add (lo a b : Nat) : upFrom lo (a + b) = upFrom lo a ++ upFrom (lo + a) b := by
  simp [upFrom, List.range_add, Function.comp_def, Nat.add_assoc]

/-- A range of a STACK region reads the keys from its first on. -/
theorem State.regionBytes_stack (s : State) {r : Region} (h : r.kind = 0) (off len : Nat) :
    s.regionBytes r off len = (upFrom (r.key off) len).map s.byte := by
  have hrow : ∀ {off len : Nat} {cs : List (Nat × Nat)}, InRow off len cs →
      cs.flatMap (fun c => (upFrom (r.key c.1) c.2).map s.byte) = (upFrom (r.key off) len).map s.byte := by
    intro off len cs hcs
    induction hcs with
    | nil off => rfl
    | cons _ ih =>
      rw [List.flatMap_cons, ih, upFrom_add, List.map_append, Region.key_stack h, Region.key_stack h, Nat.add_assoc]
  exact hrow (chunksOf_inRow off len)

/-- A store after a store right before it. -/
theorem Stores.append {s t u : State} {k : Nat} {d e : Bytes} (h : Stores s k d t) (g : Stores t (k + d.length) e u) :
    Stores s k (d ++ e) u := by
  refine ⟨g.sound, h.alike.trans g.alike, fun a => ?_⟩
  rw [g.bytes, h.bytes, List.length_append]
  by_cases h2 : k + d.length ≤ a ∧ a < k + d.length + e.length
  · rw [if_pos h2, if_pos (by omega), List.getD_append_right _ _ _ _ (by omega), Nat.sub_add_eq]
  · rw [if_neg h2]
    by_cases h1 : k ≤ a ∧ a < k + d.length
    · rw [if_pos h1, if_pos (by omega), List.getD_append _ _ _ _ (by omega)]
    · rw [if_neg h1, if_neg (by omega)]

/-- One page's part of a write to a region. -/
def State.writePart (r : Region) (a : State × Bytes) (c : Nat × Nat) : State × Bytes :=
  (((a.1.writeKey (r.key c.1) (a.2.take c.2)).placeKey r c.1 (r.key c.1) c.2), a.2.drop c.2)

theorem State.writePart_stores {s : State} (h : s.Sound) (r : Region) (d : Bytes) (c : Nat × Nat) :
    Stores s (r.key c.1) (d.take c.2) (State.writePart r (s, d) c).1 := by
  have hrgn : (State.writePart r (s, d) c).1.rgn = (s.writeKey (r.key c.1) (d.take c.2)).rgn :=
    State.placeKey_keeps _ _ _ _ _ .rgn (by decide)
  exact (State.writeKey_stores h _ _).trans_data (State.placeKey_data _ _ _ _ _) (hrgn ▸ .refl _)

/-- A write to a STACK region stores its bytes in the keys from its first on. -/
theorem State.writeRegion_stack {s : State} (h : s.Sound) {r : Region} (hk : r.kind = 0) (off : Nat) (d : Bytes) :
    Stores s (r.key off) d (s.writeRegion r off d) := by
  have hrow : ∀ {off len : Nat} {cs : List (Nat × Nat)}, InRow off len cs → ∀ {t : State} {e : Bytes}, t.Sound → e.length = len →
      Stores t (r.key off) e (cs.foldl (State.writePart r) (t, e)).1 := by
    intro off len cs hcs
    induction hcs with
    | nil off =>
      intro t e ht he
      obtain rfl := List.eq_nil_of_length_eq_zero he
      exact .nil ht _
    | @cons off k n cs _ ih =>
      intro t e ht he
      have hfirst := State.writePart_stores ht r e (off, k)
      have hrest := ih (e := e.drop k) hfirst.sound (by rw [List.length_drop]; omega)
      have htake : (e.take k).length = k := by rw [List.length_take]; omega
      have hkey : r.key (off + k) = r.key off + (e.take k).length := by
        rw [htake, Region.key_stack hk, Region.key_stack hk, Nat.add_assoc]
      rw [hkey] at hrest
      have hboth := hfirst.append hrest
      rw [List.take_append_drop] at hboth
      exact hboth
  have hparts := hrow (chunksOf_inRow off d.length) h rfl
  have habandon := Stores.trans_data hparts
    (u := { ((chunksOf off d.length).foldl (State.writePart r) (s, d)).1 with
      rgn := (chunksOf off d.length).foldl (fun g c => g.writeAbandons r.id (c.1 / pageBytes))
        ((chunksOf off d.length).foldl (State.writePart r) (s, d)).1.rgn })
    ⟨rfl, rfl, rfl, rfl⟩ (Rgn.Alike.foldl (fun g c => g.writeAbandons_alike _ _) _ _)
  exact habandon.trans_data ((State.heatAccess_keeps _ _ _ _).sameData (by decide)) (State.heatAccess_alike _ _ _ _)

/-! ### Slots -/

/-- A slot lies in a STACK region, from a key on. -/
def State.SlotKey (s : State) (d : ShardDef) (slot key : Nat) : Prop :=
  ∃ r o, s.slotAt d slot = some (r, o) ∧ r.kind = 0 ∧ r.key o = key

theorem State.slotAt_alike {s t : State} (h : s.rgn.Alike t.rgn) (d : ShardDef) (slot : Nat) :
    (t.slotAt d slot).map (fun x => (x.1.cold, x.2)) = (s.slotAt d slot).map fun x => (x.1.cold, x.2) := by
  have hget := h.get d.region
  have hmap : ∀ r r' : Region, r'.cold = r.cold → r'.map = r.map := fun r r' hr =>
    (congrArg Region.map hr : r'.cold.map = r.cold.map)
  unfold State.slotAt
  cases ht : t.rgn.get d.region <;> cases hs : s.rgn.get d.region <;> rw [ht, hs] at hget
  case none.some => cases hget
  case some.none => cases hget
  case some.some x y =>
    have hcold : x.cold = y.cold := Option.some.inj hget
    dsimp only
    rw [hmap y x hcold]
    cases y.map with
    | none => rfl
    | some m => simp [hcold]

theorem State.SlotKey.after {s t : State} {d : ShardDef} {slot key : Nat} (h : s.SlotKey d slot key) (ha : s.rgn.Alike t.rgn) :
    t.SlotKey d slot key := by
  obtain ⟨r, o, hs, hkind, hkey⟩ := h
  have hslot := State.slotAt_alike ha d slot
  rw [hs] at hslot
  cases ht : t.slotAt d slot with
  | none => rw [ht] at hslot; cases hslot
  | some x =>
    obtain ⟨r', o'⟩ := x
    rw [ht] at hslot
    injection hslot with hslot
    injection hslot with hcold hoff
    have hkind' : r'.kind = r.kind := (congrArg Region.kind hcold : r'.cold.kind = r.cold.kind)
    refine ⟨r', o', ht, hkind'.trans hkind, ?_⟩
    rw [Region.key_of_cold hcold, show o' = o from hoff, hkey]

/-- A slot reads the keys from its own on. -/
theorem State.SlotKey.read {s : State} {d : ShardDef} {slot key : Nat} (h : s.SlotKey d slot key) (hs : s.Sound) (off n : Nat) :
    s.slotRead d slot off n = (upFrom (key + off) n).map s.byte := by
  obtain ⟨r, o, hslot, hkind, rfl⟩ := h
  simp only [State.slotRead, hslot]
  rw [(State.readRegion_spec hs r (o + off) n).1, State.regionBytes_stack s hkind, Region.key_stack hkind, Region.key_stack hkind,
    Nat.add_assoc]

theorem State.SlotKey.write {s : State} {d : ShardDef} {slot key : Nat} (h : s.SlotKey d slot key) (hs : s.Sound) (off : Nat)
    (b : Bytes) : Stores s (key + off) b (s.slotWrite d slot off b) := by
  obtain ⟨r, o, hslot, hkind, rfl⟩ := h
  simp only [State.slotWrite, hslot]
  have hkey : r.key o + off = r.key (o + off) := by rw [Region.key_stack hkind, Region.key_stack hkind, Nat.add_assoc]
  exact hkey ▸ State.writeRegion_stack hs hkind (o + off) b

/-- What was written is read back. -/
theorem State.SlotKey.read_stored {s t : State} {d : ShardDef} {slot key off : Nat} {b : Bytes} (h : t.SlotKey d slot key)
    (hst : Stores s (key + off) b t) : t.slotRead d slot off b.length = b := by
  rw [h.read hst.sound]
  refine List.ext_getElem (by simp [upFrom]) fun i hi hb => ?_
  simp only [upFrom, List.getElem_map, List.getElem_range]
  rw [hst.bytes, if_pos (by omega), Nat.add_sub_cancel_left, List.getD_eq_getElem _ _ hb]

/-- A part of a slot that nothing has written reads as before. -/
theorem State.SlotKey.read_kept {s t : State} {W : Nat → Prop} {d : ShardDef} {slot key off n : Nat} (h : s.SlotKey d slot key)
    (hs : s.Sound) (hr : Rewrites W s t) (hw : ∀ a, key + off ≤ a → a < key + off + n → ¬ W a) :
    t.slotRead d slot off n = s.slotRead d slot off n := by
  rw [(h.after hr.alike).read hr.sound, h.read hs]
  refine List.map_congr_left fun a ha => ?_
  obtain ⟨i, hi, rfl⟩ := List.mem_map.1 ha
  have hi := List.mem_range.1 hi
  exact hr.bytes _ (hw _ (by omega) (by omega))

/-- Wherever a slot lies, it reads the same while no byte changes. -/
theorem State.slotRead_congr {s t : State} (hs : s.Sound) (h : Rewrites (fun _ => False) s t) (d : ShardDef) (slot off n : Nat) :
    t.slotRead d slot off n = s.slotRead d slot off n := by
  have hslot := State.slotAt_alike h.alike d slot
  have hbyte : t.byte = s.byte := funext fun a => h.bytes a not_false
  unfold State.slotRead
  cases ht : t.slotAt d slot <;> cases hs' : s.slotAt d slot <;> rw [ht, hs'] at hslot
  case none.some => cases hslot
  case some.none => cases hslot
  case some.some x y =>
    injection hslot with hslot
    injection hslot with hcold hoff
    dsimp only
    rw [(State.readRegion_spec h.sound _ _ _).1, (State.readRegion_spec hs _ _ _).1]
    simp only [State.regionBytes, hbyte, Region.key_of_cold hcold, show x.2 = y.2 from hoff]

/-- Memory, regions and coherence directories are the same. -/
def SameStore (s t : State) : Prop := t.mem = s.mem ∧ t.rgn = s.rgn ∧ t.coh = s.coh

theorem SameStore.cleanRange {s t : State} (h : SameStore s t) (lo n : Nat) : SameStore (s.cleanRange lo n) (t.cleanRange lo n) := by
  obtain ⟨hmem, hrgn, hcoh⟩ := h
  simp only [SameStore, State.cleanRange, hmem, hrgn, hcoh, and_self]

theorem SameStore.wakeRange {s t : State} (h : SameStore s t) (lo n : Nat) : SameStore (s.wakeRange lo n) (t.wakeRange lo n) := by
  obtain ⟨hmem, hrgn, hcoh⟩ := h
  unfold State.wakeRange
  rw [hmem, hrgn]
  split
  · exact ⟨hmem, hrgn, hcoh⟩
  · exact ⟨rfl, rfl, hcoh⟩

theorem SameStore.placeKey {s t : State} (h : SameStore s t) (r : Region) (off k n : Nat) :
    SameStore (s.placeKey r off k n) (t.placeKey r off k n) := by
  obtain ⟨hmem, hrgn, hcoh⟩ := h
  unfold State.placeKey
  rw [hrgn, hcoh]
  split
  · exact ⟨hmem, hrgn, hcoh⟩
  · exact ⟨hmem, rfl, rfl⟩

/-- Where the store is the same, the slots read the same. -/
theorem Keeps.slotRead {l : List Part} {s t : State} (h : Keeps l s t) (hl : .mem ∉ l ∧ .rgn ∉ l ∧ .coh ∉ l) :
    t.slotRead = s.slotRead := by
  have hstore : ∀ (r : Region) (cs : List (Nat × Nat)) {u v : State}, SameStore u v →
      SameStore (cs.foldl (fun s c => s.fetchPart r c) u) (cs.foldl (fun s c => s.fetchPart r c) v) := by
    intro r cs
    induction cs with
    | nil => exact fun huv => huv
    | cons c cs ih => exact fun huv => ih (((huv.cleanRange _ _).wakeRange _ _).placeKey r _ _ _)
  have hsame : SameStore s t := ⟨h .mem hl.1, h .rgn hl.2.1, h .coh hl.2.2⟩
  funext d slot off n
  have hslot : t.slotAt d slot = s.slotAt d slot := by simp only [State.slotAt, hsame.2.1]
  unfold State.slotRead
  rw [hslot]
  split
  · rename_i r o _
    show (r.chunks (o + off) n).flatMap (fun c => ((chunksOf (o + off) n).foldl (fun s c => s.fetchPart r c) t).mem.read c.1 c.2) = _
    rw [(hstore r (chunksOf (o + off) n) hsame).1]
    rfl
  · rfl

end Sys2Proof.Machine
end

section
/-! SUPPORT. Lines of a slot: a field of a byte string comes back, a seal line is read as it was written, and what the update of a
segment writes (R281, R283, R299, R301). -/

namespace Sys2Proof.Machine

/-! ### Fields -/

/-- A field that stands in a byte string. -/
theorem fld_at {l a b : Bytes} {off n v : Nat} (h : l = a ++ (leBytes n v ++ b)) (ha : a.length = off) :
    fld l off n = v % 256 ^ n := by
  rw [fld, h, ← ha, List.drop_left, List.take_left' (leBytes_length n v), leNat_leBytes]

theorem crc32Shift_lt : ∀ (n : Nat) {c : Nat}, c < 2 ^ 32 → crc32Shift n c < 2 ^ 32 := by
  intro n
  induction n with
  | zero => exact fun h => h
  | succ n ih =>
    intro c h
    refine ih ?_
    split
    · exact Nat.xor_lt_two_pow (by omega) (by decide)
    · omega

theorem crc32c_lt (l : Bytes) : crc32c l < 2 ^ 32 := by
  have hupd : ∀ (l : Bytes) (c : Nat), c < 2 ^ 32 → crc32cUpd c l < 2 ^ 32 := by
    intro l
    induction l with
    | nil => exact fun c h => h
    | cons b r ih =>
      intro c h
      rw [crc32cUpd, eager_eq]
      exact ih _ (crc32Shift_lt 8 (Nat.xor_lt_two_pow h (Nat.lt_trans b.isLt (by decide))))
  exact Nat.xor_lt_two_pow (hupd l _ (by decide)) (by decide)

/-! ### Header and seal -/

@[simp] theorem SlotHdr.bytes_length (h : SlotHdr) : h.bytes.length = 64 := by simp [SlotHdr.bytes]

@[simp] theorem Seal.bytes_length (x : Seal) : x.bytes.length = 64 := by simp [Seal.bytes]

/-- A seal line that says SEALED is read with its round and ring. -/
theorem Seal.parse_bytes {x : Seal} (h : x.state = 2) :
    ∃ y, Seal.parse x.bytes = some y ∧ y.round = x.round % 256 ∧ y.ring = x.ring % 2 ^ 64 := by
  let b := leBytes 1 x.state ++ leBytes 1 x.round ++ zeros 2 ++ leBytes 4 x.nonfinite ++ leBytes 8 x.ring
    ++ leBytes 8 x.blaze ++ leBytes 8 x.mode ++ leBytes 4 x.sumsq ++ zeros 24
  have hb : b.length = 0x3C := by simp [b]
  have hbytes : x.bytes = b ++ (leBytes 4 (crc32c b) ++ []) := by rw [List.append_nil]; rfl
  have htake : x.bytes.take 0x3C = b := by rw [hbytes, List.take_left' hb]
  have hcheck : fld x.bytes 0x3C 4 = crc32c (x.bytes.take 0x3C) := by
    rw [htake, fld_at hbytes hb]
    exact Nat.mod_eq_of_lt (crc32c_lt b)
  have hstate : byteAt x.bytes 0 = 2 := by
    have : byteAt x.bytes 0 = (BitVec.ofNat 8 x.state).toNat := rfl
    rw [this, h]
    rfl
  have hround : byteAt x.bytes 1 = x.round % 256 := by
    have : byteAt x.bytes 1 = (BitVec.ofNat 8 x.round).toNat := rfl
    rw [this, BitVec.toNat_ofNat]
  have hring : fld x.bytes 8 8 = x.ring % 2 ^ 64 := by
    refine fld_at (a := leBytes 1 x.state ++ leBytes 1 x.round ++ zeros 2 ++ leBytes 4 x.nonfinite)
      (b := leBytes 8 x.blaze ++ leBytes 8 x.mode ++ leBytes 4 x.sumsq ++ zeros 24 ++ leBytes 4 (crc32c b)) ?_ (by simp)
    simp only [hbytes, b, List.append_assoc, List.append_nil]
  have hparse : Seal.parse x.bytes = some ⟨2, byteAt x.bytes 1, fld x.bytes 4 4, fld x.bytes 8 8, fld x.bytes 0x10 8,
      fld x.bytes 0x18 8, fld x.bytes 0x20 4⟩ := by
    unfold Seal.parse
    rw [if_pos (by simp [hcheck, hstate])]
  rw [hparse, hround, hring]
  exact ⟨_, rfl, rfl, rfl⟩

/-! ### The update of a segment -/

@[simp] theorem wordsOf_length (n : Nat) : ∀ (k : Nat) (b : Bytes), (wordsOf n k b).length = k := by
  intro k
  induction k with
  | zero => intro b; rfl
  | succ k ih => intro b; simp [wordsOf, ih]

@[simp] theorem auSeg_length (a : AuParams) (c : AuConst) (k : Option Nat) (g m v w : List Nat) :
    (auSeg a c k g m v w).length = g.length := by simp [auSeg]

theorem le_roundUp (a : Nat) : a ≤ roundUp a 65536 := by
  unfold roundUp ceilDiv
  omega

theorem ShardDef.records_fit (d : ShardDef) : 128 + 32 * d.segs ≤ d.gredOff := le_roundUp _

/-- The areas of a slot follow each other, and a segment lies inside its areas (R279). -/
theorem ShardDef.areas (d : ShardDef) {j : Nat} (hj : j < d.segs) :
    d.gredOff ≤ d.mOff ∧ d.mOff ≤ d.wOff ∧ 4 * d.segFirst j + 4 * d.segCount j ≤ roundUp (4 * d.params) 65536
      ∧ d.mOff + roundUp (4 * d.params) 65536 ≤ d.slotBytes ∧ d.wOff + roundUp (4 * d.params) 65536 = d.slotBytes
      ∧ (d.moments = 2 → d.vOff + roundUp (4 * d.params) 65536 ≤ d.slotBytes) := by
  have hround := le_roundUp (4 * d.params)
  have hfirst : 32768 * j < d.params := by
    unfold ShardDef.segs ceilDiv at hj
    omega
  simp only [ShardDef.slotBytes, ShardDef.wOff, ShardDef.vOff, ShardDef.mOff, ShardDef.segFirst, ShardDef.segCount]
  refine ⟨by omega, by omega, by omega, by omega, trivial, fun h => ?_⟩
  rw [h]
  omega

/-- The element results of a segment's update. -/
def State.segResults (s : State) (d : ShardDef) (a : AuParams) (c : AuConst) (k : Option Nat) (src dst j : Nat) :
    List (Nat × Nat × Nat × Nat) :=
  auSeg a c k (wordsOf 2 (d.segCount j) (s.gredSeg d dst j)) (wordsOf 4 (d.segCount j) (s.momSeg d src j).1)
    (wordsOf 4 (d.segCount j) (s.momSeg d src j).2) (wordsOf 4 (d.segCount j) (s.wSeg d src j))

/-- The moments and weights of a segment's results are written. -/
def State.writeResults (s : State) (d : ShardDef) (dst j : Nat) (es : List (Nat × Nat × Nat × Nat)) : State :=
  let s := s.slotWrite d dst (d.mOff + 4 * d.segFirst j) (es.flatMap fun e => leBytes 4 e.2.1)
  let s := if d.moments = 2 then s.slotWrite d dst (d.vOff + 4 * d.segFirst j) (es.flatMap fun e => leBytes 4 e.2.2.1) else s
  s.slotWrite d dst (d.wOff + 4 * d.segFirst j) (es.flatMap fun e => leBytes 4 e.2.2.2)

/-- The digests of a segment are written. -/
def State.writeDigests (s : State) (d : ShardDef) (dst j : Nat) : State :=
  s.slotWrite d dst (0x88 + 32 * j) (leBytes 8 (s.segDigests d dst j).1 ++ leBytes 8 (s.segDigests d dst j).2)

theorem State.updateSeg_state (s : State) (d : ShardDef) (a : AuParams) (c : AuConst) (k : Option Nat) (src dst j : Nat) :
    (s.updateSeg d a c k src dst j).1
      = (s.writeResults d dst j (s.segResults d a c k src dst j)).writeDigests d dst j := rfl

/-- Within a slot. -/
def inSlot (key n a : Nat) : Prop := key ≤ a ∧ a < key + n

theorem State.SlotKey.write_within {s : State} {d : ShardDef} {slot key : Nat} (h : s.SlotKey d slot key) (hs : s.Sound)
    {off n : Nat} {b : Bytes} (hfit : off + b.length ≤ n) : Rewrites (inSlot key n) s (s.slotWrite d slot off b) :=
  (h.write hs off b).rewrites fun a hlo hhi => ⟨by omega, by omega⟩

theorem flatMap_leBytes_length {α : Type} (f : α → Nat) (n : Nat) (l : List α) :
    (l.flatMap fun e => leBytes n (f e)).length = n * l.length := by
  simp [List.length_flatMap, Nat.mul_comm]

/-- The results of a segment are written inside its slot, and its weights are read back. -/
theorem State.writeResults_spec {s : State} (hs : s.Sound) {d : ShardDef} {dst key j : Nat} (h : s.SlotKey d dst key)
    (hj : j < d.segs) {es : List (Nat × Nat × Nat × Nat)} (hes : es.length = d.segCount j) :
    Rewrites (inSlot key d.slotBytes) s (s.writeResults d dst j es)
      ∧ (s.writeResults d dst j es).wSeg d dst j = es.flatMap fun e => leBytes 4 e.2.2.2 := by
  obtain ⟨-, -, hseg, hm, hw, hv⟩ := d.areas hj
  have hlen : ∀ f : Nat × Nat × Nat × Nat → Nat, (es.flatMap fun e => leBytes 4 (f e)).length = 4 * d.segCount j := fun f => by
    rw [flatMap_leBytes_length, hes]
  have hmoment := h.write_within hs (off := d.mOff + 4 * d.segFirst j) (n := d.slotBytes)
    (b := es.flatMap fun e => leBytes 4 e.2.1) (by rw [hlen]; omega)
  have hsecond : ∀ t, Rewrites (inSlot key d.slotBytes) s t → Rewrites (inSlot key d.slotBytes) s
      (if d.moments = 2 then t.slotWrite d dst (d.vOff + 4 * d.segFirst j) (es.flatMap fun e => leBytes 4 e.2.2.1) else t) := by
    intro t ht
    split
    · rename_i h2
      exact ht.trans ((h.after ht.alike).write_within ht.sound (by rw [hlen]; have := hv h2; omega))
    · exact ht
  have hboth := hsecond _ hmoment
  have hweights := (h.after hboth.alike).write hboth.sound (d.wOff + 4 * d.segFirst j) (es.flatMap fun e => leBytes 4 e.2.2.2)
  refine ⟨hboth.trans ((h.after hboth.alike).write_within hboth.sound (by rw [hlen]; omega)), ?_⟩
  have hread := ((h.after hboth.alike).after hweights.alike).read_stored hweights
  rw [hlen] at hread
  exact hread

/-- The update of a segment stays inside the slot, and leaves the weights that R296 gives. -/
theorem State.updateSeg_spec {s : State} (hs : s.Sound) {d : ShardDef} {dst key j : Nat} (h : s.SlotKey d dst key)
    (hj : j < d.segs) (a : AuParams) (c : AuConst) (k : Option Nat) (src : Nat) :
    Rewrites (inSlot key d.slotBytes) s (s.updateSeg d a c k src dst j).1
      ∧ (s.updateSeg d a c k src dst j).1.wSeg d dst j
        = (s.segResults d a c k src dst j).flatMap fun e => leBytes 4 e.2.2.2 := by
  have hrecords := d.records_fit
  obtain ⟨hgm, hmw, -, -, hw, -⟩ := d.areas hj
  obtain ⟨hresults, hread⟩ := State.writeResults_spec hs h hj (es := s.segResults d a c k src dst j) (by simp [State.segResults])
  have hkey := h.after hresults.alike
  rw [State.updateSeg_state]
  generalize s.writeResults d dst j (s.segResults d a c k src dst j) = v at hresults hread hkey
  refine ⟨hresults.trans (hkey.write_within hresults.sound (by simp; omega)), ?_⟩
  rw [← hread]
  refine hkey.read_kept hresults.sound (hkey.write_within (n := d.gredOff) hresults.sound (by simp; omega)) fun x hlo _ hx => ?_
  have := hx.2
  omega

end Sys2Proof.Machine
end

section
/-! SUPPORT. ARRIVAL_UPDATE and SEGMENT_UPDATE_DONE: the pending slot opens, and its segments are updated in it (R295, R299, R304,
R315). -/

namespace Sys2Proof.Machine

/-! ### A step but for its instances -/

/-- A step without its instances and phases, which are all that the issue and the end of an instance change in it. -/
def Step.bare (st : Step) : Step := { st with insts := [], phases := [] }

/-- Two states of one attempt of a step in one round. -/
structure Step.SameAttempt (x st : Step) : Prop where
  tag : x.tag = st.tag
  plan : x.plan = st.plan
  ring : x.ring = st.ring
  attempt : x.attempt = st.attempt
  round : x.round = st.round
  verdictFree : x.verdictFree = st.verdictFree
  lsExp : x.lsExp = st.lsExp

theorem Step.SameAttempt.of_bare {x st : Step} (h : x.bare = st.bare) : x.SameAttempt st :=
  ⟨(congrArg Step.tag h : x.bare.tag = st.bare.tag), (congrArg Step.plan h : x.bare.plan = st.bare.plan),
    (congrArg Step.ring h : x.bare.ring = st.bare.ring), (congrArg Step.attempt h : x.bare.attempt = st.bare.attempt),
    (congrArg Step.round h : x.bare.round = st.bare.round),
    (congrArg Step.verdictFree h : x.bare.verdictFree = st.bare.verdictFree),
    (congrArg Step.lsExp h : x.bare.lsExp = st.bare.lsExp)⟩

/-- The steps, the active one without its instances and phases. -/
def State.bareStp (s : State) : Stp := { s.stp with active := s.stp.active.map Step.bare }

theorem Keeps.bareStp {l : List Part} {s t : State} (h : Keeps l s t) (hl : .stp ∉ l) : t.bareStp = s.bareStp := by
  have hstp : t.stp = s.stp := h .stp hl
  rw [State.bareStp, hstp, State.bareStp]

theorem State.onStep_bare (s : State) {f : Step → Step} (hf : ∀ st, (f st).bare = st.bare) : (s.onStep f).bareStp = s.bareStp := by
  simp only [State.bareStp, State.onStep, Option.map_map, Function.comp_def, hf]

theorem State.trace_bare (s : State) (c : Nat) (w : Bool) (ty k u : Nat) (p : Bytes) :
    (s.trace c w ty k u p).bareStp = s.bareStp := rfl

theorem State.phaseStart_bare (s : State) (i : Nat) : (s.phaseStart i).bareStp = s.bareStp := by
  unfold State.phaseStart
  split
  · rfl
  · split
    · rfl
    · exact s.onStep_bare fun _ => rfl

theorem State.phaseEnd_bare (s : State) (i : Nat) : (s.phaseEnd i).bareStp = s.bareStp := by
  unfold State.phaseEnd
  split
  · rfl
  · exact s.onStep_bare fun _ => rfl

theorem State.setInst_bare (s : State) (op mb : Nat) (x : InstState) : (s.setInst op mb x).bareStp = s.bareStp :=
  s.onStep_bare fun _ => rfl

theorem State.issue_bare (s : State) (p : Plan) (st : Step) (op mb : Nat) : (s.issue p st op mb).bareStp = s.bareStp := by
  have hadd : (s.onStep fun st => { st with insts := st.insts ++ [⟨op, mb, .issued⟩] }).bareStp = s.bareStp :=
    s.onStep_bare fun _ => rfl
  unfold State.issue
  dsimp only
  rw [State.trace_bare]
  split
  · exact (State.phaseStart_bare _ _).trans hadd
  · exact hadd

theorem State.enter_bare {s u : State} {st : Step} {p : Plan} {code op mb : Nat} (h : s.enter code op mb = some (u, st, p)) :
    s.stepPlan = some (st, p) ∧ u.bareStp = s.bareStp := by
  unfold State.enter at h
  split at h
  · cases h
  · rename_i st' p' hsp
    split at h
    · cases h
    · split at h
      · cases h
        exact ⟨hsp, s.issue_bare p st op mb⟩
      · split at h
        · split at h
          · cases h
            exact ⟨hsp, s.setInst_bare op mb _⟩
          · cases h
        · cases h

/-- The plan of a step is found while only its instances and phases change. -/
theorem State.stepPlan_bare {s t : State} {st : Step} {p : Plan} (h : s.stepPlan = some (st, p)) (hpln : t.pln = s.pln)
    (hb : t.bareStp = s.bareStp) : ∃ st', t.stepPlan = some (st', p) ∧ st'.bare = st.bare := by
  simp only [State.stepPlan, Option.bind_eq_some_iff, Option.map_eq_some_iff] at h
  obtain ⟨_, hact, _, hplan, rfl, rfl⟩ := h
  have hstep : t.stp.active.map Step.bare = s.stp.active.map Step.bare := congrArg Stp.active hb
  rw [hact, Option.map_some, Option.map_eq_some_iff] at hstep
  obtain ⟨st', hact', hbare⟩ := hstep
  refine ⟨st', ?_, hbare⟩
  simp only [State.stepPlan, hact', Option.bind_some, hpln, (Step.SameAttempt.of_bare hbare).plan, hplan, Option.map_some]

/-! ### Updates by shard -/

theorem Trn.update_shard {t : Trn} {shard : Nat} {u : Update} (h : t.update shard = some u) : u.shard = shard := by
  simpa using List.find?_some h

theorem Trn.update_putUpdate (t : Trn) (u : Update) : (t.putUpdate u).update u.shard = some u := by
  unfold Trn.update Trn.putUpdate
  rw [List.find?_append, List.find?_eq_none.2 fun x hx => by simpa using (List.mem_filter.1 hx).2]
  simp

theorem State.trnOnly_keeps (s : State) (g : Trn) : Keeps [.trn] s { s with trn := g } := .of_patch rfl

theorem State.fence_keeps (s : State) : Keeps [.mem] s s.fence := .of_patch rfl

theorem State.fence_rewrites {s : State} (h : s.Sound) : Rewrites (fun _ => False) s s.fence :=
  SameData.rewrites ⟨rfl, rfl, rfl, rfl⟩ h (.refl _)

/-- An update that is not sealed leaves its instance at work. -/
theorem State.updateDone_unsealed {s : State} {shard : Nat} {u : Update} (h : s.trn.update shard = some u)
    (hsealed : u.sealed = false) : s.updateDone shard = s := by
  unfold State.updateDone
  split
  · rename_i _ _ v _ hv
    obtain rfl := Option.some.inj (h.symm.trans hv)
    rw [if_pos (by simp [hsealed])]
  · rfl

theorem State.updateDone_keeps (s : State) (shard : Nat) : Keeps [.stp] s (s.updateDone shard) := by
  unfold State.updateDone
  split
  · split
    · exact .refl _ s
    · split
      · split
        · split
          · exact s.onStep_keeps _
          · exact .refl _ s
        · exact .refl _ s
      · exact .refl _ s
  · exact .refl _ s

/-- An update whose header is written is open. -/
theorem State.openUpdate_open {s : State} {d : ShardDef} {u : Update} (h : s.trn.update d.shard = some u)
    (hheader : u.header = true) : s.openUpdate d = s := by
  unfold State.openUpdate
  split
  · rfl
  · split
    · rfl
    · dsimp only
      rw [h, Option.getD_some, if_pos hheader]

/-! ### The pending slot opens -/

/-- A slot is intact as long as no byte, no region and no poison changes. -/
theorem Keeps.slotIntact {s t : State} {l : List Part} (h : Keeps l s t) (hl : .mem ∉ l ∧ .rgn ∉ l ∧ .coh ∉ l) :
    t.slotIntact = s.slotIntact := by
  have hmem : t.mem = s.mem := h .mem hl.1
  have hrgn : t.rgn = s.rgn := h .rgn hl.2.1
  have hread := h.slotRead hl
  have hpoison : t.blazePoison = s.blazePoison := by
    funext d slot
    simp only [State.blazePoison, State.slotPoison, State.slotAt, hmem, hrgn]
  have hdigests : t.segDigests = s.segDigests := by
    funext d slot j
    simp only [State.segDigests, State.momSeg, State.wSeg, hread]
  funext d slot ring
  simp only [State.slotIntact, hpoison, State.slotSeal, State.recomputeBlaze, hread, hdigests]

/-- The checks of segments that have arrived are written (R299 step 3). -/
def State.writeCrcs (s : State) (d : ShardDef) (slot ring : Nat) (js : List Nat) : State :=
  js.foldl (fun s j => s.writeSegCrc d slot j ring) s

/-- The header line of a slot, and the checks of the segments that have arrived, are written (R299 steps 1 and 3). -/
def State.openSlot (s : State) (d : ShardDef) (slot : Nat) (h : SlotHdr) (ring : Nat) (js : List Nat) : State :=
  (s.slotWrite d slot 0 h.bytes).fence.writeCrcs d slot ring js

/-- The update of a shard is noted. -/
def State.noteUpdate (s : State) (u : Update) : State := { s with trn := s.trn.putUpdate u }

theorem State.writeSegCrc_within {s : State} (hs : s.Sound) {d : ShardDef} {slot key j : Nat} (h : s.SlotKey d slot key)
    (hj : j < d.segs) (ring : Nat) :
    Rewrites (fun a => key + 128 ≤ a ∧ a < key + d.gredOff) s (s.writeSegCrc d slot j ring) := by
  have := d.records_fit
  refine (h.write hs _ _).rewrites fun a hlo hhi => ?_
  simp at hhi
  omega

theorem State.writeCrcs_spec {d : ShardDef} {slot key ring : Nat} : ∀ {js : List Nat} {s : State}, s.Sound → s.SlotKey d slot key →
    (∀ j ∈ js, j < d.segs) → Keeps [.mem, .coh, .out, .rgn] s (s.writeCrcs d slot ring js)
      ∧ Rewrites (fun a => key + 128 ≤ a ∧ a < key + d.gredOff) s (s.writeCrcs d slot ring js) := by
  intro js
  induction js with
  | nil => exact fun hs _ _ => ⟨.refl _ _, .refl hs⟩
  | cons j js ih =>
    intro s hs h hjs
    have hfirst := State.writeSegCrc_within hs h (hjs j List.mem_cons_self) ring
    obtain ⟨hkeeps, hrest⟩ := ih hfirst.sound (h.after hfirst.alike) fun x hx => hjs x (List.mem_cons_of_mem _ hx)
    exact ⟨(State.slotWrite_keeps _ _ _ _ _).trans hkeeps, hfirst.trans hrest⟩

/-- Opening a slot writes its header line, and no byte beyond its segment records. -/
theorem State.openSlot_spec {s : State} (hs : s.Sound) {d : ShardDef} {slot key : Nat} (h : s.SlotKey d slot key) (hdr : SlotHdr)
    (ring : Nat) {js : List Nat} (hjs : ∀ j ∈ js, j < d.segs) :
    Keeps [.mem, .coh, .out, .rgn] s (s.openSlot d slot hdr ring js)
      ∧ Rewrites (inSlot key d.gredOff) s (s.openSlot d slot hdr ring js)
      ∧ (s.openSlot d slot hdr ring js).slotRead d slot 0 64 = hdr.bytes := by
  have hwrite := h.write hs 0 hdr.bytes
  have hfence := State.fence_rewrites hwrite.sound
  have hkey := (h.after hwrite.alike).after hfence.alike
  obtain ⟨hkeeps, hcrcs⟩ := State.writeCrcs_spec (ring := ring) hfence.sound hkey hjs
  refine ⟨?_, ?_, ?_⟩
  · exact ((State.slotWrite_keeps _ _ _ _ _).trans ((State.fence_keeps _).mono (by decide))).trans hkeeps
  · have hrecords := d.records_fit
    have hheader : Rewrites (inSlot key d.gredOff) s (s.slotWrite d slot 0 hdr.bytes) :=
      h.write_within hs (by rw [SlotHdr.bytes_length]; omega)
    exact (hheader.trans (hfence.mono fun _ => False.elim)).trans (hcrcs.mono fun a ha => ⟨by omega, ha.2⟩)
  · calc _ = (s.slotWrite d slot 0 hdr.bytes).fence.slotRead d slot 0 64 :=
          hkey.read_kept hfence.sound hcrcs fun a _ hhi ha => by omega
      _ = (s.slotWrite d slot 0 hdr.bytes).slotRead d slot 0 64 := State.slotRead_congr hwrite.sound hfence d slot 0 64
      _ = hdr.bytes := by
          have hread := (h.after hwrite.alike).read_stored hwrite
          rwa [SlotHdr.bytes_length] at hread

theorem State.openUpdate_eq {s : State} {st : Step} {p : Plan} {d : ShardDef} {au : Nat} {w : Update}
    (hplan : s.stepPlan = some (st, p)) (hau : p.auOf d.shard = some au)
    (hw : w = (s.trn.update d.shard).getD ⟨d.shard, st.ring, false, [], [], [], [], false⟩) (hheader : w.header = false)
    (hlost : d.shard ∉ s.trn.lost) (hrepair : d.shard ∉ s.trn.repairing)
    (hintact : s.slotIntact d (s.trn.committed d) (s.trn.selOf d.shard).ring = true) :
    s.openUpdate d = (s.openSlot d (s.trn.pending d) (s.pendingHeader d st (p.au au)) st.ring w.arrived).noteUpdate
      { w with header := true } := by
  have hready : s.readyCommitted d = (s, true) := by
    unfold State.readyCommitted
    dsimp only
    rw [if_neg (by simp [hlost, hrepair]), if_pos (show s.slotIntact d (s.trn.selOf d.shard).slot _ = true from hintact)]
  unfold State.openUpdate
  simp only [hplan, hau]
  rw [← hw, if_neg (by simp [hheader])]
  simp only [hready]
  rfl

/-- ARRIVAL_UPDATE of an update that has not begun opens the pending slot. -/
theorem arrivalUpdate_opens {s u : State} {st : Step} {p : Plan} {op au : Nat} (pl : Place) {d : ShardDef} {w : Update} {key : Nat}
    (hs : s.Sound) (hslots : s.slotsWait = none) (henter : s.enter 0x40 op 0 = some (u, st, p))
    (hshard : s.trn.shard (fld (p.param op) 0 4) = some d) (hau : p.auOf d.shard = some au)
    (hw : w = (s.trn.update d.shard).getD ⟨d.shard, st.ring, false, [], [], [], [], false⟩) (hheader : w.header = false)
    (hsealed : w.sealed = false) (harrived : ∀ j ∈ w.arrived, j < d.segs) (hlost : d.shard ∉ s.trn.lost)
    (hrepair : d.shard ∉ s.trn.repairing) (hintact : s.slotIntact d (s.trn.committed d) (s.trn.selOf d.shard).ring = true)
    (hkey : s.SlotKey d (s.trn.pending d) key) :
    ∃ t, exec (.arrivalUpdate op pl) s = .next t ∧ t.inst op 0 = some .issued
      ∧ t.trn.update d.shard = some { w with header := true }
      ∧ t.slotRead d (s.trn.pending d) 0 64 = (s.pendingHeader d st (p.au au)).bytes
      ∧ Rewrites (inSlot key d.gredOff) s t
      ∧ Keeps [.out, .fresh, .aon, .mem, .rgn, .coh, .stp, .trn, .eng, .obs] s t := by
  obtain ⟨hinst, hu⟩ := State.enter_some henter
  obtain ⟨hplan, hubare⟩ := State.enter_bare henter
  -- The state in which the slot opens, `v`, differs from `s` in neither memory nor training state.
  have htask := u.startTask_keeps pl op 0
  have hv : Keeps [.fresh, .aon, .stp, .eng, .obs] s (u.startTask pl op 0) := (hu.mono (by decide)).trans (htask.mono (by decide))
  have hvinst : (u.startTask pl op 0).inst = u.inst := htask.inst (by decide)
  have hvbare := (htask.bareStp (by decide)).trans hubare
  have hutrn : u.trn = s.trn := hu .trn (by decide)
  generalize hvdef : u.startTask pl op 0 = v at hv hvinst hvbare
  have htrn : v.trn = s.trn := hv .trn (by decide)
  obtain ⟨st', hplan', hbare⟩ := State.stepPlan_bare hplan (hv .pln (by decide)) hvbare
  have hring := (Step.SameAttempt.of_bare hbare).ring
  have hls := (Step.SameAttempt.of_bare hbare).lsExp
  have hreads : Rewrites (fun _ => False) s v := hv.rewrites (by decide) hs
  have hhdr : v.pendingHeader d st' (p.au au) = s.pendingHeader d st (p.au au) := by
    simp only [State.pendingHeader, hv.slotRead (by decide), htrn, hring, hls]
  have hopen := State.openUpdate_eq (s := v) (w := w) hplan' hau (by rw [htrn, hring]; exact hw) hheader (by rwa [htrn])
    (by rwa [htrn]) (by rw [htrn, hv.slotIntact (by decide)]; exact hintact)
  rw [hhdr, htrn, hring] at hopen
  obtain ⟨hkeeps, hwrites, hread⟩ := State.openSlot_spec hreads.sound (hkey.after hreads.alike) (s.pendingHeader d st (p.au au))
    st.ring harrived
  generalize v.openSlot d (s.trn.pending d) (s.pendingHeader d st (p.au au)) st.ring w.arrived = x at hopen hkeeps hwrites hread
  have hwshard : w.shard = d.shard := by
    rw [hw]
    cases hupd : s.trn.update d.shard with
    | none => rfl
    | some y => exact Trn.update_shard hupd
  have hupdate : (x.noteUpdate { w with header := true }).trn.update d.shard = some { w with header := true } :=
    hwshard ▸ Trn.update_putUpdate _ _
  have hnote : Keeps [.trn] x (x.noteUpdate { w with header := true }) := x.trnOnly_keeps _
  have hexec : exec (.arrivalUpdate op pl) s = .next (x.noteUpdate { w with header := true }) := by
    show execArrivalUpdate op pl s = _
    unfold execArrivalUpdate State.onSlots
    simp only [hslots, henter]
    rw [hutrn]
    simp only [hshard, hvdef, hopen]
    rw [State.updateDone_unsealed hupdate hsealed]
  refine ⟨_, hexec, ?_, hupdate, ?_, ?_, ?_⟩
  · rw [hnote.inst (by decide), hkeeps.inst (by decide), hvinst, hinst]
  · rw [← hread]
    exact State.slotRead_congr hwrites.sound (hnote.rewrites (by decide) hwrites.sound) _ _ _ _
  · exact ((hreads.mono fun _ => False.elim).trans hwrites).trans (hnote.rewrites (by decide) hwrites.sound)
  · exact ((hv.mono (by decide)).trans (hkeeps.mono (by decide))).trans (hnote.mono (by decide))

/-! ### A segment is updated -/

/-- The update of a shard once a segment is updated too. -/
def Update.withSegment (u : Update) (seg bad sq : Nat) : Update :=
  { u with updated := u.updated ++ [seg], nonfinite := u.nonfinite.set seg bad, sumsq := u.sumsq.set seg sq }

/-- The seal line of a whole update: the counts of nonfinite gradients and the sum of squares of all its segments. -/
def State.sealUpdate (s : State) (d : ShardDef) (slot : Nat) (h : SlotHdr) (mode : Nat) (u : Update) : State :=
  s.writeSeal d slot h mode ((u.nonfinite.map (·.2)).sum)
    (sumInOrder ((List.range d.segs).map fun j => u.sumsq.getD j 0))

/-- A segment has been updated; with the last one the seal line is written. -/
def State.segmentDone (s : State) (d : ShardDef) (slot : Nat) (h : SlotHdr) (mode : Nat) (u : Update) : State :=
  if u.updated.length < d.segs then s.noteUpdate u
  else ((s.sealUpdate d slot h mode u).fence.noteUpdate { u with sealed := true }).updateDone u.shard

/-- The seal line is written in its line of the slot, and is read back. -/
theorem State.writeSeal_spec {s : State} (hs : s.Sound) {d : ShardDef} {slot key : Nat} (h : s.SlotKey d slot key) (hdr : SlotHdr)
    (mode bad sq : Nat) :
    Rewrites (fun a => key + 64 ≤ a ∧ a < key + 128) s (s.writeSeal d slot hdr mode bad sq)
      ∧ ∃ x, (s.writeSeal d slot hdr mode bad sq).slotSeal d slot = some x ∧ x.round = hdr.round % 256
        ∧ x.ring = hdr.ring % 2 ^ 64 := by
  unfold State.writeSeal
  dsimp only
  generalize hx : Seal.mk 2 hdr.round (min bad 0xFFFFFFFF) hdr.ring _ mode sq = x
  have hstore := h.write hs 64 x.bytes
  obtain ⟨y, hparse, hround, hring⟩ := Seal.parse_bytes (x := x) (hx ▸ rfl)
  refine ⟨hstore.rewrites fun a hlo hhi => by rw [Seal.bytes_length] at hhi; omega, y, ?_, ?_, ?_⟩
  · have hread := (h.after hstore.alike).read_stored hstore
    rw [Seal.bytes_length] at hread
    rw [State.slotSeal, hread, hparse]
  · rw [hround, ← hx]
  · rw [hring, ← hx]

/-- What is noted of a segment's update, and where the seal is written. -/
theorem State.segmentDone_spec {s : State} (hs : s.Sound) {d : ShardDef} {slot key : Nat} (h : s.SlotKey d slot key)
    (hdr : SlotHdr) (mode : Nat) (u : Update) :
    Keeps [.out, .mem, .rgn, .coh, .stp, .trn] s (s.segmentDone d slot hdr mode u)
      ∧ Rewrites (fun a => key + 64 ≤ a ∧ a < key + 128) s (s.segmentDone d slot hdr mode u)
      ∧ ∃ u', (s.segmentDone d slot hdr mode u).trn.update u.shard = some u' ∧ u'.updated = u.updated
        ∧ (d.segs ≤ u.updated.length → u'.sealed = true ∧ ∃ x, (s.segmentDone d slot hdr mode u).slotSeal d slot = some x
          ∧ x.round = hdr.round % 256 ∧ x.ring = hdr.ring % 2 ^ 64) := by
  unfold State.segmentDone
  split
  · rename_i hlt
    have hnote : Keeps [.trn] s (s.noteUpdate u) := s.trnOnly_keeps _
    exact ⟨hnote.mono (by decide), hnote.rewrites (by decide) hs, u, Trn.update_putUpdate _ _, rfl, fun hle => by omega⟩
  · obtain ⟨hseal, x, hx, hround, hring⟩ := State.writeSeal_spec hs h hdr mode _ _
    have hkeeps : Keeps [.mem, .coh, .out, .rgn] s (s.sealUpdate d slot hdr mode u) := State.slotWrite_keeps _ _ _ _ _
    rw [← State.sealUpdate] at hseal hx
    generalize s.sealUpdate d slot hdr mode u = v at hseal hx hkeeps
    have hnote : Keeps [.trn] v.fence (v.fence.noteUpdate { u with sealed := true }) := v.fence.trnOnly_keeps _
    have hend := (v.fence.noteUpdate { u with sealed := true }).updateDone_keeps u.shard
    have hfence := State.fence_rewrites hseal.sound
    have htail := (hfence.trans (hnote.rewrites (by decide) hfence.sound)).trans
      (hend.rewrites (by decide) (hnote.rewrites (W := fun _ => False) (by decide) hfence.sound).sound)
    have htrn : ((v.fence.noteUpdate { u with sealed := true }).updateDone u.shard).trn
        = (v.fence.noteUpdate { u with sealed := true }).trn := hend .trn (by decide)
    refine ⟨?_, hseal.trans (htail.mono fun _ => False.elim), { u with sealed := true }, ?_, rfl, fun _ => ⟨rfl, x, ?_, hround, hring⟩⟩
    · exact ((hkeeps.mono (by decide)).trans (v.fence_keeps.mono (by decide))).trans
        ((hnote.mono (by decide)).trans (hend.mono (by decide)))
    · rw [htrn]
      exact Trn.update_putUpdate _ { u with sealed := true }
    · rw [← hx]
      exact congrArg Seal.parse (State.slotRead_congr hseal.sound htail d slot 64 64)

/-- The committed header's bias-correction terms and the step's loss scale give the constants of a segment's update (R295). -/
def State.auConstOf (s : State) (d : ShardDef) (st : Step) (a : AuParams) : AuConst :=
  auConst a (fld (s.slotRead d (s.trn.committed d) 0 64) 0x18 4) (fld (s.slotRead d (s.trn.committed d) 0 64) 0x1C 4) st.lsExp

/-- A segment's update from the committed slot into the pending one: the state, and what it counts of the gradient. -/
def State.segmentUpdate (s : State) (d : ShardDef) (st : Step) (a : AuParams) (seg : Nat) : State × Nat × Nat :=
  s.updateSeg d a (s.auConstOf d st a) none (s.trn.committed d) (s.trn.pending d) seg

/-- A segment of an open update has arrived, is not updated yet, and nothing holds its update up. -/
structure SegmentReady (s : State) (st : Step) (p : Plan) (d : ShardDef) (u : Update) (op seg : Nat) : Prop where
  slots : s.slotsWait = none
  shard : s.trn.shard d.shard = some d
  upd : s.trn.update d.shard = some u
  plan : s.stepPlan = some (st, p)
  au : p.auOf d.shard = some op
  powered : s.powered = true
  goesOn : st.stopped = false
  running : st.st = .running
  firstRound : st.round = 0
  header : u.header = true
  arrived : seg ∈ u.arrived
  fresh : seg ∉ u.updated
  clean : s.segPoison d seg = none

theorem execSegmentUpdateDone_ready {s : State} {st : Step} {p : Plan} {d : ShardDef} {u : Update} {op seg : Nat}
    (hr : SegmentReady s st p d u op seg) :
    exec (.segmentUpdateDone d.shard seg) s
      = .next ((s.segmentUpdate d st (p.au op) seg).1.fence.segmentDone
          d (s.trn.pending d)
          ((s.segmentUpdate d st (p.au op) seg).1.fence.pendingHeader
            d st (p.au op)) st.stamp.toNat
          (u.withSegment seg
            (s.segmentUpdate d st (p.au op) seg).2.1
            (s.segmentUpdate d st (p.au op) seg).2.2)) := by
  obtain ⟨hslots, hshard, hupd, hplan, hau, hpow, hstop, hrun, hround, hheader, harr, hnew, hpoison⟩ := hr
  have hopen : s.openUpdate d = s := State.openUpdate_open hupd hheader
  show execSegmentUpdateDone d.shard seg s = _
  unfold execSegmentUpdateDone State.onSlots
  simp only [hslots, hshard, hupd, Option.isSome_some, if_true, hopen, hplan, hau]
  rw [if_neg (by simp [hpow, hstop, hrun, hround, hheader, harr, hnew])]
  simp only [hpoison]
  rw [← Trn.update_shard hupd]
  rfl

/-- SEGMENT_UPDATE_DONE of a segment that has arrived in an open slot. -/
theorem segmentUpdateDone_updates {s : State} {st : Step} {p : Plan} {d : ShardDef} {u : Update} {op seg key : Nat} (hs : s.Sound)
    (hr : SegmentReady s st p d u op seg) (hseg : seg < d.segs) (hkey : s.SlotKey d (s.trn.pending d) key) :
    ∃ t u', exec (.segmentUpdateDone d.shard seg) s = .next t ∧ t.trn.update d.shard = some u'
      ∧ u'.updated = u.updated ++ [seg]
      ∧ t.wSeg d (s.trn.pending d) seg = (s.segResults d (p.au op) (s.auConstOf d st (p.au op)) none (s.trn.committed d)
          (s.trn.pending d) seg).flatMap (fun e => leBytes 4 e.2.2.2)
      ∧ (d.segs ≤ u.updated.length + 1 → u'.sealed = true
          ∧ ∃ x, t.slotSeal d (s.trn.pending d) = some x ∧ x.round = 0 ∧ x.ring = st.ring % 2 ^ 64)
      ∧ Rewrites (inSlot key d.slotBytes) s t
      ∧ Keeps [.out, .mem, .rgn, .coh, .stp, .trn] s t := by
  have hexec := execSegmentUpdateDone_ready hr
  obtain ⟨hwrites, hread⟩ := State.updateSeg_spec hs hkey hseg (p.au op) (s.auConstOf d st (p.au op)) none (s.trn.committed d)
  have hkeeps := s.updateSeg_keeps d (p.au op) (s.auConstOf d st (p.au op)) none (s.trn.committed d) (s.trn.pending d) seg
  rw [← State.segmentUpdate] at hwrites hread hkeeps
  generalize s.segmentUpdate d st (p.au op) seg = r
    at hexec hwrites hread hkeeps
  obtain ⟨v, bad, sq⟩ := r
  have hfence := State.fence_rewrites hwrites.sound
  have hvkey := (hkey.after hwrites.alike).after hfence.alike
  obtain ⟨hdone, hseal, u', hu', hupdated, hsealed⟩ := State.segmentDone_spec hfence.sound hvkey (v.fence.pendingHeader d st (p.au op))
    st.stamp.toNat (u.withSegment seg bad sq)
  generalize v.fence.segmentDone d (s.trn.pending d) (v.fence.pendingHeader d st (p.au op)) st.stamp.toNat
    (u.withSegment seg bad sq) = t at hexec hdone hseal hu' hsealed
  have hrecords := d.records_fit
  obtain ⟨hgm, hmw, -, -, hw, -⟩ := d.areas hseg
  refine ⟨t, u', hexec, ?_, hupdated, ?_, fun hle => ?_, ?_, ?_⟩
  · rw [← Trn.update_shard hr.upd]
    exact hu'
  · calc _ = v.fence.wSeg d (s.trn.pending d) seg := hvkey.read_kept hfence.sound hseal fun a hlo _ ha => by omega
      _ = v.wSeg d (s.trn.pending d) seg := State.slotRead_congr hwrites.sound hfence _ _ _ _
      _ = _ := hread
  · exact hsealed (by simp [Update.withSegment]; omega)
  · refine (hwrites.trans (hfence.mono fun _ => False.elim)).trans (hseal.mono fun a ha => ⟨by omega, by omega⟩)
  · exact ((hkeeps.mono (by decide)).trans (v.fence_keeps.mono (by decide))).trans hdone

end Sys2Proof.Machine
end

section
/-! SUPPORT. A device that is not the first of its Z line votes and waits: its vote record, its state, and what the record holds
(R303, R336, R342). -/

namespace Sys2Proof.Machine

/-! ### Nothing waits -/

theorem State.heedNotices_none {s : State} (h : s.stp.notices = []) : s.heedNotices = s := by
  unfold State.heedNotices
  split
  · rfl
  · rw [if_neg (by simp [h])]

theorem State.redeliver_none {s : State} (h : s.fab.earlyMsgs = []) : s.redeliver = s := by
  have hfab : { s.fab with earlyMsgs := [] } = s.fab := h ▸ rfl
  unfold State.redeliver
  rw [h, List.foldl_nil, hfab]

theorem State.servePeers_none {s : State} (h : s.fab.peerReads = []) : s.servePeers = s := by
  unfold State.servePeers
  rw [h]
  rfl

theorem State.serveFetches_none {s : State} (h : s.trn.fetches = []) : s.serveFetches = s := by
  have htrn : { s.trn with fetches := [] } = s.trn := h ▸ rfl
  unfold State.serveFetches
  rw [h, List.foldl_nil, htrn]

theorem State.owedHold_voted {s : State} (h : ∀ st, s.stp.active = some st → st.st = .voted) : s.owedHold = s := by
  unfold State.owedHold
  split
  · rename_i st hact
    rw [if_neg (by simp [h st hact])]
  · rfl

/-! ### State words -/

theorem Stp.moveWord_eq {t : Stp} {tag : Nat} (h : t.doneCode tag = none) (w : WordState) : t.moveWord tag w = t.setWord tag w := by
  unfold Stp.moveWord
  rw [h]
  rfl

/-- The state word of a tag that is not DONE moves (R332). -/
theorem Stp.setWord_find {t : Stp} {tag : Nat} (h : ∃ w ∈ t.words, w.tag = tag) (w : WordState) :
    (t.setWord tag w).words.find? (·.tag == tag) = some ⟨tag, w⟩ := by
  obtain ⟨x, hx⟩ : ∃ x, t.words.find? (·.tag == tag) = some x := by
    rw [← Option.isSome_iff_exists, List.find?_isSome]
    obtain ⟨x, hx, htag⟩ := h
    exact ⟨x, hx, by simp [htag]⟩
  have hkey := List.find?_some hx
  have hmoved := find_map_of_find (f := fun x : StateWord => if x.tag == tag then ⟨tag, w⟩ else x)
    (fun x => by by_cases hx : x.tag = tag <;> simp [hx]) hx
  rw [if_pos hkey] at hmoved
  exact hmoved

/-! ### A vote that waits for its predecessor -/

theorem voteWaits_congr {s t : State} (h : voteWaits s) (hwait : t.stp.waitVerdict = s.stp.waitVerdict)
    (haddr : t.fab.addr = s.fab.addr) (hline : t.fab.line = s.fab.line) : voteWaits t := by
  obtain ⟨hnone, me, hme, hfirst⟩ := h
  exact ⟨hwait.trans hnone, me, haddr.trans hme, hline ▸ hfirst⟩

/-- A verdict that has just been voted does not move while the predecessor's has not come. -/
theorem State.verdictMove_waits {s : State} (h : voteWaits s)
    (hround : ∀ st, s.stp.active = some st → ∃ n v w, st.vround = some ⟨n, .z, v, w, false⟩) : s.verdictMove = none := by
  obtain ⟨hnone, me, hme, hfirst⟩ := h
  unfold State.verdictMove
  rw [hme]
  split
  · rename_i st me' hact heq
    obtain rfl := Option.some.inj heq
    obtain ⟨n, v, w, hv⟩ := hround st hact
    simp [hv, hfirst, hnone]
  · rfl

theorem verdictMoves_waits {s : State} (h : s.verdictMove = none) : ∀ n, verdictMoves n s = s := by
  intro n
  cases n with
  | zero => rfl
  | succ n =>
    unfold verdictMoves
    rw [h]

theorem State.phaseStart_bare_active {s : State} {st : Step} (h : s.stp.active = some st) (i : Nat) :
    ∃ st', (s.phaseStart i).stp.active = some st' ∧ st'.bare = st.bare := by
  have hbare : (s.phaseStart i).stp.active.map Step.bare = s.stp.active.map Step.bare :=
    congrArg Stp.active (s.phaseStart_bare i)
  rw [h, Option.map_some, Option.map_eq_some_iff] at hbare
  exact hbare

/-- What a vote leaves in the step and the vote record. -/
theorem State.voted_active {s : State} {st : Step} (h : s.stp.active = some st) (v : Verdict) (clear : Bool) :
    ∃ (x : Step) (w : List WatchEntry), (s.voted v clear st).stp.active = some { x with
        st := .voted, vround := some ⟨st.round, .z, v, w, false⟩, released := clear, tick := s.aon.tick.toNat }
      ∧ x.bare = st.bare := by
  obtain ⟨x, hx, hbare⟩ := State.phaseStart_bare_active h (if st.round = 0 then 6 else 7)
  have haon : (s.phaseStart (if st.round = 0 then 6 else 7)).aon = s.aon := s.phaseStart_keeps _ .aon (by decide)
  have hround := (Step.SameAttempt.of_bare hbare).round
  refine ⟨x, if st.round = 0 then (s.phaseStart (if st.round = 0 then 6 else 7)).ownWatch st else [], ?_, hbare⟩
  unfold State.voted
  dsimp only
  split <;> simp [State.onStep, State.fence, hx, haon, hround]

theorem hasVoted_congr {t : State} {x st : Step} {v : Verdict} (h : x.SameAttempt st) (hv : hasVoted t x v) : hasVoted t st v := by
  unfold hasVoted at *
  rwa [h.attempt, h.ring, h.round, h.tag] at hv

/-- The device votes, and its vote waits. -/
theorem State.vote_waits {s : State} {st : Step} (h : s.stp.active = some st) (hw : voteWaits s) {v : Verdict}
    (hring : v.ring = st.ring) (hround : v.round = st.round) (clear : Bool) :
    hasVoted (s.vote v clear) st v ∧ Keeps [.stp, .obs, .mem] s (s.vote v clear)
      ∧ (s.vote v clear).mem = { s.mem with wc := [] }
      ∧ ∀ x, (s.vote v clear).stp.active = some x → x.st = .voted ∧ x.verdictFree = st.verdictFree := by
  obtain ⟨x, w, hact, hbare⟩ := State.voted_active h v clear
  have hkeeps := s.voted_keeps v clear st
  have hfab : (s.voted v clear st).fab = s.fab := hkeeps .fab (by decide)
  have hmem : (s.voted v clear st).mem = { s.mem with wc := [] } := by
    have hphase : (s.phaseStart (if st.round = 0 then 6 else 7)).mem = s.mem := s.phaseStart_keeps _ .mem (by decide)
    show { (s.phaseStart (if st.round = 0 then 6 else 7)).mem with wc := [] } = _
    rw [hphase]
  have heq : s.vote v clear = s.voted v clear st := by
    rw [State.vote_eq h]
    refine verdictMoves_waits (State.verdictMove_waits (voteWaits_congr hw (s.voted_wait v clear st) (by rw [hfab]) (by rw [hfab])) ?_) 8
    intro y hy
    obtain ⟨n, w, hround⟩ := State.voted_vround hy
    exact ⟨n, v, w, hround⟩
  have hsame := Step.SameAttempt.of_bare hbare
  rw [heq]
  refine ⟨⟨?_, hring, hround, by rw [hmem], _, w, hact, rfl, hsame.tag, rfl⟩, hkeeps, hmem, fun y hy => ?_⟩
  · rfl
  · obtain rfl := Option.some.inj (hact.symm.trans hy)
    exact ⟨rfl, hsame.verdictFree⟩

end Sys2Proof.Machine
end

section
/-! SUPPORT. STEP_START, INSTANCE_COMPLETE and VOTE_RECORD_WRITE: what the queued step becomes, what the end of an instance changes,
and the hold of a step one of whose instances fails (R213, R219, R326, R328, R332, R336, R348 to R350, R634). -/

namespace Sys2Proof.Machine

/-! ### STEP_START -/

theorem Plan.stampAt_atRing (p : Plan) (m : Nat) : (p.atRing m).stampAt m = p.stampAt m := by
  have hrings : ((p.atRing m).escalations.map (·.ring)).filter (fun r => decide (r ≤ m))
      = (p.escalations.map (·.ring)).filter fun r => decide (r ≤ m) := by
    show ((p.escalations.filter fun e => decide (e.ring < m + 2)).map (·.ring)).filter _ = _
    rw [List.filter_map, List.filter_map, List.filter_filter]
    refine congrArg _ (List.filter_congr fun e _ => ?_)
    simp only [Function.comp, Bool.and_eq_left_iff_imp, decide_eq_true_eq]
    omega
  have hmodes : (p.atRing m).modes = p.modes := rfl
  unfold Plan.stampAt
  simp only [List.filter_append, hrings, hmodes]
  rfl

/-- The plans that a step of a ring runs with: one that advances the ring puts them at it (R348 to R350). -/
def Pln.forStep (l : Pln) (q : Step) : Pln := if q.verdictFree then l else { l with plans := l.plans.map (·.atRing q.ring) }

/-- The plan of a step at its ring. -/
def Plan.forStep (p : Plan) (q : Step) : Plan := if q.verdictFree then p else p.atRing q.ring

theorem Pln.get_forStep {l : Pln} {q : Step} {p : Plan} (h : l.get q.plan = some p) :
    (l.forStep q).get q.plan = some (p.forStep q) := by
  unfold Pln.forStep Plan.forStep
  split
  · exact h
  · exact find_map_of_find (f := fun x : Plan => x.atRing q.ring) (fun _ => rfl) h

theorem Plan.stampAt_forStep (p : Plan) (q : Step) : (p.forStep q).stampAt q.ring = p.stampAt q.ring := by
  unfold Plan.forStep
  split
  · rfl
  · exact p.stampAt_atRing q.ring

theorem Plan.setting_forStep (p : Plan) (q : Step) (off n : Nat) : (p.forStep q).setting off n = p.setting off n := by
  unfold Plan.forStep
  split <;> rfl

/-- A queued step as it begins to run. -/
def Step.started (q : Step) (stamp : BitVec 64) (tick : Nat) (es : List Bytes) : Step :=
  { q with st := .running, stamp := stamp, tick := tick, entries := es }

/-- The queued step is active, and the bandwidth settings of its plan are in force (R213). -/
def State.withStep (s : State) (q x : Step) (p : Plan) : State :=
  { s with
    pln := s.pln.forStep q
    stp := { s.stp.moveWord q.tag .running with queued := none, active := some x }
    mem := { s.mem with
      bwFloor := (List.range 16).map fun k => p.setting (0x40 + 4 * k) 1
      bwCeil := (List.range 16).map fun k => p.setting (0x41 + 4 * k) 1 } }

theorem State.withStep_keeps (s : State) (q x : Step) (p : Plan) : Keeps [.mem, .pln, .stp] s (s.withStep q x p) := .of_patch rfl

/-- With no step prepared, a step takes nothing over and is not halted. -/
theorem State.adoptPreps_none {s : State} (h : s.gld.preps = []) (st : Step) (p : Plan) :
    Keeps [.gld] s (s.adoptPreps st p) ∧ (s.adoptPreps st p).gladeHalted st = false := by
  have hstp : (s.adoptPreps st p).stp = s.stp := by
    simp [State.adoptPreps, State.onStep, Gld.freePreps, h]
  have hpreps : (s.adoptPreps st p).gld.preps = [] := by
    simp [State.adoptPreps, State.onStep, Gld.freePreps, h]
  refine ⟨fun part hpart => ?_, by simp [State.gladeHalted, hpreps]⟩
  cases part
  case stp => exact hstp
  case gld => exact absurd (List.mem_singleton.2 rfl) hpart
  all_goals rfl

/-- The active step begins its work: it takes over what the Glade has prepared for it, and hears what waited for it. -/
def State.beginStep (s : State) (x : Step) (p : Plan) : State :=
  let s := s.adoptPreps x p
  if s.gladeHalted x then s.localHold cSAMPLE_BAD
  else
    let s := (s.heedNotices.redeliver).servePeers
    if x.verdictFree && p.instances.isEmpty then s.endFree cOK else s

theorem State.startStep_eq {s : State} {q : Step} {p : Plan} (hget : s.pln.get q.plan = some p) :
    ∃ es, s.startStep q = (s.withStep q (q.started (p.stampAt q.ring) s.aon.tick.toNat es) p).beginStep
      (q.started (p.stampAt q.ring) s.aon.tick.toNat es) (p.forStep q) := by
  have hplans : (if q.verdictFree then s else { s with pln := { s.pln with plans := s.pln.plans.map (·.atRing q.ring) } })
      = { s with pln := s.pln.forStep q } := by
    unfold Pln.forStep
    split <;> rfl
  unfold State.startStep
  dsimp only
  rw [hplans]
  simp only [Pln.get_forStep hget]
  rw [Plan.stampAt_forStep]
  simp only [Plan.setting_forStep]
  exact ⟨_, rfl⟩

/-- Where nothing has been prepared and nothing waits, the step only begins. -/
theorem State.beginStep_quiet {s : State} {x : Step} {p : Plan} (hpreps : s.gld.preps = []) (hnotices : s.stp.notices = [])
    (hearly : s.fab.earlyMsgs = []) (hpeers : s.fab.peerReads = []) (hends : x.verdictFree = false ∨ p.instances ≠ []) :
    Keeps [.gld] s (s.beginStep x p) := by
  obtain ⟨hkeeps, hhalted⟩ := State.adoptPreps_none hpreps x p
  have hstp : (s.adoptPreps x p).stp = s.stp := hkeeps .stp (by decide)
  have hfab : (s.adoptPreps x p).fab = s.fab := hkeeps .fab (by decide)
  have hgoes : ¬ (x.verdictFree && p.instances.isEmpty) = true := by
    obtain hfree | hne := hends
    · simp [hfree]
    · simp [hne]
  unfold State.beginStep
  dsimp only
  rw [hhalted, if_neg (by decide), if_neg hgoes, State.heedNotices_none (by rw [hstp, hnotices]),
    State.redeliver_none (by rw [hfab, hearly]), State.servePeers_none (by rw [hfab, hpeers])]
  exact hkeeps

/-- STEP_START of the queued step. -/
theorem stepStart_spec {s : State} {q : Step} {p : Plan} (hpow : s.powered = true) (hready : s.dev.mode = .ready)
    (hactive : s.stp.active = none) (hresume : s.stp.resume = none) (hhalt : s.dev.haltSteps = false)
    (hqueued : s.stp.queued = some q) (hget : s.pln.get q.plan = some p) (hpreps : s.gld.preps = [])
    (hnotices : s.stp.notices = []) (hearly : s.fab.earlyMsgs = []) (hpeers : s.fab.peerReads = [])
    (hends : q.verdictFree = false ∨ p.instances ≠ []) :
    ∃ t es, exec .stepStart s = .next t
      ∧ Keeps [.gld] (s.withStep q (q.started (p.stampAt q.ring) s.aon.tick.toNat es) p) t := by
  obtain ⟨es, hstart⟩ := State.startStep_eq (q := q) hget
  have hexec : exec .stepStart s = .next (s.startStep q) := by
    show execStepStart s = _
    unfold execStepStart
    simp only [hqueued]
    rw [if_pos (by simp [hpow, hready, hactive, hresume, hhalt])]
  have hends' : q.verdictFree = false ∨ (p.forStep q).instances ≠ [] := by
    unfold Plan.forStep
    split
    · exact hends
    · rename_i hfree
      exact .inl (by simpa using hfree)
  have hmoved : (s.stp.moveWord q.tag .running).notices = s.stp.notices := by
    unfold Stp.moveWord
    split <;> rfl
  exact ⟨_, es, hexec, hstart ▸ State.beginStep_quiet (s := s.withStep q (q.started (p.stampAt q.ring) s.aon.tick.toNat es) p)
    hpreps (hmoved.trans hnotices) hearly hpeers hends'⟩

/-! ### The end of an instance -/

theorem Step.finished_iff {s : State} {st : Step} (h : s.stp.active = some st) (i : Nat × Nat) :
    st.finished i = true ↔ s.inst i.1 i.2 = some (.done cOK) := by
  simp only [State.inst, h, Option.bind_some, Step.finished]
  cases st.inst i.1 i.2 <;> simp

theorem State.setInst_inst_ne (s : State) {op mb o m : Nat} (h : ¬ (o = op ∧ m = mb)) (x : InstState) :
    (s.setInst op mb x).inst o m = s.inst o m := by
  have hfind : ∀ l : List Inst, ((l.map fun i => if i.op == op && i.mb == mb then { i with st := x } else i).find?
      fun i => i.op == o && i.mb == m) = l.find? fun i => i.op == o && i.mb == m := by
    intro l
    have hkeys : ((fun i : Inst => i.op == o && i.mb == m) ∘ fun i => if i.op == op && i.mb == mb then { i with st := x } else i)
        = fun i => i.op == o && i.mb == m := by
      funext i
      simp only [Function.comp_apply]
      split <;> rfl
    rw [List.find?_map, hkeys]
    cases hi : l.find? fun i => i.op == o && i.mb == m with
    | none => rfl
    | some i =>
      have hkey := List.find?_some hi
      simp only [Bool.and_eq_true, beq_iff_eq] at hkey
      rw [Option.map_some, if_neg (by simp only [Bool.and_eq_true, beq_iff_eq, hkey.1, hkey.2]; exact h)]
  simp only [State.inst, State.setInst, State.onStep]
  cases s.stp.active with
  | none => rfl
  | some st => simp only [Option.map_some, Option.bind_some, Step.inst, hfind]

theorem State.phaseEnd_inst (s : State) (i : Nat) : (s.phaseEnd i).inst = s.inst := by
  unfold State.phaseEnd
  split
  · rfl
  · rename_i st hact
    funext op mb
    simp [State.inst, State.onStep, hact, Step.inst]

/-- An instance is done, and its tile programs have ended. -/
def State.instEnded (s : State) (op mb code : Nat) : State :=
  ((s.fence.setInst op mb (.done code)).trace 0 false 0x02 uRanger 0 (leBytes 2 op ++ leBytes 1 mb ++ leBytes 1 code)).endTasks op mb

/-- The end of an instance ends at most a phase. -/
theorem State.instDone_cases (s : State) (op mb code : Nat) :
    s.instDone op mb code = s.instEnded op mb code ∨ ∃ i, s.instDone op mb code = (s.instEnded op mb code).phaseEnd i := by
  unfold State.instDone
  dsimp only
  split
  · exact .inl rfl
  · split
    · exact .inl rfl
    · split
      · exact .inr ⟨_, rfl⟩
      · exact .inl rfl

/-- The tile programs of an instance end. -/
theorem State.endTasks_tasks (s : State) (op mb : Nat) : ∀ k ∈ (s.endTasks op mb).eng.tasks, ¬ (k.op = op ∧ k.mb = mb) := by
  have hfold : ∀ (ts : List Task) (t : State), (ts.foldl (fun s k => s.traceTask k true) t).eng = t.eng := fun ts t =>
    Keeps.foldl (l := [.obs]) (fun s k => State.trace_keeps _ _ _ _ _ _ _) ts t .eng (by decide)
  intro k hk
  unfold State.endTasks at hk
  rw [hfold] at hk
  simpa [imp_iff_not_or] using (List.mem_filter.1 hk).2

/-- What the end of an instance leaves. -/
structure Ended (op mb code : Nat) (s t : State) : Prop where
  here : t.inst op mb = some (.done code)
  others : ∀ o m, ¬ (o = op ∧ m = mb) → t.inst o m = s.inst o m
  tasks : ∀ k ∈ t.eng.tasks, ¬ (k.op = op ∧ k.mb = mb)
  mem : t.mem = { s.mem with wc := [] }
  bare : t.bareStp = s.bareStp
  keeps : Keeps [.mem, .stp, .eng, .obs] s t

theorem State.instEnded_ended {s : State} {op mb : Nat} {x : InstState} (h : s.inst op mb = some x) (code : Nat) :
    Ended op mb code s (s.instEnded op mb code) := by
  have htasks := ((s.fence.setInst op mb (.done code)).trace 0 false 0x02 uRanger 0
    (leBytes 2 op ++ leBytes 1 mb ++ leBytes 1 code)).endTasks_keeps op mb
  have hinst : (s.instEnded op mb code).inst = (s.fence.setInst op mb (.done code)).inst := htasks.inst (by decide)
  refine ⟨?_, fun o m hne => ?_, State.endTasks_tasks _ op mb, htasks .mem (by decide), ?_, ?_⟩
  · rw [hinst]
    exact State.setInst_at (s := s.fence) h _
  · rw [hinst]
    exact s.fence.setInst_inst_ne hne _
  · exact (htasks.bareStp (by decide)).trans (s.fence.setInst_bare op mb _)
  · exact Keeps.trans (.of_patch rfl) (htasks.mono (by decide))

theorem State.instDone_ended {s : State} {op mb : Nat} {x : InstState} (h : s.inst op mb = some x) (code : Nat) :
    Ended op mb code s (s.instDone op mb code) := by
  have hended := State.instEnded_ended h code
  obtain heq | ⟨i, heq⟩ := s.instDone_cases op mb code
  · exact heq ▸ hended
  · rw [heq]
    have hphase := (s.instEnded op mb code).phaseEnd_keeps i
    have heng : ((s.instEnded op mb code).phaseEnd i).eng = (s.instEnded op mb code).eng := hphase .eng (by decide)
    refine ⟨?_, fun o m hne => ?_, ?_, ?_, (State.phaseEnd_bare _ i).trans hended.bare, hended.keeps.trans (hphase.mono (by decide))⟩
    · rw [State.phaseEnd_inst, hended.here]
    · rw [State.phaseEnd_inst, hended.others o m hne]
    · rw [heng]
      exact hended.tasks
    · rw [hphase .mem (by decide), hended.mem]

/-- Once an instance is done with OK, it is finished, and no other is that was not. -/
theorem Ended.finished {op mb : Nat} {s t : State} (h : Ended op mb cOK s t) {st st' : Step} (hs : s.stp.active = some st)
    (ht : t.stp.active = some st') (i : Nat × Nat) : st'.finished i = true ↔ i = (op, mb) ∨ st.finished i = true := by
  obtain ⟨o, m⟩ := i
  rw [Step.finished_iff ht, Step.finished_iff hs]
  by_cases hi : o = op ∧ m = mb
  · obtain ⟨rfl, rfl⟩ := hi
    simp [h.here]
  · simp only [h.others o m hi]
    constructor
    · exact .inr
    · rintro (he | he)
      · injection he with ho hm
        exact absurd ⟨ho, hm⟩ hi
      · exact he

/-! ### INSTANCE_COMPLETE -/

/-- What follows the end of an instance: peers are served, and a verdict-free step may have ended. -/
def State.afterEnd (s : State) : State :=
  let s := s.servePeers
  match s.stepPlan with
  | some (st, p) => if st.verdictFree && p.instances.all st.finished then s.endFree cOK else s
  | none => s

theorem execInstanceComplete_eq {s : State} {st : Step} {p : Plan} {op mb c : Nat} (hplan : s.stepPlan = some (st, p))
    (hinst : s.inst op mb = some (.computed c)) (hstop : st.stopped = false) (hpow : s.powered = true)
    (hrange : c = cRANGE → st.rangeWaits p op = false) :
    exec (.instanceComplete op mb) s
      = .next (if c = cOK then s.instDone op mb c else s.instFails op mb c).afterEnd := by
  have hact := State.stepPlan_active hplan
  simp only [State.inst, hact, Option.bind_some, Option.map_eq_some_iff] at hinst
  obtain ⟨⟨o, m, x⟩, hi, rfl⟩ := hinst
  show execInstanceComplete op mb s = _
  unfold execInstanceComplete
  simp only [hplan, hi]
  rw [if_neg]
  · rfl
  · simp only [hstop, hpow, Bool.not_true, Bool.or_false, Bool.false_or, Bool.and_eq_true, beq_iff_eq, not_and]
    intro hc
    simp [hrange hc]

/-- The step and its plan after the end of an instance. -/
theorem Ended.stepPlan {op mb code : Nat} {s t : State} (h : Ended op mb code s t) {st : Step} {p : Plan}
    (hplan : s.stepPlan = some (st, p)) : ∃ st', t.stepPlan = some (st', p) ∧ st'.bare = st.bare :=
  State.stepPlan_bare hplan (h.keeps .pln (by decide)) h.bare

/-- A computed instance completes, and its step goes on. -/
theorem instanceComplete_goesOn {s : State} {st : Step} {p : Plan} {op mb : Nat} (hplan : s.stepPlan = some (st, p))
    (hinst : s.inst op mb = some (.computed cOK)) (hstop : st.stopped = false) (hpow : s.powered = true)
    (hpeers : s.fab.peerReads = []) (hmore : ¬ (st.verdictFree = true ∧ ∀ i ∈ p.instances, i = (op, mb) ∨ st.finished i = true)) :
    ∃ t, exec (.instanceComplete op mb) s = .next t ∧ Ended op mb cOK s t := by
  have hended := State.instDone_ended hinst cOK
  have hexec := execInstanceComplete_eq hplan hinst hstop hpow (by simp [cOK, cRANGE])
  rw [if_pos rfl] at hexec
  generalize s.instDone op mb cOK = t at hended hexec
  refine ⟨t, hexec.trans (congrArg _ ?_), hended⟩
  obtain ⟨st', hplan', hbare⟩ := hended.stepPlan hplan
  have hfree := (Step.SameAttempt.of_bare hbare).verdictFree
  have hfab : t.fab = s.fab := hended.keeps .fab (by decide)
  unfold State.afterEnd
  rw [State.servePeers_none (hfab ▸ hpeers)]
  simp only [hplan']
  rw [if_neg]
  intro hall
  simp only [Bool.and_eq_true, List.all_eq_true] at hall
  exact hmore ⟨hfree ▸ hall.1, fun i hi =>
    (hended.finished (State.stepPlan_active hplan) (State.stepPlan_active hplan') i).1 (hall.2 i hi)⟩

/-- A verdict-free step of a plan ends with OK. -/
theorem State.endFree_ok {s : State} {st : Step} (hact : s.stp.active = some st) (hplan : st.plan ≠ 0)
    (hdone : s.stp.doneCode st.tag = none) :
    (s.endFree cOK).stp.active = none ∧ (s.endFree cOK).stp.words = (s.stp.setWord st.tag (.done cOK)).words
      ∧ (s.endFree cOK).att = s.att.raise s.aon.tick aSTEP_DONE cOK st.tag st.ring st.attempt := by
  have heq : s.endFree cOK = s.endStep cOK aSTEP_DONE st.lsExp := by
    unfold State.endFree
    rw [hact]
    rfl
  have hmoved := Stp.moveWord_eq (t := { s.stp with active := none }) hdone (.done cOK)
  rw [heq]
  refine ⟨State.endStep_active _ _ _ _, ?_, ?_⟩
  · unfold State.endStep
    simp only [hact, hdone, Option.getD_none, if_true, if_neg hplan, hmoved]
    rfl
  · unfold State.endStep
    simp only [hact, hdone, Option.getD_none, if_true]
    rfl

/-- The last instance of a verdict-free step ends it. -/
theorem instanceComplete_ends {s : State} {st : Step} {p : Plan} {op mb : Nat} (hplan : s.stepPlan = some (st, p))
    (hinst : s.inst op mb = some (.computed cOK)) (hstop : st.stopped = false) (hpow : s.powered = true)
    (hpeers : s.fab.peerReads = []) (hfree : st.verdictFree = true)
    (hlast : ∀ i ∈ p.instances, i = (op, mb) ∨ st.finished i = true) (hloaded : st.plan ≠ 0)
    (hdone : s.stp.doneCode st.tag = none) :
    ∃ t, exec (.instanceComplete op mb) s = .next t ∧ t.stp.active = none
      ∧ t.stp.words = (s.stp.setWord st.tag (.done cOK)).words
      ∧ t.att = s.att.raise s.aon.tick aSTEP_DONE cOK st.tag st.ring st.attempt := by
  have hended := State.instDone_ended hinst cOK
  have hexec := execInstanceComplete_eq hplan hinst hstop hpow (by simp [cOK, cRANGE])
  rw [if_pos rfl] at hexec
  generalize s.instDone op mb cOK = v at hended hexec
  obtain ⟨st', hplan', hbare⟩ := hended.stepPlan hplan
  have hact := State.stepPlan_active hplan'
  have hsame := Step.SameAttempt.of_bare hbare
  have hwords : v.stp.words = s.stp.words := (congrArg Stp.words hended.bare : v.bareStp.words = s.bareStp.words)
  have hcode : v.stp.doneCode st'.tag = none := by
    rw [hsame.tag, ← hdone]
    simp only [Stp.doneCode, hwords]
  have hfab : v.fab = s.fab := hended.keeps .fab (by decide)
  have hafter : v.afterEnd = v.endFree cOK := by
    unfold State.afterEnd
    rw [State.servePeers_none (hfab ▸ hpeers)]
    simp only [hplan']
    rw [if_pos]
    simp only [Bool.and_eq_true, List.all_eq_true]
    exact ⟨hsame.verdictFree.trans hfree, fun i hi => (hended.finished (State.stepPlan_active hplan) hact i).2 (hlast i hi)⟩
  obtain ⟨hnone, hword, hatt⟩ := State.endFree_ok hact (hsame.plan ▸ hloaded) hcode
  refine ⟨_, hexec, ?_⟩
  rw [hafter]
  refine ⟨hnone, ?_, ?_⟩
  · rw [hword, hsame.tag]
    simp only [Stp.setWord, hwords]
  · rw [hatt, hsame.tag, hsame.ring, hsame.attempt, hended.keeps .att (by decide), hended.keeps .aon (by decide)]

/-! ### A step that holds -/

theorem Fab.upBundles_all (f : Fab) : f.upBundles.filter (· != 6) = f.upBundles := by
  refine List.filter_eq_self.2 fun b hb => ?_
  have := List.mem_range.1 (List.mem_filter.1 hb).1
  simp only [bne_iff_ne, ne_eq]
  omega

/-- The step that a hold stops is the same attempt. -/
theorem State.holdStarts_active {s : State} {st : Step} (h : s.stp.active = some st) (code : Nat) :
    ∃ x, (s.holdStarts st code).stp.active = some x ∧ x.SameAttempt st := by
  have hstop : ∃ f : Step → Step, s.stopStep.stp.active = s.stp.active.map f ∧ ∀ y, (f y).SameAttempt y :=
    ⟨_, rfl, fun _ => ⟨rfl, rfl, rfl, rfl, rfl, rfl, rfl⟩⟩
  obtain ⟨f, hf, hsame⟩ := hstop
  have hhold : (s.holdStarts st code).stp.active
      = s.stopStep.stp.active.map fun x => { x with holdCode := if st.holdCode = 0 then code else st.holdCode } := rfl
  refine ⟨{ f st with holdCode := if st.holdCode = 0 then code else st.holdCode }, ?_, ?_⟩
  · rw [hhold, hf, h]
    rfl
  · obtain ⟨htag, hplan, hring, hattempt, hround, hfree, hls⟩ := hsame st
    exact ⟨htag, hplan, hring, hattempt, hround, hfree, hls⟩

theorem State.holdStarts_keeps (s : State) (st : Step) (code : Nat) :
    Keeps [.out, .mem, .stp, .eng, .fab, .trn, .obs] s (s.holdStarts st code) := .of_patch rfl

/-- A running step with a verdict that cannot go on votes to hold, and its notice goes out (R634). -/
theorem State.localHold_votes {s : State} {st : Step} (hact : s.stp.active = some st) (hrun : st.st = .running)
    (hfree : st.verdictFree = false) (hw : voteWaits s) (code : Nat) :
    ∃ v, hasVoted (s.localHold code) st v ∧ v.hold = 1 ∧ v.holdCode = (if st.holdCode = 0 then code else st.holdCode)
      ∧ (s.localHold code).out = s.out ++ s.fab.upBundles.map (fun b => .holdNotice b st.ring st.attempt st.round)
      ∧ Keeps [.out, .mem, .stp, .eng, .fab, .trn, .obs] s (s.localHold code)
      ∧ (s.localHold code).fab.peerReads = s.fab.peerReads
      ∧ ∀ x, (s.localHold code).stp.active = some x → x.verdictFree = false := by
  have heq : s.localHold code = (s.holdStarts st code).vote (s.holdVote st code) false := by
    unfold State.localHold
    simp only [hact]
    rw [if_neg (by simp [hrun]), if_neg (by simp [hrun]), if_neg (by simp [hfree])]
    rfl
  obtain ⟨x, hx, hsame⟩ := State.holdStarts_active hact code
  have hstart := s.holdStarts_keeps st code
  obtain ⟨hvoted, hkeeps, -, hactive⟩ := State.vote_waits hx (voteWaits_congr (t := s.holdStarts st code) hw rfl rfl rfl)
    (v := s.holdVote st code) hsame.ring.symm hsame.round.symm false
  rw [heq]
  generalize hu : s.holdStarts st code = u at *
  generalize u.vote (s.holdVote st code) false = t at *
  have hfab : t.fab = u.fab := hkeeps .fab (by decide)
  refine ⟨_, hasVoted_congr hsame hvoted, rfl, rfl, ?_, ?_, ?_, fun y hy => ?_⟩
  · rw [hkeeps .out (by decide), ← hu]
    exact congrArg (fun bs => s.out ++ List.map _ bs) s.fab.upBundles_all
  · exact hstart.trans (hkeeps.mono (by decide))
  · rw [hfab, ← hu]
    rfl
  · rw [(hactive y hy).2, hsame.verdictFree, hfree]

/-- An instance that fails holds its step. -/
theorem instanceComplete_holds {s : State} {st : Step} {p : Plan} {op mb c : Nat} (hplan : s.stepPlan = some (st, p))
    (hinst : s.inst op mb = some (.computed c)) (hstop : st.stopped = false) (hpow : s.powered = true)
    (hpeers : s.fab.peerReads = []) (hbad : c ≠ cOK) (hrange : c = cRANGE → st.rangeWaits p op = false)
    (hfree : st.verdictFree = false) (hrun : st.st = .running) (hw : voteWaits s) :
    ∃ t v, exec (.instanceComplete op mb) s = .next t ∧ hasVoted t st v ∧ v.hold = 1
      ∧ v.holdCode = (if st.holdCode = 0 then c else st.holdCode)
      ∧ t.out = s.out ++ s.fab.upBundles.map (fun b => .holdNotice b st.ring st.attempt st.round)
      ∧ Keeps [.out, .mem, .stp, .eng, .fab, .trn, .obs] s t := by
  have hended := State.instDone_ended hinst c
  have hexec := execInstanceComplete_eq hplan hinst hstop hpow hrange
  rw [if_neg hbad] at hexec
  unfold State.instFails at hexec
  generalize s.instDone op mb c = u at hended hexec
  obtain ⟨x, hplan', hbare⟩ := hended.stepPlan hplan
  have hsame := Step.SameAttempt.of_bare hbare
  have hst : x.st = st.st := (congrArg Step.st hbare : x.bare.st = st.bare.st)
  have hcode : x.holdCode = st.holdCode := (congrArg Step.holdCode hbare : x.bare.holdCode = st.bare.holdCode)
  have hwait : u.stp.waitVerdict = s.stp.waitVerdict := (congrArg Stp.waitVerdict hended.bare : u.bareStp.waitVerdict = s.bareStp.waitVerdict)
  have hfab : u.fab = s.fab := hended.keeps .fab (by decide)
  have hout : u.out = s.out := hended.keeps .out (by decide)
  obtain ⟨v, hvoted, hhold, hholdCode, htout, hkeeps, hreads, hactive⟩ := State.localHold_votes (State.stepPlan_active hplan')
    (hst.trans hrun) (hsame.verdictFree.trans hfree) (voteWaits_congr hw hwait (by rw [hfab]) (by rw [hfab])) c
  generalize u.localHold c = t at hexec hvoted htout hkeeps hreads hactive
  have hafter : t.afterEnd = t := by
    unfold State.afterEnd
    rw [State.servePeers_none (by rw [hreads, hfab, hpeers])]
    dsimp only
    split
    · rename_i y q hy
      rw [if_neg (by simp [hactive y (State.stepPlan_active hy)])]
    · rfl
  refine ⟨t, v, by rw [hexec, hafter], hasVoted_congr hsame hvoted, hhold, by rw [hholdCode, hcode], ?_, ?_⟩
  · rw [htout, hout, hfab, hsame.ring, hsame.attempt, hsame.round]
  · exact (hended.keeps.mono (by decide)).trans hkeeps

end Sys2Proof.Machine
end

section
/-! SUPPORT. VOTE_RECORD_WRITE, and the life of a step as a whole (R213, R219, R299, R303, R326 to R328, R332, R336, R343, R348 to
R350, R634). -/

namespace Sys2Proof.Machine

/-! ### VOTE_RECORD_WRITE -/

/-- With no gather there is no copy to sweep. -/
theorem State.sweepNotes_none {s : State} (h : s.fab.chains = []) (p : Plan) :
    s.sweepNotes p = s.onStep fun st => { st with diverged := 0 } := by
  have hsweep : s.sweep p = [] := by simp [State.sweep, h]
  unfold State.sweepNotes
  simp only [hsweep, List.foldl_nil, List.map_nil, List.append_nil, List.length_nil]
  simp [State.emits, State.onStep]

/-- The seals that a vote counts depend on memory, and on the ring and round of the step. -/
theorem State.sealOf_congr {s t : State} (h : Keeps [.stp] s t) {st st' : Step} (hring : st'.ring = st.ring)
    (hround : st'.round = st.round) (hk : st'.k = st.k) (d : ShardDef) : t.sealOf st' d = s.sealOf st d := by
  have htrn : t.trn = s.trn := h .trn (by decide)
  simp only [State.sealOf, State.slotSeal, h.slotRead (by decide), htrn, hring, hround, hk]

theorem State.held_congr {s t : State} (h : Keeps [.stp] s t) : t.held = s.held := by
  have htrn : t.trn = s.trn := h .trn (by decide)
  have hfab : t.fab = s.fab := h .fab (by decide)
  have howns : t.owns = s.owns := by funext d; simp only [State.owns, hfab]
  have htwins : t.twins = s.twins := by funext d; simp only [State.twins, hfab]
  simp only [State.held, htrn, howns, htwins]

/-- The step as a vote of round 0 finds it: its disputes are the twins that differ. -/
def State.votingStep (s : State) (st : Step) (tw : List (Nat × BitVec 64)) : Step :=
  { st with diverged := 0, disputes := s.twinMisses st tw }

/-- What the device knows of its copies and twins is in the step, and it can vote. -/
def State.readyToVote (s : State) (tw : List (Nat × BitVec 64)) : State :=
  s.onStep fun st => s.votingStep st tw

/-- The device casts its vote, unless a hold notice has released it; what waited for the vote goes on. -/
def State.castVote (s : State) : State :=
  match s.stp.active with
  | some st => ((s.heedNotices).vote (s.contribution st) false).owedHold.serveFetches
  | none => s

theorem State.readyToVote_keeps (s : State) (tw : List (Nat × BitVec 64)) : Keeps [.stp] s (s.readyToVote tw) := s.onStep_keeps _

theorem State.readyToVote_active {s : State} {st : Step} (h : s.stp.active = some st) (tw : List (Nat × BitVec 64)) :
    (s.readyToVote tw).stp.active = some (s.votingStep st tw) := by
  simp only [State.readyToVote, State.onStep, h, Option.map_some]

/-- What a contribution counts of the shards held here. -/
theorem State.contribution_unsealed (s : State) (st : Step) :
    (s.contribution st).unsealed = (s.held.filter fun d => (s.sealOf st d).isNone).length := by
  show ((s.held.map fun d => (d, s.sealOf st d)).filter (·.2.isNone)).length = _
  rw [List.filter_map, List.length_map]
  rfl

/-- A device that votes in a round, with nothing else to do, has voted. -/
theorem State.vote_rests {s : State} {st : Step} (hact : s.stp.active = some st) (hw : voteWaits s) (hfetches : s.trn.fetches = []) :
    hasVoted (s.vote (s.contribution st) false) st (s.contribution st)
      ∧ Keeps [.mem, .stp, .obs] s (s.vote (s.contribution st) false)
      ∧ (s.vote (s.contribution st) false).owedHold = s.vote (s.contribution st) false
      ∧ (s.vote (s.contribution st) false).serveFetches = s.vote (s.contribution st) false := by
  obtain ⟨hvoted, hkeeps, -, hactive⟩ := State.vote_waits hact hw (v := s.contribution st) rfl rfl false
  have htrn : (s.vote (s.contribution st) false).trn = s.trn := hkeeps .trn (by decide)
  exact ⟨hvoted, hkeeps.mono (by decide), State.owedHold_voted fun x hx => (hactive x hx).1,
    State.serveFetches_none (by rw [htrn, hfetches])⟩

/-- Where no notice has come, the vote cast is the device's contribution. -/
theorem State.castVote_eq {s : State} {st : Step} (hact : s.stp.active = some st) (hw : voteWaits s)
    (hnotices : s.stp.notices = []) (hfetches : s.trn.fetches = []) :
    s.castVote = s.vote (s.contribution st) false ∧ hasVoted (s.vote (s.contribution st) false) st (s.contribution st)
      ∧ Keeps [.mem, .stp, .obs] s (s.vote (s.contribution st) false) := by
  obtain ⟨hvoted, hkeeps, howed, hserved⟩ := State.vote_rests hact hw hfetches
  refine ⟨?_, hvoted, hkeeps⟩
  unfold State.castVote
  rw [hact]
  dsimp only
  rw [State.heedNotices_none hnotices, howed, hserved]

/-- The device computes a step that takes a verdict: it can vote, and its vote waits for the predecessor's. -/
structure CanVote (s : State) (st : Step) (p : Plan) : Prop where
  plan : s.stepPlan = some (st, p)
  powered : s.powered = true
  running : st.st = .running
  goesOn : st.stopped = false
  verdict : st.verdictFree = false
  waits : voteWaits s
  slots : s.slotsWait = none
  fetches : s.trn.fetches = []

theorem execVoteRecordWrite_first {s : State} {st : Step} {p : Plan} {tw : List (Nat × BitVec 64)} {i : Nat} {r : List Nat}
    (hv : CanVote s st p) (hchains : s.fab.chains = []) (hround : st.round = 0) (hops : p.opsOf 0x32 = i :: r) (hpreds : (p.preds i 0).all st.finished = true)
    (htwins : ∀ d ∈ s.held, d.twinEn = true → tw.any (·.1 == d.shard) = true) :
    exec (.voteRecordWrite tw) s = .next (s.readyToVote tw).castVote := by
  obtain ⟨hplan, hpow, hrun, hstop, hfree, -, hslots, -⟩ := hv
  have hready : ((s.sweepNotes p).onStep fun x => { x with disputes := s.twinMisses st tw }) = s.readyToVote tw := by
    have hact := State.stepPlan_active hplan
    rw [State.sweepNotes_none hchains]
    simp only [State.readyToVote, State.onStep, State.votingStep, hact, Option.map_some]
  have hreported : ((s.held.filter (·.twinEn)).all fun d => tw.any (·.1 == d.shard)) = true := by
    rw [List.all_eq_true]
    intro d hd
    obtain ⟨hheld, htwin⟩ := List.mem_filter.1 hd
    exact htwins d hheld htwin
  show execVoteRecordWrite tw s = _
  unfold execVoteRecordWrite State.onSlots
  simp only [hslots, hplan]
  rw [if_neg (by simp [hpow, hrun, hstop, hfree]), if_pos hround]
  simp only [hops]
  rw [if_pos (by rw [hpreds, hreported]; rfl), hready]
  rfl

/-- The vote of round 0, once everything before the VERDICT has completed and every twin has reported. -/
theorem voteRecordWrite_first {s : State} {st : Step} {p : Plan} {tw : List (Nat × BitVec 64)} {i : Nat} {r : List Nat}
    (hv : CanVote s st p) (hnotices : s.stp.notices = []) (hchains : s.fab.chains = []) (hround : st.round = 0) (hops : p.opsOf 0x32 = i :: r)
    (hpreds : (p.preds i 0).all st.finished = true)
    (htwins : ∀ d ∈ s.held, d.twinEn = true → tw.any (·.1 == d.shard) = true) :
    ∃ t v, exec (.voteRecordWrite tw) s = .next t ∧ hasVoted t st v ∧ v.hold = 0 ∧ v.devices = 1
      ∧ v.unsealed = (s.held.filter fun d => (s.sealOf st d).isNone).length ∧ v.twinMiss = (s.twinMisses st tw).length
      ∧ v.diverged = 0 ∧ Keeps [.mem, .stp, .obs] s t := by
  have hcast := State.castVote_eq (State.readyToVote_active (State.stepPlan_active hv.plan) tw)
    (voteWaits_congr (t := s.readyToVote tw) hv.waits rfl rfl rfl) hnotices hv.fetches
  obtain ⟨heq, hvoted, hkeeps⟩ := hcast
  have hwk := s.readyToVote_keeps tw
  have hexec := (execVoteRecordWrite_first hv hchains hround hops hpreds htwins).trans (congrArg _ heq)
  have hmiss : ((s.readyToVote tw).contribution (s.votingStep st tw)).twinMiss = (s.twinMisses st tw).length := by
    show ((s.twinMisses st tw).filter fun x => decide (st.round = 0) || decide (x.2 = 1)).length = _
    simp [hround]
  refine ⟨_, _, hexec, hasVoted_congr (x := s.votingStep st tw) ⟨rfl, rfl, rfl, rfl, rfl, rfl, rfl⟩ hvoted, rfl, rfl, ?_, hmiss, rfl,
    (hwk.mono (by decide)).trans hkeeps⟩
  rw [State.contribution_unsealed, State.held_congr hwk]
  exact congrArg List.length (List.filter_congr fun d _ => by
    rw [State.sealOf_congr hwk (st := st) (st' := s.votingStep st tw) rfl rfl rfl])

/-- The vote of a later round, once every dispute is settled. -/
theorem voteRecordWrite_later {s : State} {st : Step} {p : Plan} (tw : List (Nat × BitVec 64)) (hv : CanVote s st p) (hround : st.round ≠ 0)
    (hdisputes : st.disputes.all (·.2 == 1) = true) (hreferees : s.trn.referees = []) :
    ∃ t v, exec (.voteRecordWrite tw) s = .next t ∧ hasVoted t st v ∧ v.hold = 0 ∧ v.twinMiss = st.disputes.length
      ∧ Keeps [.mem, .stp, .obs] s t := by
  obtain ⟨hplan, hpow, hrun, hstop, hfree, hw, hslots, hfetches⟩ := hv
  obtain ⟨hvoted, hkeeps, -, hserved⟩ := State.vote_rests (State.stepPlan_active hplan) hw hfetches
  have hexec : exec (.voteRecordWrite tw) s = .next (s.vote (s.contribution st) false) := by
    show execVoteRecordWrite tw s = _
    unfold execVoteRecordWrite State.onSlots
    simp only [hslots, hplan]
    rw [if_neg (by simp [hpow, hrun, hstop, hfree]), if_neg hround, if_pos (by simp [hdisputes, hreferees]), hserved]
  refine ⟨_, _, hexec, hvoted, rfl, ?_, hkeeps⟩
  show (st.disputes.filter fun x => decide (st.round = 0) || decide (x.2 = 1)).length = _
  rw [List.filter_eq_self.2]
  intro x hx
  simpa [hround] using List.all_eq_true.1 hdisputes x hx

/-! ### The statement -/

theorem verdictTimeout_raises {s : State} {st : Step} (hpow : s.powered = true) (hact : s.stp.active = some st)
    (hvoted : st.st = .voted) : exec .verdictTimeout s = .next (s.raise aSTEP_HELD 0 st.tag st.ring st.attempt) := by
  show execVerdictTimeout s = _
  unfold execVerdictTimeout
  simp only [hact]
  rw [if_pos (by simp [hpow, hvoted])]

/-- Settles O59: a step's start, an instance's end and a vote change the step and what follows from it only, a vote that has to
wait for the predecessor's goes no further, and an arrival update writes inside the pending slot. -/
theorem stepsRun : Obligations.StepsRun := by
  unfold Obligations.StepsRun
  refine ⟨?_, ?_, ?_, ?_, ?_, ?_, ?_⟩
  case refine_1 =>
    intro s q p hpow hready hactive hresume hhalt hqueued hget hpreps hnotices hearly hpeers hends hdone
    obtain ⟨t, es, hexec, hkeeps⟩ := stepStart_spec hpow hready hactive hresume hhalt hqueued hget hpreps hnotices hearly hpeers hends
    have hstp : t.stp = (s.withStep q (q.started (p.stampAt q.ring) s.aon.tick.toNat es) p).stp := hkeeps .stp (by decide)
    have hpln : t.pln = s.pln.forStep q := hkeeps .pln (by decide)
    refine ⟨t, q.started (p.stampAt q.ring) s.aon.tick.toNat es, hexec, congrArg Stp.active hstp, congrArg Stp.queued hstp, rfl, rfl,
      rfl, rfl, rfl, rfl, rfl, fun hword => ?_, ?_, hkeeps .mem (by decide), ?_⟩
    · rw [show t.stp.words = (s.stp.moveWord q.tag .running).words from (congrArg (·.words) hstp :), Stp.moveWord_eq hdone]
      exact Stp.setWord_find hword _
    · rw [hpln, Pln.forStep]
      split <;> rfl
    · exact ((s.withStep_keeps q _ p).mono (by decide)).trans (hkeeps.mono (by decide))
  case refine_2 =>
    intro s st p op mb c hplan hinst hstop hpow hpeers
    refine ⟨?_, ?_, fun hbad hrange hfree hrun hw =>
      instanceComplete_holds hplan hinst hstop hpow hpeers hbad hrange hfree hrun hw⟩
    · rintro rfl hmore
      obtain ⟨t, hexec, hended⟩ := instanceComplete_goesOn hplan hinst hstop hpow hpeers hmore
      exact ⟨t, hexec, hended.here, hended.mem, hended.tasks, hended.keeps⟩
    · rintro rfl hfree hlast hloaded hdone
      obtain ⟨t, hexec, hnone, hwords, hatt⟩ := instanceComplete_ends hplan hinst hstop hpow hpeers hfree hlast hloaded hdone
      exact ⟨t, hexec, hnone, fun hword => hwords ▸ Stp.setWord_find hword _, hatt⟩
  case refine_3 =>
    intro s u st p op henter
    obtain ⟨hinst, hkeeps⟩ := State.enter_some henter
    refine ⟨?_, hinst, hkeeps⟩
    show execVerdict op s = _
    unfold execVerdict
    rw [henter]
  case refine_4 =>
    intro s st p tw i r hplan hpow hrun hstop hfree hw hnotices hchains hslots hfetches
    have hv : CanVote s st p := ⟨hplan, hpow, hrun, hstop, hfree, hw, hslots, hfetches⟩
    exact ⟨voteRecordWrite_first hv hnotices hchains, voteRecordWrite_later tw hv⟩
  case refine_5 =>
    intro s st hpow hact hvoted
    exact ⟨_, verdictTimeout_raises hpow hact hvoted, rfl, s.raise_keeps _ _ _ _ _⟩
  case refine_6 =>
    intro s u st p op au pl d w r o hInv hslots henter hshard hau hw hheader hsealed harrived hlost hrepair hintact hslot hkind
    obtain ⟨t, hexec, hinst, hupdate, hread, hwrites, hkeeps⟩ := arrivalUpdate_opens pl hInv.sound hslots henter hshard hau hw hheader
      hsealed harrived hlost hrepair hintact ⟨r, o, hslot, hkind, rfl⟩
    exact ⟨t, hexec, hinst, hupdate, hread, hwrites.bytes, hkeeps⟩
  case refine_7 =>
    rintro s st p d u op seg c r o hInv hslots hshard hupd hplan hau hpow hstop hrun hround hheader harr hnew hseg hpoison hslot hkind
      rfl
    obtain ⟨t, u', hexec, hupdate, hupdated, hweights, hsealed, hwrites, hkeeps⟩ := segmentUpdateDone_updates hInv.sound
      ⟨hslots, hshard, hupd, hplan, hau, hpow, hstop, hrun, hround, hheader, harr, hnew, hpoison⟩ hseg ⟨r, o, hslot, hkind, rfl⟩
    exact ⟨t, u', hexec, hupdate, hupdated, hweights, hsealed, hwrites.bytes, hkeeps⟩

end Sys2Proof.Machine
end

section
/-! SUPPORT. MAP and UNMAP: what a command that replies without a change leaves, the tables that a mapping takes and gives back, and
the commands' bodies (R223, R235 to R241). -/

namespace Sys2Proof.Machine

/-! ### A command that only replies -/

/-- A command whose body answers and changes nothing only replies. -/
theorem IsServed.take_onlyReplies {s : State} {k : SlotId} {op code : Nat} {d : Bytes} {body : Req → State → State × Resp}
    (h : IsServed s k op) (hwf : s.mbx.cells.wf = true) (hbody : body (s.asks k) (s.taken k) = (s.taken k, some (code, d)))
    (hcode : code ≠ cWAIT) : OnlyReplies s (s.take k (·.opcode == op) body) k code d := by
  obtain ⟨hreplied, hkeeps⟩ := h.take_replied hwf hbody hcode rfl
  have haon : (s.take k (·.opcode == op) body).aon = (s.taken k).aon := hkeeps .aon (by decide)
  exact ⟨hreplied, (s.taken_keeps k).trans (hkeeps.mono (by decide)), by rw [haon]; rfl⟩

/-! ### The tables of a mapping change no region -/

/-- What each step of a fold that can fail keeps holds after the fold. -/
theorem foldlM_keeps {α β : Type} {P : β → Prop} {f : β → α → Option β} (hf : ∀ b a c, f b a = some c → P b → P c) :
    ∀ (as : List α) {b c : β}, as.foldlM f b = some c → P b → P c := by
  intro as
  induction as with
  | nil =>
    intro b c h hb
    cases h
    exact hb
  | cons a as ih =>
    intro b c h hb
    rw [List.foldlM_cons] at h
    obtain ⟨x, hx, hrest⟩ := Option.bind_eq_some_iff.1 h
    exact ih hrest (hf b a x hx hb)

theorem allocTable_regions {g g' : Rgn} {lvl o : Nat} (h : allocTable g lvl = some (o, g')) : g'.regions = g.regions := by
  obtain ⟨_, -, hx⟩ := Option.map_eq_some_iff.1 h
  cases hx
  rfl

theorem mapOne_regions {lvl id lo hi off base i : Nat} {sub : Option (Rgn → Nat → Nat → Option Rgn)} {m : Mapping} {g g' : Rgn}
    (hsub : ∀ f, sub = some f → ∀ g o b g', f g o b = some g' → g'.regions = g.regions)
    (h : mapOne lvl sub id m lo hi off base g i = some g') : g'.regions = g.regions := by
  unfold mapOne at h
  dsimp only at h
  split at h
  · cases h
    rfl
  · split at h
    · cases h
      rfl
    · split at h
      · cases h
        rfl
      · split at h
        · exact hsub _ rfl _ _ _ _ h
        · split at h
          · cases h
          · rename_i _ _ halloc
            have htaken := allocTable_regions halloc
            exact (hsub _ rfl _ _ _ _ h).trans htaken

theorem mapTable_regions {id lo hi : Nat} {m : Mapping} : ∀ {lvl : Nat} {g g' : Rgn} {off base : Nat},
    mapTable id m lo hi lvl g off base = some g' → g'.regions = g.regions := by
  intro lvl
  induction lvl with
  | zero =>
    intro g g' off base h
    exact foldlM_keeps (P := fun x : Rgn => x.regions = g.regions)
      (fun _ _ _ hx hb => (mapOne_regions (fun _ hf => by cases hf) hx).trans hb) _ h rfl
  | succ l ih =>
    intro g g' off base h
    refine foldlM_keeps (P := fun x : Rgn => x.regions = g.regions) (fun _ _ _ hx hb => (mapOne_regions (fun f hf => ?_) hx).trans hb)
      _ h rfl
    cases hf
    exact fun _ _ _ _ => ih

theorem unmapOne_regions {lvl off base i : Nat} {sub : Option (Rgn → Nat → Nat → Rgn)} {g : Rgn}
    (hsub : ∀ f, sub = some f → ∀ g o b, (f g o b).regions = g.regions) :
    (unmapOne lvl sub off base g i).regions = g.regions := by
  unfold unmapOne
  dsimp only
  split
  · rfl
  · split
    · split
      · exact hsub _ rfl _ _ _
      · exact hsub _ rfl _ _ _
    · rfl

theorem unmapTable_regions {lo hi : Nat} : ∀ {lvl : Nat} {g : Rgn} {off base : Nat},
    (unmapTable lo hi lvl g off base).regions = g.regions := by
  intro lvl
  induction lvl with
  | zero =>
    intro g off base
    exact foldl_keeps (P := fun x : Rgn => x.regions = g.regions)
      (fun _ _ hb => (unmapOne_regions fun _ hf => by cases hf).trans hb) _ _ rfl
  | succ l ih =>
    intro g off base
    refine foldl_keeps (P := fun x : Rgn => x.regions = g.regions) (fun _ _ hb => (unmapOne_regions fun f hf => ?_).trans hb) _ _ rfl
    cases hf
    exact fun _ _ _ => ih

theorem Rgn.get_congr {g g' : Rgn} (h : g'.regions = g.regions) (id : Nat) : g'.get id = g.get id := by
  rw [Rgn.get, h, Rgn.get]

/-- A region put in its place, and the others where they were. -/
theorem Rgn.get_put {g : Rgn} {r r' : Region} (h : g.get r.id = some r) (hid : r'.id = r.id) :
    (g.put r').get r.id = some r' ∧ ∀ i, i ≠ r.id → (g.put r').get i = g.get i := by
  refine ⟨?_, fun i hi => Rgn.get_put_ne (hid ▸ hi)⟩
  rw [← hid]
  exact Rgn.get_put_same (hid.symm ▸ h)

theorem State.withTables_mem (s : State) (g : Rgn) :
    (s.withTables g).mem = { s.mem with poison := (s.withTables g).mem.poison } := rfl

theorem State.withTables_keeps (s : State) (g : Rgn) : Keeps [.mem, .rgn] s (s.withTables g) := .of_patch rfl

/-- New tables end the poison of lines of table space only (R223, R235). -/
theorem State.withTables_poison (s : State) (g : Rgn) {l : Nat} (hl : l < 2 ^ 60) :
    l ∈ (s.withTables g).mem.poison ↔ l ∈ s.mem.poison := by
  have hout : ∀ t : Nat × Nat, inRange (2 ^ 66 + t.1) t.2 l = false := fun t => by
    simp only [inRange, Bool.and_eq_false_iff, decide_eq_false_iff_not]
    omega
  refine ⟨fun h => (List.mem_filter.1 h).1, fun h => List.mem_filter.2 ⟨h, ?_⟩⟩
  rw [Bool.not_eq_true', List.any_eq_false]
  exact fun t _ => ne_true_of_eq_false (hout t)

/-! ### The bodies -/

/-- The mapping that a request asks for (R236). -/
def Req.mapping (q : Req) : Mapping := ⟨q.f 8 8, bit (q.f 1 1) 0, bit (q.f 1 1) 1⟩

/-- MAP of an unmapped region at a free aligned base maps it, if its tables find room. -/
theorem mapBody_eq {s : State} {q : Req} {r : Region} (hid : q.rz 0 1 7 6 = true) (hflags : q.rz 1 1 7 2 = true)
    (hzero : q.zb 2 6 = true) (hva : vaOk (q.f 8 8) = true) (hr : s.rgn.get (bits (q.f 0 1) 5 0) = some r) (hmap : r.map = none)
    (haligned : q.f 8 8 % pageBytes = 0) (hfits : q.f 8 8 + r.size ≤ 2 ^ 56)
    (hfree : ∀ x ∈ s.rgn.regions, ∀ m, x.map = some m → overlaps m.base x.size (q.f 8 8) r.size = false) {x : Option Rgn}
    (hx : mapTable r.id q.mapping q.mapping.base (q.mapping.base + r.size) 3 s.rgn 0 0 = x) :
    mapBody q s = x.elim (s, rcode cNO_RESOURCE)
      fun g => (s.withTables (g.put { r with map := some q.mapping }), rcode cOK) := by
  have hhits : ¬ ((s.rgn.regions.any fun x => match x.map with
      | some m => overlaps m.base x.size (q.f 8 8) r.size
      | none => false) = true) := by
    rw [List.any_eq_true]
    rintro ⟨x, hx, hhit⟩
    cases hm : x.map with
    | none => simp [hm] at hhit
    | some m => simp [hm, hfree x hx m hm] at hhit
  unfold mapBody
  dsimp only
  rw [if_neg (by simp [hid, hflags, hzero, hva])]
  simp only [hr]
  rw [if_neg (by simp [hmap, haligned]; omega)]
  refine (if_neg hhits).trans ?_
  simp only [Req.mapping] at hx
  rw [hx]
  cases x <;> rfl

/-- UNMAP of a mapped region answers BUSY where something names it, and takes its mapping away otherwise. -/
theorem unmapBody_eq {s : State} {q : Req} {r : Region} {m : Mapping} (hid : q.rz 0 1 7 6 = true) (hzero : q.zb 1 7 = true)
    (hr : s.rgn.get (bits (q.f 0 1) 5 0) = some r) (hmap : r.map = some m) :
    unmapBody q s = if s.regionNamed r then (s, rcode cBUSY) else ({ s with rgn := s.rgn.unmap r }, rcode cOK) := by
  unfold unmapBody
  rw [if_neg (by simp [hid, hzero])]
  simp only [hr]
  rw [if_neg (by simp [hmap])]

/-- What UNMAP leaves of the regions, the tables and the cached translations (R241). -/
theorem Rgn.unmap_spec {g : Rgn} {r : Region} {m : Mapping} (hr : g.get r.id = some r) (hmap : r.map = some m) :
    (g.unmap r).get r.id = some { r with map := none } ∧ (∀ i, i ≠ r.id → (g.unmap r).get i = g.get i)
      ∧ (g.unmap r).tbl = (unmapTable m.base (m.base + r.size) 3 g 0 0).tbl
      ∧ (g.unmap r).tables = (unmapTable m.base (m.base + r.size) 3 g 0 0).tables
      ∧ ∀ e ∈ (g.unmap r).tcache, ¬ (m.base ≤ e.base ∧ e.base < m.base + r.size) := by
  generalize hclear : unmapTable m.base (m.base + r.size) 3 g 0 0 = x
  have hget : ∀ i, x.get i = g.get i := Rgn.get_congr (hclear ▸ unmapTable_regions)
  have hunmap : g.unmap r = { (x.put { r with map := none }) with
      tcache := x.tcache.filter fun e => !(decide (m.base ≤ e.base) && decide (e.base < m.base + r.size)) } := by
    simp only [Rgn.unmap, hmap, hclear]
    rfl
  have hregions : (g.unmap r).regions = (x.put { r with map := none }).regions := by rw [hunmap]
  obtain ⟨hhere, hothers⟩ := Rgn.get_put (g := x) (r' := { r with map := none }) ((hget r.id).trans hr) rfl
  refine ⟨(Rgn.get_congr hregions _).trans hhere, fun i hi => ?_, by rw [hunmap]; rfl, by rw [hunmap]; rfl, fun e he => ?_⟩
  · rw [Rgn.get_congr hregions, hothers i hi, hget]
  · rw [hunmap] at he
    have hout := (List.mem_filter.1 he).2
    rwa [← Bool.decide_and, Bool.not_eq_true', decide_eq_false_iff_not] at hout

/-! ### The statement -/

/-- MAP of a region whose tables find room. -/
theorem map_spec {s : State} {k : SlotId} {r : Region} {m : Mapping} {g : Rgn} (hInv : s.Inv) (hserved : IsServed s k 0x0205)
    (hr : s.rgn.get r.id = some r) (hregions : g.regions = s.rgn.regions)
    (hbody : mapBody (s.asks k) (s.taken k) = ((s.taken k).withTables (g.put { r with map := some m }), rcode cOK)) :
    ∃ t, exec (.map k) s = .next t ∧ Replied s t k cOK [] ∧ t.rgn = g.put { r with map := some m }
      ∧ t.rgn.get r.id = some { r with map := some m } ∧ (∀ i, i ≠ r.id → t.rgn.get i = s.rgn.get i)
      ∧ t.mem = { s.mem with poison := t.mem.poison } ∧ (∀ l < 2 ^ 60, l ∈ t.mem.poison ↔ l ∈ s.mem.poison)
      ∧ Keeps [.mbx, .aon, .mem, .rgn] s t := by
  obtain ⟨hreplied, hkeeps⟩ := hserved.take_replied hInv.mbx hbody (by decide) rfl
  generalize ht : s.take k (·.opcode == 0x0205) mapBody = t at hreplied hkeeps
  have hrgn : t.rgn = g.put { r with map := some m } := hkeeps .rgn (by decide)
  have hmem : t.mem = ((s.taken k).withTables (g.put { r with map := some m })).mem := hkeeps .mem (by decide)
  have hget := Rgn.get_congr hregions
  obtain ⟨hhere, hothers⟩ := Rgn.get_put (r' := { r with map := some m }) ((hget r.id).trans hr) rfl
  refine ⟨t, congrArg Host.Outcome.next ht, hreplied, hrgn, hrgn ▸ hhere, fun i hi => ?_, ?_, fun l hl => ?_, ?_⟩
  · rw [hrgn, hothers i hi, hget]
  · rw [hmem]
    exact State.withTables_mem _ _
  · rw [hmem]
    exact State.withTables_poison _ _ hl
  · exact ((s.taken_keeps k).mono (by decide)).trans ((((s.taken k).withTables_keeps _).mono (by decide)).trans
      (hkeeps.mono (by decide)))

/-- UNMAP of a region that nothing names. -/
theorem unmap_spec {s : State} {k : SlotId} {r : Region} {m : Mapping} (hInv : s.Inv) (hserved : IsServed s k 0x0206)
    (hr : s.rgn.get r.id = some r) (hmap : r.map = some m)
    (hbody : unmapBody (s.asks k) (s.taken k) = ({ s.taken k with rgn := (s.taken k).rgn.unmap r }, rcode cOK)) :
    ∃ t, exec (.unmap k) s = .next t ∧ Replied s t k cOK [] ∧ t.rgn.get r.id = some { r with map := none }
      ∧ (∀ i, i ≠ r.id → t.rgn.get i = s.rgn.get i)
      ∧ t.rgn.tbl = (unmapTable m.base (m.base + r.size) 3 s.rgn 0 0).tbl
      ∧ t.rgn.tables = (unmapTable m.base (m.base + r.size) 3 s.rgn 0 0).tables
      ∧ (∀ e ∈ t.rgn.tcache, ¬ (m.base ≤ e.base ∧ e.base < m.base + r.size)) ∧ Keeps [.mbx, .aon, .rgn] s t := by
  obtain ⟨hreplied, hkeeps⟩ := hserved.take_replied hInv.mbx hbody (by decide) rfl
  generalize ht : s.take k (·.opcode == 0x0206) unmapBody = t at hreplied hkeeps
  have hrgn : t.rgn = s.rgn.unmap r := hkeeps .rgn (by decide)
  obtain ⟨hhere, hothers, htbl, htables, htcache⟩ := Rgn.unmap_spec hr hmap
  refine ⟨t, congrArg Host.Outcome.next ht, hreplied, ?_⟩
  rw [hrgn]
  exact ⟨hhere, hothers, htbl, htables, htcache, ((s.taken_keeps k).mono (by decide)).trans
    ((((s.taken k).rgnOnly_keeps _).mono (by decide)).trans (hkeeps.mono (by decide)))⟩

/-- Settles O26: building or clearing the tables of a mapping changes no region, and each body is one update of regions and
tables, or none. -/
theorem mappingChanges : Obligations.MappingChanges := by
  unfold Obligations.MappingChanges
  refine ⟨?_, ?_⟩
  · rintro s k q r rfl hInv hserved hid hflags hzero hva hr hmap haligned hfits hfree
    have hbody := fun {x} => mapBody_eq (s := s.taken k) (x := x) hid hflags hzero hva hr hmap haligned hfits hfree
    refine ⟨fun g hg => ?_, fun hg => ?_⟩
    · exact map_spec hInv hserved ((Rgn.get_some hr).symm ▸ hr) (mapTable_regions hg) (hbody hg)
    · exact ⟨_, rfl, hserved.take_onlyReplies hInv.mbx (hbody hg) (by decide)⟩
  · rintro s k q r m rfl hInv hserved hid hzero hr hmap
    have hbody := unmapBody_eq (s := s.taken k) hid hzero hr hmap
    refine ⟨fun hfree => ?_, fun hnamed => ?_⟩
    · exact unmap_spec hInv hserved ((Rgn.get_some hr).symm ▸ hr) hmap (hbody.trans (if_neg (ne_true_of_eq_false hfree)))
    · exact ⟨_, rfl, hserved.take_onlyReplies hInv.mbx (hbody.trans (if_pos hnamed)) (by decide)⟩

end Sys2Proof.Machine
end

section
/-! SUPPORT. BIAS_SET and the answer to a back-invalidation: the bias of a region's pages, the lines recalled from the host, and the
bytes and the directory entry that the host's answer leaves (R254, R256 to R259, R270). -/

namespace Sys2Proof.Machine

/-! ### Rows of one opcode -/

/-- A row that serves only some requests of its opcode serves those as a row for all of them would. -/
theorem IsServed.take_row {s : State} {k : SlotId} {op : Nat} {mine : Req → Bool} {body : Req → State → State × Resp}
    (h : IsServed s k op) (hmine : mine (s.asks k) = true) : s.take k mine body = s.take k (·.opcode == op) body := by
  obtain ⟨hserves, hfront, hop, hpre⟩ := h
  rw [State.take_served hserves hfront hmine hpre, State.take_served hserves hfront (by simp [hop]) hpre]

theorem IsServed.opcode {s : State} {k : SlotId} {op : Nat} (h : IsServed s k op) : (s.asks k).opcode = op := by
  obtain ⟨-, -, hop, -⟩ := h
  exact hop

/-- A command whose body does not answer waits. -/
theorem IsServed.take_waits {s u : State} {k : SlotId} {op : Nat} {body : Req → State → State × Resp} (h : IsServed s k op)
    (hbody : body (s.asks k) (s.taken k) = (u, none)) : s.take k (·.opcode == op) body = u := by
  obtain ⟨hserves, hfront, hop, hpre⟩ := h
  rw [State.take_served hserves hfront (by simp [hop]) hpre, show s.mbx.req k = s.asks k from rfl, hbody]

/-! ### The bias of pages -/

theorem mem_upFrom {lo n p : Nat} : p ∈ upFrom lo n ↔ lo ≤ p ∧ p < lo + n := by
  simp only [upFrom, List.mem_map, List.mem_range]
  exact ⟨fun ⟨i, hi, he⟩ => by omega, fun h => ⟨p - lo, by omega, by omega⟩⟩

/-- The pages of a list outside a range. -/
def pagesOutside (first count : Nat) (l : List Nat) : List Nat :=
  l.filter fun p => !(decide (first ≤ p) && decide (p < first + count))

theorem mem_pagesOutside {first count p : Nat} {l : List Nat} :
    p ∈ pagesOutside first count l ↔ p ∈ l ∧ p ∉ upFrom first count := by
  rw [pagesOutside, List.mem_filter, mem_upFrom, ← Bool.decide_and, Bool.not_eq_true', decide_eq_false_iff_not]

/-- A region whose pages of a range have taken a bias (R258, R259). -/
def Region.biased (r : Region) (first count : Nat) (sharedBias : Bool) : Region :=
  { r with
    shared := if sharedBias then pagesOutside first count r.shared ++ upFrom first count else pagesOutside first count r.shared
    flipping := pagesOutside first count r.flipping }

theorem Rgn.setBias_eq {g : Rgn} {r : Region} (h : g.get r.id = some r) (first count : Nat) (b : Bool) :
    g.setBias r.id first count b = g.put (r.biased first count b) := by
  simp only [Rgn.setBias, h]
  rfl

theorem Region.biased_shared (r : Region) (first count p : Nat) :
    p ∈ (r.biased first count true).shared ↔ p ∈ r.shared ∨ p ∈ upFrom first count := by
  rw [Region.biased, if_pos rfl, List.mem_append, mem_pagesOutside]
  by_cases hp : p ∈ upFrom first count <;> simp [hp]

theorem Region.biased_device (r : Region) (first count p : Nat) :
    p ∈ (r.biased first count false).shared ↔ p ∈ r.shared ∧ p ∉ upFrom first count := mem_pagesOutside

theorem Region.biased_flipping (r : Region) {first count p : Nat} {b : Bool} (hp : p ∈ upFrom first count) :
    p ∉ (r.biased first count b).flipping := fun h => (mem_pagesOutside.1 h).2 hp

/-! ### The bodies -/

/-- To write modified copies back changes no byte that an agent reads. -/
theorem State.cleanRange_rewrites {s : State} (h : s.Sound) (lo n : Nat) : Rewrites (fun _ => False) s (s.cleanRange lo n) :=
  ⟨State.cleanRange_sound h _ _, .refl _, fun a _ => State.cleanRange_byte h _ _ a⟩

/-- Modified copies of a range are written back, with a fence (R258). -/
def State.settled (s : State) (lo n : Nat) : State := (s.cleanRange lo n).fence

theorem biasSharedBody_eq {s : State} {q : Req} {r : Region} {lo n : Nat} (hr : s.rgn.pageRange q = some r) (hkind : r.kind = 0)
    (hspan : pageSpan r.id (q.f 4 4) (q.f 8 4) = (lo, n)) (hbias : bits (q.f 1 1) 1 0 = 1) :
    biasSharedBody q s = ({ (s.settled lo n) with rgn := s.rgn.put (r.biased (q.f 4 4) (q.f 8 4) true) }, rcode cOK) := by
  unfold biasSharedBody
  simp only [hr, hspan]
  rw [if_neg (by simp [hkind, hbias]), ← Rgn.setBias_eq (Rgn.pageRange_some hr)]
  rfl

theorem State.settled_keeps (s : State) (lo n : Nat) : Keeps [.mem, .coh] s (s.settled lo n) := .of_patch rfl

theorem State.settled_binv (s : State) (lo n : Nat) : (s.settled lo n).coh.binv = s.coh.binv := rfl

theorem State.settled_rewrites {s : State} (h : s.Sound) (lo n : Nat) : Rewrites (fun _ => False) s (s.settled lo n) :=
  (State.cleanRange_rewrites h lo n).trans (State.fence_rewrites (State.cleanRange_sound h _ _))

/-- The same, with the lines of the range that the host may hold recalled (R256). -/
def State.recalled (s : State) (lo n : Nat) : State := ((s.cleanRange lo n).backInvalidate lo n).fence

theorem State.recalled_keeps (s : State) (lo n : Nat) : Keeps [.mem, .coh, .out] s (s.recalled lo n) := .of_patch rfl

theorem State.recalled_rewrites {s : State} (h : s.Sound) (lo n : Nat) : Rewrites (fun _ => False) s (s.recalled lo n) :=
  (State.cleanRange_rewrites h lo n).trans (SameData.rewrites ⟨rfl, rfl, rfl, rfl⟩ (State.cleanRange_sound h _ _) (.refl _))

theorem State.recalled_hostHeld (s : State) (lo n : Nat) : (s.recalled lo n).coh.hostHeld lo n = s.coh.hostHeld lo n := rfl

/-- A line that the host may hold has a back-invalidation outstanding. -/
theorem State.recalled_binv {s : State} {lo n : Nat} {e : DirEntry} (h : e ∈ s.coh.hostHeld lo n) :
    ∃ b ∈ (s.recalled lo n).coh.binv, b.line = e.line := by
  show ∃ b ∈ s.coh.binv ++ ((s.coh.hostHeld lo n).filter fun e => !(s.coh.binv.any (·.line == e.line))).map
    (fun e => (⟨e.line, 0, false⟩ : BackInv)), b.line = e.line
  by_cases hb : s.coh.binv.any (·.line == e.line) = true
  · obtain ⟨b, hmem, hline⟩ := List.any_eq_true.1 hb
    exact ⟨b, List.mem_append_left _ hmem, by simpa using hline⟩
  · exact ⟨⟨e.line, 0, false⟩, List.mem_append_right _ (List.mem_map.2 ⟨e, List.mem_filter.2 ⟨h, by simp [hb]⟩, rfl⟩), rfl⟩

/-- Where the host may hold no line of a range, nothing is recalled. -/
theorem State.recalled_none {s : State} {lo n : Nat} (h : s.coh.hostHeld lo n = []) : s.recalled lo n = s.settled lo n := by
  have hheld : (s.cleanRange lo n).coh.hostHeld lo n = [] := h
  have hnone : (s.cleanRange lo n).backInvalidate lo n = s.cleanRange lo n := by
    simp only [State.backInvalidate, hheld, List.filter_nil, List.map_nil, List.append_nil]
  rw [State.recalled, hnone, State.settled]

/-- With nothing of the pages at the host they take device bias. -/
theorem biasDeviceBody_done {s : State} {q : Req} {r : Region} {lo n : Nat} (hr : s.rgn.pageRange q = some r) (hkind : r.kind = 0)
    (hspan : pageSpan r.id (q.f 4 4) (q.f 8 4) = (lo, n)) (hheld : s.coh.hostHeld lo n = [])
    (hbinv : ∀ b ∈ s.coh.binv, inRange lo n b.line = false) :
    biasDeviceBody q s = ({ (s.settled lo n) with rgn := s.rgn.put (r.biased (q.f 4 4) (q.f 8 4) false) }, rcode cOK) := by
  have hdone : ((s.recalled lo n).coh.hostHeld lo n).isEmpty
      && !((s.recalled lo n).coh.binv.any fun b => inRange lo n b.line) := by
    rw [State.recalled_hostHeld, State.recalled_none hheld, State.settled_binv, hheld]
    simpa using hbinv
  unfold biasDeviceBody
  simp only [hr, hspan]
  rw [if_neg (by simp [hkind]), if_neg (by simp [hkind]), ← Rgn.setBias_eq (Rgn.pageRange_some hr), ← State.recalled_none hheld]
  exact if_pos hdone

/-- The command as it waits: its pages flip (R259). -/
def State.flips (s : State) (q : Req) (r : Region) : State :=
  { s with
    rgn := s.rgn.put { r with flipping := r.flipping ++ rangePages q }
    mbx := { s.mbx with prog := some ⟨q.slot, q.tag, .biasDevice r.id (q.f 4 4) (q.f 8 4), false⟩ } }

/-- Otherwise the pages flip, and the command waits. -/
theorem biasDeviceBody_waits {s : State} {q : Req} {r : Region} {lo n : Nat} (hr : s.rgn.pageRange q = some r) (hkind : r.kind = 0)
    (hspan : pageSpan r.id (q.f 4 4) (q.f 8 4) = (lo, n))
    (h : s.coh.hostHeld lo n ≠ [] ∨ ∃ b ∈ s.coh.binv, inRange lo n b.line = true) :
    biasDeviceBody q s = ((s.recalled lo n).flips q r, none) := by
  have hwait : ¬ (((s.recalled lo n).coh.hostHeld lo n).isEmpty
      && !((s.recalled lo n).coh.binv.any fun b => inRange lo n b.line)) = true := by
    rw [State.recalled_hostHeld, Bool.and_eq_true, List.isEmpty_iff]
    rintro ⟨hnone, hno⟩
    obtain hheld | ⟨b, hb, hin⟩ := h
    · exact hheld hnone
    · rw [State.recalled_none hnone] at hno
      have hany : (s.coh.binv.any fun b => inRange lo n b.line) = true := List.any_eq_true.2 ⟨b, hb, hin⟩
      rw [State.settled_binv, hany] at hno
      cases hno
  unfold biasDeviceBody
  simp only [hr, hspan]
  rw [if_neg (by simp [hkind]), if_neg (by simp [hkind])]
  exact if_neg hwait

/-! ### The directory entry of a line -/

theorem Coh.dirOf_line (c : Coh) (line : Nat) : (c.dirOf line).line = line := by
  unfold Coh.dirOf
  cases h : c.dir.find? (·.line == line) with
  | none => rfl
  | some e => simpa using List.find?_some h

theorem Coh.dirOf_setDir (c : Coh) {e : DirEntry} {line : Nat} (hline : e.line = line) :
    (c.setDir e).dirOf line
      = if e.owner.isNone && e.sharers.isEmpty && !e.host then ⟨line, none, [], false, false⟩ else e := by
  subst hline
  have hrest : (c.dir.filter (·.line != e.line)).find? (·.line == e.line) = none :=
    List.find?_eq_none.2 fun x hx => by simpa using (List.mem_filter.1 hx).2
  unfold Coh.setDir Coh.dirOf
  split
  · simp [hrest]
  · simp [List.find?_append, hrest]

/-- An entry set for a line that the host holds is the line's entry. -/
theorem Coh.dirOf_setDir_held (c : Coh) {e : DirEntry} {line : Nat} (hline : e.line = line) (h : e.host = true) :
    (c.setDir e).dirOf line = e := by
  rw [Coh.dirOf_setDir c hline, if_neg (by simp [h])]

theorem Coh.dirOf_setDir_host (c : Coh) {e : DirEntry} {line : Nat} (hline : e.line = line) :
    ((c.setDir e).dirOf line).host = e.host := by
  rw [Coh.dirOf_setDir c hline]
  split
  · rename_i h
    simp only [Bool.and_eq_true, Bool.not_eq_true'] at h
    exact h.2.symm
  · rfl

/-! ### The answer to a back-invalidation -/

/-- Nothing goes on by itself where no command is in progress. -/
theorem State.settleBias_idle {s : State} (h : s.mbx.prog = none) : s.settleBias = s := by
  unfold State.settleBias
  rw [h]

theorem State.retryWindows_idle {s : State} (h : s.hst.held = []) : s.retryWindows = s := by
  have hsame : ({ s with hst := { s.hst with held := [] } } : State) = s := by rw [← h]
  rw [State.retryWindows, hsame, h]
  rfl

/-- Where nothing waits nothing is tried again. -/
theorem State.retryHeld_idle {s : State} (htxns : s.coh.txns = []) (hheld : s.hst.held = []) : s.retryHeld = s := by
  unfold State.retryHeld
  rw [htxns]
  exact State.retryWindows_idle hheld

/-- The host's data where no agent has written since, and what memory held elsewhere (R256). -/
def BackInv.merge (b : BackInv) (old x : Bytes) : Bytes :=
  (List.range 64).map fun i => if b.mask.getLsbD i then old.getD i 0#8 else x.getD i 0#8

theorem BackInv.merge_getD (b : BackInv) (old x : Bytes) {i : Nat} (h : i < 64) :
    (b.merge old x).getD i 0#8 = if b.mask.getLsbD i then old.getD i 0#8 else x.getD i 0#8 := by
  rw [List.getD_eq_getElem _ _ (by simpa [BackInv.merge] using h)]
  simp only [BackInv.merge, List.getElem_map, List.getElem_range]

/-- Memory once the host has answered. -/
def Mem.answered (m : Mem) (b : BackInv) (d : Option Bytes) : Mem :=
  d.elim m fun x => m.putLine b.line (b.merge (m.read (b.line * 64) 64) x)

@[simp] theorem Mem.read_length (m : Mem) (k n : Nat) : (m.read k n).length = n := by
  simp [Mem.read_eq, upFrom]

theorem Mem.read_getD (m : Mem) (k : Nat) {n i : Nat} (h : i < n) : (m.read k n).getD i 0#8 = m.byte (k + i) := by
  rw [Mem.read_eq, List.getD_eq_getElem _ _ (by simpa [upFrom] using h)]
  simp [upFrom]

theorem Mem.answered_byte {m : Mem} (h : m.cells.wf = true) (b : BackInv) (x : Bytes) (a : Nat) :
    (m.answered b (some x)).byte a
      = if a / 64 = b.line ∧ b.mask.getLsbD (a % 64) = false then x.getD (a % 64) 0#8 else m.byte a := by
  have hlt : a % 64 < 64 := Nat.mod_lt _ (by decide)
  have hput := Mem.putLine_byte h (c := ⟨0, b.line, true, b.merge (m.read (b.line * 64) 64) x⟩) (by simp [BackInv.merge]) a
  refine Eq.trans hput ?_
  rw [lineOver]
  by_cases hl : a / 64 = b.line
  · have hkey : b.line * 64 + a % 64 = a := by omega
    rw [if_pos hl.symm, BackInv.merge_getD _ _ _ hlt, Mem.read_getD _ _ hlt, hkey]
    cases b.mask.getLsbD (a % 64) <;> simp [hl]
  · rw [if_neg (fun he => hl he.symm), if_neg (fun he => hl he.1)]

/-- The directories once the host has answered: it has given the line up, or keeps an unmodified copy (R256, R270). -/
def Coh.answered (c : Coh) (b : BackInv) : Coh :=
  let e := c.dirOf b.line
  let c := if e.host then c.setDir (if b.keep then { e with clean := true } else { e with host := false }) else c
  { c with binv := c.binv.erase b }

theorem Coh.answered_binv (c : Coh) (b : BackInv) : (c.answered b).binv = c.binv.erase b := by
  unfold Coh.answered
  dsimp only
  split <;> rfl

theorem Coh.answered_txns (c : Coh) (b : BackInv) : (c.answered b).txns = c.txns := by
  unfold Coh.answered
  dsimp only
  split <;> rfl

theorem Coh.answered_host {c : Coh} {b : BackInv} (h : (c.dirOf b.line).host = true) :
    (b.keep = true → ((c.answered b).dirOf b.line).clean = true ∧ ((c.answered b).dirOf b.line).host = true)
      ∧ (b.keep = false → ((c.answered b).dirOf b.line).host = false) := by
  have hline := c.dirOf_line b.line
  unfold Coh.answered
  dsimp only
  rw [if_pos h]
  refine ⟨fun hk => ?_, fun hk => ?_⟩
  · have hset := c.dirOf_setDir_held (e := { c.dirOf b.line with clean := true }) hline h
    rw [if_pos hk]
    exact ⟨congrArg DirEntry.clean hset, (congrArg DirEntry.host hset).trans h⟩
  · rw [if_neg (ne_true_of_eq_false hk)]
    exact c.dirOf_setDir_host (e := { c.dirOf b.line with host := false }) hline

/-- The host has answered a back-invalidation. -/
def State.backAnswered (s : State) (b : BackInv) (d : Option Bytes) : State :=
  { s with mem := s.mem.answered b d, coh := s.coh.answered b }

/-- With nothing else waiting, the answer is one update of memory and of the directories. -/
theorem execBackInvalidateAnswer_eq {s : State} {hpa : Nat} {b : BackInv} {d : Option Bytes}
    (hb : s.coh.binv.find? (fun b => s.rgn.hpaOfLine b.line == hpa / 64 * 64) = some b) (hprog : s.mbx.prog = none)
    (htxns : s.coh.txns = []) (hheld : s.hst.held = []) :
    exec (.backInvalidateAnswer hpa d) s = .next (s.backAnswered b d) := by
  have hidle : (s.backAnswered b d).settleBias.retryHeld = s.backAnswered b d := by
    rw [State.settleBias_idle (s := s.backAnswered b d) hprog]
    exact State.retryHeld_idle ((s.coh.answered_txns b).trans htxns) hheld
  show execBackInvalidateAnswer hpa d s = _
  unfold execBackInvalidateAnswer
  simp only [hb]
  refine congrArg Host.Outcome.next (Eq.trans ?_ hidle)
  cases d <;> rfl

/-! ### The statement -/

/-- A BIAS_SET that is done at once replies, with its region in place of the old one. -/
theorem biasSet_done {s t : State} {k : SlotId} {r r' : Region} {mine : Req → Bool} {body : Req → State → State × Resp}
    {lo n : Nat} (hInv : s.Inv) (hserved : IsServed s k 0x0203) (hmine : mine (s.asks k) = true) (hr : s.rgn.get r.id = some r)
    (hbody : body (s.asks k) (s.taken k) = ({ ((s.taken k).settled lo n) with rgn := (s.taken k).rgn.put r' }, rcode cOK))
    (hid : r'.id = r.id) (ht : s.take k mine body = t) :
    Replied s t k cOK [] ∧ t.mem.wc = [] ∧ SameBytes (fun _ => False) s t ∧ t.rgn.get r.id = some r'
      ∧ (∀ i, i ≠ r.id → t.rgn.get i = s.rgn.get i) ∧ Keeps [.mbx, .aon, .mem, .coh, .rgn] s t := by
  rw [hserved.take_row hmine] at ht
  subst ht
  have htaken := (s.taken_keeps k).rewrites (W := fun _ => False) (by decide) hInv.sound
  have hsettled := htaken.trans (State.settled_rewrites htaken.sound lo n)
  obtain ⟨hreplied, hkeeps⟩ := hserved.take_replied hInv.mbx hbody (by decide) rfl
  generalize s.take k (·.opcode == 0x0203) body = t at hreplied hkeeps
  have hrgn : t.rgn = s.rgn.put r' := hkeeps .rgn (by decide)
  have hmem : t.mem = ((s.taken k).settled lo n).mem := hkeeps .mem (by decide)
  have hdata : SameData ((s.taken k).settled lo n) t := ((State.rgnOnly_keeps _ _).sameData (by decide)).trans
    (hkeeps.sameData (by decide))
  obtain ⟨hhere, hothers⟩ := Rgn.get_put hr hid
  refine ⟨hreplied, by rw [hmem]; rfl, fun a ha => (hdata.byte hsettled.sound a).trans (hsettled.bytes a ha), by rw [hrgn, hhere],
    fun i hi => by rw [hrgn, hothers i hi], ?_⟩
  exact ((s.taken_keeps k).mono (by decide)).trans ((((s.taken k).settled_keeps lo n).mono (by decide)).trans
    (((State.rgnOnly_keeps _ _).mono (by decide)).trans (hkeeps.mono (by decide))))

/-- BIAS_SET to device of pages that the host holds a line of waits with the pages flipping. -/
theorem biasSetDevice_waits {s : State} {k : SlotId} {r : Region} (hInv : s.Inv) (hserved : IsServed s k 0x0203)
    (hr : s.rgn.pageRange (s.asks k) = some r) (hbias : bits ((s.asks k).f 1 1) 1 0 = 0) {lo n : Nat}
    (hbody : biasDeviceBody (s.asks k) (s.taken k) = (((s.taken k).recalled lo n).flips (s.asks k) r, none)) :
    ∃ t r', exec (.biasSetDevice k) s = .next t ∧ t.mem.wc = [] ∧ SameBytes (fun _ => False) s t
      ∧ t.mbx.prog = some ⟨k.val, (s.asks k).tag, .biasDevice r.id ((s.asks k).f 4 4) ((s.asks k).f 8 4), false⟩
      ∧ t.rgn.get r.id = some r' ∧ (∀ p ∈ rangePages (s.asks k), p ∈ r'.flipping) ∧ r'.shared = r.shared
      ∧ (∀ e ∈ s.coh.hostHeld lo n, ∃ b ∈ t.coh.binv, b.line = e.line)
      ∧ (∀ i, i ≠ r.id → t.rgn.get i = s.rgn.get i) ∧ Keeps [.mbx, .aon, .mem, .coh, .rgn, .out] s t := by
  obtain ⟨hhere, hothers⟩ := Rgn.get_put (r' := { r with flipping := r.flipping ++ rangePages (s.asks k) })
    (Rgn.pageRange_some hr) rfl
  have htaken : (s.taken k).Sound := ((s.taken_keeps k).sameData (by decide)).sound hInv.sound
  have hbytes := ((s.taken_keeps k).rewrites (W := fun _ => False) (by decide) hInv.sound).trans
    (State.recalled_rewrites htaken lo n)
  refine ⟨_, _, congrArg Host.Outcome.next ((hserved.take_row (by simp [hserved.opcode, hbias])).trans (hserved.take_waits hbody)),
    rfl, fun a ha => ?_, rfl, hhere, fun p hp => List.mem_append_right _ hp, rfl, fun e he => ?_, hothers, ?_⟩
  · have hdata : SameData ((s.taken k).recalled lo n) (((s.taken k).recalled lo n).flips (s.asks k) r) := ⟨rfl, rfl, rfl, rfl⟩
    exact (hdata.byte hbytes.sound a).trans (hbytes.bytes a ha)
  · exact State.recalled_binv (s := s.taken k) he
  · exact ((s.taken_keeps k).mono (by decide)).trans ((((s.taken k).recalled_keeps lo n).mono (by decide)).trans
      (.of_patch rfl))

/-- Settles O27: BIAS_SET changes the bias of its range's pages alone, and the host's answer its one line. -/
theorem biasChanges : Obligations.BiasChanges := by
  unfold Obligations.BiasChanges
  refine ⟨?_, ?_, ?_⟩
  · rintro s k q r rfl hInv hserved hr hkind hbias
    obtain ⟨hreplied, hwc, hbytes, hhere, hothers, hkeeps⟩ := biasSet_done hInv hserved
      (mine := fun q => q.opcode == 0x0203 && bits (q.f 1 1) 1 0 != 0) (by simp [hserved.opcode, hbias]) (Rgn.pageRange_some hr)
      (biasSharedBody_eq (s := s.taken k) hr hkind rfl hbias) rfl rfl
    exact ⟨_, _, rfl, hreplied, hwc, hbytes, hhere, fun p => r.biased_shared _ _ p, fun p hp => r.biased_flipping hp, hothers, hkeeps⟩
  · rintro s k q r rfl hInv hserved hr hkind hbias
    refine ⟨fun hheld hbinv => ?_, fun hwait => ?_⟩
    · obtain ⟨hreplied, hwc, hbytes, hhere, hothers, hkeeps⟩ := biasSet_done hInv hserved
        (mine := fun q => q.opcode == 0x0203 && bits (q.f 1 1) 1 0 == 0) (by simp [hserved.opcode, hbias]) (Rgn.pageRange_some hr)
        (biasDeviceBody_done (s := s.taken k) hr hkind rfl hheld hbinv) rfl rfl
      exact ⟨_, _, rfl, hreplied, hwc, hbytes, hhere, fun p => r.biased_device _ _ p, hothers, hkeeps⟩
    · exact biasSetDevice_waits hInv hserved hr hbias (biasDeviceBody_waits (s := s.taken k) hr hkind rfl hwait)
  · intro s hpa b d hInv hb hprog htxns hheld
    refine ⟨_, execBackInvalidateAnswer_eq hb hprog htxns hheld, Coh.answered_binv _ _, .of_patch rfl, ?_, ?_, Coh.answered_host⟩
    · rintro rfl
      rfl
    · rintro x rfl a
      exact Mem.answered_byte hInv.mem b x a

end Sys2Proof.Machine
end

section
/-! SUPPORT. DMA: a transfer whose accesses nothing obstructs, its chunks, and its end with the CRC and the flag (R242, R272, R475 to
R479). -/

namespace Sys2Proof.Machine

/-! ### Channels -/

theorem State.setChan_same (s : State) (n : Nat) (c : Chan) : (s.setChan n c).dma.ch n = c := by
  simp [State.setChan, Dma.ch, AL.getD]

theorem State.setChan_ne (s : State) {n m : Nat} (h : m ≠ n) (c : Chan) : (s.setChan n c).dma.ch m = s.dma.ch m := by
  simp [State.setChan, Dma.ch, AL.getD, AL.get_set_ne _ h]

theorem State.setChan_keeps (s : State) (n : Nat) (c : Chan) : Keeps [.dma] s (s.setChan n c) := .of_patch rfl

/-! ### Accesses that nothing obstructs -/

/-- Accesses that can proceed meet no obstacle. -/
theorem State.firstObstacle_none {s : State} (cache : Nat) : ∀ {as : List (Nat × Nat × Bool)},
    (∀ a ∈ as, Accessible s a.1 a.2.1 a.2.2) → s.firstObstacle cache as = none := by
  intro as
  induction as with
  | nil => exact fun _ => rfl
  | cons a as ih =>
    intro h
    obtain ⟨-, hok, -⟩ := h a List.mem_cons_self
    unfold State.firstObstacle
    rw [(Looked.refl s).noHarder.accessIn cache hok]
    exact ih fun x hx => h x (List.mem_cons_of_mem _ hx)

theorem State.lookRange_looked (s : State) (cache va len : Nat) : Looked s (s.lookRange cache va len) :=
  foldl_keeps (P := Looked s) (fun u x h => h.trans (u.look_looked cache x.1)) _ s (.refl s)

theorem State.dmaLook_looked (s : State) (n : Nat) (d : DmaSet) : Looked s (s.dmaLook n d) :=
  foldl_keeps (P := Looked s) (fun u a h => h.trans (u.lookRange_looked _ a.1 a.2.1)) _ s (.refl s)

theorem Looked.keeps {s t : State} (h : Looked s t) : Keeps [.rgn] s t := by
  obtain ⟨tc, rfl⟩ := h
  exact .of_patch rfl

theorem Looked.rewrites {W : Nat → Prop} {s t : State} (h : Looked s t) (hs : s.Sound) : Rewrites W s t := by
  obtain ⟨tc, rfl⟩ := h
  exact SameData.rewrites ⟨rfl, rfl, rfl, rfl⟩ hs (.of_eq rfl rfl)

/-- A write to an accessible range, after what leaves every translation alone, reaches what a store to the range writes. -/
theorem Accessible.writeVa_rewrites {V : Nat → Prop} {s u : State} {va n : Nat} {d : Bytes} (hacc : Accessible s va n true)
    (hn : d.length = n) (h : Rewrites V s u) : Rewrites (fun a => V a ∨ s.storesTo va n a) s (u.writeVa va d) := by
  subst hn
  exact (h.mono fun _ => .inl).trans (State.writeVa_rewrites h.sound va d fun _ hkey =>
    .inr (hacc.storesTo (Nat.le_refl _) (Nat.le_refl _) (h.alike.reaches hkey)))

/-- What is then written to an accessible range within one page is read back. -/
theorem Accessible.writeVa_peek {V : Nat → Prop} {s u : State} {va n : Nat} {d : Bytes} (hacc : Accessible s va n true)
    (hn : d.length = n) (h : Rewrites V s u) (hpage : va % pageBytes + n ≤ pageBytes) : (u.writeVa va d).vaBytes va n = d := by
  subst hn
  rcases Nat.eq_zero_or_pos d.length with hd | hd
  · obtain rfl := List.eq_nil_of_length_eq_zero hd
    simp [State.vaBytes]
  · obtain ⟨r, off, -, hxlate⟩ := hacc.1 (va, d.length) (by simp [chunksOf_one hd hpage])
    obtain ⟨r', hspot, -⟩ := h.alike.symm.place_ok (Rgn.place_fewer (q := []) (fun _ _ => rfl) (fun h => h) hxlate)
    exact (State.writeVa_peek h.sound hpage hspot).2

/-- A range that begins and ends in one page lies within it. -/
theorem within_page {va n : Nat} (hpos : 0 < n) (h : va / pageBytes = (va + n - 1) / pageBytes) :
    va % pageBytes + n ≤ pageBytes := by
  unfold pageBytes at *
  omega

theorem State.peekVa_eq {s : State} (h : s.Sound) (va n : Nat) : s.peekVa va n = s.vaBytes va n := (State.readVa_spec h va n).1

/-! ### A chunk -/

/-- A channel's chunk has moved. -/
def State.chunkMoved (s : State) (n : Nat) (d : DmaSet) : State :=
  ((s.dmaLook n d).readVa (d.src + d.done) d.chunk).2.writeVa (d.dst + d.done)
    ((s.dmaLook n d).readVa (d.src + d.done) d.chunk).1

theorem State.chunkMoved_keeps (s : State) (n : Nat) (d : DmaSet) : Keeps [.mem, .coh, .rgn, .out] s (s.chunkMoved n d) :=
  ((s.dmaLook_looked n d).keeps.mono (by decide)).trans (((State.readVa_keeps _ _ _).mono (by decide)).trans
    ((State.writeVa_keeps _ _ _).mono (by decide)))

/-- The bytes that a chunk carries are those of its source. -/
theorem State.dmaLook_read {s : State} (h : s.Sound) (n : Nat) (d : DmaSet) (va len : Nat) :
    ((s.dmaLook n d).readVa va len).1 = s.peekVa va len
      ∧ Rewrites (fun _ => False) s ((s.dmaLook n d).readVa va len).2 := by
  have hlook : Rewrites (fun _ => False) s (s.dmaLook n d) := (s.dmaLook_looked n d).rewrites h
  obtain ⟨hbytes, hread⟩ := State.readVa_spec hlook.sound va len
  exact ⟨by rw [hbytes, State.vaBytes_congr hlook, State.peekVa_eq h], hlook.trans hread⟩

theorem State.chunkMoved_spec {s : State} (h : s.Sound) (n : Nat) (d : DmaSet)
    (hdst : Accessible s (d.dst + d.done) d.chunk true) :
    Rewrites (s.storesTo (d.dst + d.done) d.chunk) s (s.chunkMoved n d)
      ∧ ((d.dst + d.done) % pageBytes + d.chunk ≤ pageBytes →
        (s.chunkMoved n d).vaBytes (d.dst + d.done) d.chunk = s.peekVa (d.src + d.done) d.chunk) := by
  obtain ⟨hbytes, hread⟩ := State.dmaLook_read h n d (d.src + d.done) d.chunk
  have hlen : ((s.dmaLook n d).readVa (d.src + d.done) d.chunk).1.length = d.chunk := by
    rw [hbytes, State.peekVa_eq h, State.vaBytes_length]
  exact ⟨(hdst.writeVa_rewrites hlen hread).mono fun a ha => ha.resolve_left id,
    fun hpage => (hdst.writeVa_peek hlen hread hpage).trans hbytes⟩

/-- The channel once its chunk has moved. -/
def State.chunkChan (s : State) (n : Nat) (c : Chan) : Chan :=
  let d := c.active
  let u := s.dmaLook n d
  { c with
    state := 1
    usedHost := c.usedHost || (u.rgn.touchesHost (d.src + d.done) d.chunk || u.rgn.touchesHost (d.dst + d.done) d.chunk)
    crcNow := if d.crcMode = 0 then c.crcNow else crc32cUpd c.crcNow (u.readVa (d.src + d.done) d.chunk).1
    active := { d with done := d.done + d.chunk } }

/-- A chunk that nothing obstructs moves. -/
theorem execDmaChunk_eq {s : State} {ch : Fin 128} {c : Chan} {d : DmaSet} (hc : s.dma.ch ch = c) (hd : c.active = d)
    (hpow : s.powered = true) (hbusy : c.busy = true) (hlt : d.done < d.len) (hstop : s.dmaStopped ch d = false)
    (hsrc : Accessible s (d.src + d.done) d.chunk false) (hdst : Accessible s (d.dst + d.done) d.chunk true) :
    exec (.dmaChunk ch) s = .next (((s.chunkMoved ch d).count 0x700 (dmaUnit ch 1) ((d.chunk + 63) / 64)).setChan ch
      (s.chunkChan ch c)) := by
  have hfree : s.firstObstacle (agentCache (ch / 64)) d.nextAccesses = none :=
    State.firstObstacle_none _ fun a ha => by
      rw [DmaSet.nextAccesses, if_pos hlt] at ha
      obtain rfl | ha := List.mem_cons.1 ha
      · exact hsrc
      · obtain rfl := List.mem_singleton.1 ha
        exact hdst
  subst hc hd
  show execDmaChunk ch s = _
  unfold execDmaChunk
  dsimp only
  rw [if_neg (by simp [hpow, hbusy, hstop]; omega), hfree]
  rfl

/-! ### The end -/

/-- The CRC is written behind the destination where one is asked for (R478). -/
def State.writeCrc (s : State) (d : DmaSet) (crc : Nat) : State :=
  if d.crcMode = 0 then s else s.writeVa (d.dst + d.len) (leBytes 4 crc)

/-- The flag is written after a fence where one is asked for (R272, R479). -/
def State.writeFlag (s : State) (d : DmaSet) : State :=
  if d.flagEn then (s.fence.writeVa d.flagVa (leBytes 8 d.flagVal)).emit (.flag d.flagVa) else s

theorem State.emit_keeps (s : State) (o : Output) : Keeps [.out] s (s.emit o) := .of_patch rfl

theorem State.writeCrc_keeps (s : State) (d : DmaSet) (crc : Nat) : Keeps [.mem, .coh, .out, .rgn] s (s.writeCrc d crc) := by
  unfold State.writeCrc
  split
  · exact .refl _ s
  · exact s.writeVa_keeps _ _

theorem State.writeFlag_keeps (s : State) (d : DmaSet) : Keeps [.mem, .coh, .out, .rgn] s (s.writeFlag d) := by
  unfold State.writeFlag
  split
  · exact (s.fence_keeps.mono (by decide)).trans ((State.writeVa_keeps _ _ _).trans ((State.emit_keeps _ _).mono (by decide)))
  · exact .refl _ s

theorem State.writeCrc_rewrites {s u : State} {d : DmaSet} (crc : Nat)
    (hacc : d.crcMode ≠ 0 → Accessible s (d.dst + d.len) 4 true) (h : Rewrites (fun _ => False) s u) :
    Rewrites (fun a => d.crcMode ≠ 0 ∧ s.storesTo (d.dst + d.len) 4 a) s (u.writeCrc d crc) := by
  unfold State.writeCrc
  split
  · exact h.mono fun _ ha => ha.elim
  · rename_i hmode
    exact ((hacc hmode).writeVa_rewrites (leBytes_length 4 crc) h).mono fun a ha => ⟨hmode, ha.resolve_left id⟩

theorem State.writeFlag_spec {V : Nat → Prop} {s u : State} {d : DmaSet} (halign : d.flagVa % 8 = 0)
    (hacc : d.flagEn = true → Accessible s d.flagVa 8 true) (h : Rewrites V s u) :
    Rewrites (fun a => V a ∨ (d.flagEn = true ∧ s.storesTo d.flagVa 8 a)) s (u.writeFlag d)
      ∧ (d.flagEn = true → (u.writeFlag d).out.getLast? = some (.flag d.flagVa)
        ∧ (u.writeFlag d).vaBytes d.flagVa 8 = leBytes 8 d.flagVal) := by
  unfold State.writeFlag
  split
  · rename_i hen
    have hfence : Rewrites V s u.fence := h.trans ((State.fence_rewrites h.sound).mono fun _ ha => ha.elim)
    have hwrite := (hacc hen).writeVa_rewrites (leBytes_length 8 d.flagVal) hfence
    have hread := (hacc hen).writeVa_peek (leBytes_length 8 d.flagVal) hfence (by unfold pageBytes; omega)
    have hemit := (State.emit_keeps (u.fence.writeVa d.flagVa (leBytes 8 d.flagVal)) (.flag d.flagVa)).rewrites
      (W := fun _ => False) (by decide) hwrite.sound
    exact ⟨(hwrite.trans (hemit.mono fun _ ha => ha.elim)).mono fun a ha => ha.imp_right fun hf => ⟨hen, hf⟩,
      fun _ => ⟨List.getLast?_concat, (State.vaBytes_congr hemit _ _).trans hread⟩⟩
  · rename_i hen
    exact ⟨h.mono fun _ => .inl, fun hf => absurd hf hen⟩

theorem Chan.promote_idle {c : Chan} (h : c.shadow.valid = false) : c.promote = c := by
  unfold Chan.promote
  rw [if_pos (by simp [h])]

/-- The channel once its transfer has ended OK (R478, R480). -/
def Chan.ended (c : Chan) : Chan :=
  let d := c.active
  { c with
    okCount := c.okCount + 1
    state := 0
    runCrc := if d.crcMode = 0 then c.runCrc else c.crcNow
    active := { d with ended := true, code := cOK, crc := if d.crcMode = 0 then 0 else c.crcNow ^^^ 0xFFFFFFFF } }

/-- A transfer's end that nothing obstructs. -/
theorem execDmaTransferEnd_eq {s : State} {ch : Fin 128} {c : Chan} {d : DmaSet} (hc : s.dma.ch ch = c) (hd : c.active = d)
    (hpow : s.powered = true) (hbusy : c.busy = true) (hdone : d.done = d.len) (hstop : s.dmaStopped ch d = false)
    (hshadow : c.shadow.valid = false) (hcrc : d.crcMode ≠ 0 → Accessible s (d.dst + d.len) 4 true)
    (hflag : d.flagEn = true → Accessible s d.flagVa 8 true) :
    exec (.dmaTransferEnd ch) s
      = .next ((((s.dmaLook ch d).writeCrc d (c.crcNow ^^^ 0xFFFFFFFF)).writeFlag d).setChan ch c.ended) := by
  have hfree : s.firstObstacle (agentCache (ch / 64)) d.nextAccesses = none :=
    State.firstObstacle_none _ fun a ha => by
      rw [DmaSet.nextAccesses, if_neg (by omega)] at ha
      obtain ha | ha := List.mem_append.1 ha
      · split at ha
        · cases ha
        · rename_i hmode
          obtain rfl := List.mem_singleton.1 ha
          exact hcrc hmode
      · split at ha
        · rename_i hen
          obtain rfl := List.mem_singleton.1 ha
          exact hflag hen
        · cases ha
  subst hc hd
  show execDmaTransferEnd ch s = _
  unfold execDmaTransferEnd
  dsimp only
  rw [if_neg (by simp [hpow, hbusy, hstop]; omega), hfree, ← Chan.promote_idle (c := (s.dma.ch ch).ended) hshadow]
  rfl

/-! ### The statement -/

/-- A chunk that nothing obstructs. -/
theorem dmaChunk_spec {s : State} {ch : Fin 128} {c : Chan} {d : DmaSet} (hs : s.Sound)
    (hexec : exec (.dmaChunk ch) s = .next (((s.chunkMoved ch d).count 0x700 (dmaUnit ch 1) ((d.chunk + 63) / 64)).setChan ch
      (s.chunkChan ch c))) (hd : c.active = d) (hpos : 0 < d.chunk) (hdst : Accessible s (d.dst + d.done) d.chunk true) :
    ∃ t, exec (.dmaChunk ch) s = .next t
      ∧ (t.dma.ch ch).active = { d with done := d.done + d.chunk } ∧ (t.dma.ch ch).state = 1
      ∧ (t.dma.ch ch).okCount = c.okCount ∧ (t.dma.ch ch).runCrc = c.runCrc
      ∧ (t.dma.ch ch).crcNow = (if d.crcMode = 0 then c.crcNow else crc32cUpd c.crcNow (s.peekVa (d.src + d.done) d.chunk))
      ∧ (∀ m, m ≠ ch.val → t.dma.ch m = s.dma.ch m)
      ∧ SameBytes (s.storesTo (d.dst + d.done) d.chunk) s t
      ∧ ((d.dst + d.done) / pageBytes = (d.dst + d.done + d.chunk - 1) / pageBytes →
          t.peekVa (d.dst + d.done) d.chunk = s.peekVa (d.src + d.done) d.chunk)
      ∧ Keeps [.mem, .coh, .rgn, .out, .dma, .obs] s t := by
  obtain ⟨hmoved, hread⟩ := State.chunkMoved_spec hs ch d hdst
  have hkeeps := s.chunkMoved_keeps ch d
  generalize s.chunkMoved ch d = u at hexec hmoved hread hkeeps
  have hcount : Keeps [.obs] u (u.count 0x700 (dmaUnit ch 1) ((d.chunk + 63) / 64)) := .of_patch rfl
  generalize u.count 0x700 (dmaUnit ch 1) ((d.chunk + 63) / 64) = v at hexec hcount
  have hset := v.setChan_keeps ch (s.chunkChan ch c)
  have hrest : Keeps [.dma, .obs] u (v.setChan ch (s.chunkChan ch c)) := (hcount.mono (by decide)).trans (hset.mono (by decide))
  have hdata := hrest.rewrites (W := fun _ => False) (by decide) hmoved.sound
  have hdma : v.dma = s.dma := (hcount .dma (by decide)).trans (hkeeps .dma (by decide))
  have hcrc := (State.dmaLook_read hs ch d (d.src + d.done) d.chunk).1
  refine ⟨_, hexec, ?_, ?_, ?_, ?_, ?_, fun m hm => ?_, fun a ha => ?_, fun hpage => ?_, ?_⟩
  · rw [State.setChan_same, ← hd]
    rfl
  · rw [State.setChan_same]
    rfl
  · rw [State.setChan_same]
    rfl
  · rw [State.setChan_same]
    rfl
  · rw [State.setChan_same, ← hcrc, ← hd]
    rfl
  · rw [State.setChan_ne _ hm, hdma]
  · exact (hdata.bytes a not_false).trans (hmoved.bytes a ha)
  · rw [State.peekVa_eq hdata.sound, State.vaBytes_congr hdata]
    exact hread (within_page hpos hpage)
  · exact (hkeeps.mono (by decide)).trans (hrest.mono (by decide))

/-- A transfer's end that nothing obstructs. -/
theorem dmaTransferEnd_spec {s : State} {ch : Fin 128} {c : Chan} {d : DmaSet} {crc : Nat} (hs : s.Sound)
    (hexec : exec (.dmaTransferEnd ch) s = .next ((((s.dmaLook ch d).writeCrc d crc).writeFlag d).setChan ch c.ended))
    (halign : d.flagVa % 8 = 0) (hcrc : d.crcMode ≠ 0 → Accessible s (d.dst + d.len) 4 true)
    (hflag : d.flagEn = true → Accessible s d.flagVa 8 true) :
    ∃ t, exec (.dmaTransferEnd ch) s = .next t ∧ t.dma.ch ch = c.ended ∧ (∀ m, m ≠ ch.val → t.dma.ch m = s.dma.ch m)
      ∧ SameBytes (fun a => (d.crcMode ≠ 0 ∧ s.storesTo (d.dst + d.len) 4 a) ∨ (d.flagEn = true ∧ s.storesTo d.flagVa 8 a)) s t
      ∧ (d.flagEn = true → t.out.getLast? = some (.flag d.flagVa) ∧ t.peekVa d.flagVa 8 = leBytes 8 d.flagVal)
      ∧ (d.crcMode = 0 → d.flagEn = false → t.mem = s.mem) := by
  have hlook := s.dmaLook_looked ch d
  obtain ⟨hrewrites, hflagged⟩ := State.writeFlag_spec halign hflag (State.writeCrc_rewrites crc hcrc (hlook.rewrites hs))
  have hset := State.setChan_keeps (((s.dmaLook ch d).writeCrc d crc).writeFlag d) ch c.ended
  have hdata := hset.rewrites (W := fun _ => False) (by decide) hrewrites.sound
  have hdma : (((s.dmaLook ch d).writeCrc d crc).writeFlag d).dma = s.dma :=
    ((State.writeFlag_keeps _ d) .dma (by decide)).trans (((State.writeCrc_keeps _ d crc) .dma (by decide)).trans
      (hlook.keeps .dma (by decide)))
  refine ⟨_, hexec, State.setChan_same _ _ _, fun m hm => ?_, fun a ha => ?_, fun hen => ?_, fun hmode hen => ?_⟩
  · rw [State.setChan_ne _ hm, hdma]
  · exact (hdata.bytes a not_false).trans (hrewrites.bytes a ha)
  · obtain ⟨hlast, hpeek⟩ := hflagged hen
    exact ⟨hlast, by rw [State.peekVa_eq hdata.sound, State.vaBytes_congr hdata, hpeek]⟩
  · rw [State.writeCrc, if_pos hmode, State.writeFlag, if_neg (by simp [hen])]
    exact hlook.keeps .mem (by decide)

/-- Settles O30: a chunk is a read and a write whose accesses nothing obstructs, and the end at most two writes. -/
theorem dmaMoves : Obligations.DmaMoves := by
  unfold Obligations.DmaMoves
  refine ⟨?_, ?_⟩
  · rintro s ch c d hInv rfl rfl hpow hbusy hlt hstop hsrc hdst
    exact dmaChunk_spec hInv.sound (execDmaChunk_eq rfl rfl hpow hbusy hlt hstop hsrc hdst) rfl
      (by unfold DmaSet.chunk; omega) hdst
  · rintro s ch c d hInv rfl rfl hpow hbusy hdone hstop hshadow hcrc halign hflag
    obtain ⟨t, hexec, hch, hothers, hbytes, hflagged, hmem⟩ := dmaTransferEnd_spec hInv.sound
      (execDmaTransferEnd_eq rfl rfl hpow hbusy hdone hstop hshadow hcrc hflag) halign hcrc hflag
    exact ⟨t, hexec, hch ▸ rfl, hch ▸ rfl, hch ▸ rfl, hch ▸ rfl, hch ▸ rfl, hothers, hbytes, hflagged, hmem⟩

end Sys2Proof.Machine
end

section
/-! SUPPORT. A line at its home: what memory reads as once the cores' copies of the line have gone, or one of them holds it, and the
reads and stores that the home serves (R262, R264 to R266, R270). -/

namespace Sys2Proof.Machine

/-! ### The copies of a line -/

theorem inRange_line {line x : Nat} : inRange (line * 64) 64 x = true ↔ x = line := by
  simp only [inRange, Bool.and_eq_true, decide_eq_true_eq]
  omega

/-- Once a line's copies have been written back, those that stay are unmodified. -/
theorem State.cleanRange_line_clean {s : State} {line : Nat} {c : CoreLine}
    (hc : c ∈ (s.cleanRange (line * 64) 64).coh.cached ++ (s.cleanRange (line * 64) 64).coh.wbs) (hline : c.line = line) :
    c.dirty = false := by
  by_contra hdirty
  have hmem : c ∈ (s.cleanRange (line * 64) 64).dirty := List.mem_filter.2 ⟨hc, by simpa using hdirty⟩
  rw [State.cleanRange_dirty, List.mem_filter, inRange_line.2 hline] at hmem
  simp at hmem

theorem filter_dirty_filter {p : CoreLine → Bool} {l : List CoreLine} (h : ∀ c ∈ l, c.dirty = true → p c = true) :
    (l.filter p).filter (·.dirty) = l.filter (·.dirty) := by
  rw [List.filter_filter]
  refine List.filter_congr fun c hc => ?_
  cases hd : c.dirty with
  | false => rfl
  | true => simp [h c hc hd]

theorem State.dropCopies_keeps (s : State) (line : Nat) (but : Option Nat) : Keeps [.mem, .coh] s (s.dropCopies line but) :=
  .of_patch rfl

theorem State.dropCopies_cached {s : State} {line : Nat} {but : Option Nat} {c : CoreLine}
    (hc : c ∈ (s.dropCopies line but).coh.cached) : c ∈ (s.cleanRange (line * 64) 64).coh.cached ∧ c.line ≠ line := by
  have hmem : c ∈ (s.cleanRange (line * 64) 64).coh.cached.filter (·.line != line) := hc
  simpa using hmem

theorem State.dropCopies_dirty (s : State) (line : Nat) (but : Option Nat) :
    (s.dropCopies line but).dirty = (s.cleanRange (line * 64) 64).dirty := by
  simp only [State.dirty, List.filter_append]
  refine congrArg (· ++ _) (filter_dirty_filter fun c hc hd => ?_)
  rw [bne_iff_ne]
  intro hline
  rw [State.cleanRange_line_clean (List.mem_append_left _ hc) hline] at hd
  cases hd

theorem State.dropCopies_sound {s : State} (h : s.Sound) (line : Nat) (but : Option Nat) : (s.dropCopies line but).Sound where
  wf := State.cleanRange_wf h.wf _ _
  lines := by
    intro c hc
    refine (State.cleanRange_sound h (line * 64) 64).lines c ?_
    obtain hc | hc := List.mem_append.1 hc
    · exact List.mem_append_left _ (State.dropCopies_cached hc).1
    · exact List.mem_append_right _ hc

/-- The loss of a line's copies changes no byte: their data are in memory by then. -/
theorem State.dropCopies_rewrites {s : State} (h : s.Sound) (line : Nat) (but : Option Nat) :
    Rewrites (fun _ => False) s (s.dropCopies line but) :=
  ⟨State.dropCopies_sound h line but, .refl _, fun a _ =>
    (State.byte_congr (State.cleanRange_sound h _ _) (State.dropCopies_sound h line but) (s.dropCopies_dirty line but) rfl a).trans
      (State.cleanRange_byte h _ _ a)⟩

/-- Memory itself then holds the line. -/
theorem State.dropCopies_clean (s : State) {line a : Nat} (but : Option Nat) (ha : a / 64 = line) :
    (s.dropCopies line but).CleanAt a :=
  (State.cleanRange_clean (inRange_line.2 ha) s).mono fun _ hc => s.dropCopies_dirty line but ▸ hc

/-! ### Poison -/

theorem State.cleanRange_poison {s : State} {lo n : Nat} : ∀ l ∈ (s.cleanRange lo n).mem.poison, l ∈ s.mem.poison :=
  foldl_keeps (P := fun m : Mem => ∀ l ∈ m.poison, l ∈ s.mem.poison) (f := fun m (c : CoreLine) => m.putLine c.line c.data)
    (fun _ _ hm l hl => hm l (List.mem_filter.1 hl).1) _ _ fun _ hl => hl

theorem State.wakeRange_poison (s : State) (lo n : Nat) : (s.wakeRange lo n).mem.poison = s.mem.poison := by
  unfold State.wakeRange
  split <;> rfl

/-! ### A line more in a core -/

/-- A core has taken a line, and memory is as it was. -/
structure AddsLine (s t : State) (x : CoreLine) : Prop where
  mem : t.mem = s.mem
  cached : t.coh.cached = s.coh.cached ++ [x]
  wbs : t.coh.wbs = s.coh.wbs

theorem AddsLine.dirty {s t : State} {x : CoreLine} (h : AddsLine s t x) :
    t.dirty = s.coh.cached.filter (·.dirty) ++ ([x].filter (·.dirty) ++ s.coh.wbs.filter (·.dirty)) := by
  simp only [State.dirty, h.cached, h.wbs, List.filter_append, List.append_assoc]

theorem AddsLine.sound {s t : State} {x : CoreLine} (h : AddsLine s t x) (hs : s.Sound) (hx : x.data.length = 64) : t.Sound := by
  refine ⟨h.mem ▸ hs.wf, fun c hc => ?_⟩
  rw [h.cached, h.wbs, List.append_assoc] at hc
  obtain hc | hc := List.mem_append.1 hc
  · exact hs.lines c (List.mem_append_left _ hc)
  · obtain hc | hc := List.mem_append.1 hc
    · rwa [List.mem_singleton.1 hc]
    · exact hs.lines c (List.mem_append_right _ hc)

/-- An unmodified line changes no byte. -/
theorem AddsLine.byte_clean {s t : State} {x : CoreLine} (h : AddsLine s t x) (hs : s.Sound) (hx : x.data.length = 64)
    (hclean : x.dirty = false) (a : Nat) : t.byte a = s.byte a := by
  refine State.byte_congr hs (h.sound hs hx) ?_ (by rw [h.mem]) a
  rw [h.dirty]
  simp [hclean, State.dirty]

/-- A modified line that no other core has modified gives its own bytes. -/
theorem AddsLine.byte_dirty {s t : State} {x : CoreLine} (h : AddsLine s t x) (hs : s.Sound) (hx : x.data.length = 64)
    (hdirty : x.dirty = true) (hother : ∀ c ∈ s.dirty, c.line ≠ x.line) (a : Nat) :
    t.byte a = if x.line = a / 64 then x.data.getD (a % 64) 0#8 else s.byte a := by
  have hone : [x].filter (·.dirty) = [x] := by simp [hdirty]
  rw [State.byte_eq (h.sound hs hx), h.dirty, h.mem, hone, List.foldl_append, List.foldl_append, List.foldl_cons, List.foldl_nil]
  by_cases ha : x.line = a / 64
  · have hwbs : ∀ c ∈ s.coh.wbs.filter (·.dirty), c.line ≠ a / 64 := fun c hc =>
      ha ▸ hother c (List.mem_filter.2 ⟨List.mem_append_right _ (List.mem_filter.1 hc).1, (List.mem_filter.1 hc).2⟩)
    rw [lineOver_others hwbs, lineOver, if_pos ha, if_pos ha]
  · rw [if_neg ha, lineOver, if_neg ha, State.byte_eq hs, State.dirty, List.filter_append, List.foldl_append]

theorem overlay_length {l d : Bytes} {o : Nat} (h : o + d.length ≤ l.length) : (overlay l o d).length = l.length := by
  simp only [overlay, List.length_append, List.length_take, List.length_drop]
  omega

theorem overlay_getD {l d : Bytes} {o : Nat} (h : o + d.length ≤ l.length) (i : Nat) :
    (overlay l o d).getD i 0#8 = if o ≤ i ∧ i < o + d.length then d.getD (i - o) 0#8 else l.getD i 0#8 := by
  have htake : (l.take o).length = o := by rw [List.length_take]; omega
  unfold overlay
  rw [List.append_assoc]
  by_cases h1 : i < o
  · rw [if_neg (by omega), List.getD_append _ _ _ _ (by omega), List.getD_eq_getElem?_getD, List.getElem?_take_of_lt h1,
      List.getD_eq_getElem?_getD]
  · rw [List.getD_append_right _ _ _ _ (by omega), htake]
    by_cases h2 : i < o + d.length
    · rw [if_pos (by omega), List.getD_append _ _ _ _ (by omega)]
    · rw [if_neg (by omega), List.getD_append_right _ _ _ _ (by omega), List.getD_eq_getElem?_getD, List.getElem?_drop,
        List.getD_eq_getElem?_getD]
      congr 2
      omega

/-! ### Heat -/

/-- Accesses heat the pages of TIERED regions only (R194). -/
theorem State.heatAccess_cold {s : State} {id : Nat} {r : Region} (h : s.rgn.get id = some r) (hk : r.kind ≠ 1) (off len : Nat) :
    s.heatAccess id off len = s := by
  simp [State.heatAccess, h, hk]

/-! ### A core's store -/

/-- A core's store reaches a line: the other copies have gone. -/
def State.lineCleared (s : State) (n : Nat) (r : Region) (line off : Nat) : State :=
  (({ (s.dropCopies line (some n)) with rgn := s.rgn.writeAbandons r.id (off / pageBytes) }).wakeRange (line * 64) 64).heatAccess
    r.id off 1

theorem State.lineCleared_data (s : State) (n : Nat) (r : Region) (line off : Nat) :
    SameData (s.dropCopies line (some n)) (s.lineCleared n r line off)
      ∧ s.rgn.Alike (s.lineCleared n r line off).rgn
      ∧ (s.lineCleared n r line off).mem.poison = (s.dropCopies line (some n)).mem.poison := by
  let u : State := { (s.dropCopies line (some n)) with rgn := s.rgn.writeAbandons r.id (off / pageBytes) }
  have hwake : (u.wakeRange (line * 64) 64).rgn = u.rgn := State.wakeRange_keeps _ _ _ .rgn (by decide)
  have hheat := State.heatAccess_alike (u.wakeRange (line * 64) 64) r.id off 1
  rw [hwake] at hheat
  have hdata : SameData (s.dropCopies line (some n)) u := ⟨rfl, rfl, rfl, rfl⟩
  refine ⟨(hdata.trans (u.wakeRange_data (line * 64) 64)).trans
    ((State.heatAccess_keeps (u.wakeRange (line * 64) 64) r.id off 1).sameData (by decide)),
    (s.rgn.writeAbandons_alike r.id (off / pageBytes)).trans hheat, ?_⟩
  exact (congrArg Mem.poison (State.heatAccess_mem _ _ _ _)).trans (State.wakeRange_poison u _ _)

/-- The line as the core then holds it. -/
def State.ownedLine (s : State) (n line o : Nat) (d : Bytes) : CoreLine :=
  ⟨n, line, !d.isEmpty, overlay (s.mem.read (line * 64) 64) o d⟩

/-- The core holds the line alone. -/
def State.ownedBy (s : State) (n : Nat) (r : Region) (line o : Nat) (d : Bytes) : State :=
  { s with coh := { ((s.coh.setDir { s.coh.dirOf line with owner := some n, sharers := [] }).place s.rgn r line 1) with
      cached := s.coh.cached ++ [s.ownedLine n line o d] } }

theorem State.takeOwned_eq {s : State} {n line off o : Nat} {r : Region} {d : Bytes} (h : line ∉ s.mem.poison) :
    s.takeOwned n r line off o d = (s.lineCleared n r line off).ownedBy n r line o d := by
  have hpoison : line ∉ (s.lineCleared n r line off).mem.poison := by
    rw [(s.lineCleared_data n r line off).2.2]
    exact fun hl => h (State.cleanRange_poison _ hl)
  show (if (!d.isEmpty && (s.lineCleared n r line off).mem.poison.contains line) = true
    then (s.lineCleared n r line off).writeKey (line * 64 + o) d else (s.lineCleared n r line off).ownedBy n r line o d) = _
  rw [if_neg (by simp [hpoison])]

theorem State.ownedBy_adds (s : State) (n : Nat) (r : Region) (line o : Nat) (d : Bytes) :
    AddsLine s (s.ownedBy n r line o d) (s.ownedLine n line o d) :=
  ⟨rfl, rfl, (Coh.place_lines _ _ _ _ _).2⟩

theorem State.ownedLine_length (s : State) {n line o : Nat} {d : Bytes} (h : o + d.length ≤ 64) :
    (s.ownedLine n line o d).data.length = 64 := by
  have hread := s.mem.read_length (line * 64) 64
  rw [State.ownedLine, overlay_length (by omega), hread]

/-- A core that takes a line which no other holds modified stores its bytes there. -/
theorem State.ownedBy_stores {s : State} (hs : s.Sound) {n line o : Nat} {r : Region} {d : Bytes} (hfit : o + d.length ≤ 64)
    (hclean : ∀ c ∈ s.dirty, c.line ≠ line) : Stores s (line * 64 + o) d (s.ownedBy n r line o d) := by
  have hadds := s.ownedBy_adds n r line o d
  have hlen := s.ownedLine_length (n := n) (line := line) hfit
  refine ⟨hadds.sound hs hlen, .refl _, fun a => ?_⟩
  cases hempty : d.isEmpty with
  | true =>
    obtain rfl := List.isEmpty_iff.1 hempty
    rw [hadds.byte_clean hs hlen rfl, if_neg (by simp)]
  | false =>
    rw [hadds.byte_dirty hs hlen (by simp [State.ownedLine, hempty]) hclean]
    by_cases ha : line = a / 64
    · have hlt : a % 64 < 64 := Nat.mod_lt _ (by decide)
      have hmem : s.byte a = s.mem.byte a := State.CleanAt.byte (fun c hc => ha ▸ hclean c hc) hs
      have hread := s.mem.read_length (line * 64) 64
      rw [State.ownedLine, if_pos ha, overlay_getD (by omega), Mem.read_getD _ _ hlt, hmem,
        show line * 64 + a % 64 = a by omega, show a % 64 - o = a - (line * 64 + o) by omega]
      exact if_congr (by omega) rfl rfl
    · rw [State.ownedLine, if_neg ha, if_neg (by omega)]

/-- A core's store takes the line alone, and the bytes read as stored. -/
theorem State.takeOwned_spec {s : State} (hs : s.Sound) {n line off o : Nat} {r : Region} {d : Bytes} (hpoison : line ∉ s.mem.poison)
    (hfit : o + d.length ≤ 64) : Stores s (line * 64 + o) d (s.takeOwned n r line off o d)
      ∧ ∀ x ∈ (s.takeOwned n r line off o d).coh.cached, x.line = line → x.core = n := by
  obtain ⟨hdata, halike, -⟩ := s.lineCleared_data n r line off
  have hdrop := State.dropCopies_rewrites hs line (some n)
  have hcleared : Rewrites (fun _ => False) s (s.lineCleared n r line off) :=
    ⟨hdata.sound hdrop.sound, halike, fun a ha => (hdata.byte hdrop.sound a).trans (hdrop.bytes a ha)⟩
  have hstores := State.ownedBy_stores hcleared.sound (n := n) (line := line) (r := r) (d := d) hfit fun c hc hline =>
    s.dropCopies_clean (a := line * 64) (some n) (by omega) c (hdata.dirty ▸ hc) (by omega)
  rw [State.takeOwned_eq hpoison]
  refine ⟨⟨hstores.sound, halike.trans hstores.alike, fun a => ?_⟩, fun x hx hline => ?_⟩
  · rw [hstores.bytes, hcleared.bytes a not_false]
  · obtain hx | hx := List.mem_append.1 (show x ∈ (s.lineCleared n r line off).coh.cached ++ [_] from hx)
    · rw [hdata.cached] at hx
      exact absurd hline (State.dropCopies_cached hx).2
    · rw [List.mem_singleton.1 hx]
      rfl

/-! ### The host's store -/

theorem State.write_stores {s : State} (hs : s.Sound) {k : Nat} {d : Bytes}
    (hclean : ∀ a, k ≤ a → a < k + d.length → s.CleanAt a) : Stores s k d { s with mem := s.mem.write k d } := by
  have hsound : ({ s with mem := s.mem.write k d } : State).Sound := ⟨Store.wf_writeN hs.wf _, hs.lines⟩
  refine ⟨hsound, .refl _, fun a => ?_⟩
  rw [State.byte_eq hsound, State.byte_eq hs]
  refine (congrArg (List.foldl (lineOver a) · _) (Mem.byte_write hs.wf k a d)).trans ?_
  by_cases hin : k ≤ a ∧ a < k + d.length
  · rw [if_pos hin, if_pos hin]
    exact lineOver_others (hclean a hin.1 hin.2)
  · rw [if_neg hin, if_neg hin]
    rfl

/-- A host's store at its line's home (R457). -/
def State.hostStored (s : State) (line o : Nat) (d : Bytes) : State :=
  let u := (s.dropCopies line none).wakeRange (line * 64) 64
  ({ u with mem := u.mem.write (line * 64 + o) d }).combineRange (line * 64 + o) d.length

theorem State.hostStored_stores {s : State} (hs : s.Sound) {line o : Nat} {d : Bytes} (hfit : o + d.length ≤ 64) :
    Stores s (line * 64 + o) d (s.hostStored line o d) := by
  let u : State := (s.dropCopies line none).wakeRange (line * 64) 64
  have hdrop := State.dropCopies_rewrites hs line none
  have hdata : SameData (s.dropCopies line none) u := State.wakeRange_data _ _ _
  have hwrite : Stores u (line * 64 + o) d { u with mem := u.mem.write (line * 64 + o) d } :=
    State.write_stores (hdata.sound hdrop.sound) fun a hlo hhi =>
      (s.dropCopies_clean (a := a) none (by omega)).mono fun c hc => hdata.dirty ▸ hc
  have hrgn : (s.hostStored line o d).rgn = s.rgn :=
    (State.combineRange_keeps _ _ _ .rgn (by decide)).trans (State.wakeRange_keeps _ _ _ .rgn (by decide))
  have hcombine : SameData { u with mem := u.mem.write (line * 64 + o) d } (s.hostStored line o d) := State.combineRange_data _ _ _
  refine ⟨hcombine.sound hwrite.sound, hrgn ▸ .refl _, fun a => ?_⟩
  rw [hcombine.byte hwrite.sound, hwrite.bytes, hdata.byte hdrop.sound, hdrop.bytes a not_false]

theorem State.hostStored_keeps (s : State) (line o : Nat) (d : Bytes) : Keeps [.mem, .coh] s (s.hostStored line o d) := by
  have hwrite : ∀ (u : State) (g : Mem), Keeps [.mem] u { u with mem := g } := fun u g => .of_patch rfl
  exact (((s.dropCopies_keeps line none).trans ((State.wakeRange_keeps _ _ _).mono (by decide))).trans
    ((hwrite _ _).mono (by decide))).trans ((State.combineRange_keeps _ _ _).mono (by decide))

/-! ### Reads -/

/-- The bytes of a line, as agents read them. -/
def State.lineBytes (s : State) (line : Nat) : Bytes := (List.range 64).map fun i => s.byte (line * 64 + i)

/-- A read reaches a line: what cores have modified of it is in memory. -/
def State.lineReached (s : State) (r : Region) (off line : Nat) : State :=
  ((s.cleanRange (line * 64) 64).wakeRange (line * 64) 64).heatAccess r.id off 1

/-- The line enters the Floor cache unless its page is migrating (R191, R195). -/
def State.lineFetched (s : State) (r : Region) (off line : Nat) : State :=
  let u := s.lineReached r off line
  if !u.rgn.migrating r.id (off / pageBytes) then { u with coh := u.coh.place u.rgn r line 1 } else u

theorem State.lineReached_keeps (s : State) (r : Region) (off line : Nat) : Keeps [.mem, .coh, .rgn] s (s.lineReached r off line) :=
  (((s.cleanRange_keeps _ _).mono (by decide)).trans ((State.wakeRange_keeps _ _ _).mono (by decide))).trans
    ((State.heatAccess_keeps _ _ _ _).mono (by decide))

theorem State.lineFetched_keeps (s : State) (r : Region) (off line : Nat) : Keeps [.mem, .coh, .rgn] s (s.lineFetched r off line) := by
  unfold State.lineFetched
  dsimp only
  split
  · exact (s.lineReached_keeps r off line).trans (.of_patch rfl)
  · exact s.lineReached_keeps r off line

theorem State.lineFetched_data (s : State) (r : Region) (off line : Nat) :
    SameData (s.cleanRange (line * 64) 64) (s.lineFetched r off line) := by
  have hreached : SameData (s.cleanRange (line * 64) 64) (s.lineReached r off line) :=
    (State.wakeRange_data _ _ _).trans ((State.heatAccess_keeps _ _ _ _).sameData (by decide))
  unfold State.lineFetched
  dsimp only
  split
  · obtain ⟨hcached, hwbs⟩ := Coh.place_lines (s.lineReached r off line).coh (s.lineReached r off line).rgn r line 1
    exact hreached.trans ⟨rfl, rfl, hcached, hwbs⟩
  · exact hreached

theorem State.lineFetched_alike (s : State) (r : Region) (off line : Nat) : s.rgn.Alike (s.lineFetched r off line).rgn := by
  have hwake : ((s.cleanRange (line * 64) 64).wakeRange (line * 64) 64).rgn = s.rgn := State.wakeRange_keeps _ _ _ .rgn (by decide)
  have hreached : s.rgn.Alike (s.lineReached r off line).rgn := hwake ▸ State.heatAccess_alike _ _ _ _
  unfold State.lineFetched
  dsimp only
  split <;> exact hreached

theorem State.lineFetched_rewrites {s : State} (hs : s.Sound) (r : Region) (off line : Nat) :
    Rewrites (fun _ => False) s (s.lineFetched r off line) :=
  (State.cleanRange_rewrites hs (line * 64) 64).trans
    ((s.lineFetched_data r off line).rewrites (State.cleanRange_sound hs _ _) (s.lineFetched_alike r off line))

theorem State.lineFetched_poison {s : State} {r : Region} {off line l : Nat} (h : l ∈ (s.lineFetched r off line).mem.poison) :
    l ∈ s.mem.poison := by
  have hreached : (s.lineReached r off line).mem.poison = (s.cleanRange (line * 64) 64).mem.poison := by
    rw [State.lineReached, State.heatAccess_mem, State.wakeRange_poison]
  have hmem : (s.lineFetched r off line).mem = (s.lineReached r off line).mem := by
    unfold State.lineFetched
    dsimp only
    split <;> rfl
  rw [hmem, hreached] at h
  exact State.cleanRange_poison _ h

theorem State.lineFetched_read {s : State} (hs : s.Sound) (r : Region) (off line : Nat) :
    (s.lineFetched r off line).mem.read (line * 64) 64 = s.lineBytes line := by
  have hrew := State.lineFetched_rewrites hs r off line
  rw [Mem.read_eq, State.lineBytes, upFrom, List.map_map]
  refine List.map_congr_left fun i hi => ?_
  have hi := List.mem_range.1 hi
  have hclean : (s.lineFetched r off line).CleanAt (line * 64 + i) :=
    (State.cleanRange_clean (inRange_line.2 (by omega)) s).mono fun c hc => (s.lineFetched_data r off line).dirty ▸ hc
  exact (hclean.byte hrew.sound).symm.trans (hrew.bytes _ not_false)

/-- A read that the home has answered with the line's data. -/
def State.readAnswered (s : State) (t : Txn) (r : Region) (line : Nat) : State :=
  (s.lineFetched r t.off line).emit (.data t.port ((s.lineFetched r t.off line).mem.read (line * 64) 64))

theorem State.answerRead_eq {s : State} {t : Txn} {line : Nat} (h : line ∉ s.mem.poison) :
    s.answerRead t line = s.emit (.data t.port (s.mem.read (line * 64) 64)) := by
  unfold State.answerRead
  rw [if_neg (by simpa using h)]

theorem State.lineFetched_answer {s : State} {t : Txn} {r : Region} {line : Nat} (h : line ∉ s.mem.poison) :
    (s.lineFetched r t.off line).answerRead t line = s.readAnswered t r line :=
  State.answerRead_eq fun hl => h (State.lineFetched_poison hl)

theorem State.readAnswered_poison {s : State} {t : Txn} {r : Region} {line : Nat} (h : line ∉ s.mem.poison) :
    ¬ ((s.readAnswered t r line).mem.poison.contains line = true) := by
  rw [List.contains_iff_mem]
  exact fun hl => h (State.lineFetched_poison hl)

/-- What the answer of a read leaves: the line's data have gone out, and no byte has changed. -/
structure LineRead (s : State) (t : Txn) (line : Nat) (u : State) : Prop where
  rewrites : Rewrites (fun _ => False) s u
  out : u.out = s.out ++ [.data t.port (s.lineBytes line)]

theorem State.readAnswered_read {s : State} (hs : s.Sound) (t : Txn) (r : Region) (line : Nat) :
    LineRead s t line (s.readAnswered t r line) := by
  have hrew := State.lineFetched_rewrites hs r t.off line
  have hemit : Keeps [.out] (s.lineFetched r t.off line) (s.readAnswered t r line) := .of_patch rfl
  have hout : (s.lineFetched r t.off line).out = s.out := s.lineFetched_keeps r t.off line .out (by decide)
  refine ⟨hrew.trans (hemit.rewrites (by decide) hrew.sound), ?_⟩
  rw [State.readAnswered, State.emit_out, State.lineFetched_read hs, hout]

/-- A core shares a line with those that hold it (R262). -/
def State.sharedBy (s : State) (n line : Nat) : State :=
  let e := s.coh.dirOf line
  let holds := fun (m : Nat) => m != n && s.coh.cached.any fun c => c.core == m && c.line == line
  let c := s.coh.setDir { e with owner := none, sharers := (e.sharers ++ e.owner.toList).filter holds ++ [n] }
  { s with coh := { c with cached := c.cached ++ [⟨n, line, false, s.mem.read (line * 64) 64⟩] } }

/-- A core's read of a page that is not migrating: the core shares the line, unless it holds it already. -/
theorem State.serveRead_core_eq {s : State} {t : Txn} {c : Fin 96} {r : Region} {line : Nat} (hwho : t.who = some (.core c))
    (hpoison : line ∉ s.mem.poison) (hstill : (s.lineReached r t.off line).rgn.migrating r.id (t.off / pageBytes) = false) :
    s.serveRead t r line
      = if (s.readAnswered t r line).coh.cached.any (fun x => x.core == c.val && x.line == line) then s.readAnswered t r line
        else (s.readAnswered t r line).sharedBy c line := by
  have hrun : ∀ u, (s.lineFetched r t.off line).answerRead t line = u → s.serveRead t r line
      = if u.mem.poison.contains line then u
        else if !!(s.lineReached r t.off line).rgn.migrating r.id (t.off / pageBytes)
          || u.coh.cached.any (fun x => x.core == c.val && x.line == line) then u
        else u.sharedBy c line := by
    rintro _ rfl
    unfold State.serveRead
    simp only [hwho]
    rfl
  rw [hrun _ (State.lineFetched_answer hpoison), if_neg (State.readAnswered_poison hpoison), hstill]
  rfl

theorem State.serveRead_core {s : State} (hs : s.Sound) {t : Txn} {c : Fin 96} {r : Region} {line : Nat}
    (hwho : t.who = some (.core c)) (hpoison : line ∉ s.mem.poison)
    (hstill : (s.lineReached r t.off line).rgn.migrating r.id (t.off / pageBytes) = false) :
    LineRead s t line (s.serveRead t r line) ∧ ∃ x ∈ (s.serveRead t r line).coh.cached, x.core = c.val ∧ x.line = line := by
  obtain ⟨hrew, hout⟩ := State.readAnswered_read hs t r line
  rw [State.serveRead_core_eq hwho hpoison hstill]
  split
  · rename_i hheld
    obtain ⟨x, hx, hcore⟩ := List.any_eq_true.1 hheld
    exact ⟨⟨hrew, hout⟩, x, hx, by simpa using hcore⟩
  · let x : CoreLine := ⟨c, line, false, (s.readAnswered t r line).mem.read (line * 64) 64⟩
    have hadds : AddsLine (s.readAnswered t r line) ((s.readAnswered t r line).sharedBy c line) x := ⟨rfl, rfl, rfl⟩
    have hlen : x.data.length = 64 := Mem.read_length _ _ _
    exact ⟨⟨hrew.trans ⟨hadds.sound hrew.sound hlen, .refl _, fun a _ => hadds.byte_clean hrew.sound hlen rfl a⟩, hout⟩,
      x, List.mem_append_right _ (List.mem_singleton.2 rfl), rfl, rfl⟩

/-- The host holds a line, and no core does (R256, log 13). -/
def State.hostTakes (s : State) (line : Nat) : State :=
  let u := s.dropCopies line none
  { u with coh := u.coh.setDir { u.coh.dirOf line with host := true, clean := false } }

/-- A host's read: a caching one takes the line. -/
theorem State.serveRead_host_eq {s : State} {t : Txn} {r : Region} {line : Nat} (hwho : t.who = none)
    (hpoison : line ∉ s.mem.poison) :
    s.serveRead t r line = if t.caching then (s.readAnswered t r line).hostTakes line else s.readAnswered t r line := by
  have hrun : ∀ u, (s.lineFetched r t.off line).answerRead t line = u → s.serveRead t r line
      = if u.mem.poison.contains line then u else if t.caching then u.hostTakes line else u := by
    rintro _ rfl
    unfold State.serveRead
    simp only [hwho]
    rfl
  rw [hrun _ (State.lineFetched_answer hpoison), if_neg (State.readAnswered_poison hpoison)]

theorem State.hostTakes_spec {s : State} (hs : s.Sound) (line : Nat) :
    Rewrites (fun _ => False) s (s.hostTakes line) ∧ ((s.hostTakes line).coh.dirOf line).host = true
      ∧ ∀ c ∈ (s.hostTakes line).coh.cached, c.line ≠ line := by
  have hdrop := State.dropCopies_rewrites hs line none
  have hset := Coh.dirOf_setDir_host (s.dropCopies line none).coh
    (e := { (s.dropCopies line none).coh.dirOf line with host := true, clean := false }) (Coh.dirOf_line _ _)
  exact ⟨hdrop.trans (SameData.rewrites ⟨rfl, rfl, rfl, rfl⟩ hdrop.sound (.refl _)), hset,
    fun _ hc => (State.dropCopies_cached (but := none) hc).2⟩

theorem State.serveRead_host {s : State} (hs : s.Sound) {t : Txn} {r : Region} {line : Nat} (hwho : t.who = none)
    (hpoison : line ∉ s.mem.poison) :
    LineRead s t line (s.serveRead t r line)
      ∧ (t.caching = true → ((s.serveRead t r line).coh.dirOf line).host = true
        ∧ ∀ c ∈ (s.serveRead t r line).coh.cached, c.line ≠ line) := by
  obtain ⟨hrew, hout⟩ := State.readAnswered_read hs t r line
  rw [State.serveRead_host_eq hwho hpoison]
  split
  · obtain ⟨htakes, hheld⟩ := State.hostTakes_spec hrew.sound line
    exact ⟨⟨hrew.trans htakes, hout⟩, fun _ => hheld⟩
  · rename_i hcaching
    exact ⟨⟨hrew, hout⟩, fun h => absurd h hcaching⟩

end Sys2Proof.Machine
end

section
/-! SUPPORT. Requests at a line's home: one that nothing holds back is served, one behind an outstanding transaction of its line waits,
and an acknowledgement ends a transaction (R256, R260, R264, R269, R270). -/

namespace Sys2Proof.Machine

/-! ### Requests that nothing holds back -/

/-- Nothing holds a request back at its home: its region's memory runs, its page is neither host-stale nor flipping, the host has
nothing to give up or to answer, and the directory has room (R256, R260, R262, R270, R471). -/
structure Unheld (s : State) (t : Txn) (r : Region) : Prop where
  get : s.rgn.get t.region = some r
  inside : t.off < r.size
  runs : s.memStopped r t.off 1 = false
  fresh : r.stalePage (t.off / pageBytes) = false
  bias : t.who.isSome = true → t.off / pageBytes ∉ r.flipping
  answered : t.who.isSome = true → ∀ b ∈ s.coh.binv, b.line ≠ r.key t.off / 64
  host : t.who.isSome = true → (s.coh.dirOf (r.key t.off / 64)).host = false
  room : s.coh.dir.length < dirEntries

theorem Unheld.region {s : State} {t : Txn} {r : Region} (h : Unheld s t r) :
    (s.rgn.get t.region).filter (fun r => decide (t.off < r.size)) = some r := by
  rw [h.get]
  exact if_pos (decide_eq_true h.inside)

/-- None of the home's reasons to hold a request applies. -/
theorem Unheld.free {s : State} {t : Txn} {r : Region} (h : Unheld s t r) :
    (s.memStopped r t.off 1 || r.stalePage (t.off / pageBytes) || t.who.isSome && r.flipping.contains (t.off / pageBytes)) = false
      ∧ (t.who.isSome && s.coh.binv.any (·.line == r.key t.off / 64)) = false
      ∧ ∀ b, (t.who.isSome && b && (s.coh.dirOf (r.key t.off / 64)).host) = false
        ∧ (t.who.isSome && (s.coh.dirOf (r.key t.off / 64)).host && b) = false := by
  cases hwho : t.who.isSome with
  | false => simp [h.runs, h.fresh]
  | true =>
    refine ⟨by simp [h.runs, h.fresh, h.bias hwho], ?_, fun b => by simp [h.host hwho]⟩
    rw [Bool.true_and, List.any_eq_false]
    exact fun b hb => by simpa using h.answered hwho b hb

theorem Unheld.roomFor {s : State} {t : Txn} {r : Region} (h : Unheld s t r) (line : Nat) :
    (if t.tracked then s.makeDirRoom line else (s, true)) = (s, true) := by
  have hroom : s.makeDirRoom line = (s, true) := by
    unfold State.makeDirRoom
    rw [if_pos (by simp [h.room])]
  rw [hroom, ite_self]

theorem serveTxn_read {s : State} {t : Txn} {r : Region} (h : Unheld s t r) (hop : t.op = .read) :
    s.serveTxn t = (s.serveRead t r (r.key t.off / 64), if t.who.isSome then .stays else .ended) := by
  obtain ⟨hruns, hbinv, hhost⟩ := h.free
  unfold State.serveTxn
  simp only [h.region, hop, hruns, hbinv, hhost, h.roomFor]
  rfl

theorem serveTxn_coreStore {s : State} {t : Txn} {r : Region} {c : Fin 96} {o : Nat} {d : Bytes} (h : Unheld s t r)
    (hwho : t.who = some (.core c)) (hop : t.op = .store o d) :
    s.serveTxn t = (s.takeOwned c r (r.key t.off / 64) t.off o d, .stays) := by
  obtain ⟨hruns, hbinv, hhost⟩ := h.free
  unfold State.serveTxn
  simp only [h.region, hop, hruns, hbinv, hhost, h.roomFor]
  simp only [hwho]
  rfl

theorem serveTxn_hostStore {s : State} {t : Txn} {r : Region} {o : Nat} {d : Bytes} (h : Unheld s t r) (hwho : t.who = none)
    (hop : t.op = .store o d) : s.serveTxn t = (s.hostStored (r.key t.off / 64) o d, .ended) := by
  obtain ⟨hruns, hbinv, hhost⟩ := h.free
  unfold State.serveTxn
  simp only [h.region, hop, hruns, hbinv, hhost, h.roomFor]
  simp only [hwho]
  rfl

/-! ### The life of a request -/

theorem State.coreWaits_keeps (s : State) (t : Txn) (w : Bool) : Keeps [.cor] s (s.coreWaits t w) := by
  unfold State.coreWaits
  split
  · split
    · exact .of_patch rfl
    · exact .refl _ s
  · exact .refl _ s

theorem State.coreWaits_host {s : State} {t : Txn} (h : t.who = none) (w : Bool) : s.coreWaits t w = s := by
  unfold State.coreWaits
  rw [h]

/-- Behind an outstanding transaction of its line a request waits (R264). -/
theorem State.request_waits {s : State} {t : Txn} (h : ∃ x ∈ s.coh.txns, x.sameLine t = true) :
    s.request t = ({ s with coh := { s.coh with waiting := s.coh.waiting ++ [t] } }).coreWaits t true := by
  unfold State.request
  rw [if_pos (List.any_eq_true.2 h)]

/-- A request that stays outstanding joins the transactions. -/
def State.outstanding (s : State) (t : Txn) : State :=
  ({ s with coh := { s.coh with txns := s.coh.txns ++ [{ t with held := false }] } }).coreWaits t false

theorem State.request_stays {s u : State} {t : Txn} (h : ∀ x ∈ s.coh.txns, x.sameLine t = false)
    (hserve : s.serveTxn t = (u, .stays)) : s.request t = u.outstanding t := by
  unfold State.request
  rw [if_neg (by simpa using h)]
  unfold runTxn
  simp only [hserve]
  rfl

/-- A host's request that is complete, with nothing waiting behind it. -/
theorem State.request_ended {s u : State} {t : Txn} (h : ∀ x ∈ s.coh.txns, x.sameLine t = false) (hwait : s.coh.waiting = [])
    (hwho : t.who = none) (hserve : s.serveTxn t = (u, .ended)) : s.request t = u := by
  unfold State.request
  rw [if_neg (by simpa using h), hwait]
  unfold runTxn
  simp only [hserve]
  exact State.coreWaits_host hwho false

theorem State.outstanding_keeps (s : State) (t : Txn) : Keeps [.coh, .cor] s (s.outstanding t) :=
  Keeps.trans (.of_patch rfl) ((State.coreWaits_keeps _ t false).mono (by decide))

theorem State.outstanding_coh (s : State) (t : Txn) :
    (s.outstanding t).coh = { s.coh with txns := s.coh.txns ++ [{ t with held := false }] } :=
  State.coreWaits_keeps _ t false .coh (by decide)

theorem State.outstanding_data (s : State) (t : Txn) : SameData s (s.outstanding t) := by
  have hmem : (s.outstanding t).mem = s.mem := s.outstanding_keeps t .mem (by decide)
  have hcoh := s.outstanding_coh t
  exact ⟨by rw [hmem], by rw [hmem], by rw [hcoh], by rw [hcoh]⟩

/-- The transaction stands among the outstanding ones. -/
theorem State.outstanding_txn (s : State) {t : Txn} {who : CohAgent} (hwho : t.who = some who) :
    ∃ x ∈ (s.outstanding t).coh.txns, x.who = some who ∧ x.region = t.region ∧ x.off = t.off := by
  rw [State.outstanding_coh]
  exact ⟨{ t with held := false }, List.mem_append_right _ (List.mem_singleton.2 rfl), hwho, rfl, rfl⟩

/-- No entry of a line has the host bit: the host does not hold the line. -/
theorem Coh.dirOf_unheld {c : Coh} {line : Nat} (h : ∀ e ∈ c.dir, e.line = line → e.host = false) : (c.dirOf line).host = false := by
  unfold Coh.dirOf
  cases hfind : c.dir.find? (·.line == line) with
  | none => rfl
  | some e => exact h e (List.mem_of_find?_eq_some hfind) (by simpa using List.find?_some hfind)

theorem State.memStopped_none {s : State} (h : s.aon.stopped = []) (r : Region) (off n : Nat) : s.memStopped r off n = false := by
  simp [State.memStopped, h]

/-! ### A core's requests -/

/-- A core's request of a line. -/
def coreTxn (c : Fin 96) (region off : Nat) (op : CohOp) : Txn := ⟨some (.core c), region, off, op, false, false⟩

theorem Cor.running_get {x : Cor} {n : Nat} (h : (x.core n).running = true) : ∃ c, x.cores.get n = some c ∧ c.running = true := by
  unfold Cor.core AL.getD at h
  cases hget : x.cores.get n with
  | none =>
    rw [hget] at h
    cases h
  | some c => exact ⟨c, rfl, by simpa [hget] using h⟩

/-- A running core may read and store. -/
theorem State.mayRequest_running {s : State} {c : Fin 96} (hstop : s.aon.stopped = []) (hrun : (s.cor.core c).running = true)
    {op : CohOp} (hop : op = .read ∨ ∃ o d, op = .store o d) : s.mayRequest (.core c) op = true := by
  obtain ⟨x, hget, hx⟩ := Cor.running_get hrun
  obtain rfl | ⟨o, d, rfl⟩ := hop <;>
    simp [State.mayRequest, State.dieStopped, State.blockStopped, hstop, hget, hx]

/-- Reads and exclusive requests that fit their line are requests to the home. -/
theorem exec_coreRequest {s : State} {c : Fin 96} {region off : Nat} {op : CohOp} (hpow : s.powered = true)
    (hmay : s.mayRequest (.core c) op = true) (hop : op = .read ∨ op.exclusive = true ∧ op.fits = true) :
    exec (.coherenceRequest (.core c) region off op) s = .next (s.request (coreTxn c region off op)) := by
  have hgo : ∀ op : CohOp, s.mayRequest (.core c) op = true → op.fits = true →
      (if s.mayRequest (.core c) op && op.fits then s.request (coreTxn c region off op) else s)
        = s.request (coreTxn c region off op) := fun op h1 h2 => if_pos (by rw [h1, h2]; rfl)
  show execCoherenceRequest (.core c) region off op s = _
  unfold execCoherenceRequest
  rw [if_neg (by simp [hpow])]
  obtain rfl | ⟨hex, hfits⟩ := hop
  · exact congrArg Host.Outcome.next (hgo .read hmay rfl)
  · cases op with
    | store o d => exact congrArg Host.Outcome.next (hgo _ hmay hfits)
    | amo a w o v => exact congrArg Host.Outcome.next (hgo _ hmay hfits)
    | sc o d => exact congrArg Host.Outcome.next (hgo _ hmay hfits)
    | madd f o v => exact congrArg Host.Outcome.next (hgo _ hmay hfits)
    | _ => cases hex

/-- An acknowledgement ends the only transaction, with nothing else waiting. -/
theorem exec_coreAck {s : State} {c : Fin 96} {x : Txn} (hpow : s.powered = true) (hwait : s.coh.waiting = [])
    (hheld : s.hst.held = []) (htxns : s.coh.txns = [x]) (hwho : x.who = some (.core c)) (hserved : x.held = false) :
    exec (.coherenceRequest (.core c) x.region x.off .ack) s = .next { s with coh := { s.coh with txns := [] } } := by
  let t := coreTxn c x.region x.off .ack
  have hfind : s.coh.txns.find? (fun u => u.sameLine t && u.who == some (.core c) && !u.held) = some x := by
    rw [htxns, List.find?_cons_of_pos]
    simp [t, coreTxn, Txn.sameLine, hwho, hserved]
  have herase : ({ s with coh := { s.coh with txns := s.coh.txns.erase x } } : State) = { s with coh := { s.coh with txns := [] } } := by
    rw [htxns, List.erase_cons_head]
  have hnext : ({ s with coh := { s.coh with txns := [] } } : State).nextTxn x = { s with coh := { s.coh with txns := [] } } := by
    unfold State.nextTxn
    rw [show ({ s with coh := { s.coh with txns := [] } } : State).coh.waiting = [] from hwait]
    rfl
  show execCoherenceRequest (.core c) x.region x.off .ack s = _
  unfold execCoherenceRequest
  rw [if_neg (by simp [hpow])]
  refine congrArg Host.Outcome.next ?_
  show (match s.coh.txns.find? (fun u => u.sameLine t && u.who == some (.core c) && !u.held) with
    | some u => (({ s with coh := { s.coh with txns := s.coh.txns.erase u } }).nextTxn u).retryWindows
    | none => s) = _
  rw [hfind]
  dsimp only
  rw [herase, hnext]
  exact State.retryWindows_idle hheld

/-! ### The statement -/

/-- A core's read that nothing holds back. -/
theorem coreRead_spec {s : State} (hs : s.Sound) (hpow : s.powered = true) {c : Fin 96} {r : Region} {off : Nat}
    (hmay : s.mayRequest (.core c) .read = true) (hfree : Unheld s (coreTxn c r.id off .read) r)
    (hline : ∀ x ∈ s.coh.txns, x.sameLine (coreTxn c r.id off .read) = false) (hpoison : r.key off / 64 ∉ s.mem.poison)
    (hkind : r.kind = 0) (hstill : s.rgn.migrating r.id (off / pageBytes) = false) :
    ∃ t, exec (.coherenceRequest (.core c) r.id off .read) s = .next t
      ∧ t.out = s.out ++ [.data (5 + c.val) ((List.range 64).map fun i => s.byte (r.key off / 64 * 64 + i))]
      ∧ SameBytes (fun _ => False) s t ∧ (∃ x ∈ t.coh.txns, x.who = some (.core c) ∧ x.region = r.id ∧ x.off = off)
      ∧ ∃ x ∈ t.coh.cached, x.core = c.val ∧ x.line = r.key off / 64 := by
  let t := coreTxn c r.id off .read
  have hreached : (s.lineReached r off (r.key off / 64)).rgn = s.rgn := by
    have hwake : ((s.cleanRange (r.key off / 64 * 64) 64).wakeRange (r.key off / 64 * 64) 64).rgn = s.rgn :=
      State.wakeRange_keeps _ _ _ .rgn (by decide)
    rw [State.lineReached, State.heatAccess_cold (r := r) (hwake ▸ hfree.get) (by omega), hwake]
  obtain ⟨⟨hrew, hout⟩, x, hx, hcore, hxline⟩ :=
    State.serveRead_core hs (t := t) (line := r.key off / 64) rfl hpoison (hreached ▸ hstill)
  have hrequest : s.request t = (s.serveRead t r (r.key off / 64)).outstanding t :=
    State.request_stays hline (serveTxn_read hfree rfl)
  have hdata := (s.serveRead t r (r.key off / 64)).outstanding_data t
  refine ⟨_, (exec_coreRequest hpow hmay (.inl rfl)).trans (congrArg _ hrequest), ?_, fun a ha => ?_, ?_, x, ?_, hcore, hxline⟩
  · exact (State.outstanding_keeps _ t .out (by decide)).trans hout
  · exact (hdata.byte hrew.sound a).trans (hrew.bytes a ha)
  · exact State.outstanding_txn _ (t := t) rfl
  · rw [hdata.cached]
    exact hx

/-- A core's store that nothing holds back. -/
theorem coreStore_spec {s : State} (hs : s.Sound) (hpow : s.powered = true) {c : Fin 96} {r : Region} {off o : Nat} {d : Bytes}
    (hmay : s.mayRequest (.core c) (.store o d) = true) (hfree : Unheld s (coreTxn c r.id off (.store o d)) r)
    (hline : ∀ x ∈ s.coh.txns, x.sameLine (coreTxn c r.id off (.store o d)) = false)
    (hpoison : r.key off / 64 ∉ s.mem.poison) (hfit : o + d.length ≤ 64) :
    ∃ t, exec (.coherenceRequest (.core c) r.id off (.store o d)) s = .next t
      ∧ (∀ x ∈ t.coh.cached, x.line = r.key off / 64 → x.core = c.val)
      ∧ (∀ a, t.byte a = if r.key off / 64 * 64 + o ≤ a ∧ a < r.key off / 64 * 64 + o + d.length
          then d.getD (a - (r.key off / 64 * 64 + o)) 0#8 else s.byte a)
      ∧ ∃ x ∈ t.coh.txns, x.who = some (.core c) ∧ x.region = r.id ∧ x.off = off := by
  let t := coreTxn c r.id off (.store o d)
  obtain ⟨hstores, halone⟩ := State.takeOwned_spec hs (n := c) (off := off) (r := r) hpoison hfit
  have hrequest : s.request t = (s.takeOwned c r (r.key off / 64) off o d).outstanding t :=
    State.request_stays hline (serveTxn_coreStore hfree rfl rfl)
  have hdata := (s.takeOwned c r (r.key off / 64) off o d).outstanding_data t
  refine ⟨_, (exec_coreRequest hpow hmay (.inr ⟨rfl, decide_eq_true hfit⟩)).trans (congrArg _ hrequest), fun x hx => ?_,
    fun a => ?_, State.outstanding_txn _ (t := t) rfl⟩
  · rw [hdata.cached] at hx
    exact halone x hx
  · rw [hdata.byte hstores.sound, hstores.bytes]

/-- Settles O31: a request either waits behind its line's transaction or is served with the line's copies in order. -/
theorem coherenceServed : Obligations.CoherenceServed := by
  unfold Obligations.CoherenceServed
  refine ⟨?_, ?_⟩
  · rintro s c region off op hpow hmay hop ⟨x, hx, hregion, hoff⟩
    have hrequest := State.request_waits (s := s) (t := coreTxn c region off op) ⟨x, hx, by simp [Txn.sameLine, coreTxn, hregion, hoff]⟩
    have hwaits := State.coreWaits_keeps
      { s with coh := { s.coh with waiting := s.coh.waiting ++ [coreTxn c region off op] } } (coreTxn c region off op) true
    exact ⟨_, (exec_coreRequest hpow hmay hop).trans (congrArg _ hrequest), hwaits .coh (by decide),
      Keeps.trans (.of_patch rfl) (hwaits.mono (by decide))⟩
  · rintro s c r off line hInv hpow hstop hrun hr hoff rfl hstale hflip hkind hdir hbinv hpoison hmig htxns hroom
    have hfree : ∀ op, Unheld s (coreTxn c r.id off op) r := fun op =>
      ⟨hr, hoff, State.memStopped_none hstop r off 1, hstale, fun _ => hflip, fun _ => hbinv, fun _ => Coh.dirOf_unheld hdir, hroom⟩
    have hline : ∀ op, ∀ x ∈ s.coh.txns, x.sameLine (coreTxn c r.id off op) = false := fun op x hx => by
      simpa [Txn.sameLine, coreTxn] using htxns x hx
    have hstill : s.rgn.migrating r.id (off / pageBytes) = false := by
      unfold Rgn.migrating
      rw [List.any_eq_false]
      exact fun m hm => by simp [hmig m hm]
    refine ⟨?_, fun o d hfit => ?_, fun x hwait hheld hone hwho hserved => ?_⟩
    · exact coreRead_spec hInv.sound hpow (State.mayRequest_running hstop hrun (.inl rfl)) (hfree _) (hline _) hpoison hkind hstill
    · exact coreStore_spec hInv.sound hpow (State.mayRequest_running hstop hrun (.inr ⟨o, d, rfl⟩)) (hfree _) (hline _) hpoison hfit
    · exact ⟨_, exec_coreAck hpow hwait hheld hone hwho hserved, rfl, .of_patch rfl⟩

end Sys2Proof.Machine
end

section
/-! SUPPORT. The HDM window: the page that an address maps to, the host's requests of its lines, what stands outside, and the host's
snoops (R254, R255, R264 to R266, R456, R457). -/

namespace Sys2Proof.Machine

/-! ### The page that the decoder maps to -/

/-- Ids are unique: a region of the table is the one that its id finds. -/
theorem Rgn.get_mem {g : Rgn} {r : Region} (h : (g.regions.map (·.id)).Nodup) (hr : r ∈ g.regions) : g.get r.id = some r := by
  cases hget : g.get r.id with
  | none => exact absurd rfl (Rgn.get_isNone.1 (Option.isNone_iff_eq_none.2 hget) r hr)
  | some r' => rw [List.inj_on_of_nodup_map h (List.mem_of_find?_eq_some hget) hr (Rgn.get_some hget)]

/-- An HDM offset reaches a byte of a STACK region. -/
theorem Rgn.byHdm_some {g : Rgn} {x off : Nat} {r : Region} (h : g.byHdm x = some (r, off)) :
    r ∈ g.regions ∧ r.kind = 0 ∧ off < r.size := by
  obtain ⟨r', hfind, ⟨⟩⟩ := Option.map_eq_some_iff.1 h
  have hreach := List.find?_some hfind
  simp only [Bool.and_eq_true, beq_iff_eq, decide_eq_true_eq] at hreach
  exact ⟨List.mem_of_find?_eq_some hfind, hreach.1.1, by omega⟩

theorem Region.stalePage_stack {r : Region} (h : r.kind = 0) (page : Nat) : r.stalePage page = false := by
  simp [Region.stalePage, Region.pageInT2, h]

/-- What an HDM offset of a shared-bias page maps to. -/
def Rgn.byHdmShared (g : Rgn) (x : Nat) : Option (Region × Nat) :=
  (g.byHdm x).filter fun y => y.1.shared.contains (y.2 / pageBytes)

theorem Rgn.byHdmShared_some {g : Rgn} {x off : Nat} {r : Region} (h : g.byHdm x = some (r, off))
    (hshared : r.shared.contains (off / pageBytes) = true) : g.byHdmShared x = some (r, off) := by
  rw [Rgn.byHdmShared, h]
  exact if_pos hshared

theorem Rgn.byHdmShared_none {g : Rgn} {x : Nat}
    (h : ∀ r off, g.byHdm x = some (r, off) → r.shared.contains (off / pageBytes) = false) : g.byHdmShared x = none := by
  unfold Rgn.byHdmShared
  cases hby : g.byHdm x with
  | none => rfl
  | some y => exact if_neg (Bool.eq_false_iff.1 (h y.1 y.2 hby))

/-! ### Accesses -/

/-- The host's request of a line. -/
def hostTxn (region off : Nat) (caching : Bool) (op : CohOp) : Txn := ⟨none, region, off, op, caching, false⟩

/-- The request at a line's home that an access through the HDM window makes, at its offset in the line. -/
def hdmOp (o : Nat) : Access → CohOp
  | .read _ => .read
  | .write d => .store o d

/-- What the host receives of an access that its window maps to nothing. -/
def State.hdmUnmapped (s : State) (hpa : Nat) (acc : Access) : State :=
  let s := s.raise aLOG 0 noTag (unitField uHostPort 0 0) hpa
  match acc with
  | .read n => s.emit (.data 0 (List.replicate n 0xFF#8))
  | .write _ => s

/-- The decoder carries an access of a line's bytes, with the host link up. -/
structure HdmAccess (s : State) (hpa b : Nat) (acc : Access) : Prop where
  powered : s.powered = true
  link : s.hst.link = .up
  base : s.rgn.hdmBase = some b
  above : b ≤ hpa
  below : hpa < b + 1152 * 2 ^ 30
  bytes : 1 ≤ acc.len
  fits : hpa % 64 + acc.len ≤ 64

theorem exec_hdmAccess {s : State} {hpa b : Nat} {acc : Access} (h : HdmAccess s hpa b acc) (caching : Bool) :
    exec (.hostHdmAccess hpa caching acc) s = .next (match s.rgn.byHdmShared (hpa - b) with
      | none => s.hdmUnmapped hpa acc
      | some (r, off) => s.request (hostTxn r.id off caching (hdmOp (hpa % 64) acc))) := by
  have hcarried : ¬ ((!s.powered || s.hst.link != .up || decide (hpa < b) || decide (b + 1152 * 2 ^ 30 ≤ hpa)) = true) := by
    have habove := h.above
    have hbelow := h.below
    simp [h.powered, h.link]
    omega
  have hspan : ¬ ((decide (acc.len = 0) || decide (64 < hpa % 64 + acc.len)) = true) := by
    have hbytes := h.bytes
    have hfits := h.fits
    simp
    omega
  show execHostHdmAccess hpa caching acc s = _
  unfold execHostHdmAccess
  rw [h.base]
  refine congrArg Host.Outcome.next ((if_neg hcarried).trans ?_)
  cases acc <;> exact if_neg hspan

/-- A shared-bias page's line that nothing holds back from the host. -/
theorem Unheld.ofHost {s : State} {r : Region} {off : Nat} (hget : s.rgn.get r.id = some r) (hkind : r.kind = 0)
    (hoff : off < r.size) (hstop : s.aon.stopped = []) (hroom : s.coh.dir.length < dirEntries) (caching : Bool) (op : CohOp) :
    Unheld s (hostTxn r.id off caching op) r :=
  ⟨hget, hoff, State.memStopped_none hstop r off 1, Region.stalePage_stack hkind _, nofun, nofun, nofun, hroom⟩

theorem State.hdmUnmapped_keeps (s : State) (hpa : Nat) (d : Bytes) :
    Keeps [.att, .obs] s (s.hdmUnmapped hpa (.write d)) := s.raise_keeps _ _ _ _ _

/-! ### Snoops -/

/-- A line that a snoop has reached: the data are in memory, and no core keeps a copy that the host wants gone (R266). -/
def State.snooped (s : State) (line : Nat) (inv : Bool) : State :=
  if inv then s.dropCopies line none else s.cleanRange (line * 64) 64

theorem exec_hostSnoop {s : State} {hpa line : Nat} (hpow : s.powered = true) (hlink : s.hst.link = .up) (htxns : s.coh.txns = [])
    (hline : line = (2 ^ 56 + hpa) / 64) (inv : Bool) :
    exec (.hostSnoop hpa inv) s = .next ((s.snooped line inv).emit (.snoopAnswer (hpa / 64 * 64)
      (((s.coh.cached ++ s.coh.wbs).find? fun c => c.line == line && c.dirty).map (·.data)))) := by
  subst hline
  show execHostSnoop hpa inv s = _
  unfold execHostSnoop
  rw [if_neg (by simp [hpow, hlink]), htxns]
  rfl

theorem State.snooped_keeps (s : State) (line : Nat) (inv : Bool) : Keeps [.mem, .coh] s (s.snooped line inv) := by
  cases inv with
  | true => exact s.dropCopies_keeps line none
  | false => exact s.cleanRange_keeps _ _

theorem State.snooped_rewrites {s : State} (hs : s.Sound) (line : Nat) (inv : Bool) :
    Rewrites (fun _ => False) s (s.snooped line inv) := by
  cases inv with
  | true => exact State.dropCopies_rewrites hs line none
  | false => exact State.cleanRange_rewrites hs _ _

/-- A copy of the line that a snoop leaves is unmodified, and an invalidating one leaves none. -/
theorem State.snooped_cached {s : State} {line : Nat} {inv : Bool} {c : CoreLine} (hc : c ∈ (s.snooped line inv).coh.cached)
    (hline : c.line = line) : inv = false ∧ c.dirty = false := by
  cases inv with
  | true => exact absurd hline (State.dropCopies_cached (but := none) hc).2
  | false => exact ⟨rfl, State.cleanRange_line_clean (List.mem_append_left _ hc) hline⟩

/-! ### The statement -/

/-- The host's read of a line that nothing holds back. -/
theorem hdmRead_spec {s : State} (hs : s.Sound) {r : Region} {off : Nat} {caching : Bool}
    (hfree : Unheld s (hostTxn r.id off caching .read) r) (hwait : s.coh.waiting = [])
    (hline : ∀ x ∈ s.coh.txns, x.sameLine (hostTxn r.id off caching .read) = false) (hpoison : r.key off / 64 ∉ s.mem.poison) :
    LineRead s (hostTxn r.id off caching .read) (r.key off / 64) (s.request (hostTxn r.id off caching .read))
      ∧ (caching = true → ((s.request (hostTxn r.id off caching .read)).coh.dirOf (r.key off / 64)).host = true
        ∧ ∀ c ∈ (s.request (hostTxn r.id off caching .read)).coh.cached, c.line ≠ r.key off / 64) := by
  rw [State.request_ended hline hwait rfl (serveTxn_read hfree rfl)]
  exact State.serveRead_host hs rfl hpoison

/-- Settles O36: the decoder's base, a mapped access as the host's request at its line's home, an access that maps to nothing, and a
snoop, each by its own equation. The copies that a caching read takes from the cores go by log 13. -/
theorem hdmReached : Obligations.HdmReached := by
  unfold Obligations.HdmReached
  refine ⟨?_, ?_, ?_⟩
  · intro s base ways hpow hlink
    refine ⟨_, congrArg Host.Outcome.next (if_pos (by simp [hpow, hlink])), .of_patch rfl, ?_⟩
    simp
  · intro s hpa b caching hInv hpow hlink hbase habove hbelow
    have haccess : ∀ acc : Access, 1 ≤ acc.len → hpa % 64 + acc.len ≤ 64 → HdmAccess s hpa b acc := fun _ hbytes hfit =>
      ⟨hpow, hlink, hbase, habove, hbelow, hbytes, hfit⟩
    refine ⟨?_, fun hunmapped => ?_⟩
    · rintro r off line hby hshared rfl hstop hwait hpoison hroom htxns
      have hmapped := Rgn.byHdmShared_some hby hshared
      obtain ⟨hr, hkind, hoff⟩ := Rgn.byHdm_some hby
      have hfree := Unheld.ofHost (Rgn.get_mem hInv.ids hr) hkind hoff hstop hroom caching
      have hline : ∀ op, ∀ x ∈ s.coh.txns, x.sameLine (hostTxn r.id off caching op) = false := fun op x hx => by
        simpa [Txn.sameLine, hostTxn] using htxns x hx
      refine ⟨fun n hn hfit => ?_, fun d hd hfit => ?_⟩
      · have hexec := exec_hdmAccess (haccess (.read n) hn hfit) caching
        rw [hmapped] at hexec
        obtain ⟨⟨hrew, hout⟩, htaken⟩ := hdmRead_spec hInv.sound (hfree .read) hwait (hline .read) hpoison
        exact ⟨_, hexec, hout, hrew.bytes, htaken⟩
      · have hexec := exec_hdmAccess (haccess (.write d) hd hfit) caching
        rw [hmapped] at hexec
        have hrequest := State.request_ended (hline (.store (hpa % 64) d)) hwait rfl (serveTxn_hostStore (hfree _) rfl rfl)
        exact ⟨_, hexec.trans (congrArg _ hrequest), s.hostStored_keeps _ _ _ .out (by decide),
          (State.hostStored_stores hInv.sound hfit).bytes⟩
    · have hmapped := Rgn.byHdmShared_none hunmapped
      refine ⟨fun n hn hfit => ?_, fun d hd hfit => ?_⟩
      · have hexec := exec_hdmAccess (haccess (.read n) hn hfit) caching
        rw [hmapped] at hexec
        exact ⟨_, hexec, rfl, rfl, .of_patch rfl⟩
      · have hexec := exec_hdmAccess (haccess (.write d) hd hfit) caching
        rw [hmapped] at hexec
        exact ⟨_, hexec, rfl, s.hdmUnmapped_keeps hpa d⟩
  · intro s hpa line inv hInv hpow hlink htxns hline
    have hrew := State.snooped_rewrites hInv.sound line inv
    have hkeeps := s.snooped_keeps line inv
    refine ⟨_, exec_hostSnoop hpow hlink htxns hline inv, ?_, fun a ha => ?_, ?_, fun hinv c hc hcl => ?_, fun c hc hcl => ?_⟩
    · rw [State.emit_out, hkeeps .out (by decide)]
    · exact (hrew.trans ((State.emit_keeps _ _).rewrites (by decide) hrew.sound)).bytes a ha
    · exact (hkeeps.mono (by decide)).trans ((State.emit_keeps _ _).mono (by decide))
    · exact absurd (State.snooped_cached hc hcl).1 (by simp [hinv])
    · exact (State.snooped_cached hc hcl).2

end Sys2Proof.Machine
end

section
/-! SUPPORT. STEP_SUBMIT and STEP_REPLAY: an accepted step is queued with its state word and its record (R313, R331, R332, R357,
R522). -/

namespace Sys2Proof.Machine

/-! ### State words and plans -/

/-- The state word of an accepted request is the one that its tag finds (R332). -/
theorem Stp.newWord_find (t : Stp) (tag : Nat) (w : WordState) :
    (t.newWord tag w).words.find? (·.tag == tag) = some ⟨tag, w⟩ := by
  have hold : ∀ n, ((t.words.filter (·.tag != tag)).drop n).find? (·.tag == tag) = none := fun n =>
    List.find?_eq_none.2 fun x hx => by simpa using (List.mem_filter.1 (List.mem_of_mem_drop hx)).2
  unfold Stp.newWord
  dsimp only
  rw [List.drop_append_of_le_length (by simp), List.find?_append, hold]
  simp

theorem Pln.get_handle {l : Pln} {h : Nat} {p : Plan} (hget : l.get h = some p) : p.handle = h := by
  simpa using List.find?_some hget

/-! ### The checks of R331 -/

/-- A ring that the device accepts for a step lies ahead of its own (R331). -/
theorem State.accepts_ahead {s : State} {n : Nat} (h : s.accepts n = true) : s.deviceRing < n := by
  simp only [State.accepts, Bool.or_eq_true, Bool.and_eq_true, beq_iff_eq] at h
  omega

/-- What the checks of R331 ask for: no step is queued, the ring follows, the plan is ready and names members only. -/
structure StepAccepted (s : State) (p : Plan) (n : Nat) : Prop where
  free : s.stp.queued = none
  ring : s.accepts n = true
  ready : s.planReady p = true
  members : s.namesAbsent p = false

/-- The loss-scale exponent of a step: that of the attempt it replays, or its plan's (R310, R358). -/
def replayedScale (p : Plan) : Option Bytes → Int
  | some b => intOfByte (byteAt b 0x0A)
  | none => p.lsExp

/-- The step of an accepted request. -/
def State.acceptedStep (s : State) (q : Req) (p : Plan) (n : Nat) (src : Option Bytes) : Step :=
  newStep q p (fun _ => s.stp.attempts.getD n 0) (fun _ => replayedScale p src) n src s.aon.tick.toNat

theorem State.acceptedStep_fromAttempt (s : State) (q : Req) (p : Plan) (n : Nat) (b : Bytes) :
    (s.acceptedStep q p n (some b)).fromAttempt = q.f 2 2 := rfl

/-- The step is queued, with its state word and the record of its attempt (R332). -/
def State.withQueued (s : State) (q : Req) (p : Plan) (n : Nat) (src : Option Bytes) : State :=
  let a := s.stp.attempts.getD n 0
  let rs := s.stp.records ++ [⟨n, a, false, []⟩]
  { s with
    stp := { s.stp.newWord q.tag .queued with
      queued := some (s.acceptedStep q p n src)
      attempts := s.stp.attempts.set n ((a + 1) % 2 ^ 16)
      records := rs.drop (rs.length - 64) }
    gld := { (if src.isSome then s.gld.freePreps (fun r => r.ring == n) else s.gld) with
      latest := if (p.opsOf 0x0050).isEmpty then s.gld.latest else some p.handle } }

theorem State.withQueued_keeps (s : State) (q : Req) (p : Plan) (n : Nat) (src : Option Bytes) :
    Keeps [.stp, .gld] s (s.withQueued q p n src) := .of_patch rfl

theorem State.withQueued_word (s : State) (q : Req) (p : Plan) (n : Nat) (src : Option Bytes) :
    (s.withQueued q p n src).stp.words.find? (·.tag == q.tag) = some ⟨q.tag, .queued⟩ := s.stp.newWord_find q.tag .queued

theorem State.withQueued_attempts (s : State) (q : Req) (p : Plan) (n : Nat) (src : Option Bytes) :
    (s.withQueued q p n src).stp.attempts.getD n 0 = (s.stp.attempts.getD n 0 + 1) % 2 ^ 16 := by
  show (s.stp.attempts.set n _).getD n 0 = _
  rw [AL.getD, AL.get_set_same, Option.getD_some]

theorem State.acceptStep_busy {s : State} (h : s.stp.queued.isSome = true) (q : Req) (p : Plan) (n : Nat) (src : Option Bytes) :
    s.acceptStep q p n src = (s, rcode cBUSY) := if_pos h

theorem State.acceptStep_submits {s : State} {p : Plan} {n : Nat} (h : StepAccepted s p n) (q : Req) :
    s.acceptStep q p n none = (s.withQueued q p n none, rcode cACCEPTED) := by
  have hahead := State.accepts_ahead h.ring
  unfold State.acceptStep
  rw [if_neg (by simp [h.free]), if_neg (by simp [h.ring]), if_neg (by simp [h.ready]), if_neg (by simp [h.members])]
  exact if_neg (by simp; omega)

/-- A replay whose shards need nothing first is accepted as a submission is (R313, R357). -/
theorem State.acceptStep_replays {s : State} {p : Plan} {n : Nat} (h : StepAccepted s p n) (hnext : n = s.deviceRing + 1)
    (hslots : s.slotsWait = none) (hsettled : s.settleClasses n = s) (q : Req) (b : Bytes) :
    s.acceptStep q p n (some b) = (s.withQueued q p n (some b), rcode cACCEPTED) := by
  subst hnext
  unfold State.acceptStep
  rw [if_neg (by simp [h.free]), if_neg (by simp [h.ring]), if_neg (by simp [h.ready]), if_neg (by simp [h.members])]
  simp only [Option.isSome_some, if_true, hslots, hsettled]
  exact if_neg (by omega)

/-- With no shard interrupted or recomputable there is nothing to settle before a replay (R313). -/
theorem State.settleClasses_settled {s : State} {n : Nat}
    (h : ∀ d ∈ s.held, s.classify d n ≠ .interrupted ∧ s.classify d n ≠ .recomputable) : s.settleClasses n = s := by
  have hagain : State.settleClasses.again n s = s := by
    have hfold : ∀ l : List ShardDef, (∀ d ∈ l, s.classify d n ≠ .recomputable) →
        l.foldl (fun s d => if s.classify d n == .recomputable then s.redo d none none else s) s = s := by
      intro l
      induction l with
      | nil => exact fun _ => rfl
      | cons d l ih =>
        intro hl
        rw [List.foldl_cons, if_neg (by simp [hl d List.mem_cons_self])]
        exact ih fun x hx => hl x (List.mem_cons_of_mem _ hx)
    exact hfold s.held fun d hd => (h d hd).2
  unfold State.settleClasses
  split
  · rw [if_neg, hagain]
    intro howed
    obtain ⟨-, hany⟩ := Bool.and_eq_true_iff.1 howed
    obtain ⟨d, hd, hclass⟩ := List.any_eq_true.1 hany
    exact (h d hd).1 (by simpa using hclass)
  · exact hagain

/-! ### What the taking of a request leaves alone -/

/-- Whether an access waits at its home depends on the coherence directories alone. -/
theorem Keeps.regionWait_none {l : List Part} {s t : State} (h : Keeps l s t) (hl : .coh ∉ l) {r : Region} {off n : Nat}
    {store : Bool} (hnone : s.regionWait r off n store = none) : t.regionWait r off n store = none := by
  have hcoh : t.coh = s.coh := h .coh hl
  unfold State.regionWait at *
  rw [hcoh]
  split_ifs at hnone ⊢ <;> trivial

theorem Keeps.held {l : List Part} {s t : State} (h : Keeps l s t) (hl : .trn ∉ l ∧ .fab ∉ l) : t.held = s.held := by
  have htrn : t.trn = s.trn := h .trn hl.1
  have hfab : t.fab = s.fab := h .fab hl.2
  have hmine : (fun d => t.owns d || t.twins d) = fun d => s.owns d || s.twins d := by
    funext d
    simp only [State.owns, State.twins, hfab]
  simp only [State.held, htrn, hmine]

/-- The slots held here wait for nothing while neither they nor the directories change. -/
theorem Keeps.slotsWait_none {l : List Part} {s t : State} (h : Keeps l s t)
    (hl : .rgn ∉ l ∧ .coh ∉ l ∧ .trn ∉ l ∧ .fab ∉ l) (hnone : s.slotsWait = none) : t.slotsWait = none := by
  have hrgn : t.rgn = s.rgn := h .rgn hl.1
  unfold State.slotsWait at *
  rw [h.held hl.2.2]
  refine List.findSome?_eq_none_iff.2 fun d hd => ?_
  have hfree := List.findSome?_eq_none_iff.1 hnone d hd
  rw [show t.slotAt d 0 = s.slotAt d 0 by simp only [State.slotAt, hrgn]]
  cases hslot : s.slotAt d 0 with
  | none => rfl
  | some a =>
    rw [hslot] at hfree
    exact h.regionWait_none hl.2.1 hfree

/-- The class of a shard depends on its slots and on the training state (R313). -/
theorem Keeps.classify {l : List Part} {s t : State} (h : Keeps l s t) (hl : .mem ∉ l ∧ .rgn ∉ l ∧ .coh ∉ l) (htrn : .trn ∉ l) :
    t.classify = s.classify := by
  have hread := h.slotRead hl
  have htrn : t.trn = s.trn := h .trn htrn
  have hgred : t.gredComplete = s.gredComplete := by
    funext d slot ring
    simp only [State.gredComplete, State.segRecord, State.gredSeg, hread]
  funext d n
  simp only [State.classify, State.slotHdr, State.slotSeal, hread, htrn, hgred]

/-! ### The bodies of the commands -/

theorem stepSubmitBody_eq {s : State} {q : Req} {p : Plan} (hget : s.pln.get (q.f 0 2) = some p) (hzero : q.zb 2 6 = true)
    (hrest : q.zb 0x10 8 = true) (hring : q.f 8 8 < 2 ^ 48) : stepSubmitBody q s = s.acceptStep q p (q.f 8 8) none := by
  unfold stepSubmitBody
  rw [hget]
  exact if_neg (by simp [hzero, hrest]; omega)

theorem stepReplayBody_eq {s : State} {q : Req} {p : Plan} {r : StepRecord} (hget : s.pln.get (q.f 0 2) = some p)
    (hzero : q.zb 4 4 = true) (hown : q.f 0x10 8 = 0) (hring : q.f 8 8 < 2 ^ 48)
    (hrec : s.stp.recordOf (q.f 8 8) (q.f 2 2) = some r) : stepReplayBody q s = s.acceptStep q p (q.f 8 8) (some r.bytes) := by
  have hsource : s.replaySource (q.f 8 8) (q.f 2 2) (q.f 0x10 8) = .ok (r.bytes, s) := by
    unfold State.replaySource
    rw [if_pos hown, hrec]
  unfold stepReplayBody
  rw [hget]
  dsimp only
  rw [if_neg (by simp [hzero]; omega), hsource]

/-! ### The statement -/

/-- A command that queues a step answers ACCEPTED. -/
theorem IsServed.take_accepts {s : State} {k : SlotId} {op : Nat} {body : Req → State → State × Resp} {p : Plan} {n : Nat}
    {src : Option Bytes} (h : IsServed s k op) (hwf : s.mbx.cells.wf = true)
    (hbody : body (s.asks k) (s.taken k) = ((s.taken k).withQueued (s.asks k) p n src, rcode cACCEPTED)) :
    Replied s (s.take k (·.opcode == op) body) k cACCEPTED []
      ∧ Keeps [.mbx] ((s.taken k).withQueued (s.asks k) p n src) (s.take k (·.opcode == op) body)
      ∧ Keeps [.mbx, .aon, .stp, .gld] s (s.take k (·.opcode == op) body) := by
  obtain ⟨hreplied, hkeeps⟩ := h.take_replied hwf hbody (by decide) rfl
  have hqueued := (s.taken k).withQueued_keeps (s.asks k) p n src
  exact ⟨hreplied, hkeeps,
    ((s.taken_keeps k).mono (by decide)).trans ((hqueued.mono (by decide)).trans (hkeeps.mono (by decide)))⟩

/-- Settles O40: with a step queued either command only answers BUSY, and otherwise the checks of R331 pass one after the other
and the step is queued. -/
theorem stepsAccepted : Obligations.StepsAccepted := by
  unfold Obligations.StepsAccepted
  rintro s k q p n hInv rfl hget rfl hring
  have hhandle := Pln.get_handle hget
  refine ⟨fun hserved hzero hrest => ?_, fun r hserved hzero hown hrec => ?_⟩
  · have hbody := stepSubmitBody_eq (s := s.taken k) hget hzero hrest hring
    refine ⟨fun hfree hacc hready hmembers => ?_, fun hbusy => ?_⟩
    · have haccepted : StepAccepted (s.taken k) p ((s.asks k).f 8 8) := ⟨hfree, hacc, hready, hmembers⟩
      obtain ⟨hreplied, hkeeps, hframe⟩ :=
        hserved.take_accepts hInv.mbx (hbody.trans (State.acceptStep_submits haccepted (s.asks k)))
      have hstp : (s.take k (·.opcode == 0x0303) stepSubmitBody).stp = _ := hkeeps .stp (by decide)
      refine ⟨_, _, rfl, hreplied, congrArg Stp.queued hstp, rfl, hhandle, rfl, Int.toNat_natCast _, rfl, rfl, rfl,
        (congrArg Stp.active hstp :), ?_, ?_, hframe⟩
      · rw [hstp]
        exact State.withQueued_word _ _ _ _ _
      · rw [hstp]
        exact State.withQueued_attempts _ _ _ _ _
    · exact ⟨_, rfl, hserved.take_onlyReplies hInv.mbx
        (hbody.trans (State.acceptStep_busy (s := s.taken k) hbusy _ _ _ _)) (by decide)⟩
  · have hbody := stepReplayBody_eq (s := s.taken k) hget hzero hown hring hrec
    refine ⟨fun hfree hnext hacc hready hmembers hslots hclasses => ?_, fun hbusy => ?_⟩
    · have haccepted : StepAccepted (s.taken k) p ((s.asks k).f 8 8) := ⟨hfree, hacc, hready, hmembers⟩
      have htaken := s.taken_keeps k
      have hsettled : (s.taken k).settleClasses ((s.asks k).f 8 8) = s.taken k := by
        refine State.settleClasses_settled ?_
        rw [htaken.classify (by decide) (by decide), htaken.held (by decide)]
        exact hclasses
      obtain ⟨hreplied, hkeeps, hframe⟩ := hserved.take_accepts hInv.mbx (hbody.trans
        (State.acceptStep_replays haccepted hnext (htaken.slotsWait_none (by decide) hslots) hsettled (s.asks k) r.bytes))
      have hstp : (s.take k (·.opcode == 0x0304) stepReplayBody).stp = _ := hkeeps .stp (by decide)
      refine ⟨_, _, rfl, hreplied, congrArg Stp.queued hstp, rfl, hhandle, rfl, Int.toNat_natCast _, rfl,
        State.acceptedStep_fromAttempt _ _ _ _ _, rfl, rfl, ?_, hframe⟩
      rw [hstp]
      exact State.withQueued_word _ _ _ _ _
    · exact ⟨_, rfl, hserved.take_onlyReplies hInv.mbx
        (hbody.trans (State.acceptStep_busy (s := s.taken k) hbusy _ _ _ _)) (by decide)⟩

end Sys2Proof.Machine
end

section
/-! SUPPORT. SHARD_REPAIR and REFEREE_FETCH: the command in progress ends, a twin's slot replaces the committed one, and requests for
a shard's copies are answered or held back (R315, R345, R354, R529). -/

namespace Sys2Proof.Machine

/-! ### The command in progress ends -/

theorem serveUndefined_prog : ∀ (n : Nat) (s : State), (serveUndefined n s).mbx.prog = s.mbx.prog := by
  intro n
  induction n with
  | zero => exact fun _ => rfl
  | succ n ih =>
    intro s
    unfold serveUndefined
    split
    · rfl
    · split
      · dsimp only
        split
        · rfl
        · exact ih _
      · rfl

/-- The command in progress ends with its reply, and none is in progress (R510). -/
theorem State.finishProg_ends {s : State} {p : Prog} (hprog : s.mbx.prog = some p) (hwf : s.mbx.cells.wf = true)
    (hlatch : p.slot ∉ s.mbx.latch) (code : Nat) (d : Bytes) :
    Keeps [.mbx] s (s.finishProg code d) ∧ (s.finishProg code d).mbx.prog = none
      ∧ (s.finishProg code d).mbx.cells.read (slotBase p.slot + 0x38) = 0#8
      ∧ (s.finishProg code d).mbx.cells.read (slotBase p.slot + 0x800) = BitVec.ofNat 8 code := by
  let u : State := ({ s with mbx := { s.mbx with prog := none } }).reply p.slot p.tag code d
  have heq : s.finishProg code d = u.drainUndefined := by
    unfold State.finishProg
    rw [hprog]
  have hread : ∀ a, u.mbx.cells.read a = _ := fun a =>
    Mbx.putReply_read (m := { s.mbx with prog := none }) hwf p.slot p.tag (statusWord s.att code) a d
  obtain ⟨-, hsame⟩ := serveUndefined_sameSlot (k := p.slot) u.mbx.latch.length u (Mbx.putReply_wf hwf _ _ _ _) hlatch
  rw [heq]
  refine ⟨Keeps.trans (.of_patch rfl) u.drainUndefined_keeps, serveUndefined_prog _ _, ?_, ?_⟩
  · calc u.drainUndefined.mbx.cells.read (slotBase p.slot + 0x38) = u.mbx.cells.read (slotBase p.slot + 0x38) :=
          hsame _ (by omega) (by omega)
      _ = 0#8 := by rw [hread, if_pos rfl]
  · calc u.drainUndefined.mbx.cells.read (slotBase p.slot + 0x800) = u.mbx.cells.read (slotBase p.slot + 0x800) :=
          hsame _ (by omega) (by omega)
      _ = BitVec.ofNat 8 (statusWord s.att code) := by
          rw [hread, if_neg (by omega), if_neg (by omega), if_pos (by omega), Nat.sub_self]
          rfl
      _ = BitVec.ofNat 8 code := statusWord_code _ _

/-! ### Events on the slots -/

/-- An event whose slots wait for nothing takes effect. -/
theorem State.onSlots_none {s : State} (h : s.slotsWait = none) (f : State → State) : s.onSlots f = f s := by
  unfold State.onSlots
  rw [h]

theorem exec_refereeFetch_request {s : State} (hpow : s.powered = true) (hslots : s.slotsWait = none) (src shard ring : Nat) :
    exec (.refereeFetch (.request src shard ring)) s = .next (s.takeFetch src shard ring) :=
  congrArg Host.Outcome.next ((State.onSlots_none hslots _).trans (if_neg (by simp [hpow])))

/-- The data of a shard held here are for its repair. -/
theorem exec_refereeFetch_data {s : State} {shard : Nat} {d : ShardDef} (hpow : s.powered = true) (hslots : s.slotsWait = none)
    (hshard : s.trn.shard shard = some d) (hheld : s.owns d = true ∨ s.twins d = true) (src ring : Nat) (b ctl g : Bytes)
    (z : BitVec 64) :
    exec (.refereeFetch (.data src shard ring b ctl g z)) s = .next (s.repairData d ring b).serveFetches := by
  refine congrArg Host.Outcome.next ((State.onSlots_none hslots _).trans ((if_neg (by simp [hpow])).trans ?_))
  dsimp only
  rw [hshard]
  exact if_pos (by simpa using hheld)

/-- The step with a mismatch of a shard noted in its disputes (R354). -/
def Step.mismatch (shard : Nat) (st : Step) : Step :=
  { st with disputes := st.disputes.map fun x => if x.1 = shard then (shard, 1) else x }

theorem exec_refereeFetch_mismatch {s : State} {shard : Nat} (hpow : s.powered = true) (hslots : s.slotsWait = none)
    (hdisputed : s.disputed shard = true) :
    exec (.refereeFetch (.result shard none)) s = .next (s.onStep (Step.mismatch shard)) := by
  refine congrArg Host.Outcome.next ((State.onSlots_none hslots _).trans ((if_neg (by simp [hpow])).trans ?_))
  exact if_neg (by simp [hdisputed])

/-! ### SHARD_REPAIR -/

/-- SHARD_REPAIR of a shard whose other twin can be reached asks it, and waits (R529). -/
theorem exec_shardRepair {s : State} {k : SlotId} {d : ShardDef} {me o : Nat} (hserved : IsServed s k 0x0404)
    (hbits : (s.asks k).rz 0 4 31 20 = true) (hzero : (s.asks k).zb 4 4 = true)
    (hshard : s.trn.shard (bits ((s.asks k).f 0 4) 19 0) = some d) (howns : s.ownsShard d = true)
    (htwin : s.otherTwin d = some o) (hidle : s.stepActive = false) (hreach : s.fab.unreachable o = false)
    (haddr : s.fab.addr = some me) :
    exec (.shardRepair k) s = .next { (s.taken k).emit (.referee o (.request me d.shard s.topRing)) with
      mbx := { s.mbx.unlatch k with prog := some ⟨k, (s.asks k).tag, .shardRepair d.shard, false⟩ } } := by
  have hask : (s.taken k).askTwin d o = (s.taken k).emit (.referee o (.request me d.shard s.topRing)) := by
    unfold State.askTwin
    rw [show (s.taken k).fab.addr = some me from haddr]
    rfl
  refine congrArg Host.Outcome.next (hserved.take_waits ?_)
  dsimp only
  rw [if_neg (by simp [hbits, hzero]), show (s.taken k).trn.shard (bits ((s.asks k).f 0 4) 19 0) = some d from hshard,
    Option.filter_some_pos (show (s.taken k).ownsShard d = true from howns)]
  dsimp only
  rw [show (s.taken k).otherTwin d = some o from htwin]
  dsimp only
  rw [if_neg (by rw [show (s.taken k).stepActive = false from hidle]; decide),
    if_neg (by rw [show (s.taken k).fab.unreachable o = false from hreach]; decide), hask]
  rfl

/-! ### The twin's slot arrives -/

/-- The committed slot of a shard holds a ring again, and the shard is not lost. -/
def State.restored (s : State) (d : ShardDef) (ring slot : Nat) : State :=
  { s with trn := { s.trn with
      sel := s.trn.sel.set d.shard ⟨ring, true, slot⟩
      lost := s.trn.lost.filter (· != d.shard) } }

/-- A good slot that comes for SHARD_REPAIR replaces the committed one, and the command ends OK (R529). -/
theorem State.repairData_restores {s : State} {d : ShardDef} {p : Prog} {b : Bytes} (hprog : s.mbx.prog = some p)
    (hwork : p.work = .shardRepair d.shard) (hintact : d.intactIn b s.topRing = true) (hlen : b.length = d.slotBytes) :
    s.repairData d s.topRing b
      = ((s.slotWrite d (s.trn.committed d) 0 b).fence.restored d s.topRing (s.trn.committed d)).finishProg cOK [] := by
  obtain ⟨slot, tag, work, lost⟩ := p
  obtain rfl : work = _ := hwork
  unfold State.repairData
  simp only [hprog, hintact, hlen, beq_self_eq_true, Bool.and_self, if_true, Bool.not_true, Bool.false_eq_true, if_false]
  rfl

theorem refereeFetch_repairs {s : State} {src shard key : Nat} {d : ShardDef} {p : Prog} {b ctl g : Bytes} {z : BitVec 64}
    (hInv : s.Inv) (hpow : s.powered = true) (hshard : s.trn.shard shard = some d) (howns : s.owns d = true)
    (hprog : s.mbx.prog = some p) (hwork : p.work = .shardRepair d.shard) (hlatch : p.slot ∉ s.mbx.latch)
    (hintact : d.intactIn b s.topRing = true) (hlen : b.length = d.slotBytes) (hkey : s.SlotKey d (s.trn.committed d) key)
    (hslots : s.slotsWait = none) (hfetches : s.trn.fetches = []) :
    ∃ t, exec (.refereeFetch (.data src shard s.topRing b ctl g z)) s = .next t
      ∧ t.trn.selOf d.shard = ⟨s.topRing, true, s.trn.committed d⟩ ∧ Stores s key b t ∧ t.mbx.prog = none
      ∧ t.mbx.cells.read (slotBase p.slot + 0x38) = 0#8 ∧ t.mbx.cells.read (slotBase p.slot + 0x800) = BitVec.ofNat 8 cOK := by
  have hexec := exec_refereeFetch_data hpow hslots hshard (.inl howns) src s.topRing b ctl g z
  rw [State.repairData_restores hprog hwork hintact hlen] at hexec
  have hstore : Stores s key b (s.slotWrite d (s.trn.committed d) 0 b) := hkey.write hInv.sound 0 b
  have hwrite := s.slotWrite_keeps d (s.trn.committed d) 0 b
  generalize s.slotWrite d (s.trn.committed d) 0 b = v at hexec hstore hwrite
  have hvmbx : v.mbx = s.mbx := hwrite .mbx (by decide)
  have hvtrn : v.trn = s.trn := hwrite .trn (by decide)
  have hdata : SameData v (v.fence.restored d s.topRing (s.trn.committed d)) := ⟨rfl, rfl, rfl, rfl⟩
  have hwmbx : (v.fence.restored d s.topRing (s.trn.committed d)).mbx = s.mbx := hvmbx
  have hwrgn : (v.fence.restored d s.topRing (s.trn.committed d)).rgn = v.rgn := rfl
  have hwtrn : (v.fence.restored d s.topRing (s.trn.committed d)).trn.selOf d.shard = ⟨s.topRing, true, s.trn.committed d⟩
      ∧ (v.fence.restored d s.topRing (s.trn.committed d)).trn.fetches = [] := by
    refine ⟨?_, (congrArg Trn.fetches hvtrn).trans hfetches⟩
    show (v.trn.sel.set d.shard _).getD d.shard _ = _
    rw [AL.getD, AL.get_set_same, Option.getD_some]
  generalize v.fence.restored d s.topRing (s.trn.committed d) = w at hexec hdata hwmbx hwrgn hwtrn
  obtain ⟨hkeeps, hnone, hown, hcode⟩ :=
    State.finishProg_ends (hwmbx ▸ hprog) (hwmbx ▸ hInv.mbx) (hwmbx ▸ hlatch) cOK []
  have htrn : (w.finishProg cOK []).trn = w.trn := hkeeps .trn (by decide)
  have hrgn : (w.finishProg cOK []).rgn = w.rgn := hkeeps .rgn (by decide)
  rw [State.serveFetches_none (by rw [htrn, hwtrn.2])] at hexec
  exact ⟨_, hexec, by rw [htrn, hwtrn.1],
    hstore.trans_data (hdata.trans (hkeeps.sameData (by decide))) (by rw [hrgn, hwrgn]; exact .refl _), hnone, hown, hcode⟩

/-! ### Requests for a shard's copies -/

/-- A request for a ring that the shard has not reached is held back (R345). -/
theorem State.takeFetch_later {s : State} {shard ring : Nat} {d : ShardDef} (hshard : s.trn.shard shard = some d)
    (hheld : s.owns d = true ∨ s.twins d = true) (hring : (s.trn.selOf shard).ring < ring) (src : Nat) :
    s.takeFetch src shard ring = { s with trn := { s.trn with
      fetches := s.trn.fetches.filter (· != (src, shard, ring)) ++ [(src, shard, ring)] } } := by
  unfold State.takeFetch
  rw [hshard]
  dsimp only
  rw [if_neg (by rw [Bool.or_eq_true_iff.2 hheld]; decide), if_pos hring]

theorem Trn.shard_id {t : Trn} {id : Nat} {d : ShardDef} (h : t.shard id = some d) : d.shard = id := by
  simpa using List.find?_some h

/-- A request for a ring that the shard has reached is answered with its copies (R354). -/
theorem State.takeFetch_answers {s : State} {shard ring me : Nat} {d : ShardDef} (hshard : s.trn.shard shard = some d)
    (hheld : s.owns d = true ∨ s.twins d = true) (haddr : s.fab.addr = some me) (hring : ring ≤ (s.trn.selOf shard).ring)
    (hcommitted : s.slotPoison d (s.trn.committed d) 0 d.slotBytes = false)
    (hpending : s.slotPoison d (s.trn.pending d) 0 d.mOff = false) (src : Nat) :
    s.takeFetch src shard ring = s.emit (.referee src (.data me shard (s.trn.selOf shard).ring (s.wholeSlot d (s.trn.committed d))
      (s.slotRead d (s.trn.pending d) 0 d.gredOff) (s.slotRead d (s.trn.pending d) d.gredOff (2 * d.params))
      (BitVec.ofNat 64 (fld (s.slotRead d (s.trn.pending d) 64 64) 0x10 8)))) := by
  have hid := Trn.shard_id hshard
  unfold State.takeFetch
  rw [hshard]
  dsimp only
  rw [if_neg (by rw [Bool.or_eq_true_iff.2 hheld]; decide), if_neg (by omega)]
  unfold State.answerFetch
  rw [haddr]
  dsimp only
  rw [if_neg (by simp [hcommitted, hpending]), hid]

/-! ### The referee's verdict -/

theorem Step.mismatch_disputes {shard : Nat} {st : Step} (h : (shard, 0) ∈ st.disputes) :
    (shard, 1) ∈ (st.mismatch shard).disputes ∧ ∀ x ∈ (st.mismatch shard).disputes, x.1 = shard → x.2 = 1 := by
  refine ⟨List.mem_map.2 ⟨_, h, if_pos rfl⟩, fun x hx hshard => ?_⟩
  obtain ⟨y, -, rfl⟩ := List.mem_map.1 hx
  split at hshard
  · rename_i hy
    rw [if_pos hy]
  · contradiction

/-- Settles O43: the command asks and waits, the twin's good slot is stored over the committed one before the command ends, a request
for copies is answered or held back by the shard's ring, and a mismatch stays with the step's disputes. -/
theorem shardsRepaired : Obligations.ShardsRepaired := by
  unfold Obligations.ShardsRepaired
  refine ⟨?_, ?_, ?_, ?_⟩
  · intro s k d me o _ hserved hbits hzero hshard howns htwin hidle hreach haddr
    exact ⟨_, exec_shardRepair hserved hbits hzero hshard howns htwin hidle hreach haddr, rfl, rfl, .of_patch rfl⟩
  · intro s src shard d p r o b ctl g z hInv hpow hshard howns hprog hwork hlatch hintact hlen hslot hkind hslots hfetches
    obtain ⟨t, hexec, hsel, hstores, hnone, hown, hcode⟩ := refereeFetch_repairs (src := src) (ctl := ctl) (g := g) (z := z) hInv
      hpow hshard howns hprog hwork hlatch hintact hlen ⟨r, o, hslot, hkind, rfl⟩ hslots hfetches
    refine ⟨t, hexec, hsel, fun i hi => ?_, ?_, hnone, hown, hcode⟩
    · rw [hstores.bytes, if_pos (by omega), Nat.add_sub_cancel_left]
    · exact (hstores.rewrites fun a hlo hhi => ⟨hlo, by omega⟩).bytes
  · intro s src shard ring me d hpow hshard hheld haddr hslots
    have hexec := exec_refereeFetch_request hpow hslots src shard ring
    refine ⟨fun hlater => ?_, fun hreached hcommitted hpending => ?_⟩
    · rw [State.takeFetch_later hshard hheld hlater] at hexec
      exact ⟨_, hexec, by simp, rfl, s.trnOnly_keeps _⟩
    · rw [State.takeFetch_answers hshard hheld haddr hreached hcommitted hpending] at hexec
      exact ⟨_, hexec, s.emit_keeps _, rfl⟩
  · intro s shard hpow hdisputed hslots
    refine ⟨_, exec_refereeFetch_mismatch hpow hslots hdisputed, s.onStep_keeps _, fun st hact => ⟨st.mismatch shard, ?_, ?_⟩⟩
    · simp only [State.onStep, hact, Option.map_some]
    · refine Step.mismatch_disputes ?_
      simp only [State.disputed, hact, Bool.and_eq_true] at hdisputed
      simpa using hdisputed.2

end Sys2Proof.Machine
end

section
/-! SUPPORT. Messages of the verdict's context: a verdict becomes whole, waits until it can be combined, and moves on along its axis
(R338, R339, R341, R419). -/

namespace Sys2Proof.Machine

/-! ### Where nothing more can move -/

/-- Nothing more of the verdict can move, no hold is owed, no notice releases the step, and no request for copies waits. -/
structure State.Rests (s : State) : Prop where
  moves : s.verdictMove = none
  owed : s.owedHold = s
  heeds : s.heedNotices = s
  fetches : s.trn.fetches = []

/-- A step waits for nothing that has come: its verdict has been sent on, or has been decided, and it has voted or has no reason
to hold. -/
def State.StepWaits (s : State) (st : Step) : Prop :=
  (∀ r, st.vround = some r → r.sent = true ∧ s.stp.waitVerdict = []) ∧ (st.st = .voted ∨ s.stp.notices = [] ∧ st.holdCode = 0)

/-- A verdict that has been sent on, or decided, does not move while no message waits. -/
theorem State.verdictMove_none {s : State}
    (h : ∀ st, s.stp.active = some st → ∀ r, st.vround = some r → r.sent = true ∧ s.stp.waitVerdict = []) : s.verdictMove = none := by
  unfold State.verdictMove
  split
  · rename_i st me hact haddr
    split
    · rfl
    · rename_i r hr
      obtain ⟨hsent, hwait⟩ := h st hact r hr
      dsimp only
      rw [if_pos hsent, hwait]
      rfl
  · rfl

theorem State.rests {s : State} (h : ∀ st, s.stp.active = some st → s.StepWaits st) (hfetches : s.trn.fetches = []) : s.Rests := by
  refine ⟨State.verdictMove_none fun st hact => (h st hact).1, ?_, ?_, hfetches⟩
  · unfold State.owedHold
    split
    · rename_i st hact
      obtain ⟨-, hvoted | ⟨-, hcode⟩⟩ := h st hact
      · rw [if_neg (by simp [hvoted])]
      · rw [if_neg (by simp [hcode])]
    · rfl
  · unfold State.heedNotices
    split
    · rfl
    · rename_i st hact
      obtain ⟨-, hvoted | ⟨hnotices, -⟩⟩ := h st hact
      · rw [if_neg (by simp [hvoted])]
      · rw [if_neg (by simp [hnotices])]

/-- A device with no active step rests. -/
theorem State.rests_idle {s : State} (h : s.stp.active = none) (hfetches : s.trn.fetches = []) : s.Rests :=
  State.rests (fun st hact => by rw [h] at hact; cases hact) hfetches

/-! ### A verdict that is whole -/

/-- The device keeps other parts of verdicts that are not whole. -/
def State.withParts (s : State) (ps : List VerdictMsg) : State := { s with stp := { s.stp with partVerdicts := ps } }

/-- A whole verdict waits until it can be combined. -/
def State.keepVerdict (s : State) (m : VerdictMsg) : State :=
  { s with stp := { s.stp with waitVerdict := s.stp.waitVerdict ++ [m] } }

theorem State.withParts_keeps (s : State) (ps : List VerdictMsg) : Keeps [.stp] s (s.withParts ps) := .of_patch rfl

theorem State.keepVerdict_keeps (s : State) (m : VerdictMsg) : Keeps [.stp] s (s.keepVerdict m) := .of_patch rfl

theorem State.keepVerdict_waits (s : State) (h : s.stp.waitVerdict = []) (m : VerdictMsg) :
    (s.keepVerdict m).stp.waitVerdict = [m] := congrArg (· ++ [m]) h

/-- A whole verdict that cannot move on waits. -/
theorem State.hearVerdict_waits {s : State} {m : VerdictMsg} (h : (s.keepVerdict m).Rests) : s.hearVerdict m = s.keepVerdict m := by
  show (verdictMoves 8 (s.keepVerdict m)).owedHold.heedNotices.serveFetches = _
  rw [verdictMoves_waits h.moves, h.owed, h.heeds, State.serveFetches_none h.fetches]

/-- A whole verdict that moves once moves no further where the device then rests. -/
theorem State.hearVerdict_moves {s t : State} {m : VerdictMsg} (hmove : (s.keepVerdict m).verdictMove = some t) (h : t.Rests) :
    s.hearVerdict m = t := by
  have hmoves : verdictMoves 8 (s.keepVerdict m) = t := by
    rw [verdictMoves, hmove]
    exact verdictMoves_waits h.moves 7
  show (verdictMoves 8 (s.keepVerdict m)).owedHold.heedNotices.serveFetches = _
  rw [hmoves, h.owed, h.heeds, State.serveFetches_none h.fetches]

/-! ### The event -/

/-- A verdict of an earlier ring or round raises FAULT attention and holds (R338). -/
theorem exec_verdictMessage_stale {s : State} {v : Verdict} (hpow : s.powered = true) (hslots : s.slotsWait = none)
    (hstale : s.verdictStale v = true) (axis : Axis) (bcast : Bool) (src : Nat) :
    exec (.verdictMessage (.verdict axis bcast src v)) s
      = .next ((s.raise aFAULT cINTERNAL noTag (unitField uFloor 0 0) 0).localHold cINTERNAL) :=
  congrArg Host.Outcome.next ((State.onSlots_none hslots _).trans ((if_neg (by simp [hpow])).trans (if_pos hstale)))

/-- A verdict of round 0 waits for its watch list (R341). -/
theorem exec_verdictMessage_first {s : State} {v : Verdict} (hpow : s.powered = true) (hslots : s.slotsWait = none)
    (hstale : s.verdictStale v = false) (hround : v.round = 0) (axis : Axis) (bcast : Bool) (src : Nat) :
    exec (.verdictMessage (.verdict axis bcast src v)) s
      = .next (s.withParts (s.stp.partVerdicts ++ [⟨axis, bcast, src, v, []⟩])) :=
  congrArg Host.Outcome.next ((State.onSlots_none hslots _).trans
    ((if_neg (by simp [hpow])).trans ((if_neg (by simp [hstale])).trans (if_pos hround))))

/-- A part of a watch list joins its verdict; the last one makes it whole (R341, R419). -/
theorem exec_verdictMessage_watch {s : State} {y : VerdictMsg} (hpow : s.powered = true) (hslots : s.slotsWait = none)
    (hparts : s.stp.partVerdicts = [y]) (es : List WatchEntry) (last : Bool) :
    exec (.verdictMessage (.watch y.axis y.bcast y.src es last)) s
      = .next (if last then (s.withParts []).hearVerdict { y with watch := y.watch ++ es }
        else s.withParts [{ y with watch := y.watch ++ es }]) := by
  have hfind : s.stp.partVerdicts.find? (fun x => x.axis == y.axis && x.bcast == y.bcast && x.src == y.src) = some y := by
    rw [hparts, List.find?_cons_of_pos (by simp)]
  have hrest : s.stp.partVerdicts.erase y = [] := by rw [hparts, List.erase_cons_head]
  refine congrArg Host.Outcome.next ((State.onSlots_none hslots _).trans ((if_neg (by simp [hpow])).trans ?_))
  dsimp only
  rw [hfind]
  dsimp only
  rw [hrest]
  rfl

/-- A message that makes a verdict whole has it heard. -/
theorem exec_verdictMessage_heard {s : State} {x : VerdictPart} {m : VerdictMsg} (hpow : s.powered = true)
    (hslots : s.slotsWait = none) (hwhole : Completes s x m) (hstale : s.verdictStale m.v = false) :
    ∃ ps, exec (.verdictMessage x) s = .next ((s.withParts ps).hearVerdict m) := by
  obtain ⟨axis, bcast, src, v, watch⟩ := m
  obtain ⟨hround, hwatch, rfl⟩ | ⟨y, es, hparts, hm, rfl⟩ := hwhole
  · obtain rfl : watch = [] := hwatch
    exact ⟨s.stp.partVerdicts, congrArg Host.Outcome.next ((State.onSlots_none hslots _).trans
      ((if_neg (by simp [hpow])).trans ((if_neg (by simp [hstale])).trans (if_neg hround))))⟩
  · have hexec := exec_verdictMessage_watch hpow hslots hparts es true
    rw [if_pos rfl, ← hm] at hexec
    obtain ⟨rfl, rfl, rfl⟩ : axis = y.axis ∧ bcast = y.bcast ∧ src = y.src := by
      simp only [VerdictMsg.mk.injEq] at hm
      exact ⟨hm.1, hm.2.1, hm.2.2.1⟩
    exact ⟨[], hexec⟩

/-- A verdict of the active step's ring and round is not stale. -/
theorem State.verdictStale_current {s : State} {st : Step} {v : Verdict} (hact : s.stp.active = some st) (hring : v.ring = st.ring)
    (hround : v.round = st.round) : s.verdictStale v = false := by
  unfold State.verdictStale
  rw [hact]
  simp [hring, hround]

theorem State.verdictStale_idle {s : State} (h : s.stp.active = none) (v : Verdict) :
    s.verdictStale v = decide (v.ring ≤ s.deviceRing) := by
  unfold State.verdictStale
  rw [h]

/-! ### Moves -/

/-- The only message that waits is the one that the step's round is waiting for. -/
structure Awaited (s : State) (st : Step) (r : VRound) (me : Nat) (bcast : Bool) (m : VerdictMsg) : Prop where
  active : s.stp.active = some st
  addr : s.fab.addr = some me
  vround : st.vround = some r
  waits : s.stp.waitVerdict = [m]
  axis : m.axis = r.axis
  dir : m.bcast = bcast
  ring : m.v.ring = st.ring
  round : m.v.round = r.round

theorem Awaited.find {s : State} {st : Step} {r : VRound} {me : Nat} {bcast : Bool} {m : VerdictMsg} (h : Awaited s st r me bcast m) :
    s.stp.waitVerdict.find? (fun m => m.axis == r.axis && m.bcast == bcast && m.v.ring == st.ring && m.v.round == r.round) = some m := by
  rw [h.waits, List.find?_cons_of_pos (by simp [h.axis, h.dir, h.ring, h.round])]

/-- The broadcast that the step waits for ends its line's round (R339). -/
theorem Awaited.move_broadcast {s : State} {st : Step} {r : VRound} {me : Nat} {m : VerdictMsg} (h : Awaited s st r me true m)
    (hsent : r.sent = true) : s.verdictMove = some ((s.takeVerdict m).endLine me r m.v m.watch) := by
  unfold State.verdictMove
  rw [h.active, h.addr]
  dsimp only
  rw [h.vround]
  dsimp only
  rw [if_pos hsent, h.find]
  rfl

/-- The predecessor's verdict is combined with the device's, and goes on (R338, R339). -/
theorem Awaited.move_combined {s : State} {st : Step} {r : VRound} {me : Nat} {m : VerdictMsg} (h : Awaited s st r me false m)
    (hsent : r.sent = false) (hfirst : chainFirst (s.fab.line me r.axis) me = false) :
    s.verdictMove = some ((s.takeVerdict m).passVerdict me r (m.v.combine r.v) (mergeWatch m.watch r.watch)) := by
  unfold State.verdictMove
  rw [h.active, h.addr]
  dsimp only
  rw [h.vround]
  dsimp only
  rw [if_neg (by simp [hsent]), if_neg (by simp [hfirst]), h.find]
  rfl

/-- A message that is taken as soon as it is kept leaves no trace. -/
theorem State.takeVerdict_kept {s : State} (h : s.stp.waitVerdict = []) (m : VerdictMsg) : (s.keepVerdict m).takeVerdict m = s := by
  have hnone : (s.stp.waitVerdict ++ [m]).erase m = s.stp.waitVerdict := by rw [h, List.nil_append, List.erase_cons_head]
  unfold State.takeVerdict
  rw [show (s.keepVerdict m).stp.waitVerdict = s.stp.waitVerdict ++ [m] from rfl, hnone]
  rfl

/-! ### A predecessor's verdict -/

/-- The verdict of the predecessor is combined with the device's contribution and sent to the successor. -/
theorem verdictMessage_combines {s : State} {x : VerdictPart} {m : VerdictMsg} {st : Step} {r : VRound} {me nx : Nat}
    (hwhole : Completes s x m) (hslots : s.slotsWait = none) (hfetches : s.trn.fetches = []) (hpow : s.powered = true)
    (hact : s.stp.active = some st) (hvoted : st.st = .voted) (hvround : st.vround = some r) (hsent : r.sent = false)
    (hround : r.round = st.round) (haddr : s.fab.addr = some me) (hfirst : chainFirst (s.fab.line me r.axis) me = false)
    (hnext : chainNext (s.fab.line me r.axis) me = some nx) (hwait : s.stp.waitVerdict = []) (haxis : m.axis = r.axis)
    (hdir : m.bcast = false) (hring : m.v.ring = st.ring) (hmround : m.v.round = r.round) :
    ∃ t, exec (.verdictMessage x) s = .next t ∧ t.stp.waitVerdict = []
      ∧ t.out = s.out ++ verdictMsgs nx r.axis false (m.v.combine r.v) (mergeWatch m.watch r.watch) ∧ Keeps [.out, .stp] s t := by
  obtain ⟨ps, hexec⟩ := exec_verdictMessage_heard hpow hslots hwhole (State.verdictStale_current hact hring (hmround.trans hround))
  have hawait : Awaited ((s.withParts ps).keepVerdict m) st r me false m :=
    ⟨hact, haddr, hvround, (s.withParts ps).keepVerdict_waits hwait m, haxis, hdir, hring, hmround⟩
  have hmove := hawait.move_combined hsent hfirst
  rw [State.takeVerdict_kept (s := s.withParts ps) hwait, State.passVerdict, show chainNext ((s.withParts ps).fab.line me r.axis) me = some nx from hnext] at hmove
  have hrests : (((s.withParts ps).standAt r.round r.axis (m.v.combine r.v) (mergeWatch m.watch r.watch) true).emits
      (verdictMsgs nx r.axis false (m.v.combine r.v) (mergeWatch m.watch r.watch))).Rests := by
    refine State.rests (fun st' hact' => ?_) hfetches
    obtain rfl : { st with vround := some ⟨r.round, r.axis, _, _, true⟩ } = st' := by
      simpa [State.standAt, State.onStep, State.withParts, hact] using hact'
    refine ⟨fun r' hr' => ?_, .inl hvoted⟩
    obtain rfl := Option.some.inj hr'
    exact ⟨rfl, hwait⟩
  rw [State.hearVerdict_moves hmove hrests] at hexec
  exact ⟨_, hexec, hwait, rfl, .of_patch rfl⟩

end Sys2Proof.Machine
end

section
/-! SUPPORT. A clip round on shards without a poisoned line in the way: what is written poisons no line and moves no region, so that
every shard held here is recomputed (R223, R305, R306). -/

namespace Sys2Proof.Machine

/-! ### Poison only goes -/

/-- No line is newly poisoned, and the regions are the same but for their heat. -/
structure Fades (s t : State) : Prop where
  poison : ∀ l ∈ t.mem.poison, l ∈ s.mem.poison
  alike : s.rgn.Alike t.rgn

theorem Fades.refl (s : State) : Fades s s := ⟨fun _ hl => hl, .refl _⟩

theorem Fades.trans {s t u : State} (h : Fades s t) (k : Fades t u) : Fades s u :=
  ⟨fun l hl => h.poison l (k.poison l hl), h.alike.trans k.alike⟩

theorem Keeps.fades {l : List Part} {s t : State} (h : Keeps l s t) (hl : .mem ∉ l ∧ .rgn ∉ l) : Fades s t := by
  have hmem : t.mem = s.mem := h .mem hl.1
  have hrgn : t.rgn = s.rgn := h .rgn hl.2
  exact ⟨fun _ hp => hmem ▸ hp, hrgn ▸ .refl _⟩

theorem State.combine_poison {s : State} {line : Nat} {mask : BitVec 64} :
    ∀ l ∈ (s.combine line mask).mem.poison, l ∈ s.mem.poison := by
  intro l hl
  unfold State.combine at hl
  split at hl
  · exact hl
  · dsimp only at hl
    split at hl
    · exact (List.mem_filter.1 hl).1
    · exact hl

theorem State.combineRange_poison {s : State} {lo n : Nat} : ∀ l ∈ (s.combineRange lo n).mem.poison, l ∈ s.mem.poison := by
  intro l hl
  unfold State.combineRange at hl
  split at hl
  · exact hl
  · dsimp only at hl
    split at hl <;> split at hl
    · exact (List.mem_filter.1 hl).1
    · exact (List.mem_filter.1 (State.combine_poison l hl)).1
    · exact (List.mem_filter.1 (State.combine_poison l hl)).1
    · exact (List.mem_filter.1 (State.combine_poison l (State.combine_poison l hl))).1

theorem State.writeKey_fades (s : State) (k : Nat) (d : Bytes) : Fades s (s.writeKey k d) := by
  have hrgn : (s.writeKey k d).rgn = s.rgn := s.writeKey_keeps k d .rgn (by decide)
  refine ⟨fun l hl => ?_, hrgn ▸ .refl _⟩
  let u : State := (s.invalRange k d.length).wakeRange k d.length
  have hwritten : l ∈ u.mem.poison := State.combineRange_poison (s := { u with mem := u.mem.write k d }) l hl
  rw [State.wakeRange_poison] at hwritten
  exact State.cleanRange_poison l hwritten

theorem State.writeRegion_fades (s : State) (r : Region) (off : Nat) (d : Bytes) : Fades s (s.writeRegion r off d) := by
  have hparts : Fades s ((chunksOf off d.length).foldl (State.writePart r) (s, d)).1 :=
    foldl_keeps (P := fun b : State × Bytes => Fades s b.1) (fun b c hb => (hb.trans (b.1.writeKey_fades _ _)).trans
      ((State.placeKey_keeps _ _ _ _ _).fades (by decide))) _ _ (.refl s)
  generalize hu : ((chunksOf off d.length).foldl (State.writePart r) (s, d)).1 = u at hparts
  have habandons : u.rgn.Alike ((chunksOf off d.length).foldl
      (fun g (c : Nat × Nat) => g.writeAbandons r.id (c.1 / pageBytes)) u.rgn) :=
    .foldl (fun g c => g.writeAbandons_alike _ _) _ _
  have heq : s.writeRegion r off d = ({ u with
      rgn := (chunksOf off d.length).foldl (fun g (c : Nat × Nat) => g.writeAbandons r.id (c.1 / pageBytes)) u.rgn }).heatAccess r.id off d.length := by
    rw [← hu]
    rfl
  rw [heq]
  refine ⟨fun l hl => hparts.poison l ?_, ?_⟩
  · rwa [State.heatAccess_mem] at hl
  · exact (hparts.alike.trans habandons).trans (State.heatAccess_alike { u with rgn := _ } _ _ _)

theorem State.slotWrite_fades (s : State) (d : ShardDef) (slot off : Nat) (b : Bytes) : Fades s (s.slotWrite d slot off b) := by
  unfold State.slotWrite
  split
  · exact s.writeRegion_fades _ _ _
  · exact .refl s

theorem State.updateSeg_fades (s : State) (d : ShardDef) (a : AuParams) (c : AuConst) (k : Option Nat) (src dst j : Nat) :
    Fades s (s.updateSeg d a c k src dst j).1 := by
  have hsecond : ∀ (t : State) (off : Nat) (b : Bytes), Fades t (if d.moments = 2 then t.slotWrite d dst off b else t) := by
    intro t off b
    split
    · exact t.slotWrite_fades _ _ _ _
    · exact .refl t
  rw [State.updateSeg_state]
  exact (((s.slotWrite_fades _ _ _ _).trans (hsecond _ _ _)).trans (State.slotWrite_fades _ _ _ _ _)).trans
    (State.slotWrite_fades _ _ _ _ _)

theorem State.recompute_fades (s : State) (d : ShardDef) (a : AuParams) (src dst : Nat) (h : SlotHdr) (mode : Nat)
    (keep : Option Nat) : Fades s (s.recompute d a src dst h mode keep) := by
  unfold State.recompute
  refine Fades.trans ?_ (State.slotWrite_fades _ _ _ _ _)
  refine foldl_keeps (P := fun b : State × Nat × List Nat => Fades s b.1)
    (fun b j hb => hb.trans (State.updateSeg_fades _ _ _ _ _ _ _ _)) _ _ ?_
  exact (State.slotWrite_fades _ _ _ _ _).trans (State.slotWrite_fades _ _ _ _ _)

/-! ### Slots without poison -/

theorem Fades.regionPoison {s t : State} (h : Fades s t) {r r' : Region} (hr : r'.cold = r.cold) {off n : Nat}
    (hnone : s.regionPoison r off n = none) : t.regionPoison r' off n = none := by
  have hchunks : r'.chunks off n = r.chunks off n := by simp only [Region.chunks, Region.key_of_cold hr]
  unfold State.regionPoison at *
  rw [hchunks]
  refine List.findSome?_eq_none_iff.2 fun c hc => List.find?_eq_none.2 fun l hl => ?_
  exact List.find?_eq_none.1 (List.findSome?_eq_none_iff.1 hnone c hc) l (h.poison l hl)

theorem Fades.slotPoisonAt {s t : State} (h : Fades s t) {d : ShardDef} {slot off n : Nat}
    (hnone : s.slotPoisonAt d slot off n = none) : t.slotPoisonAt d slot off n = none := by
  have hslot := State.slotAt_alike h.alike d slot
  unfold State.slotPoisonAt at *
  cases ht : t.slotAt d slot <;> cases hs : s.slotAt d slot <;> rw [ht, hs] at hslot
  case none.none => rfl
  case none.some => cases hslot
  case some.none => cases hslot
  case some.some x y =>
    injection hslot with hslot
    injection hslot with hcold hoff
    rw [hs, Option.bind_some] at hnone
    rw [Option.bind_some, show x.2 = y.2 from hoff]
    exact h.regionPoison hcold hnone

/-- A recomputation that met no poisoned line meets none later. -/
theorem Fades.redoPoison {s t : State} (h : Fades s t) {d : ShardDef} {src dst : Nat} (hnone : s.redoPoison d src dst = none) :
    t.redoPoison d src dst = none := by
  simp only [State.redoPoison, Option.orElse_eq_or, Option.or_eq_none_iff] at *
  obtain ⟨h1, h2, h3, h4, h5⟩ := hnone
  exact ⟨h.slotPoisonAt h1, h.slotPoisonAt h2, h.slotPoisonAt h3, h.slotPoisonAt h4, h.slotPoisonAt h5⟩

/-! ### The clip round -/

/-- No poisoned line stands in the way of a shard's recomputation. -/
def State.Redoes (s : State) (d : ShardDef) : Prop := s.redoPoison d (s.trn.committed d) (s.trn.pending d) = none

theorem Fades.redoes {s t : State} (h : Fades s t) (htrn : t.trn = s.trn) {d : ShardDef} (hd : s.Redoes d) : t.Redoes d := by
  unfold State.Redoes at *
  rw [htrn]
  exact h.redoPoison hd

/-- A shard's part of a clip round: its pending slot is recomputed with the factor, unless a poisoned line stands in the way. -/
def State.clipShard (s : State) (st : Step) (p : Plan) (k : Nat) (d : ShardDef) : State :=
  match p.auOf d.shard, s.slotHdr d (s.trn.pending d) with
  | some op, some h =>
    (match s.redoPoison d (s.trn.committed d) (s.trn.pending d) with
    | some l => s.redoFails d op l
    | none =>
      let keep := ((s.slotSeal d (s.trn.pending d)).map (·.sumsq)).getD 0
      s.recompute d (p.au op) (s.trn.committed d) (s.trn.pending d) { h with round := 1, k := k } st.stamp.toNat (some keep))
  | _, _ => s

theorem State.clipRound_none {s : State} {st : Step} (h : s.pln.get st.plan = none) (k : Nat) : s.clipRound st k = s := by
  unfold State.clipRound
  rw [h]

theorem State.clipRound_some {s : State} {st : Step} {p : Plan} (h : s.pln.get st.plan = some p) (k : Nat) :
    s.clipRound st k = s.held.foldl (fun s d => s.clipShard st p k d) s := by
  unfold State.clipRound
  rw [h]
  rfl

theorem State.clipShard_rewrites {s : State} {d : ShardDef} (h : s.Redoes d) (st : Step) (p : Plan) (k : Nat) :
    Keeps [.mem, .coh, .out, .rgn] s (s.clipShard st p k d) ∧ Fades s (s.clipShard st p k d) := by
  unfold State.clipShard
  rw [show s.redoPoison d (s.trn.committed d) (s.trn.pending d) = none from h]
  split
  · exact ⟨State.recompute_keeps _ _ _ _ _ _ _ _, State.recompute_fades _ _ _ _ _ _ _ _⟩
  · exact ⟨.refl _ s, .refl s⟩

/-- Where no poisoned line stands in the way, a clip round writes slots and nothing else. -/
theorem State.clipRound_rewrites {s : State} (h : ∀ d ∈ s.held, s.Redoes d) (st : Step) (k : Nat) :
    Keeps [.mem, .coh, .out, .rgn] s (s.clipRound st k) := by
  have hfold : ∀ (p : Plan) (l : List ShardDef) (t : State), (∀ d ∈ l, t.Redoes d) →
      Keeps [.mem, .coh, .out, .rgn] t (l.foldl (fun s d => s.clipShard st p k d) t) := by
    intro p l
    induction l with
    | nil => exact fun t _ => .refl _ t
    | cons d l ih =>
      intro t hl
      obtain ⟨hkeeps, hfades⟩ := State.clipShard_rewrites (hl d List.mem_cons_self) st p k
      exact hkeeps.trans (ih _ fun x hx => hfades.redoes (hkeeps .trn (by decide)) (hl x (List.mem_cons_of_mem _ hx)))
  cases hget : s.pln.get st.plan with
  | none =>
    rw [State.clipRound_none hget k]
    exact .refl _ s
  | some p =>
    rw [State.clipRound_some hget k]
    exact hfold p s.held s h

end Sys2Proof.Machine
end

section
/-! SUPPORT. The broadcast of the last axis decides: a commit, a hold or a skip ends the step, a clip or a referee round begins (R307,
R312, R344, R354). -/

namespace Sys2Proof.Machine

/-! ### A step but for its record -/

/-- A step without what its record gathers while it is decided: phases, entries, crossings and disputes. -/
def Step.core (st : Step) : Step := { st.bare with entries := [], crossings := [], disputes := [] }

/-- The steps, the active one without what its record gathers, and no verdicts of the past. -/
def State.coreStp (s : State) : Stp := { s.stp with active := s.stp.active.map Step.core, verdicts := [] }

theorem State.coreStp_of_bare {s t : State} (h : t.bareStp = s.bareStp) : t.coreStp = s.coreStp := by
  have hbare : ∀ u : State, u.coreStp = { u.bareStp with active := u.bareStp.active.map Step.core, verdicts := [] } := by
    intro u
    simp only [State.coreStp, State.bareStp, Option.map_map]
    rfl
  rw [hbare t, h, ← hbare s]

theorem Keeps.coreStp {l : List Part} {s t : State} (h : Keeps l s t) (hl : .stp ∉ l) : t.coreStp = s.coreStp :=
  State.coreStp_of_bare (h.bareStp hl)

theorem State.onStep_core (s : State) {f : Step → Step} (hf : ∀ st, (f st).core = st.core) : (s.onStep f).coreStp = s.coreStp := by
  simp only [State.coreStp, State.onStep, Option.map_map, Function.comp_def, hf]

theorem State.policy_core (s : State) (committed skipped : Bool) : (s.policy committed skipped).1.coreStp = s.coreStp := by
  unfold State.policy
  split
  · rfl
  · split
    · rfl
    · extract_lets p1 p2 s1
      show State.coreStp (if p2.lsExp = p1.lsExp then s1 else s1.addEntry _) = _
      split
      · rfl
      · exact s1.onStep_core fun _ => rfl

/-- The step knows its verdict, which stands on no axis any more. -/
def Step.told (v : Verdict) (st : Step) : Step := { st with vround := none, last := some v }

theorem State.noteVerdict_core (s : State) (st : Step) (v : Verdict) (watch : List WatchEntry) :
    (s.noteVerdict st v watch).coreStp = (s.onStep (Step.told v)).coreStp := by
  have hended : ∀ t : State, t.coreStp = (s.onStep (Step.told v)).coreStp → ∀ i c w ty k u b,
      ((t.phaseEnd i).trace c w ty k u b).coreStp = (s.onStep (Step.told v)).coreStp := fun t ht i _ _ _ _ _ _ =>
    Eq.trans (State.coreStp_of_bare (Eq.trans (State.trace_bare _ _ _ _ _ _ _) (t.phaseEnd_bare i))) ht
  unfold State.noteVerdict
  dsimp only
  split
  · refine Eq.trans (State.onStep_core _ fun _ => rfl) (hended _ ?_ _ _ _ _ _ _ _)
    rfl
  · refine hended _ ?_ _ _ _ _ _ _ _
    rfl

/-- A step stands as the active one but for its record, and neither a message nor a notice waits. -/
structure Stands (y : Step) (s : State) : Prop where
  step : s.stp.active.map Step.core = some y.core
  waits : s.stp.waitVerdict = []
  notices : s.stp.notices = []

theorem Stands.congr {y : Step} {s t : State} (h : Stands y s) (hc : t.coreStp = s.coreStp) : Stands y t :=
  ⟨(congrArg Stp.active hc :).trans h.step, (congrArg Stp.waitVerdict hc :).trans h.waits,
    (congrArg Stp.notices hc :).trans h.notices⟩

theorem Stands.active {y : Step} {s : State} (h : Stands y s) : ∃ x, s.stp.active = some x ∧ x.core = y.core :=
  Option.map_eq_some_iff.1 h.step

theorem State.doneCode_core {s t : State} (h : t.coreStp = s.coreStp) (tag : Nat) : t.stp.doneCode tag = s.stp.doneCode tag := by
  have hwords : t.stp.words = s.stp.words := (congrArg Stp.words h :)
  simp only [Stp.doneCode, hwords]

/-- Steps that differ in their records only are the same attempt. -/
theorem Step.SameAttempt.of_core {x y : Step} (h : x.core = y.core) : x.SameAttempt y :=
  ⟨(congrArg Step.tag h :), (congrArg Step.plan h :), (congrArg Step.ring h :), (congrArg Step.attempt h :),
    (congrArg Step.round h :), (congrArg Step.verdictFree h :), (congrArg Step.lsExp h :)⟩

/-! ### The end of a step -/

/-- A step whose state word is not DONE ends with the code given: its updates are dropped and its attention goes up (R334). -/
theorem State.endStep_spec {s : State} {st : Step} (hact : s.stp.active = some st) (hdone : s.stp.doneCode st.tag = none)
    (code cls : Nat) (lsNext : Int) :
    (s.endStep code cls lsNext).trn = { s.trn with updates := [], referees := [] }
      ∧ (s.endStep code cls lsNext).att = s.att.raise s.aon.tick cls code st.tag st.ring st.attempt := by
  have habort : ∀ u : State, u.abortQueued.trn = u.trn ∧ u.abortQueued.att = u.att ∧ u.abortQueued.aon = u.aon := fun u =>
    have hkeeps := u.abortQueued_keeps
    ⟨hkeeps .trn (by decide), hkeeps .att (by decide), hkeeps .aon (by decide)⟩
  unfold State.endStep
  simp only [hact, hdone, Option.getD_none, State.raise_trn, State.raise_att]
  split
  · exact ⟨rfl, rfl⟩
  · obtain ⟨htrn, hatt, haon⟩ := habort _
    rw [htrn, hatt, haon]
    exact ⟨rfl, rfl⟩

/-- The same for a step that stands as the active one. -/
theorem Stands.ends {y : Step} {s : State} (h : Stands y s) (hdone : s.stp.doneCode y.tag = none) (code cls : Nat) (lsNext : Int) :
    (s.endStep code cls lsNext).trn = { s.trn with updates := [], referees := [] }
      ∧ (s.endStep code cls lsNext).att = s.att.raise s.aon.tick cls code y.tag y.ring y.attempt := by
  obtain ⟨x, hx, hcore⟩ := h.active
  have hsame := Step.SameAttempt.of_core hcore
  have hends := State.endStep_spec hx (hsame.tag ▸ hdone) code cls lsNext
  rwa [hsame.tag, hsame.ring, hsame.attempt] at hends

/-! ### A commit -/

/-- The last value set at a key is found there, where it depends on the key alone. -/
theorem AL.getD_foldl_set {α β : Type} {key : β → Nat} {f : Nat → α} {b : β} (z : α) : ∀ (l : List β) (init : AL α),
    b ∈ l ∨ init.getD (key b) z = f (key b) →
    (l.foldl (fun acc x => acc.set (key x) (f (key x))) init).getD (key b) z = f (key b) := by
  intro l
  induction l with
  | nil =>
    rintro init (hb | hb)
    · cases hb
    · exact hb
  | cons x l ih =>
    intro init hb
    refine ih (init.set (key x) (f (key x))) ?_
    by_cases hx : key x = key b
    · exact .inr (by rw [hx, AL.getD, AL.get_set_same, Option.getD_some])
    · obtain hmem | hset := hb
      · obtain rfl | hmem := List.mem_cons.1 hmem
        · exact absurd rfl hx
        · exact .inl hmem
      · exact .inr (by rw [AL.getD, AL.get_set_ne _ (Ne.symm hx), ← AL.getD, hset])

/-- The training state once a ring is committed: the commit record, the selectors of the shards held here, the residue selector
(R312). -/
def Trn.advanced (g : Trn) (held : List ShardDef) (ring round : Nat) (ls : Int) : Trn :=
  { g with
    commit := some (ring, round)
    sel := held.foldl (fun l d => l.set d.shard ⟨ring, (g.selOf d.shard).valid, 1 - (g.selOf d.shard).slot⟩) g.sel
    resSel := ⟨ring, ls, true, 1 - g.resSel.slot⟩
    ring := ring }

theorem Trn.advanced_selOf {g : Trn} {held : List ShardDef} {d : ShardDef} (hd : d ∈ held) (ring round : Nat) (ls : Int) :
    (g.advanced held ring round ls).selOf d.shard = ⟨ring, (g.selOf d.shard).valid, 1 - (g.selOf d.shard).slot⟩ :=
  AL.getD_foldl_set (key := ShardDef.shard) (f := fun id => (⟨ring, (g.selOf id).valid, 1 - (g.selOf id).slot⟩ : Selector))
    (⟨0, false, 0⟩ : Selector) held g.sel (.inl hd)

/-- Steps 1 to 4 of R312: the training state advances, manifests and formats follow. -/
def State.advanced (s : State) (st : Step) (v : Verdict) : State :=
  let s := (s.phaseStart 8).commitState st.ring v.round st.lsExp []
  { s with
    gld := { s.gld with manifests := s.gld.manifests.filter fun m => decide (st.ring < m.2) }
    pln := s.pln.schedule st.crossings st.ring }

theorem State.commitStep_eq {s : State} {st : Step} (h : s.stp.active = some st) (v : Verdict) :
    s.commitStep v = (((s.advanced st v).policy true false).1.phaseEnd 8).endStep cOK aSTEP_DONE
      ((s.advanced st v).policy true false).2 := by
  unfold State.commitStep
  rw [h]
  rfl

theorem State.advanced_spec (s : State) (st : Step) (v : Verdict) :
    Keeps [.stp, .obs, .mem, .trn, .gld, .pln] s (s.advanced st v) ∧ (s.advanced st v).coreStp = s.coreStp
      ∧ (s.advanced st v).trn = s.trn.advanced s.held st.ring v.round st.lsExp
      ∧ (s.advanced st v).mem = { s.mem with wc := [] } := by
  have hphase := s.phaseStart_keeps 8
  have htrn : (s.phaseStart 8).trn = s.trn := hphase .trn (by decide)
  have hmem : (s.phaseStart 8).mem = s.mem := hphase .mem (by decide)
  refine ⟨(hphase.mono (by decide)).trans (.of_patch rfl), State.coreStp_of_bare (s.phaseStart_bare 8), ?_, ?_⟩
  · show (s.phaseStart 8).trn.advanced (s.phaseStart 8).held st.ring v.round st.lsExp = _
    rw [htrn, hphase.held (by decide)]
  · show { (s.phaseStart 8).mem with wc := [] } = _
    rw [hmem]

/-- The parts that the end of a decided step changes. -/
def decidedParts : List Part := [.out, .stp, .trn, .pln, .gld, .eng, .fab, .att, .obs]

/-- A step that stands as the active one commits (R312). -/
theorem Stands.commits {y : Step} {s : State} (h : Stands y s) (hdone : s.stp.doneCode y.tag = none) (v : Verdict) :
    (s.commitStep v).trn = { s.trn.advanced s.held y.ring v.round y.lsExp with updates := [], referees := [] }
      ∧ (s.commitStep v).att = s.att.raise s.aon.tick aSTEP_DONE cOK y.tag y.ring y.attempt
      ∧ (s.commitStep v).mem = { s.mem with wc := [] } ∧ Keeps (.mem :: decidedParts) s (s.commitStep v) := by
  obtain ⟨x, hx, hcore⟩ := h.active
  have hsame := Step.SameAttempt.of_core hcore
  obtain ⟨hadv, hacore, hatrn, hamem⟩ := s.advanced_spec x v
  let w : State := ((s.advanced x v).policy true false).1.phaseEnd 8
  have hw : Keeps [.pln, .stp, .obs] (s.advanced x v) w :=
    ((State.policy_keeps _ true false).mono (by decide)).trans ((State.phaseEnd_keeps _ 8).mono (by decide))
  have hwcore : w.coreStp = s.coreStp :=
    (State.coreStp_of_bare (State.phaseEnd_bare _ 8)).trans ((State.policy_core _ true false).trans hacore)
  have hwtrn : w.trn = (s.advanced x v).trn := hw .trn (by decide)
  have hwmem : w.mem = (s.advanced x v).mem := hw .mem (by decide)
  have hall : Keeps [.stp, .obs, .mem, .trn, .gld, .pln] s w := hadv.trans (hw.mono (by decide))
  have hend := w.endStep_keeps cOK aSTEP_DONE ((s.advanced x v).policy true false).2
  obtain ⟨htrn, hatt⟩ := (h.congr hwcore).ends ((State.doneCode_core hwcore _).trans hdone) cOK aSTEP_DONE
    ((s.advanced x v).policy true false).2
  rw [State.commitStep_eq hx]
  refine ⟨?_, ?_, ?_, (hall.mono (by decide)).trans (hend.mono (by decide))⟩
  · rw [htrn, hwtrn, hatrn, hsame.ring, hsame.lsExp]
  · rw [hatt, hall .att (by decide), hall .aon (by decide)]
  · rw [show (w.endStep cOK aSTEP_DONE ((s.advanced x v).policy true false).2).mem = w.mem from hend .mem (by decide), hwmem, hamem]

/-! ### A hold or a skip -/

/-- A step that stands as the active one ends without a commit: the training state stays (R307, R356). -/
theorem Stands.endsUncommitted {y : Step} {s : State} (h : Stands y s) (hdone : s.stp.doneCode y.tag = none) (skipped : Bool)
    (code cls : Nat) :
    let t := (s.policy false skipped).1.endStep code cls (s.policy false skipped).2
    t.trn = { s.trn with updates := [], referees := [] } ∧ t.att = s.att.raise s.aon.tick cls code y.tag y.ring y.attempt
      ∧ Keeps decidedParts s t := by
  have hpolicy := s.policy_keeps false skipped
  have hcore := s.policy_core false skipped
  have hend := (s.policy false skipped).1.endStep_keeps code cls (s.policy false skipped).2
  obtain ⟨htrn, hatt⟩ := (h.congr hcore).ends ((State.doneCode_core hcore _).trans hdone) code cls (s.policy false skipped).2
  refine ⟨?_, ?_, (hpolicy.mono (by decide)).trans (hend.mono (by decide))⟩
  · rw [htrn, hpolicy .trn (by decide)]
  · rw [hatt, hpolicy .att (by decide), hpolicy .aon (by decide)]

/-! ### Another round -/

/-- The step in the round that follows, with a clip factor where there is one. -/
def Step.again (k : Option Nat) (st : Step) : Step := { st with round := 1, k := k, st := .running }

theorem State.nextRound_only (s : State) (st : Step) (k : Option Nat) : Keeps [.stp, .obs] s (s.nextRound st k) :=
  (s.phaseStart_keeps 7).trans (.of_patch rfl)

theorem Stands.nextRound {y : Step} {s : State} (h : Stands y s) (st : Step) (k : Option Nat) :
    Stands (y.again k) (s.nextRound st k) := by
  have hphase : Stands y (s.phaseStart 7) := h.congr (State.coreStp_of_bare (s.phaseStart_bare 7))
  obtain ⟨x, hx, hcore⟩ := hphase.active
  have hstarted : Stands (y.again k) ((s.phaseStart 7).onStep (Step.again k)) := by
    refine ⟨?_, hphase.waits, hphase.notices⟩
    simp only [State.onStep, hx, Option.map_some]
    exact congrArg (fun z => some (Step.again k z)) hcore
  have hmoved : ∀ (t : State) (tag : Nat) (w : WordState), Stands (y.again k) t →
      Stands (y.again k) { t with stp := t.stp.moveWord tag w } := by
    intro t tag w ht
    unfold Stp.moveWord
    split
    · exact ht
    · exact ⟨ht.step, ht.waits, ht.notices⟩
  show Stands (y.again k) { s.phaseStart 7 with stp := if st.plan = 0 then ((s.phaseStart 7).onStep (Step.again k)).stp
    else ((s.phaseStart 7).onStep (Step.again k)).stp.moveWord st.tag .running }
  split
  · exact hstarted
  · exact hmoved _ _ _ hstarted

/-- A clip round begins, and no poisoned line stands in its way. -/
theorem Stands.nextClip {y : Step} {s : State} (h : Stands y s) (hredo : ∀ d ∈ s.held, s.Redoes d) (st : Step) (v : Verdict) :
    Stands (y.again (some (fdiv v.clip v.norm))) (s.nextClip st v)
      ∧ Keeps [.out, .stp, .obs, .mem, .coh, .rgn] s (s.nextClip st v) := by
  let w : State := (s.nextRound st (some (fdiv v.clip v.norm))).addEntry
    (recEntry 0x0D (leBytes 4 v.norm ++ leBytes 4 (fdiv v.clip v.norm)))
  have hw : Keeps [.stp, .obs] s w := (s.nextRound_only st _).trans ((State.onStep_keeps _ _).mono (by decide))
  have hstands : Stands (y.again (some (fdiv v.clip v.norm))) w := (h.nextRound st _).congr (State.onStep_core _ fun _ => rfl)
  have hclip : Keeps [.mem, .coh, .out, .rgn] w (s.nextClip st v) := by
    refine State.clipRound_rewrites (fun d hd => (hw.fades (by decide)).redoes (hw .trn (by decide)) (hredo d ?_)) _ _
    rwa [hw.held (by decide)] at hd
  exact ⟨hstands.congr (hclip.coreStp (by decide)), (hw.mono (by decide)).trans (hclip.mono (by decide))⟩

theorem State.refereeRound_trn (s : State) :
    s.refereeRound.trn.sel = s.trn.sel ∧ s.refereeRound.trn.fetches = s.trn.fetches := by
  unfold State.refereeRound
  split <;> exact ⟨rfl, rfl⟩

/-- What a round that follows leaves of a device whose step stood as `y`. -/
structure GoesOn (y : Step) (s t : State) : Prop where
  stands : Stands y t
  sel : t.trn.sel = s.trn.sel
  fetches : t.trn.fetches = s.trn.fetches
  att : t.att = s.att

/-- A round in which nothing but the slots is written leaves the selectors and the attention list. -/
theorem GoesOn.of_keeps {y : Step} {s t : State} {l : List Part} (h : Stands y t) (hk : Keeps l s t) (hl : .trn ∉ l ∧ .att ∉ l) :
    GoesOn y s t := by
  have htrn : t.trn = s.trn := hk .trn hl.1
  exact ⟨h, by rw [htrn], by rw [htrn], hk .att hl.2⟩

/-- The referee's work begins with the round (R354). -/
theorem GoesOn.referees {y : Step} {s t : State} (h : GoesOn y s t) : GoesOn y s t.refereeRound.hopeless := by
  have hround := t.refereeRound_keeps
  obtain ⟨hsel, hfetches⟩ := t.refereeRound_trn
  have hcore : t.refereeRound.hopeless.coreStp = t.coreStp :=
    Eq.trans (State.onStep_core _ fun _ => rfl) (hround.coreStp (by decide))
  refine ⟨h.stands.congr hcore, hsel.trans h.sel, hfetches.trans h.fetches, ?_⟩
  exact (show t.refereeRound.hopeless.att = t.att from hround .att (by decide)).trans h.att

/-- A device whose step runs again, without a reason to hold, rests. -/
theorem GoesOn.rests {y : Step} {s t : State} (h : GoesOn y s t) (hvround : y.vround = none) (hcode : y.holdCode = 0)
    (hfetches : s.trn.fetches = []) : t.Rests := by
  refine State.rests (fun z hz => ?_) (h.fetches.trans hfetches)
  obtain ⟨x, hx, hcore⟩ := h.stands.active
  obtain rfl := Option.some.inj (hx.symm.trans hz)
  have hxround : x.vround = none := (congrArg Step.vround hcore : x.core.vround = y.core.vround).trans hvround
  have hxcode : x.holdCode = 0 := (congrArg Step.holdCode hcore : x.core.holdCode = y.core.holdCode).trans hcode
  exact ⟨fun r hr => (by rw [hxround] at hr; cases hr), .inr ⟨h.stands.notices, hxcode⟩⟩

/-! ### The decision -/

/-- What follows from a verdict that has been told, by the row of R344. -/
def State.decision (s : State) (st : Step) (v : Verdict) : State :=
  match v.rule with
  | .commit => s.commitStep v
  | .skip => (s.policy false true).1.endStep cNONFINITE aSTEP_DONE (s.policy false true).2
  | .hold _ code => (s.policy false false).1.endStep code aSTEP_HELD (s.policy false false).2
  | .clip => s.nextClip st v
  | .referee c => (if c then s.nextClip st v else s.nextRound st none).refereeRound.hopeless

theorem State.decideVerdict_decision {s : State} {st : Step} (h : s.stp.active = some st) (v : Verdict) (watch : List WatchEntry) :
    s.decideVerdict v watch = (s.noteVerdict st v watch).decision st v := by
  rw [State.decideVerdict_eq h]
  unfold State.decision
  cases v.rule <;> rfl

/-- A clip or a referee round begins for a step that stands as the active one. -/
theorem Stands.goesOn {y : Step} {s : State} (h : Stands y s) (st : Step) {v : Verdict} {clip : Bool}
    (hrule : v.rule = .clip ∧ clip = true ∨ v.rule = .referee clip) (hredo : clip = true → ∀ d ∈ s.held, s.Redoes d) :
    GoesOn (y.again (if clip then some (fdiv v.clip v.norm) else none)) s (s.decision st v) := by
  have hclipped : clip = true → GoesOn (y.again (if clip then some (fdiv v.clip v.norm) else none)) s (s.nextClip st v) := by
    intro hclip
    obtain ⟨hstands, hkeeps⟩ := h.nextClip (hredo hclip) st v
    rw [if_pos hclip]
    exact .of_keeps hstands hkeeps (by decide)
  unfold State.decision
  obtain ⟨hrule, hclip⟩ | hrule := hrule
  · rw [hrule]
    exact hclipped hclip
  · rw [hrule]
    dsimp only
    refine GoesOn.referees ?_
    cases clip with
    | true => exact hclipped rfl
    | false => exact .of_keeps (h.nextRound st none) (s.nextRound_only st none) (by decide)

/-- The device has sent its verdict along the last axis, and its broadcast comes whole. -/
structure Deciding (s : State) (x : VerdictPart) (m : VerdictMsg) (st : Step) (r : VRound) (me : Nat) : Prop where
  whole : Completes s x m
  slots : s.slotsWait = none
  fetches : s.trn.fetches = []
  powered : s.powered = true
  active : s.stp.active = some st
  vround : st.vround = some r
  sent : r.sent = true
  last : r.axis = .x
  round : r.round = st.round
  addr : s.fab.addr = some me
  waits : s.stp.waitVerdict = []
  axis : m.axis = .x
  dir : m.bcast = true
  ring : m.v.ring = st.ring
  mround : m.v.round = r.round
  notices : s.stp.notices = []
  done : s.stp.doneCode st.tag = none

/-- The broadcast is told, and what it decides follows (R339, R344). -/
theorem Deciding.exec {s : State} {x : VerdictPart} {m : VerdictMsg} {st : Step} {r : VRound} {me : Nat}
    (h : Deciding s x m st r me) : ∃ n, Keeps [.out, .stp, .obs] s n ∧ Stands (st.told m.v) n ∧ n.stp.doneCode st.tag = none
      ∧ ((n.decision st m.v).Rests → Machine.exec (.verdictMessage x) s = .next (n.decision st m.v)) := by
  obtain ⟨ps, hexec⟩ := exec_verdictMessage_heard h.powered h.slots h.whole
    (State.verdictStale_current h.active h.ring (h.mround.trans h.round))
  have hawait : Awaited ((s.withParts ps).keepVerdict m) st r me true m :=
    ⟨h.active, h.addr, h.vround, (s.withParts ps).keepVerdict_waits h.waits m, h.axis.trans h.last.symm, h.dir, h.ring, h.mround⟩
  have hmove := hawait.move_broadcast h.sent
  rw [State.takeVerdict_kept (s := s.withParts ps) h.waits, State.endLine, h.last] at hmove
  generalize hos : (bcastTargets ((s.withParts ps).fab.line me .x) me).flatMap (fun a => verdictMsgs a .x true m.v m.watch) = os at hmove
  rw [State.decideVerdict_decision (s := (s.withParts ps).emits os) h.active] at hmove
  have hnote := ((s.withParts ps).emits os).noteVerdict_keeps st m.v m.watch
  have hcore := ((s.withParts ps).emits os).noteVerdict_core st m.v m.watch
  refine ⟨((s.withParts ps).emits os).noteVerdict st m.v m.watch, ?_, ?_, ?_, fun hrests => ?_⟩
  · exact Keeps.trans (.of_patch rfl) (hnote.mono (by decide))
  · refine Stands.congr (s := ((s.withParts ps).emits os).onStep (Step.told m.v)) ⟨?_, h.waits, h.notices⟩ hcore
    show (s.stp.active.map (Step.told m.v)).map Step.core = _
    rw [h.active]
    rfl
  · exact (State.doneCode_core hcore st.tag).trans h.done
  · rw [hexec, State.hearVerdict_moves hmove hrests]

end Sys2Proof.Machine
end

section
/-! SUPPORT. Hold notices and the histories of verdicts, and what the messages of the verdict's context do as a whole (R312, R336 to
R344, R355, R419, R634). -/

namespace Sys2Proof.Machine

/-! ### Hold notices -/

/-- A notice is kept, and goes on over every other bundle (R634). -/
def State.hearNotice (s : State) (n : Notice) (bundle : Nat) : State :=
  ({ s with stp := { s.stp with notices := s.stp.notices.filter (fun (x : Notice) => decide (s.deviceRing < x.ring)) ++ [n] } }
    ).floodNotice n.ring n.attempt n.round bundle

theorem State.hearNotice_keeps (s : State) (n : Notice) (bundle : Nat) : Keeps [.out, .stp] s (s.hearNotice n bundle) := .of_patch rfl

theorem exec_holdNotice_known {s : State} {ring attempt round : Nat}
    (h : (⟨ring, attempt, round⟩ : Notice) ∈ s.stp.notices ∨ ring ≤ s.deviceRing) (bundle : Nat) :
    exec (.holdNotice ring attempt round bundle) s = .next s := by
  refine congrArg Host.Outcome.next (if_pos ?_)
  obtain hmem | hring := h
  · simp [hmem]
  · simp [hring]

theorem exec_holdNotice_new {s : State} {ring attempt round : Nat} (hpow : s.powered = true)
    (hnew : (⟨ring, attempt, round⟩ : Notice) ∉ s.stp.notices) (hring : s.deviceRing < ring) (bundle : Nat) :
    exec (.holdNotice ring attempt round bundle) s = .next (s.hearNotice ⟨ring, attempt, round⟩ bundle).heedNotices :=
  congrArg Host.Outcome.next (if_neg (by simp [hpow, hnew, hring]))

theorem State.heedNotices_idle {s : State} (h : s.stp.active = none) : s.heedNotices = s := by
  unfold State.heedNotices
  rw [h]

/-- The vote of a step that a notice releases (R634). -/
def State.releasedVote (s : State) (st : Step) : Verdict := { s.contribution st with hold := 0, holdCode := 0 }

/-- A running step that a notice names stops and votes. -/
theorem State.heedNotices_released {s : State} {st : Step} (hact : s.stp.active = some st) (hrun : st.st = .running)
    (hfree : st.verdictFree = false) (hgoes : st.stopped = false)
    (hnotice : (⟨st.ring, st.attempt, st.round⟩ : Notice) ∈ s.stp.notices) :
    s.heedNotices = s.stopStep.vote (s.releasedVote st) true := by
  have hnamed : (s.stp.notices.any fun n => n.ring == st.ring && n.attempt == st.attempt && n.round == st.round) = true :=
    List.any_eq_true.2 ⟨_, hnotice, by simp⟩
  unfold State.heedNotices
  rw [hact]
  exact if_pos (by simp [hrun, hfree, hgoes, hnamed])

theorem State.stopStep_keeps (s : State) : Keeps [.stp, .eng, .fab, .trn] s s.stopStep := .of_patch rfl

/-- The step that stops is the same attempt. -/
theorem State.stopStep_active {s : State} {st : Step} (h : s.stp.active = some st) :
    ∃ x, s.stopStep.stp.active = some x ∧ x.SameAttempt st :=
  ⟨_, congrArg (Option.map _) h, ⟨rfl, rfl, rfl, rfl, rfl, rfl, rfl⟩⟩

/-- A notice of the active step's round releases it: the device votes without a hold (R634). -/
theorem holdNotice_releases {s : State} {st : Step} (hpow : s.powered = true)
    (hnew : (⟨st.ring, st.attempt, st.round⟩ : Notice) ∉ s.stp.notices) (hring : s.deviceRing < st.ring)
    (hact : s.stp.active = some st) (hrun : st.st = .running) (hfree : st.verdictFree = false) (hgoes : st.stopped = false)
    (hw : voteWaits s) (bundle : Nat) :
    ∃ t v, exec (.holdNotice st.ring st.attempt st.round bundle) s = .next t ∧ hasVoted t st v ∧ v.hold = 0
      ∧ Keeps [.out, .mem, .stp, .eng, .fab, .trn, .obs] s t := by
  have hexec := exec_holdNotice_new hpow hnew hring bundle
  have hheard := s.hearNotice_keeps ⟨st.ring, st.attempt, st.round⟩ bundle
  have hreleased := State.heedNotices_released (s := s.hearNotice ⟨st.ring, st.attempt, st.round⟩ bundle) hact hrun hfree hgoes
    (List.mem_append_right _ List.mem_cons_self)
  have hwu : voteWaits (s.hearNotice ⟨st.ring, st.attempt, st.round⟩ bundle) := voteWaits_congr hw rfl rfl rfl
  rw [hreleased] at hexec
  have hactu : (s.hearNotice ⟨st.ring, st.attempt, st.round⟩ bundle).stp.active = some st := hact
  generalize s.hearNotice ⟨st.ring, st.attempt, st.round⟩ bundle = u at hexec hheard hwu hactu
  obtain ⟨x, hx, hsame⟩ := State.stopStep_active hactu
  obtain ⟨hvoted, hkeeps, -, -⟩ := State.vote_waits hx (voteWaits_congr (t := u.stopStep) hwu rfl rfl rfl) (v := u.releasedVote st)
    hsame.ring.symm hsame.round.symm true
  exact ⟨_, _, hexec, hasVoted_congr hsame hvoted, rfl,
    (hheard.mono (by decide)).trans ((u.stopStep_keeps.mono (by decide)).trans (hkeeps.mono (by decide)))⟩

/-! ### The last verdicts of a neighbour -/

theorem exec_verdictHistory_asked {s : State} {me : Nat} (hpow : s.powered = true) (hslots : s.slotsWait = none)
    (haddr : s.fab.addr = some me) (src : Nat) :
    exec (.verdictHistoryRequest (.request src)) s
      = .next (s.emit (.history src (.answer me (s.stp.verdicts.map (·.1))))) := by
  refine congrArg Host.Outcome.next ((State.onSlots_none hslots _).trans ((if_neg (by simp [hpow])).trans ?_))
  dsimp only
  rw [haddr]

/-- A recovery that has heard a neighbour's last verdicts (R355). -/
def Resume.hears (r : Resume) (src : Nat) (vs : List Verdict) : Resume :=
  { r with awaiting := r.awaiting.filter (· != src), heard := r.heard ++ vs }

/-- A recovery that still awaits a neighbour it can reach does not act. -/
theorem State.settleResume_awaits {s : State} {r : Resume} (hresume : s.stp.resume = some r)
    (hawaits : ∃ a ∈ r.awaiting, s.fab.unreachable a = false) : s.settleResume = s := by
  obtain ⟨a, ha, hreach⟩ := hawaits
  have hsome : r.awaiting.all s.fab.unreachable = false :=
    List.all_eq_false.2 ⟨a, ha, by simp [hreach]⟩
  unfold State.settleResume
  rw [hresume]
  exact if_neg (by simp [hsome])

theorem exec_verdictHistory_answered {s : State} {r : Resume} {src : Nat} (hpow : s.powered = true) (hslots : s.slotsWait = none)
    (hresume : s.stp.resume = some r) (hawaits : ∃ a ∈ r.awaiting, a ≠ src ∧ s.fab.unreachable a = false) (vs : List Verdict) :
    exec (.verdictHistoryRequest (.answer src vs)) s
      = .next { s with stp := { s.stp with resume := some (r.hears src vs) } } := by
  obtain ⟨a, ha, hne, hreach⟩ := hawaits
  refine congrArg Host.Outcome.next ((State.onSlots_none hslots _).trans ((if_neg (by simp [hpow])).trans ?_))
  dsimp only
  rw [hresume]
  exact State.settleResume_awaits (s := { s with stp := { s.stp with resume := some (r.hears src vs) } }) rfl
    ⟨a, List.mem_filter.2 ⟨ha, by simp [hne]⟩, hreach⟩

/-! ### The statement -/

/-- Messages that come to a device with no active step. -/
theorem verdictMessage_idle {s : State} (hpow : s.powered = true) (hact : s.stp.active = none) (hslots : s.slotsWait = none)
    (hfetches : s.trn.fetches = []) {x : VerdictPart} {m : VerdictMsg} (hwhole : Completes s x m)
    (hring : s.deviceRing < m.v.ring) : ∃ t, exec (.verdictMessage x) s = .next t
      ∧ t.stp = { s.stp with partVerdicts := t.stp.partVerdicts, waitVerdict := s.stp.waitVerdict ++ [m] } ∧ Keeps [.stp] s t := by
  have hstale : s.verdictStale m.v = false := by
    rw [State.verdictStale_idle hact]
    exact decide_eq_false (by omega)
  obtain ⟨ps, hexec⟩ := exec_verdictMessage_heard hpow hslots hwhole hstale
  have hrests : ((s.withParts ps).keepVerdict m).Rests := State.rests_idle hact hfetches
  rw [State.hearVerdict_waits hrests] at hexec
  exact ⟨_, hexec, rfl, ((s.withParts_keeps ps).trans ((s.withParts ps).keepVerdict_keeps m))⟩

/-- COMMIT advances the training state (R312). -/
theorem Deciding.commits {s : State} {x : VerdictPart} {m : VerdictMsg} {st : Step} {r : VRound} {me : Nat}
    (h : Deciding s x m st r me) (hrule : m.v.rule = .commit) : ∃ t, Machine.exec (.verdictMessage x) s = .next t
      ∧ t.stp.active = none
      ∧ t.trn = { s.trn.advanced s.held st.ring m.v.round st.lsExp with updates := [], referees := [] }
      ∧ t.att = s.att.raise s.aon.tick aSTEP_DONE cOK st.tag st.ring st.attempt ∧ t.mem = { s.mem with wc := [] }
      ∧ Keeps (.mem :: decidedParts) s t := by
  obtain ⟨n, hn, hstands, hdone, hexec⟩ := h.exec
  have hntrn : n.trn = s.trn := hn .trn (by decide)
  have hnmem : n.mem = s.mem := hn .mem (by decide)
  have hdecision : n.decision st m.v = n.commitStep m.v := by rw [State.decision, hrule]
  obtain ⟨htrn, hatt, hmem, hkeeps⟩ := hstands.commits hdone m.v
  have hnone : (n.commitStep m.v).stp.active = none := by
    obtain ⟨z, hz, -⟩ := hstands.active
    rw [State.commitStep_eq hz]
    exact State.endStep_active _ _ _ _
  rw [hdecision] at hexec
  refine ⟨_, hexec (State.rests_idle hnone ?_), hnone, ?_, ?_, ?_, (hn.mono (by decide)).trans hkeeps⟩
  · rw [htrn, hntrn]
    exact h.fetches
  · rw [htrn, hntrn, hn.held (by decide)]
    rfl
  · rw [hatt, hn .att (by decide), hn .aon (by decide)]
    rfl
  · rw [hmem, hnmem]

/-- A hold or a skip ends the step and leaves the training state (R307, R344). -/
theorem Deciding.ends {s : State} {x : VerdictPart} {m : VerdictMsg} {st : Step} {r : VRound} {me : Nat}
    (h : Deciding s x m st r me) {skipped : Bool} {code cls : Nat} (hdecision : ∀ n : State, n.decision st m.v
      = (n.policy false skipped).1.endStep code cls (n.policy false skipped).2) :
    ∃ t, Machine.exec (.verdictMessage x) s = .next t ∧ t.stp.active = none ∧ t.trn = { s.trn with updates := [], referees := [] }
      ∧ t.att = s.att.raise s.aon.tick cls code st.tag st.ring st.attempt ∧ Keeps decidedParts s t := by
  obtain ⟨n, hn, hstands, hdone, hexec⟩ := h.exec
  have hntrn : n.trn = s.trn := hn .trn (by decide)
  obtain ⟨htrn, hatt, hkeeps⟩ := hstands.endsUncommitted hdone skipped code cls
  have hnone := State.endStep_active (n.policy false skipped).1 code cls (n.policy false skipped).2
  rw [hdecision] at hexec
  refine ⟨_, hexec (State.rests_idle hnone ?_), hnone, ?_, ?_, (hn.mono (by decide)).trans hkeeps⟩
  · rw [htrn, hntrn]
    exact h.fetches
  · rw [htrn, hntrn]
  · rw [hatt, hn .att (by decide), hn .aon (by decide)]
    rfl

/-- A clip or a referee round begins (R305, R354). -/
theorem Deciding.goesOn {s : State} {x : VerdictPart} {m : VerdictMsg} {st : Step} {r : VRound} {me : Nat}
    (h : Deciding s x m st r me) {clip : Bool} (hrule : m.v.rule = .clip ∧ clip = true ∨ m.v.rule = .referee clip)
    (hcode : st.holdCode = 0) (hredo : clip = true → ∀ d ∈ s.held, s.Redoes d) :
    ∃ t st', Machine.exec (.verdictMessage x) s = .next t ∧ t.stp.active = some st' ∧ st'.round = 1 ∧ st'.st = .running
      ∧ st'.k = (if clip then some (fdiv m.v.clip m.v.norm) else none) ∧ st'.last = some m.v ∧ st'.vround = none
      ∧ t.trn.sel = s.trn.sel ∧ t.att = s.att := by
  obtain ⟨n, hn, hstands, -, hexec⟩ := h.exec
  have hntrn : n.trn = s.trn := hn .trn (by decide)
  have hgoes := hstands.goesOn st hrule fun hclip d hd => by
    rw [hn.held (by decide)] at hd
    exact (hn.fades (by decide)).redoes hntrn (hredo hclip d hd)
  have hrests := hgoes.rests rfl hcode (by rw [hntrn, h.fetches])
  obtain ⟨z, hz, hcore⟩ := hgoes.stands.active
  refine ⟨_, z, hexec hrests, hz, (congrArg Step.round hcore :), (congrArg Step.st hcore :), (congrArg Step.k hcore :),
    (congrArg Step.last hcore :), (congrArg Step.vround hcore :), ?_, ?_⟩
  · rw [hgoes.sel, hntrn]
  · rw [hgoes.att, hn .att (by decide)]

/-- Settles O60: a message is kept until its verdict is whole and can be combined, moves on once, and the broadcast of the last axis
decides by the row of R344 that it matches. The unit of the FAULT attention is that of log 93, and a device without an active step
judges a message by its own ring as log 76 has it. -/
theorem verdictsPass : Obligations.VerdictsPass := by
  unfold Obligations.VerdictsPass
  refine ⟨?_, ?_, ?_, ?_, ?_⟩
  case refine_1 =>
    intro s hpow hact hslots hfetches
    refine ⟨fun axis bcast src v => ⟨fun hold => ?_, fun hring hround => ?_⟩, fun y es hparts => ?_, fun x m hwhole hring =>
      verdictMessage_idle hpow hact hslots hfetches hwhole hring⟩
    · have hstale : s.verdictStale v = true := by
        rw [State.verdictStale_idle hact]
        exact decide_eq_true hold
      refine ⟨_, exec_verdictMessage_stale hpow hslots hstale axis bcast src, ?_⟩
      rw [State.localHold_idle (s := s.raise _ _ _ _ _) hact]
      exact ⟨rfl, s.raise_keeps _ _ _ _ _⟩
    · have hstale : s.verdictStale v = false := by
        rw [State.verdictStale_idle hact]
        exact decide_eq_false (by omega)
      exact ⟨_, exec_verdictMessage_first hpow hslots hstale hround axis bcast src, rfl, s.withParts_keeps _⟩
    · exact ⟨_, exec_verdictMessage_watch hpow hslots hparts es false, rfl, s.withParts_keeps _⟩
  case refine_2 =>
    intro s x m st r me nx hwhole hslots hfetches hpow hact hvoted hvround hsent hround haddr hfirst hnext hwait haxis hdir hring hmround
    exact verdictMessage_combines hwhole hslots hfetches hpow hact hvoted hvround hsent hround haddr hfirst hnext hwait haxis hdir
      hring hmround
  case refine_3 =>
    intro s x m st r me hwhole hslots hfetches hpow hact _ hvround hsent hlast hround haddr hwait haxis hdir hring hmround _ hnotices
      hdone
    have h : Deciding s x m st r me := ⟨hwhole, hslots, hfetches, hpow, hact, hvround, hsent, hlast, hround, haddr, hwait, haxis, hdir,
      hring, hmround, hnotices, hdone⟩
    refine ⟨fun hrule => ?_, fun row code hrule => ?_, fun hrule => ?_, fun clip hrule hcode hredo => h.goesOn hrule hcode hredo⟩
    · obtain ⟨t, hexec, hnone, htrn, hatt, hmem, hkeeps⟩ := h.commits hrule
      refine ⟨t, hexec, hnone, ?_, ?_, ?_, fun d hd => ?_, hatt, hmem, hkeeps.mono (by decide)⟩
      · rw [htrn]
        rfl
      · rw [htrn]
        rfl
      · rw [htrn]
        rfl
      · rw [htrn]
        exact Trn.advanced_selOf hd st.ring m.v.round st.lsExp
    · exact h.ends (skipped := false) fun n => by rw [State.decision, hrule]
    · exact h.ends (skipped := true) fun n => by rw [State.decision, hrule]
  case refine_4 =>
    intro s ring attempt round bundle hpow
    refine ⟨fun hknown => exec_holdNotice_known hknown bundle, fun hnew hring => ⟨fun hact => ?_, ?_⟩⟩
    · have hexec := exec_holdNotice_new hpow hnew hring bundle
      rw [State.heedNotices_idle (s := s.hearNotice ⟨ring, attempt, round⟩ bundle) hact] at hexec
      exact ⟨_, hexec, rfl, rfl, s.hearNotice_keeps _ bundle⟩
    · rintro st hact hrun hfree hgoes rfl rfl rfl hw
      exact holdNotice_releases hpow hnew hring hact hrun hfree hgoes hw bundle
  case refine_5 =>
    intro s src hpow hslots
    refine ⟨fun me haddr => ?_, fun vs r hresume hawaits => ?_⟩
    · exact ⟨_, exec_verdictHistory_asked hpow hslots haddr src, rfl, s.emit_keeps _⟩
    · exact ⟨_, exec_verdictHistory_answered hpow hslots hresume hawaits vs, .of_patch rfl, rfl⟩

end Sys2Proof.Machine
end

section
/-! SUPPORT. ABORT: what it does to the step of a tag, and to the transfer that holds it in a DMA channel (R333, R334, R481,
R515). -/

namespace Sys2Proof.Machine

/-! ### Transfers of a tag -/

/-- Where no channel finds a tag, no set of a channel holds it. -/
theorem Dma.byTag_none {d : Dma} {tag : Nat} (h : d.byTag tag = none) {c : Nat × Chan} (hc : c ∈ d.chans) :
    ¬ (c.2.shadow.valid = true ∧ c.2.shadow.tag = tag) ∧ ¬ (c.2.active.valid = true ∧ c.2.active.tag = tag) := by
  have hnone := List.findSome?_eq_none_iff.1 h c hc
  split at hnone
  case isTrue => cases hnone
  case isFalse hshadow =>
    split at hnone
    case isTrue => cases hnone
    case isFalse hactive => exact ⟨by simpa using hshadow, by simpa using hactive⟩

/-- A transfer of a tag has not ended, so that ABORT prefers it to a step that is DONE. -/
def Dma.live (d : Dma) (tag : Nat) : Bool :=
  d.chans.any fun c => (c.2.shadow.valid && !c.2.shadow.ended && c.2.shadow.tag == tag) || (c.2.busy && c.2.active.tag == tag)

theorem Dma.live_of_byTag_none {d : Dma} {tag : Nat} (h : d.byTag tag = none) : d.live tag = false := by
  refine List.any_eq_false.2 fun c hc => ?_
  obtain ⟨hshadow, hactive⟩ := Dma.byTag_none h hc
  simp only [Chan.busy, Bool.or_eq_true, Bool.and_eq_true, beq_iff_eq]
  rintro (⟨⟨hvalid, -⟩, htag⟩ | ⟨⟨hvalid, -⟩, htag⟩)
  · exact hshadow ⟨hvalid, htag⟩
  · exact hactive ⟨hvalid, htag⟩

/-- A transfer that has not started is discarded (R481). -/
theorem State.dmaAbort_shadow {s : State} {tag n : Nat} (h : s.dma.byTag tag = some (n, false))
    (hlive : (s.dma.ch n).shadow.ended = false) :
    s.dmaAbort tag = some (s.setChan n { s.dma.ch n with shadow := DmaSet.reset }, cOK, 0) := by
  simp [State.dmaAbort, h, hlive]

/-- The active transfer ends ABORTED (R481). -/
theorem State.dmaAbort_active {s : State} {tag n : Nat} (h : s.dma.byTag tag = some (n, true))
    (hlive : (s.dma.ch n).active.ended = false) :
    s.dmaAbort tag = some (s.setChan n ((s.dma.ch n).fail cABORTED), cOK, 0) := by
  simp [State.dmaAbort, h, hlive]

/-- A channel whose active transfer fails with no other waiting is idle. -/
theorem Chan.fail_idle {c : Chan} (h : c.shadow.valid = false) (code : Nat) :
    c.fail code = { c with active := c.active.fail code, state := 0 } := Chan.promote_idle h

/-! ### The step of a tag -/

theorem Stp.doneCode_done {t : Stp} {tag c : Nat} {w : StateWord} (h : t.words.find? (·.tag == tag) = some w)
    (hw : w.st = .done c) : t.doneCode tag = some c := by
  simp [Stp.doneCode, h, hw]

theorem Stp.doneCode_queued {t : Stp} {tag : Nat} {w : StateWord} (h : t.words.find? (·.tag == tag) = some w)
    (hw : w.st = .queued) : t.doneCode tag = none := by
  simp [Stp.doneCode, h, hw]

/-- A queued step that ends ABORTED leaves the queue, and its state word is DONE with ABORTED (R333, R334). -/
theorem State.abortQueued_spec {s : State} {q : Step} {w : StateWord} (hq : s.stp.queued = some q)
    (hword : s.stp.words.find? (·.tag == q.tag) = some w) (hw : w.st = .queued) :
    s.abortQueued.stp.queued = none ∧ s.abortQueued.stp.doneCode q.tag = some cABORTED := by
  let t : Stp := { s.stp with queued := none }
  have hopen : t.doneCode q.tag = none := Stp.doneCode_queued (t := t) hword hw
  have hfind := Stp.setWord_find (t := t) ⟨w, List.mem_of_find?_eq_some hword, by simpa using List.find?_some hword⟩
    (.done cABORTED)
  have hstp : s.abortQueued.stp = (t.setWord q.tag (.done cABORTED)).decideRecord q.ring q.attempt
      (q.record cABORTED q.lsExp true (!q.verdictFree)) := by
    unfold State.abortQueued
    rw [hq, ← Stp.moveWord_eq hopen]
  rw [hstp]
  exact ⟨rfl, Stp.doneCode_done hfind rfl⟩

/-! ### The body of ABORT -/

/-- The state word of a tag that no transfer holds decides what ABORT does (R515). -/
theorem abortBody_step {q : Req} {s : State} {w : StateWord} (hzero : q.zb 4 4 = true) (hdma : s.dma.byTag (q.f 0 4) = none)
    (hword : s.stp.words.find? (·.tag == q.f 0 4) = some w) :
    (w.st = .queued → abortBody q s = (s.abortQueued, abortReply cOK 0))
      ∧ ∀ c, w.st = .done c → abortBody q s = (s, abortReply cTOO_LATE c) := by
  have hlive := Dma.live_of_byTag_none hdma
  unfold Dma.live at hlive
  unfold abortBody
  dsimp only
  rw [if_neg (by simp [hzero]), hword, hlive]
  refine ⟨fun hw => ?_, fun c hw => ?_⟩
  · simp [Option.filter, hw]
  · simp [Option.filter, hw]

/-- A tag that is no step's aborts the transfer that has it (R481). -/
theorem abortBody_dma {q : Req} {s t : State} {code c : Nat} (hzero : q.zb 4 4 = true)
    (hword : s.stp.words.find? (·.tag == q.f 0 4) = none) (habort : s.dmaAbort (q.f 0 4) = some (t, code, c)) :
    abortBody q s = (t, abortReply code c) := by
  unfold abortBody
  dsimp only
  rw [if_neg (by simp [hzero]), hword, habort]
  rfl

/-! ### The statement -/

/-- ABORT of a tag that is no step's replies, and has changed the transfer's channel alone. -/
theorem IsServed.abort_dma {s : State} {k : SlotId} {n : Nat} {c : Chan} (h : IsServed s k 0x0104) (hwf : s.mbx.cells.wf = true)
    (hzero : (s.asks k).zb 4 4 = true) (hword : s.stp.words.find? (·.tag == (s.asks k).f 0 4) = none)
    (habort : (s.taken k).dmaAbort ((s.asks k).f 0 4) = some ((s.taken k).setChan n c, cOK, 0)) :
    Replied s (s.take k (·.opcode == 0x0104) abortBody) k cOK (zeros 8)
      ∧ (s.take k (·.opcode == 0x0104) abortBody).dma.ch n = c
      ∧ Keeps [.mbx, .aon, .dma] s (s.take k (·.opcode == 0x0104) abortBody) := by
  obtain ⟨hreplied, hkeeps⟩ := h.take_replied hwf (abortBody_dma (s := s.taken k) hzero hword habort) (by decide) rfl
  have hdma : (s.take k (·.opcode == 0x0104) abortBody).dma = _ := hkeeps .dma (by decide)
  refine ⟨hreplied, ?_, ((s.taken_keeps k).mono (by decide)).trans
    ((((s.taken k).setChan_keeps n c).mono (by decide)).trans (hkeeps.mono (by decide)))⟩
  rw [hdma, State.setChan_same]

/-- Settles O17: the state word of the tag, or else the DMA set that holds it, decides which of the four ends ABORT makes. -/
theorem abortEnds : Obligations.AbortEnds := by
  unfold Obligations.AbortEnds
  rintro s k tag hInv hserved hzero rfl
  refine ⟨fun q w hdma hq htag hword hw => ?_, fun w c hdma hword hw => ?_, fun n hword => ⟨fun htag hlive => ?_,
    fun htag hlive hshadow => ?_⟩⟩
  · have hbody := (abortBody_step (s := s.taken k) hzero hdma hword).1 hw
    have habort := (s.taken k).abortQueued_keeps
    obtain ⟨hreplied, hkeeps⟩ := hserved.take_replied hInv.mbx hbody (by decide) (habort .mbx (by decide))
    have hstp : (s.take k (·.opcode == 0x0104) abortBody).stp = (s.taken k).abortQueued.stp := hkeeps .stp (by decide)
    obtain ⟨hnone, hdone⟩ := State.abortQueued_spec (s := s.taken k) hq (htag ▸ hword) hw
    refine ⟨_, rfl, hstp ▸ hnone, ?_, hreplied, ?_, ?_, ?_⟩
    · rw [hstp, ← htag]
      exact hdone
    · rw [hstp]
      exact State.abortQueued_active _
    · exact (hkeeps .trn (by decide)).trans (habort .trn (by decide))
    · exact (hkeeps .mem (by decide)).trans (habort .mem (by decide))
  · exact ⟨_, rfl, hserved.take_onlyReplies hInv.mbx ((abortBody_step (s := s.taken k) hzero hdma hword).2 c hw) (by decide)⟩
  · obtain ⟨hreplied, hch, hkeeps⟩ := hserved.abort_dma hInv.mbx hzero hword
      (State.dmaAbort_shadow (s := s.taken k) htag hlive)
    exact ⟨_, rfl, congrArg Chan.shadow hch, hreplied, hkeeps⟩
  · obtain ⟨-, hch, hkeeps⟩ := hserved.abort_dma hInv.mbx hzero hword (State.dmaAbort_active (s := s.taken k) htag hlive)
    rw [Chan.fail_idle (c := (s.taken k).dma.ch n) hshadow] at hch
    refine ⟨_, rfl, ?_, ?_, ?_, ?_, hkeeps⟩ <;> rw [hch] <;> rfl

end Sys2Proof.Machine
end

section
/-! SUPPORT. The codes that PLAN_LOAD's checks can fail with: BAD_PLAN and BAD_WINDOW of an operation, and VERSION and NO_RESOURCE
of a container (R520). None of them makes the command wait. -/

namespace Sys2Proof.Machine

/-! ### Failures and their codes -/

/-- The codes that a container can fail with (R520). -/
def planCodes : List Nat := [cVERSION, cBAD_PLAN, cBAD_WINDOW, cNO_RESOURCE]

/-- A check fails with a code of a container only, whichever of the failures it gives. -/
def Coded {α : Type} (code : α → Nat) (o : Option α) : Prop := ∀ e, o = some e → code e ∈ planCodes

section
variable {α β : Type} {code : α → Nat}

theorem coded_none : Coded code none := fun _ h => nomatch h

theorem coded_some {e : α} (h : code e ∈ planCodes) : Coded code (some e) := fun _ he => Option.some.inj he ▸ h

theorem coded_orElse (a b : Option α) : Coded code (a <|> b) ↔ Coded code a ∧ (a = none → Coded code b) := by
  cases a <;> simp [Coded]

theorem coded_ite (c : Prop) [Decidable c] (a b : Option α) :
    Coded code (if c then a else b) ↔ (c → Coded code a) ∧ (¬ c → Coded code b) := by
  by_cases h : c <;> simp [h]

theorem coded_findSome {l : List β} {f : β → Option α} (h : ∀ x, Coded code (f x)) : Coded code (l.findSome? f) := by
  intro e he
  obtain ⟨x, -, hx⟩ := List.exists_of_findSome?_eq_some he
  exact h x e hx

theorem coded_map {o : Option β} {f : β → α} (h : ∀ x, code (f x) ∈ planCodes) : Coded code (o.map f) := by
  intro e he
  obtain ⟨x, -, rfl⟩ := Option.map_eq_some_iff.1 he
  exact h x

end

theorem bp_coded (c : Bool) (off : Nat) : Coded Prod.fst (bp c off) := (coded_ite _ _ _).2
  ⟨fun _ => coded_some (show cBAD_PLAN ∈ planCodes by decide), fun _ => coded_none⟩

theorem bw_coded (c : Bool) (off : Nat) : Coded Prod.fst (bw c off) := (coded_ite _ _ _).2
  ⟨fun _ => coded_some (show cBAD_WINDOW ∈ planCodes by decide), fun _ => coded_none⟩

/-- What every check of an operation is put together from. -/
theorem opFault_coded : (∀ c off, Coded Prod.fst (bp c off)) ∧ (∀ c off, Coded Prod.fst (bw c off))
    ∧ (∀ c off, Coded Prod.fst (bh c off)) ∧ (∀ c j, Coded Prod.fst (bIn c j)) ∧ (∀ c j, Coded Prod.fst (bOut c j))
    ∧ Coded Prod.fst (none : OpFault)
    ∧ (∀ a b : OpFault, Coded Prod.fst (a <|> b) ↔ Coded Prod.fst a ∧ (a = none → Coded Prod.fst b))
    ∧ ∀ (c : Prop) [Decidable c] (a b : OpFault),
      Coded Prod.fst (if c then a else b) ↔ (c → Coded Prod.fst a) ∧ (¬ c → Coded Prod.fst b) :=
  ⟨bp_coded, bw_coded, fun c _ => bp_coded c _, fun c _ => bp_coded c _, fun c _ => bp_coded c _, coded_none, coded_orElse,
    coded_ite⟩

/-! ### The checks of an operation -/

theorem Plan.checkHeader_coded (p : Plan) (i : Nat) : Coded Prod.fst (p.checkHeader i) := by
  unfold Plan.checkHeader
  dsimp only
  split <;> simp only [opFault_coded, coded_findSome, implies_true, and_self]

theorem Plan.checkOut_coded (p : Plan) (i : Nat) (b : Bytes) (off n : Nat) (d : TD) (ids : Nat × Nat) :
    Coded Prod.fst (p.checkOut i b off n d ids) := by
  unfold Plan.checkOut
  cases p.slotIn i 3 <;> cases p.slotOut i 1 <;> simp only [opFault_coded, implies_true, and_self]

theorem Plan.checkMatmul_coded (p : Plan) (i : Nat) : Coded Prod.fst (p.checkMatmul i) := by
  unfold Plan.checkMatmul
  dsimp only
  split
  · cases p.slotIn i 2 <;> cases p.slotIn i 3 <;> simp only [opFault_coded, Plan.checkOut_coded, implies_true, and_self]
  · exact bp_coded _ _

theorem checkWin_coded (b : Bytes) (h w : Nat) : Coded Prod.fst (checkWin b h w) := by
  simp only [checkWin, opFault_coded, implies_true, and_self]

theorem Plan.checkConv_coded (p : Plan) (i : Nat) (v : ConvOp) : Coded Prod.fst (p.checkConv i v) := by
  unfold Plan.checkConv
  dsimp only
  split
  · cases p.slotIn i 3 <;> simp only [opFault_coded, checkWin_coded, Plan.checkOut_coded, implies_true, and_self]
  · exact bp_coded _ _

theorem Plan.checkPool_coded (p : Plan) (i : Nat) : Coded Prod.fst (p.checkPool i) := by
  unfold Plan.checkPool
  dsimp only
  split <;> simp only [opFault_coded, checkWin_coded, implies_true, and_self]

theorem Plan.checkBox_coded (p : Plan) (i : Nat) : Coded Prod.fst (p.checkBox i) := by
  unfold Plan.checkBox
  dsimp only
  split <;> simp only [opFault_coded, implies_true, and_self]

theorem Plan.checkSuppress_coded (p : Plan) (i : Nat) : Coded Prod.fst (p.checkSuppress i) := by
  unfold Plan.checkSuppress
  dsimp only
  split
  · cases p.slotIn i 2 <;> simp only [opFault_coded, implies_true, and_self]
  · exact bp_coded _ _

theorem checkVec_coded (b : Bytes) (off : Nat) (named : List Nat) (out1 : Bool) : Coded Prod.fst (checkVec b off named out1) := by
  simp only [checkVec, opFault_coded, coded_findSome, implies_true, and_self]

theorem Plan.checkVector_coded (p : Plan) (i : Nat) : Coded Prod.fst (p.checkVector i) := by
  unfold Plan.checkVector
  split
  · exact bp_coded _ _
  · cases p.slotOut i 1 <;> cases p.slotIn i 0 <;> cases p.slotIn i 3 <;>
      simp only [checkVec_coded, opFault_coded, coded_findSome, implies_true, and_self, true_and]
    all_goals
      intros
      refine coded_findSome fun j => ?_
      cases p.slotIn i j <;> simp only [opFault_coded]

theorem Plan.checkActB_coded (p : Plan) (i : Nat) : Coded Prod.fst (p.checkActB i) := by
  unfold Plan.checkActB
  dsimp only
  split <;> simp only [opFault_coded, implies_true, and_self]

theorem Plan.checkGather_coded (p : Plan) (i : Nat) : Coded Prod.fst (p.checkGather i) := by
  unfold Plan.checkGather
  dsimp only
  split
  · exact bp_coded _ _
  · simp only [opFault_coded, implies_true, true_and, and_true]
    intros
    refine coded_findSome fun j => ?_
    cases p.slotIn i j <;> simp only [opFault_coded]

theorem Plan.checkMove_coded (p : Plan) (i : Nat) : Coded Prod.fst (p.checkMove i) := by
  unfold Plan.checkMove
  dsimp only
  split <;> simp only [opFault_coded, coded_findSome, implies_true, and_self]

theorem State.checkPrefetch_coded (s : State) (p : Plan) (i : Nat) : Coded Prod.fst (s.checkPrefetch p i) := by
  unfold State.checkPrefetch
  dsimp only
  split <;> simp only [opFault_coded, implies_true, and_self]

theorem State.checkLine_coded (s : State) (p : Plan) (i : Nat) (d : ShardDef) (outside : Bool) :
    Coded Prod.fst (s.checkLine p i d outside) := by
  simp only [State.checkLine, opFault_coded, implies_true, and_self]

theorem State.checkReduce_coded (s : State) (p : Plan) (i : Nat) : Coded Prod.fst (s.checkReduce p i) := by
  unfold State.checkReduce
  split <;> simp only [opFault_coded, State.checkLine_coded, coded_findSome, implies_true, and_self]

theorem State.checkGather_coded (s : State) (p : Plan) (i : Nat) : Coded Prod.fst (s.checkGather p i) := by
  unfold State.checkGather
  split <;> simp only [opFault_coded, State.checkLine_coded, implies_true, and_self]

theorem State.checkUpdate_coded (s : State) (p : Plan) (i : Nat) : Coded Prod.fst (s.checkUpdate p i) := by
  unfold State.checkUpdate
  dsimp only
  split <;> simp only [opFault_coded, checkVec_coded, coded_findSome, implies_true, and_self]

theorem State.checkBatch_coded (s : State) (p : Plan) (i : Nat) : Coded Prod.fst (s.checkBatch p i) := by
  unfold State.checkBatch
  dsimp only
  split
  · exact bp_coded _ _
  · exact bp_coded _ _
  · cases p.slotOut i 1 <;> simp only [opFault_coded, coded_findSome, implies_true, and_self]

theorem State.checkClass_coded (s : State) (p : Plan) (i : Nat) : Coded Prod.fst (s.checkClass p i) := by
  simp only [State.checkClass, opFault_coded, Plan.checkMatmul_coded, Plan.checkConv_coded, Plan.checkPool_coded,
    Plan.checkBox_coded, Plan.checkSuppress_coded, Plan.checkVector_coded, Plan.checkActB_coded, Plan.checkGather_coded,
    State.checkReduce_coded, State.checkGather_coded, State.checkUpdate_coded, State.checkBatch_coded, Plan.checkMove_coded,
    State.checkPrefetch_coded, implies_true, and_self]

/-! ### The checks of a container -/

theorem cVERSION_mem : cVERSION ∈ planCodes := by decide
theorem cBAD_PLAN_mem : cBAD_PLAN ∈ planCodes := by decide
theorem cNO_RESOURCE_mem : cNO_RESOURCE ∈ planCodes := by decide

theorem coded_failIf {c : Bool} {e : PlanErr} (h : e.code ∈ planCodes) : Coded PlanErr.code (failIf c e) :=
  (coded_ite _ _ _).2 ⟨fun _ => coded_some h, fun _ => coded_none⟩

theorem coded_firstFail {α : Type} {l : List α} {f : α → Option PlanErr} (h : ∀ x, Coded PlanErr.code (f x)) :
    Coded PlanErr.code (firstFail l f) := coded_findSome h

theorem State.checkOp_coded (s : State) (p : Plan) (i : Nat) : Coded PlanErr.code (s.checkOp p i) := by
  intro e he
  obtain ⟨x, hx, rfl⟩ := Option.map_eq_some_iff.1 he
  exact (coded_orElse _ _).2 ⟨p.checkHeader_coded i, fun _ => s.checkClass_coded p i⟩ x hx

theorem checkHeader_coded (b : Bytes) : Coded PlanErr.code (checkHeader b) := by
  simp only [checkHeader, headErr, coded_orElse, coded_failIf, cVERSION_mem, cBAD_PLAN_mem, implies_true, and_self]

theorem checkSection_coded (b : Bytes) (i : Nat) : Coded PlanErr.code (checkSection b i) := coded_failIf cBAD_PLAN_mem

theorem checkSections_coded (b : Bytes) : Coded PlanErr.code (checkSections b) := by
  simp only [checkSections, sectErr, checkSection_coded, coded_orElse, coded_firstFail, coded_failIf, cBAD_PLAN_mem, implies_true,
    and_self]

theorem checkSettings_coded (p : Plan) : Coded PlanErr.code (checkSettings p) := by
  simp only [checkSettings, coded_orElse, coded_ite, coded_firstFail, coded_failIf, cBAD_PLAN_mem, implies_true, and_self]

theorem State.checkDesc_coded (s : State) (p : Plan) (id : Nat) : Coded PlanErr.code (s.checkDesc p id) := by
  simp only [State.checkDesc, coded_orElse, coded_ite, coded_failIf, coded_map, coded_none, cBAD_PLAN_mem, implies_true, true_and,
    and_true]
  exact fun _ _ _ => coded_firstFail fun _ => coded_firstFail fun _ => coded_map fun _ => cBAD_PLAN_mem

theorem Plan.checkEdge_coded (p : Plan) (k : Nat) : Coded PlanErr.code (p.checkEdge k) := coded_failIf cBAD_PLAN_mem

theorem Plan.checkCycle_coded (p : Plan) : Coded PlanErr.code p.checkCycle := by
  unfold Plan.checkCycle
  exact (coded_ite _ _ _).2 ⟨fun _ => coded_none, fun _ => coded_map fun _ => cBAD_PLAN_mem⟩

theorem Plan.checkOrder_coded (p : Plan) : Coded PlanErr.code p.checkOrder := by
  simp only [Plan.checkOrder, coded_firstFail, coded_map, cBAD_PLAN_mem, implies_true]

theorem Plan.checkPaths_coded (p : Plan) : Coded PlanErr.code p.checkPaths := by
  simp only [Plan.checkPaths, coded_firstFail, coded_failIf, cBAD_PLAN_mem, implies_true]

/-- A container fails with one of its codes. -/
theorem State.checkPlan_coded (s : State) (b : Bytes) : Coded PlanErr.code (s.checkPlan b) := by
  simp only [State.checkPlan, resErr, coded_orElse, coded_firstFail, coded_failIf, checkHeader_coded, checkSections_coded,
    checkSettings_coded, State.checkDesc_coded, State.checkOp_coded, Plan.checkEdge_coded, Plan.checkCycle_coded,
    Plan.checkOrder_coded, Plan.checkPaths_coded, cNO_RESOURCE_mem, implies_true, and_self]

theorem State.checkPlan_code {s : State} {b : Bytes} {e : PlanErr} (h : s.checkPlan b = some e) : e.code ≠ cWAIT := by
  intro hwait
  have hmem := s.checkPlan_coded b e h
  rw [hwait] at hmem
  exact absurd hmem (by decide)

end Sys2Proof.Machine
end

section
/-! SUPPORT. PLAN_LOAD and PLAN_DROP: the checks of a container see neither memory nor the slots, a command's access that nothing
obstructs, the handle of a new plan, and what a loaded or dropped plan changes (R330, R383, R433, R519 to R521, R636). -/

namespace Sys2Proof.Machine

/-! ### What the checks depend on -/

theorem Rgn.Alike.get_ok {g g' : Rgn} (h : g.Alike g') (id : Nat) :
    (g'.get id = none ∧ g.get id = none) ∨ ∃ r r', g'.get id = some r' ∧ g.get id = some r ∧ r'.cold = r.cold := by
  have hget := h.get id
  cases hg : g.get id with
  | none =>
    rw [hg, Option.map_none, Option.map_eq_none_iff] at hget
    exact .inl ⟨hget, rfl⟩
  | some r =>
    rw [hg, Option.map_some, Option.map_eq_some_iff] at hget
    obtain ⟨r', hr', hcold⟩ := hget
    exact .inr ⟨r, r', hr', rfl, hcold⟩

/-- What the checks of PLAN_LOAD see of a state is the same. -/
structure SamePlans (s t : State) : Prop where
  rgn : s.rgn.Alike t.rgn
  pln : t.pln = s.pln
  trn : t.trn = s.trn
  fab : t.fab = s.fab
  gld : t.gld = s.gld

section
variable {s t : State} (h : SamePlans s t)
include h

theorem SamePlans.misplaced : t.misplaced = s.misplaced := by
  funext u written
  unfold State.misplaced
  rcases h.rgn.get_ok u.region with ⟨ht, hs⟩ | ⟨r, r', ht, hs, hcold⟩
  · rw [ht, hs]
  · have hmap : r'.map = r.map := (congrArg Region.map hcold :)
    have hsize : r'.size = r.size := (congrArg Region.size hcold :)
    rw [ht, hs]
    simp only [hmap, hsize]

theorem SamePlans.checkDesc : t.checkDesc = s.checkDesc := by
  funext p id
  simp only [State.checkDesc, h.misplaced]

theorem SamePlans.checkPrefetch : t.checkPrefetch = s.checkPrefetch := by
  funext p i
  unfold State.checkPrefetch
  dsimp only
  split
  · rfl
  · rename_i x hx
    rcases h.rgn.get_ok x.region with ⟨ht, hs⟩ | ⟨r, r', ht, hs, hcold⟩
    · rw [ht, hs]
    · have hkind : r'.kind = r.kind := (congrArg Region.kind hcold :)
      rw [ht, hs]
      simp only [hkind]

theorem SamePlans.offLine : t.offLine = s.offLine := by
  funext p i d
  simp only [State.offLine, State.twins, h.fab]

theorem SamePlans.checkLine : t.checkLine = s.checkLine := by
  funext p i d outside
  simp only [State.checkLine, h.fab]

theorem SamePlans.checkReduce : t.checkReduce = s.checkReduce := by
  funext p i
  simp only [State.checkReduce, State.owns, State.twins, h.offLine, h.checkLine, h.trn, h.fab]

theorem SamePlans.checkGather : t.checkGather = s.checkGather := by
  funext p i
  simp only [State.checkGather, h.checkLine, h.trn]

theorem SamePlans.checkUpdate : t.checkUpdate = s.checkUpdate := by
  funext p i
  simp only [State.checkUpdate, h.trn]

theorem SamePlans.checkBatch : t.checkBatch = s.checkBatch := by
  funext p i
  simp only [State.checkBatch, h.gld, h.misplaced]

theorem SamePlans.checkOp : t.checkOp = s.checkOp := by
  funext p i
  simp only [State.checkOp, State.checkClass, h.checkPrefetch, h.checkReduce, h.checkGather, h.checkUpdate, h.checkBatch]

theorem SamePlans.planCtxs : t.planCtxs = s.planCtxs := by
  funext p
  simp only [State.planCtxs, h.offLine, h.trn, h.fab]

/-- The checks of a container give the same. -/
theorem SamePlans.checkPlan : t.checkPlan = s.checkPlan := by
  funext b
  simp only [State.checkPlan, h.checkDesc, h.checkOp, h.planCtxs, h.pln, h.fab]

end

/-! ### A command's access -/

/-- Nothing on the pages of an access that can proceed is host-stale. -/
theorem State.accessChunk_fresh {s : State} {store : Bool} {c : Nat × Nat} {r : Region} {off : Nat}
    (h : s.accessChunk store c = .ok) (hx : s.xlate c.1 store = .ok (r, off)) : r.stalePage (off / pageBytes) = false := by
  unfold State.accessChunk at h
  rw [hx] at h
  dsimp only at h
  split at h
  · cases h
  · rename_i hstale
    simpa using hstale

/-- Where every page of a range translates there is no demand fault to resolve. -/
theorem State.resolveRange_none {s : State} {va len : Nat} (h : ∀ c ∈ chunksOf va len, ∃ x, s.xlate c.1 false = .ok x) :
    s.resolveRange va len = some s := by
  unfold State.resolveRange
  generalize chunksOf va len = cs at h
  induction cs with
  | nil => rfl
  | cons c cs ih =>
    obtain ⟨x, hx⟩ := h c List.mem_cons_self
    rw [List.foldlM_cons, hx]
    exact ih fun y hy => h y (List.mem_cons_of_mem _ hy)

/-- A command's access to an accessible range goes on with nothing changed (R636). -/
theorem Accessible.cmdAccess {s : State} {va len : Nat} {store : Bool} (h : Accessible s va len store) (unmapped : Nat) :
    s.cmdAccess va len store unmapped = .ok s := by
  obtain ⟨hplaces, hok, hstop⟩ := h
  have hchunks := State.access_ok.1 hok
  have hresolve : s.resolveRange va len = some s := State.resolveRange_none fun c hc => by
    obtain ⟨r, off, -, hx⟩ := hplaces c hc
    exact ⟨_, Rgn.place_fewer (fun _ hl => hl) (by simp) hx⟩
  unfold State.cmdAccess
  dsimp only
  rw [if_neg ?fresh, if_neg (by simp [hstop]), hresolve]
  · dsimp only
    rw [hok]
  case fresh =>
    rw [List.any_eq_true]
    rintro ⟨c, hc, hstale⟩
    obtain ⟨r, off, hby, hx⟩ := hplaces c hc
    rw [hby] at hstale
    exact absurd (State.accessChunk_fresh (hchunks c hc) hx) (by simpa using hstale)

/-! ### Handles -/

/-- The handle that follows one (R521). -/
def handleAfter (n : Nat) : Nat := if n = 0xFFFF then 1 else n + 1

theorem handleAfter_ne_zero (n : Nat) : handleAfter n ≠ 0 := by
  unfold handleAfter
  split <;> omega

/-- No loaded plan has the handle. -/
def Pln.freeHandle (l : Pln) (n : Nat) : Bool := !(l.plans.any (·.handle == n))

/-- A handle that is taken gives way to the next one. -/
def Pln.tryHandle (l : Pln) (n : Nat) : Nat := if l.freeHandle n then n else handleAfter n

theorem nextHandle_eq (l : Pln) : nextHandle l = (List.range 5).foldl (fun n _ => l.tryHandle n) (handleAfter l.lastHandle) := rfl

theorem Pln.tryHandles_free {l : Pln} {α : Type} : ∀ {ks : List α} {n i : Nat}, i ≤ ks.length →
    l.freeHandle (handleAfter^[i] n) = true → l.freeHandle (ks.foldl (fun n _ => l.tryHandle n) n) = true := by
  intro ks
  induction ks with
  | nil =>
    intro n i hi hfree
    obtain rfl : i = 0 := by simpa using hi
    exact hfree
  | cons k ks ih =>
    intro n i hi hfree
    rw [List.foldl_cons, Pln.tryHandle]
    split
    case isTrue hn => exact ih (Nat.zero_le _) hn
    case isFalse hn =>
      cases i with
      | zero => exact absurd hfree hn
      | succ i => exact ih (Nat.le_of_succ_le_succ hi) hfree

/-- Of four handles in a row, fewer than four plans leave one free. -/
theorem Pln.exists_freeHandle {l : Pln} (h : l.plans.length < 4) (n : Nat) :
    ∃ i ≤ 3, l.freeHandle (handleAfter^[i] n) = true := by
  by_contra hnone
  push Not at hnone
  have hdistinct : ((List.range 4).map fun i => handleAfter^[i] n).Nodup := by
    simp only [List.range, List.range.loop, List.map, Function.iterate_succ_apply, Function.iterate_zero_apply, handleAfter]
    simp only [List.nodup_cons, List.mem_cons, List.not_mem_nil, or_false, not_or, not_false_iff, List.nodup_nil, and_true]
    split_ifs <;> omega
  have htaken : ((List.range 4).map fun i => handleAfter^[i] n) ⊆ l.plans.map (·.handle) := by
    intro m hm
    obtain ⟨i, hi, rfl⟩ := List.mem_map.1 hm
    have := hnone i (by have := List.mem_range.1 hi; omega)
    simpa [Pln.freeHandle] using this
  have hlen := (List.subperm_of_subset hdistinct htaken).length_le
  simp at hlen
  omega

/-- The handle of a new plan is not 0, and no loaded plan has it (R521). -/
theorem nextHandle_fresh {l : Pln} (h : l.plans.length < 4) :
    nextHandle l ≠ 0 ∧ ∀ x ∈ l.plans, x.handle ≠ nextHandle l := by
  rw [nextHandle_eq]
  refine ⟨foldl_keeps (P := (· ≠ 0)) (fun n _ hn => ?_) _ _ (handleAfter_ne_zero _), ?_⟩
  · unfold Pln.tryHandle
    split
    · exact hn
    · exact handleAfter_ne_zero n
  · obtain ⟨i, hi, hfree⟩ := Pln.exists_freeHandle h (handleAfter l.lastHandle)
    have hfresh := Pln.tryHandles_free (ks := List.range 5) (by simp; omega) hfree
    simpa [Pln.freeHandle] using hfresh

/-! ### Loading -/

theorem State.newPlan_handle (s : State) (b : Bytes) (h : Nat) : (s.newPlan b h).handle = h := by
  unfold State.newPlan
  dsimp only
  split
  · rfl
  · unfold Plan.continued
    split <;> rfl

theorem State.newPlan_bytes (s : State) (b : Bytes) (h : Nat) : (s.newPlan b h).bytes = b := by
  unfold State.newPlan
  dsimp only
  split
  · rfl
  · unfold Plan.continued
    split <;> rfl

/-- A container that passes its checks finds a handle free (R330). -/
theorem State.checkPlan_room {s : State} {b : Bytes} (h : s.checkPlan b = none) : s.pln.plans.length < 4 := by
  simp only [State.checkPlan, Option.orElse_eq_none, failIf] at h
  obtain ⟨-, -, -, -, -, -, -, -, -, hroom⟩ := h
  by_contra hfull
  rw [if_pos (by simp; omega)] at hroom
  cases hroom

/-- The send contexts of a new plan (R383). -/
def State.newCtxs (s : State) (b : Bytes) : List SendCtx :=
  ((s.fab.freeCtxs (s.planCtxs (s.newPlan b (nextHandle s.pln))).length).zip
      (s.planCtxs (s.newPlan b (nextHandle s.pln)))).map fun c =>
    { ctx := c.1, dst := c.2.2.2, plan := nextHandle s.pln, op := c.2.1, mb := c.2.2.1, next := 0, credits := 256, kept := []
      unacked := [], waiting := [], resends := 0, failed := false }

/-- The state with a plan loaded. -/
def State.withPlan (s : State) (b : Bytes) : State :=
  { s with
    pln := { s.pln with
      plans := s.pln.plans ++ [s.newPlan b (nextHandle s.pln)], lastHandle := nextHandle s.pln, loads := s.pln.loads + 1 }
    fab := { s.fab with send := s.fab.send ++ s.newCtxs b } }

theorem State.withPlan_keeps (s : State) (b : Bytes) : Keeps [.pln, .fab] s (s.withPlan b) := .of_patch rfl

theorem State.newCtxs_plan {s : State} {b : Bytes} {c : SendCtx} (h : c ∈ s.newCtxs b) : c.plan = nextHandle s.pln := by
  obtain ⟨x, -, rfl⟩ := List.mem_map.1 h
  rfl

/-- A checked container is loaded, and the reply begins with its handle (R521). -/
theorem State.loadPlan_eq (s : State) (b : Bytes) :
    ∃ d, s.loadPlan b = (s.withPlan b, some (cOK, d)) ∧ d.take 2 = leBytes 2 (nextHandle s.pln) := by
  refine ⟨_, rfl, ?_⟩
  simp only [List.append_assoc]
  exact List.take_left' (leBytes_length 2 _)

/-! ### The body of PLAN_LOAD -/

/-- A container that lies in an accessible range is read and checked (R519, R520). -/
theorem planLoadBody_reads {q : Req} {s : State} {va len : Nat} (hva : va = q.f 0 8) (hlen : len = q.f 8 4)
    (hzero : q.zb 0x0C 4 = true) (hvaOk : vaOk va = true) (halign : va % 64 = 0) (hmin : 0x14 ≤ len)
    (hacc : Accessible s va len false) (hsize : fld (s.peekVa va len) 0x10 4 = len) :
    ((s.readVa va len).2.checkPlan (s.peekVa va len) = none →
        planLoadBody q s = (s.readVa va len).2.loadPlan (s.peekVa va len))
      ∧ ∀ e, (s.readVa va len).2.checkPlan (s.peekVa va len) = some e →
        planLoadBody q s = ((s.readVa va len).2, some (e.code, e.bytes)) := by
  obtain ⟨hplaces, -, -⟩ := id hacc
  have hmapped : (chunksOf va len).any (fun c => (s.rgn.byVa c.1).isNone) = false :=
    List.any_eq_false.2 fun c hc => by
      obtain ⟨r, off, hby, -⟩ := hplaces c hc
      simp [hby]
  unfold State.peekVa at *
  unfold planLoadBody
  dsimp only
  rw [← hva, ← hlen, if_neg (by simp [hzero, hvaOk, halign, hmapped]; omega), hacc.cmdAccess]
  dsimp only
  rw [if_neg (not_not.2 hsize)]
  exact ⟨fun h => by rw [h], fun e h => by rw [h]⟩

/-! ### PLAN_LOAD -/

/-- The checks see nothing of the slots, of memory or of the directories, and of a region nothing but what `Rgn.Alike` keeps. -/
theorem SamePlans.of_keeps {s t : State} (h : Keeps [.mbx, .aon, .mem, .coh, .rgn] s t) (hr : s.rgn.Alike t.rgn) : SamePlans s t :=
  ⟨hr, h .pln (by decide), h .trn (by decide), h .fab (by decide), h .gld (by decide)⟩

/-- A request taken and its container read: memory reads as before, and the checks see the same. -/
theorem State.taken_reads {s : State} (hs : s.Sound) (k : SlotId) (va len : Nat) :
    (s.taken k).peekVa va len = s.peekVa va len
      ∧ Rewrites (fun _ => False) s ((s.taken k).readVa va len).2
      ∧ Keeps [.mbx, .aon, .mem, .coh, .rgn] s ((s.taken k).readVa va len).2
      ∧ ((s.taken k).readVa va len).2.checkPlan = (s.readVa va len).2.checkPlan := by
  have htaken : Rewrites (fun _ => False) s (s.taken k) := (s.taken_keeps k).rewrites (by decide) hs
  have hread := htaken.trans (State.readVa_spec htaken.sound va len).2
  have hkeeps : Keeps [.mbx, .aon, .mem, .coh, .rgn] s ((s.taken k).readVa va len).2 :=
    ((s.taken_keeps k).mono (by decide)).trans ((State.readVa_keeps _ va len).mono (by decide))
  refine ⟨?_, hread, hkeeps, ?_⟩
  · rw [State.peekVa_eq htaken.sound, State.peekVa_eq hs, State.vaBytes_congr htaken]
  · have hplain := SamePlans.of_keeps ((State.readVa_keeps s va len).mono (by decide)) (State.readVa_spec hs va len).2.alike
    rw [(SamePlans.of_keeps hkeeps hread.alike).checkPlan, hplain.checkPlan]

/-- A container that fails changes no plan, and its failure is answered (R520). -/
theorem planLoad_fails {s : State} {k : SlotId} {va len : Nat} {e : PlanErr} (hInv : s.Inv) (hserved : IsServed s k 0x0301)
    (hbody : planLoadBody (s.asks k) (s.taken k) = (((s.taken k).readVa va len).2, some (e.code, e.bytes)))
    (hcode : e.code ≠ cWAIT) :
    ∃ t, exec (.planLoad k) s = .next t ∧ Replied s t k e.code e.bytes ∧ SameBytes (fun _ => False) s t
      ∧ Keeps [.mbx, .aon, .mem, .coh, .rgn] s t := by
  obtain ⟨-, hread, hframe, -⟩ := State.taken_reads hInv.sound k va len
  obtain ⟨hreplied, hkeeps⟩ := hserved.take_replied hInv.mbx hbody hcode (State.readVa_keeps _ va len .mbx (by decide))
  exact ⟨_, rfl, hreplied, (hread.trans (hkeeps.rewrites (by decide) hread.sound)).bytes,
    hframe.trans (hkeeps.mono (by decide))⟩

/-- A container that passes its checks is loaded (R520, R521). -/
theorem planLoad_loads {s : State} {k : SlotId} {va len : Nat} {b : Bytes} (hInv : s.Inv) (hserved : IsServed s k 0x0301)
    (hbody : planLoadBody (s.asks k) (s.taken k) = ((s.taken k).readVa va len).2.loadPlan b)
    (hcheck : ((s.taken k).readVa va len).2.checkPlan b = none) :
    ∃ (t : State) (p : Plan) (l : List SendCtx) (d : Bytes), exec (.planLoad k) s = .next t ∧ Replied s t k cOK d
      ∧ t.pln.plans = s.pln.plans ++ [p] ∧ p.handle ≠ 0 ∧ (∀ x ∈ s.pln.plans, x.handle ≠ p.handle)
      ∧ p.bytes = b ∧ t.fab = { s.fab with send := s.fab.send ++ l } ∧ (∀ c ∈ l, c.plan = p.handle)
      ∧ d.take 2 = leBytes 2 p.handle ∧ SameBytes (fun _ => False) s t
      ∧ Keeps [.mbx, .aon, .mem, .coh, .rgn, .pln, .fab] s t := by
  obtain ⟨-, hread, hframe, -⟩ := State.taken_reads hInv.sound k va len
  have hmbx : ((s.taken k).readVa va len).2.mbx = (s.taken k).mbx := State.readVa_keeps _ va len .mbx (by decide)
  generalize ((s.taken k).readVa va len).2 = u at hbody hcheck hread hframe hmbx
  have hpln : u.pln = s.pln := hframe .pln (by decide)
  have hfab : u.fab = s.fab := hframe .fab (by decide)
  obtain ⟨hzero, hfresh⟩ := nextHandle_fresh (State.checkPlan_room hcheck)
  obtain ⟨d, hload, hd⟩ := u.loadPlan_eq b
  have hwith := u.withPlan_keeps b
  obtain ⟨hreplied, hkeeps⟩ := hserved.take_replied hInv.mbx (hbody.trans hload) (by decide) hmbx
  have hrest : Keeps [.mbx, .pln, .fab] u (s.take k (·.opcode == 0x0301) planLoadBody) :=
    (hwith.mono (by decide)).trans (hkeeps.mono (by decide))
  refine ⟨_, u.newPlan b (nextHandle u.pln), u.newCtxs b, d, rfl, hreplied, ?_, ?_, ?_, u.newPlan_bytes b _, ?_,
    fun c hc => ?_, ?_,
    (hread.trans (hrest.rewrites (by decide) hread.sound)).bytes, (hframe.mono (by decide)).trans (hrest.mono (by decide))⟩
  · rw [← hpln]
    exact congrArg Pln.plans (hkeeps .pln (by decide))
  · rwa [State.newPlan_handle]
  · rwa [State.newPlan_handle, ← hpln]
  · rw [← hfab]
    exact hkeeps .fab (by decide)
  · rw [State.newPlan_handle]
    exact State.newCtxs_plan hc
  · rwa [State.newPlan_handle]

/-! ### PLAN_DROP -/

theorem Pln.get_dropped (l : Pln) (h i : Nat) :
    ({ l with plans := l.plans.filter fun p => p.handle != h }).get i = if i = h then none else l.get i := by
  unfold Pln.get
  rw [List.find?_filter]
  split
  · rename_i hi
    subst hi
    simp
  · rename_i hi
    congr 1
    funext p
    by_cases hp : p.handle = i <;> simp [hp, hi]

/-- The state with a plan gone, its contexts and what the Glade prepared for it (R330, R383, R433). -/
def State.withoutPlan (s : State) (h : Nat) : State :=
  { s with
    pln := { s.pln with plans := s.pln.plans.filter fun p => p.handle != h }
    fab := { s.fab with send := s.fab.send.filter fun c => c.plan != h }
    gld := s.gld.freePreps fun r => r.plan == h }

theorem State.withoutPlan_keeps (s : State) (h : Nat) : Keeps [.pln, .fab, .gld] s (s.withoutPlan h) := .of_patch rfl

/-- A loaded plan is dropped unless a step uses it (R330). -/
theorem planDropBody_eq {q : Req} {s : State} {h : Nat} (hh : h = q.f 0 2) (hzero : q.zb 2 6 = true)
    (hget : (s.pln.get h).isSome = true) :
    ((∀ st ∈ s.stp.current.toList ++ s.stp.queued.toList, st.plan ≠ h) → planDropBody q s = (s.withoutPlan h, rcode cOK))
      ∧ ((∃ st ∈ s.stp.current.toList ++ s.stp.queued.toList, st.plan = h) → planDropBody q s = (s, rcode cBUSY)) := by
  subst hh
  have hloaded : ¬ (!q.zb 2 6 || (s.pln.get (q.f 0 2)).isNone) = true := by simp [hzero, Option.isSome_iff_ne_none.1 hget]
  unfold planDropBody
  dsimp only
  rw [if_neg hloaded]
  refine ⟨fun hfree => if_neg ?_, fun hused => if_pos ?_⟩
  · rw [List.any_eq_true]
    rintro ⟨st, hst, hplan⟩
    exact hfree st hst (by simpa using hplan)
  · obtain ⟨st, hst, hplan⟩ := hused
    exact List.any_eq_true.2 ⟨st, hst, by simpa using hplan⟩

/-- A plan that is dropped goes with its contexts and prepared samples, and with nothing else. -/
theorem planDrop_drops {s : State} {k : SlotId} {h : Nat} (hInv : s.Inv) (hserved : IsServed s k 0x0302)
    (hbody : planDropBody (s.asks k) (s.taken k) = ((s.taken k).withoutPlan h, rcode cOK)) :
    ∃ t, exec (.planDrop k) s = .next t ∧ Replied s t k cOK [] ∧ t.pln.get h = none
      ∧ (∀ i, i ≠ h → t.pln.get i = s.pln.get i) ∧ (∀ c, c ∈ t.fab.send ↔ c ∈ s.fab.send ∧ c.plan ≠ h)
      ∧ (∀ r, r ∈ t.gld.preps ↔ r ∈ s.gld.preps ∧ r.plan ≠ h) ∧ Keeps [.mbx, .aon, .pln, .fab, .gld] s t := by
  obtain ⟨hreplied, hkeeps⟩ := hserved.take_replied hInv.mbx hbody (by decide) rfl
  have hpln : (s.take k (·.opcode == 0x0302) planDropBody).pln = ((s.taken k).withoutPlan h).pln := hkeeps .pln (by decide)
  have hfab : (s.take k (·.opcode == 0x0302) planDropBody).fab = ((s.taken k).withoutPlan h).fab := hkeeps .fab (by decide)
  have hgld : (s.take k (·.opcode == 0x0302) planDropBody).gld = ((s.taken k).withoutPlan h).gld := hkeeps .gld (by decide)
  refine ⟨_, rfl, hreplied, ?_, fun i hi => ?_, fun c => ?_, fun r => ?_, ((s.taken_keeps k).mono (by decide)).trans
    ((((s.taken k).withoutPlan_keeps h).mono (by decide)).trans (hkeeps.mono (by decide)))⟩
  · rw [hpln]
    exact (s.pln.get_dropped h h).trans (if_pos rfl)
  · rw [hpln]
    exact (s.pln.get_dropped h i).trans (if_neg hi)
  · rw [hfab]
    simp [State.withoutPlan, State.taken]
  · rw [hgld]
    simp [State.withoutPlan, State.taken, Gld.freePreps]

/-! ### The statement -/

/-- Settles O39: a container's checks see nothing that reading it or taking the request changes, so that it is loaded or fails as
they say, and the drop of a plan is one filter of the plans, the contexts and the prepared samples. -/
theorem plansLoaded : Obligations.PlansLoaded := by
  unfold Obligations.PlansLoaded
  refine ⟨?_, ?_⟩
  · intro s k va len hInv hserved hva hlen hzero hvaOk halign hmin hacc hsize
    obtain ⟨hpeek, -, -, hcheck⟩ := State.taken_reads hInv.sound k va len
    have hbody := planLoadBody_reads (s := s.taken k) hva hlen hzero hvaOk halign hmin hacc (hpeek ▸ hsize)
    rw [hpeek, hcheck] at hbody
    obtain ⟨hloads, hfails⟩ := hbody
    exact ⟨fun hnone => planLoad_loads hInv hserved (hloads hnone) (hcheck ▸ hnone),
      fun e he => planLoad_fails hInv hserved (hfails e he) (State.checkPlan_code he)⟩
  · intro s k h hInv hserved hh hzero hget
    obtain ⟨hdrops, hbusy⟩ := planDropBody_eq (s := s.taken k) hh hzero hget
    exact ⟨fun hfree => planDrop_drops hInv hserved (hdrops hfree),
      fun hused => ⟨_, rfl, hserved.take_onlyReplies hInv.mbx (hbusy hused) (by decide)⟩⟩

end Sys2Proof.Machine
end

section
/-! SUPPORT. Commands about the fabric (R400 to R402, R507). -/

namespace Sys2Proof.Machine

/-! ### FABRIC_STATUS and PORT_INFO -/

/-- PORT_INFO of a port that has a number answers its state. -/
theorem portInfo_replies {s : State} {k : SlotId} {b : Bytes} (hInv : s.Inv) (hserved : IsServed s k 0x0603)
    (hzero : (s.asks k).zb 1 7 = true) (hport : s.portInfo ((s.asks k).f 0 1) = some b) :
    ∃ t, exec (.portInfo k) s = .next t ∧ OnlyReplies s t k cOK b := by
  refine ⟨_, rfl, hserved.take_onlyReplies hInv.mbx ?_ (by decide)⟩
  rw [show (s.taken k).portInfo = s.portInfo from rfl, hport]
  simp [hzero]

/-! ### FABRIC_MAP_LOAD -/

theorem mem_sortBy {α : Type} {key : α → Nat} {x : α} {l : List α} : x ∈ sortBy key l ↔ x ∈ l := by
  have hfold : ∀ (l acc : List α), x ∈ l.foldl (fun acc y => insertBy key y acc) acc ↔ x ∈ acc ∨ x ∈ l := by
    intro l
    induction l with
    | nil => simp
    | cons y r ih =>
      intro acc
      rw [List.foldl_cons, ih, mem_insertBy, List.mem_cons]
      tauto
  exact (hfold l []).trans (by simp)

/-- The reserved bytes of a FABRIC_MAP_LOAD request are zero. -/
structure Req.MapZeros (q : Req) : Prop where
  flags : q.zb 7 1 = true
  head : q.zb 0x0A 6 = true
  entries : ∀ i < 512, q.rz (0x10 + 2 * i) 2 15 14 = true

theorem Req.MapZeros.ok {q : Req} (h : q.MapZeros) :
    (q.zb 7 1 && q.zb 0x0A 6 && (List.range 512).all fun i => q.rz (0x10 + 2 * i) 2 15 14) = true := by
  have hall : ((List.range 512).all fun i => q.rz (0x10 + 2 * i) 2 15 14) = true :=
    List.all_eq_true.2 fun i hi => h.entries i (List.mem_range.1 hi)
  rw [h.flags, h.head, hall]
  rfl

/-- The map is too late for a machine that has formed, or a device that is outside it (R400). -/
theorem fabricMapLoadBody_late {q : Req} {s : State} (hzero : q.MapZeros) (h : s.fab.fs.member = true ∨ s.fab.fs = .isolated) :
    fabricMapLoadBody q s = (s, rcode cTOO_LATE) := by
  unfold fabricMapLoadBody
  dsimp only
  rw [if_neg (by simp [hzero.ok]), if_pos (by simpa using h)]

/-- What a request's map says of this machine: its sizes are the machine's own where they are given, and the retired addresses
are others of its torus, each once (R401). -/
structure Fab.Fits (f : Fab) (q : Req) : Prop where
  x : q.f 4 1 = 0 ∨ q.f 4 1 = f.sx
  y : q.f 5 1 = 0 ∨ q.f 5 1 = f.sy
  z : q.f 6 1 = 0 ∨ q.f 6 1 = f.sz
  wait : q.f 0 4 ≤ 3600000
  count : q.f 8 2 ≤ 512
  rest : q.zb (0x10 + 2 * q.f 8 2) (1024 - 2 * q.f 8 2) = true
  nodup : (retireList q).Nodup
  others : ∀ a ∈ retireList q, f.names a = true ∧ f.addr ≠ some a

/-- The wait that a map sets, in milliseconds (R401). -/
def Req.mapWait (q : Req) : Nat := if q.f 0 4 = 0 then 60000 else q.f 0 4

/-- The device keeps the wait and the retired addresses of a map. -/
def State.mapKept (s : State) (q : Req) : State :=
  { s with fab := { s.fab with fmWait := q.mapWait, retired := sortBy id (retireList q) } }

/-- While the ports still train, and the wait is not over, the map is kept. -/
theorem fabricMapLoadBody_kept {q : Req} {s : State} (hzero : q.MapZeros) (hfs : s.fab.fs = .training) (hfit : s.fab.Fits q)
    (htick : s.aon.tick.toNat < s.fab.startTick + q.mapWait * 100000) : fabricMapLoadBody q s = (s.mapKept q, rcode cOK) := by
  obtain ⟨hx, hy, hz, hwait, hcount, hrest, hnodup, hothers⟩ := hfit
  have hsize : ∀ {a b : Nat}, a = 0 ∨ a = b → (a != 0 && a != b) = false := by
    rintro a b (rfl | rfl) <;> simp
  have hnone : ((retireList q).any fun a => !s.fab.names a || s.fab.addr == some a) = false :=
    List.any_eq_false.2 fun a ha => by simp [hothers a ha]
  have hidle : (s.mapKept q).enterPartial = s.mapKept q ∧ (s.mapKept q).mapped = s.mapKept q := by
    constructor
    · unfold State.enterPartial
      rw [show (s.mapKept q).fab.fs = .training from hfs]
    · unfold State.mapped
      rw [if_pos (by rw [show (s.mapKept q).fab.fs = .training from hfs]; rfl)]
  unfold fabricMapLoadBody
  dsimp only
  rw [if_neg (by simp [hzero.ok]), if_neg (by simp [hfs, FsState.member]),
    if_neg (by simp [hsize hx, hsize hy, hsize hz, hwait, hcount]), if_neg (by simp [hrest]), if_neg (by simp [hnone, hnodup]),
    if_neg (by rw [Req.mapWait] at htick; omega)]
  obtain ⟨henter, hmapped⟩ := hidle
  refine congrArg (·, rcode cOK) ?_
  split
  · split
    · exact henter
    · rfl
  · exact hmapped

theorem fabricMapLoad_late {s : State} {k : SlotId} (hInv : s.Inv) (hserved : IsServed s k 0x0602) (hzero : (s.asks k).MapZeros)
    (h : s.fab.fs.member = true ∨ s.fab.fs = .isolated) :
    ∃ t, exec (.fabricMapLoad k) s = .next t ∧ OnlyReplies s t k cTOO_LATE [] :=
  ⟨_, rfl, hserved.take_onlyReplies hInv.mbx (fabricMapLoadBody_late (s := s.taken k) hzero h) (by decide)⟩

/-- A map that is in time is kept, and nothing else of the fabric changes. -/
theorem fabricMapLoad_keeps {s : State} {k : SlotId} (hInv : s.Inv) (hserved : IsServed s k 0x0602)
    (hzero : (s.asks k).MapZeros) (hfs : s.fab.fs = .training) (hfit : s.fab.Fits (s.asks k))
    (htick : s.aon.tick.toNat < s.fab.startTick + (s.asks k).mapWait * 100000) :
    ∃ t, exec (.fabricMapLoad k) s = .next t ∧ Replied s t k cOK [] ∧ Keeps [.mbx, .aon, .fab] s t
      ∧ t.fab = { s.fab with fmWait := (s.asks k).mapWait, retired := t.fab.retired }
      ∧ ∀ a, a ∈ t.fab.retired ↔ a ∈ retireList (s.asks k) := by
  obtain ⟨hreplied, hkeeps⟩ := hserved.take_replied hInv.mbx (fabricMapLoadBody_kept (s := s.taken k) hzero hfs hfit htick)
    (by decide) rfl
  have hfab : (s.take k (·.opcode == 0x0602) fabricMapLoadBody).fab =
      { s.fab with fmWait := (s.asks k).mapWait, retired := sortBy id (retireList (s.asks k)) } := hkeeps .fab (by decide)
  refine ⟨_, rfl, hreplied, Keeps.trans (.of_patch rfl) (hkeeps.mono (by decide)), ?_, fun a => ?_⟩
  · rw [hfab]
  · rw [hfab]
    dsimp only
    exact mem_sortBy

/-- Settles O48: the two questions are answered from a state that the taking of the request leaves alone, and the body of
FABRIC_MAP_LOAD has no barrier to enter while the ports still train. -/
theorem fabricCommands : Obligations.FabricCommands := by
  unfold Obligations.FabricCommands
  refine ⟨fun s k hInv hserved => ⟨_, rfl, hserved.take_onlyReplies hInv.mbx rfl (by decide)⟩,
    fun s k b hInv hserved hzero hport => portInfo_replies hInv hserved hzero hport, ?_⟩
  rintro s k q wait hInv rfl hserved hflags hhead hentries
  refine ⟨fabricMapLoad_late hInv hserved ⟨hflags, hhead, hentries⟩, ?_⟩
  rintro hfs hx hy hz hwait hcount hrest hnodup hothers rfl htick
  exact fabricMapLoad_keeps hInv hserved ⟨hflags, hhead, hentries⟩ hfs
    ⟨hx, hy, hz, hwait, hcount, hrest, hnodup, hothers⟩ htick

end Sys2Proof.Machine
end

section
/-! SUPPORT. What the work of a step does to the fabric: it drops chains and gather requests, and touches no port and no context, so
that a context that fails, and what fails with it, leave every port alone (R387, R413, R634). -/

namespace Sys2Proof.Machine

/-- Only chains and gather requests of the fabric differ. -/
def WorkDropped (s t : State) : Prop := ∃ cs gs, t.fab = { s.fab with chains := cs, gatherReqs := gs }

theorem WorkDropped.trans {s t u : State} (h : WorkDropped s t) (k : WorkDropped t u) : WorkDropped s u := by
  obtain ⟨_, _, h⟩ := h
  obtain ⟨cs, gs, k⟩ := k
  exact ⟨cs, gs, by rw [k, h]⟩

theorem WorkDropped.refl (s : State) : WorkDropped s s := ⟨_, _, rfl⟩

theorem Keeps.workDropped {l : List Part} {s t : State} (h : Keeps l s t) (hl : .fab ∉ l) : WorkDropped s t := by
  have hfab : t.fab = s.fab := h .fab hl
  exact ⟨_, _, hfab⟩

theorem WorkDropped.ports {s t : State} (h : WorkDropped s t) : t.fab.ports = s.fab.ports := by
  obtain ⟨_, _, h⟩ := h
  rw [h]

/-! ### The decision on a verdict -/

theorem State.endStep_workDropped (s : State) (code cls : Nat) (lsNext : Int) : WorkDropped s (s.endStep code cls lsNext) := by
  unfold State.endStep
  split
  · exact .refl s
  · dsimp only
    refine WorkDropped.trans ?_ ((State.raise_keeps _ _ _ _ _ _).workDropped (by decide))
    split
    · exact ⟨_, _, rfl⟩
    · exact WorkDropped.trans ⟨_, _, rfl⟩ ((State.abortQueued_keeps _).workDropped (by decide))

theorem State.commitStep_workDropped (s : State) (v : Verdict) : WorkDropped s (s.commitStep v) := by
  unfold State.commitStep
  split
  · exact .refl s
  · refine WorkDropped.trans ?_ (State.endStep_workDropped _ _ _ _)
    refine WorkDropped.trans ?_ ((State.phaseEnd_keeps _ _).workDropped (by decide))
    refine WorkDropped.trans ?_ ((State.policy_keeps _ _ _).workDropped (by decide))
    exact ((s.phaseStart_keeps 8).workDropped (by decide)).trans ⟨_, _, rfl⟩

theorem State.clipRound_workDropped (s : State) (st : Step) (k : Nat) : WorkDropped s (s.clipRound st k) := by
  unfold State.clipRound
  split
  · exact .refl s
  · refine foldl_keeps (P := WorkDropped s) (fun t d ht => ht.trans ?_) _ s (.refl s)
    split
    · split
      · exact (t.redoFails_keeps _ _ _).workDropped (by decide)
      · exact (t.recompute_keeps _ _ _ _ _ _ _).workDropped (by decide)
    · exact .refl t

theorem State.nextRound_workDropped (s : State) (st : Step) (k : Option Nat) : WorkDropped s (s.nextRound st k) :=
  (s.nextRound_only st k).workDropped (by decide)

theorem State.nextClip_workDropped (s : State) (st : Step) (v : Verdict) : WorkDropped s (s.nextClip st v) :=
  ((s.nextRound_workDropped st _).trans ((State.onStep_keeps _ _).workDropped (by decide))).trans
    (State.clipRound_workDropped _ _ _)

theorem State.decideVerdict_workDropped (s : State) (v : Verdict) (watch : List WatchEntry) :
    WorkDropped s (s.decideVerdict v watch) := by
  cases hact : s.stp.active with
  | none =>
    unfold State.decideVerdict
    rw [hact]
    exact .refl s
  | some st =>
    rw [State.decideVerdict_eq hact]
    refine WorkDropped.trans ((s.noteVerdict_keeps st v watch).workDropped (by decide)) ?_
    cases v.rule with
    | commit => exact State.commitStep_workDropped _ v
    | skip | hold => exact ((State.policy_keeps _ _ _).workDropped (by decide)).trans (State.endStep_workDropped _ _ _ _)
    | clip => exact State.nextClip_workDropped _ _ _
    | referee c =>
      refine WorkDropped.trans ?_ ((State.onStep_keeps _ _).workDropped (by decide))
      refine WorkDropped.trans ?_ ((State.refereeRound_keeps _).workDropped (by decide))
      cases c with
      | true => exact State.nextClip_workDropped _ _ _
      | false => exact State.nextRound_workDropped _ _ _

/-! ### Votes and holds -/

theorem Moved.workDropped {s t : State} {round : Nat} {v : Verdict} {w : List WatchEntry} (h : Moved s round v w t) :
    WorkDropped s t := by
  cases h with
  | stands os axis sent => exact ⟨_, _, rfl⟩
  | decides os => exact State.decideVerdict_workDropped (s.emits os) v w

theorem State.verdictMove_workDropped {s t : State} (h : s.verdictMove = some t) : WorkDropped s t := by
  obtain ⟨st, r, -, -, ⟨w, hm⟩ | ⟨-, m, v, w, hm⟩⟩ := State.verdictMove_cases h
  · exact hm.workDropped
  · exact WorkDropped.trans (t := s.takeVerdict m) ⟨_, _, rfl⟩ hm.workDropped

theorem verdictMoves_workDropped : ∀ (n : Nat) (s : State), WorkDropped s (verdictMoves n s) := by
  intro n
  induction n with
  | zero => exact fun s => .refl s
  | succ n ih =>
    intro s
    unfold verdictMoves
    split
    · rename_i t ht
      exact (State.verdictMove_workDropped ht).trans (ih t)
    · exact .refl s

theorem State.vote_workDropped (s : State) (v : Verdict) (clear : Bool) : WorkDropped s (s.vote v clear) := by
  cases h : s.stp.active with
  | none =>
    unfold State.vote
    rw [h]
    exact .refl s
  | some st =>
    rw [State.vote_eq h]
    exact ((s.voted_keeps v clear st).workDropped (by decide)).trans (verdictMoves_workDropped 8 _)

theorem State.localHold_workDropped (s : State) (code : Nat) : WorkDropped s (s.localHold code) := by
  obtain h | ⟨f, h⟩ | h | ⟨st, -, h⟩ := s.localHold_cases code <;> rw [h]
  · exact .refl s
  · exact (s.onStep_keeps f).workDropped (by decide)
  · unfold State.endFree
    split
    · exact .refl s
    · exact s.endStep_workDropped _ _ _
  · exact WorkDropped.trans (t := s.holdStarts st code) ⟨_, _, rfl⟩ (State.vote_workDropped _ _ _)

/-! ### Contexts that fail -/

theorem State.instFails_ports (s : State) (op mb code : Nat) : (s.instFails op mb code).fab.ports = s.fab.ports :=
  (((s.instDone_keeps op mb code).workDropped (by decide)).trans (State.localHold_workDropped _ _)).ports

theorem State.failCtx_ports (s : State) (c : SendCtx) : (s.failCtx c).fab.ports = s.fab.ports := by
  unfold State.failCtx State.endCtx
  dsimp only
  split
  · split_ifs
    · exact State.instFails_ports _ _ _ _
    · rfl
  · rfl

/-- What has become unreachable fails contexts and instances, and changes no port (R387). -/
theorem State.checkReach_ports (s : State) : s.checkReach.fab.ports = s.fab.ports := by
  have hfailed : ∀ cs : List SendCtx, (cs.foldl (fun s c => s.failCtx c) s).fab.ports = s.fab.ports := fun cs =>
    foldl_keeps (P := fun t : State => t.fab.ports = s.fab.ports) (fun t c ht => (t.failCtx_ports c).trans ht) cs s rfl
  unfold State.checkReach
  dsimp only
  split
  · exact hfailed _
  · rename_i st p _
    refine foldl_keeps (P := fun t : State => t.fab.ports = s.fab.ports) (fun t i ht => ?_) _ _ (hfailed _)
    split
    · split
      · exact (State.instFails_ports _ _ _ _).trans ht
      · exact ht
    · exact ht

@[simp] theorem State.checkReach_port (s : State) (n : Nat) : s.checkReach.fab.port n = s.fab.port n :=
  congrArg (·.get n) s.checkReach_ports

end Sys2Proof.Machine
end

section
/-! SUPPORT. Sending on ports: a flit that goes out, or waits, changes of any port its flits and their numbers only, and a port that
retrains or goes down hands its flits to the others of its bundle (R374 to R376, R379). -/

namespace Sys2Proof.Machine

/-! ### What sending changes -/

/-- What sending changes of a port: the next number, the flits that are out or wait, and the port's state. -/
def Port.Flows (p q : Port) : Prop :=
  ∃ pi next unacked waiting, q = { p with pi := pi, next := next, unacked := unacked, waiting := waiting }

theorem Port.Flows.refl (p : Port) : p.Flows p := ⟨_, _, _, _, rfl⟩

theorem Port.Flows.trans {p q r : Port} (h : p.Flows q) (k : q.Flows r) : p.Flows r := by
  obtain ⟨_, _, _, _, rfl⟩ := h
  obtain ⟨_, _, _, _, rfl⟩ := k
  exact ⟨_, _, _, _, rfl⟩

/-- What sending changes of the state: its ports, as it changes each of them, what goes out, and what is counted of it. -/
structure Flows (s t : State) : Prop where
  keeps : Keeps [.fab, .out, .obs] s t
  fab : ∃ ps, t.fab = { s.fab with ports := ps }
  port : ∀ {n p}, s.fab.port n = some p → ∃ q, t.fab.port n = some q ∧ p.Flows q

theorem Flows.trans {s t u : State} (h : Flows s t) (k : Flows t u) : Flows s u where
  keeps := h.keeps.trans k.keeps
  fab := by
    obtain ⟨_, hs⟩ := h.fab
    obtain ⟨ps, ht⟩ := k.fab
    exact ⟨ps, by rw [ht, hs]⟩
  port := fun hp => by
    obtain ⟨q, hq, hpq⟩ := h.port hp
    obtain ⟨r, hr, hqr⟩ := k.port hq
    exact ⟨r, hr, hpq.trans hqr⟩

theorem Keeps.flows {s t : State} (h : Keeps [.out, .obs] s t) : Flows s t where
  keeps := h.mono (by decide)
  fab := ⟨_, h .fab (by decide)⟩
  port := fun hp => by
    have hfab : t.fab = s.fab := h .fab (by decide)
    exact ⟨_, hfab ▸ hp, .refl _⟩

theorem Flows.refl (s : State) : Flows s s := (Keeps.refl _ s).flows

theorem Flows.foldl {α : Type} {f : State → α → State} (hf : ∀ s a, Flows s (f s a)) (as : List α) (s : State) :
    Flows s (as.foldl f s) :=
  foldl_keeps (P := Flows s) (fun t a ht => ht.trans (hf t a)) as s (.refl s)

theorem Flows.noWork {s t : State} (h : Flows s t) (hw : NoWork s) : NoWork t := by
  obtain ⟨_, hfab⟩ := h.fab
  exact noWork_congr hw (by rw [hfab]) (h.keeps .stp (by decide))

theorem State.setPort_port_same (s : State) (n : Nat) (p : Port) : (s.setPort n p).fab.port n = some p :=
  AL.get_set_same _ _ _

theorem State.setPort_port_ne (s : State) {n m : Nat} (h : m ≠ n) (p : Port) : (s.setPort n p).fab.port m = s.fab.port m :=
  AL.get_set_ne _ h _

theorem State.setPort_flows {s : State} {n : Nat} {p q : Port} (hport : s.fab.port n = some p) (h : p.Flows q) :
    Flows s (s.setPort n q) where
  keeps := .of_patch rfl
  fab := ⟨_, rfl⟩
  port := fun {m r} hr => by
    by_cases hm : m = n
    · subst hm
      obtain rfl := Option.some.inj (hport.symm.trans hr)
      exact ⟨q, s.setPort_port_same m q, h⟩
    · exact ⟨r, (s.setPort_port_ne hm q).trans hr, .refl r⟩

theorem State.portState_flows {s : State} {n : Nat} {p q : Port} (hport : s.fab.port n = some p) (h : p.Flows q) (pi : Nat) :
    Flows s (s.portState n q pi) := by
  have hset : Flows s (s.setPort n { q with pi := pi }) := State.setPort_flows hport (h.trans ⟨_, _, _, _, rfl⟩)
  unfold State.portState
  dsimp only
  split
  · exact hset
  · exact hset.trans ((State.trace_keeps _ _ _ _ _ _ _).mono (by decide)).flows

/-! ### Flits that go out -/

/-- The port's next flit is out. -/
def Port.sending (p : Port) (x : Flit) : Port := { p with unacked := p.unacked ++ [⟨p.next, 0, x⟩], next := p.next + 1 }

/-- A trained port with fewer than 64 flits unacknowledged sends at once (R375). -/
theorem State.portSend_sends {s : State} {n : Nat} {p : Port} (hport : s.fab.port n = some p) (ht : p.trained = true)
    (hroom : p.unacked.length < 64) (x : Flit) :
    s.portSend n x = ((s.setPort n (p.sending x)).emit (.flit n (p.sent p.next x))).count 0x400 n := by
  unfold State.portSend
  rw [hport]
  dsimp only
  rw [if_pos (by simp [hroom, ht])]
  rfl

theorem State.portSend_port {s : State} {n : Nat} {p : Port} (hport : s.fab.port n = some p) (ht : p.trained = true)
    (hroom : p.unacked.length < 64) (x : Flit) : (s.portSend n x).fab.port n = some (p.sending x) := by
  rw [State.portSend_sends hport ht hroom]
  exact s.setPort_port_same n _

theorem State.portSend_waits {s : State} {n : Nat} {p : Port} (hport : s.fab.port n = some p)
    (h : ¬ (p.trained = true ∧ p.unacked.length < 64)) (x : Flit) :
    s.portSend n x = s.setPort n { p with waiting := p.waiting ++ [x] } := by
  unfold State.portSend
  rw [hport]
  dsimp only
  rw [if_neg (by simpa [and_comm] using h)]

theorem State.portSend_flows (s : State) (n : Nat) (x : Flit) : Flows s (s.portSend n x) := by
  cases hport : s.fab.port n with
  | none =>
    unfold State.portSend
    rw [hport]
    exact .refl s
  | some p =>
    by_cases h : p.trained = true ∧ p.unacked.length < 64
    · rw [State.portSend_sends hport h.1 h.2]
      exact (State.setPort_flows hport ⟨_, _, _, _, rfl⟩).trans (Keeps.flows (.of_patch rfl))
    · rw [State.portSend_waits hport h]
      exact State.setPort_flows hport ⟨_, _, _, _, rfl⟩

theorem State.sendFlit_flows (s : State) (b vc : Nat) (x : Flit) : Flows s (s.sendFlit b vc x) := by
  unfold State.sendFlit
  split
  · exact s.portSend_flows _ _
  · exact .refl s

/-- All of a port's flits, in order: those that are out, and those that wait. -/
def Port.flits (p : Port) : List Flit := p.unacked.map (·.flit) ++ p.waiting

theorem Port.flits_sending {p : Port} {x : Flit} {r : List Flit} (h : p.waiting = x :: r) :
    (Port.sending { p with waiting := r } x).flits = p.flits := by simp [Port.flits, Port.sending, h]

/-- A waiting flit of a port goes out, and then those behind it, or nothing does. -/
theorem drainPort_succ (k : Nat) (s : State) (n : Nat) :
    drainPort (k + 1) s n = s
      ∨ ∃ p x r, s.fab.port n = some p ∧ p.waiting = x :: r ∧ p.trained = true ∧ p.unacked.length < 64
        ∧ drainPort (k + 1) s n = drainPort k ((s.setPort n { p with waiting := r }).portSend n x) n := by
  rw [drainPort]
  split
  · rename_i p hport
    split
    · rename_i x r hw
      split
      · rename_i h
        obtain ⟨hroom, ht⟩ : p.unacked.length < 64 ∧ p.trained = true := by simpa using h
        exact .inr ⟨p, x, r, hport, hw, ht, hroom, rfl⟩
      · exact .inl rfl
    · exact .inl rfl
  · exact .inl rfl

theorem drainPort_flows {n : Nat} : ∀ (k : Nat) (s : State), Flows s (drainPort k s n) := by
  intro k
  induction k with
  | zero => exact .refl
  | succ k ih =>
    intro s
    obtain h | ⟨p, x, r, hport, -, -, -, h⟩ := drainPort_succ k s n <;> rw [h]
    · exact .refl s
    · exact ((State.setPort_flows hport ⟨_, _, _, _, rfl⟩).trans (State.portSend_flows _ _ _)).trans (ih _)

/-- The flits that go out keep their order, and no more than 64 are unacknowledged. -/
theorem drainPort_port {n : Nat} : ∀ (k : Nat) {s : State} {p : Port}, s.fab.port n = some p → p.unacked.length ≤ 64 →
    ∃ q, (drainPort k s n).fab.port n = some q ∧ q.flits = p.flits ∧ q.unacked.length ≤ 64 ∧ q.pi = p.pi := by
  intro k
  induction k with
  | zero => exact fun hport hlen => ⟨_, hport, rfl, hlen, rfl⟩
  | succ k ih =>
    intro s p hport hlen
    obtain h | ⟨p', x, r, hport', hw, ht, hroom, h⟩ := drainPort_succ k s n <;> rw [h]
    · exact ⟨p, hport, rfl, hlen, rfl⟩
    · obtain rfl := Option.some.inj (hport.symm.trans hport')
      have hnext := State.portSend_port (s.setPort_port_same n { p with waiting := r }) ht hroom x
      obtain ⟨q, hq, hflits, hq64, hpi⟩ := ih hnext (by simp [Port.sending]; omega)
      exact ⟨q, hq, hflits.trans (Port.flits_sending hw), hq64, hpi⟩

theorem State.drain_flows (s : State) (n : Nat) : Flows s (s.drain n) := by
  unfold State.drain
  split
  · exact drainPort_flows _ s
  · exact .refl s

theorem State.drain_port {s : State} {n : Nat} {p : Port} (hport : s.fab.port n = some p) (hlen : p.unacked.length ≤ 64) :
    ∃ q, (s.drain n).fab.port n = some q ∧ q.flits = p.flits ∧ q.unacked.length ≤ 64 ∧ q.pi = p.pi := by
  unfold State.drain
  rw [hport]
  exact drainPort_port _ hport hlen

/-! ### A port hands its flits on -/

/-- The port without its flits, out of its bundle while they leave on others. -/
def Port.aside (p : Port) : Port := { p with unacked := [], waiting := [], inBundle := false }

/-- A port that comes back to its bundle has sent nothing but flits. -/
theorem Flows.rejoin {s t : State} {n : Nat} {p : Port} (hport : s.fab.port n = some p) (h : Flows (s.setPort n p.aside) t) :
    ∃ q, t.fab.port n = some q ∧ Flows s (t.setPort n { q with inBundle := p.inBundle }) := by
  obtain ⟨q, hq, pi, next, unacked, waiting, rfl⟩ := h.port (s.setPort_port_same n p.aside)
  refine ⟨_, hq, ((Keeps.of_patch rfl).trans h.keeps).trans (.of_patch rfl), ?_, fun {m r} hr => ?_⟩
  · obtain ⟨_, hfab⟩ := h.fab
    simp only [State.setPort, hfab]
    exact ⟨_, rfl⟩
  · by_cases hm : m = n
    · subst hm
      obtain rfl := Option.some.inj (hport.symm.trans hr)
      exact ⟨_, t.setPort_port_same m _, _, _, _, _, rfl⟩
    · obtain ⟨r', hr', hflow⟩ := h.port ((s.setPort_port_ne hm _).trans hr)
      exact ⟨r', (t.setPort_port_ne hm _).trans hr', hflow⟩

/-- The flits of a port that retrains or goes down wait in it, or leave on the other ports of its bundle (R376). -/
theorem State.handOffFlits_flows (s : State) (n : Nat) (drop : Bool) : Flows s (s.handOffFlits n drop) := by
  unfold State.handOffFlits
  split
  · exact .refl s
  · rename_i p hport
    dsimp only
    split
    · exact State.setPort_flows hport ⟨_, _, _, _, rfl⟩
    · obtain ⟨q, hq, hback⟩ := Flows.rejoin hport (.foldl (fun s x => s.sendFlit_flows p.bundle x.vc x) _ _)
      split
      · rename_i q' hq'
        obtain rfl := Option.some.inj (hq.symm.trans hq')
        exact hback
      · rename_i hnone
        exact nomatch hq.symm.trans hnone

end Sys2Proof.Machine
end

section
/-! SUPPORT. Ports that go down, retrain or replay (R375, R376). -/

namespace Sys2Proof.Machine

/-! ### A port goes down -/

/-- A port that has gone down, before it enters its state (R376). -/
def Port.fallen (p : Port) : Port :=
  { p with trained := false, verified := false, inBundle := false, probation := false, nakSent := false, downs := p.downs + 1 }

theorem State.portDown_eq {s : State} {n : Nat} {q : Port} (hport : (s.handOffFlits n true).fab.port n = some q) :
    s.portDown n = ((((s.handOffFlits n true).portState n q.fallen 2).fabricNote 0xFFFF [n]).linkChange).checkReach := by
  unfold State.portDown
  dsimp only
  rw [hport]
  rfl

/-- A port that goes down has lost its flits, its bundle and its training. -/
theorem State.portDown_port {s : State} {n : Nat} {p : Port} (hport : s.fab.port n = some p) :
    ∃ q, p.Flows q ∧ (s.portDown n).fab.port n = some { q.fallen with pi := 2 } := by
  obtain ⟨q, hq, hflow⟩ := (s.handOffFlits_flows n true).port hport
  refine ⟨q, hflow, ?_⟩
  rw [State.portDown_eq hq, State.checkReach_port, State.linkChange_port]
  exact State.portState_port_same _ n _ 2

/-- Without work, the port's fall is all that there is to report (R387). -/
theorem State.portDown_att {s : State} {n : Nat} {p : Port} (hport : s.fab.port n = some p) (hw : NoWork s) :
    (s.portDown n).att = s.att.raise s.aon.tick aFABRIC 0 noTag 0xFFFF (2 ^ n) := by
  have hoff := s.handOffFlits_flows n true
  obtain ⟨q, hq, -⟩ := hoff.port hport
  have hkeeps := hoff.keeps.trans ((State.portState_keeps _ n q.fallen 2).mono (by decide))
  have hatt : ((s.handOffFlits n true).portState n q.fallen 2).att = s.att := hkeeps .att (by decide)
  have haon : ((s.handOffFlits n true).portState n q.fallen 2).aon = s.aon := hkeeps .aon (by decide)
  have hidle : NoWork (((s.handOffFlits n true).portState n q.fallen 2).fabricNote 0xFFFF [n]).linkChange :=
    noWork_congr (hoff.noWork hw) ((State.linkChange_send _).trans (by simp [State.fabricNote]))
      ((State.linkChange_stp _).trans (State.portState_keeps _ n q.fallen 2 .stp (by decide)))
  rw [State.portDown_eq hq, State.checkReach_noWork hidle, show (State.linkChange _).att = _ from
    State.linkChange_keeps _ .att (by decide)]
  simp [State.fabricNote, hatt, haon]

/-! ### A port retrains -/

/-- A port that retrains is not trained, whether the retrain takes it down or not, and the retrain is counted (R376). -/
theorem State.portRetrain_port {s : State} {n : Nat} {p : Port} (hport : s.fab.port n = some p) :
    ∃ q, (s.portRetrain n).fab.port n = some q ∧ q.trained = false ∧ q.retrainCount = p.retrainCount + 1 := by
  unfold State.portRetrain
  split
  · rename_i hnone
    exact nomatch hport.symm.trans hnone
  rename_i p' hport'
  obtain rfl := Option.some.inj (hport.symm.trans hport')
  extract_lets _ retrains counted
  have hcounted : counted.fab.port n = some { p with retrains := retrains, retrainCount := p.retrainCount + 1 } :=
    s.setPort_port_same n _
  split
  · obtain ⟨q, ⟨_, _, _, _, rfl⟩, hdown⟩ := State.portDown_port hcounted
    exact ⟨_, hdown, rfl, rfl⟩
  · obtain ⟨q, hq, _, _, _, _, rfl⟩ := (counted.handOffFlits_flows n false).port hcounted
    rw [hq]
    exact ⟨_, State.portState_port_same _ n _ 4, rfl, rfl⟩

/-! ### A port replays -/

/-- An unacknowledged flit goes out once more. -/
def SentFlit.again (x : SentFlit) : SentFlit := { x with replays := x.replays + 1 }

/-- The port after flits went out again. -/
def Port.replayed (p : Port) (keep late : List SentFlit) : Port :=
  { p with unacked := keep ++ late.map SentFlit.again, replays := p.replays + (late.map SentFlit.again).length }

/-- Flits of a port go out again, behind those that stay (R375). -/
def State.replayed (s : State) (n : Nat) (p : Port) (keep late : List SentFlit) : State :=
  ((s.portState n (p.replayed keep late) p.inRetry).count 0x401 n (late.map SentFlit.again).length).emits
    ((late.map SentFlit.again).map fun x => .flit n (p.sent x.seq x.flit))

theorem State.replayed_port (s : State) (n : Nat) (p : Port) (keep late : List SentFlit) :
    (s.replayed n p keep late).fab.port n = some { p.replayed keep late with pi := p.inRetry } :=
  s.portState_port_same n _ _

theorem State.replayed_keeps (s : State) (n : Nat) (p : Port) (keep late : List SentFlit) :
    Keeps [.fab, .out, .obs] s (s.replayed n p keep late) :=
  ((s.portState_keeps n _ _).mono (by decide)).trans (.of_patch rfl)

theorem State.replayed_out (s : State) (n : Nat) (p : Port) (keep late : List SentFlit) :
    (s.replayed n p keep late).out = s.out ++ late.map fun x => .flit n (p.sent x.seq x.flit) := by
  have hout : (s.portState n (p.replayed keep late) p.inRetry).out = s.out := s.portState_keeps n _ _ .out (by decide)
  simp [State.replayed, SentFlit.again, hout, Function.comp_def]

section
variable {s : State} {n : Nat} {p : Port} {keep late : List SentFlit} {x : SentFlit}

/-- A replay from a flit sends it and all behind it again; the eighth time one goes out, the port retrains. -/
theorem State.replay_eq (hport : s.fab.port n = some p) (ht : p.trained = true) (hout : p.unacked = keep ++ x :: late)
    (hkeep : ∀ y ∈ keep, y.seq ≠ x.seq) :
    s.replay n x.seq = if ∃ y ∈ x :: late, 7 ≤ y.replays then (s.replayed n p keep (x :: late)).portRetrain n
      else s.replayed n p keep (x :: late) := by
  have htake : p.unacked.takeWhile (·.seq != x.seq) = keep := by
    rw [hout, List.takeWhile_append_of_pos (by simpa using hkeep)]
    simp
  have hdrop : p.unacked.drop keep.length = x :: late := by simp [hout]
  have hmany : (((x :: late).map SentFlit.again).any fun y => decide (8 ≤ y.replays)) = true
      ↔ ∃ y ∈ x :: late, 7 ≤ y.replays := by
    simp [SentFlit.again]
  unfold State.replay
  rw [hport]
  dsimp only
  rw [htake, hdrop, if_neg (by simp [ht])]
  exact ite_congr (propext hmany) (fun _ => rfl) fun _ => rfl

/-- Both events that make a port replay do so from the flit that they name, or from the oldest (R375). -/
theorem exec_replays (hp : s.powered = true) {n : Fin 36} (hport : s.fab.port n = some p) (hout : p.unacked = keep ++ x :: late)
    {cmd : Instr} (hcmd : cmd = .nakReceive n x.seq ∨ cmd = .flitAckTimeout n ∧ keep = []) :
    exec cmd s = .next (s.replay n x.seq) := by
  obtain rfl | ⟨rfl, rfl⟩ := hcmd
  · show execNakReceive n x.seq s = _
    simp [execNakReceive, hp]
  · show execFlitAckTimeout n s = _
    simp [execFlitAckTimeout, hport, hout, hp]

/-- While no flit goes out for the eighth time, they all go out again and nothing else happens. -/
theorem exec_replays_again (hp : s.powered = true) {n : Fin 36} (hport : s.fab.port n = some p) (ht : p.trained = true)
    (hout : p.unacked = keep ++ x :: late) (hkeep : ∀ y ∈ keep, y.seq ≠ x.seq) {cmd : Instr}
    (hcmd : cmd = .nakReceive n x.seq ∨ cmd = .flitAckTimeout n ∧ keep = []) (hfew : ∀ y ∈ x :: late, y.replays < 7) :
    ∃ t, exec cmd s = .next t
      ∧ t.out = s.out ++ (x :: late).map (fun y => .flit n (p.sent y.seq y.flit))
      ∧ t.fab.port n = some { p with unacked := keep ++ (x :: late).map (fun y => { y with replays := y.replays + 1 }),
                                     replays := p.replays + (x :: late).length, pi := p.inRetry }
      ∧ Keeps [.fab, .out, .obs] s t := by
  have hnone : ¬ ∃ y ∈ x :: late, 7 ≤ y.replays := fun ⟨y, hy, hmany⟩ => absurd (hfew y hy) (by omega)
  rw [exec_replays hp hport hout hcmd, State.replay_eq hport ht hout hkeep, if_neg hnone]
  refine ⟨_, rfl, s.replayed_out n p keep (x :: late), (s.replayed_port n p keep (x :: late)).trans ?_, s.replayed_keeps _ _ _ _⟩
  rw [Port.replayed, List.length_map]
  rfl

/-- The eighth time that a flit goes out again, the port retrains (R376). -/
theorem exec_replays_retrains (hp : s.powered = true) {n : Fin 36} (hport : s.fab.port n = some p) (ht : p.trained = true)
    (hout : p.unacked = keep ++ x :: late) (hkeep : ∀ y ∈ keep, y.seq ≠ x.seq) {cmd : Instr}
    (hcmd : cmd = .nakReceive n x.seq ∨ cmd = .flitAckTimeout n ∧ keep = []) (hmany : ∃ y ∈ x :: late, 7 ≤ y.replays) :
    ∃ t q, exec cmd s = .next t ∧ t.fab.port n = some q ∧ q.trained = false ∧ q.retrainCount = p.retrainCount + 1 := by
  rw [exec_replays hp hport hout hcmd, State.replay_eq hport ht hout hkeep, if_pos hmany]
  obtain ⟨q, hq, htrained, hcount⟩ := State.portRetrain_port (s.replayed_port n p keep (x :: late))
  exact ⟨_, q, rfl, hq, htrained, hcount⟩

end

end Sys2Proof.Machine
end

section
/-! SUPPORT. Flits that a port receives: what it discards, and what it takes (R372 to R375). -/

namespace Sys2Proof.Machine

/-! ### A flit is discarded -/

/-- A port that has sent its NAK sends no other; one that has not sends it like any flit of its own, so that it goes out at once
while fewer than 64 are unacknowledged (R374, R375). -/
theorem State.nakPort_spec {s : State} {n : Nat} {p : Port} (hport : s.fab.port n = some p) (ht : p.trained = true) :
    ∃ q, (s.nakPort n).fab.port n = some q ∧ Port.Flows { p with nakSent := true } q
      ∧ (s.nakPort n).out = s.out ++ (if p.nakSent = false ∧ p.unacked.length < 64
          then [.flit n (p.sent p.next (nakFlit p.expect))] else [])
      ∧ Keeps [.fab, .out, .obs] s (s.nakPort n) := by
  unfold State.nakPort
  rw [hport]
  dsimp only
  cases hnak : p.nakSent with
  | true => exact ⟨p, hport, ⟨p.pi, p.next, p.unacked, p.waiting, by rw [← hnak]⟩, by simp, .refl _ s⟩
  | false =>
    have hstate := s.portState_port_same n { p with nakSent := true } p.inRetry
    have hout : (s.portState n { p with nakSent := true } p.inRetry).out = s.out := s.portState_keeps n _ _ .out (by decide)
    have hsent := State.portSend_flows (s.portState n { p with nakSent := true } p.inRetry) n (nakFlit p.expect)
    obtain ⟨q, hq, hflow⟩ := hsent.port hstate
    refine ⟨q, hq, Port.Flows.trans ⟨_, _, _, _, rfl⟩ hflow, ?_,
      ((s.portState_keeps n _ _).mono (by decide)).trans hsent.keeps⟩
    rw [if_neg (by decide)]
    by_cases hroom : p.unacked.length < 64
    · rw [State.portSend_sends hstate ht hroom, if_pos ⟨rfl, hroom⟩]
      exact congrArg (· ++ _) hout
    · rw [State.portSend_waits hstate (fun h => hroom h.2), if_neg (fun h => hroom h.2), List.append_nil]
      exact hout

/-- What is counted of a flit that arrives (R372). -/
def Port.counted (p : Port) (corrected uncorrectable : Nat) (laneErr : List Nat) : Port :=
  { p with
    fecCorr := p.fecCorr + corrected, fecUncorr := p.fecUncorr + uncorrectable
    laneErr := (List.range 4).map fun i => min 65535 (p.laneErr.getD i 0 + laneErr.getD i 0) }

/-- A port with a flit counted. -/
def State.hears (s : State) (n : Nat) (p : Port) (corrected : Nat) : State := (s.setPort n p).count 0x402 n corrected

theorem State.hears_port (s : State) (n : Nat) (p : Port) (corrected : Nat) : (s.hears n p corrected).fab.port n = some p :=
  s.setPort_port_same n p

/-! ### A flit is taken -/

theorem Port.acked_flows (p : Port) (ack : BitVec 8) : p.Flows (p.acked ack) := by
  unfold Port.acked
  split
  · exact ⟨_, _, _, _, rfl⟩
  · exact .refl p

theorem State.settlePort_flows (s : State) (n : Nat) : Flows s (s.settlePort n) := by
  unfold State.settlePort
  split
  · rename_i p hport
    split
    · exact State.portState_flows hport (.refl p) 5
    · exact .refl s
  · exact .refl s

/-- A port heeds the acknowledgement of a flit that is whole: what it covers goes, and what waits goes out (R375). -/
def State.heeds (s : State) (n : Nat) (p : Port) (ack : BitVec 8) : State :=
  ((s.setPort n (p.acked ack)).drain n).settlePort n

theorem State.heeds_flows {s : State} {n : Nat} {p : Port} (hport : s.fab.port n = some p) (ack : BitVec 8) :
    Flows s (s.heeds n p ack) :=
  ((State.setPort_flows hport (p.acked_flows ack)).trans (State.drain_flows _ n)).trans (State.settlePort_flows _ n)

theorem State.settleRctx_ports (s : State) (r : RecvCtx × Bool) : (s.settleRctx r).fab.ports = s.fab.ports := by
  unfold State.settleRctx
  dsimp only
  split_ifs <;> rfl

/-- A context takes a flit, or refuses it, without a port. -/
theorem State.ctxFlit_ports (s : State) (x : Flit) : (s.ctxFlit x).fab.ports = s.fab.ports := by
  unfold State.ctxFlit
  extract_lets _ s'
  have hs' : s'.fab.ports = s.fab.ports := by
    show (ite _ _ _ : State).fab.ports = _
    split_ifs <;> rfl
  split
  · exact hs'
  · split
    · exact hs'
    · extract_lets _ _ _ settled
      have hports : settled.fab.ports = s.fab.ports := (State.settleRctx_ports _ _).trans hs'
      split_ifs <;> exact hports

/-- A flit that is delivered or forwarded changes a port only as one that it leaves on (R379). -/
theorem State.routeFlit_port {s : State} {n : Nat} {p : Port} (hport : s.fab.port n = some p) (x : Flit) :
    ∃ q, (s.routeFlit x).fab.port n = some q ∧ p.Flows q := by
  unfold State.routeFlit
  split
  · exact ⟨p, hport, .refl p⟩
  · split
    · exact ⟨p, (congrArg (·.get n) (s.ctxFlit_ports x)).trans hport, .refl p⟩
    · split
      · exact (s.sendFlit_flows _ _ x).port hport
      · exact ⟨p, hport, .refl p⟩

/-- A port takes the flit that it expects: it expects the next, and a NAK may be sent again (R374). -/
def Port.advanced (p : Port) : Port := { p with expect := p.expect + 1, nakSent := false }

theorem State.advances_port (u : State) (n : Nat) (q : Port) (x : Flit) (c : Bool) :
    ∃ r, (if c then ((u.setPort n q.advanced).settlePort n).routeFlit x else (u.setPort n q.advanced).settlePort n).fab.port n
      = some r ∧ q.advanced.Flows r := by
  obtain ⟨r, hr, hsettled⟩ := ((u.setPort n q.advanced).settlePort_flows n).port (u.setPort_port_same n q.advanced)
  split
  · obtain ⟨r', hr', hrouted⟩ := State.routeFlit_port hr x
    exact ⟨r', hr', hsettled.trans hrouted⟩
  · exact ⟨r, hr, hsettled⟩

/-! ### The event -/

section
variable {s : State} {n : Fin 36} {p : Port} {b : Bytes} {corr unc : Nat} {err : List Nat}
variable (hp : s.powered = true) (hport : s.fab.port n = some p) (ht : p.trained = true)
include hp hport ht

theorem execFlitReceive_bad (h : unc ≠ 0 ∨ flitCrcOk b = false) :
    exec (.flitReceive n b corr unc err) s = .next ((s.hears n (p.counted corr unc err) corr).nakPort n) := by
  show execFlitReceive n b corr unc err s = _
  unfold execFlitReceive
  rw [hport]
  dsimp only
  rw [if_neg (by simp [hp, ht]), if_pos (by simpa using h)]
  rfl

/-- A whole flit: what its acknowledgement does comes first, and then, unless it is IDLE, its number decides. -/
theorem execFlitReceive_good (hu : unc = 0) (hc : flitCrcOk b = true) :
    ∃ u q, ∃ c : Bool, u.fab.port n = some q ∧ (p.counted corr unc err).Flows q
      ∧ exec (.flitReceive n b corr unc err) s = .next (
        if (flitOf b).2.2.kind = 2 then u
        else if (flitOf b).1 ≠ p.expect then u.nakPort n
        else if c then ((u.setPort n q.advanced).settlePort n).routeFlit (flitOf b).2.2
        else (u.setPort n q.advanced).settlePort n) := by
  have hheard := s.hears_port n (p.counted corr unc err) corr
  obtain ⟨q, hq, hflow⟩ := (State.heeds_flows hheard (flitOf b).2.1).port hheard
  obtain ⟨_, _, _, _, hacked⟩ := Port.acked_flows (p.counted corr unc err) (flitOf b).2.1
  have hexpect : ((p.counted corr unc err).acked (flitOf b).2.1).expect = p.expect := by rw [hacked]; rfl
  have hgetD : (((s.hears n (p.counted corr unc err) corr).heeds n (p.counted corr unc err) (flitOf b).2.1).fab.port n).getD
      ((p.counted corr unc err).acked (flitOf b).2.1) = q := by rw [hq]; rfl
  refine ⟨_, q, (flitOf b).2.2.kind = 0 && ((p.counted corr unc err).acked (flitOf b).2.1).inBundle, hq, hflow, ?_⟩
  rw [← hexpect, ← hgetD]
  show execFlitReceive n b corr unc err s = _
  unfold execFlitReceive
  rw [hport]
  dsimp only
  rw [if_neg (by simp [hp, ht]), if_neg (by simp [hu, hc])]
  rfl

/-- A flit that the port discards is answered with the NAK of the flit that it expects, once. -/
theorem flitReceive_bad (h : unc ≠ 0 ∨ flitCrcOk b = false) :
    ∃ t q, exec (.flitReceive n b corr unc err) s = .next t ∧ t.fab.port n = some q
      ∧ q.fecCorr = p.fecCorr + corr ∧ q.fecUncorr = p.fecUncorr + unc ∧ q.expect = p.expect ∧ q.nakSent = true
      ∧ t.out = s.out ++ (if p.nakSent = false ∧ p.unacked.length < 64 then [.flit n (p.sent p.next (nakFlit p.expect))] else [])
      ∧ Keeps [.fab, .out, .obs] s t := by
  obtain ⟨q, hq, ⟨_, _, _, _, rfl⟩, hout, hkeeps⟩ := State.nakPort_spec (s.hears_port n (p.counted corr unc err) corr) ht
  exact ⟨_, _, execFlitReceive_bad hp hport ht h, hq, rfl, rfl, rfl, rfl, hout, Keeps.trans (.of_patch rfl) hkeeps⟩

theorem flitReceive_inOrder (hu : unc = 0) (hc : flitCrcOk b = true) (hkind : (flitOf b).2.2.kind ≠ 2)
    (hseq : (flitOf b).1 = p.expect) :
    ∃ t q, exec (.flitReceive n b corr unc err) s = .next t ∧ t.fab.port n = some q ∧ q.expect = p.expect + 1
      ∧ q.nakSent = false := by
  obtain ⟨u, q, c, hq, ⟨_, _, _, _, rfl⟩, hexec⟩ := execFlitReceive_good (corr := corr) (err := err) hp hport ht hu hc
  rw [if_neg hkind, if_neg (not_not.2 hseq)] at hexec
  obtain ⟨r, hr, _, _, _, _, rfl⟩ := State.advances_port u n _ (flitOf b).2.2 c
  exact ⟨_, _, hexec, hr, rfl, rfl⟩

theorem flitReceive_outOfOrder (hu : unc = 0) (hc : flitCrcOk b = true) (hkind : (flitOf b).2.2.kind ≠ 2)
    (hseq : (flitOf b).1 ≠ p.expect) :
    ∃ t q, exec (.flitReceive n b corr unc err) s = .next t ∧ t.fab.port n = some q ∧ q.expect = p.expect
      ∧ q.nakSent = true := by
  obtain ⟨u, q, c, hq, ⟨_, _, _, _, rfl⟩, hexec⟩ := execFlitReceive_good (corr := corr) (err := err) hp hport ht hu hc
  rw [if_neg hkind, if_pos hseq] at hexec
  obtain ⟨r, hr, ⟨_, _, _, _, rfl⟩, -, -⟩ := State.nakPort_spec hq ht
  exact ⟨_, _, hexec, hr, rfl, rfl⟩

theorem flitReceive_idle (hu : unc = 0) (hc : flitCrcOk b = true) (hkind : (flitOf b).2.2.kind = 2) :
    ∃ t q, exec (.flitReceive n b corr unc err) s = .next t ∧ t.fab.port n = some q ∧ q.expect = p.expect
      ∧ q.nakSent = p.nakSent := by
  obtain ⟨u, q, c, hq, ⟨_, _, _, _, rfl⟩, hexec⟩ := execFlitReceive_good (corr := corr) (err := err) hp hport ht hu hc
  rw [if_pos hkind] at hexec
  exact ⟨_, _, hexec, hq, rfl, rfl⟩

end

/-- Settles O49: what a port sends changes its flits and their numbers only, so that what it expects, and whether it has sent its
NAK, is decided by the flit that it receives; a replay is the port's unacknowledged flits from one on. -/
theorem portsReceive : Obligations.PortsReceive := by
  refine ⟨fun s n p b corr unc err hp hport ht => ⟨flitReceive_bad hp hport ht, flitReceive_inOrder hp hport ht,
    flitReceive_outOfOrder hp hport ht, flitReceive_idle hp hport ht⟩, ?_⟩
  intro s n p l r x hp hport ht hout hkeep cmd hcmd
  exact ⟨exec_replays_again hp hport ht hout hkeep hcmd, exec_replays_retrains hp hport ht hout hkeep hcmd⟩

end Sys2Proof.Machine
end

section
/-! SUPPORT. Ports that train, and those that fail to (R371, R376, R377, R391, R394). -/

namespace Sys2Proof.Machine

section
variable {s : State} {n : Fin 36} {p : Port} (hport : s.fab.port n = some p)
include hport

/-- A retrain that runs out of time takes the port down (R376). -/
theorem retrainTimeout_falls (hp : s.powered = true) (hpi : p.pi = 4) (ht : p.trained = false) (hw : NoWork s) :
    ∃ t q, exec (.retrainTimeout n) s = .next t ∧ t.fab.port n = some q ∧ q.pi = 2 ∧ q.verified = false
      ∧ q.inBundle = false ∧ q.downs = p.downs + 1 ∧ t.att = s.att.raise s.aon.tick aFABRIC 0 noTag 0xFFFF (2 ^ n.val) := by
  have hexec : exec (.retrainTimeout n) s = .next (s.portDown n) := by
    show execRetrainTimeout n s = _
    simp [execRetrainTimeout, hport, hp, hpi, ht]
  obtain ⟨q, ⟨_, _, _, _, rfl⟩, hq⟩ := State.portDown_port hport
  exact ⟨_, _, hexec, hq, rfl, rfl, rfl, rfl, State.portDown_att hport hw⟩

/-- A port that is down tries again until it has gone down three times (R377). -/
theorem portRetryTimer_retries (hc : s.clocks = true) (hpi : p.pi = 2) :
    (p.downs < 3 → ∃ t, exec (.portRetryTimer n) s = .next t ∧ t.fab.port n = some { p with pi := 3 }
      ∧ (∀ m, m ≠ n.val → t.fab.port m = s.fab.port m) ∧ Keeps [.fab, .obs] s t)
    ∧ (3 ≤ p.downs → exec (.portRetryTimer n) s = .next s) := by
  have hexec : exec (.portRetryTimer n) s = .next (if p.downs < 3 then s.portState n p 3 else s) := by
    show execPortRetryTimer n s = _
    simp [execPortRetryTimer, hport, hc, hpi]
  refine ⟨fun hfew => ⟨_, hexec.trans (by rw [if_pos hfew]), s.portState_port_same n p 3,
    fun m hm => s.portState_port_ne hm p 3, s.portState_keeps n p 3⟩, fun hmany => hexec.trans (by rw [if_neg (by omega)])⟩

/-- A port that has trained, with its numbers at 0 and the flits that then wait (R376). -/
def Port.retrained (p : Port) (waiting : List Flit) : Port :=
  { p with trained := true, expect := 0, next := 0, nakSent := false, unacked := [], waiting := waiting }

theorem portTrained_tells (hc : s.clocks = true) (hu : p.unused = false) (ht : p.trained = false) (hpi : p.pi = 3)
    (hfs : s.fab.fs = .ready) :
    ∃ t q, exec (.portTrained n) s = .next t ∧ t.fab.port n = some q ∧ q.trained = true
      ∧ q.expect = 0 ∧ q.next = 0 ∧ q.unacked = [] ∧ t.out = s.out ++ [.identity n (s.fab.identityOf n p)]
      ∧ Keeps [.fab, .out, .obs] s t := by
  have hout : (s.portState n (p.retrained []) 3).out = s.out := s.portState_keeps n _ 3 .out (by decide)
  have hready : ((s.portState n (p.retrained []) 3).emit (.identity n (s.fab.identityOf n p))).fab.fs = .ready := by simpa using hfs
  have hexec : exec (.portTrained n) s
      = .next ((s.portState n (p.retrained []) 3).emit (.identity n (s.fab.identityOf n p))) := by
    rw [← State.discover_ready hready]
    show execPortTrained n s = _
    simp [execPortTrained, hport, hc, hu, ht, hpi, Port.retrained]
  exact ⟨_, _, hexec, s.portState_port_same n _ 3, rfl, rfl, rfl, rfl, congrArg (· ++ _) hout,
    ((s.portState_keeps n _ 3).mono (by decide)).trans ((State.emit_keeps _ _).mono (by decide))⟩

/-- A port that retrained in its bundle sends all its flits again, in order, as the first of them are acknowledged (R376). -/
theorem portTrained_goesOn (hc : s.clocks = true) (hu : p.unused = false) (ht : p.trained = false) (hpi : p.pi = 4)
    (hb : p.inBundle = true) :
    ∃ t q, exec (.portTrained n) s = .next t ∧ t.fab.port n = some q ∧ q.pi = 5
      ∧ q.trained = true ∧ q.unacked.map (·.flit) ++ q.waiting = p.unacked.map (·.flit) ++ p.waiting
      ∧ q.unacked.length ≤ 64 ∧ Keeps [.fab, .out, .obs] s t := by
  have hexec : exec (.portTrained n) s = .next ((s.portState n (p.retrained p.flits) 5).drain n) := by
    show execPortTrained n s = _
    simp [execPortTrained, hport, hc, hu, ht, hpi, hb, Port.retrained, Port.flits]
  have hstate := s.portState_port_same n (p.retrained p.flits) 5
  have hdrain := State.drain_flows (s.portState n (p.retrained p.flits) 5) n
  obtain ⟨q, hq, hflits, hlen, hpi'⟩ := State.drain_port hstate (Nat.zero_le _)
  obtain ⟨q', hq', _, _, _, _, hflow⟩ := hdrain.port hstate
  obtain rfl := Option.some.inj (hq.symm.trans hq')
  exact ⟨_, q, hexec, hq, hpi', by rw [hflow]; rfl, hflits, hlen, ((s.portState_keeps n _ 5).mono (by decide)).trans hdrain.keeps⟩

/-- A port whose probation is over is in its bundle (R377). -/
theorem portProbationEnd_joins (hp : s.powered = true) (ht : p.trained = true) (hprob : p.probation = true)
    (hfs : s.fab.fs = .ready) (hw : NoWork s) :
    ∃ t, exec (.portProbationEnd n) s = .next t
      ∧ t.fab.port n = some { p with probation := false, verified := true, inBundle := true, pi := 5 }
      ∧ Keeps [.fab, .out, .obs] s t := by
  have hexec : exec (.portProbationEnd n) s = .next (s.portJoins n p) := by
    show execPortProbationEnd n s = _
    simp [execPortProbationEnd, hport, hp, ht, hprob]
  rw [State.portJoins_ready hfs hw] at hexec
  exact ⟨_, hexec, (State.linkChange_port _ _).trans (s.portState_port_same n _ 5),
    ((s.portState_keeps n _ 5).mono (by decide)).trans ((State.linkChange_keeps _).mono (by decide))⟩

end

/-- Settles O50: each event is read off its own arm, where the flits that a port hands on, or sends when it has trained, change
nothing else of it, and a device without work has no context that could fail. -/
theorem portsTrain : Obligations.PortsTrain := by
  refine ⟨fun s n p hp hport hpi ht hw => retrainTimeout_falls hport hp hpi ht hw,
    fun s n p hc hport hpi => portRetryTimer_retries hport hc hpi, fun s n p hc hport hu ht => ⟨?_, ?_⟩,
    fun s n p hp hport ht hprob hfs hw => portProbationEnd_joins hport hp ht hprob hfs hw⟩
  · exact fun hpi hfs => portTrained_tells hport hc hu ht hpi hfs
  · exact fun hpi hb => portTrained_goesOn hport hc hu ht hpi hb

end Sys2Proof.Machine
end

section
/-! SUPPORT. Barriers: what a device waits for at its place in a barrier, the partial barrier that it enters, the end of a readiness
barrier, and the messages of a joiner (R392, R395, R396, R602 to R605). -/

namespace Sys2Proof.Machine

/-! ### Moves of a barrier -/

/-- The message that a device at its place in a barrier waits for: the one before it in the chain, or the broadcast. -/
def Fab.heldFor (f : Fab) (b : Barrier) (bcast : Bool) : Option (Nat × BarrierMsg) :=
  f.heldBarrier.find? fun m => m.1 == b.kind && m.2.axis == b.axis && m.2.bcast == bcast

/-- What the device's combination with a message of its predecessor is: a readiness barrier carries no bitmap. -/
def Barrier.combined (b : Barrier) (set : List Nat) : List Nat := if b.kind = 0 then b.set else meet set b.set

theorem State.barrierMove_outside {s : State} (h : s.fab.barrier = none) : s.barrierMove = none := by
  unfold State.barrierMove
  rw [h]

section
variable {s : State} {b : Barrier} {me : Nat} (hb : s.fab.barrier = some b) (hme : s.fab.addr = some me)
include hb hme

theorem State.barrierMove_sent (hsent : b.sent = true) :
    s.barrierMove = (s.fab.heldFor b true).map fun m => (s.eatBarrier m).finishAxis b (s.fab.barrierLine b me) me m.2.set := by
  unfold State.barrierMove
  rw [hb, hme]
  exact if_pos hsent

theorem State.barrierMove_chained (hsent : b.sent = false) (hfirst : chainFirst (s.fab.barrierLine b me) me = false) :
    s.barrierMove = (s.fab.heldFor b false).map fun m =>
      (s.eatBarrier m).passBarrier b (s.fab.barrierLine b me) me (b.combined m.2.set) := by
  unfold State.barrierMove
  rw [hb, hme]
  dsimp only
  rw [if_neg (by simp [hsent]), if_neg (by simp [hfirst])]
  rfl

end

theorem barrierMoves_still {s : State} (h : s.barrierMove = none) (n : Nat) : barrierMoves n s = s := by
  cases n with
  | zero => rfl
  | succ n =>
    unfold barrierMoves
    rw [h]

theorem barrierMoves_succ {s t : State} (h : s.barrierMove = some t) (n : Nat) :
    barrierMoves (n + 1) s = barrierMoves n t := by
  rw [barrierMoves, h]

/-! ### The partial barrier -/

/-- The addresses that a device finds in the machine: those with a record that is not in conflict, and not retired (R395). -/
def Fab.found (f : Fab) : List Nat :=
  f.allAddrs.filter fun a => (f.record a).isSome && !f.conflicts.contains a && !f.retired.contains a

/-- The partial barrier as a device enters it. -/
def partialBarrier (own : List Nat) : Barrier := ⟨1, .z, own, own, false⟩

/-- A device that maps the machine is in the partial barrier. -/
def State.inPartial (s : State) : State :=
  { s with fab := { s.fab with expired := true, barrier := some (partialBarrier s.fab.found) } }

theorem State.enterPartial_mapping {s : State} (hfs : s.fab.fs = .mapping) (hb : ∀ x, s.fab.barrier = some x → x.kind ≠ 1) :
    s.enterPartial = s.enterBarrier 1 s.fab.found := by
  unfold State.enterPartial
  rw [hfs]
  split
  · rename_i hbar
    exact absurd rfl (hb _ hbar)
  · rfl
  · rename_i hno _
    exact absurd rfl hno

/-- The wait is over: a device outside a partial barrier enters one. -/
theorem State.partialNow_enters {s : State} (hfs : s.fab.fs = .mapping) (hb : ∀ x, s.fab.barrier = some x → x.kind ≠ 1) :
    s.partialNow = barrierMoves 8 s.inPartial := by
  unfold State.partialNow
  dsimp only
  rw [if_neg (by simp [hfs])]
  exact State.enterPartial_mapping (s := { s with fab := { s.fab with expired := true } }) hfs hb

theorem State.passBarrier_next {line : List Nat} {me nx : Nat} (h : chainNext line me = some nx) (s : State) (b : Barrier)
    (set : List Nat) : s.passBarrier b line me set
      = { s.emit (.barrier nx b.kind ⟨b.axis, false, me, set⟩) with
          fab := { s.fab with barrier := some { b with set := set, sent := true } } } := by
  unfold State.passBarrier
  rw [h]

/-- The device has met its predecessor's bitmap with its own, and handed it on. -/
def State.handsOn (s : State) (me nx : Nat) (own set : List Nat) : State :=
  { s.emit (.barrier nx 1 ⟨.z, false, me, set⟩) with
    fab := { s.fab with expired := true, barrier := some { partialBarrier own with set := set, sent := true }, heldBarrier := [] } }

section
variable {s : State} {me : Nat} (hme : s.fab.addr = some me)
  (hfirst : chainFirst (s.fab.barrierLine (partialBarrier s.fab.found) me) me = false)
include hme hfirst

/-- In the barrier, a device that does not begin its chain waits for its predecessor. -/
theorem State.inPartial_move : s.inPartial.barrierMove
    = (s.fab.heldFor (partialBarrier s.fab.found) false).map fun m => (s.inPartial.eatBarrier m).passBarrier
        (partialBarrier s.fab.found) (s.fab.barrierLine (partialBarrier s.fab.found) me) me (meet m.2.set s.fab.found) :=
  State.barrierMove_chained (s := s.inPartial) rfl hme rfl hfirst

variable (hfs : s.fab.fs = .mapping) (hb : ∀ x, s.fab.barrier = some x → x.kind ≠ 1)
include hfs hb

theorem State.partialNow_waits (hnone : s.fab.heldFor (partialBarrier s.fab.found) false = none) :
    s.partialNow = s.inPartial ∧ s.inPartial.barrierMove = none := by
  have hstill : s.inPartial.barrierMove = none := by
    rw [State.inPartial_move hme hfirst, hnone]
    rfl
  rw [State.partialNow_enters hfs hb, barrierMoves_still hstill]
  exact ⟨rfl, hstill⟩

/-- A device whose predecessor's message is the one that it holds hands it on, met with its own bitmap. -/
theorem State.partialNow_handsOn {m : BarrierMsg} {nx : Nat} (hheld : s.fab.heldBarrier = [(1, m)]) (haxis : m.axis = .z)
    (hbcast : m.bcast = false) (hnext : chainNext (s.fab.barrierLine (partialBarrier s.fab.found) me) me = some nx) :
    s.partialNow = s.handsOn me nx s.fab.found (meet m.set s.fab.found)
      ∧ (s.handsOn me nx s.fab.found (meet m.set s.fab.found)).barrierMove = none := by
  have hfound : s.fab.heldFor (partialBarrier s.fab.found) false = some (1, m) := by
    simp [Fab.heldFor, hheld, partialBarrier, haxis, hbcast]
  have hmove : s.inPartial.barrierMove = some (s.handsOn me nx s.fab.found (meet m.set s.fab.found)) := by
    rw [State.inPartial_move hme hfirst, hfound, Option.map_some, State.passBarrier_next hnext]
    simp [State.handsOn, State.eatBarrier, State.inPartial, State.emit, partialBarrier, hheld]
  have hstill : (s.handsOn me nx s.fab.found (meet m.set s.fab.found)).barrierMove = none :=
    State.barrierMove_sent (s := s.handsOn me nx s.fab.found (meet m.set s.fab.found)) rfl hme rfl
  rw [State.partialNow_enters hfs hb, barrierMoves_succ hmove, barrierMoves_still hstill]
  exact ⟨rfl, hstill⟩

end

/-- The wait for the machine is over (R395). -/
theorem execPartialWaitExpiry_mapping {s : State} (hp : s.powered = true) (hfs : s.fab.fs = .mapping) :
    exec .partialWaitExpiry s = .next s.partialNow := by
  show execPartialWaitExpiry s = _
  unfold execPartialWaitExpiry
  rw [hfs]
  exact congrArg _ (if_pos hp)

theorem execPartialBarrierMessage_mapping {s : State} (hp : s.powered = true) (hfs : s.fab.fs = .mapping) (m : BarrierMsg) :
    exec (.partialBarrierMessage m) s = .next (barrierMoves 8 (s.holdBarrier 1 m).partialNow) := by
  show execPartialBarrierMessage m s = _
  unfold execPartialBarrierMessage
  rw [hfs]
  exact congrArg _ (if_pos hp)

/-- With the first message of another device the device enters the partial barrier; one that is not its predecessor's
waits (R395). -/
theorem partialBarrierMessage_waits {s : State} {me : Nat} (hp : s.powered = true) (hfs : s.fab.fs = .mapping)
    (hb : ∀ x, s.fab.barrier = some x → x.kind ≠ 1) (hme : s.fab.addr = some me)
    (hfirst : chainFirst (s.fab.barrierLine (partialBarrier s.fab.found) me) me = false) (hheld : s.fab.heldBarrier = [])
    {m : BarrierMsg} (haxis : m.axis ≠ .z) :
    exec (.partialBarrierMessage m) s = .next (s.holdBarrier 1 m).inPartial := by
  have hnone : (s.holdBarrier 1 m).fab.heldFor (partialBarrier s.fab.found) false = none := by
    simp [Fab.heldFor, State.holdBarrier, hheld, partialBarrier, haxis]
  obtain ⟨hnow, hstill⟩ := State.partialNow_waits (s := s.holdBarrier 1 m) hme hfirst hfs hb hnone
  rw [execPartialBarrierMessage_mapping hp hfs, hnow, barrierMoves_still hstill]

/-- The message of the predecessor: the device hands it on at once (R395). -/
theorem partialBarrierMessage_handsOn {s : State} {me nx : Nat} (hp : s.powered = true) (hfs : s.fab.fs = .mapping)
    (hb : ∀ x, s.fab.barrier = some x → x.kind ≠ 1) (hme : s.fab.addr = some me)
    (hfirst : chainFirst (s.fab.barrierLine (partialBarrier s.fab.found) me) me = false) (hheld : s.fab.heldBarrier = [])
    {m : BarrierMsg} (haxis : m.axis = .z) (hbcast : m.bcast = false)
    (hnext : chainNext (s.fab.barrierLine (partialBarrier s.fab.found) me) me = some nx) :
    exec (.partialBarrierMessage m) s
      = .next ((s.holdBarrier 1 m).handsOn me nx s.fab.found (meet m.set s.fab.found)) := by
  obtain ⟨hnow, hstill⟩ := State.partialNow_handsOn (s := s.holdBarrier 1 m) hme hfirst hfs hb
    (congrArg (· ++ [(1, m)]) hheld) haxis hbcast hnext
  rw [execPartialBarrierMessage_mapping hp hfs, hnow]
  exact congrArg _ (barrierMoves_still hstill 8)

/-! ### The readiness barrier -/

theorem execReadinessBarrierMessage_forming {s : State} (hp : s.powered = true)
    (hfs : s.fab.fs = .training ∨ s.fab.fs = .mapping) (m : BarrierMsg) :
    exec (.readinessBarrierMessage m) s = .next (barrierMoves 8 (s.holdBarrier 0 m)) := by
  show execReadinessBarrierMessage m s = _
  unfold execReadinessBarrierMessage
  obtain h | h := hfs <;> rw [h] <;> exact congrArg _ (if_pos hp)

/-- The machine is whole: the device is READY, with every address a member, and says so (R392, R394). -/
def State.ready (s : State) : State :=
  { s with fab := { s.fab with
      fs := .ready, reason := 0, members := some s.fab.allAddrs, readyTick := s.aon.tick.toNat } }.fabricNote
    (s.fab.addr.getD 0xFFFF) []

theorem State.readyResult_idle {s : State} (hfs : s.fab.fs ≠ .ready) (hw : NoWork s) (hres : s.stp.resume = none) :
    s.readyResult = s.ready := by
  have hwhole : (s.fab.allAddrs.all fun a => s.fab.allAddrs.contains a || s.fab.retired.contains a) = true :=
    List.all_eq_true.2 fun a ha => by simp [ha]
  have hmember : s.becomeMember s.fab.allAddrs = s.ready := by
    unfold State.becomeMember
    rw [hwhole]
    dsimp only
    rw [if_pos rfl, if_neg (by simpa using hfs)]
    exact State.checkReach_noWork (s := s.ready) (noWork_congr hw rfl rfl)
  unfold State.readyResult
  rw [hmember]
  exact State.beginResume_none (s := s.ready) hres

/-- The readiness barrier of a device ends with a result that it passes on. -/
def State.endsReady (s : State) (m : Nat × BarrierMsg) (targets : List Nat) (me : Nat) : State :=
  let s := (s.eatBarrier m).emits (targets.map fun a => .barrier a 0 ⟨.x, true, me, m.2.set⟩)
  State.ready { s with fab := { s.fab with barrier := none, heldBarrier := s.fab.heldBarrier.filter (·.1 != 0) } }

/-- The broadcast along the last axis, whichever of those that wait comes first, ends the readiness barrier (R392). -/
theorem readinessBarrierMessage_ends {s : State} {m : BarrierMsg} {b : Barrier} {me : Nat} (hp : s.powered = true)
    (hfs : s.fab.fs = .mapping) (hb : s.fab.barrier = some b) (hkind : b.kind = 0) (hax : b.axis = .x) (hsent : b.sent = true)
    (hmx : m.axis = .x) (hmb : m.bcast = true) (hme : s.fab.addr = some me) (hw : NoWork s) (hres : s.stp.resume = none) :
    ∃ x targets, exec (.readinessBarrierMessage m) s = .next ((s.holdBarrier 0 m).endsReady x targets me) := by
  obtain ⟨x, hx⟩ : ∃ x, (s.holdBarrier 0 m).fab.heldFor b true = some x := by
    refine Option.isSome_iff_exists.1 (List.find?_isSome.2 ⟨(0, m), List.mem_append_right _ (List.mem_singleton.2 rfl), ?_⟩)
    simp [hkind, hax, hmx, hmb]
  refine ⟨x, bcastTargets (s.fab.barrierLine b me) me, ?_⟩
  have hmove : (s.holdBarrier 0 m).barrierMove
      = some ((s.holdBarrier 0 m).endsReady x (bcastTargets (s.fab.barrierLine b me) me) me) := by
    rw [State.barrierMove_sent (s := s.holdBarrier 0 m) hb hme hsent, hx, Option.map_some]
    unfold State.finishAxis
    dsimp only
    rw [hax]
    dsimp only
    unfold State.barrierResult
    dsimp only
    rw [if_pos hkind, hkind]
    refine congrArg some (State.readyResult_idle ?_ (noWork_congr hw rfl rfl) hres)
    show s.fab.fs ≠ .ready
    rw [hfs]
    decide
  rw [execReadinessBarrierMessage_forming hp (.inr hfs), barrierMoves_succ hmove]
  exact congrArg _ (barrierMoves_still (State.barrierMove_outside rfl) 7)

end Sys2Proof.Machine
end

section
/-! SUPPORT. Joining: the notice of a joiner, its barrier, its retries and its donor's record, and what barriers do as a whole (R392,
R395, R396, R602 to R605). -/

namespace Sys2Proof.Machine

/-! ### Joining -/

/-- A member keeps a joiner's notice in place of its earlier one. -/
def State.withNotice (s : State) (n : JoinNotice) : State :=
  { s with fab := { s.fab with notices := s.fab.notices.filter (fun (x : JoinNotice) => x.addr != n.addr) ++ [n] } }

/-- A member keeps a notice and passes it on; the joiner, where it is the neighbour that sent it, is told the members (R603). -/
def State.hearsJoiner (s : State) (n : JoinNotice) (b me : Nat) : State :=
  let t := (s.withNotice n).emits ((s.fab.upBundles.filter (· != b)).flatMap fun c =>
    ((s.fab.pickPort c 0).map fun p => Output.joinNotice p n).toList)
  if s.fab.neighbour me b = n.addr then t.emit (.joinReply b (s.fab.members.getD [])) else t

theorem State.hearsJoiner_fab (s : State) (n : JoinNotice) (b me : Nat) :
    (s.hearsJoiner n b me).fab = (s.withNotice n).fab := by
  unfold State.hearsJoiner
  dsimp only
  split <;> rfl

theorem State.hearsJoiner_keeps (s : State) (n : JoinNotice) (b me : Nat) : Keeps [.fab, .out] s (s.hearsJoiner n b me) := by
  unfold State.hearsJoiner
  dsimp only
  split <;> exact .of_patch rfl

theorem State.hearsJoiner_replies {s : State} {n : JoinNotice} {b me : Nat} (h : s.fab.neighbour me b = n.addr) :
    .joinReply b (s.fab.members.getD []) ∈ (s.hearsJoiner n b me).out := by
  unfold State.hearsJoiner
  dsimp only
  rw [if_pos h]
  simp

/-- A member that is in a barrier already enters no other for a notice. -/
theorem execJoinNotice_inBarrier {s : State} {n : JoinNotice} {b me : Nat} (hp : s.powered = true) (hme : s.fab.addr = some me)
    (hfs : s.fab.fs.member = true) (hne : n.addr ≠ me) (hnew : n ∉ s.fab.notices) (hbar : s.fab.barrier.isSome = true) :
    exec (.joinNotice (.notice n b)) s = .next (s.hearsJoiner n b me) := by
  have hbar' : (s.hearsJoiner n b me).fab.barrier.isSome = true := by
    rw [State.hearsJoiner_fab]
    exact hbar
  show execJoinNotice (.notice n b) s = _
  unfold execJoinNotice
  rw [hme]
  dsimp only
  rw [if_neg (by simp [hp]), if_neg (by simp [hfs, hne, hnew])]
  exact congrArg _ (if_pos hbar')

theorem execJoinBarrierMessage_waits {s : State} (hp : s.powered = true) (hfs : s.fab.fs.member = true)
    (hbar : s.fab.barrier = none) (m : BarrierMsg) : exec (.joinBarrierMessage m) s = .next (s.holdBarrier 2 m) := by
  show execJoinBarrierMessage m s = _
  unfold execJoinBarrierMessage
  rw [if_pos (by simp [hp, hfs]), barrierMoves_still (State.barrierMove_outside (s := s.holdBarrier 2 m) hbar)]

theorem State.sendNotice_eq {s : State} {me : Nat} (hme : s.fab.addr = some me) :
    s.sendNotice = s.emits ((s.fab.ports.filter (·.2.verified)).map fun p =>
      .joinNotice p.1 ⟨me, s.fab.devid, s.fab.sx, s.fab.sy, s.fab.sz, 1, 1⟩) := by
  unfold State.sendNotice
  rw [hme]

theorem execJoinRetryTimer_late {s : State} (hp : s.powered = true) (hfs : s.fab.fs = .isolated) (hr : s.fab.reason = 4)
    (hbar : s.fab.barrier = none) : exec .joinRetryTimer s = .next s.sendNotice := by
  show execJoinRetryTimer s = _
  simp [execJoinRetryTimer, hp, hfs, hr, hbar]

/-- The donor's record has come: the loaded plans go on from it (R604, R605). -/
def State.continued (s : State) (r : Continuity) : State :=
  { s with pln := { s.pln with
      awaitContinuity := false, awaitRing := false, plans := s.pln.plans.map (·.continued r), continuity := some r } }

theorem execContinuityRecord_plans {s : State} {r : Continuity} (hp : s.powered = true) (hc : s.pln.awaitContinuity = true)
    (hr : s.pln.awaitRing = false) : exec (.continuityRecord r) s = .next (s.continued r) := by
  show execContinuityRecord r s = _
  simp [execContinuityRecord, State.continued, hp, hc, hr]

/-! ### The statement -/

/-- The wait is over, or another's message has come, for a device that maps the machine. -/
theorem partialBarrier_entered {s : State} {own : List Nat} {b : Barrier} {me : Nat} (hp : s.powered = true)
    (hfs : s.fab.fs = .mapping) (hb : ∀ x, s.fab.barrier = some x → x.kind ≠ 1) (hme : s.fab.addr = some me)
    (hown : own = s.fab.found) (hpart : b = partialBarrier own) (hfirst : chainFirst (s.fab.barrierLine b me) me = false)
    (hheld : s.fab.heldBarrier = []) :
    (∃ t, exec .partialWaitExpiry s = .next t ∧ t.fab = { s.fab with expired := true, barrier := some b } ∧ Keeps [.fab] s t)
    ∧ (∀ m : BarrierMsg, m.axis ≠ .z → ∃ t, exec (.partialBarrierMessage m) s = .next t
      ∧ t.fab = { s.fab with expired := true, barrier := some b, heldBarrier := [(1, m)] } ∧ Keeps [.fab] s t)
    ∧ ∀ (m : BarrierMsg) (nx : Nat), m.axis = .z → m.bcast = false → chainNext (s.fab.barrierLine b me) me = some nx →
      ∃ t, exec (.partialBarrierMessage m) s = .next t
        ∧ t.fab = { s.fab with expired := true, barrier := some { b with set := meet m.set own, sent := true } }
        ∧ t.out = s.out ++ [.barrier nx 1 ⟨.z, false, me, meet m.set own⟩] ∧ Keeps [.fab, .out] s t := by
  subst hown hpart
  refine ⟨?_, fun m haxis => ?_, fun m nx haxis hbcast hnext => ?_⟩
  · obtain ⟨hnow, -⟩ := State.partialNow_waits hme hfirst hfs hb (by simp [Fab.heldFor, hheld])
    exact ⟨_, (execPartialWaitExpiry_mapping hp hfs).trans (congrArg _ hnow), rfl, .of_patch rfl⟩
  · refine ⟨_, partialBarrierMessage_waits hp hfs hb hme hfirst hheld haxis, ?_, .of_patch rfl⟩
    rw [← show s.fab.heldBarrier ++ [(1, m)] = [(1, m)] by rw [hheld]; rfl]
    rfl
  · refine ⟨_, partialBarrierMessage_handsOn hp hfs hb hme hfirst hheld haxis hbcast hnext, ?_, rfl, .of_patch rfl⟩
    rw [State.handsOn, ← hheld]
    rfl

/-- Settles O52: a barrier moves only by the message that a device waits for at its place, the end of a readiness barrier makes
every address a member, and a device in a barrier enters no other for a joiner. -/
theorem barriersRun : Obligations.BarriersRun := by
  refine ⟨fun s m hp hfs hbar => ?_, fun s own b me hp hfs hb hme hown hpart hfirst hheld =>
    partialBarrier_entered hp hfs hb hme hown hpart hfirst hheld, ?_, ?_, ?_, ?_, ?_⟩
  · refine ⟨s.holdBarrier 0 m, (execReadinessBarrierMessage_forming hp (.inl hfs) m).trans ?_, rfl, .of_patch rfl⟩
    exact congrArg _ (barrierMoves_still (State.barrierMove_outside (s := s.holdBarrier 0 m) hbar) 8)
  · intro s m b me hp hfs hb hkind hax hsent hmx hmb hme hw hres
    obtain ⟨x, targets, hexec⟩ := readinessBarrierMessage_ends hp hfs hb hkind hax hsent hmx hmb hme hw hres
    refine ⟨_, hexec, rfl, rfl, rfl, rfl, ?_, .of_patch rfl⟩
    show s.att.raise s.aon.tick aFABRIC 0 noTag (s.fab.addr.getD 0xFFFF) 0 = _
    rw [hme]
    rfl
  · exact fun s n b me hp hme hfs hne hnew hbar => ⟨_, execJoinNotice_inBarrier hp hme hfs hne hnew hbar,
      by simp [State.hearsJoiner_fab, State.withNotice], by rw [State.hearsJoiner_fab]; rfl, s.hearsJoiner_keeps n b me,
      State.hearsJoiner_replies⟩
  · exact fun s m hp hfs hbar => ⟨_, execJoinBarrierMessage_waits hp hfs hbar m, rfl, .of_patch rfl⟩
  · exact fun s me hp hme hfs hr hbar => ⟨_, (execJoinRetryTimer_late hp hfs hr hbar).trans (congrArg _ (State.sendNotice_eq hme)),
      s.emits_keeps _, rfl⟩
  · exact fun s r hp hc hr => ⟨_, execContinuityRecord_plans hp hc hr, rfl, rfl, rfl, .of_patch rfl⟩

end Sys2Proof.Machine
end

section
/-! SUPPORT. The Glade's sources: a source takes the place of the old one with its id, and the commands that define, dispose and
count take or give one source at a time (R422, R441, R507). -/

namespace Sys2Proof.Machine

/-! ### Entries put in place of others -/

/-- What takes the place of its likes in a list is found there. -/
theorem find?_renewed_same {α : Type} {p : α → Bool} {a : α} (ha : p a = true) (l : List α) :
    ((l.filter fun x => !p x) ++ [a]).find? p = some a := by
  have hgone : (l.filter fun x => !p x).find? p = none :=
    List.find?_eq_none.2 fun x hx => by simpa using (List.mem_filter.1 hx).2
  rw [List.find?_append, hgone, Option.none_or, List.find?_singleton, if_pos ha]

/-- What is none of the likes is found as before. -/
theorem find?_renewed_ne {α : Type} {p q : α → Bool} {a : α} (hpq : ∀ x, q x = true → p x = false) (ha : q a = false)
    (l : List α) : ((l.filter fun x => !p x) ++ [a]).find? q = l.find? q := by
  have hkept : (fun x => decide ((!p x) = true ∧ q x = true)) = q := by
    funext x
    cases hq : q x with
    | false => simp
    | true => simp [hpq x hq]
  rw [List.find?_append, List.find?_filter, hkept, List.find?_singleton, ha, if_neg Bool.false_ne_true, Option.or_none]

/-! ### Sources -/

theorem Gld.source_id {x : Gld} {id : Nat} {g : Source} (h : x.source id = some g) : g.id = id := by
  simpa using List.find?_some h

@[simp] theorem State.putSource_source_same (s : State) (g : Source) : (s.putSource g).gld.source g.id = some g :=
  find?_renewed_same (p := fun x : Source => x.id == g.id) (beq_self_eq_true _) s.gld.sources

theorem State.putSource_source_ne (s : State) (g : Source) {i : Nat} (h : i ≠ g.id) :
    (s.putSource g).gld.source i = s.gld.source i :=
  find?_renewed_ne (p := fun x : Source => x.id == g.id) (q := fun x => x.id == i) (by simp +contextual [h])
    (beq_false_of_ne h.symm) s.gld.sources

theorem State.putSource_keeps (s : State) (g : Source) : Keeps [.gld] s (s.putSource g) := .of_patch rfl

/-- A source that is defined: nothing is prepared, ordered or found for it (R422). -/
def State.withSource (s : State) (g : Source) : State :=
  let x := s.gld.freePreps fun r => r.source == g.id
  { s with gld := { x with
      orders := x.orders.filter (·.1 != g.id), manifests := x.manifests.filter (·.1 != g.id) } }.putSource g

theorem State.withSource_source_ne (s : State) (g : Source) {i : Nat} (h : i ≠ g.id) :
    (s.withSource g).gld.source i = s.gld.source i := State.putSource_source_ne _ g h

theorem State.mem_withSource_preps (s : State) (g : Source) (r : Prep) :
    r ∈ (s.withSource g).gld.preps ↔ r ∈ s.gld.preps ∧ r.source ≠ g.id := by
  show r ∈ s.gld.preps.filter _ ↔ _
  simp

theorem State.mem_withSource_orders (s : State) (g : Source) (o : Nat × Nat × Nat) :
    o ∈ (s.withSource g).gld.orders ↔ o ∈ s.gld.orders ∧ o.1 ≠ g.id := by
  show o ∈ s.gld.orders.filter _ ↔ _
  simp

/-! ### The bodies -/

/-- GLADE_SOURCE of a legal definition that no plan names the source of, in a free place or its old one. -/
theorem gladeSourceBody_eq {s : State} {q : Req} (hid : q.rz 0 1 7 4 = true) (hstage : q.rz 1 1 7 6 = true)
    (hlook : q.rz 2 1 7 3 = true) (hdisp : q.rz 3 1 7 1 = true) (hzero : q.zb 0x14 4 = true) (hzero' : q.zb 0x38 8 = true)
    (hlegal : s.sourceLegal (sourceOfReq q) = true)
    (hplace : (s.gld.source (sourceOfReq q).id).isSome = true ∨ s.gld.sources.length < 16)
    (hfree : ∀ p ∈ s.pln.plans, p.batchOf (sourceOfReq q).id = none) :
    gladeSourceBody q s = (s.withSource (sourceOfReq q), rcode cOK) := by
  have hroom : ¬ ((s.gld.source (sourceOfReq q).id).isNone && decide (16 ≤ s.gld.sources.length)) = true := by
    rcases hplace with h | h
    · simp [Option.isSome_iff_ne_none.1 h]
    · simp [Nat.not_le.2 h]
  have hunused : ¬ ((s.gld.source (sourceOfReq q).id).isSome
      && s.pln.plans.any fun p => (p.batchOf (sourceOfReq q).id).isSome) = true := by
    simp +contextual [hfree]
  unfold gladeSourceBody
  dsimp only
  rw [if_neg (by simp [hid, hstage, hlook, hdisp, hzero, hzero', hlegal]), if_neg hroom, if_neg hunused]
  rfl

/-- The source with its disposition set (R441). -/
theorem gladeSetBody_eq {s : State} {q : Req} {g : Source} (hg : s.gld.source (bits (q.f 0 1) 3 0) = some g)
    (hid : q.rz 0 1 7 4 = true) (haction : q.rz 1 1 7 1 = true) (hdisp : q.rz 2 1 7 1 = true) (hzero : q.zb 3 5 = true)
    (hzero' : q.zb 8 8 = true) :
    gladeSetBody q s = (s.putSource { g with substitute := bit (q.f 2 1) 0 }, rcode cOK) := by
  unfold gladeSetBody
  simp only [hg]
  exact if_neg (by simp [hid, haction, hdisp, hzero, hzero'])

/-- A halted source goes on, and the sample it stopped at has a substitute ordered (R441). -/
def State.orderSubstitute (s : State) (g : Source) : State :=
  let t := s.putSource { g with state := 0, haltIndex := 0 }
  { t with gld := { t.gld with orders := t.gld.orders ++ [(g.id, g.haltIndex, g.haltReason)] } }

theorem State.orderSubstitute_source (s : State) (g : Source) :
    (s.orderSubstitute g).gld.source g.id = some { g with state := 0, haltIndex := 0 } :=
  State.putSource_source_same s { g with state := 0, haltIndex := 0 }

theorem gladeOrderBody_eq {s : State} {q : Req} {g : Source} (hg : s.gld.source (bits (q.f 0 1) 3 0) = some g)
    (hid : q.rz 0 1 7 4 = true) (haction : q.rz 1 1 7 1 = true) (hzero : q.zb 2 6 = true) (hhalted : g.state = 2)
    (hindex : g.haltIndex = q.f 8 8) : gladeOrderBody q s = (s.orderSubstitute g, rcode cOK) := by
  unfold gladeOrderBody
  simp only [hg]
  exact if_neg (by simp [hid, haction, hzero, hhalted, hindex])

/-- The counts of a source that GLADE_STATS answers, behind its state and in front of its corrupt samples (R507). -/
def Source.counts (g : Source) : Bytes :=
  leBytes 8 g.haltIndex ++ leBytes 8 g.delivered ++ leBytes 8 (g.mean % 2 ^ 64).toNat ++ leBytes 8 g.stragglers
    ++ leBytes 8 g.substitutions

@[simp] theorem Source.counts_length (g : Source) : g.counts.length = 40 := by simp [Source.counts]

/-- What GLADE_STATS answers (R507). -/
def Gld.stats (x : Gld) (g : Source) : Bytes :=
  let busy := x.preps.any fun r => r.source == g.id && decide (r.delivered < r.entries.length)
  (leBytes 1 (if g.state = 0 then b2n busy else g.state) ++ leBytes 1 (if g.state = 3 then g.reason else 0) ++ zeros 6)
    ++ (g.counts ++ (g.corrupt.flatMap (leBytes 4) ++ zeros 12 ++ leBytes 8 g.dropRing ++ g.dropped.flatMap (leBytes 4)))

theorem Gld.stats_counts (x : Gld) (g : Source) : ((x.stats g).drop 8).take 40 = g.counts := by
  rw [Gld.stats, List.drop_left' (by simp), List.take_left' (by simp)]

theorem gladeStatsBody_eq {s : State} {q : Req} {g : Source} (hg : s.gld.source (bits (q.f 0 1) 3 0) = some g)
    (hid : q.rz 0 1 7 4 = true) (hzero : q.zb 1 7 = true) : gladeStatsBody q s = (s, some (cOK, s.gld.stats g)) := by
  unfold gladeStatsBody
  simp only [hg]
  refine (if_neg (by simp [hid, hzero])).trans ?_
  simp only [Gld.stats, Source.counts, List.append_assoc]

/-! ### The statement -/

/-- A command that changes the Glade alone. -/
theorem IsServed.take_gld {s u : State} {k : SlotId} {op : Nat} {body : Req → State → State × Resp} (h : IsServed s k op)
    (hInv : s.Inv) (hbody : body (s.asks k) (s.taken k) = (u, rcode cOK)) (hu : Keeps [.gld] (s.taken k) u) :
    Replied s (s.take k (·.opcode == op) body) k cOK [] ∧ (s.take k (·.opcode == op) body).gld = u.gld
      ∧ Keeps [.mbx, .aon, .gld] s (s.take k (·.opcode == op) body) := by
  obtain ⟨hreplied, hkeeps⟩ := h.take_replied hInv.mbx hbody (by decide) (hu .mbx (by decide))
  exact ⟨hreplied, hkeeps .gld (by decide), ((s.taken_keeps k).mono (by decide)).trans
    ((hu.mono (by decide)).trans (hkeeps.mono (by decide)))⟩

/-- Settles O44: each body is one update of the sources, and what is prepared or ordered for others stays; GLADE_STATS only
replies. -/
theorem sourcesKept : Obligations.SourcesKept := by
  unfold Obligations.SourcesKept
  refine ⟨?_, ?_, ?_⟩
  · rintro s k q g hInv rfl rfl hserved hid hstage hlook hdisp hzero hzero' hlegal hplace hfree
    have hbody := gladeSourceBody_eq (s := s.taken k) hid hstage hlook hdisp hzero hzero' hlegal hplace hfree
    obtain ⟨hreplied, hgld, hkeeps⟩ := hserved.take_gld hInv hbody (.of_patch rfl)
    refine ⟨_, rfl, hreplied, ?_⟩
    rw [hgld]
    exact ⟨State.putSource_source_same _ _, fun i hi => State.withSource_source_ne _ _ hi, State.mem_withSource_preps _ _,
      State.mem_withSource_orders _ _, hkeeps⟩
  · rintro s k q g hInv rfl hserved hg hid haction
    refine ⟨fun hset hdisp hzero hzero' => ?_, fun horder hzero hhalted hindex => ?_⟩
    · have hbody := gladeSetBody_eq (s := s.taken k) hg hid haction hdisp hzero hzero'
      obtain ⟨hreplied, hgld, hkeeps⟩ := hserved.take_gld hInv hbody (.of_patch rfl)
      rw [← hserved.take_row (mine := fun q => q.opcode == 0x0502 && gdAction q == 0) (by simp [hserved.opcode, hset])]
        at hreplied hgld hkeeps
      refine ⟨_, rfl, hreplied, ?_⟩
      rw [hgld]
      exact ⟨State.putSource_source_same _ { g with substitute := _ }, fun i hi =>
        State.putSource_source_ne _ { g with substitute := _ } hi, rfl, hkeeps⟩
    · have hbody := gladeOrderBody_eq (s := s.taken k) hg hid haction hzero hhalted hindex
      obtain ⟨hreplied, hgld, hkeeps⟩ := hserved.take_gld hInv hbody (.of_patch rfl)
      rw [← hserved.take_row (mine := fun q => q.opcode == 0x0502 && gdAction q == 1) (by simp [hserved.opcode, horder])]
        at hreplied hgld hkeeps
      refine ⟨_, rfl, hreplied, ?_⟩
      rw [hgld]
      exact ⟨State.orderSubstitute_source _ _, rfl, hkeeps⟩
  · rintro s k q g hInv rfl hserved hg hid hzero
    exact ⟨_, _, rfl, hserved.take_onlyReplies hInv.mbx (gladeStatsBody_eq (s := s.taken k) hg hid hzero) (by decide),
      Gld.stats_counts _ g⟩

end Sys2Proof.Machine
end

section
/-! SUPPORT. Reads of the Glade: what a read gives does not depend on what the reader's translation cache holds, so that a read that
nothing obstructs gives the bytes of its range (R223, R242, R247). -/

namespace Sys2Proof.Machine

/-! ### A read and the translation caches -/

/-- The regions and tables with other translation caches. -/
def Rgn.withCaches (g : Rgn) (tc : List TcEntry) : Rgn := { g with tcache := tc }

/-- The state with other translation caches. -/
def State.withCaches (s : State) (tc : List TcEntry) : State := { s with rgn := s.rgn.withCaches tc }

theorem Rgn.promote_withCaches (g : Rgn) (tc : List TcEntry) (id page : Nat) :
    (g.withCaches tc).promote id page = (g.promote id page).withCaches tc := by
  have hget : (g.withCaches tc).get id = g.get id := rfl
  have hmigrations : (g.withCaches tc).migrations = g.migrations := rfl
  unfold Rgn.promote
  rw [hget, hmigrations]
  split
  · rfl
  · dsimp only
    split
    · rfl
    · split
      · rfl
      · split
        · rfl
        · split <;> rfl

theorem State.wakeRange_withCaches (s : State) (tc : List TcEntry) (lo n : Nat) :
    (s.withCaches tc).wakeRange lo n = (s.wakeRange lo n).withCaches tc := by
  have hmem : (s.withCaches tc).mem = s.mem := rfl
  unfold State.wakeRange
  rw [hmem]
  split <;> rfl

theorem State.placeKey_withCaches (s : State) (tc : List TcEntry) (r : Region) (off k n : Nat) :
    (s.withCaches tc).placeKey r off k n = (s.placeKey r off k n).withCaches tc := by
  have hmigrating : (s.withCaches tc).rgn.migrating = s.rgn.migrating := rfl
  unfold State.placeKey
  rw [hmigrating]
  split <;> rfl

theorem State.fetchPart_withCaches (s : State) (tc : List TcEntry) (r : Region) (c : Nat × Nat) :
    (s.withCaches tc).fetchPart r c = (s.fetchPart r c).withCaches tc := by
  have hclean : ∀ lo n, (s.withCaches tc).cleanRange lo n = (s.cleanRange lo n).withCaches tc := fun _ _ => rfl
  rw [State.fetchPart, hclean, State.wakeRange_withCaches, State.placeKey_withCaches]
  rfl

theorem State.heatAccess_withCaches (s : State) (tc : List TcEntry) (id off len : Nat) :
    (s.withCaches tc).heatAccess id off len = (s.heatAccess id off len).withCaches tc := by
  have hget : (s.withCaches tc).rgn.get id = s.rgn.get id := rfl
  unfold State.heatAccess
  rw [hget]
  split
  · rfl
  · rename_i r hr
    split
    · rfl
    · have hfold := List.foldl_hom (Rgn.withCaches · tc) (g₁ := fun g c => g.promote id (c.1 / pageBytes))
        (g₂ := fun g c => g.promote id (c.1 / pageBytes)) (l := chunksOf off len) (init := s.rgn.put (r.heatUp off len))
        fun g c => g.promote_withCaches tc id (c.1 / pageBytes)
      exact congrArg (fun g => { s with rgn := g }) hfold

/-- An agent's read of a range of a region has reached its lines. -/
def State.fetched (s : State) (r : Region) (off len : Nat) : State := (chunksOf off len).foldl (fun s c => s.fetchPart r c) s

theorem State.readRegion_eq (s : State) (r : Region) (off len : Nat) : s.readRegion r off len
    = ((r.chunks off len).flatMap fun c => (s.fetched r off len).mem.read c.1 c.2,
      (s.fetched r off len).heatAccess r.id off len) := rfl

theorem State.fetched_withCaches (s : State) (tc : List TcEntry) (r : Region) (off len : Nat) :
    (s.withCaches tc).fetched r off len = (s.fetched r off len).withCaches tc :=
  List.foldl_hom (State.withCaches · tc) fun u c => u.fetchPart_withCaches tc r c

theorem State.readRegion_withCaches (s : State) (tc : List TcEntry) (r : Region) (off len : Nat) :
    (s.withCaches tc).readRegion r off len = ((s.readRegion r off len).1, (s.readRegion r off len).2.withCaches tc) := by
  rw [State.readRegion_eq, State.fetched_withCaches, State.heatAccess_withCaches]
  rfl

/-- A read gives the same bytes whatever the translation caches hold. -/
theorem State.readVa_withCaches (s : State) (tc : List TcEntry) (va len : Nat) :
    (s.withCaches tc).readVa va len = ((s.readVa va len).1, (s.readVa va len).2.withCaches tc) := by
  have hchunk : ∀ (a : Bytes × State) (c : Nat × Nat), State.readChunk (a.1, a.2.withCaches tc) c
      = ((State.readChunk a c).1, (State.readChunk a c).2.withCaches tc) := by
    intro a c
    have hspot : (a.2.withCaches tc).spot c.1 false = a.2.spot c.1 false := rfl
    unfold State.readChunk
    dsimp only
    rw [hspot]
    cases a.2.spot c.1 false with
    | error e => rfl
    | ok x =>
      dsimp only
      rw [State.readRegion_withCaches]
  exact List.foldl_hom (fun a : Bytes × State => (a.1, a.2.withCaches tc)) (g₁ := State.readChunk) (g₂ := State.readChunk)
    (l := chunksOf va len) (init := ([], s)) hchunk

theorem Looked.readVa {s t : State} (h : Looked s t) (va len : Nat) : (t.readVa va len).1 = s.peekVa va len := by
  obtain ⟨tc, rfl⟩ := h
  show ((s.withCaches tc).readVa va len).1 = _
  rw [s.readVa_withCaches]
  rfl

/-! ### The Glade's reads -/

/-- A read that nothing obstructs gives the bytes of its range, and leaves everything but memory's caches and the directories. -/
theorem Accessible.gladeRead {s : State} {va len : Nat} (h : Accessible s va len false) (half : Nat) :
    ∃ t, s.gladeRead half va len = .bytes (s.peekVa va len) t ∧ Keeps [.mem, .coh, .rgn] s t := by
  obtain ⟨-, hok, -⟩ := h
  obtain ⟨u, hu, hlook⟩ := State.resolveCount_looked (cache := agentCache half) (a := (va, len, false)) hok
  have haccess : u.accessIn (agentCache half) va len false = .ok := hlook.noHarder.accessIn _ hok
  refine ⟨(u.readVa va len).2, ?_, (hlook.keeps.mono (by decide)).trans (u.readVa_keeps va len)⟩
  unfold State.gladeRead
  rw [hu]
  dsimp only
  rw [haccess]
  dsimp only
  rw [hlook.readVa]

end Sys2Proof.Machine
end

section
/-! SUPPORT. Prepared steps: a slot takes the place of the old one of its source and ring, its groups fail, its entries are taken by
lanes, and manifests are found good or rejected (R423, R424, R432, R433, R440). -/

namespace Sys2Proof.Machine

/-! ### Prepared slots -/

theorem Gld.prep_key {x : Gld} {source ring : Nat} {r : Prep} (h : x.prep source ring = some r) :
    r.source = source ∧ r.ring = ring := by
  simpa using List.find?_some h

@[simp] theorem State.putPrep_prep (s : State) (r : Prep) : (s.putPrep r).gld.prep r.source r.ring = some r :=
  find?_renewed_same (p := fun x : Prep => x.source == r.source && x.ring == r.ring) (by simp) s.gld.preps

theorem State.putPrep_keeps (s : State) (r : Prep) : Keeps [.gld] s (s.putPrep r) := .of_patch rfl

/-- The last slot of a source and ring stays. -/
theorem State.putPrep_putPrep (s : State) {r x : Prep} (hsource : x.source = r.source) (hring : x.ring = r.ring) :
    (s.putPrep r).putPrep x = s.putPrep x := by
  unfold State.putPrep
  simp [hsource, hring]

/-! ### Groups that fail -/

/-- The failures of a slot's groups with that of one more, which an earlier one of the group stays before. -/
def failsWith (f : BatchFault) (l : AL BatchFault) (group : Nat) : AL BatchFault :=
  if (l.get group).isSome then l else l.set group f

theorem failsWith_get (f : BatchFault) (l : AL BatchFault) (group m : Nat) :
    (failsWith f l group).get m = (l.get m).or (if m = group then some f else none) := by
  unfold failsWith
  by_cases hm : m = group
  · subst hm
    cases h : l.get m <;> simp [h]
  · rw [if_neg hm, Option.or_none]
    split
    · rfl
    · exact AL.get_set_ne l hm f

theorem foldl_failsWith_get (f : BatchFault) (m : Nat) : ∀ (groups : List Nat) (l : AL BatchFault),
    (groups.foldl (failsWith f) l).get m = (l.get m).or (if m ∈ groups then some f else none) := by
  intro groups
  induction groups with
  | nil => intro l; simp
  | cons b bs ih =>
    intro l
    rw [List.foldl_cons, ih, failsWith_get, Option.or_assoc]
    by_cases hb : m = b <;> simp [hb]

/-- A slot some of whose groups have failed. -/
def Prep.failing (r : Prep) (groups : List Nat) (f : BatchFault) : Prep := { r with fails := groups.foldl (failsWith f) r.fails }

theorem Prep.failing_get {r : Prep} (hr : r.fails = []) {groups : List Nat} {m : Nat} (hm : m ∈ groups) (f : BatchFault) :
    (r.failing groups f).fails.get m = some f := by
  show (groups.foldl (failsWith f) r.fails).get m = some f
  rw [foldl_failsWith_get, hr, if_pos hm]
  rfl

/-- With no step active a group's failure is kept in its slot. -/
theorem State.failGroup_prepared {s : State} {r x : Prep} (hact : s.stp.active = none) (hx : s.gld.prep r.source r.ring = some x)
    (group : Nat) (f : BatchFault) : s.failGroup r group f = s.putPrep (x.failing [group] f) := by
  unfold State.failGroup State.serving
  rw [hact, hx]
  rfl

/-- With no step active the failures of all groups are kept in the slot. -/
theorem State.failAll_prepared {s : State} (hact : s.stp.active = none) (r : Prep) (groups : Nat) (f : BatchFault) :
    s.failAll r groups f = s.putPrep (r.failing (List.range groups) f) := by
  have hfold : ∀ (bs : List Nat) (x : Prep), x.source = r.source → x.ring = r.ring →
      bs.foldl (fun s b => s.failGroup r b f) (s.putPrep x) = s.putPrep (x.failing bs f) := by
    intro bs
    induction bs with
    | nil => exact fun _ _ _ => rfl
    | cons b bs ih =>
      intro x hsource hring
      have hx : (s.putPrep x).gld.prep r.source r.ring = some x := hsource ▸ hring ▸ s.putPrep_prep x
      rw [List.foldl_cons, State.failGroup_prepared (s := s.putPrep x) hact hx,
        State.putPrep_putPrep s (r := x) (x := x.failing [b] f) rfl rfl]
      exact ih (x.failing [b] f) hsource hring
  exact hfold _ r rfl rfl

/-! ### Manifests found -/

/-- A source once a manifest of it is good: it no longer shows a rejected one (R424). -/
def Source.accepted (g : Source) : Source := if g.state = 3 then { g with state := 0, reason := 0 } else g

theorem Source.accepted_id (g : Source) : g.accepted.id = g.id := by
  unfold Source.accepted
  split <;> rfl

/-- A good manifest is found ready. -/
def State.manifestFound (s : State) (g : Source) (ring : Nat) : State :=
  { s.putSource g.accepted with
    gld := { (s.putSource g.accepted).gld with manifests := s.gld.manifests ++ [(g.id, ring)] } }

theorem State.manifestFound_source (s : State) (g : Source) (ring : Nat) :
    (s.manifestFound g ring).gld.source g.id = some g.accepted := g.accepted_id ▸ s.putSource_source_same g.accepted

theorem State.manifestFound_keeps (s : State) (g : Source) (ring : Nat) : Keeps [.gld] s (s.manifestFound g ring) := .of_patch rfl

/-- What becomes of a source's ring once the bytes of its manifest's slot are read (R424). -/
def State.manifestRead (s : State) (g : Source) (ring : Nat) (p : Plan) (op : Nat) (b : Bytes) : State :=
  if fld b 0 6 ≠ ring then s
  else if manifestReason g p op b = 0 then s.manifestFound g ring
  else s.rejectManifest g (emptyPrep g.id ring p.handle op) p.mbCount (manifestReason g p op b)

/-- A rejected manifest with no step active: the source shows why, and every group of the slot fails (R424). -/
theorem State.rejectManifest_prepared {s : State} (hact : s.stp.active = none) (g : Source) (r : Prep) (groups why : Nat) :
    s.rejectManifest g r groups why = (s.putSource { g with state := 3, reason := why }).putPrep
      (Prep.failing { r with rejected := true } (List.range groups) (.ofCode cSAMPLE_BAD)) :=
  State.failAll_prepared (s := s.putSource { g with state := 3, reason := why }) hact { r with rejected := true } groups _

/-! ### A step prepared -/

/-- The entries of a manifest with the dispositions that a replay or an order gives them (R440, R441). -/
def State.entriesOf (s : State) (source ring : Nat) (b : Bytes) : List PrepEntry :=
  (manifestEntries b).map fun e => { e with forced := s.forcedOf source ring e.index }

/-- None of the entries is halted before its record is read. -/
theorem State.entriesOf_runs {s : State} {source ring : Nat} {b : Bytes}
    (h : ∀ e ∈ manifestEntries b, ∀ why, s.forcedOf source ring e.index ≠ some (.halt why)) (k why : Nat) :
    ((s.entriesOf source ring b)[k]?).bind (fun e => e.forced) ≠ some (.halt why) := by
  intro hhalt
  obtain ⟨e, he, hforced⟩ := Option.bind_eq_some_iff.1 hhalt
  obtain ⟨x, hx, rfl⟩ := List.mem_map.1 (List.mem_of_getElem? he)
  exact h x hx why hforced

/-! ### The manifest of a source's ring is read -/

section
variable {s : State} {source ring : Nat} {g : Source} {p : Plan} {op : Nat} (hpow : s.powered = true)
  (hg : s.gld.source source = some g) (hplan : s.batchPlan source ring = some (p, op))
  (hacc : Accessible s (g.manifestVa + ring % 8 * g.slotBytes) (128 + 16 * g.maxEntries) false)
include hpow hg hplan hacc

/-- The slot of a ring's manifest is read where nothing is found or prepared for the ring yet. -/
theorem execManifestReady_read (hring : s.deviceRing < ring) (hnew : (source, ring) ∉ s.gld.manifests)
    (hprep : s.gld.prep source ring = none) :
    ∃ u, Keeps [.mem, .coh, .rgn] s u ∧ exec (.manifestReady source ring) s
      = .next (u.manifestRead g ring p op (s.peekVa (g.manifestVa + ring % 8 * g.slotBytes) (128 + 16 * g.maxEntries))) := by
  obtain ⟨u, hread, hkeeps⟩ := hacc.gladeRead 0
  obtain rfl := Gld.source_id hg
  refine ⟨u, hkeeps, ?_⟩
  show execManifestReady g.id ring s = _
  unfold execManifestReady
  simp only [hg, hplan]
  rw [if_neg (by simp [hpow, hnew, hprep]; omega), hread]
  rfl

/-- A good manifest's step is prepared in a free slot of the look-ahead. -/
theorem execGladePrepareStep_opens {b : Bytes}
    (hb : b = s.peekVa (g.manifestVa + ring % 8 * g.slotBytes) (128 + 16 * g.maxEntries))
    (hfound : (source, ring) ∈ s.gld.manifests) (hlow : s.deviceRing < ring) (hhigh : ring ≤ s.deviceRing + 1 + g.lookahead)
    (hgood : fld b 0 6 = ring → manifestReason g p op b = 0)
    (hfree : ∀ r ∈ s.gld.preps, r.source = source → r.ring % (g.lookahead + 1) ≠ ring % (g.lookahead + 1))
    (hruns : ∀ e ∈ manifestEntries b, ∀ why, s.forcedOf source ring e.index ≠ some (.halt why)) :
    ∃ u, Keeps [.mem, .coh, .rgn] s u ∧ exec (.gladePrepareStep source ring) s
      = .next (u.putPrep { emptyPrep source ring p.handle op with entries := s.entriesOf source ring b }) := by
  obtain ⟨u, hread, hkeeps⟩ := hacc.gladeRead 0
  rw [← hb] at hread
  have hgld : u.gld = s.gld := hkeeps .gld (by decide)
  have hstp : u.stp = s.stp := hkeeps .stp (by decide)
  have hforced : u.forcedOf = s.forcedOf := by
    funext source ring index
    simp only [State.forcedOf, hgld, hstp]
  have hslot : (s.gld.preps.any fun r => r.source == source && r.ring % (g.lookahead + 1) == ring % (g.lookahead + 1)) = false := by
    simpa using hfree
  have hwhy : (if fld b 0 6 = ring then manifestReason g p op b else 0) = 0 := by
    split
    · exact hgood ‹_›
    · rfl
  refine ⟨u, hkeeps, ?_⟩
  show execGladePrepareStep source ring s = _
  unfold execGladePrepareStep
  simp only [hg, hplan]
  rw [if_neg (by simp [hpow, hfound, hslot]; omega), hread]
  dsimp only
  rw [if_neg (not_not.2 hwhy), hforced]
  refine congrArg Host.Outcome.next (foldl_keeps (P := (· = _)) (fun t k ht => ?_) _ _ rfl)
  split
  · rename_i why hhalt
    exact absurd hhalt (State.entriesOf_runs hruns k why)
  · exact ht

end

/-! ### Lanes -/

/-- One entry of a list changed. -/
def changeEntry (l : List PrepEntry) (k : Nat) (f : PrepEntry → PrepEntry) : List PrepEntry :=
  (List.range l.length).filterMap fun i => (l[i]?).map fun e => if i = k then f e else e

theorem filterMap_range_getElem? {α β : Type} (f : Nat → α → β) (l : List α) :
    ((List.range l.length).filterMap fun i => (l[i]?).map (f i)) = l.mapIdx f := by
  induction l using List.reverseRecOn with
  | nil => rfl
  | append_singleton l a ih =>
    have hfront : ((List.range l.length).filterMap fun i => ((l ++ [a])[i]?).map (f i)) = l.mapIdx f := by
      rw [← ih]
      exact List.filterMap_congr fun i hi => by rw [List.getElem?_append_left (List.mem_range.1 hi)]
    rw [List.length_append, List.length_singleton, List.range_succ, List.filterMap_append, hfront, List.mapIdx_concat]
    simp

theorem changeEntry_getElem? (l : List PrepEntry) (k : Nat) (f : PrepEntry → PrepEntry) (j : Nat) :
    (changeEntry l k f)[j]? = (l[j]?).map fun e => if j = k then f e else e := by
  rw [changeEntry, filterMap_range_getElem? (fun i e => if i = k then f e else e), List.getElem?_mapIdx]

theorem State.setEntry_eq {s : State} {r : Prep} (h : s.gld.prep r.source r.ring = some r) (k : Nat)
    (f : PrepEntry → PrepEntry) : s.setEntry r k f = s.putPrep { r with entries := changeEntry r.entries k f } := by
  unfold State.setEntry
  rw [h]
  rfl

/-- A slot with an entry in a lane. -/
def Prep.taking (r : Prep) (k : Nat) : Prep := { r with entries := changeEntry r.entries k fun e => { e with st := 1 } }

theorem Prep.taking_same (r : Prep) (k : Nat) : (r.taking k).entries[k]? = (r.entries[k]?).map fun e => { e with st := 1 } := by
  simp [Prep.taking, changeEntry_getElem?]

theorem Prep.taking_ne (r : Prep) {j k : Nat} (h : j ≠ k) : (r.taking k).entries[j]? = r.entries[j]? := by
  simp [Prep.taking, changeEntry_getElem?, h]

/-- A lane takes an entry of a slot. -/
def State.laneTakes (s : State) (lane : Fin 32) (r : Prep) (k : Nat) : State :=
  let t := s.putPrep (r.taking k)
  { t with gld := { t.gld with lanes := t.gld.lanes.set lane ⟨r.source, r.ring, k, t.aon.tick.toNat⟩ } }.wakeBlock (.lane lane)

theorem execGladeLaneStart_takes {s : State} {lane : Fin 32} {source ring k : Nat} {g : Source} {e : PrepEntry} {r : Prep}
    (hpow : s.powered = true) (hg : s.gld.source source = some g) (hlane : s.gld.lanes.get lane = none)
    (hnext : s.gld.nextEntry g = some (ring, k, e)) (hr : s.gld.prep source ring = some r) :
    exec (.gladeLaneStart lane source) s = .next (s.laneTakes lane r k) := by
  obtain ⟨rfl, rfl⟩ := Gld.prep_key hr
  show execGladeLaneStart lane r.source s = _
  unfold execGladeLaneStart
  simp only [hg, hnext, Option.elim_some, hr]
  rw [if_neg (by simp [hpow, hlane]), State.setEntry_eq hr]
  rfl

/-! ### The statement -/

/-- Settles O45: the manifest's bytes are those that memory held, since nothing obstructs the read, and what they say decides what
becomes of the source's ring; a lane's entry is changed alone. -/
theorem samplesPrepared : Obligations.SamplesPrepared := by
  unfold Obligations.SamplesPrepared
  refine ⟨?_, ?_⟩
  · rintro s source ring g p op b hpow hg hplan hacc hb hact
    refine ⟨fun hring hnew hprep => ?_, fun hfound hlow hhigh hgood hfree hruns => ?_⟩
    · obtain ⟨u, hkeeps, hexec⟩ := execManifestReady_read hpow hg hplan hacc hring hnew hprep
      obtain rfl := Gld.source_id hg
      rw [← hb, State.manifestRead] at hexec
      have hgld : u.gld = s.gld := hkeeps .gld (by decide)
      have hidle : u.stp.active = none := (congrArg Stp.active (hkeeps .stp (by decide)) :).trans hact
      refine ⟨fun hword hwhy => ?_, fun hword hwhy => ?_, fun hword => ?_⟩
      · rw [if_neg (not_not.2 hword), if_pos hwhy] at hexec
        exact ⟨_, hexec, congrArg (fun x : Gld => x.manifests ++ [(g.id, ring)]) hgld,
          (congrArg Gld.preps hgld :), u.manifestFound_source g ring,
          (hkeeps.mono (by decide)).trans ((u.manifestFound_keeps g ring).mono (by decide))⟩
      · rw [if_neg (not_not.2 hword), if_neg hwhy, State.rejectManifest_prepared hidle] at hexec
        exact ⟨_, _, hexec, (congrArg Gld.manifests hgld :),
          State.putSource_source_same u { g with state := 3, reason := _ }, State.putPrep_prep _ (Prep.failing _ _ _), rfl,
          fun m hm => Prep.failing_get rfl (List.mem_range.2 hm) _, (hkeeps.mono (by decide)).trans (.of_patch rfl)⟩
      · rw [if_pos hword] at hexec
        exact ⟨u, hexec, hkeeps⟩
    · obtain ⟨u, hkeeps, hexec⟩ := execGladePrepareStep_opens hpow hg hplan hacc hb hfound hlow hhigh hgood hfree hruns
      have hgld : u.gld = s.gld := hkeeps .gld (by decide)
      exact ⟨_, hexec, (hkeeps.mono (by decide)).trans ((u.putPrep_keeps _).mono (by decide)), State.putPrep_prep _ _,
        (congrArg Gld.sources hgld :)⟩
  · rintro s lane source ring k g e r hpow hg hlane hnext hr
    obtain ⟨rfl, rfl⟩ := Gld.prep_key hr
    exact ⟨_, r.taking k, execGladeLaneStart_takes hpow hg hlane hnext hr, .of_patch rfl, AL.get_set_same _ _ _,
      State.putPrep_prep s (r.taking k), r.taking_same k, fun j hj => r.taking_ne hj⟩

end Sys2Proof.Machine
end

section
/-! SUPPORT. The host port's link and the adapter ports: each event as one update of the port, and an interrupt message as one of
its core's file (R450, R452, R466 to R468, R548, R549, R569, R575, R635). -/

namespace Sys2Proof.Machine

/-! ### The host link -/

/-- PERST_N low on a link that is not up. -/
theorem execHostPerstAssert_unlinked {s : State} (hlink : s.hst.link ≠ .up) :
    exec .hostPerstAssert s
      = .next { s with aon := { s.aon with perstN := false }, hst := { s.hst with link := .down } } := by
  show execHostPerstAssert s = _
  simp [execHostPerstAssert, hlink]

theorem execHostPerstRelease_trains {s : State} (hpow : s.powered = true) (htick : s.aon.tickOn = true) (hlink : s.hst.link = .down) :
    exec .hostPerstRelease s
      = .next { s with aon := { s.aon with perstN := true }, hst := { s.hst with link := .training } } := by
  have hruns : (s.powered && s.aon.tickOn && s.hst.link == .down) = true := by simp [hpow, htick, hlink]
  exact congrArg Host.Outcome.next (if_pos hruns)

section
variable {s : State} (hpow : s.powered = true) (hperst : s.aon.perstN = true) (hlink : s.hst.link = .training)
include hpow hperst hlink

theorem execHostLinkUp_trained {w : Nat} (hw : w = 16 ∨ w = 8 ∨ w = 4) :
    exec (.hostLinkUp w) s = .next { s with hst := { s.hst with link := .up, width := w, helloSeen := false } } :=
  congrArg Host.Outcome.next (if_pos (by simpa [hpow, hperst, hlink] using hw))

theorem execHostPortDownAtStart_training :
    exec .hostPortDownAtStart s = .next (({ s with hst := { s.hst with link := .down } }).raise aHOST_LINK 0 noTag 0 0) :=
  congrArg Host.Outcome.next (if_pos (by simp [hpow, hperst, hlink]))

end

/-- The link has trained again at a width. -/
def State.retrained (s : State) (w : Nat) : State := { s with hst := { s.hst with width := w, retrains := s.hst.retrains + 1 } }

theorem State.retrained_keeps (s : State) (w : Nat) : Keeps [.hst] s (s.retrained w) := .of_patch rfl

theorem execHostLinkRetrain_up {s : State} {w : Nat} (hpow : s.powered = true) (hlink : s.hst.link = .up)
    (hw : w = 16 ∨ w = 8 ∨ w = 4) (hle : w ≤ s.hst.width) :
    exec (.hostLinkRetrain w) s = .next (if w < s.hst.width
      then (s.retrained w).raise aLOG 0 noTag (unitField uHostPort 0 0) 0 else s.retrained w) := by
  show execHostLinkRetrain w s = _
  unfold execHostLinkRetrain
  rw [if_neg (by simp [hpow, hlink, hle]; omega)]
  rfl

/-- Settles O35: each event of the link is one update of the port, a retrain at a narrower width with LOG attention besides. -/
theorem hostLinkTrains : Obligations.HostLinkTrains := by
  unfold Obligations.HostLinkTrains
  refine ⟨fun s hlink => ?_, fun s hpow htick hlink => ?_, fun s hpow hperst hlink => ⟨fun w hw => ?_, ?_⟩,
    fun s w hpow hlink hw hle => ?_⟩
  · exact ⟨_, execHostPerstAssert_unlinked hlink, rfl, rfl, .of_patch rfl⟩
  · exact ⟨_, execHostPerstRelease_trains hpow htick hlink, rfl, rfl, .of_patch rfl⟩
  · exact ⟨_, execHostLinkUp_trained hpow hperst hlink hw, rfl, .of_patch rfl⟩
  · exact ⟨_, execHostPortDownAtStart_training hpow hperst hlink, rfl, rfl, .of_patch rfl⟩
  · rw [execHostLinkRetrain_up hpow hlink hw hle]
    rcases Nat.lt_or_eq_of_le hle with hlt | heq
    · rw [if_pos hlt]
      exact ⟨_, rfl, rfl, fun he => absurd he (Nat.ne_of_lt hlt), fun _ => ⟨rfl, .of_patch rfl⟩⟩
    · rw [if_neg (by omega)]
      exact ⟨_, rfl, rfl, fun _ => s.retrained_keeps w, fun hlt => absurd heq (Nat.ne_of_lt hlt)⟩

/-! ### Interrupt messages of the adapters -/

/-- An identity added to those that are pending. -/
def addPending (l : List Nat) (id : Nat) : List Nat := if l.contains id then l else l ++ [id]

theorem mem_addPending {l : List Nat} {id i : Nat} : i ∈ addPending l id ↔ i ∈ l ∨ i = id := by
  unfold addPending
  split
  · rename_i h
    exact ⟨.inl, fun hi => hi.elim (fun hl => hl) fun he => he ▸ List.contains_iff_mem.1 h⟩
  · simp

/-- A core whose machine or supervisor file has taken an identity, and which is awake (R548, R549). -/
def CoreSt.interrupted (c : CoreSt) (sup : Bool) (id : Nat) : CoreSt :=
  if sup then { c with imsicS := addPending c.imsicS id, sleeping := false }
  else { c with imsicM := addPending c.imsicM id, sleeping := false }

theorem CoreSt.interrupted_machine (c : CoreSt) (sup : Bool) (id i : Nat) :
    i ∈ (c.interrupted sup id).imsicM ↔ i ∈ c.imsicM ∨ sup = false ∧ i = id := by
  cases sup <;> simp [CoreSt.interrupted, mem_addPending]

theorem CoreSt.interrupted_supervisor (c : CoreSt) (sup : Bool) (id i : Nat) :
    i ∈ (c.interrupted sup id).imsicS ↔ i ∈ c.imsicS ∨ sup = true ∧ i = id := by
  cases sup <;> simp [CoreSt.interrupted, mem_addPending]

theorem CoreSt.interrupted_awake (c : CoreSt) (sup : Bool) (id : Nat) : (c.interrupted sup id).sleeping = false := by
  cases sup <;> rfl

theorem State.setCore_cores (s : State) (n : Nat) (c : CoreSt) : (s.setCore n c).cor.cores = s.cor.cores.set n c := by
  unfold State.setCore
  split <;> rfl

theorem State.setCore_same (s : State) (n : Nat) (c : CoreSt) : (s.setCore n c).cor.core n = c := by
  rw [Cor.core, State.setCore_cores, AL.getD, AL.get_set_same, Option.getD_some]

theorem State.setCore_ne (s : State) {n m : Nat} (h : m ≠ n) (c : CoreSt) : (s.setCore n c).cor.core m = s.cor.core m := by
  rw [Cor.core, State.setCore_cores, AL.getD, AL.get_set_ne _ h]
  rfl

theorem State.setCore_keeps (s : State) (n : Nat) (c : CoreSt) : Keeps [.cor, .aon] s (s.setCore n c) := by
  unfold State.setCore
  split <;> exact .of_patch rfl

/-- The address of a core's file, of its machine or supervisor level (R539). -/
def imsicAddr (n : Nat) (sup : Bool) : Nat := 0x00F100000000 + n * 0x2000 + if sup then 0x1000 else 0

/-- A write of an identity to a core's file. -/
theorem State.imsicWrite_file (s : State) {n id : Nat} (hn : n < 96) (sup : Bool) (hlo : 1 ≤ id) (hhi : id ≤ 255) :
    s.imsicWrite (imsicAddr n sup) id = some (s.setCore n ((s.cor.core n).interrupted sup id)) := by
  have hid : id % 2 ^ 32 = id := by omega
  have hoff : imsicAddr n sup - 0x00F100000000 = n * 0x2000 + if sup then 0x1000 else 0 := by unfold imsicAddr; omega
  have hcore : (n * 0x2000 + if sup then 0x1000 else 0) / 0x2000 = n := by split <;> omega
  have hfile : (n * 0x2000 + if sup then 0x1000 else 0) % 0x1000 = 0 := by split <;> omega
  have hbelow : ¬ imsicAddr n sup < 0x00F100000000 := by unfold imsicAddr; omega
  unfold State.imsicWrite
  simp only [hoff, hcore, hid]
  rw [if_neg (by simp [hbelow, hfile, hn]), if_neg (by simp; omega)]
  cases sup with
  | true => rw [if_neg (by simp)]; rfl
  | false => rw [if_pos (by simp)]; rfl

theorem State.imsicWrite_below (s : State) {addr : Nat} (h : addr < 0x00F100000000) (id : Nat) : s.imsicWrite addr id = none := by
  unfold State.imsicWrite
  exact if_pos (by simp [h])

theorem execAdapterInterruptMsg_up {s : State} {p : Fin 4} (hup : s.adapterUp p = true) (addr id : Nat) :
    exec (.adapterInterruptMsg p addr id) s
      = .next (match s.imsicWrite addr id with
        | some t => t
        | none => s.refuseUpstream p addr) :=
  congrArg Host.Outcome.next (if_neg (by simp [hup]))

/-! ### The adapters' links -/

/-- The link of an adapter port has gone down: reads that waited from it have no one to answer, and its reset is asserted (R466,
R635). -/
def State.adapterDown (s : State) (p : Nat) (a : Adapter) : State :=
  ({ s with hst := s.hst.dropReads (p + 1) }).setAdapter p
    { a with pi := 2, downs := a.downs + 1, perstHigh := false, width := 0, rate := 0 }

theorem State.setAdapter_same (s : State) (p : Nat) (a : Adapter) : (s.setAdapter p a).hst.adapter p = some a :=
  AL.get_set_same _ _ _

theorem State.setAdapter_ne (s : State) {p i : Nat} (h : i ≠ p) (a : Adapter) :
    (s.setAdapter p a).hst.adapter i = s.hst.adapter i := AL.get_set_ne _ h _

theorem State.setAdapter_keeps (s : State) (p : Nat) (a : Adapter) : Keeps [.hst] s (s.setAdapter p a) := .of_patch rfl

section
variable {s : State} {p : Fin 4} {a : Adapter} (hpow : s.powered = true) (ha : s.hst.adapter p = some a)
include hpow ha

theorem execAdapterLinkDown_up (hpi : a.pi = 5) :
    exec (.adapterLinkDown p) s = .next ((s.adapterDown p a).raise aHOST_LINK 0 noTag (p + 1) 2) := by
  show execAdapterLinkDown p s = _
  unfold execAdapterLinkDown
  simp only [ha]
  rw [if_neg (by simp [hpow, hpi])]
  rfl

theorem execAdapterPerstTimeout_down (hpi : a.pi = 2) :
    exec (.adapterPerstTimeout p) s = .next (s.setAdapter p { a with pi := 3, perstHigh := true }) := by
  show execAdapterPerstTimeout p s = _
  unfold execAdapterPerstTimeout
  simp only [ha]
  rw [if_pos (by simp [hpow, hpi])]

theorem execAdapterLinkUp_training (hpi : a.pi = 3) {w rate : Nat} (hw : w = 8 ∨ w = 4) (hrate : rate = 64 ∨ rate = 32 ∨ rate = 16) :
    exec (.adapterLinkUp p w rate) s = .next (s.setAdapter p { a with pi := 5, width := w, rate := rate }) := by
  show execAdapterLinkUp p w rate s = _
  unfold execAdapterLinkUp
  simp only [ha]
  rw [if_pos (by simpa [hpow, hpi] using ⟨hw, hrate⟩)]

end

/-- Settles O38: an interrupt message is one write of a core's file, or refused; each event of an adapter's link is one update of its
port. -/
theorem adapterPorts : Obligations.AdapterPorts := by
  unfold Obligations.AdapterPorts
  refine ⟨fun s p n sup id hup hlo hhi => ?_, fun s p addr id hup hbelow => ?_,
    fun s p a hpow ha => ⟨fun hpi => ?_, fun hpi => ?_, fun hpi w rate hw hrate => ?_⟩⟩
  · have hexec := execAdapterInterruptMsg_up hup (imsicAddr n sup) id
    rw [s.imsicWrite_file n.isLt sup hlo hhi] at hexec
    refine ⟨_, hexec, ?_, ?_, ?_, fun m hm => s.setCore_ne hm _, s.setCore_keeps _ _⟩
    · rw [State.setCore_same]
      exact CoreSt.interrupted_machine _ sup id
    · rw [State.setCore_same]
      exact CoreSt.interrupted_supervisor _ sup id
    · rw [State.setCore_same]
      exact CoreSt.interrupted_awake _ sup id
  · have hexec := execAdapterInterruptMsg_up hup addr id
    rw [s.imsicWrite_below hbelow] at hexec
    exact ⟨_, _, hexec, rfl, rfl, .of_patch rfl⟩
  · exact ⟨_, execAdapterLinkDown_up hpow ha hpi, State.setAdapter_same _ _ _, fun i hi => State.setAdapter_ne _ hi _, rfl,
      .of_patch rfl⟩
  · exact ⟨_, execAdapterPerstTimeout_down hpow ha hpi, s.setAdapter_same _ _, s.setAdapter_keeps _ _⟩
  · exact ⟨_, execAdapterLinkUp_training hpow ha hpi hw hrate, s.setAdapter_same _ _, s.setAdapter_keeps _ _⟩

end Sys2Proof.Machine
end

section
/-! SUPPORT. DMA_SUBMIT and DMA_STATUS: a legal transfer takes the shadow set, from which it starts at once on an idle channel (R474,
R477, R482, R483). -/

namespace Sys2Proof.Machine

theorem Rgn.byVa_mem {g : Rgn} {va off : Nat} {r : Region} (h : g.byVa va = some (r, off)) : r ∈ g.regions := by
  obtain ⟨x, hx, hfound⟩ := List.exists_of_findSome?_eq_some h
  cases hmap : x.map with
  | none => simp [hmap] at hfound
  | some m =>
    simp only [hmap] at hfound
    split at hfound
    · cases hfound
      exact hx
    · cases hfound

/-- With no region host-stale no range is. -/
theorem Rgn.staleHost_none {g : Rgn} (h : ∀ r ∈ g.regions, r.stale = false) (va len : Nat) : g.staleHost va len = false := by
  unfold Rgn.staleHost
  refine List.any_eq_false.2 fun c _ => ?_
  cases hva : g.byVa c.1 with
  | none => simp
  | some x => simp [h x.1 (Rgn.byVa_mem hva)]

/-! ### The channel -/

/-- A transfer in the shadow set of a busy channel waits there. -/
theorem Chan.promote_busy {c : Chan} (h : c.busy = true) : c.promote = c := by
  unfold Chan.promote
  rw [if_pos (by simp [h])]

/-- A transfer that has not ended starts from the shadow set of an idle channel. -/
theorem Chan.promote_starts {c : Chan} (hvalid : c.shadow.valid = true) (hended : c.shadow.ended = false) (hidle : c.busy = false) :
    c.promote = { c with
      active := c.shadow, shadow := DmaSet.reset, state := 1
      crcNow := if c.shadow.crcMode = 1 then 0xFFFFFFFF else c.runCrc, usedHost := false } := by
  unfold Chan.promote
  rw [if_neg (by simp [hvalid, hidle]), hended]
  rfl

/-- The channel once a transfer has been accepted. -/
def Chan.accepts (c : Chan) (d : DmaSet) : Chan := { c with shadow := d }.promote

theorem Chan.accepts_idle {c : Chan} {d : DmaSet} (hvalid : d.valid = true) (hended : d.ended = false) (hidle : c.busy = false) :
    (c.accepts d).active = d ∧ (c.accepts d).state = 1 ∧ (c.accepts d).shadow.valid = false := by
  rw [Chan.accepts, Chan.promote_starts (c := { c with shadow := d }) hvalid hended hidle]
  exact ⟨rfl, rfl, rfl⟩

theorem Chan.accepts_busy {c : Chan} {d : DmaSet} (hbusy : c.busy = true) :
    (c.accepts d).shadow = d ∧ (c.accepts d).active = c.active := by
  rw [Chan.accepts, Chan.promote_busy (c := { c with shadow := d }) hbusy]
  exact ⟨rfl, rfl⟩

/-! ### The bodies -/

/-- The reserved fields of DMA_SUBMIT are zero. -/
structure Req.DmaZeros (q : Req) : Prop where
  channel : q.rz 0 2 15 7 = true
  header : q.zb 2 2 = true
  high : q.rz 4 4 31 8 = true
  low : q.rz 4 4 4 0 = true
  rest : q.zb 0x30 16 = true

/-- A transfer within R482's legal values. -/
structure DmaSet.Legal (d : DmaSet) (g : Rgn) : Prop where
  mode : d.crcMode ≠ 3
  pos : 1 ≤ d.len
  small : d.len < 2 ^ 36
  src : vaOk d.src = true
  dst : vaOk d.dst = true
  flag : vaOk d.flagVa = true
  unflagged : d.flagEn = false → d.flagVa = 0 ∧ d.flagVal = 0
  apart : overlaps d.src d.len d.dst d.dstLen = false
  flagged : d.flagEn = true → d.flagVa % 8 = 0 ∧ g.flagAstray d = false

/-- The first row of R483 that matches a legal transfer to a free shadow set is the last. -/
theorem dmaSubmitBody_accepts {s : State} {q : Req} {n : Nat} (hn : n = bits (q.f 0 2) 6 0) (hzero : q.DmaZeros)
    (hlegal : (dmaOf q).Legal s.rgn) (hfresh : ∀ r ∈ s.rgn.regions, r.stale = false) (hfree : (s.dma.ch n).shadow.valid = false) :
    dmaSubmitBody q s = (s.setChan n ((s.dma.ch n).accepts (dmaOf q)), rcode cACCEPTED) := by
  subst hn
  have hflag : ¬ ((!(dmaOf q).flagEn && ((dmaOf q).flagVa != 0 || (dmaOf q).flagVal != 0)) = true) := by
    cases hen : (dmaOf q).flagEn with
    | true => simp
    | false => simp [hlegal.unflagged hen]
  have halign : ¬ (((dmaOf q).flagEn && ((dmaOf q).flagVa % 8 != 0 || s.rgn.flagAstray (dmaOf q))) = true) := by
    cases hen : (dmaOf q).flagEn with
    | true => simp [hlegal.flagged hen]
    | false => simp
  have hpos := hlegal.pos
  have hsmall := hlegal.small
  unfold dmaSubmitBody
  dsimp only
  rw [if_neg, if_neg (by simp [hlegal.apart]), if_neg halign, if_neg (by simp [hfree]),
    if_neg (by simp [Rgn.staleHost_none hfresh])]
  · rfl
  · rw [Bool.or_eq_true, not_or]
    refine ⟨?_, hflag⟩
    simp [hzero.channel, hzero.header, hzero.high, hzero.low, hzero.rest, hlegal.mode, hlegal.src, hlegal.dst, hlegal.flag]
    omega

theorem dmaStatusBody_eq {s : State} {q : Req} (hchan : q.rz 0 1 7 7 = true) (hzero : q.zb 1 7 = true) :
    dmaStatusBody q s = (s, some (cOK, (s.dma.ch (q.f 0 1)).bytes)) := by
  unfold dmaStatusBody
  rw [if_neg (by simp [hchan, hzero])]

/-! ### The statement -/

/-- Settles O29: a legal transfer changes its channel alone, and DMA_STATUS only replies. -/
theorem dmaAccepted : Obligations.DmaAccepted := by
  unfold Obligations.DmaAccepted
  refine ⟨?_, fun s k hInv hserved hchan hzero => ?_⟩
  · rintro s k q n rfl hn hInv hserved hchan hheader hhigh hlow hrest hmode hpos hsmall hsrc hdst hflag hunflagged hapart hflagged
      hfresh hfree
    have hbody := dmaSubmitBody_accepts (s := s.taken k) hn ⟨hchan, hheader, hhigh, hlow, hrest⟩
      ⟨hmode, hpos, hsmall, hsrc, hdst, hflag, hunflagged, hapart, hflagged⟩ hfresh hfree
    obtain ⟨hreplied, hkeeps⟩ := hserved.take_replied hInv.mbx hbody (by decide) rfl
    refine ⟨s.take k (·.opcode == 0x0701) dmaSubmitBody, rfl, hreplied, ?_, ?_⟩
    · exact ((s.taken_keeps k).mono (by decide)).trans (((State.setChan_keeps _ _ _).mono (by decide)).trans
        (hkeeps.mono (by decide)))
    · have hdma : (s.take k (·.opcode == 0x0701) dmaSubmitBody).dma = _ := hkeeps .dma (by decide)
      rw [hdma, State.setChan_same]
      exact ⟨fun m hm => State.setChan_ne _ hm _, fun hidle => Chan.accepts_idle rfl rfl hidle, Chan.accepts_busy⟩
  · exact ⟨_, rfl, hserved.take_onlyReplies hInv.mbx (dmaStatusBody_eq (s := s.taken k) hchan hzero) (by decide)⟩

end Sys2Proof.Machine
end

section
/-! SUPPORT. Accesses through registered windows: what the window refuses, and what an admitted access reads or writes, however many
pages it reaches (R270, R460 to R465). -/

namespace Sys2Proof.Machine

/-! ### Registrations -/

/-- What a registration admits lies in a region. -/
theorem Rgn.admitted_mem {g : Rgn} {source off len o : Nat} {write : Bool} {r : Region}
    (h : g.admitted source off len write = some (r, o)) : r ∈ g.regions := by
  obtain ⟨x, hx, hfound⟩ := List.exists_of_findSome?_eq_some h
  cases hreg : x.reg with
  | none => simp [hreg] at hfound
  | some y =>
    simp only [hreg, Option.ite_none_right_eq_some, Option.some.injEq] at hfound
    obtain ⟨-, rfl, -⟩ := hfound
    exact hx

/-! ### Memory -/

/-- A write to a region changes no byte but those of its parts. -/
theorem State.writeRegion_rewrites {s : State} (h : s.Sound) (r : Region) (off : Nat) (d : Bytes) :
    Rewrites (fun a => ∃ c ∈ r.chunks off d.length, c.1 ≤ a ∧ a < c.1 + c.2) s (s.writeRegion r off d) := by
  have hparts : ∀ (cs : List (Nat × Nat)) {t : State} (e : Bytes), t.Sound →
      Rewrites (fun a => ∃ c ∈ cs, r.key c.1 ≤ a ∧ a < r.key c.1 + c.2) t (cs.foldl (State.writePart r) (t, e)).1 := by
    intro cs
    induction cs with
    | nil => exact fun e ht => .refl ht
    | cons c cs ih =>
      intro t e ht
      have hlen : (e.take c.2).length ≤ c.2 := List.length_take_le _ _
      have hfirst := State.writePart_stores ht r e c
      refine (hfirst.rewrites fun a hlo hhi => ⟨c, List.mem_cons_self, hlo, by omega⟩).trans
        ((ih (e.drop c.2) hfirst.sound).mono ?_)
      rintro a ⟨x, hx, hin⟩
      exact ⟨x, List.mem_cons_of_mem _ hx, hin⟩
  have hwritten := (hparts (chunksOf off d.length) d h).mono (V := fun a => ∃ c ∈ r.chunks off d.length, c.1 ≤ a ∧ a < c.1 + c.2)
    (by rintro a ⟨c, hc, hin⟩; exact ⟨_, List.mem_map_of_mem hc, hin⟩)
  generalize hu : ((chunksOf off d.length).foldl (State.writePart r) (s, d)).1 = u at hwritten
  have habandons : u.rgn.Alike ((chunksOf off d.length).foldl
      (fun g (c : Nat × Nat) => g.writeAbandons r.id (c.1 / pageBytes)) u.rgn) :=
    .foldl (fun g c => g.writeAbandons_alike _ _) _ _
  have heq : s.writeRegion r off d = ({ u with
      rgn := (chunksOf off d.length).foldl (fun g (c : Nat × Nat) => g.writeAbandons r.id (c.1 / pageBytes)) u.rgn }).heatAccess
        r.id off d.length := by
    rw [← hu]
    rfl
  rw [heq]
  have hquiet : SameData u { u with
      rgn := (chunksOf off d.length).foldl (fun g (c : Nat × Nat) => g.writeAbandons r.id (c.1 / pageBytes)) u.rgn } :=
    ⟨rfl, rfl, rfl, rfl⟩
  exact (hwritten.trans (hquiet.rewrites hwritten.sound habandons)).trans
    (((State.heatAccess_keeps _ _ _ _).sameData (by decide)).rewrites (hquiet.sound hwritten.sound) (State.heatAccess_alike _ _ _ _))

theorem State.fetchPart_poison {s : State} {r : Region} {c : Nat × Nat} : ∀ l ∈ (s.fetchPart r c).mem.poison, l ∈ s.mem.poison := by
  intro l hl
  rw [State.fetchPart, State.placeKey_mem, State.wakeRange_poison] at hl
  exact State.cleanRange_poison l hl

/-- A read poisons no line. -/
theorem State.readRegion_poison {s : State} {r : Region} {off len : Nat} :
    ∀ l ∈ (s.readRegion r off len).2.mem.poison, l ∈ s.mem.poison := by
  rw [State.readRegion_eq]
  show ∀ l ∈ ((s.fetched r off len).heatAccess r.id off len).mem.poison, l ∈ s.mem.poison
  rw [State.heatAccess_mem]
  exact foldl_keeps (P := fun t : State => ∀ l ∈ t.mem.poison, l ∈ s.mem.poison)
    (fun t c ht l hl => ht l (State.fetchPart_poison l hl)) _ _ fun _ hl => hl

/-- A range without a poisoned line has none once fewer lines are poisoned. -/
theorem Mem.poisonIn_fewer {m m' : Mem} (h : ∀ l ∈ m'.poison, l ∈ m.poison) {lo n : Nat} (hnone : m.poisonIn lo n = none) :
    m'.poisonIn lo n = none :=
  List.find?_eq_none.2 fun l hl => List.find?_eq_none.1 hnone l (h l hl)

/-- A range within one page of a region reads the keys from its first on. -/
theorem State.regionBytes_page (s : State) (r : Region) {off len i : Nat} (hpage : off % pageBytes + len ≤ pageBytes) (hi : i < len) :
    (s.regionBytes r off len).getD i 0#8 = s.byte (r.key off + i) := by
  rw [State.regionBytes, chunksOf_one (by omega) hpage, List.flatMap_singleton, List.getD_eq_getElem _ _ (by simpa [upFrom] using hi)]
  simp [upFrom]

/-! ### The window -/

/-- With no access waiting, one that is over at once leaves what it has made. -/
theorem State.takeWindow_over {s t : State} {w : HeldWindow} (hheld : s.hst.held = []) (h : s.serveWindow w = (t, true)) :
    s.takeWindow w = t := by
  unfold State.takeWindow
  rw [hheld, List.any_nil, if_neg Bool.false_ne_true, h]
  rfl

theorem State.windowAccess_refused {s : State} {source requester off : Nat} {acc : Access} (hheld : s.hst.held = [])
    (hlen : 1 ≤ acc.len) (hnone : s.rgn.admitted source off acc.len acc.isWrite = none) :
    s.windowAccess source requester off acc = s.refuseWindow source off acc.isWrite := by
  unfold State.windowAccess
  rw [if_neg (by omega), hnone]
  exact State.takeWindow_over hheld rfl

/-- A registration admits an access to a region at an offset, where nothing holds it back. -/
structure WindowOpen (s : State) (source off : Nat) (acc : Access) (r : Region) (o : Nat) : Prop where
  held : s.hst.held = []
  bytes : 1 ≤ acc.len
  admits : s.rgn.admitted source off acc.len acc.isWrite = some (r, o)
  region : s.rgn.get r.id = some r
  fresh : ∀ c ∈ chunksOf o acc.len, r.stalePage (c.1 / pageBytes) = false
  free : s.regionWait r o acc.len acc.isWrite = none
  runs : s.memStopped r o acc.len = false

/-- The state once an access has been served in its region. -/
def State.windowServed (s : State) (source : Nat) (r : Region) (o : Nat) : Access → State
  | .write d => s.writeRegion r o d
  | .read n =>
    if (r.chunks o n).any fun c => ((s.readRegion r o n).2.mem.poisonIn c.1 c.2).isSome
      then (s.readRegion r o n).2.emit (.poisoned source)
      else (s.readRegion r o n).2.emit (.data source (s.readRegion r o n).1)

theorem WindowOpen.windowAccess {s : State} {source off o : Nat} {acc : Access} {r : Region} (h : WindowOpen s source off acc r o)
    (requester : Nat) : s.windowAccess source requester off acc = s.windowServed source r o acc := by
  have hlen := h.bytes
  have hstale : ((chunksOf o acc.len).map fun c => c.1 / pageBytes).any r.stalePage = false := by
    simpa [List.any_eq_false] using fun a b hc => h.fresh (a, b) hc
  unfold State.windowAccess
  rw [if_neg (by omega), h.admits]
  refine State.takeWindow_over h.held ?_
  unfold State.serveWindow
  simp only [Option.map_some, Option.bind_some, h.region, hstale, h.runs, h.free]
  cases acc <;> rfl

/-- An admitted read of lines that are not poisoned returns what the region holds. -/
theorem State.windowServed_read {s : State} {r : Region} {o n : Nat} (hpoison : ∀ c ∈ r.chunks o n, s.mem.poisonIn c.1 c.2 = none)
    (source : Nat) : s.windowServed source r o (.read n) = (s.readRegion r o n).2.emit (.data source (s.readRegion r o n).1) := by
  refine if_neg ?_
  simp only [List.any_eq_true, not_exists, not_and, Bool.not_eq_true, Option.isSome_eq_false_iff, Option.isNone_iff_eq_none]
  exact fun c hc => Mem.poisonIn_fewer State.readRegion_poison (hpoison c hc)

theorem State.refuseWindow_keeps (s : State) (source off : Nat) (write : Bool) :
    Keeps [.att, .obs, .out] s (s.refuseWindow source off write) := by
  cases write <;> exact .of_patch rfl

/-- Each of the commands that reach a window is one access to it. -/
theorem exec_windowCommand {s : State} {source off requester : Nat} {cmd : Access → Instr} (hpow : s.powered = true)
    (hoff : off < 2 ^ 42)
    (h : source = 0 ∧ s.hst.link = .up ∧ cmd = .bar2WindowAccess requester off
      ∨ ∃ p : Fin 4, source = p.val + 1 ∧ s.adapterUp p = true ∧ cmd = .adapterWindowAccess p (0x100000000000 + off)) :
    ∃ q, ∀ acc, exec (cmd acc) s = .next (s.windowAccess source q off acc) := by
  obtain ⟨rfl, hlink, rfl⟩ | ⟨p, rfl, hup, rfl⟩ := h
  · exact ⟨requester, fun acc => congrArg Host.Outcome.next (if_pos (by simp [hpow, hlink]; omega))⟩
  · refine ⟨0, fun acc => ?_⟩
    show execAdapterWindowAccess p (0x100000000000 + off) acc s = _
    unfold execAdapterWindowAccess
    rw [if_neg (by simp [hup]), if_pos (by simp; omega), Nat.add_sub_cancel_left]

/-! ### The statement -/

/-- Settles O37: a refused access raises attention, and an admitted one is one read or write of its region. -/
theorem windowAccesses : Obligations.WindowAccesses := by
  unfold Obligations.WindowAccesses
  intro s source off requester cmd hInv hpow hoff hheld hcmd
  obtain ⟨q, hexec⟩ := exec_windowCommand hpow hoff hcmd
  refine ⟨fun n hn hnone => ?_, fun d hd hnone => ?_, fun d r o hd hadmits hfresh hfree hruns => ?_,
    fun n r o hn hadmits hfresh hfree hruns hpoison => ?_⟩
  · rw [hexec, State.windowAccess_refused (acc := .read n) hheld hn hnone]
    exact ⟨_, rfl, rfl, ⟨_, rfl⟩, s.refuseWindow_keeps _ _ _⟩
  · rw [hexec, State.windowAccess_refused (acc := .write d) hheld hd hnone]
    exact ⟨_, rfl, ⟨_, rfl⟩, s.raise_keeps _ _ _ _ _⟩
  · have hopen : WindowOpen s source off (.write d) r o :=
      ⟨hheld, hd, hadmits, Rgn.get_mem hInv.ids (Rgn.admitted_mem hadmits), hfresh, hfree, hruns⟩
    refine ⟨s.writeRegion r o d, (hexec _).trans (congrArg _ (hopen.windowAccess q)), (s.writeRegion_keeps r o d).mono (by decide),
      (State.writeRegion_rewrites hInv.sound r o d).bytes, fun hpage i hi => ?_⟩
    rw [(State.writeRegion_stores hInv.sound r (within_page hd hpage)).bytes, if_pos (by omega), Nat.add_sub_cancel_left]
  · have hopen : WindowOpen s source off (.read n) r o :=
      ⟨hheld, hn, hadmits, Rgn.get_mem hInv.ids (Rgn.admitted_mem hadmits), hfresh, hfree, hruns⟩
    obtain ⟨hbytes, hrew⟩ := State.readRegion_spec hInv.sound r o n
    have hkeeps := s.readRegion_keeps r o n
    have hserved := (hopen.windowAccess q).trans (State.windowServed_read hpoison source)
    refine ⟨_, (s.readRegion r o n).1, (hexec _).trans (congrArg _ hserved), ?_, ?_, fun a ha => ?_, ?_, fun hpage i hi => ?_⟩
    · rw [State.emit_out, hkeeps .out (by decide)]
    · rw [hbytes, State.regionBytes_length]
    · exact (hrew.trans ((State.emit_keeps _ _).rewrites (by decide) hrew.sound)).bytes a ha
    · exact (hkeeps.mono (by decide)).trans ((State.emit_keeps _ _).mono (by decide))
    · rw [hbytes, State.regionBytes_page s r (within_page hn hpage) hi]

end Sys2Proof.Machine
end

section
/-! SUPPORT. The end of host-staleness: what has waited fails or goes on without a slot or the host's HELLO changing (R470 to R472). -/

namespace Sys2Proof.Machine

/-! ### What waited and was lost -/

/-- The parts that change where what waited at host-stale pages is lost. -/
def lostParts : List Part := [.out, .fresh, .att, .mem, .rgn, .coh, .pln, .stp, .trn, .eng, .fab, .gld, .dma, .cor, .obs]

theorem State.failStaleTxns_keeps (s : State) : Keeps [.coh, .out, .cor] s s.failStaleTxns := by
  unfold State.failStaleTxns
  refine Keeps.trans (.of_patch rfl) (Keeps.foldl (fun u t => ?_) _ _)
  split
  · exact ((u.coreWaits_keeps t false).mono (by decide)).trans ((State.emit_keeps _ _).mono (by decide))
  · exact .refl _ u

theorem State.instFails_keeps (s : State) (op mb code : Nat) : Keeps workParts s (s.instFails op mb code) :=
  ((s.instDone_keeps op mb code).mono (by decide)).trans (State.localHold_keeps _ _)

theorem State.failGroup_keeps (s : State) (r : Prep) (group : Nat) (f : BatchFault) : Keeps workParts s (s.failGroup r group f) := by
  unfold State.failGroup
  split
  · split
    · unfold State.batchFails
      split
      · exact s.instFails_keeps _ _ _
      · exact ((s.faultEntry_keeps _ _ _ _ _ _ _).mono (by decide)).trans (State.instFails_keeps _ _ _ _)
    · exact .refl _ s
  · split
    · exact (s.putPrep_keeps _).mono (by decide)
    · exact .refl _ s

theorem State.setEntry_keeps (s : State) (r : Prep) (k : Nat) (f : PrepEntry → PrepEntry) : Keeps [.gld] s (s.setEntry r k f) := by
  unfold State.setEntry
  split
  · exact s.putPrep_keeps _
  · exact .refl _ s

theorem State.gladeHostLost_keeps (s : State) : Keeps workParts s s.gladeHostLost := by
  refine Keeps.foldl (fun u l => ?_) _ s
  have hfreed : Keeps [.gld] u (u.freeLane l.1) := .of_patch rfl
  split
  · split
    · split
      · exact ((hfreed.trans (State.setEntry_keeps _ _ _ _)).mono (by decide)).trans (State.failGroup_keeps _ _ _ _)
      · exact .refl _ u
    · exact .refl _ u
  · exact .refl _ u

theorem State.undefineVa_keeps (s : State) (va len : Nat) : Keeps [.mem, .coh, .out, .fresh] s (s.undefineVa va len) := by
  refine Keeps.foldl (fun u c => ?_) _ s
  split
  · exact ((u.invalRange_keeps _ _).mono (by decide)).trans (.of_patch rfl)
  · exact .refl _ u

theorem State.undefineDst_keeps (s : State) (sets : List DmaSet) : Keeps [.mem, .coh, .out, .fresh] s (s.undefineDst sets) :=
  Keeps.foldl (fun u _ => u.undefineVa_keeps _ _) _ s

theorem State.setDma_keeps (s : State) (d : Dma) : Keeps [.dma] s { s with dma := d } := .of_patch rfl

theorem State.dmaStaleLost_keeps (s : State) : Keeps [.mem, .coh, .out, .fresh, .dma] s s.dmaStaleLost := by
  have hlost := s.undefineDst_keeps (s.dma.chans.flatMap fun c => if s.waitsStale c.1 c.2 then [c.2.active] else [])
  unfold State.dmaStaleLost
  generalize s.undefineDst _ = u at hlost ⊢
  exact (hlost.mono (by decide)).trans ((u.setDma_keeps _).mono (by decide))

theorem State.endHostWait_keeps (s : State) (kept : Bool) : Keeps workParts s (s.endHostWait kept) := by
  unfold State.endHostWait
  split
  · exact .refl _ s
  · refine Keeps.foldl (fun u i => ?_) _ s
    split
    · exact (u.onStep_keeps _).mono (by decide)
    · exact u.instFails_keeps _ _ _

/-- No region is host-stale any more. -/
def State.unstaled (s : State) : State :=
  { s with rgn := { s.rgn with regions := s.rgn.regions.map fun r => { r with stale := false } } }

/-- The peer reads that wait at host-stale pages are refused (R472). -/
def State.refuseStalePeers (s : State) : State :=
  let lost := s.fab.peerReads.filter fun r => (chunksOf r.va r.len).any fun c => match s.rgn.byVa c.1 with
    | some (x, off) => x.stalePage (off / pageBytes)
    | none => false
  { s with
    fab := { s.fab with peerReads := s.fab.peerReads.filter fun r => !lost.contains r }
    out := s.out ++ lost.map fun r => Output.peerRefuse r.src }

theorem State.refuseStalePeers_keeps (s : State) : Keeps [.fab, .out] s s.refuseStalePeers := .of_patch rfl

/-- Once what waited has been lost or goes on, host-staleness ends and what is held is tried again (R472). -/
theorem State.endStale_eq (s : State) (kept : Bool) :
    ∃ u, Keeps lostParts s u ∧ s.endStale kept = u.unstaled.retryHeld.wakeChans.servePeers := by
  cases kept with
  | true => exact ⟨_, (s.endHostWait_keeps true).mono (by decide), rfl⟩
  | false =>
    have hlost : Keeps lostParts s (((s.failStaleTxns).gladeHostLost.dmaStaleLost).endHostWait false) :=
      (((s.failStaleTxns_keeps.mono (by decide)).trans ((State.gladeHostLost_keeps _).mono (by decide))).trans
        ((State.dmaStaleLost_keeps _).mono (by decide))).trans ((State.endHostWait_keeps _ false).mono (by decide))
    exact ⟨((s.failStaleTxns.gladeHostLost.dmaStaleLost).endHostWait false).refuseStalePeers,
      hlost.trans ((State.refuseStalePeers_keeps _).mono (by decide)), rfl⟩

end Sys2Proof.Machine
end

section
/-! SUPPORT. Work that makes no region host-stale: accesses to memory, the tables' demand faults, a verdict on its way, and a local
hold (R194, R248, R305, R634). -/

namespace Sys2Proof.Machine

/-- No region is host-stale. -/
def Rgn.Fresh (g : Rgn) : Prop := ∀ r ∈ g.regions, r.stale = false

/-- The slots and the host's HELLO are as they were, and no region has become host-stale. -/
structure StaysFresh (s t : State) : Prop where
  mbx : t.mbx = s.mbx
  hello : t.hst.helloSeen = s.hst.helloSeen
  fresh : s.rgn.Fresh → t.rgn.Fresh

theorem StaysFresh.refl (s : State) : StaysFresh s s := ⟨rfl, rfl, id⟩

theorem StaysFresh.trans {s t u : State} (h : StaysFresh s t) (k : StaysFresh t u) : StaysFresh s u :=
  ⟨k.mbx.trans h.mbx, k.hello.trans h.hello, fun hf => k.fresh (h.fresh hf)⟩

theorem Keeps.staysFresh {l : List Part} {s t : State} (h : Keeps l s t) (hl : .mbx ∉ l ∧ .hst ∉ l ∧ .rgn ∉ l) : StaysFresh s t := by
  obtain ⟨hmbx, hhst, hrgn⟩ := hl
  have hregions : t.rgn = s.rgn := h .rgn hrgn
  exact ⟨h .mbx hmbx, congrArg Hst.helloSeen (h .hst hhst :), fun hf => hregions ▸ hf⟩

theorem StaysFresh.foldl {α : Type} {f : State → α → State} (hf : ∀ s a, StaysFresh s (f s a)) (l : List α) (s : State) :
    StaysFresh s (l.foldl f s) :=
  foldl_keeps (P := StaysFresh s) (fun u a h => h.trans (hf u a)) l s (.refl s)

theorem State.setRgn_staysFresh (s : State) {g : Rgn} (h : s.rgn.Fresh → g.Fresh) : StaysFresh s { s with rgn := g } :=
  ⟨rfl, rfl, h⟩

/-! ### The regions -/

theorem Rgn.Fresh.of_regions {g g' : Rgn} (h : g.Fresh) (hr : g'.regions = g.regions) : g'.Fresh := by
  rw [Rgn.Fresh, hr]
  exact h

theorem Rgn.Fresh.put {g : Rgn} {r : Region} (h : g.Fresh) (hr : r.stale = false) : (g.put r).Fresh := by
  intro x hx
  obtain ⟨y, hy, rfl⟩ := List.mem_map.1 hx
  split
  · exact hr
  · exact h y hy

theorem Rgn.promote_regions (g : Rgn) (id page : Nat) : (g.promote id page).regions = g.regions := by
  unfold Rgn.promote
  split
  · rfl
  · dsimp only
    split
    · rfl
    · split
      · rfl
      · split
        · rfl
        · split <;> rfl

theorem Rgn.foldl_regions {α : Type} {f : Rgn → α → Rgn} (hf : ∀ g a, (f g a).regions = g.regions) (l : List α) (g : Rgn) :
    (l.foldl f g).regions = g.regions :=
  foldl_keeps (P := fun g' : Rgn => g'.regions = g.regions) (fun g' a h => (hf g' a).trans h) l g rfl

theorem Rgn.writeAbandons_regions (g : Rgn) (id page : Nat) : (g.writeAbandons id page).regions = g.regions := by
  unfold Rgn.writeAbandons
  split
  · refine (Rgn.foldl_regions (fun g r => ?_) _ _).trans (rfl : (g.abandonMigration id page).regions = _)
    split
    · rfl
    · exact Rgn.foldl_regions (fun g h => g.promote_regions _ _) _ _
  · rfl

theorem fillDemand_regions (g : Rgn) (lvl off base lo hi : Nat) : (fillDemand g lvl off base lo hi).regions = g.regions := by
  refine Rgn.foldl_regions (fun g i => ?_) _ g
  dsimp only
  split <;> rfl

/-- The tables that a demand fault's resolution builds change no region. -/
theorem resolveAt_regions {r : Region} {m : Mapping} {va target : Nat} :
    ∀ {lvl off : Nat} {g g' : Rgn}, resolveAt r m va target lvl g off = some g' → g'.regions = g.regions := by
  intro lvl
  induction lvl with
  | zero =>
    intro off g g' h
    unfold resolveAt at h
    dsimp only at h
    split at h
    · cases h
      rfl
    · cases h
  | succ l ih =>
    intro off g g' h
    unfold resolveAt at h
    dsimp only at h
    split at h
    · cases h
      rfl
    · split at h
      · exact ih h
      · split at h
        · cases h
        · rename_i o g₁ halloc
          exact (ih h).trans ((fillDemand_regions _ _ _ _ _ _).trans (allocTable_regions halloc))

theorem Rgn.resolve_regions {g g' : Rgn} {va : Nat} (h : g.resolve va = some g') : g'.regions = g.regions := by
  unfold Rgn.resolve at h
  split at h
  · split at h
    · exact resolveAt_regions h
    · cases h
  · cases h

/-! ### Accesses to memory -/

theorem State.heatAccess_staysFresh (s : State) (id off len : Nat) : StaysFresh s (s.heatAccess id off len) := by
  unfold State.heatAccess
  split
  · exact .refl s
  · rename_i r hr
    split
    · exact .refl s
    · refine s.setRgn_staysFresh fun hf => Rgn.Fresh.of_regions (hf.put (r := r.heatUp off len) ?_)
        (Rgn.foldl_regions (fun g c => g.promote_regions _ _) _ _)
      exact (congrArg Region.stale (r.heatUp_cold off len) :).trans (hf r (List.mem_of_find?_eq_some hr))

theorem State.fetchPart_keeps (s : State) (r : Region) (c : Nat × Nat) : Keeps [.mem, .coh] s (s.fetchPart r c) :=
  ((s.cleanRange_keeps _ _).trans ((State.wakeRange_keeps _ _ _).mono (by decide))).trans
    ((State.placeKey_keeps _ _ _ _ _).mono (by decide))

theorem State.readRegion_staysFresh (s : State) (r : Region) (off len : Nat) : StaysFresh s (s.readRegion r off len).2 := by
  rw [State.readRegion_eq]
  exact ((Keeps.foldl (fun u c => u.fetchPart_keeps r c) _ s).staysFresh (by decide)).trans (State.heatAccess_staysFresh _ _ _ _)

theorem State.writePart_keeps (r : Region) (s : State) (d : Bytes) (c : Nat × Nat) :
    Keeps [.mem, .coh, .out] s (State.writePart r (s, d) c).1 :=
  (s.writeKey_keeps _ _).trans ((State.placeKey_keeps _ _ _ _ _).mono (by decide))

theorem State.writeRegion_staysFresh (s : State) (r : Region) (off : Nat) (d : Bytes) : StaysFresh s (s.writeRegion r off d) := by
  have hparts : Keeps [.mem, .coh, .out] s ((chunksOf off d.length).foldl (State.writePart r) (s, d)).1 :=
    foldl_keeps (P := fun b : State × Bytes => Keeps [.mem, .coh, .out] s b.1)
      (fun b c hb => hb.trans (State.writePart_keeps r b.1 b.2 c)) _ _ (.refl _ s)
  have habandons := State.setRgn_staysFresh ((chunksOf off d.length).foldl (State.writePart r) (s, d)).1 fun hf =>
    Rgn.Fresh.of_regions hf (Rgn.foldl_regions (f := fun g (c : Nat × Nat) => g.writeAbandons r.id (c.1 / pageBytes))
      (fun g c => g.writeAbandons_regions _ _) (chunksOf off d.length) _)
  exact ((hparts.staysFresh (by decide)).trans habandons).trans (State.heatAccess_staysFresh _ _ _ _)

theorem State.readVa_staysFresh (s : State) (va len : Nat) : StaysFresh s (s.readVa va len).2 := by
  refine foldl_keeps (P := fun b : Bytes × State => StaysFresh s b.2) (f := State.readChunk) (fun b c hb => hb.trans ?_)
    (chunksOf va len) ([], s) (.refl s)
  unfold State.readChunk
  split
  · exact b.2.readRegion_staysFresh _ _ _
  · exact .refl _

theorem State.recallKey_keeps (s : State) (store : Bool) (k n : Nat) : Keeps [.coh, .out] s (s.recallKey store k n) := .of_patch rfl

theorem State.recallHost_keeps (s : State) (va len : Nat) (store : Bool) : Keeps [.coh, .out] s (s.recallHost va len store) := by
  refine Keeps.foldl (fun u c => ?_) _ s
  split
  · exact .refl _ u
  · exact u.recallKey_keeps _ _ _

theorem Looked.staysFresh {s t : State} (h : Looked s t) : StaysFresh s t := by
  obtain ⟨tc, rfl⟩ := h
  exact s.setRgn_staysFresh fun hf => hf

/-- Demand faults are resolved in the tables alone (R248). -/
theorem State.resolveCount_staysFresh {s t : State} {cache : Nat} {a : Nat × Nat × Bool} (h : s.resolveCount cache a = some t) :
    StaysFresh s t := by
  refine foldlM_keeps (P := StaysFresh s) (fun u c v hv hu => hu.trans ?_) _ h (.refl s)
  split at hv
  · cases hv
    exact .refl u
  · obtain ⟨w, hw, rfl⟩ := Option.map_eq_some_iff.1 hv
    refine StaysFresh.trans ?_ (w.look_looked _ _).staysFresh
    split at hw
    · obtain ⟨g, hg, rfl⟩ := Option.map_eq_some_iff.1 hw
      exact ⟨rfl, rfl, fun hf => hf.of_regions (Rgn.resolve_regions hg)⟩
    · cases hw
      exact .refl u

/-! ### A verdict and a local hold -/

theorem State.slotWrite_staysFresh (s : State) (d : ShardDef) (slot off : Nat) (b : Bytes) :
    StaysFresh s (s.slotWrite d slot off b) := by
  unfold State.slotWrite
  split
  · exact s.writeRegion_staysFresh _ _ _
  · exact .refl s

theorem State.updateSeg_staysFresh (s : State) (d : ShardDef) (a : AuParams) (c : AuConst) (k : Option Nat) (src dst j : Nat) :
    StaysFresh s (s.updateSeg d a c k src dst j).1 := by
  have hsecond : ∀ (t : State) (off : Nat) (b : Bytes), StaysFresh t (if d.moments = 2 then t.slotWrite d dst off b else t) := by
    intro t off b
    split
    · exact t.slotWrite_staysFresh _ _ _ _
    · exact .refl t
  rw [State.updateSeg_state]
  exact (((s.slotWrite_staysFresh _ _ _ _).trans (hsecond _ _ _)).trans (State.slotWrite_staysFresh _ _ _ _ _)).trans
    (State.slotWrite_staysFresh _ _ _ _ _)

theorem State.recompute_staysFresh (s : State) (d : ShardDef) (a : AuParams) (src dst : Nat) (h : SlotHdr) (mode : Nat)
    (keep : Option Nat) : StaysFresh s (s.recompute d a src dst h mode keep) := by
  unfold State.recompute
  refine StaysFresh.trans ?_ (State.slotWrite_staysFresh _ _ _ _ _)
  refine foldl_keeps (P := fun b : State × Nat × List Nat => StaysFresh s b.1)
    (fun b j hb => hb.trans (State.updateSeg_staysFresh _ _ _ _ _ _ _ _)) _ _ ?_
  exact (State.slotWrite_staysFresh _ _ _ _ _).trans (State.slotWrite_staysFresh _ _ _ _ _)

theorem State.clipRound_staysFresh (s : State) (st : Step) (k : Nat) : StaysFresh s (s.clipRound st k) := by
  unfold State.clipRound
  split
  · exact .refl s
  · refine StaysFresh.foldl (fun u d => ?_) _ s
    split
    · split
      · exact (u.redoFails_keeps _ _ _).staysFresh (by decide)
      · exact u.recompute_staysFresh _ _ _ _ _ _ _
    · exact .refl u

theorem State.nextRound_staysFresh (s : State) (st : Step) (k : Option Nat) : StaysFresh s (s.nextRound st k) :=
  (((s.phaseStart_keeps 7).mono (by decide)).trans (.of_patch rfl) : Keeps [.stp, .obs] _ _).staysFresh (by decide)

theorem State.nextClip_staysFresh (s : State) (st : Step) (v : Verdict) : StaysFresh s (s.nextClip st v) :=
  ((s.nextRound_staysFresh st _).trans ((State.onStep_keeps _ _).staysFresh (by decide))).trans (State.clipRound_staysFresh _ _ _)

theorem State.commitStep_staysFresh (s : State) (v : Verdict) : StaysFresh s (s.commitStep v) := by
  unfold State.commitStep
  split
  · exact .refl s
  · rename_i st _
    dsimp only
    refine StaysFresh.trans ?_ ((State.endStep_keeps _ _ _ _).staysFresh (by decide))
    refine StaysFresh.trans ?_ ((State.phaseEnd_keeps _ _).staysFresh (by decide))
    refine StaysFresh.trans ?_ ((State.policy_keeps _ _ _).staysFresh (by decide))
    exact ((s.phaseStart_keeps 8).staysFresh (by decide)).trans
      ((.of_patch rfl : Keeps [.mem, .trn, .gld, .pln] _ _).staysFresh (by decide))

theorem State.decideVerdict_staysFresh (s : State) (v : Verdict) (watch : List WatchEntry) :
    StaysFresh s (s.decideVerdict v watch) := by
  cases hact : s.stp.active with
  | none =>
    unfold State.decideVerdict
    rw [hact]
    exact .refl s
  | some st =>
    rw [State.decideVerdict_eq hact]
    refine StaysFresh.trans ((s.noteVerdict_keeps st v watch).staysFresh (by decide)) ?_
    cases v.rule with
    | commit => exact State.commitStep_staysFresh _ v
    | skip | hold =>
      exact ((State.policy_keeps _ _ _).staysFresh (by decide)).trans ((State.endStep_keeps _ _ _ _).staysFresh (by decide))
    | clip => exact State.nextClip_staysFresh _ _ _
    | referee c =>
      refine StaysFresh.trans ?_ ((State.onStep_keeps _ _).staysFresh (by decide))
      refine StaysFresh.trans ?_ ((State.refereeRound_keeps _).staysFresh (by decide))
      cases c with
      | true => exact State.nextClip_staysFresh _ _ _
      | false => exact State.nextRound_staysFresh _ _ _

theorem Moved.staysFresh {s t : State} {round : Nat} {v : Verdict} {w : List WatchEntry} (h : Moved s round v w t) :
    StaysFresh s t := by
  cases h with
  | stands os axis sent => exact ⟨rfl, rfl, id⟩
  | decides os => exact ((s.emits_keeps os).staysFresh (by decide)).trans (State.decideVerdict_staysFresh _ v w)

theorem verdictMoves_staysFresh : ∀ (n : Nat) (s : State), StaysFresh s (verdictMoves n s) := by
  intro n
  induction n with
  | zero => exact .refl
  | succ n ih =>
    intro s
    unfold verdictMoves
    split
    · rename_i t ht
      refine StaysFresh.trans ?_ (ih t)
      obtain ⟨st, r, -, -, ⟨w, hm⟩ | ⟨-, m, v, w, hm⟩⟩ := State.verdictMove_cases ht
      · exact hm.staysFresh
      · exact StaysFresh.trans (t := s.takeVerdict m) ⟨rfl, rfl, id⟩ hm.staysFresh
    · exact .refl s

theorem State.vote_staysFresh (s : State) (v : Verdict) (clear : Bool) : StaysFresh s (s.vote v clear) := by
  cases h : s.stp.active with
  | none =>
    unfold State.vote
    rw [h]
    exact .refl s
  | some st =>
    rw [State.vote_eq h]
    exact ((s.voted_keeps v clear st).staysFresh (by decide)).trans (verdictMoves_staysFresh 8 _)

theorem State.localHold_staysFresh (s : State) (code : Nat) : StaysFresh s (s.localHold code) := by
  obtain h | ⟨f, h⟩ | h | ⟨st, -, h⟩ := s.localHold_cases code <;> rw [h]
  · exact .refl s
  · exact (s.onStep_keeps f).staysFresh (by decide)
  · exact (s.endFree_keeps code).staysFresh (by decide)
  · exact StaysFresh.trans (t := s.holdStarts st code) ⟨rfl, rfl, id⟩ (State.vote_staysFresh _ _ _)

end Sys2Proof.Machine
end

section
/-! SUPPORT. What has waited is tried again, and leaves the slots, the host's HELLO and the regions' staleness as they are: requests at
the homes, window accesses, peer reads (R264, R421, R462, R472). -/

namespace Sys2Proof.Machine

/-! ### Requests at the homes -/

theorem State.evictEntry_keeps (s : State) (line : Nat) : Keeps [.mem, .coh, .obs] s (s.evictEntry line) :=
  ((s.dropCopies_keeps line none).mono (by decide)).trans (.of_patch rfl)

theorem State.sendBinv_keeps (s : State) (line : Nat) (keep : Bool) : Keeps [.coh, .out] s (s.sendBinv line keep) := by
  unfold State.sendBinv
  split
  · exact .refl _ s
  · exact .of_patch rfl

theorem State.makeDirRoom_keeps (s : State) (line : Nat) : Keeps [.mem, .coh, .obs, .out] s (s.makeDirRoom line).1 := by
  unfold State.makeDirRoom
  split
  · exact .refl _ s
  · dsimp only
    split
    · exact .refl _ s
    · split
      · exact (s.evictEntry_keeps _).mono (by decide)
      · dsimp only
        split
        · exact (s.sendBinv_keeps _ _).mono (by decide)
        · exact .refl _ s

theorem State.cohOnly_keeps (s : State) (c : Coh) : Keeps [.coh] s { s with coh := c } := .of_patch rfl

theorem State.takeOwned_staysFresh (s : State) (n : Nat) (r : Region) (line off o : Nat) (d : Bytes) :
    StaysFresh s (s.takeOwned n r line off o d) := by
  have hcleared : StaysFresh s (s.lineCleared n r line off) :=
    ((((s.dropCopies_keeps line (some n)).staysFresh (by decide)).trans
      (State.setRgn_staysFresh _ fun hf => Rgn.Fresh.of_regions hf (Rgn.writeAbandons_regions _ _ _))).trans
      ((State.wakeRange_keeps _ _ _).staysFresh (by decide))).trans (State.heatAccess_staysFresh _ _ _ _)
  refine hcleared.trans ?_
  show StaysFresh _ (if _ then (s.lineCleared n r line off).writeKey (line * 64 + o) d
    else (s.lineCleared n r line off).ownedBy n r line o d)
  split
  · exact (State.writeKey_keeps _ _ _).staysFresh (by decide)
  · exact (State.cohOnly_keeps _ _).staysFresh (by decide)

theorem State.answerRead_keeps (s : State) (t : Txn) (line : Nat) : Keeps [.out] s (s.answerRead t line) := by
  unfold State.answerRead
  split
  · split <;> exact s.emit_keeps _
  · exact s.emit_keeps _

theorem State.lineFetched_staysFresh (s : State) (r : Region) (off line : Nat) : StaysFresh s (s.lineFetched r off line) := by
  have hreached : StaysFresh s (s.lineReached r off line) :=
    (((s.cleanRange_keeps _ _).staysFresh (by decide)).trans ((State.wakeRange_keeps _ _ _).staysFresh (by decide))).trans
      (State.heatAccess_staysFresh _ _ _ _)
  unfold State.lineFetched
  dsimp only
  split
  · exact hreached.trans ((State.cohOnly_keeps _ _).staysFresh (by decide))
  · exact hreached

/-- What a read that has been answered leaves: a core shares the line unless it holds it or its page is migrating, and a host that
takes a copy holds it alone (R256, log 13). -/
def State.readTaken (u : State) (t : Txn) (migrating : Bool) (line : Nat) : State :=
  match t.who with
  | some (.core c) => if migrating || u.coh.cached.any (fun x => x.core == c.val && x.line == line) then u else u.sharedBy c line
  | some (.agent _) => u
  | none => if t.caching then u.hostTakes line else u

theorem State.serveRead_eq {s u : State} {t : Txn} {r : Region} {line : Nat} (h : (s.lineFetched r t.off line).answerRead t line = u) :
    s.serveRead t r line = if u.mem.poison.contains line then u
      else u.readTaken t (!!(s.lineReached r t.off line).rgn.migrating r.id (t.off / pageBytes)) line := by
  subst h
  unfold State.serveRead State.readTaken
  match t.who with
  | some (.core _) => rfl
  | some (.agent _) => rfl
  | none => rfl

theorem State.readTaken_staysFresh (u : State) (t : Txn) (migrating : Bool) (line : Nat) :
    StaysFresh u (u.readTaken t migrating line) := by
  unfold State.readTaken
  split
  · split
    · exact .refl u
    · exact (State.cohOnly_keeps _ _).staysFresh (by decide)
  · exact .refl u
  · split
    · exact ((u.dropCopies_keeps line none).staysFresh (by decide)).trans ((State.cohOnly_keeps _ _).staysFresh (by decide))
    · exact .refl u

theorem State.serveRead_staysFresh (s : State) (t : Txn) (r : Region) (line : Nat) : StaysFresh s (s.serveRead t r line) := by
  have hanswered : StaysFresh s ((s.lineFetched r t.off line).answerRead t line) :=
    (s.lineFetched_staysFresh r t.off line).trans ((State.answerRead_keeps _ t line).staysFresh (by decide))
  rw [State.serveRead_eq rfl]
  split
  · exact hanswered
  · exact hanswered.trans (State.readTaken_staysFresh _ _ _ _)

theorem State.serveAmo_staysFresh (s : State) (n : Nat) (r : Region) (line off : Nat) (op : AmoOp) (w o v : Nat) :
    StaysFresh s (s.serveAmo n r line off op w o v) := by
  unfold State.serveAmo
  have hclean : StaysFresh s (s.cleanRange (line * 64) 64) := (s.cleanRange_keeps _ _).staysFresh (by decide)
  dsimp only
  split
  · exact hclean.trans ((State.emit_keeps _ _).staysFresh (by decide))
  · refine (hclean.trans ?_).trans ((State.emit_keeps _ _).staysFresh (by decide))
    split
    · exact State.writeRegion_staysFresh _ _ _ _
    · exact State.takeOwned_staysFresh _ _ _ _ _ _ _

theorem State.setResv_staysFresh {s t : State} (h : StaysFresh s t) (resv : List (Nat × Nat)) :
    StaysFresh s { t with coh := { t.coh with resv := resv } } :=
  h.trans ((t.cohOnly_keeps _).staysFresh (by decide))

/-- A line that is written back reaches memory (R264). -/
theorem State.writtenBack_staysFresh (s : State) (c : Coh) (r : Region) (line off : Nat) (d : Bytes) :
    StaysFresh s (({ s with coh := c, mem := s.mem.putLine line d }.wakeRange (line * 64) 64).heatAccess r.id off 1) := by
  have hput : Keeps [.coh, .mem] s { s with coh := c, mem := s.mem.putLine line d } := .of_patch rfl
  exact ((hput.staysFresh (by decide)).trans ((State.wakeRange_keeps _ _ _).staysFresh (by decide))).trans
    (State.heatAccess_staysFresh _ _ _ _)

theorem State.serveTxn_staysFresh (s : State) (t : Txn) : StaysFresh s (s.serveTxn t).1 := by
  unfold State.serveTxn
  split
  · split
    · exact (s.emit_keeps _).staysFresh (by decide)
    · exact .refl s
  · rename_i r _
    dsimp only
    split
    case h_1 =>
      split
      · split
        · exact .refl s
        · dsimp only
          split
          · exact s.writtenBack_staysFresh _ _ _ _ _
          · exact (s.cohOnly_keeps _).staysFresh (by decide)
      · exact .refl s
    case h_2 => exact .refl s
    case h_3 => exact .refl s
    case h_4 =>
      have hevicted := (s.evictEntry_keeps (r.key t.off / 64)).staysFresh (by decide)
      split
      · exact hevicted.trans ((State.sendBinv_keeps _ _ _).staysFresh (by decide))
      · exact hevicted
    case h_5 =>
      split
      · exact .refl s
      split
      · exact .refl s
      split
      · exact (s.sendBinv_keeps _ _).staysFresh (by decide)
      split
      · exact (s.sendBinv_keeps _ _).staysFresh (by decide)
      have hroom : StaysFresh s (if t.tracked then s.makeDirRoom (r.key t.off / 64) else (s, true)).1 := by
        split
        · exact (s.makeDirRoom_keeps _).staysFresh (by decide)
        · exact .refl s
      generalize (if t.tracked then s.makeDirRoom (r.key t.off / 64) else (s, true)) = x at hroom ⊢
      refine hroom.trans ?_
      generalize x.1 = u
      split
      · exact .refl u
      split
      case h_1 => exact u.serveRead_staysFresh _ _ _
      case h_2 => exact u.takeOwned_staysFresh _ _ _ _ _ _
      case h_3 => exact u.writeRegion_staysFresh _ _ _
      case h_4 => exact (u.hostStored_keeps _ _ _).staysFresh (by decide)
      case h_5 =>
        split
        · exact (u.emit_keeps _).staysFresh (by decide)
        · exact u.serveAmo_staysFresh _ _ _ _ _ _ _ _
      case h_6 =>
        have hread := u.serveRead_staysFresh t r (r.key t.off / 64)
        split
        · exact State.setResv_staysFresh hread _
        · exact State.setResv_staysFresh hread _
      case h_7 =>
        refine StaysFresh.trans (State.setResv_staysFresh ?_ _) ((State.emit_keeps _ _).staysFresh (by decide))
        split
        · exact u.takeOwned_staysFresh _ _ _ _ _ _
        · exact .refl u
      case h_8 => exact u.writeRegion_staysFresh _ _ _
      case h_9 => exact .refl u

/-- A request that is not complete is outstanding, and its core waits or goes on. -/
theorem State.outstands_staysFresh (s : State) (t u : Txn) (w : Bool) :
    StaysFresh s (({ s with coh := { s.coh with txns := s.coh.txns ++ [u] } }).coreWaits t w) :=
  ((s.cohOnly_keeps _).staysFresh (by decide)).trans ((State.coreWaits_keeps _ t w).staysFresh (by decide))

theorem runTxn_staysFresh (n : Nat) : ∀ (s : State) (t : Txn), StaysFresh s (runTxn n s t) := by
  induction n with
  | zero =>
    intro s t
    have hserved := s.serveTxn_staysFresh t
    unfold runTxn
    dsimp only
    split
    · exact hserved.trans (State.outstands_staysFresh _ t _ _)
    · exact hserved.trans (State.outstands_staysFresh _ t _ _)
    · exact hserved.trans ((State.coreWaits_keeps _ t false).staysFresh (by decide))
  | succ n ih =>
    intro s t
    have hserved := s.serveTxn_staysFresh t
    unfold runTxn
    dsimp only
    split
    · exact hserved.trans (State.outstands_staysFresh _ t _ _)
    · exact hserved.trans (State.outstands_staysFresh _ t _ _)
    · refine (hserved.trans ((State.coreWaits_keeps _ t false).staysFresh (by decide))).trans ?_
      split
      · exact ((State.cohOnly_keeps _ _).staysFresh (by decide)).trans (ih _ _)
      · exact .refl _

/-! ### Window accesses -/

theorem State.regionWait_keeps {s t : State} {r : Region} {off n : Nat} {store : Bool} (h : s.regionWait r off n store = some t) :
    Keeps [.coh, .out] s t := by
  unfold State.regionWait at h
  split at h
  · cases h
  · split at h
    · cases h
      exact .refl _ s
    · split at h
      · cases h
        exact Keeps.foldl (fun u c => u.recallKey_keeps _ _ _) _ s
      · cases h

theorem State.serveWindow_staysFresh (s : State) (w : HeldWindow) : StaysFresh s (s.serveWindow w).1 := by
  unfold State.serveWindow
  dsimp only
  split
  · exact (s.refuseWindow_keeps _ _ _).staysFresh (by decide)
  · rename_i r o _
    split
    · exact (s.refuseWindow_keeps _ _ _).staysFresh (by decide)
    · split
      · exact .refl s
      · split
        · rename_i t ht
          exact (State.regionWait_keeps ht).staysFresh (by decide)
        · dsimp only
          split
          · exact s.writeRegion_staysFresh _ _ _
          · split <;> exact (s.readRegion_staysFresh _ _ _).trans ((State.emit_keeps _ _).staysFresh (by decide))

theorem State.setHeld_staysFresh (s : State) (held : List HeldWindow) :
    StaysFresh s { s with hst := { s.hst with held := held } } := ⟨rfl, rfl, id⟩

theorem State.takeWindow_staysFresh (s : State) (w : HeldWindow) : StaysFresh s (s.takeWindow w) := by
  have hserved : StaysFresh s (if s.hst.held.any (fun v => v.source == w.source && v.requester == w.requester) then (s, false)
      else s.serveWindow w).1 := by
    split
    · exact .refl s
    · exact s.serveWindow_staysFresh w
  unfold State.takeWindow
  dsimp only
  generalize (if s.hst.held.any (fun v => v.source == w.source && v.requester == w.requester) then (s, false)
      else s.serveWindow w) = x at hserved ⊢
  split
  · exact hserved
  · exact hserved.trans (State.setHeld_staysFresh _ _)

theorem State.retryWindows_staysFresh (s : State) : StaysFresh s s.retryWindows :=
  (s.setHeld_staysFresh []).trans (StaysFresh.foldl State.takeWindow_staysFresh _ _)

theorem State.retryHeld_staysFresh (s : State) : StaysFresh s s.retryHeld := by
  unfold State.retryHeld
  refine StaysFresh.trans (StaysFresh.foldl (fun u t => ?_) (s.coh.txns.filter (·.held)) s) (State.retryWindows_staysFresh _)
  exact ((State.cohOnly_keeps _ _).staysFresh (by decide)).trans (runTxn_staysFresh _ _ _)

/-! ### Peer reads -/

theorem State.servePeer_staysFresh (s : State) (r : PeerRead) : StaysFresh s (s.servePeer r) := by
  have hemit : ∀ (u : State) (o : Output), StaysFresh u (u.emit o) := fun u o => (u.emit_keeps o).staysFresh (by decide)
  unfold State.servePeer
  split
  · exact hemit _ _
  · exact hemit _ _
  · rename_i _ _ t _ ht
    refine (State.resolveCount_staysFresh ht).trans ?_
    split
    · exact (t.readVa_staysFresh _ _).trans (hemit _ _)
    · exact ((t.recallHost_keeps _ _ _).staysFresh (by decide)).trans ⟨rfl, rfl, id⟩
    · exact ⟨rfl, rfl, id⟩
    · exact ⟨rfl, rfl, id⟩
    · exact ((t.raise_keeps _ _ _ _ _).staysFresh (by decide)).trans (State.localHold_staysFresh _ _)
    · exact ((t.raise_keeps _ _ _ _ _).staysFresh (by decide)).trans (hemit _ _)
    · exact hemit _ _

theorem State.servePeers_staysFresh (s : State) : StaysFresh s s.servePeers := by
  have hqueue : ∀ f : Fab, StaysFresh s { s with fab := f } := fun _ => ⟨rfl, rfl, id⟩
  unfold State.servePeers
  dsimp only
  split
  · exact .refl s
  · exact (hqueue _).trans (StaysFresh.foldl (fun u r => u.servePeer_staysFresh r) _ _)

/-! ### The end of host-staleness -/

theorem State.unstaled_fresh (s : State) : s.unstaled.rgn.Fresh := by
  intro r hr
  obtain ⟨x, -, rfl⟩ := List.mem_map.1 hr
  rfl

/-- With host-staleness ended no region is host-stale, and the slots and HELLO are as they were (R472). -/
theorem State.endStale_spec (s : State) (kept : Bool) :
    (s.endStale kept).mbx = s.mbx ∧ (s.endStale kept).hst.helloSeen = s.hst.helloSeen ∧ (s.endStale kept).rgn.Fresh := by
  obtain ⟨u, hkeeps, heq⟩ := s.endStale_eq kept
  have hwake : Keeps [.dma] u.unstaled.retryHeld u.unstaled.retryHeld.wakeChans := .of_patch rfl
  have hstays := (u.unstaled.retryHeld_staysFresh.trans (hwake.staysFresh (by decide))).trans (State.servePeers_staysFresh _)
  rw [heq]
  exact ⟨hstays.mbx.trans (hkeeps .mbx (by decide)), hstays.hello.trans (congrArg Hst.helloSeen (hkeeps .hst (by decide) :)),
    hstays.fresh u.unstaled_fresh⟩

end Sys2Proof.Machine
end

section
/-! SUPPORT. HELLO, INFO and QUERY: the bodies and their replies (R501, R507, R512 to R514). -/

namespace Sys2Proof.Machine

/-! ### HELLO -/

/-- The device once it has been greeted: the first HELLO of the host after the link has come back ends host-staleness (R472). -/
def State.greeted (s : State) (q : Req) : State :=
  if q.fromCore || s.hst.helloSeen then s
  else ({ s with hst := { s.hst with helloSeen := true } }).endStale (bit (q.f 2 2) 0)

theorem helloBody_eq {s : State} {q : Req} (hversion : q.f 1 1 = 1) (hflags : q.rz 2 2 15 1 = true) (hzero : q.zb 4 4 = true)
    (hcore : q.fromCore = true → bit (q.f 2 2) 0 = false) :
    helloBody q s = (s.greeted q, some (cOK, helloReply (s.greeted q))) := by
  have hkept : ¬ ((q.fromCore && bit (q.f 2 2) 0) = true) := by
    rw [Bool.and_eq_true]
    rintro ⟨hfrom, hbit⟩
    simp [hcore hfrom] at hbit
  unfold helloBody
  dsimp only
  rw [if_neg (by simpa [hflags, hzero] using hkept), if_neg (by simp [hversion])]
  rfl

theorem State.greeted_again {s : State} {q : Req} (h : q.fromCore = true ∨ s.hst.helloSeen = true) : s.greeted q = s :=
  if_pos (by simpa using h)

theorem State.greeted_first {s : State} {q : Req} (hhost : q.fromCore = false) (hseen : s.hst.helloSeen = false) :
    (s.greeted q).mbx = s.mbx ∧ (s.greeted q).hst.helloSeen = true ∧ (s.greeted q).rgn.Fresh := by
  rw [State.greeted, if_neg (by simp [hhost, hseen])]
  exact State.endStale_spec { s with hst := { s.hst with helloSeen := true } } _

/-! ### QUERY -/

/-- The attention list once the request's acknowledgement has been taken (R501). -/
def State.acknowledged (s : State) (q : Req) : State :=
  if bit (q.f 6 2) 0 then { s with att := s.att.ack (BitVec.ofNat 16 (q.f 4 2)) } else s

theorem State.acknowledged_keeps (s : State) (q : Req) : Keeps [.att] s (s.acknowledged q) := by
  unfold State.acknowledged
  split
  · exact .of_patch rfl
  · exact .refl _ s

theorem State.acknowledged_att (s : State) (q : Req) : (s.acknowledged q).att
    = if bit (q.f 6 2) 0 then s.att.ack (BitVec.ofNat 16 (q.f 4 2)) else s.att := by
  unfold State.acknowledged
  split <;> rfl

/-- The entries that QUERY lists. -/
def State.listed (s : State) (q : Req) : List AttnEntry := (s.att.byAge.drop (q.f 8 2)).take 61

/-- What QUERY says of a tag (R514). -/
def State.queried (s : State) (q : Req) : Nat × Nat := if q.f 0 4 = noTag then (0, 0) else s.tagState (q.f 0 4)

/-- The reply of QUERY (R513, R514). -/
def State.queryReply (s : State) (q : Req) : Bytes :=
  leBytes 2 s.att.list.length ++ leBytes 2 (s.listed q).length ++ leBytes 1 (s.queried q).1 ++ leBytes 1 (s.queried q).2
    ++ zeros 2 ++ leBytes 8 s.aon.tick.toNat ++ zeros 16 ++ (s.listed q).flatMap AttnEntry.bytes

theorem queryBody_eq {s : State} {q : Req} (hflags : q.rz 6 2 15 1 = true) (hzero : q.zb 0x0A 6 = true)
    (hcore : q.fromCore = true → bit (q.f 6 2) 0 = false) :
    queryBody q s = (s.acknowledged q, some (cOK, (s.acknowledged q).queryReply q)) := by
  have hack : ¬ ((q.fromCore && bit (q.f 6 2) 0) = true) := by
    rw [Bool.and_eq_true]
    rintro ⟨hfrom, hbit⟩
    simp [hcore hfrom] at hbit
  unfold queryBody
  rw [if_neg (by simp [hflags, hzero]), if_neg hack]
  rfl

theorem State.queryReply_count (s : State) (q : Req) : (s.queryReply q).take 2 = leBytes 2 s.att.list.length := rfl

theorem State.queryReply_entries (s : State) (q : Req) :
    (s.queryReply q).drop 32 = ((s.att.byAge.drop (q.f 8 2)).take 61).flatMap AttnEntry.bytes := rfl

theorem State.queryReply_tag (s : State) (q : Req) :
    ((s.queryReply q).drop 4).take 2 = [BitVec.ofNat 8 (s.queried q).1, BitVec.ofNat 8 (s.queried q).2] := rfl

/-- What a tag stands at does not depend on the attention list. -/
theorem Keeps.tagState {l : List Part} {s t : State} (h : Keeps l s t) (hl : .dma ∉ l ∧ .stp ∉ l) (tag : Nat) :
    t.tagState tag = s.tagState tag := by
  have hdma : t.dma = s.dma := h .dma hl.1
  have hstp : t.stp = s.stp := h .stp hl.2
  unfold State.tagState
  rw [hdma, hstp]

/-! ### The statement -/

/-- Settles O16: INFO and a HELLO that ends nothing only reply; the first HELLO of the host ends host-staleness and replies; QUERY
acknowledges and lists. -/
theorem sessionReplies : Obligations.SessionReplies := by
  unfold Obligations.SessionReplies
  refine ⟨fun s k hInv hserved hversion hflags hzero hcore => ⟨_, rfl, fun hagain => ?_, fun hhost hseen => ?_⟩,
    fun s k hInv hserved => ⟨_, rfl, hserved.take_onlyReplies hInv.mbx rfl (by decide)⟩,
    fun s k hInv hserved hflags hzero hcore => ?_⟩
  · have hbody := helloBody_eq (s := s.taken k) hversion hflags hzero hcore
    rw [State.greeted_again (s := s.taken k) hagain] at hbody
    exact hserved.take_onlyReplies hInv.mbx hbody (by decide)
  · have hbody := helloBody_eq (s := s.taken k) hversion hflags hzero hcore
    obtain ⟨hmbx, hhello, hfresh⟩ := State.greeted_first (s := s.taken k) hhost hseen
    obtain ⟨⟨-, -, -, -, hown, -⟩, hkeeps⟩ := hserved.take_replied hInv.mbx hbody (by decide) hmbx
    have hrgn : (s.take k (·.opcode == 0x0101) helloBody).rgn = _ := hkeeps .rgn (by decide)
    refine ⟨(congrArg Hst.helloSeen (hkeeps .hst (by decide) :)).trans hhello, ?_, hown⟩
    rw [hrgn]
    exact hfresh
  · have hbody := queryBody_eq (s := s.taken k) hflags hzero hcore
    have hacked := (s.taken k).acknowledged_keeps (s.asks k)
    obtain ⟨hreplied, hkeeps⟩ := hserved.take_replied hInv.mbx hbody (by decide) (hacked .mbx (by decide))
    have hatt : (s.take k (·.opcode == 0x0103) queryBody).att = ((s.taken k).acknowledged (s.asks k)).att := hkeeps .att (by decide)
    refine ⟨_, _, rfl, hreplied, ?_, hatt.trans (State.acknowledged_att _ _), ?_, ?_, fun htag => ?_⟩
    · exact ((s.taken_keeps k).mono (by decide)).trans ((hacked.mono (by decide)).trans (hkeeps.mono (by decide)))
    · rw [hatt]
      exact State.queryReply_count _ _
    · rw [hatt]
      exact State.queryReply_entries _ _
    · rw [State.queryReply_tag, State.queried, if_neg htag, hacked.tagState (by decide), (s.taken_keeps k).tagState (by decide)]

end Sys2Proof.Machine
end

section
/-! SUPPORT. The machine at reset, and its step with and without a command waiting. -/

namespace Sys2Proof.Machine

/-- Settles O1: by the definition of a step. -/
theorem stepRunsFront : Obligations.StepRunsFront := by
  unfold Obligations.StepRunsFront
  intro s c rest hpending
  unfold step
  rw [hpending]

/-- Settles O2: an empty queue leaves only the clock to run. -/
theorem idleStep : Obligations.IdleStep := by
  unfold Obligations.IdleStep
  intro s hpending
  refine ⟨s.idle, by unfold step; rw [hpending], ?_, ?_⟩
  · unfold State.idle
    split <;> rfl
  · unfold State.idle
    split
    · exact .of_patch rfl
    · exact .refl _ s

/-- Settles O4: each part of the reset state is the empty one. -/
theorem resetKeepsNothing : Obligations.ResetKeepsNothing := by
  unfold Obligations.ResetKeepsNothing
  exact ⟨⟨rfl, rfl, rfl, rfl, Nat.zero_le _, List.forall_mem_nil _, List.forall_mem_nil _, List.nodup_nil, List.forall_mem_nil _⟩, rfl, rfl, rfl, rfl, rfl, rfl, rfl⟩

end Sys2Proof.Machine
end

section
/-! SUPPORT. Slots that are handed over, written and read (R455, R484 to R487). -/

namespace Sys2Proof.Machine

/-! ### Hand-over -/

/-- The request of a slot does not hold its OWN byte. -/
theorem Mbx.req_congr {m m' : Mbx} {j : Nat}
    (h : ∀ a, slotBase j ≤ a → a < slotBase j + 4096 → a ≠ slotBase j + 0x38 → m'.cells.read a = m.cells.read a) :
    m'.req j = m.req j := by
  have hrange : ∀ x n, slotBase j ≤ x → x + n ≤ slotBase j + 4096 → x + n ≤ slotBase j + 0x38 ∨ slotBase j + 0x38 < x →
      m'.cells.readN x n = m.cells.readN x n := fun x n hlo hhi hown => Store.readN_congr fun i hi => h _ (by omega) (by omega) (by omega)
  have hop := hrange (slotBase j) 2 (by omega) (by omega) (by omega)
  have hflags := hrange (slotBase j + 2) 2 (by omega) (by omega) (by omega)
  have htag := hrange (slotBase j + 4) 4 (by omega) (by omega) (by omega)
  have hlen := hrange (slotBase j + 8) 4 (by omega) (by omega) (by omega)
  have hzero := hrange (slotBase j + 12) 44 (by omega) (by omega) (by omega)
  have hpay := fun n (hn : n ≤ 1984) => hrange (slotBase j + 0x40) n (by omega) (by omega) (by omega)
  unfold Mbx.req
  dsimp only
  rw [hop, hflags, htag, hlen, hzero, hpay _ (Nat.min_le_right _ _)]

/-- A slot handed over: its OWN byte set, the slot at the end of the latch queue (R487). -/
def Mbx.handed (m : Mbx) (k : Nat) : Mbx :=
  { m with cells := m.cells.write (slotBase k + 0x38) 1#8, latch := m.latch ++ [k] }

theorem Mbx.handed_req {m : Mbx} (h : m.cells.wf = true) (k j : Nat) : (m.handed k).req j = m.req j := by
  refine Mbx.req_congr fun a hlo hhi hown => ?_
  have hne : a ≠ slotBase k + 0x38 := by
    rintro rfl
    have hslot : k = j := by
      unfold slotBase at hlo hhi
      omega
    exact hown (hslot ▸ rfl)
  exact (Store.read_write h _ _ _).trans (if_neg hne)

theorem Mbx.handed_own {m : Mbx} (h : m.cells.wf = true) (k : Nat) : (m.handed k).own k = true := by
  have hread : (m.handed k).cells.read (slotBase k + 0x38) = 1#8 := (Store.read_write h _ _ _).trans (if_pos rfl)
  rw [Mbx.own, hread]
  rfl

/-- While every latched request has a defined opcode, none is answered BAD_OPCODE. -/
theorem serveUndefined_defined {s : State} (h : ∀ j ∈ s.mbx.latch, (s.mbx.req j).opcode ∈ opcodes) :
    ∀ n, serveUndefined n s = s := by
  intro n
  cases n with
  | zero => rfl
  | succ n =>
    unfold serveUndefined
    split
    · rfl
    · split
      · next k hk => exact if_pos (List.contains_iff_mem.2 (h k (State.front_mem hk)))
      · rfl

/-- The device once a slot has been handed over: the primary Ranger wakes. -/
def State.handed (s : State) (k : Nat) : State :=
  { s with
    mbx := s.mbx.handed k
    aon := { s.aon with primary := if s.aon.primary == RangerState.asleep then RangerState.awake else s.aon.primary } }

theorem State.handOver_latches {s : State} {k : Nat} (htick : s.aon.tickOn = true) (hown : s.mbx.own k = false)
    (hwf : s.mbx.cells.wf = true) (hdef : ∀ j, j = k ∨ j ∈ s.mbx.latch → (s.mbx.req j).opcode ∈ opcodes) :
    s.handOver k = s.handed k := by
  have hlatch : ∀ j ∈ (s.handed k).mbx.latch, ((s.handed k).mbx.req j).opcode ∈ opcodes := by
    intro j hj
    rw [show (s.handed k).mbx.req j = s.mbx.req j from Mbx.handed_req hwf k j]
    obtain hj | hj := List.mem_append.1 hj
    · exact hdef j (.inr hj)
    · exact hdef j (.inl (List.mem_singleton.1 hj))
  unfold State.handOver
  rw [if_neg (by simp [htick]), if_neg (by simp [hown])]
  exact serveUndefined_defined hlatch _

theorem State.handOver_owned {s : State} {k : Nat} (htick : s.aon.tickOn = true) (hown : s.mbx.own k = true) :
    s.handOver k = s.raise aLOG 0 noTag 0 (slotBase k + 0x38) := by
  unfold State.handOver
  rw [if_neg (by simp [htick]), if_pos hown]

/-- Settles O14: a hand-over latches its slot, and one of a slot that is owned raises LOG attention. -/
theorem handOverLatches : Obligations.HandOverLatches := by
  unfold Obligations.HandOverLatches
  intro s k hInv htick hlink
  have hexec : exec (.mbxOwnWrite k) s = .next (s.handOver k) := by
    refine congrArg Host.Outcome.next (if_neg ?_)
    simp only [Bool.and_eq_true, decide_eq_true_eq, bne_iff_ne, not_and, not_not]
    exact hlink
  refine ⟨fun hown hdef => ?_, fun hown => ?_⟩
  · rw [hexec, State.handOver_latches htick hown hInv.mbx hdef]
    refine ⟨_, rfl, rfl, Mbx.handed_own hInv.mbx k, ?_, rfl, .of_patch rfl, fun j => Mbx.handed_req hInv.mbx k j⟩
    unfold State.handed
    dsimp only
    split <;> simp_all
  · rw [hexec, State.handOver_owned htick hown]
    exact ⟨_, rfl, rfl, s.raise_keeps _ _ _ _ _⟩

/-! ### Slot writes -/

/-- Storing a string byte by byte. -/
theorem Store.foldl_write : ∀ (d : Bytes) (m : Store) (x : Nat),
    (upFrom 0 d.length).foldl (fun c i => c.write (x + i) (d.getD i 0#8)) m = m.writeN x d := by
  intro d
  induction d with
  | nil => exact fun _ _ => rfl
  | cons b r ih =>
    intro m x
    have hcons : upFrom 0 (b :: r).length = 0 :: (upFrom 0 r.length).map (· + 1) := by
      simp [upFrom, List.range_succ_eq_map, Function.comp_def]
    rw [hcons, List.foldl_cons, List.foldl_map, Store.writeN, ← ih]
    refine List.foldl_ext _ _ _ fun c i _ => ?_
    rw [List.getD_cons_succ, show x + (i + 1) = x + 1 + i by omega]

/-- A slot that is not handed over takes the bytes written to its request area (R486). -/
theorem State.slotStore_stores {s : State} {k off : Nat} {d : Bytes} (hown : s.mbx.own k = false) (hlen : 0 < d.length)
    (hoff : off + d.length ≤ 0x38 ∨ 0x40 ≤ off ∧ off + d.length ≤ 0x800) :
    s.slotStore k off d = { s with mbx := { s.mbx with cells := s.mbx.cells.writeN (slotBase k + off) d } } := by
  have hhands : (decide (off ≤ 0x38) && decide (0x38 < off + d.length) && (d.getD (0x38 - off) 0#8).getLsbD 0) = false := by
    simp only [Bool.and_eq_false_iff, decide_eq_false_iff_not]
    omega
  unfold State.slotStore
  rw [if_neg (by omega), if_neg (by simp [hown])]
  dsimp only
  rw [hhands, if_neg Bool.false_ne_true, ← Store.foldl_write]
  congr 2
  refine List.foldl_ext _ _ _ fun c i hi => ?_
  have hi : i < d.length := by simpa [upFrom] using hi
  rw [if_neg (by simp only [Bool.or_eq_true, Bool.and_eq_true, decide_eq_true_eq]; omega), Nat.add_assoc]

theorem State.slotStore_reply {s : State} {k off : Nat} {d : Bytes} (hoff : 0x800 ≤ off) : s.slotStore k off d = s := if_pos hoff

theorem State.slotStore_owned {s : State} {k off : Nat} {d : Bytes} (hoff : off < 0x800) (hown : s.mbx.own k = true) :
    s.slotStore k off d = s.raise aLOG 0 noTag 0 (slotBase k + off) := by
  unfold State.slotStore
  rw [if_neg (by omega), if_pos hown]

/-- The slot and the offset in it that an address names. -/
theorem slotBase_split {k n : Nat} (hn : n < 4096) : (slotBase k + n) / 4096 = k ∧ (slotBase k + n) % 4096 = n := by
  unfold slotBase
  omega

/-- A write by the host of its BAR0 reaches the slot. -/
theorem State.bar0Access_slot {s : State} {k n : Nat} {d : Bytes} (hk : k < 64) (hn : n < 4096) (hlink : s.hst.link = .up)
    (hpower : s.powered = true) (hsize : bar0SizeOk (slotBase k + n) d.length true = true) :
    s.bar0Access (slotBase k + n) (.write d) = s.slotStore k n d := by
  obtain ⟨hslot, hoff⟩ := slotBase_split (k := k) hn
  have hbase : slotBase k + n < 0x40000 := by
    unfold slotBase
    omega
  unfold State.bar0Access
  rw [if_neg (by simp [hlink, hpower]; omega)]
  dsimp only
  rw [if_pos hsize, if_pos hbase, hslot, hoff]

/-- A core's write of its own slot reaches it. -/
theorem State.coreSlotAccess_own {s : State} {c n : Nat} {d : Bytes} (hn : n < 4096)
    (hsize : (d.length = 4 ∨ d.length = 8) ∧ n % d.length = 0 ∨ (d.length = 1 ∨ d.length = 2) ∧ n % d.length = 0 ∧ n < 0x800) :
    s.coreSlotAccess c (slotBase c + n) (.write d) = s.slotStore (64 + c) n d := by
  obtain ⟨hslot, hoff⟩ := slotBase_split (k := c) hn
  have halign : ∀ {m}, m = 1 ∨ m = 2 ∨ m = 4 ∨ m = 8 → (slotBase c + n) % m = n % m := by
    intro m hm
    unfold slotBase
    rcases hm with rfl | rfl | rfl | rfl <;> omega
  unfold State.coreSlotAccess
  dsimp only
  rw [hslot, hoff, if_pos]
  rcases hsize with ⟨hlen, hmod⟩ | ⟨hlen, hmod, hlow⟩
  · have h := halign (m := d.length) (by omega)
    rcases hlen with hlen | hlen <;> rw [hlen] at h hmod ⊢ <;> simp [h, hmod]
  · have h := halign (m := d.length) (by omega)
    rcases hlen with hlen | hlen <;> rw [hlen] at h hmod ⊢ <;> simp [h, hmod, hlow]

/-- A core's access of the slot area (R484). -/
theorem exec_coreSlot (s : State) (c m : Fin 96) {n : Nat} (hn : n < 4096) (acc : Access) :
    exec (.slotWrite (.core c) (0x00F000000000 + slotBase m + n) acc) s = .next (s.coreSlotAccess c (slotBase m + n) acc) := by
  have hbase : slotBase m + n < 0x60000 := by
    unfold slotBase
    omega
  refine congrArg Host.Outcome.next ((if_pos ?_).trans ?_)
  · simp only [Bool.and_eq_true, decide_eq_true_eq]
    omega
  · rw [Nat.add_assoc, Nat.add_sub_cancel_left]

/-- Settles O15: each access comes down to the slot it names, and a store there to the three cases of R486. -/
theorem slotWrites : Obligations.SlotWrites := by
  unfold Obligations.SlotWrites
  refine ⟨fun s n off d hInv hoff hlen hfits by_ addr hby => ?_, fun s c m n d hne hn => ?_, fun s n len hsize halign hfits =>
    ⟨fun k hk hlink hpower => ?_, fun c m => ?_⟩⟩
  · have hexec : exec (.slotWrite by_ addr (.write d)) s = .next (s.slotStore off n d) := by
      cases by_ with
      | host =>
        obtain ⟨hk, rfl, hlink, hpower, hsize⟩ := hby
        exact congrArg Host.Outcome.next (State.bar0Access_slot hk (by omega) hlink hpower hsize)
      | core c =>
        obtain ⟨rfl, rfl, hsize⟩ := hby
        rw [exec_coreSlot s c c (by omega), State.coreSlotAccess_own (by omega) hsize]
    rw [hexec]
    refine ⟨_, rfl, fun hown hrange => ?_, fun hreply => State.slotStore_reply hreply, fun hown hrange => ?_⟩
    · rw [State.slotStore_stores hown hlen hrange]
      exact ⟨.of_patch rfl, rfl, fun a => Store.read_writeN hInv.mbx _ _⟩
    · rw [State.slotStore_owned (by omega) hown]
      exact ⟨rfl, rfl, s.raise_keeps _ _ _ _ _⟩
  · rw [exec_coreSlot s c m hn]
    refine ⟨_, rfl, ?_⟩
    unfold State.coreSlotAccess
    dsimp only
    rw [if_neg (by rw [(slotBase_split hn).1]; simp [Fin.val_ne_of_ne hne.symm])]
    exact ⟨rfl, .of_patch rfl⟩
  · have hbase : slotBase k + n < 0x40000 := by
      unfold slotBase
      omega
    have hsized : bar0SizeOk (slotBase k + n) len false = true := by
      unfold bar0SizeOk slotBase
      rcases hsize with rfl | rfl <;> simp <;> omega
    have haccess : s.bar0Access (slotBase k + n) (.read len) = s.emit (.data 0 (s.mbx.cells.readN (slotBase k + n) len)) := by
      unfold State.bar0Access State.bar0Read
      rw [if_neg (by simp [hlink, hpower]; omega)]
      dsimp only
      rw [if_pos hsized, if_pos hbase]
    exact ⟨_, congrArg Host.Outcome.next haccess, rfl, .of_patch rfl⟩
  · rw [exec_coreSlot s c m (by omega)]
    refine ⟨_, rfl, ?_⟩
    unfold State.coreSlotAccess
    dsimp only
    rw [if_pos (by unfold slotBase; rcases hsize with rfl | rfl <;> simp <;> omega),
      show slotBase 64 + (slotBase m + n) = slotBase (64 + m) + n by unfold slotBase; omega]
    exact ⟨rfl, .of_patch rfl⟩

end Sys2Proof.Machine
end

section
/-! SUPPORT. Identity and firmware: ATTEST, ID_READ and FW_STAGE (R587, R590, R593, R595, R601). -/

namespace Sys2Proof.Machine

/-! ### Identity -/

theorem attestCmd_signs {q : Req} {s : State} (hversion : q.f 0 1 = 1) (hzero : q.zb 1 7 = true) :
    attestCmd q s = (s, some (cOK, s.attestBody ((q.pay.drop 8).take 32)
      ++ padTo 64 (edSign s.aon.fzIdKey (s.attestBody ((q.pay.drop 8).take 32))))) :=
  if_neg (by simp [hversion, hzero])

/-- A read inside a source's area answers what the bus answers. -/
theorem idReadBody_answers {q : Req} {area : Nat} (harea : idArea (q.f 0 1) = some area) (hsource : q.zb 1 1 = true)
    (hzero : q.zb 6 2 = true) (hmin : 1 ≤ q.f 4 2) (hmax : q.f 4 2 ≤ 1984) (hin : q.f 2 2 + q.f 4 2 ≤ area)
    (answer : Option Bytes) (s : State) : idReadBody answer q s
      = (s, match answer with | none => rcode cNOT_READY | some b => some (cOK, padTo (q.f 4 2) b)) := by
  unfold idReadBody
  dsimp only
  rw [harea]
  dsimp only
  rw [if_neg (by simp [hsource, hzero]; omega)]
  cases answer <;> rfl

/-- Settles O21: both bodies answer and change nothing. -/
theorem identityReads : Obligations.IdentityReads := by
  unfold Obligations.IdentityReads
  refine ⟨fun s k hInv hserved hversion hzero => ⟨_, rfl, ?_⟩,
    fun s k b area hInv hserved harea hsource hzero hmin hmax hin => ⟨⟨_, rfl, ?_⟩, ⟨_, rfl, ?_⟩⟩⟩
  · exact hserved.take_onlyReplies hInv.mbx (attestCmd_signs (s := s.taken k) hversion hzero) (by decide)
  · exact hserved.take_onlyReplies hInv.mbx (idReadBody_answers harea hsource hzero hmin hmax hin (some b) _) (by decide)
  · exact hserved.take_onlyReplies hInv.mbx (idReadBody_answers harea hsource hzero hmin hmax hin none _) (by decide)

/-! ### Firmware -/

theorem State.idleBank_lt (s : State) : s.idleBank < 2 := by
  unfold State.idleBank
  split <;> omega

/-- The idle bank is not the running one. -/
theorem State.idleBank_ne {s : State} {r : Running} (h : s.dev.running = some r) (hbank : r.bank < 2) : s.idleBank ≠ r.bank := by
  unfold State.idleBank
  rw [h]
  dsimp only
  omega

/-- The device with an image written into its idle bank. -/
def State.staged (s : State) (b : Bytes) : State := { s with aon := { s.aon with banks := s.aon.banks.set s.idleBank b } }

theorem State.staged_keeps (s : State) (b : Bytes) : Keeps [.aon] s (s.staged b) := .of_patch rfl

/-- FW_STAGE of an accessible range judges the bytes it reads. -/
theorem fwStageBody_reads {q : Req} {s : State} {va len : Nat} (hva : va = q.f 0 8) (hlen : len = q.f 8 4)
    (hzero : q.zb 0x0C 4 = true) (hvaOk : vaOk va = true) (hmax : len ≤ 2 ^ 23) (hacc : Accessible s va len false)
    (hfree : s.aon.activating = false) :
    (∀ c, s.aon.verifyImage (s.peekVa va len) = some c → fwStageBody q s = ((s.readVa va len).2, rcode c))
      ∧ (s.aon.verifyImage (s.peekVa va len) = none → fwStageBody q s = ((s.readVa va len).2.staged (s.peekVa va len),
        some (cOK, leBytes 4 (imgVersion (s.peekVa va len)) ++ leBytes 4 (imgRollback (s.peekVa va len)) ++ zeros 8))) := by
  have haon : (s.readVa va len).2.aon = s.aon := State.readVa_keeps s va len .aon (by decide)
  have hbody : fwStageBody q s = (match s.aon.verifyImage (s.peekVa va len) with
      | some c => ((s.readVa va len).2, rcode c)
      | none => ((s.readVa va len).2.staged (s.peekVa va len),
        some (cOK, leBytes 4 (imgVersion (s.peekVa va len)) ++ leBytes 4 (imgRollback (s.peekVa va len)) ++ zeros 8))) := by
    unfold fwStageBody
    dsimp only
    rw [← hva, ← hlen, if_neg (by simp [hzero, hvaOk]; omega), hacc.cmdAccess]
    dsimp only
    rw [show (s.readVa va len).2.aon.verifyImage = s.aon.verifyImage from congrArg Aon.verifyImage haon,
      if_neg (c := (s.readVa va len).2.aon.activating = true) (by simp [haon, hfree])]
    rfl
  exact ⟨fun c hc => by rw [hbody, hc], fun hnone => by rw [hbody, hnone]⟩

/-- Verification fails with one of the codes of R590. -/
theorem Aon.verifyImage_code {a : Aon} {b : Bytes} {c : Nat} (h : a.verifyImage b = some c) : c ≠ cWAIT := by
  unfold Aon.verifyImage at h
  dsimp only at h
  split_ifs at h <;> cases h <;> decide

/-- Settles O22: the image is read, judged, and written into the idle bank where it verifies. -/
theorem firmwareStaged : Obligations.FirmwareStaged := by
  unfold Obligations.FirmwareStaged
  intro s k va len hInv hserved hva hlen hzero hvaOk hmax hacc hfree hbanks
  obtain ⟨hpeek, hread, hframe, -⟩ := State.taken_reads hInv.sound k va len
  obtain ⟨hfails, hverifies⟩ := fwStageBody_reads (s := s.taken k) hva hlen hzero hvaOk hmax hacc hfree
  have hmbx : ((s.taken k).readVa va len).2.mbx = (s.taken k).mbx := State.readVa_keeps _ va len .mbx (by decide)
  have haon : ((s.taken k).readVa va len).2.aon = (s.taken k).aon := State.readVa_keeps _ va len .aon (by decide)
  have hdev : ((s.taken k).readVa va len).2.dev = s.dev := State.readVa_keeps _ va len .dev (by decide)
  rw [hpeek, show (s.taken k).aon.verifyImage = s.aon.verifyImage from rfl] at hfails hverifies
  generalize ((s.taken k).readVa va len).2 = u at *
  have hidle : u.idleBank = s.idleBank := by
    unfold State.idleBank
    rw [hdev, haon]
    rfl
  cases hverify : s.aon.verifyImage (s.peekVa va len) with
  | some c =>
    obtain ⟨hreplied, hkeeps⟩ := hserved.take_replied hInv.mbx (hfails c hverify) (Aon.verifyImage_code hverify) hmbx
    have haon' := (hkeeps .aon (by decide) : _ = u.aon).trans haon
    have hbanks' := (congrArg Aon.banks haon').trans (rfl : _ = s.aon.banks)
    refine ⟨_, rfl, (congrArg Aon.selCopies haon').trans rfl, (hread.trans (hkeeps.rewrites (by decide) hread.sound)).bytes,
      fun r _ _ => by rw [hbanks'], fun hnone => ?_, fun c' hc' => ?_⟩
    · cases hnone
    · cases hc'
      exact ⟨hbanks', hreplied⟩
  | none =>
    obtain ⟨hreplied, hkeeps⟩ := hserved.take_replied hInv.mbx (hverifies hverify) (by decide) hmbx
    have hstaged := u.staged_keeps (s.peekVa va len)
    have hbanks' : _ = s.aon.banks.set s.idleBank (s.peekVa va len) :=
      (congrArg Aon.banks (hkeeps .aon (by decide) :)).trans (by rw [State.staged, hidle, haon]; rfl)
    have hselCopies : u.aon.selCopies = s.aon.selCopies := (congrArg Aon.selCopies haon).trans rfl
    refine ⟨_, rfl, (congrArg Aon.selCopies (hkeeps .aon (by decide) :)).trans hselCopies,
      ((hread.trans (hstaged.rewrites (by decide) hread.sound)).trans
        (hkeeps.rewrites (by decide) (hstaged.rewrites (W := fun _ => False) (by decide) hread.sound).sound)).bytes,
      fun r hr hbank => ?_, fun _ => ⟨?_, hreplied⟩, fun c hc => ?_⟩
    · rw [hbanks']
      simp [List.getD_eq_getElem?_getD, List.getElem?_set_ne (State.idleBank_ne hr hbank)]
    · rw [hbanks']
      have hlt : s.idleBank < s.aon.banks.length := hbanks ▸ s.idleBank_lt
      simp [List.getD_eq_getElem?_getD, hlt]
    · cases hc

end Sys2Proof.Machine
end

section
/-! SUPPORT. PWRGD, blocks that overheat, and low-power states (R219, R220, R552, R554, R555, R561 to R564, R571, R576, R579, R580). -/

namespace Sys2Proof.Machine

/-! ### PWRGD -/

/-- A byte outside the backing of every TIERED region. -/
def Rgn.OutsideBacking (g : Rgn) (a : Nat) : Prop :=
  ∀ r ∈ g.regions, r.kind = 1 → ¬ (2 ^ 56 + r.hostBase ≤ a ∧ a < 2 ^ 56 + r.hostBase + r.size)

/-- The backing of a TIERED region holds undefined bytes (R190). -/
def State.backingEnds (s : State) (r : Region) : State :=
  { s with fresh := s.fresh + 1, mem := s.mem.undefine (2 ^ 56 + r.hostBase) r.size s.fresh }

theorem State.backingsEnd_mem : ∀ (rs : List Region) (s : State),
    (rs.foldl State.backingEnds s).mem.cells = s.mem.cells
      ∧ ∀ a, (∀ r ∈ rs, ¬ (2 ^ 56 + r.hostBase ≤ a ∧ a < 2 ^ 56 + r.hostBase + r.size)) →
        (rs.foldl State.backingEnds s).mem.byte a = s.mem.byte a := by
  intro rs
  induction rs with
  | nil => exact fun s => ⟨rfl, fun _ _ => rfl⟩
  | cons r rs ih =>
    intro s
    obtain ⟨hcells, hbytes⟩ := ih (s.backingEnds r)
    exact ⟨hcells, fun a ha => (hbytes a fun x hx => ha x (List.mem_cons_of_mem _ hx)).trans
      (Mem.byte_undefine _ _ _ _ _ (ha r List.mem_cons_self))⟩

/-- The backing of the TIERED regions is all that becomes undefined, and no cell changes (R190). -/
theorem State.freeBacking_mem (s : State) : s.freeBacking.mem.cells = s.mem.cells
    ∧ ∀ a, s.rgn.OutsideBacking a → s.freeBacking.mem.byte a = s.mem.byte a := by
  obtain ⟨hcells, hbytes⟩ := State.backingsEnd_mem (s.rgn.regions.filter (·.kind == 1)) s
  refine ⟨hcells, fun a ha => hbytes a fun r hr => ?_⟩
  obtain ⟨hmem, hkind⟩ := List.mem_filter.1 hr
  exact ha r hmem (by simpa using hkind)

/-- Without power host memory stays, and the stacks read zero (R580; DESIGN CHOICE, log 6). -/
theorem State.unpowered_byte {s : State} (hwf : s.mem.cells.wf = true) {a : Nat} (ha : s.rgn.OutsideBacking a) :
    s.unpowered.mem.byte a = if 2 ^ 56 ≤ a then s.mem.byte a else 0#8 := by
  obtain ⟨hcells, hbytes⟩ := s.freeBacking_mem
  rw [← hbytes a ha]
  unfold Mem.byte
  show ((s.freeBacking.mem.free.flatMap (·.cut 0 (2 ^ 56))).findSome? (·.at a)).getD
    (Store.read (s.freeBacking.mem.cells.filter fun c => decide (2 ^ 56 ≤ c.1)) a) = _
  rw [FreeRange.cuts_at, Store.read_filter (fun k => decide (2 ^ 56 ≤ k)) a (hcells ▸ hwf)]
  by_cases hhost : 2 ^ 56 ≤ a
  · rw [if_neg (by omega), if_pos hhost, if_pos (by simpa using hhost)]
  · rw [if_pos (by omega), if_neg hhost, if_neg (by simpa using hhost)]
    rfl

/-- Settles O6: a rise sets two bits, and without power all is at its reset value but what `Aon.unpowered` and host memory keep. -/
theorem pwrgdEdges : Obligations.PwrgdEdges := by
  unfold Obligations.PwrgdEdges
  refine ⟨fun s hp => ⟨_, congrArg Host.Outcome.next (if_neg (by simp [hp])), rfl, .of_patch rfl⟩,
    fun s hp => ⟨s.unpowered, congrArg Host.Outcome.next (if_pos hp), ?_⟩⟩
  rw [s.unpowered_aon]
  exact ⟨rfl, rfl, by rw [State.powered, s.unpowered_aon]; rfl, rfl, by rw [State.serves, s.unpowered_aon]; rfl,
    rfl, rfl, rfl, rfl, rfl, rfl, rfl, rfl, rfl, rfl, rfl, rfl, rfl, rfl, rfl, rfl, fun hwf a ha => State.unpowered_byte hwf ha⟩

/-! ### Temperatures -/

theorem Obs.put_ctrs (o : Obs) (west : Bool) (ty kind unit : Nat) (seqField : Option Nat) (tick : BitVec 64) (p : Bytes) :
    (o.put west ty kind unit seqField tick p).ctrs = o.ctrs := by
  unfold Obs.put
  extract_lets k
  split <;> rfl

/-- A trace record counts nothing. -/
theorem Obs.record_ctrs (o : Obs) (cls : Nat) (west : Bool) (ty kind unit : Nat) (tick : BitVec 64) (p : Bytes) :
    (o.record cls west ty kind unit tick p).ctrs = o.ctrs := by
  unfold Obs.record
  split
  · exact o.put_ctrs _ _ _ _ _ _ _
  · rfl

/-- Attention counts nothing. -/
theorem State.raise_ctrs (s : State) (c k t a b : Nat) : (s.raise c k t a b).obs.ctrs = s.obs.ctrs := Obs.record_ctrs _ _ _ _ _ _ _ _

theorem ThermalBlock.trip_some {b : ThermalBlock} (h : ∀ n, b ≠ .stack n) : b.trip = some 840 := by
  cases b with
  | stack n => exact absurd rfl (h n)
  | canopy | floor | server => rfl

/-- A block is at its critical temperature: FAILED, with FAULT_N low (R563). -/
def State.burns (s : State) (b : ThermalBlock) (temp : Nat) : State :=
  { s with
    aon := { s.aon with stopped := s.aon.stopped ++ [b], faultN := false, resetWait := false, activating := false }
    dev := { s.dev with mode := .failed, failCause := some .thermal, serving := true } }.raise aFAULT 0 noTag (b.field temp) 0

theorem execThermalCritical_burns {s : State} {b : ThermalBlock} {temp : Nat} (htick : s.aon.tickOn = true)
    (hidle : s.stp.active = none) (hstop : b ∉ s.aon.stopped) (htemp : b.critical ≤ temp) :
    exec (.thermalCritical b temp) s = .next (s.burns b temp).drainUndefined := by
  refine congrArg Host.Outcome.next ((if_neg (by simpa [htick, hstop] using htemp)).trans ?_)
  exact congrArg State.drainUndefined (State.localHold_idle (s := s.burns b temp) hidle cINTERNAL)

/-- A device that has overheated answers the commands of R494, but not FW_ACTIVATE and DEVICE_RESET. -/
theorem State.gated_thermal {s : State} (hmode : s.dev.mode = .failed) (hcause : s.dev.failCause = some .thermal) :
    s.gated 0x0904 = true ∧ s.gated 0x0105 = true ∧ s.gated 0x0103 = false ∧ s.gated 0x0901 = false := by
  unfold State.gated
  rw [hmode, hcause]
  decide

/-- Settles O11: each event is one attention and one list; a block at its critical temperature also fails the device. -/
theorem thermalStates : Obligations.ThermalStates := by
  unfold Obligations.ThermalStates
  refine ⟨fun s b temp htick hblock _ => ⟨fun htrip hfull => ?_, fun hcool hhalved => ?_⟩,
    fun s b temp htick hidle hstop htemp _ => ?_⟩
  · have hexec : exec (.thermalTrip b temp) s
        = .next (({ s with aon := { s.aon with halved := s.aon.halved ++ [b] } }).raise aTHERMAL 0 noTag (b.field temp) 1) := by
      show execThermalTrip b temp s = _
      unfold execThermalTrip
      rw [ThermalBlock.trip_some hblock]
      exact congrArg _ (if_neg (by simpa [htick, hfull] using htrip))
    exact ⟨_, hexec, List.mem_append_right _ (List.mem_singleton_self b), rfl, rfl, .of_patch rfl, State.raise_ctrs _ _ _ _ _ _⟩
  · refine ⟨_, congrArg Host.Outcome.next (if_neg (by simpa [htick, hhalved] using hcool)), ?_, rfl, rfl, .of_patch rfl,
      State.raise_ctrs _ _ _ _ _ _⟩
    simp [State.raise]
  · rw [execThermalCritical_burns htick hidle hstop htemp]
    have hkeeps := (s.burns b temp).drainUndefined_keeps
    have haon : (s.burns b temp).drainUndefined.aon = (s.burns b temp).aon := hkeeps .aon (by decide)
    have hdev : (s.burns b temp).drainUndefined.dev = (s.burns b temp).dev := hkeeps .dev (by decide)
    have hatt : (s.burns b temp).drainUndefined.att = (s.burns b temp).att := hkeeps .att (by decide)
    obtain ⟨hactivate, hreset, hquery, hattest⟩ := State.gated_thermal (s := (s.burns b temp).drainUndefined)
      (congrArg Dev.mode hdev) (congrArg Dev.failCause hdev)
    refine ⟨_, rfl, ?_, congrArg Aon.faultN haon, congrArg Dev.mode hdev, congrArg Dev.failCause hdev, hatt,
      hactivate, hreset, hquery, hattest, Keeps.trans (.of_patch rfl) (hkeeps.mono (by decide))⟩
    rw [haon]
    exact List.mem_append_right _ (List.mem_singleton_self b)

/-! ### Low power -/

/-- A block other than a Ranger is idle, and may enter its low-power state (R554, R555). -/
def State.blockIdle (s : State) : LowPowerBlock → Prop
  | .groveClock n => s.groveIdle n = true
  | .grovePower n => s.groveIdle n = true ∧ .groveClock n ∈ s.aon.lowPower
  | .sapling _ => True
  | .lane n => s.gld.lanes.get n.val = none
  | .core n => (s.cor.core n).running = false ∨ (s.cor.core n).sleeping = true
  | .ranger _ => False

/-- A block enters its low-power state; a Grove without power loses its scratchpad (R554, R555). -/
def State.lowered (s : State) (b : LowPowerBlock) : State :=
  { s with
    aon := { s.aon with lowPower := s.aon.lowPower ++ [b] }
    eng := match b with
      | .grovePower n => { s.eng with scratch := s.eng.scratch.filter fun t => t.grove != n.val }
      | _ => s.eng }

theorem execLowPowerEntry_lowered {s : State} {b : LowPowerBlock} (hclocks : s.clocks = true) (hnew : b ∉ s.aon.lowPower)
    (hidle : s.blockIdle b) : exec (.lowPowerEntry b) s = .next (s.lowered b) := by
  refine congrArg Host.Outcome.next ((if_neg (by simpa [hclocks] using hnew)).trans ?_)
  cases b with
  | groveClock n => exact if_pos hidle
  | grovePower n =>
    obtain ⟨hgrove, hclock⟩ := hidle
    exact if_pos (by simpa [hgrove] using hclock)
  | sapling n => rfl
  | lane n => exact if_pos (Option.isNone_iff_eq_none.2 hidle)
  | core n => exact if_pos (by simpa [State.blockIdle] using hidle)
  | ranger n => exact hidle.elim

theorem State.lowered_scratch (s : State) (b : LowPowerBlock) (x : ScratchTile) :
    x ∈ (s.lowered b).eng.scratch ↔ x ∈ s.eng.scratch ∧ ∀ n, b = .grovePower n → x.grove ≠ n.val := by
  cases b with
  | grovePower n => simp [State.lowered]
  | groveClock | sapling | lane | core | ranger => simp [State.lowered]

/-- The Ranger waits for a hand-over (R555). -/
def State.sleeps (s : State) (n : Fin 2) : State :=
  if n = 0 then { s with aon := { s.aon with primary := .asleep } } else { s with aon := { s.aon with mate := .asleep } }

theorem execLowPowerEntry_ranger {s : State} {n : Fin 2} (hclocks : s.clocks = true) (hnew : LowPowerBlock.ranger n ∉ s.aon.lowPower)
    (hlatch : s.mbx.latch = []) (hprog : s.mbx.prog = none) (hactive : s.stp.active = none) (hresume : s.stp.resume = none)
    (hawake : (if n = 0 then s.aon.primary else s.aon.mate) = .awake) :
    exec (.lowPowerEntry (.ranger n)) s = .next (s.sleeps n) := by
  have hstep : s.stepActive = false := by simp [State.stepActive, Stp.current, hactive, hresume]
  refine congrArg Host.Outcome.next ((if_neg (by simpa [hclocks] using hnew)).trans ?_)
  refine (if_neg (by simp [hlatch, hprog, hstep, hresume])).trans ?_
  unfold State.sleeps
  split
  case isTrue hn =>
    rw [if_pos hn] at hawake
    simp [hawake]
  case isFalse hn =>
    rw [if_neg hn] at hawake
    simp [hawake]

/-- A stack in self-refresh, its write-combining entries written (R219, R220). -/
def State.selfRefreshes (s : State) (n : Fin 24) : State :=
  { s with mem := { s.mem with
    wc := s.mem.wc.filter fun e => s.rgn.stackOfLine e.line != some n.val
    selfRefresh := s.mem.selfRefresh ++ [n.val] } }

theorem execStackSelfRefreshEntry_ready {s : State} {n : Fin 24} (hpow : s.powered = true) (hmode : s.dev.mode = .ready)
    (hstart : s.dev.starting = none) (hnew : n.val ∉ s.mem.selfRefresh) (hrun : ThermalBlock.stack n ∉ s.aon.stopped) :
    exec (.stackSelfRefreshEntry n) s = .next (s.selfRefreshes n) := by
  have hstop : s.blockStopped (· == .stack n) = false := by
    simp only [State.blockStopped, List.any_eq_false, beq_iff_eq]
    rintro x hx rfl
    exact hrun hx
  refine congrArg Host.Outcome.next (if_neg ?_)
  simp [hpow, hmode, hstart, hnew, hstop]

/-- Settles O12: one entry of the list of low-power blocks, one Ranger's state, or one stack's self-refresh. -/
theorem lowPowerEntry : Obligations.LowPowerEntry := by
  unfold Obligations.LowPowerEntry
  refine ⟨fun s b hclocks hnew hidle => ⟨s.lowered b, execLowPowerEntry_lowered hclocks hnew ?_,
      List.mem_append_right _ (List.mem_singleton_self b), .of_patch rfl, ?_, s.lowered_scratch b⟩,
    fun s n hclocks hnew hlatch hprog hactive hresume hawake =>
      ⟨s.sleeps n, execLowPowerEntry_ranger hclocks hnew hlatch hprog hactive hresume hawake, ?_, ?_⟩,
    fun s n hpow hmode hstart hnew hrun => ⟨s.selfRefreshes n, execStackSelfRefreshEntry_ready hpow hmode hstart hnew hrun,
      rfl, rfl, rfl, rfl, .of_patch rfl, fun e => ?_⟩⟩
  · cases b <;> exact hidle
  · cases b <;> rfl
  · unfold State.sleeps
    split <;> rfl
  · unfold State.sleeps
    split
    · exact .of_patch rfl
    · exact .of_patch rfl
  · simp [State.selfRefreshes]

end Sys2Proof.Machine
end

section
/-! SUPPORT. The homes at work, and cores that stop: the parts that they can change (R256, R262 to R264, R542, R544, R547). -/

namespace Sys2Proof.Machine

/-- The parts that the homes change where they serve a request. -/
def servedParts : List Part := [.out, .mem, .rgn, .coh, .obs]

/-- What the homes leave where they serve a request: the other parts, and where the HDM decoder has its base. -/
structure HomeServed (s t : State) : Prop where
  keeps : Keeps servedParts s t
  base : t.rgn.hdmBase = s.rgn.hdmBase

theorem HomeServed.refl (s : State) : HomeServed s s := ⟨.refl _ s, rfl⟩

theorem HomeServed.trans {s t u : State} (h : HomeServed s t) (k : HomeServed t u) : HomeServed s u := ⟨h.keeps.trans k.keeps, k.base.trans h.base⟩

theorem Keeps.homeServed {l : List Part} {s t : State} (h : Keeps l s t) (hl : ∀ p ∈ l, p ∈ servedParts ∧ p ≠ .rgn) : HomeServed s t :=
  ⟨h.mono fun p hp => (hl p hp).1, congrArg Rgn.hdmBase (h .rgn fun hr => (hl _ hr).2 rfl :)⟩

/-- A promotion puts page migrations on the list, and nothing more (R194). -/
theorem Rgn.promote_migrations (g : Rgn) (id page : Nat) : ∃ m, g.promote id page = { g with migrations := m } := by
  unfold Rgn.promote
  split
  · exact ⟨_, rfl⟩
  · dsimp only
    split
    · exact ⟨_, rfl⟩
    · split
      · exact ⟨_, rfl⟩
      · split
        · exact ⟨_, rfl⟩
        · split
          · exact ⟨_, rfl⟩
          · exact ⟨_, rfl⟩

theorem Rgn.promote_hdmBase (g : Rgn) (id page : Nat) : (g.promote id page).hdmBase = g.hdmBase := by
  obtain ⟨m, hm⟩ := g.promote_migrations id page
  rw [hm]

theorem Rgn.foldl_hdmBase {α : Type} {f : Rgn → α → Rgn} (hf : ∀ g a, (f g a).hdmBase = g.hdmBase) (l : List α) (g : Rgn) :
    (l.foldl f g).hdmBase = g.hdmBase :=
  foldl_keeps (P := fun g' : Rgn => g'.hdmBase = g.hdmBase) (fun g' a h => (hf g' a).trans h) l g rfl

theorem Rgn.writeAbandons_hdmBase (g : Rgn) (id page : Nat) : (g.writeAbandons id page).hdmBase = g.hdmBase := by
  unfold Rgn.writeAbandons
  split
  · refine Rgn.foldl_hdmBase (fun g r => ?_) _ (g.abandonMigration id page)
    split
    · rfl
    · exact Rgn.foldl_hdmBase (fun g h => g.promote_hdmBase _ _) _ g
  · rfl

theorem State.heatAccess_served (s : State) (id off len : Nat) : HomeServed s (s.heatAccess id off len) := by
  refine ⟨(s.heatAccess_keeps _ _ _).mono (by decide), ?_⟩
  unfold State.heatAccess
  split
  · rfl
  · split
    · rfl
    · exact Rgn.foldl_hdmBase (fun g c => g.promote_hdmBase _ _) _ _

theorem State.lineFetched_served (s : State) (r : Region) (off line : Nat) : HomeServed s (s.lineFetched r off line) := by
  have hreached : HomeServed s (s.lineReached r off line) :=
    (((s.cleanRange_keeps _ _).homeServed (by decide)).trans ((State.wakeRange_keeps _ _ _).homeServed (by decide))).trans
      (State.heatAccess_served _ _ _ _)
  unfold State.lineFetched
  dsimp only
  split
  · exact hreached.trans ((State.cohOnly_keeps _ _).homeServed (by decide))
  · exact hreached

theorem State.writeRegion_served (s : State) (r : Region) (off : Nat) (d : Bytes) : HomeServed s (s.writeRegion r off d) := by
  have hparts : Keeps [.mem, .coh, .out] s ((chunksOf off d.length).foldl (State.writePart r) (s, d)).1 :=
    foldl_keeps (P := fun b : State × Bytes => Keeps [.mem, .coh, .out] s b.1)
      (fun b c hb => hb.trans (State.writePart_keeps r b.1 b.2 c)) _ _ (.refl _ s)
  have habandons : ∀ u : State, HomeServed u
      { u with rgn := (chunksOf off d.length).foldl (fun (g : Rgn) (c : Nat × Nat) => g.writeAbandons r.id (c.1 / pageBytes)) u.rgn } :=
    fun u => ⟨.of_patch rfl, Rgn.foldl_hdmBase (fun g c => g.writeAbandons_hdmBase _ _) _ u.rgn⟩
  exact ((hparts.homeServed (by decide)).trans (habandons _)).trans (State.heatAccess_served _ _ _ _)

theorem State.lineCleared_served (s : State) (n : Nat) (r : Region) (line off : Nat) : HomeServed s (s.lineCleared n r line off) := by
  have hwritten : HomeServed s { s.dropCopies line (some n) with rgn := s.rgn.writeAbandons r.id (off / pageBytes) } :=
    ⟨((s.dropCopies_keeps line (some n)).mono (by decide)).trans (.of_patch rfl), s.rgn.writeAbandons_hdmBase _ _⟩
  exact (hwritten.trans ((State.wakeRange_keeps _ _ _).homeServed (by decide))).trans (State.heatAccess_served _ _ _ _)

theorem State.takeOwned_served (s : State) (n : Nat) (r : Region) (line off o : Nat) (d : Bytes) :
    HomeServed s (s.takeOwned n r line off o d) := by
  refine HomeServed.trans (s.lineCleared_served n r line off) ?_
  show HomeServed _ (if _ then (s.lineCleared n r line off).writeKey (line * 64 + o) d
    else (s.lineCleared n r line off).ownedBy n r line o d)
  split
  · exact (State.writeKey_keeps _ _ _).homeServed (by decide)
  · exact (State.cohOnly_keeps _ _).homeServed (by decide)

theorem State.readTaken_keeps (u : State) (t : Txn) (migrating : Bool) (line : Nat) :
    Keeps [.mem, .coh] u (u.readTaken t migrating line) := by
  unfold State.readTaken
  split
  · split
    · exact .refl _ u
    · exact (State.cohOnly_keeps _ _).mono (by decide)
  · exact .refl _ u
  · split
    · exact (u.dropCopies_keeps line none).trans ((State.cohOnly_keeps _ _).mono (by decide))
    · exact .refl _ u

theorem State.serveRead_served (s : State) (t : Txn) (r : Region) (line : Nat) : HomeServed s (s.serveRead t r line) := by
  have hanswered : HomeServed s ((s.lineFetched r t.off line).answerRead t line) :=
    (s.lineFetched_served r t.off line).trans ((State.answerRead_keeps _ t line).homeServed (by decide))
  rw [State.serveRead_eq rfl]
  split
  · exact hanswered
  · exact hanswered.trans ((State.readTaken_keeps _ _ _ _).homeServed (by decide))

theorem State.serveAmo_served (s : State) (n : Nat) (r : Region) (line off : Nat) (op : AmoOp) (w o v : Nat) :
    HomeServed s (s.serveAmo n r line off op w o v) := by
  have hclean : HomeServed s (s.cleanRange (line * 64) 64) := (s.cleanRange_keeps _ _).homeServed (by decide)
  unfold State.serveAmo
  dsimp only
  split
  · exact hclean.trans ((State.emit_keeps _ _).homeServed (by decide))
  · refine (hclean.trans ?_).trans ((State.emit_keeps _ _).homeServed (by decide))
    split
    · exact State.writeRegion_served _ _ _ _
    · exact State.takeOwned_served _ _ _ _ _ _ _

/-- A line that is written back reaches memory (R264). -/
theorem State.writtenBack_served (s : State) (c : Coh) (r : Region) (line off : Nat) (d : Bytes) :
    HomeServed s (({ s with coh := c, mem := s.mem.putLine line d }.wakeRange (line * 64) 64).heatAccess r.id off 1) :=
  HomeServed.trans (Keeps.homeServed (l := [.mem, .coh]) (Keeps.trans (.of_patch rfl) ((State.wakeRange_keeps _ _ _).mono (by decide)))
    (by decide)) (State.heatAccess_served _ _ _ _)

theorem State.serveTxn_served (s : State) (t : Txn) : HomeServed s (s.serveTxn t).1 := by
  have hcoh : ∀ {u v : State} (_ : HomeServed u v) (c : Coh), HomeServed u { v with coh := c } :=
    fun h _ => h.trans ((State.cohOnly_keeps _ _).homeServed (by decide))
  have hemits : ∀ (u : State) (o : Output), HomeServed u (u.emit o) := fun u o => (u.emit_keeps o).homeServed (by decide)
  have hinvalidates : ∀ (u : State) (l : Nat) (k : Bool), HomeServed u (u.sendBinv l k) :=
    fun u l k => (u.sendBinv_keeps l k).homeServed (by decide)
  unfold State.serveTxn
  split
  · split
    · exact hemits s _
    · exact .refl s
  · rename_i r _
    dsimp only
    split
    case h_1 =>
      split
      · split
        · exact .refl s
        · dsimp only
          split
          · exact s.writtenBack_served _ _ _ _ _
          · exact hcoh (.refl s) _
      · exact .refl s
    case h_2 => exact .refl s
    case h_3 => exact .refl s
    case h_4 =>
      have hevicted : HomeServed s (s.evictEntry (r.key t.off / 64)) := (s.evictEntry_keeps _).homeServed (by decide)
      split
      · exact hevicted.trans (hinvalidates _ _ _)
      · exact hevicted
    case h_5 =>
      split
      · exact .refl s
      split
      · exact .refl s
      split
      · exact hinvalidates s _ _
      split
      · exact hinvalidates s _ _
      have hroom : HomeServed s (if t.tracked then s.makeDirRoom (r.key t.off / 64) else (s, true)).1 := by
        split
        · exact (s.makeDirRoom_keeps _).homeServed (by decide)
        · exact .refl s
      generalize (if t.tracked then s.makeDirRoom (r.key t.off / 64) else (s, true)) = x at hroom ⊢
      refine hroom.trans ?_
      generalize x.1 = u
      split
      · exact .refl u
      split
      case h_1 => exact u.serveRead_served _ _ _
      case h_2 => exact u.takeOwned_served _ _ _ _ _ _
      case h_3 => exact u.writeRegion_served _ _ _
      case h_4 => exact (u.hostStored_keeps _ _ _).homeServed (by decide)
      case h_5 =>
        split
        · exact hemits u _
        · exact u.serveAmo_served _ _ _ _ _ _ _ _
      case h_6 =>
        have hread := u.serveRead_served t r (r.key t.off / 64)
        split
        · exact hcoh hread _
        · exact hcoh hread _
      case h_7 =>
        refine (hcoh ?_ _).trans (hemits _ _)
        split
        · exact u.takeOwned_served _ _ _ _ _ _
        · exact .refl u
      case h_8 => exact u.writeRegion_served _ _ _
      case h_9 => exact .refl u

/-- The parts that the homes' work can change: a core that made a request waits, or waits no longer. -/
def homeParts : List Part := [.out, .mem, .rgn, .coh, .cor, .obs]

/-- What the homes' work leaves: the other parts, the HDM decoder's base, and which cores run. -/
structure Homed (s t : State) : Prop where
  keeps : Keeps homeParts s t
  base : t.rgn.hdmBase = s.rgn.hdmBase
  running : ∀ n, (t.cor.core n).running = (s.cor.core n).running

theorem Homed.refl (s : State) : Homed s s := ⟨.refl _ s, rfl, fun _ => rfl⟩

theorem Homed.trans {s t u : State} (h : Homed s t) (k : Homed t u) : Homed s u :=
  ⟨h.keeps.trans k.keeps, k.base.trans h.base, fun n => (k.running n).trans (h.running n)⟩

theorem Homed.foldl {α : Type} {f : State → α → State} (hf : ∀ u a, Homed u (f u a)) (l : List α) (s : State) : Homed s (l.foldl f s) :=
  foldl_keeps (P := Homed s) (fun u a hu => hu.trans (hf u a)) l s (.refl s)

theorem HomeServed.homed {s t : State} (h : HomeServed s t) : Homed s t := by
  have hcor : t.cor = s.cor := h.keeps .cor (by decide)
  exact ⟨h.keeps.mono (by decide), h.base, fun n => by rw [hcor]⟩

theorem Keeps.homed {l : List Part} {s t : State} (h : Keeps l s t) (hl : ∀ p ∈ l, p ∈ servedParts ∧ p ≠ .rgn) : Homed s t :=
  (h.homeServed hl).homed

theorem Cor.core_set (c : Cor) (n m : Nat) (x : CoreSt) :
    (({ cores := c.cores.set n x } : Cor).core m) = if m = n then x else c.core m := by
  unfold Cor.core AL.getD
  split
  · rename_i h
    rw [h, AL.get_set_same]
    rfl
  · rename_i h
    rw [AL.get_set_ne _ h]

theorem State.coreWaits_homed (s : State) (t : Txn) (w : Bool) : Homed s (s.coreWaits t w) := by
  refine ⟨(s.coreWaits_keeps t w).mono (by decide), congrArg Rgn.hdmBase (s.coreWaits_keeps t w .rgn (by decide) :), fun m => ?_⟩
  unfold State.coreWaits
  split
  · rename_i n _ _
    split
    · rename_i c hc
      dsimp only
      rw [Cor.core_set]
      split
      · rename_i hm
        rw [hm, Cor.core, AL.getD, hc]
        rfl
      · rfl
    · rfl
  · rfl

theorem runTxn_homed (n : Nat) : ∀ (s : State) (t : Txn), Homed s (runTxn n s t) := by
  have hcoh : ∀ (u : State) (c : Coh), Homed u { u with coh := c } := fun u c => (u.cohOnly_keeps c).homed (by decide)
  induction n with
  | zero =>
    intro s t
    have hserved := (s.serveTxn_served t).homed
    unfold runTxn
    dsimp only
    split
    · exact (hserved.trans (hcoh _ _)).trans (State.coreWaits_homed _ _ _)
    · exact (hserved.trans (hcoh _ _)).trans (State.coreWaits_homed _ _ _)
    · exact hserved.trans (State.coreWaits_homed _ _ _)
  | succ n ih =>
    intro s t
    have hserved := (s.serveTxn_served t).homed
    unfold runTxn
    dsimp only
    split
    · exact (hserved.trans (hcoh _ _)).trans (State.coreWaits_homed _ _ _)
    · exact (hserved.trans (hcoh _ _)).trans (State.coreWaits_homed _ _ _)
    · refine (hserved.trans (State.coreWaits_homed _ t false)).trans ?_
      split
      · exact (hcoh _ _).trans (ih _ _)
      · exact .refl _

theorem State.nextTxn_homed (s : State) (t : Txn) : Homed s (s.nextTxn t) := by
  unfold State.nextTxn
  split
  · exact ((s.cohOnly_keeps _).homed (by decide)).trans (runTxn_homed _ _ _)
  · exact .refl s

/-! ### Cores that stop -/

/-- A core that does not run leaves its low-power state alone. -/
theorem State.setCore_stopped (s : State) (n : Nat) {c : CoreSt} (h : c.running = false) :
    s.setCore n c = { s with cor := { cores := s.cor.cores.set n c } } := by
  unfold State.setCore
  simp [h]

/-- The part of a core's stop before the requests that waited for its lines go on (R544). -/
def State.coreOff (s : State) (n : Nat) (mem : Mem) (coh : Coh) : State :=
  ({ s with mem := mem, coh := coh }).setCore n { (s.cor.core n) with running := false, sleeping := false, waiting := false }

theorem State.coreOff_keeps (s : State) (n : Nat) (mem : Mem) (coh : Coh) : Keeps [.mem, .coh, .cor] s (s.coreOff n mem coh) := by
  rw [State.coreOff, State.setCore_stopped _ _ rfl]
  exact .of_patch rfl

theorem State.stopCore_keeps (s : State) (n : Nat) : Keeps homeParts s (s.stopCore n) :=
  ((s.coreOff_keeps n _ _).mono (by decide)).trans (Homed.foldl (fun u t => u.nextTxn_homed t) _ _).keeps

theorem State.stopCore_base (s : State) (n : Nat) : (s.stopCore n).rgn.hdmBase = s.rgn.hdmBase :=
  (Homed.foldl (fun u t => u.nextTxn_homed t) _ _).base.trans (congrArg Rgn.hdmBase (s.coreOff_keeps n _ _ .rgn (by decide) :))

theorem State.stopCores_keeps (s : State) : Keeps homeParts s s.stopCores := Keeps.foldl (fun u n => u.stopCore_keeps n) _ s

theorem State.stopCores_base (s : State) : s.stopCores.rgn.hdmBase = s.rgn.hdmBase :=
  foldl_keeps (P := fun u : State => u.rgn.hdmBase = s.rgn.hdmBase) (fun u n hu => (u.stopCore_base n).trans hu) _ s rfl

/-- The core stops, and the others go on or not as before. -/
theorem State.stopCore_running (s : State) (n m : Nat) :
    ((s.stopCore n).cor.core m).running = (decide (m ≠ n) && (s.cor.core m).running) := by
  have hoff : ∀ mem coh, ((s.coreOff n mem coh).cor.core m).running = (decide (m ≠ n) && (s.cor.core m).running) := by
    intro mem coh
    rw [State.coreOff, State.setCore_stopped _ _ rfl]
    dsimp only
    rw [Cor.core_set]
    split
    · rename_i h
      simp [h]
    · rename_i h
      simp [h]
  exact ((Homed.foldl (fun u t => u.nextTxn_homed t) _ _).running m).trans (hoff _ _)

theorem stopCores_foldl_running (m : Nat) : ∀ (l : List Nat) (s : State),
    ((l.foldl (fun s n => s.stopCore n) s).cor.core m).running = (decide (m ∉ l) && (s.cor.core m).running)
  | [], s => by simp
  | n :: l, s => by
    rw [List.foldl_cons, stopCores_foldl_running m l, State.stopCore_running]
    by_cases hn : m = n <;> by_cases hl : m ∈ l <;> simp [hn, hl]

/-- Every core that runs is among those that stop. -/
theorem State.stopCores_running (s : State) (m : Nat) : (s.stopCores.cor.core m).running = false := by
  unfold State.stopCores
  rw [stopCores_foldl_running]
  by_cases hrun : (s.cor.core m).running = true
  · unfold Cor.core AL.getD at hrun
    cases hget : s.cor.cores.get m with
    | none =>
      rw [hget] at hrun
      cases hrun
    | some c =>
      rw [hget] at hrun
      obtain ⟨x, hx, rfl⟩ := Option.map_eq_some_iff.1 hget
      have hkey : x.1 = m := by simpa using List.find?_some hx
      have hmem : m ∈ (s.cor.cores.filter (·.2.running)).map (·.1) :=
        List.mem_map.2 ⟨x, List.mem_filter.2 ⟨List.mem_of_find?_eq_some hx, hrun⟩, hkey⟩
      simp [hmem]
  · simp [hrun]

end Sys2Proof.Machine
end

section
/-! SUPPORT. RESET_N low: the step in progress ends or is owed, work stops, and the blocks are reset (R328, R355, R469, R577 to
R580). -/

namespace Sys2Proof.Machine

/-! ### The step in progress -/

/-- What of the training state a warm reset keeps (R580). -/
def Trn.lasting (t : Trn) : Trn := { t with updates := [], referees := [], repairing := [] }

/-- The vote that a device has recorded stays with the device (R336). -/
def State.lasts (s : State) : Trn × Option VoteRecord := (s.trn.lasting, s.stp.vote)

theorem Keeps.lasts {l : List Part} {s t : State} (h : Keeps l s t) (hl : .trn ∉ l ∧ .stp ∉ l) : t.lasts = s.lasts := by
  have htrn : t.trn = s.trn := h .trn hl.1
  have hstp : t.stp = s.stp := h .stp hl.2
  rw [State.lasts, htrn, hstp]
  rfl

theorem Stp.moveWord_vote (p : Stp) (tag : Nat) (w : WordState) : (p.moveWord tag w).vote = p.vote := by
  unfold Stp.moveWord
  split <;> rfl

theorem State.abortQueued_lasts (s : State) : s.abortQueued.lasts = s.lasts := by
  unfold State.abortQueued
  split
  · rfl
  · exact Prod.ext rfl (Stp.moveWord_vote _ _ _)

theorem State.endStep_lasts (s : State) (code cls : Nat) (ls : Int) : (s.endStep code cls ls).lasts = s.lasts := by
  unfold State.endStep
  split
  · rfl
  · rename_i st _
    extract_lets code' _ _ t'' _ v u
    have hvote : t''.vote = s.stp.vote := by
      simp only [t'']
      split
      · rfl
      · exact Stp.moveWord_vote _ _ _
    have hu : u.lasts = s.lasts := by
      have hv : v.lasts = s.lasts := Prod.ext rfl hvote
      simp only [u]
      split
      · exact hv
      · exact v.abortQueued_lasts.trans hv
    exact hu

theorem State.endFree_lasts (s : State) (code : Nat) : (s.endFree code).lasts = s.lasts := by
  unfold State.endFree
  split
  · rfl
  · exact s.endStep_lasts _ _ _

theorem State.undefineOutputs_keeps (s : State) (st : Step) : Keeps [.mem, .coh, .out, .fresh] s (s.undefineOutputs st) := by
  unfold State.undefineOutputs
  split
  · exact .refl _ s
  · exact Keeps.foldl (fun u t => Keeps.foldl (fun u c => Keeps.foldl (fun u x => u.undefineVa_keeps _ _) _ u) _ u) _ s

/-- The parts that the end of the step in progress can change. -/
def parkParts : List Part := [.out, .fresh, .att, .mem, .coh, .stp, .trn, .eng, .fab, .gld, .obs]

/-- The steps that a warm reset aborts have ended (R328, R334). -/
def State.stepsEnded (s : State) : State :=
  let free := fun (q : Option Step) => match q with | some x => x.verdictFree | none => false
  let s := if free s.stp.queued then s.abortQueued else s
  match s.stp.active with
  | some st => if st.verdictFree then (s.undefineOutputs st).endFree cABORTED else s
  | none => s

theorem State.stepsEnded_keeps (s : State) : Keeps parkParts s s.stepsEnded ∧ s.stepsEnded.lasts = s.lasts := by
  unfold State.stepsEnded
  extract_lets free u
  have hu : Keeps parkParts s u ∧ u.lasts = s.lasts := by
    simp only [u]
    split
    · exact ⟨s.abortQueued_keeps.mono (by decide), s.abortQueued_lasts⟩
    · exact ⟨.refl _ s, rfl⟩
  obtain ⟨hkeeps, hlasts⟩ := hu
  clear_value u
  split
  · rename_i st _
    split
    · have hundefined := u.undefineOutputs_keeps st
      exact ⟨(hkeeps.trans (hundefined.mono (by decide))).trans ((State.endFree_keeps _ _).mono (by decide)),
        (State.endFree_lasts _ _).trans ((hundefined.lasts (by decide)).trans hlasts)⟩
    · exact ⟨hkeeps, hlasts⟩
  · exact ⟨hkeeps, hlasts⟩

/-- The step is ended or owed; what is not the step's stays (R355). -/
theorem State.parkStep_keeps (s : State) : Keeps parkParts s s.parkStep ∧ s.parkStep.lasts = s.lasts ∧ s.parkStep.stp.active = none := by
  obtain ⟨hkeeps, hlasts⟩ := s.stepsEnded_keeps
  exact ⟨hkeeps.trans (.of_patch rfl), hlasts, rfl⟩

/-! ### The blocks come to rest -/

theorem State.finishProg_keeps (s : State) (code : Nat) (d : Bytes) : Keeps [.mbx] s (s.finishProg code d) := by
  unfold State.finishProg
  split
  · exact .refl _ s
  · exact Keeps.trans (.of_patch rfl) (State.drainUndefined_keeps _)

theorem State.settleBias_keeps (s : State) : Keeps [.out, .mbx, .rgn, .coh] s s.settleBias := by
  unfold State.settleBias
  split
  · dsimp only
    split
    · exact .refl _ s
    · split
      · exact .of_patch rfl
      · exact Keeps.trans (.of_patch rfl) ((State.finishProg_keeps _ _ _).mono (by decide))
  · exact .refl _ s

/-- The parts that change where a device comes to rest. -/
def quietParts : List Part := [.out, .mbx, .mem, .rgn, .coh, .cor, .obs]

/-- Work has stopped: the caches and the write-combining entries are in memory, the stacks in self-refresh, and the host's
side is lost (R469, R577). -/
theorem State.quiesce_keeps (s : State) : Keeps quietParts s s.quiesce ∧ s.quiesce.mem.wc = []
    ∧ s.quiesce.mem.selfRefresh = List.range 24 ∧ s.quiesce.rgn.hdmBase = none := by
  unfold State.quiesce
  extract_lets u wbs mem v
  have hu : Keeps quietParts s u := s.stopCores_keeps.mono (by decide)
  have hlost : Keeps quietParts u ({ u with mem := mem } : State).fence.dropHostCopies := .of_patch rfl
  have hbias := ({ u with mem := mem } : State).fence.dropHostCopies.settleBias_keeps
  have hwc : v.mem.wc = [] := congrArg Mem.wc (hbias .mem (by decide))
  have hv : Keeps quietParts s v := (hu.trans hlost).trans (hbias.mono (by decide))
  clear_value v
  exact ⟨hv.trans (.of_patch rfl), hwc, rfl, rfl⟩

/-- The always-on domain once the blocks have been reset. -/
def Aon.halted (a : Aon) : Aon := { a with primary := .rom, mate := .off, lowPower := [] }

/-- Steps 1 to 4 of R577: what R580 keeps. -/
structure Halted (s t : State) : Prop where
  aon : t.aon = s.aon.halted
  plans : t.pln.plans = s.pln.plans
  trn : t.trn = s.trn.lasting
  vote : t.stp.vote = s.stp.vote
  active : t.stp.active = none
  rest : Keeps [.pending, .out, .fresh, .aon, .att, .dev, .mem, .rgn, .pln, .stp, .trn, .fab, .gld] State.reset t
  dev : t.dev = { Dev.reset with joined := s.dev.joined }
  ports : t.fab.ports = []
  wc : t.mem.wc = []
  selfRefresh : t.mem.selfRefresh = List.range 24
  hdmBase : t.rgn.hdmBase = none

theorem State.halt_halted (s : State) : Halted s s.halt := by
  obtain ⟨hpark, hlasts, hactive⟩ := s.parkStep_keeps
  obtain ⟨hquiet, hwc, hrefresh, hhdm⟩ := s.parkStep.quiesce_keeps
  obtain ⟨htrn, hvote⟩ := Prod.ext_iff.1 hlasts
  have haon : s.parkStep.quiesce.aon = s.aon := (hquiet .aon (by decide)).trans (hpark .aon (by decide))
  have hdev : s.parkStep.quiesce.dev = s.dev := (hquiet .dev (by decide)).trans (hpark .dev (by decide))
  have hpln : s.parkStep.quiesce.pln = s.pln := (hquiet .pln (by decide)).trans (hpark .pln (by decide))
  have hstp : s.parkStep.quiesce.stp = s.parkStep.stp := hquiet .stp (by decide)
  have htrn' : s.parkStep.quiesce.trn = s.parkStep.trn := hquiet .trn (by decide)
  unfold State.halt
  generalize s.parkStep.quiesce = u at haon hdev hpln hstp htrn' hwc hrefresh hhdm ⊢
  exact {
    aon := congrArg Aon.halted haon
    plans := (congrArg Pln.plans hpln :)
    trn := (congrArg Trn.lasting htrn').trans htrn
    vote := (congrArg Stp.vote hstp).trans hvote
    active := (congrArg Stp.active hstp).trans hactive
    rest := .of_patch rfl
    dev := congrArg (fun d : Dev => { Dev.reset with joined := d.joined }) hdev
    ports := rfl
    wc := hwc
    selfRefresh := hrefresh
    hdmBase := hhdm }

/-! ### RESET_N low -/

theorem execWarmReset_halts {s : State} (hpwr : s.aon.pwrgd = true) (hn : s.aon.resetN = true) (hcool : s.dev.failCause ≠ some .thermal)
    (htick : s.aon.tickOn = true) (hmode : s.dev.mode = .ready) (hstart : s.dev.starting = none) :
    exec .warmReset s = .next { s.halt with aon := { s.halt.aon with resetN := false, resetWait := true } } := by
  have hup : s.startingUp = none := by simp [State.startingUp, hmode, hstart]
  refine congrArg Host.Outcome.next ((if_neg (by simp [hpwr, hn])).trans ((if_neg (by simpa [State.burnt] using hcool)).trans ?_))
  dsimp only
  rw [hup]
  exact (if_neg (by simp [htick])).trans (if_neg (by simp [hmode]))

theorem execWarmReset_again {s : State} {x : Starting} (hpwr : s.aon.pwrgd = true) (hn : s.aon.resetN = true)
    (hcool : s.dev.failCause ≠ some .thermal) (hup : s.startingUp = some x) (hcold : x.cold = true) :
    exec .warmReset s = .next { s.unpowered with aon := { s.unpowered.aon with pwrgd := true, resetN := false, coldArmed := true } } := by
  obtain ⟨step, cold⟩ := x
  subst hcold
  refine congrArg Host.Outcome.next ((if_neg (by simp [hpwr, hn])).trans ((if_neg (by simpa [State.burnt] using hcool)).trans ?_))
  dsimp only
  rw [hup]

/-- Settles O8: a READY device is halted, and a cold start under way loses all that goes without power. -/
theorem warmResetHalts : Obligations.WarmResetHalts := by
  unfold Obligations.WarmResetHalts
  intro s hpwr hn hcool htick
  refine ⟨fun hmode hstart => ?_, fun x hup hcold => ?_⟩
  · have h := s.halt_halted
    refine ⟨_, execWarmReset_halts hpwr hn hcool htick hmode hstart, rfl, rfl, ?_⟩
    generalize s.halt = t at h ⊢
    have haon : ∀ {α : Type} (f : Aon → α), f t.aon = f s.aon.halted := fun f => congrArg f h.aon
    have htrn : ∀ {α : Type} (f : Trn → α), f t.trn = f s.trn.lasting := fun f => congrArg f h.trn
    have hrest : ∀ {p : Part}, p ∉ [Part.pending, .out, .fresh, .aon, .att, .dev, .mem, .rgn, .pln, .stp, .trn, .fab, .gld] →
        p.same State.reset t := fun hp => h.rest _ hp
    have hmbx : t.mbx = Mbx.reset := hrest (p := .mbx) (by decide)
    have hdma : t.dma = Dma.reset := hrest (p := .dma) (by decide)
    have hcor : t.cor = Cor.reset := hrest (p := .cor) (by decide)
    have hobs : t.obs = Obs.reset := hrest (p := .obs) (by decide)
    have hhst : t.hst = Hst.reset := hrest (p := .hst) (by decide)
    exact ⟨by simp [State.powered], by simp [State.serves], congrArg Dev.mode h.dev, haon Aon.tick, haon Aon.fzRollback, haon Aon.banks, h.plans,
      htrn Trn.shards, htrn Trn.sel, htrn Trn.resSel, htrn Trn.commit, htrn Trn.ring, h.vote, h.active,
      congrArg Mbx.cells hmbx, congrArg Mbx.latch hmbx, congrArg Dma.chans hdma, congrArg Cor.cores hcor, congrArg Obs.ctrs hobs,
      h.ports, h.wc, h.selfRefresh, h.hdmBase, congrArg Hst.link hhst⟩
  · refine ⟨_, execWarmReset_again hpwr hn hcool hup hcold, rfl, rfl, rfl, rfl, rfl, ?_, ?_⟩
    · exact (congrArg Aon.banks s.unpowered_aon :)
    · exact (congrArg Aon.fzRollback s.unpowered_aon :)

end Sys2Proof.Machine
end

section
/-! SUPPORT. Counters: CTR_CONFIG and CTR_SNAPSHOT (R612, R615, R617 to R619). -/

namespace Sys2Proof.Machine

/-! ### Entries applied -/

/-- An entry applied to the counters (R615). -/
def applyEntry (l : AL Counter) (e : Nat) : AL Counter := l.set (ctrOf e) ⟨bits e 11 10, bits e 23 12, bits e 39 24, 0, false⟩

theorem applyEntries_cons (l : AL Counter) (e : Nat) (es : List Nat) : applyEntries l (e :: es) = applyEntries (applyEntry l e) es := rfl

theorem applyEntries_append (l : AL Counter) (es fs : List Nat) : applyEntries l (es ++ fs) = applyEntries (applyEntries l es) fs :=
  List.foldl_append

/-- A counter that no entry names stays. -/
theorem applyEntries_get_other {n : Nat} : ∀ {es : List Nat} {l : AL Counter}, n ∉ es.map ctrOf → (applyEntries l es).get n = l.get n
  | [], _, _ => rfl
  | e :: es, l, h => by
    obtain ⟨hne, hrest⟩ := not_or.1 (fun hn => h (List.mem_cons.2 hn))
    rw [applyEntries_cons, applyEntries_get_other hrest, applyEntry, AL.get_set_ne l hne]

/-- The last entry that names a counter is in force. -/
theorem applyEntries_get_last {l : AL Counter} {xs r : List Nat} {e : Nat} (h : ctrOf e ∉ r.map ctrOf) :
    (applyEntries l (xs ++ e :: r)).get (ctrOf e) = some ⟨bits e 11 10, bits e 23 12, bits e 39 24, 0, false⟩ := by
  rw [applyEntries_append, applyEntries_cons, applyEntries_get_other h, applyEntry, AL.get_set_same]

/-- Entries that are legal, and that no unit lacks selectors for, are applied. -/
theorem ctrConfigBody_applies {q : Req} {s : State} {es : List Nat} (hmin : 1 ≤ es.length) (hmax : es.length ≤ 246)
    (hcount : q.f 0 2 = es.length) (hzero : q.zb 2 14 = true)
    (hes : es = (List.range es.length).map fun i => q.f (0x10 + 8 * i) 8) (hok : es.all ctrEntryOk = true)
    (hsel : selectorsOk (applyEntries s.obs.ctrs es) = true) :
    ctrConfigBody q s = ({ s with obs := { s.obs with ctrs := applyEntries s.obs.ctrs es } }, rcode cOK) := by
  have hne : es ≠ [] := List.ne_nil_of_length_pos hmin
  unfold ctrConfigBody
  rw [hcount]
  dsimp only
  rw [← hes, if_neg (by simp [hok, hzero, hne, hmax]), if_pos hsel]

/-! ### Snapshots -/

/-- Counters that count what the rules fix stay when the others take free values. -/
theorem State.settleCtrs_spec (s : State) :
    Keeps [.obs, .fresh] s s.settleCtrs ∧ s.settleCtrs.obs.snapSeq = s.obs.snapSeq ∧ s.settleCtrs.obs.snaps = s.obs.snaps
      ∧ ∀ i, ctrFree s.obs.ctrs 1024 i = false → s.settleCtrs.obs.ctrs.get i = s.obs.ctrs.get i := by
  refine foldl_keeps (P := fun t : State => Keeps [.obs, .fresh] s t ∧ t.obs.snapSeq = s.obs.snapSeq ∧ t.obs.snaps = s.obs.snaps
    ∧ ∀ i, ctrFree s.obs.ctrs 1024 i = false → t.obs.ctrs.get i = s.obs.ctrs.get i) (fun t e ht => ?_) _ _
      ⟨.refl _ s, rfl, rfl, fun _ _ => rfl⟩
  obtain ⟨hkeeps, hseq, hsnaps, hget⟩ := ht
  split
  · rename_i hfree
    refine ⟨hkeeps.trans (.of_patch rfl), hseq, hsnaps, fun i hi => ?_⟩
    have hne : i ≠ e.1 := fun hie => by simp [hie, hfree] at hi
    exact (AL.get_set_ne _ hne _).trans (hget i hi)
  · exact ⟨hkeeps, hseq, hsnaps, hget⟩

/-- The snapshot that is taken (R617). -/
def State.snapshot (s : State) : Snapshot := ⟨(s.obs.snapSeq + 1).toNat, s.aon.tick.toNat, s.settleCtrs.obs.ctrs⟩

/-- The device with its snapshot kept in a slot. -/
def State.snapped (s : State) (k : Nat) : State :=
  { s.settleCtrs with obs := { s.settleCtrs.obs with snapSeq := s.obs.snapSeq + 1, snaps := s.obs.snaps.set k s.snapshot } }

theorem State.snapped_keeps (s : State) (k : Nat) : Keeps [.obs, .fresh] s (s.snapped k) :=
  s.settleCtrs_spec.1.trans (.of_patch rfl)

theorem Snapshot.bytes_length (p : Snapshot) : p.bytes.length = 8256 := by
  simp only [Snapshot.bytes, List.length_append, List.length_flatMap, leBytes_length, zeros_length, List.map_const', List.length_range,
    List.sum_replicate, smul_eq_mul]

/-- The snapshot is written where an address is given. -/
def State.snapWritten (s : State) (k va : Nat) : State :=
  if va = 0 then s.snapped k else ((s.snapped k).writeVa va s.snapshot.bytes).fence

/-- CTR_SNAPSHOT with an accessible range, or none, takes its snapshot. -/
theorem ctrSnapshotBody_takes {q : Req} {s : State} {va : Nat} (hva : va = q.f 8 8) (hzero : q.rz 0 1 7 4 = true)
    (hpad : q.zb 1 7 = true) (hvaOk : vaOk va = true) (halign : va % 64 = 0)
    (hacc : va ≠ 0 → (s.rgn.inWritable va 8256).isSome = true ∧ Accessible s va 8256 true) :
    ctrSnapshotBody q s = (s.snapWritten (bits (q.f 0 1) 3 0) va,
      some (cOK, leBytes 4 s.snapshot.seq ++ zeros 4 ++ leBytes 8 s.snapshot.tick)) := by
  obtain ⟨hkeeps, hseq, hsnaps, -⟩ := s.settleCtrs_spec
  have haccess : (if va = 0 then .ok s else s.cmdAccess va 8256 true cBAD_ARG) = (.ok s : Except (Nat × State) State) := by
    split
    · rfl
    · rename_i hne
      exact (hacc hne).2.cmdAccess _
  have hmapped : ¬(va ≠ 0 && (s.rgn.inWritable va 8256).isNone) = true := by
    by_cases h0 : va = 0
    · simp [h0]
    · obtain ⟨r, hr⟩ := Option.isSome_iff_exists.1 (hacc h0).1
      simp [hr]
  unfold ctrSnapshotBody
  dsimp only
  rw [← hva, if_neg (by simp [hzero, hpad, hvaOk, halign]), if_neg hmapped, haccess]
  dsimp only
  rw [hseq, hsnaps, show s.settleCtrs.aon.tick = s.aon.tick from congrArg Aon.tick (hkeeps .aon (by decide))]
  rfl

/-- What the write of the snapshot leaves as it was. -/
theorem State.snapWritten_keeps (s : State) (k va : Nat) :
    Keeps [.obs, .fresh, .mem, .coh, .out, .rgn] s (s.snapWritten k va) ∧ (s.snapWritten k va).obs = (s.snapped k).obs := by
  have hkeeps := s.snapped_keeps k
  unfold State.snapWritten
  split
  · exact ⟨hkeeps.mono (by decide), rfl⟩
  · have hwrite : Keeps [.mem, .coh, .out, .rgn] (s.snapped k) ((s.snapped k).writeVa va s.snapshot.bytes).fence :=
      (State.writeVa_keeps _ _ _).trans ((State.fence_keeps _).mono (by decide))
    exact ⟨(hkeeps.mono (by decide)).trans (hwrite.mono (by decide)), hwrite .obs (by decide)⟩

/-- A snapshot with an address writes its 8,256 bytes there and nowhere else. -/
theorem State.snapWritten_rewrites {s u : State} {k va : Nat} (hacc : Accessible s va 8256 true) (h : Rewrites (fun _ => False) s u)
    (hva : va ≠ 0) : Rewrites (s.storesTo va 8256) s (u.snapWritten k va) := by
  have hsnapped : Rewrites (fun _ => False) s (u.snapped k) := h.trans ((u.snapped_keeps k).rewrites (by decide) h.sound)
  have hwrite := hacc.writeVa_rewrites u.snapshot.bytes_length hsnapped
  unfold State.snapWritten
  rw [if_neg hva]
  exact (hwrite.mono fun a ha => ha.resolve_left id).trans ((State.fence_rewrites hwrite.sound).mono fun _ ha => ha.elim)

/-- Settles O19: entries are applied in order, so the last one for a counter is in force; a snapshot gives free values only to counters
that count what the rules leave open, and is written to its own range. -/
theorem countersKept : Obligations.CountersKept := by
  unfold Obligations.CountersKept
  refine ⟨fun s k es hInv hserved hmin hmax hcount hzero hes hok hsel => ?_,
    fun s k va hInv hserved hva hzero hpad hvaOk halign hacc => ?_⟩
  · have hbody := ctrConfigBody_applies (s := s.taken k) hmin hmax hcount hzero hes hok hsel
    obtain ⟨hreplied, hkeeps⟩ := hserved.take_replied hInv.mbx hbody (by decide) rfl
    have hobs : _ = { s.obs with ctrs := applyEntries s.obs.ctrs es } := hkeeps .obs (by decide)
    have hctrs := congrArg Obs.ctrs hobs
    refine ⟨_, rfl, hreplied, ((s.taken_keeps k).mono (by decide)).trans (Keeps.trans (.of_patch rfl) (hkeeps.mono (by decide))), ?_,
      fun n hn => ?_, fun l e r hsplit hr => ?_⟩
    · rw [hobs]
    · rw [hctrs]
      exact applyEntries_get_other hn
    · rw [hctrs]
      subst hsplit
      exact applyEntries_get_last hr
  · have hbody := ctrSnapshotBody_takes (s := s.taken k) hva hzero hpad hvaOk halign hacc
    obtain ⟨hframe, hsnap⟩ := (s.taken k).snapWritten_keeps (bits ((s.asks k).f 0 1) 3 0) va
    obtain ⟨hreplied, hkeeps⟩ := hserved.take_replied hInv.mbx hbody (by decide) (hframe .mbx (by decide))
    have hobs : _ = ((s.taken k).snapped (bits ((s.asks k).f 0 1) 3 0)).obs := (hkeeps .obs (by decide) :).trans hsnap
    have htaken : Rewrites (fun _ => False) s (s.taken k) := (s.taken_keeps k).rewrites (by decide) hInv.sound
    refine ⟨_, (s.taken k).snapshot, rfl, ?_, rfl, rfl, ?_, ?_, hreplied, fun i hi => ?_, fun h0 => ?_, fun hne => ?_⟩
    · rw [hobs]
      exact AL.get_set_same _ _ _
    · rw [hobs]
      rfl
    · rw [hobs]
      rfl
    · rw [hobs]
      exact (s.taken k).settleCtrs_spec.2.2.2 i hi
    · have hframe : Keeps [.obs, .fresh] (s.taken k) ((s.taken k).snapWritten (bits ((s.asks k).f 0 1) 3 0) va) := by
        rw [State.snapWritten, if_pos h0]
        exact State.snapped_keeps _ _
      have hall : Keeps [.mbx, .aon, .obs, .fresh] s (s.take k (·.opcode == 0x0802) ctrSnapshotBody) :=
        ((s.taken_keeps k).mono (by decide)).trans ((hframe.mono (by decide)).trans (hkeeps.mono (by decide)))
      exact ⟨hall .mem (by decide), hall⟩
    · have hwrite := State.snapWritten_rewrites (k := bits ((s.asks k).f 0 1) 3 0) (hacc hne).2 htaken hne
      exact (hwrite.trans (hkeeps.rewrites (by decide) hwrite.sound)).bytes

end Sys2Proof.Machine
end

section
/-! SUPPORT. DEVICE_RESET of kind CONTEXT: what it removes and what it keeps (R516, R580). -/

namespace Sys2Proof.Machine

/-! ### Channels -/

theorem AL.get_map {α β : Type} (f : α → β) (l : AL α) (k : Nat) : AL.get (l.map fun c => (c.1, f c.2)) k = (l.get k).map f := by
  unfold AL.get
  rw [List.find?_map, Option.map_map, Option.map_map]
  rfl

/-- A channel whose transfers all end (R516). -/
def Chan.allEnd (c : Chan) (code : Nat) : Chan :=
  let sh := if c.shadow.valid && !c.shadow.ended then c.shadow.fail code else c.shadow
  let c' := { c with shadow := sh }
  if c'.busy then c'.fail code else c'.promote

/-- Where the transfer in force has ended, and the one behind it too, so has the one that then is in force. -/
theorem Chan.promote_ended {c : Chan} (hactive : c.active.valid = true → c.active.ended = true)
    (hshadow : c.shadow.valid = true → c.shadow.ended = true) : c.promote.active.valid = true → c.promote.active.ended = true := by
  unfold Chan.promote
  split
  · exact hactive
  · exact hshadow

theorem Chan.allEnd_ended (c : Chan) (code : Nat) : (c.allEnd code).active.valid = true → (c.allEnd code).active.ended = true := by
  unfold Chan.allEnd
  extract_lets sh c'
  have hshadow : c'.shadow.valid = true → c'.shadow.ended = true := by
    intro hv
    by_cases hend : c.shadow.valid && !c.shadow.ended
    · simp [c', sh, hend, DmaSet.fail]
    · have hsh : sh = c.shadow := if_neg hend
      rw [show c'.shadow = c.shadow from hsh] at hv ⊢
      simpa [hv] using hend
  clear_value c'
  split
  · exact Chan.promote_ended (fun _ => rfl) hshadow
  · rename_i hbusy
    exact Chan.promote_ended (fun hv => by simpa [Chan.busy, hv] using hbusy) hshadow

theorem Dma.endAll_ended (d : Dma) (code n : Nat) :
    ((d.endAll code).ch n).active.valid = true → ((d.endAll code).ch n).active.ended = true := by
  have hch : (d.endAll code).ch n = ((d.chans.get n).map (Chan.allEnd · code)).getD Chan.reset :=
    congrArg (Option.getD · Chan.reset) (AL.get_map (Chan.allEnd · code) d.chans n)
  rw [hch]
  cases d.chans.get n with
  | none => exact nofun
  | some c => exact c.allEnd_ended code

/-! ### The reset -/

/-- Work has ended, and host memory that backed TIERED regions is free. -/
def State.contextEnded (s : State) : State := ({ s with dma := s.dma.endAll cABORTED }).stopCores.fence.freeBacking

theorem State.contextEnded_keeps (s : State) : Keeps [.out, .fresh, .mem, .rgn, .coh, .dma, .cor, .obs] s s.contextEnded := by
  have hdma := s.setDma_keeps (s.dma.endAll cABORTED)
  have hcores := State.stopCores_keeps { s with dma := s.dma.endAll cABORTED }
  exact (hdma.mono (by decide)).trans ((hcores.mono (by decide)).trans
    (((State.fence_keeps _).mono (by decide)).trans ((State.freeBacking_keeps _).mono (by decide))))

theorem State.contextEnded_base (s : State) : s.contextEnded.rgn.hdmBase = s.rgn.hdmBase :=
  (congrArg Rgn.hdmBase ((State.freeBacking_keeps _ .rgn (by decide)).trans (State.fence_keeps _ .rgn (by decide)) :)).trans
    (State.stopCores_base { s with dma := s.dma.endAll cABORTED })

theorem State.contextEnded_dma (s : State) : s.contextEnded.dma = s.dma.endAll cABORTED := by
  have hcores := State.stopCores_keeps { s with dma := s.dma.endAll cABORTED }
  exact ((State.freeBacking_keeps _ .dma (by decide)).trans (State.fence_keeps _ .dma (by decide))).trans (hcores .dma (by decide))

theorem State.contextEnded_stopped (s : State) (n : Nat) : (s.contextEnded.cor.core n).running = false := by
  have hcor : s.contextEnded.cor = ({ s with dma := s.dma.endAll cABORTED }).stopCores.cor :=
    (State.freeBacking_keeps _ .cor (by decide)).trans (State.fence_keeps _ .cor (by decide))
  rw [hcor]
  exact State.stopCores_running _ n

theorem State.stopCores_none {s : State} (h : s.cor.cores = []) : s.stopCores = s := by
  unfold State.stopCores
  rw [h]
  rfl

theorem State.freeBacking_none {s : State} (h : ∀ r ∈ s.rgn.regions, r.kind ≠ 1) : s.freeBacking = s := by
  have hnone : s.rgn.regions.filter (·.kind == 1) = [] := List.filter_eq_nil_iff.2 fun r hr => by simp [h r hr]
  unfold State.freeBacking
  rw [hnone]
  rfl

/-- With no core at work memory keeps its bytes; with no TIERED region no byte becomes undefined. -/
theorem State.contextEnded_mem {s : State} (h : s.cor.cores = []) : s.contextEnded.mem.cells = s.mem.cells
    ∧ ((∀ r ∈ s.rgn.regions, r.kind ≠ 1) → s.contextEnded.mem.free = s.mem.free) := by
  have hcores : ({ s with dma := s.dma.endAll cABORTED }).stopCores = { s with dma := s.dma.endAll cABORTED } := State.stopCores_none h
  unfold State.contextEnded
  rw [hcores]
  exact ⟨(State.freeBacking_mem _).1, fun hkind =>
    (congrArg (fun t : State => t.mem.free) (State.freeBacking_none (s := ({ s with dma := s.dma.endAll cABORTED }).fence) hkind) :)⟩

/-- The regions, plans, shards, sources, gathers and verdicts of the context are gone (R516, R580). -/
def State.contextCleared (s : State) : State :=
  { s with
    rgn := { Rgn.reset with hdmBase := s.rgn.hdmBase }
    coh := Coh.reset
    mem := { s.mem with
      poison := s.mem.poison.filter fun l => decide (2 ^ 60 ≤ l)
      badLines := s.mem.badLines.map fun (x : Nat × Nat) => (x.1, x.2 + 2 ^ 61)
      bwFloor := Mem.reset.bwFloor, bwCeil := Mem.reset.bwCeil }
    pln := { Pln.reset with lastHandle := s.pln.lastHandle }
    trn := Trn.reset
    stp := { s.stp with vote := none, verdicts := [], notices := [], partVerdicts := [], waitVerdict := [], resume := none }
    gld := Gld.reset
    eng := { Eng.reset with lastTask := s.eng.lastTask }
    fab := { s.fab with
      send := s.fab.send.filter fun c => decide (c.ctx < 1024)
      chains := [], earlyMsgs := [], gatherReqs := [], peerReads := [] } }

/-- Where no window access waits, none is tried again. -/
theorem State.contextReset_eq {s : State} (hheld : s.hst.held = []) : s.contextReset = s.contextEnded.contextCleared :=
  State.retryWindows_idle (s := s.contextEnded.contextCleared) ((congrArg Hst.held (s.contextEnded_keeps .hst (by decide) :)).trans hheld)

/-- The parts that a context reset can change. -/
def contextParts : List Part := [.out, .fresh, .mem, .rgn, .coh, .pln, .stp, .trn, .eng, .fab, .gld, .dma, .cor, .obs]

/-- What a context reset removes, and what of the parts it changes it keeps (R516, R580). -/
structure ContextGone (s t : State) : Prop where
  rgn : t.rgn = { Rgn.reset with hdmBase := s.rgn.hdmBase }
  plans : t.pln.plans = []
  trn : t.trn = Trn.reset
  sources : t.gld.sources = []
  cores : ∀ n, (t.cor.core n).running = false
  dma : t.dma = s.dma.endAll cABORTED
  fs : t.fab.fs = s.fab.fs
  members : t.fab.members = s.fab.members
  words : t.stp.words = s.stp.words
  records : t.stp.records = s.stp.records
  cells : s.cor.cores = [] → t.mem.cells = s.mem.cells
  free : s.cor.cores = [] → (∀ r ∈ s.rgn.regions, r.kind ≠ 1) → t.mem.free = s.mem.free
  rest : Keeps contextParts s t

theorem State.contextReset_gone {s : State} (hheld : s.hst.held = []) : ContextGone s s.contextReset := by
  have hkeeps := s.contextEnded_keeps
  have hfab : s.contextEnded.fab = s.fab := hkeeps .fab (by decide)
  have hstp : s.contextEnded.stp = s.stp := hkeeps .stp (by decide)
  rw [State.contextReset_eq hheld]
  exact {
    rgn := congrArg (fun b => { Rgn.reset with hdmBase := b }) s.contextEnded_base
    plans := rfl
    trn := rfl
    sources := rfl
    cores := s.contextEnded_stopped
    dma := s.contextEnded_dma
    fs := (congrArg Fab.fs hfab :)
    members := (congrArg Fab.members hfab :)
    words := (congrArg Stp.words hstp :)
    records := (congrArg Stp.records hstp :)
    cells := fun hcores => (State.contextEnded_mem hcores).1
    free := fun hcores => (State.contextEnded_mem hcores).2
    rest := (hkeeps.mono (by decide)).trans (.of_patch rfl) }

/-- Settles O18: the body runs the reset at once, and with no window access held nothing meets the empty regions. -/
theorem contextReset : Obligations.ContextReset := by
  unfold Obligations.ContextReset
  intro s k hInv hserved hkind hok hactive hqueued hheld
  have hbody : contextBody (s.asks k) (s.taken k) = ((s.taken k).contextReset, rcode cOK) := by
    have hactive' : (s.taken k).stepActive = false := hactive
    have hqueued' : (s.taken k).stp.queued = none := hqueued
    unfold contextBody
    rw [hok, hactive', hqueued']
    rfl
  have hgone : ContextGone (s.taken k) (s.taken k).contextReset := State.contextReset_gone hheld
  obtain ⟨hreplied, hkeeps⟩ := hserved.take_replied hInv.mbx hbody (by decide) (hgone.rest .mbx (by decide))
  have hrow := hserved.take_row (mine := fun q => q.opcode == 0x0105 && drKind q == 0) (body := contextBody)
    (by simp [hserved.opcode, hkind])
  refine ⟨_, congrArg Host.Outcome.next hrow, hreplied, ?_⟩
  generalize s.take k _ contextBody = t at hkeeps ⊢
  generalize (s.taken k).contextReset = u at hgone hkeeps
  have hrgn : t.rgn = { Rgn.reset with hdmBase := s.rgn.hdmBase } := (hkeeps .rgn (by decide) : t.rgn = u.rgn).trans hgone.rgn
  have htrn : t.trn = Trn.reset := (hkeeps .trn (by decide) : t.trn = u.trn).trans hgone.trn
  have hdma : t.dma = s.dma.endAll cABORTED := (hkeeps .dma (by decide) : t.dma = u.dma).trans hgone.dma
  have hpln : t.pln = u.pln := hkeeps .pln (by decide)
  have hgld : t.gld = u.gld := hkeeps .gld (by decide)
  have hcor : t.cor = u.cor := hkeeps .cor (by decide)
  have hfab : t.fab = u.fab := hkeeps .fab (by decide)
  have hstp : t.stp = u.stp := hkeeps .stp (by decide)
  have hmem : t.mem = u.mem := hkeeps .mem (by decide)
  have hatt : t.att = s.att := (hkeeps .att (by decide) : t.att = u.att).trans (hgone.rest .att (by decide))
  have hdev : t.dev = s.dev := (hkeeps .dev (by decide) : t.dev = u.dev).trans (hgone.rest .dev (by decide))
  rw [hrgn, htrn, hdma, hpln, hgld, hcor, hfab, hstp, hmem]
  exact ⟨rfl, rfl, rfl, rfl, hgone.plans, rfl, rfl, rfl, hgone.sources, hgone.cores, s.dma.endAll_ended cABORTED, hatt, hgone.fs,
    hgone.members, hdev, hgone.words, hgone.records, hgone.cells, hgone.free⟩

end Sys2Proof.Machine
end

section
/-! SUPPORT. The loss of the host's link: the host's copies, its transfers and its registrations go (R469, R569). -/

namespace Sys2Proof.Machine

/-! ### The host's copies -/

/-- The host holds no line, no back-invalidation waits for it, and no request is held. -/
structure Coh.Hostless (c : Coh) : Prop where
  binv : c.binv = []
  dir : ∀ e ∈ c.dir, e.host = false
  unheld : ∀ x ∈ c.txns, x.held = false

theorem State.invalRange_hostless {s : State} (h : s.coh.Hostless) (lo n : Nat) : (s.invalRange lo n).coh.Hostless := by
  obtain ⟨hbinv, hdir, hunheld⟩ := h
  have hheld : s.coh.dir.filter (fun e => e.host && inRange lo n e.line) = [] :=
    List.filter_eq_nil_iff.2 fun e he => by simp [hdir e he]
  refine ⟨?_, fun e he => ?_, hunheld⟩
  · show s.coh.binv.map _ ++ (s.coh.dir.filter _).map _ = []
    rw [hbinv, hheld]
    rfl
  · obtain ⟨x, hx, rfl⟩ := List.mem_map.1 (List.mem_filter.1 he).1
    split
    · rfl
    · exact hdir x hx

theorem State.undefineVa_hostless {s : State} (h : s.coh.Hostless) (va len : Nat) : (s.undefineVa va len).coh.Hostless := by
  refine foldl_keeps (P := fun u : State => u.coh.Hostless) (fun u c hu => ?_) _ s h
  split
  · exact State.invalRange_hostless hu _ _
  · exact hu

theorem State.undefineDst_hostless {s : State} (h : s.coh.Hostless) (sets : List DmaSet) : (s.undefineDst sets).coh.Hostless :=
  foldl_keeps (P := fun u : State => u.coh.Hostless) (fun _ d hu => State.undefineVa_hostless hu d.dst d.dstLen) sets s h

/-- Step 3 of R469 in the caches and the directory. -/
def Coh.hostDropped (c : Coh) : Coh :=
  { c with
    dir := (c.dir.map fun e => { e with host := false, clean := false }).filter fun e =>
      (e.owner.isSome || !e.sharers.isEmpty) && !isHostLine e.line
    cached := c.cached.filter fun c => !isHostLine c.line
    wbs := c.wbs.filter fun c => !isHostLine c.line
    resv := c.resv.filter fun c => !isHostLine c.2
    txns := c.txns.filter fun t => t.who.isSome
    waiting := c.waiting.filter fun t => t.who.isSome
    binv := [] }

theorem Coh.hostDropped_hostless {c : Coh} (h : ∀ x ∈ c.txns, x.held = false) : c.hostDropped.Hostless := by
  refine ⟨rfl, fun e he => ?_, fun x hx => h x (List.mem_filter.1 hx).1⟩
  obtain ⟨_, _, rfl⟩ := List.mem_map.1 (List.mem_filter.1 he).1
  rfl

/-- Where no command of the program is in progress, no flip of bias is lost. -/
theorem State.dropHostCopies_idle {s : State} (h : s.mbx.prog = none) : s.dropHostCopies = { s with coh := s.coh.hostDropped } := by
  have hmbx : ({ s.mbx with prog := none } : Mbx) = s.mbx := congrArg (fun p => ({ s.mbx with prog := p } : Mbx)) h.symm
  unfold State.dropHostCopies
  rw [h]
  exact congrArg (fun m => ({ s with mbx := m, coh := s.coh.hostDropped } : State)) hmbx

/-! ### The transfers that need the host -/

/-- A channel after step 4 of R469. -/
def Chan.dropHost (g : Rgn) (c : Chan) : Chan :=
  let sh := if c.shadow.valid && !c.shadow.ended && g.needsHost c.shadow then c.shadow.fail cHOST_LOST else c.shadow
  let c' := { c with shadow := sh }
  if c'.busy && (c'.usedHost || g.needsHost c'.active) then c'.fail cHOST_LOST else c'

theorem Chan.dropHost_alone {g : Rgn} {c : Chan} (h : c.shadow.valid = false) :
    c.dropHost g = if c.busy && (c.usedHost || g.needsHost c.active) then c.fail cHOST_LOST else c := by
  unfold Chan.dropHost
  rw [h]
  rfl

theorem Chan.fail_alone {c : Chan} (h : c.shadow.valid = false) (code : Nat) : c.fail code = { c with active := c.active.fail code, state := 0 } := by
  unfold Chan.fail Chan.promote
  exact if_pos (by simp [h])

theorem Chan.dropHost_fails {g : Rgn} {c : Chan} (h : c.shadow.valid = false) (hbusy : c.busy = true)
    (hneeds : c.usedHost = true ∨ g.needsHost c.active = true) :
    (c.dropHost g).active = c.active.fail cHOST_LOST ∧ (c.dropHost g).state = 0 := by
  rw [Chan.dropHost_alone h, if_pos (by simpa [hbusy] using hneeds), Chan.fail_alone h]
  exact ⟨rfl, rfl⟩

theorem Chan.dropHost_stays {g : Rgn} {c : Chan} (h : c.shadow.valid = false) (hused : c.usedHost = false)
    (hneeds : g.needsHost c.active = false) : c.dropHost g = c := by
  rw [Chan.dropHost_alone h]
  exact if_neg (by simp [hused, hneeds])

/-- Step 4 of R469 in the channels. -/
def Dma.dropHost (d : Dma) (g : Rgn) : Dma := { chans := d.chans.map fun c => (c.1, c.2.dropHost g) }

theorem Dma.dropHost_ch (d : Dma) (g : Rgn) (n : Nat) : (d.dropHost g).ch n = ((d.chans.get n).map (Chan.dropHost g)).getD Chan.reset :=
  congrArg (Option.getD · Chan.reset) (AL.get_map (Chan.dropHost g) d.chans n)

theorem Dma.dropHost_fails {d : Dma} {g : Rgn} {n : Nat} (h : (d.ch n).shadow.valid = false) (hbusy : (d.ch n).busy = true)
    (hneeds : (d.ch n).usedHost = true ∨ g.needsHost (d.ch n).active = true) :
    ((d.dropHost g).ch n).active = (d.ch n).active.fail cHOST_LOST ∧ ((d.dropHost g).ch n).state = 0 := by
  rw [d.dropHost_ch g n]
  unfold Dma.ch AL.getD at h hbusy hneeds ⊢
  cases hget : d.chans.get n with
  | none =>
    rw [hget] at hbusy
    cases hbusy
  | some c =>
    rw [hget] at h hbusy hneeds
    exact Chan.dropHost_fails h hbusy hneeds

theorem Dma.dropHost_stays {d : Dma} {g : Rgn} {n : Nat} (h : (d.ch n).shadow.valid = false) (hused : (d.ch n).usedHost = false)
    (hneeds : g.needsHost (d.ch n).active = false) : (d.dropHost g).ch n = d.ch n := by
  rw [d.dropHost_ch g n]
  unfold Dma.ch AL.getD at h hused hneeds ⊢
  cases hget : d.chans.get n with
  | none => rfl
  | some c =>
    rw [hget] at h hused hneeds
    exact Chan.dropHost_stays h hused hneeds

/-! ### The registrations -/

theorem Rgn.hostLost_get (g : Rgn) (i : Nat) : g.hostLost.get i = (g.get i).map fun r =>
    { r with reg := r.reg.map fun x => { x with sources := x.sources / 2 * 2 }, stale := r.stale || r.kind != 0 } := by
  unfold Rgn.get Rgn.hostLost
  rw [List.find?_map]
  rfl

/-! ### The sequence -/

/-- Where no request is held and no window access waits, none is tried again. -/
theorem State.retryHeld_unheld {s : State} (hunheld : ∀ x ∈ s.coh.txns, x.held = false) (hheld : s.hst.held = []) : s.retryHeld = s := by
  have hnone : s.coh.txns.filter (·.held) = [] := List.filter_eq_nil_iff.2 fun x hx => by simp [hunheld x hx]
  unfold State.retryHeld
  rw [hnone]
  exact State.retryWindows_idle hheld

/-- Every access that waits at a window is a read of the host, which no one awaits any more. -/
theorem Hst.dropReads_all {h : Hst} (hreads : ∀ v ∈ h.held, v.source = 0 ∧ v.acc.isWrite = false) :
    h.dropReads 0 = { h with held := [] } := by
  have hnone : (h.held.filter fun w => w.source != 0 || w.acc.isWrite) = [] := List.filter_eq_nil_iff.2 fun v hv => by simp [hreads v hv]
  unfold Hst.dropReads
  rw [hnone]

/-- The host's copies are gone, and the transfers that need it have ended. -/
def State.hostGone (s : State) : State := ({ s with coh := s.coh.hostDropped }).dmaHostLost

/-- The port once its link is down (R467). -/
def Hst.lost (h : Hst) (perstN : Bool) : Hst :=
  { h with link := if perstN then .training else .down, width := 0, downs := h.downs + 1, helloSeen := false, held := [] }

/-- What the loss of the host takes and leaves. -/
structure HostGone (s t : State) : Prop where
  hostless : t.coh.Hostless
  dma : t.dma = s.dma.dropHost s.rgn
  mem : (∀ c ∈ s.dma.chans, c.2.hostLost s.rgn = []) → t.mem = s.mem
  rest : Keeps [.mem, .coh, .out, .fresh, .dma] s t

theorem State.hostGone_spec {s : State} (hunheld : ∀ x ∈ s.coh.txns, x.held = false) : HostGone s s.hostGone := by
  refine ⟨State.undefineDst_hostless (s := { s with coh := s.coh.hostDropped }) (Coh.hostDropped_hostless hunheld) _, rfl, fun hnone => ?_, ?_⟩
  · have hsets : s.dma.chans.flatMap (fun c => c.2.hostLost s.rgn) = [] := List.flatMap_eq_nil_iff.2 hnone
    show (State.undefineDst _ (s.dma.chans.flatMap fun c => c.2.hostLost s.rgn)).mem = s.mem
    rw [hsets]
    rfl
  · have hdropped : Keeps [.coh] s { s with coh := s.coh.hostDropped } := s.cohOnly_keeps _
    exact ((hdropped.mono (by decide)).trans ((State.undefineDst_keeps _ _).mono (by decide))).trans ((State.setDma_keeps _ _).mono (by decide))

theorem State.linkLoss_eq {s : State} (hprog : s.mbx.prog = none) (hunheld : ∀ x ∈ s.coh.txns, x.held = false)
    (hreads : ∀ v ∈ s.hst.held, v.source = 0 ∧ v.acc.isWrite = false) :
    s.linkLoss = ({ s.hostGone with rgn := s.rgn.hostLost, hst := s.hst.lost s.aon.perstN }).raise aHOST_LINK 0 noTag 0 1 := by
  obtain ⟨hhostless, -, -, hkeeps⟩ := State.hostGone_spec hunheld
  have hmbx : s.hostGone.mbx = s.mbx := hkeeps .mbx (by decide)
  have hhst : s.hostGone.hst = s.hst := hkeeps .hst (by decide)
  have hrgn : s.hostGone.rgn = s.rgn := hkeeps .rgn (by decide)
  have haon : s.hostGone.aon = s.aon := hkeeps .aon (by decide)
  have hgone : s.dropHostCopies.dmaHostLost.settleBias = s.hostGone := by
    rw [State.dropHostCopies_idle hprog]
    exact State.settleBias_idle (s := s.hostGone) (hmbx.symm ▸ hprog)
  have hdrop : s.hostGone.hst.dropReads 0 = { s.hst with held := [] } := by
    rw [hhst]
    exact Hst.dropReads_all hreads
  unfold State.linkLoss
  rw [hgone]
  dsimp only
  rw [hdrop, State.retryHeld_unheld (s := { s.hostGone with hst := { s.hst with held := [] } }) hhostless.unheld rfl]
  dsimp only
  rw [hrgn, haon]
  rfl

/-- Settles O34: with no request held, the loss is one pass over the copies, the channels and the registrations. -/
theorem hostLinkLost : Obligations.HostLinkLost := by
  unfold Obligations.HostLinkLost
  intro s hpow hlink hprog hunheld hreads
  have hloss : ∀ (cause : LinkLossCause) (u : State), u.powered = true → u.hst.link = .up → exec (.hostLinkLoss cause) u = .next u.linkLoss :=
    fun _ u hu hl => congrArg Host.Outcome.next (if_pos (by simp [hu, hl]))
  refine ⟨fun cause => ⟨_, hloss cause s hpow hlink, ?_⟩, ?_⟩
  · rw [State.linkLoss_eq hprog hunheld hreads]
    obtain ⟨⟨hbinv, hdir, _⟩, hdma, hmem, hkeeps⟩ := State.hostGone_spec hunheld
    have hatt : s.hostGone.att = s.att := hkeeps .att (by decide)
    have haon : s.hostGone.aon = s.aon := hkeeps .aon (by decide)
    generalize s.hostGone = u at *
    refine ⟨rfl, ?_, hbinv, hdir, rfl, rfl, fun i r hi => ?_, fun n hn => ⟨fun h => ?_, fun hused hneeds => ?_⟩, hmem, ?_⟩
    · rw [State.raise_att]
      show u.att.raise u.aon.tick _ _ _ _ _ = _
      rw [hatt, haon]
    · exact (s.rgn.hostLost_get i).trans (by rw [hi]; rfl)
    · show (u.dma.ch n).active = _ ∧ (u.dma.ch n).state = 0
      rw [hdma]
      exact Dma.dropHost_fails hn h.1 h.2
    · show u.dma.ch n = _
      rw [hdma]
      exact Dma.dropHost_stays hn hused hneeds
    · exact (hkeeps.mono (by decide)).trans (.of_patch rfl)
  · have hdown : exec .hostPerstAssert s = .next { ({ s with aon := { s.aon with perstN := false } } : State).linkLoss with
        hst := { ({ s with aon := { s.aon with perstN := false } } : State).linkLoss.hst with link := .down } } := by
      show execHostPerstAssert s = _
      unfold execHostPerstAssert
      rw [hpow, hlink]
      rfl
    refine ⟨_, _, hloss _ _ hpow hlink, hdown, rfl, ?_⟩
    rw [State.linkLoss_eq (s := { s with aon := { s.aon with perstN := false } }) hprog hunheld hreads]
    exact (congrArg Aon.perstN ((State.hostGone_spec (s := { s with aon := { s.aon with perstN := false } }) hunheld).rest .aon (by decide)) :)

end Sys2Proof.Machine
end

section
/-! SUPPORT. A command leaves the queue of waiting commands alone and keeps the invariant: what that asks of each part of the
state, and that the shared operations over memory, mailboxes and attention do so (R264, R498, R500, R517). -/

namespace Sys2Proof.Machine

/-! ### The invariant, part by part -/

/-- What the invariant says of the regions and their tables. -/
structure Rgn.Lawful (g : Rgn) : Prop where
  tbl : g.tbl.wf = true
  ids : (g.regions.map (·.id)).Nodup
  sizes : ∀ r ∈ g.regions, r.id < 64 ∧ r.pages ≤ 2 ^ 26

/-- What the invariant says of the coherence directories. -/
structure Coh.Lawful (c : Coh) : Prop where
  lines : ∀ x ∈ c.cached ++ c.wbs, x.data.length = 64
  fits : ∀ t ∈ c.txns ++ c.waiting, t.op.fits = true

theorem State.Inv.rgn {s : State} (h : s.Inv) : s.rgn.Lawful := ⟨h.tbl, h.ids, h.sizes⟩

theorem State.Inv.coh {s : State} (h : s.Inv) : s.coh.Lawful := ⟨h.lines, h.fits⟩

/-- What the invariant says of the other parts besides. -/
structure State.Laws (s : State) : Prop where
  mem : s.mem.cells.wf = true
  mbx : s.mbx.cells.wf = true
  rgn : s.rgn.Lawful
  coh : s.coh.Lawful
  trace : s.obs.trace.wf = true
  attn : s.att.list.length ≤ 256

theorem State.Inv.laws {s : State} (h : s.Inv) : s.Laws := ⟨h.mem, h.mbx, h.rgn, h.coh, h.trace, h.attn⟩

theorem State.Laws.toInv {s : State} (h : s.Laws) : s.Inv where
  mem := h.mem
  mbx := h.mbx
  tbl := h.rgn.tbl
  ids := h.rgn.ids
  sizes := h.rgn.sizes
  lines := h.coh.lines
  fits := h.coh.fits
  trace := h.trace
  attn := h.attn

/-- From `s` to `t` no command enters or leaves the queue, the invariant is kept, and counters that all stand at their reset values
stay there. -/
structure Steady (s t : State) : Prop where
  queue : t.pending = s.pending
  inv : s.Inv → t.Inv
  ctrs : s.obs.ctrs = [] → t.obs.ctrs = []

/-- From `s` to `t` no command enters or leaves the queue, and the invariant is kept. -/
structure Runs (s t : State) : Prop where
  queue : t.pending = s.pending
  inv : s.Inv → t.Inv

variable {s t u : State}

theorem Steady.runs (h : Steady s t) : Runs s t := ⟨h.queue, h.inv⟩

theorem Runs.trans (h : Runs s t) (k : Runs t u) : Runs s u := ⟨k.queue.trans h.queue, fun hi => k.inv (h.inv hi)⟩

theorem Steady.refl (s : State) : Steady s s := ⟨rfl, id, id⟩

theorem Steady.trans (h : Steady s t) (k : Steady t u) : Steady s u :=
  ⟨k.queue.trans h.queue, fun hi => k.inv (h.inv hi), fun hc => k.ctrs (h.ctrs hc)⟩

/-- An update is steady where every part that it changes stays as the invariant asks. -/
theorem Steady.upd (h : Steady s t) (hqueue : u.pending = t.pending) (hctrs : u.obs.ctrs = t.obs.ctrs) (hu : t.Inv → u.Laws) : Steady s u :=
  h.trans ⟨hqueue, fun hi => (hu hi).toInv, fun hc => hctrs.trans hc⟩

/-- All that a steady update has to answer for. -/
def State.watched (s : State) : List Instr × AL Counter × Store × Store × Rgn × Coh × Store × List AttnEntry :=
  (s.pending, s.obs.ctrs, s.mem.cells, s.mbx.cells, s.rgn, s.coh, s.obs.trace, s.att.list)

/-- An update of what the invariant does not speak of is steady. -/
theorem Steady.same (h : Steady s t) (hw : u.watched = t.watched) : Steady s u := by
  have hmem : u.mem.cells = t.mem.cells := congrArg (·.2.2.1) hw
  have hmbx : u.mbx.cells = t.mbx.cells := congrArg (·.2.2.2.1) hw
  have hrgn : u.rgn = t.rgn := congrArg (·.2.2.2.2.1) hw
  have hcoh : u.coh = t.coh := congrArg (·.2.2.2.2.2.1) hw
  have htrace : u.obs.trace = t.obs.trace := congrArg (·.2.2.2.2.2.2.1) hw
  have hatt : u.att.list = t.att.list := congrArg (·.2.2.2.2.2.2.2) hw
  exact h.upd (congrArg (·.1) hw) (congrArg (·.2.1) hw) fun hi =>
    ⟨hmem ▸ hi.mem, hmbx ▸ hi.mbx, hrgn ▸ hi.rgn, hcoh ▸ hi.coh, htrace ▸ hi.trace, hatt ▸ hi.attn⟩

theorem Steady.setMem {g : Mem} (h : Steady s t) (hg : t.Inv → g.cells.wf = true) : Steady s { t with mem := g } :=
  h.upd rfl rfl fun hi => { hi.laws with mem := hg hi }

theorem Steady.setRgn {g : Rgn} (h : Steady s t) (hg : t.Inv → g.Lawful) : Steady s { t with rgn := g } :=
  h.upd rfl rfl fun hi => { hi.laws with rgn := hg hi }

/-- The parts of which the invariant says nothing. -/
def freeParts : List Part := [.out, .fresh, .aon, .dev, .pln, .stp, .trn, .eng, .fab, .gld, .dma, .hst, .cor]

theorem Steady.keeps {l : List Part} (h : Steady s t) (hk : Keeps l t u) (hl : ∀ p ∈ l, p ∈ freeParts) : Steady s u := by
  have hk := hk.mono hl
  have hqueue : u.pending = t.pending := hk .pending (by decide)
  have hobs : u.obs = t.obs := hk .obs (by decide)
  have hatt : u.att = t.att := hk .att (by decide)
  have hmem : u.mem = t.mem := hk .mem (by decide)
  have hmbx : u.mbx = t.mbx := hk .mbx (by decide)
  have hrgn : u.rgn = t.rgn := hk .rgn (by decide)
  have hcoh : u.coh = t.coh := hk .coh (by decide)
  refine h.same ?_
  unfold State.watched
  rw [hqueue, hobs, hatt, hmem, hmbx, hrgn, hcoh]

theorem Steady.ite {c : Prop} [Decidable c] (ht : Steady s t) (hu : Steady s u) : Steady s (if c then t else u) := by
  split
  · exact ht
  · exact hu

/-- A fold of steady steps is steady. -/
theorem Steady.foldl {α : Type} {f : State → α → State} {l : List α} (h : Steady s t) (hf : ∀ u a, Steady u (f u a)) :
    Steady s (l.foldl f t) :=
  foldl_keeps (P := Steady s) (fun u a hu => hu.trans (hf u a)) l t h

/-- A fold that carries a state and something else. -/
theorem Steady.foldl_fst {α β : Type} {f : State × β → α → State × β} {l : List α} {x : State × β} (h : Steady s x.1)
    (hf : ∀ u a, Steady u.1 (f u a).1) : Steady s (l.foldl f x).1 :=
  foldl_keeps (P := fun y : State × β => Steady s y.1) (fun u a hu => hu.trans (hf u a)) l x h

theorem Steady.foldl_snd {α β : Type} {f : β × State → α → β × State} {l : List α} {x : β × State} (h : Steady s x.2)
    (hf : ∀ u a, Steady u.2 (f u a).2) : Steady s (l.foldl f x).2 :=
  foldl_keeps (P := fun y : β × State => Steady s y.2) (fun u a hu => hu.trans (hf u a)) l x h

/-- A fold that may fail, of steady steps. -/
theorem Steady.foldlM {α : Type} {f : State → α → Option State} (hf : ∀ u a v, f u a = some v → Steady u v) :
    ∀ {l : List α} {t : State}, Steady s t → l.foldlM f t = some u → Steady s u := by
  intro l
  induction l with
  | nil =>
    intro t h hu
    cases hu
    exact h
  | cons a r ih =>
    intro t h hu
    rw [List.foldlM_cons] at hu
    obtain ⟨v, hv, hu⟩ := Option.bind_eq_some_iff.1 hu
    exact ih (h.trans (hf t a v hv)) hu

/-! ### Attention, counters, traces, outputs -/

theorem Obs.put_trace {o : Obs} (h : o.trace.wf = true) (west : Bool) (ty kind unit : Nat) (seq : Option Nat)
    (tick : BitVec 64) (p : Bytes) : (o.put west ty kind unit seq tick p).trace.wf = true := by
  unfold Obs.put
  extract_lets k rec32 base
  split
  · exact h
  · clear_value base rec32
    exact Store.wf_writeN h _

theorem Obs.record_trace {o : Obs} (h : o.trace.wf = true) (cls : Nat) (west : Bool) (ty kind unit : Nat) (tick : BitVec 64)
    (p : Bytes) : (o.record cls west ty kind unit tick p).trace.wf = true := by
  unfold Obs.record
  split
  · exact Obs.put_trace h _ _ _ _ _ _ _
  · exact h

theorem Steady.emit {o : Output} (h : Steady s t) : Steady s (t.emit o) := h.same rfl

theorem Steady.emits {os : List Output} (h : Steady s t) : Steady s (t.emits os) := h.same rfl

theorem Steady.raise {c k g a b : Nat} (h : Steady s t) : Steady s (t.raise c k g a b) :=
  h.upd rfl (Obs.record_ctrs _ _ _ _ _ _ _ _) fun hi => { hi.laws with
      attn := Att.raise_length hi.attn _ _ _ _ _ _, trace := Obs.record_trace hi.trace _ _ _ _ _ _ _ }

theorem Steady.count {e x n : Nat} (h : Steady s t) : Steady s (t.count e x n) :=
  h.trans ⟨rfl, fun hi => State.Laws.toInv { hi.laws with }, fun hc => by
    show countEvent t.obs.ctrs e x n = []
    rw [hc]
    rfl⟩

theorem Steady.trace {c ty k x : Nat} {w : Bool} {p : Bytes} (h : Steady s t) : Steady s (t.trace c w ty k x p) :=
  h.upd rfl (Obs.record_ctrs _ _ _ _ _ _ _ _) fun hi => { hi.laws with trace := Obs.record_trace hi.trace _ _ _ _ _ _ _ }

theorem Steady.wakeBlock {b : LowPowerBlock} (h : Steady s t) : Steady s (t.wakeBlock b) := h.same rfl

/-! ### Coherence directories -/

theorem Coh.Lawful.mono {c c' : Coh} (h : c.Lawful)
    (lines : ∀ x ∈ c'.cached ++ c'.wbs, x.data.length ≠ 64 → x ∈ c.cached ++ c.wbs)
    (fits : ∀ x ∈ c'.txns ++ c'.waiting, x.op.fits = false → x ∈ c.txns ++ c.waiting) :
    c'.Lawful where
  lines x hx := by
    by_contra hlen
    exact hlen (h.lines x (lines x hx hlen))
  fits x hx := by
    by_contra hfits
    exact hfits (h.fits x (fits x hx (by simpa using hfits)))

/-- A directory update leaves the lines and the requests. -/
theorem Coh.setDir_lawful {c : Coh} (h : c.Lawful) (e : DirEntry) : (c.setDir e).Lawful := ⟨h.lines, h.fits⟩

theorem Coh.place_lawful {c : Coh} (h : c.Lawful) (g : Rgn) (r : Region) (first n : Nat) : (c.place g r first n).Lawful := by
  unfold Coh.place
  split
  · exact h
  · exact ⟨h.lines, h.fits⟩

/-- Copies that are dropped, and requests that are, leave what remains as it was. -/
theorem Coh.Lawful.sub {c c' : Coh} (h : c.Lawful) (cached : c'.cached ⊆ c.cached) (wbs : c'.wbs ⊆ c.wbs) (txns : c'.txns ⊆ c.txns)
    (waiting : c'.waiting ⊆ c.waiting) : c'.Lawful :=
  h.mono (fun _ hx _ => List.append_subset.2 ⟨List.Subset.trans cached (List.subset_append_left _ _),
      List.Subset.trans wbs (List.subset_append_right _ _)⟩ hx)
    (fun _ hx _ => List.append_subset.2 ⟨List.Subset.trans txns (List.subset_append_left _ _),
        List.Subset.trans waiting (List.subset_append_right _ _)⟩ hx)

/-- The lists of the directories of which the invariant speaks. -/
def Coh.lists (c : Coh) : List CoreLine × List CoreLine × List Txn × List Txn := (c.cached, c.wbs, c.txns, c.waiting)

theorem Coh.Lawful.same {c c' : Coh} (h : c.Lawful) (he : c'.lists = c.lists) : c'.Lawful := by
  have hcached : c'.cached = c.cached := congrArg (·.1) he
  have hwbs : c'.wbs = c.wbs := congrArg (·.2.1) he
  have htxns : c'.txns = c.txns := congrArg (·.2.2.1) he
  have hwaiting : c'.waiting = c.waiting := congrArg (·.2.2.2) he
  exact ⟨by rw [hcached, hwbs]; exact h.lines, by rw [htxns, hwaiting]; exact h.fits⟩

/-! ### Regions and tables -/

theorem Rgn.Lawful.of_regions {g g' : Rgn} (h : g.Lawful) (hr : g'.regions = g.regions) (ht : g'.tbl.wf = true) : g'.Lawful :=
  ⟨ht, hr ▸ h.ids, hr ▸ h.sizes⟩

/-- Regions that keep their ids and sizes stay lawful. -/
theorem Rgn.Lawful.map {g : Rgn} (h : g.Lawful) {f : Region → Region} (hid : ∀ r, (f r).id = r.id)
    (hp : ∀ r ∈ g.regions, (f r).pages ≤ 2 ^ 26) : ({ g with regions := g.regions.map f } : Rgn).Lawful where
  tbl := h.tbl
  ids := by simpa [Function.comp_def, hid] using h.ids
  sizes r hr := by
    obtain ⟨x, hx, rfl⟩ := List.mem_map.1 hr
    exact ⟨hid x ▸ (h.sizes x hx).1, hp x hx⟩

theorem Rgn.mem_of_get {g : Rgn} {id : Nat} {r : Region} (h : g.get id = some r) : r ∈ g.regions := List.mem_of_find?_eq_some h

theorem Rgn.Lawful.put {g : Rgn} (h : g.Lawful) {r : Region} (hp : r.pages ≤ 2 ^ 26) : (g.put r).Lawful := by
  refine Rgn.Lawful.map h (fun x => ?_) fun x hx => ?_
  · split
    · rename_i hid
      exact (eq_of_beq hid).symm
    · rfl
  · split
    · exact hp
    · exact (h.sizes x hx).2

theorem Rgn.Lawful.pages {g : Rgn} (h : g.Lawful) {id : Nat} {r : Region} (hr : g.get id = some r) : r.pages ≤ 2 ^ 26 :=
  (h.sizes r (Rgn.mem_of_get hr)).2

theorem Region.heatUp_pages (r : Region) (off len : Nat) : (r.heatUp off len).pages = r.pages := by
  unfold Region.heatUp
  split <;> rfl

theorem Rgn.Alike.tbl_wf {g g' : Rgn} (h : g.Alike g') (hw : g.tbl.wf = true) : g'.tbl.wf = true := h.tbl ▸ hw

theorem Rgn.writeAbandons_lawful {g : Rgn} (h : g.Lawful) (id page : Nat) : (g.writeAbandons id page).Lawful :=
  h.of_regions (g.writeAbandons_regions id page) ((g.writeAbandons_alike id page).tbl_wf h.tbl)

theorem Rgn.foldl_lawful {α : Type} {f : Rgn → α → Rgn} (hf : ∀ g a, g.Lawful → (f g a).Lawful) (l : List α) {g : Rgn}
    (h : g.Lawful) : (l.foldl f g).Lawful := foldl_keeps (P := Rgn.Lawful) hf l g h

theorem Rgn.promote_lawful {g : Rgn} (h : g.Lawful) (id page : Nat) : (g.promote id page).Lawful :=
  h.of_regions (g.promote_regions id page) ((g.promote_alike id page).tbl_wf h.tbl)

theorem Rgn.promoteHot_lawful {g : Rgn} (h : g.Lawful) : g.promoteHot.Lawful := by
  refine Rgn.foldl_lawful (fun g r hg => ?_) _ h
  split
  · exact hg
  · exact Rgn.foldl_lawful (fun g x hg => Rgn.promote_lawful hg _ _) _ hg

theorem Rgn.abandonMigration_lawful {g : Rgn} (h : g.Lawful) (id page : Nat) : (g.abandonMigration id page).Lawful :=
  ⟨h.tbl, h.ids, h.sizes⟩

theorem writeEntry_lawful {g : Rgn} (h : g.Lawful) (off v : Nat) : (writeEntry g off v).Lawful :=
  ⟨Store.wf_writeN h.tbl _, h.ids, h.sizes⟩

theorem allocTable_lawful {g g' : Rgn} {lvl o : Nat} (h : g.Lawful) (ha : allocTable g lvl = some (o, g')) : g'.Lawful := by
  obtain ⟨x, -, hx⟩ := Option.map_eq_some_iff.1 ha
  cases hx
  exact ⟨h.tbl, h.ids, h.sizes⟩

theorem fillDemand_lawful {g : Rgn} (h : g.Lawful) (lvl off base lo hi : Nat) : (fillDemand g lvl off base lo hi).Lawful := by
  refine Rgn.foldl_lawful (fun g i hg => ?_) _ h
  dsimp only
  split
  · exact writeEntry_lawful hg _ _
  · exact hg

theorem resolveAt_lawful {r : Region} {m : Mapping} {va target : Nat} : ∀ {lvl off : Nat} {g g' : Rgn}, g.Lawful →
    resolveAt r m va target lvl g off = some g' → g'.Lawful := by
  intro lvl
  induction lvl with
  | zero =>
    intro off g g' h hr
    unfold resolveAt at hr
    dsimp only at hr
    split at hr
    · cases hr
      exact writeEntry_lawful h _ _
    · cases hr
  | succ l ih =>
    intro off g g' h hr
    unfold resolveAt at hr
    dsimp only at hr
    split at hr
    · cases hr
      exact writeEntry_lawful h _ _
    · split at hr
      · exact ih h hr
      · split at hr
        · cases hr
        · rename_i o g₁ halloc
          exact ih (writeEntry_lawful (fillDemand_lawful (allocTable_lawful h halloc) _ _ _ _ _) _ _) hr

theorem Rgn.resolve_lawful {g g' : Rgn} {va : Nat} (h : g.Lawful) (hr : g.resolve va = some g') : g'.Lawful := by
  unfold Rgn.resolve at hr
  split at hr
  · split at hr
    · exact resolveAt_lawful h hr
    · cases hr
  · cases hr

theorem Rgn.foldlM_lawful {α : Type} {f : Rgn → α → Option Rgn} (hf : ∀ g a g', g.Lawful → f g a = some g' → g'.Lawful) :
    ∀ {l : List α} {g g' : Rgn}, g.Lawful → l.foldlM f g = some g' → g'.Lawful := by
  intro l
  induction l with
  | nil =>
    intro g g' h hg
    cases hg
    exact h
  | cons a r ih =>
    intro g g' h hg
    rw [List.foldlM_cons] at hg
    obtain ⟨v, hv, hg⟩ := Option.bind_eq_some_iff.1 hg
    exact ih (hf g a v h hv) hg

theorem mapOne_lawful {lvl id : Nat} {sub : Option (Rgn → Nat → Nat → Option Rgn)} {m : Mapping} {lo hi off base i : Nat}
    {g g' : Rgn} (hsub : ∀ f ∈ sub, ∀ g o b g', g.Lawful → f g o b = some g' → g'.Lawful) (h : g.Lawful)
    (hg : mapOne lvl sub id m lo hi off base g i = some g') : g'.Lawful := by
  unfold mapOne at hg
  dsimp only at hg
  split at hg
  · cases hg
    exact writeEntry_lawful h _ _
  · split at hg
    · cases hg
      exact writeEntry_lawful h _ _
    · split at hg
      · cases hg
        exact h
      · rename_i f
        split at hg
        · exact hsub f rfl _ _ _ _ h hg
        · split at hg
          · cases hg
          · rename_i o g₁ halloc
            exact hsub f rfl _ _ _ _ (writeEntry_lawful (allocTable_lawful h halloc) _ _) hg

theorem mapTable_lawful {id : Nat} {m : Mapping} {lo hi : Nat} : ∀ {lvl off base : Nat} {g g' : Rgn}, g.Lawful →
    mapTable id m lo hi lvl g off base = some g' → g'.Lawful := by
  intro lvl
  induction lvl with
  | zero => exact fun h hg => Rgn.foldlM_lawful (fun g a g' h hg => mapOne_lawful (fun f hf => by cases hf) h hg) h hg
  | succ l ih =>
    refine fun h hg => Rgn.foldlM_lawful (fun g a g' h hg => mapOne_lawful (fun f hf g o b g' h hg => ?_) h hg) h hg
    cases hf
    exact ih h hg

theorem unmapOne_lawful {lvl : Nat} {sub : Option (Rgn → Nat → Nat → Rgn)} {off base i : Nat} {g : Rgn}
    (hsub : ∀ f ∈ sub, ∀ g o b, g.Lawful → (f g o b).Lawful) (h : g.Lawful) : (unmapOne lvl sub off base g i).Lawful := by
  unfold unmapOne
  dsimp only
  split
  · exact writeEntry_lawful h _ _
  · rename_i f
    split
    · have hf := hsub f rfl g (bits (leNat (g.tbl.readN (off + 8 * i) 8)) 28 8 * 256) (base + i * levelSpan lvl) h
      split
      · exact ⟨Store.wf_writeN hf.tbl _, hf.ids, hf.sizes⟩
      · exact hf
    · exact writeEntry_lawful h _ _

theorem unmapTable_lawful {lo hi : Nat} : ∀ {lvl off base : Nat} {g : Rgn}, g.Lawful → (unmapTable lo hi lvl g off base).Lawful := by
  intro lvl
  induction lvl with
  | zero => exact fun h => Rgn.foldl_lawful (fun g a hg => unmapOne_lawful (fun f hf => by cases hf) hg) _ h
  | succ l ih =>
    refine fun h => Rgn.foldl_lawful (fun g a hg => unmapOne_lawful (fun f hf g o b hg => ?_) hg) _ h
    cases hf
    exact ih hg

theorem Rgn.unmap_lawful {g : Rgn} (h : g.Lawful) {r : Region} (hr : r.pages ≤ 2 ^ 26) : (g.unmap r).Lawful := by
  unfold Rgn.unmap
  split
  · exact h
  · rename_i m _
    have hput := (unmapTable_lawful (lo := m.base) (hi := m.base + r.size) (lvl := 3) (off := 0) (base := 0) h).put
      (r := { r with map := none }) hr
    exact ⟨hput.tbl, hput.ids, hput.sizes⟩

end Sys2Proof.Machine
end

section
/-! SUPPORT. Accesses to memory, replies and the taking of a request leave the queue alone and keep the invariant (R217, R219,
R248, R269, R487). -/

namespace Sys2Proof.Machine

variable {s t u : State}

/-! ### Accesses by memory key -/

theorem Mem.write_wf {m : Mem} (h : m.cells.wf = true) (a : Nat) (d : Bytes) : (m.write a d).cells.wf = true := Store.wf_writeN h a

theorem Mem.putLine_wf {m : Mem} (h : m.cells.wf = true) (line : Nat) (d : Bytes) : (m.putLine line d).cells.wf = true :=
  Mem.write_wf h _ d

theorem Steady.cleanRange {lo n : Nat} (h : Steady s t) : Steady s (t.cleanRange lo n) := by
  refine h.upd rfl rfl fun hi => { hi.laws with mem := State.cleanRange_wf hi.mem lo n, coh := ⟨fun x hx => ?_, hi.fits⟩ }
  obtain ⟨y, hy, rfl⟩ := List.mem_map.1 ((List.map_append (l₁ := t.coh.cached) (l₂ := t.coh.wbs)).symm ▸ hx)
  split
  · exact hi.lines y hy
  · exact hi.lines y hy

theorem Steady.invalRange {lo n : Nat} (h : Steady s t) : Steady s (t.invalRange lo n) :=
  h.cleanRange.upd rfl rfl fun hi => { hi.laws with
      coh := hi.coh.sub (List.filter_subset_self _) (List.Subset.refl _) (List.Subset.refl _) (List.Subset.refl _) }

theorem Steady.wakeRange {lo n : Nat} (h : Steady s t) : Steady s (t.wakeRange lo n) := by
  unfold State.wakeRange
  split
  · exact h
  · exact h.same rfl

theorem Steady.wakeRegion {r : Region} (h : Steady s t) : Steady s (t.wakeRegion r) := h.same rfl

theorem Steady.combine {line : Nat} {m : BitVec 64} (h : Steady s t) : Steady s (t.combine line m) := by
  unfold State.combine
  split
  · exact h
  · dsimp only
    split
    · exact h.same rfl
    · exact h.same rfl

theorem Steady.combineRange {lo n : Nat} (h : Steady s t) : Steady s (t.combineRange lo n) := by
  unfold State.combineRange
  split
  · exact h
  · extract_lets first last inner _ u v
    have hu : Steady s u := h.same rfl
    have hv : Steady s v := .ite hu hu.combine
    exact .ite hv hv.combine

theorem Steady.placeKey {r : Region} {off k n : Nat} (h : Steady s t) : Steady s (t.placeKey r off k n) := by
  unfold State.placeKey
  split
  · exact h
  · exact h.upd rfl rfl fun hi => { hi.laws with coh := Coh.place_lawful hi.coh _ _ _ _ }

theorem Steady.heatAccess {id off len : Nat} (h : Steady s t) : Steady s (t.heatAccess id off len) := by
  unfold State.heatAccess
  split
  · exact h
  · rename_i r hr
    split
    · exact h
    · refine h.upd rfl rfl fun hi => { hi.laws with rgn := Rgn.foldl_lawful (fun g c hg => Rgn.promote_lawful hg _ _) _ (hi.rgn.put ?_) }
      rw [Region.heatUp_pages]
      exact hi.rgn.pages hr

theorem Steady.readRegion {r : Region} {off len : Nat} (h : Steady s t) : Steady s (t.readRegion r off len).2 :=
  (h.foldl fun u _ => (Steady.refl u).cleanRange.wakeRange.placeKey).heatAccess

theorem Steady.writeKey {k : Nat} {d : Bytes} (h : Steady s t) : Steady s (t.writeKey k d) := by
  have hinval : Steady s ((t.invalRange k d.length).wakeRange k d.length) := h.invalRange.wakeRange
  exact (hinval.setMem fun hi => Mem.write_wf hi.mem _ _).combineRange

theorem Steady.writeRegion {r : Region} {off : Nat} {d : Bytes} (h : Steady s t) : Steady s (t.writeRegion r off d) := by
  have hstored := h.foldl_fst (x := (t, d)) (l := chunksOf off d.length) (f := fun (a : State × Bytes) c =>
    (((a.1.writeKey (r.key c.1) (a.2.take c.2)).placeKey r c.1 (r.key c.1) c.2), a.2.drop c.2))
    fun u _ => ((Steady.refl u.1).writeKey).placeKey
  exact (hstored.setRgn fun hi => Rgn.foldl_lawful (fun g c hg => Rgn.writeAbandons_lawful hg _ _) _ hi.rgn).heatAccess

theorem Steady.fence (h : Steady s t) : Steady s t.fence := h.same rfl

/-! ### Accesses by device virtual address -/

theorem Rgn.fillCache_lawful {g : Rgn} (h : g.Lawful) (c va lvl e : Nat) : (g.fillCache c va lvl e).Lawful := by
  unfold Rgn.fillCache
  split
  · exact h
  · exact ⟨h.tbl, h.ids, h.sizes⟩

theorem Steady.look {c va : Nat} (h : Steady s t) : Steady s (t.look c va) := by
  unfold State.look
  split
  · exact h
  · split
    · exact h.upd rfl rfl fun hi => { hi.laws with rgn := Rgn.fillCache_lawful hi.rgn _ _ _ _ }
    · exact h

theorem Steady.lookRange {c va len : Nat} (h : Steady s t) : Steady s (t.lookRange c va len) :=
  h.foldl fun u _ => (Steady.refl u).look

theorem Steady.readVa {va len : Nat} (h : Steady s t) : Steady s (t.readVa va len).2 := by
  refine h.foldl_snd (x := ([], t)) fun u c => ?_
  split
  · exact (Steady.refl u.2).readRegion
  · exact .refl u.2

theorem Steady.writeVa {va : Nat} {d : Bytes} (h : Steady s t) : Steady s (t.writeVa va d) := by
  refine h.foldl_fst (x := (t, d)) fun u c => ?_
  dsimp only
  split
  · exact (Steady.refl u.1).writeRegion
  · exact .refl u.1

theorem Steady.undefine {k n : Nat} (h : Steady s t) : Steady s (t.undefine k n) := h.invalRange.same rfl

theorem Steady.undefineVa {va len : Nat} (h : Steady s t) : Steady s (t.undefineVa va len) := by
  refine h.foldl fun u c => ?_
  split
  · exact (Steady.refl u).undefine
  · exact .refl u

theorem Steady.undefineRegion {r : Region} {off len : Nat} (h : Steady s t) : Steady s (t.undefineRegion r off len) :=
  h.foldl fun u _ => (Steady.refl u).undefine

theorem Steady.freeBacking (h : Steady s t) : Steady s t.freeBacking := h.foldl fun u _ => (Steady.refl u).same rfl

theorem Steady.recallKey {store : Bool} {k n : Nat} (h : Steady s t) : Steady s (t.recallKey store k n) :=
  h.upd rfl rfl fun hi => { hi.laws with coh := hi.coh.same rfl }

theorem Steady.recallHost {va len : Nat} {store : Bool} (h : Steady s t) : Steady s (t.recallHost va len store) := by
  refine h.foldl fun u c => ?_
  split
  · exact .refl u
  · exact (Steady.refl u).recallKey

theorem Steady.regionWait {r : Region} {off n : Nat} {store : Bool} (h : Steady s t) (hw : t.regionWait r off n store = some u) :
    Steady s u := by
  unfold State.regionWait at hw
  split at hw
  · cases hw
  · split at hw
    · cases hw
      exact h
    · split at hw
      · cases hw
        exact h.foldl fun v _ => (Steady.refl v).recallKey
      · cases hw

theorem Steady.withTables {g : Rgn} (h : Steady s t) (hg : t.Inv → g.Lawful) : Steady s (t.withTables g) := h.upd rfl rfl fun hi => { hi.laws with
    rgn := hg hi }

theorem Steady.resolveRange {va len : Nat} (h : Steady s t) (hr : t.resolveRange va len = some u) : Steady s u := by
  refine h.foldlM (fun x c v hv => ?_) hr
  split at hv
  · obtain ⟨g, hg, rfl⟩ := Option.map_eq_some_iff.1 hv
    exact (Steady.refl x).withTables fun hi => Rgn.resolve_lawful hi.rgn hg
  · cases hv
    exact .refl _

/-! ### Replies and requests -/

theorem Steady.reply {k tag code : Nat} {d : Bytes} (h : Steady s t) : Steady s (t.reply k tag code d) :=
  h.upd rfl rfl fun hi => { hi.laws with mbx := Mbx.putReply_wf hi.mbx _ _ _ _ }

theorem Steady.drainUndefined (h : Steady s t) : Steady s t.drainUndefined := by
  have hk := t.drainUndefined_keeps
  have hobs : t.drainUndefined.obs = t.obs := hk .obs (by decide)
  have hmem : t.drainUndefined.mem = t.mem := hk .mem (by decide)
  have hrgn : t.drainUndefined.rgn = t.rgn := hk .rgn (by decide)
  have hcoh : t.drainUndefined.coh = t.coh := hk .coh (by decide)
  have hatt : t.drainUndefined.att = t.att := hk .att (by decide)
  exact h.upd (hk .pending (by decide)) (congrArg Obs.ctrs hobs) fun hi =>
    ⟨hmem ▸ hi.mem, serveUndefined_wf _ _ hi.mbx, hrgn ▸ hi.rgn, hcoh ▸ hi.coh, hobs ▸ hi.trace, hatt ▸ hi.attn⟩

/-- What a request that is taken comes to: nothing, a reply before its body runs, or what its body leaves, with or without a reply. -/
inductive TakeEnds (t : State) (k : Nat) (body : Req → State → State × Resp) : State → Prop where
  | idle : TakeEnds t k body t
  | refused (tag code : Nat) : TakeEnds t k body ((t.taken k).reply k tag code []).drainUndefined
  | waits (r : Req) : TakeEnds t k body { (body r (t.taken k)).1 with mbx := t.mbx }
  | replies (r : Req) (tag code : Nat) (d : Bytes) : TakeEnds t k body ((body r (t.taken k)).1.reply k tag code d).drainUndefined
  | goesOn (r : Req) : TakeEnds t k body (body r (t.taken k)).1

theorem State.take_ends (t : State) (k : Nat) (mine : Req → Bool) (body : Req → State → State × Resp) :
    TakeEnds t k body (t.take k mine body) := by
  unfold State.take
  extract_lets r t₁ x
  split
  · exact .idle
  · split
    · exact .refused _ _
    · split
      · split
        · exact .waits r
        · exact .replies r _ _ _
      · exact .goesOn r

theorem Steady.taken {k : Nat} (h : Steady s t) : Steady s (t.taken k) := h.same rfl

/-- A request is taken: its command's body decides what else happens. -/
theorem Steady.take {k : Nat} {mine : Req → Bool} {body : Req → State → State × Resp} (h : Steady s t)
    (hbody : ∀ r u, Steady u (body r u).1) : Steady s (t.take k mine body) := by
  have hran : ∀ r, Steady s (body r (t.taken k)).1 := fun r => h.taken.trans (hbody r _)
  have hends := t.take_ends k mine body
  generalize t.take k mine body = v at hends ⊢
  cases hends with
  | idle => exact h
  | refused => exact h.taken.reply.drainUndefined
  | waits r => exact ⟨(hran r).queue, fun hs => { (hran r).inv hs with mbx := (h.inv hs).mbx }, (hran r).ctrs⟩
  | replies r => exact (hran r).reply.drainUndefined
  | goesOn r => exact hran r

theorem Runs.take {k : Nat} {mine : Req → Bool} {body : Req → State → State × Resp} (hbody : ∀ r u, Runs u (body r u).1) :
    Runs s (s.take k mine body) := by
  have hran : ∀ r, Runs s (body r (s.taken k)).1 := fun r => (Steady.refl s).taken.runs.trans (hbody r _)
  have hreplied : ∀ (u : State) {tag code d}, Runs u (u.reply k tag code d).drainUndefined := fun u _ _ _ =>
    (Steady.refl u).reply.drainUndefined.runs
  have hends := s.take_ends k mine body
  generalize s.take k mine body = v at hends ⊢
  cases hends with
  | idle => exact (Steady.refl s).runs
  | refused => exact (Steady.refl s).taken.reply.drainUndefined.runs
  | waits r => exact ⟨(hran r).queue, fun hs => { (hran r).inv hs with mbx := hs.mbx }⟩
  | replies r => exact (hran r).trans (hreplied _)
  | goesOn r => exact hran r

theorem Steady.finishProg {code : Nat} {d : Bytes} (h : Steady s t) : Steady s (t.finishProg code d) := by
  unfold State.finishProg
  split
  · exact h
  · exact (h.same rfl : Steady s { t with mbx := { t.mbx with prog := none } }).reply.drainUndefined

theorem Steady.cmdFailed {code : Nat} {undef : State → State} (h : Steady s t) (hundef : Steady s (undef t)) :
    Steady s (t.cmdFailed code undef).1 := .ite hundef h

/-- The state that a check of a command's memory access leaves, whether it fails or not. -/
def accessed : Except (Nat × State) State → State
  | .ok u => u
  | .error (_, u) => u

theorem Steady.cmdAccess {va len unmapped : Nat} {store : Bool} (h : Steady s t) :
    Steady s (accessed (t.cmdAccess va len store unmapped)) := by
  unfold State.cmdAccess
  dsimp only
  split
  · exact h
  · split
    · exact h
    · split
      · exact h
      · rename_i v hv
        have hv := h.resolveRange hv
        split
        · exact hv
        · exact hv
        · exact hv.recallHost
        · exact hv
        · exact hv.raise
        · exact hv
        · exact hv.raise

theorem Steady.cmdAccess_ok {va len unmapped : Nat} {store : Bool} (h : Steady s t) (ha : t.cmdAccess va len store unmapped = .ok u) :
    Steady s u := by
  have := h.cmdAccess (va := va) (len := len) (unmapped := unmapped) (store := store)
  rwa [ha] at this

theorem Steady.cmdAccess_error {va len unmapped code : Nat} {store : Bool} (h : Steady s t)
    (ha : t.cmdAccess va len store unmapped = .error (code, u)) : Steady s u := by
  have := h.cmdAccess (va := va) (len := len) (unmapped := unmapped) (store := store)
  rwa [ha] at this

end Sys2Proof.Machine
end

section
/-! SUPPORT. The region commands leave the queue alone and keep the invariant: a new region takes a free id, and tables change
by whole entries (R187 to R198, R236 to R241, R254 to R261). -/

namespace Sys2Proof.Machine

variable {s t u : State}

theorem Steady.zeroRange {lo n : Nat} (h : Steady s t) : Steady s (t.zeroRange lo n) :=
  h.upd rfl rfl fun hi => { hi.laws with
      mem := Store.wf_zero hi.mem _ _, coh := hi.coh.sub (List.filter_subset_self _) (List.Subset.refl _) (List.Subset.refl _) (List.Subset.refl _) }

theorem Rgn.Lawful.add {g : Rgn} (h : g.Lawful) {r : Region} (hid : r.id < 64) (hnew : ∀ x ∈ g.regions, x.id ≠ r.id)
    (hp : r.pages ≤ 2 ^ 26) : ({ g with regions := g.regions ++ [r] } : Rgn).Lawful where
  tbl := h.tbl
  ids := by
    rw [List.map_append, List.nodup_append]
    refine ⟨h.ids, List.nodup_singleton _, fun a ha b hb => ?_⟩
    obtain ⟨x, hx, rfl⟩ := List.mem_map.1 ha
    obtain rfl : b = r.id := by simpa using hb
    exact hnew x hx
  sizes x hx := by
    obtain hx | hx := List.mem_append.1 hx
    · exact h.sizes x hx
    · obtain rfl := List.mem_singleton.1 hx
      exact ⟨hid, hp⟩

theorem regionLegal_pages {kind mode target pages t2 base cache : Nat}
    (h : ¬ (!regionLegal kind mode target pages t2 base cache) = true) : pages ≤ 2 ^ 26 := by
  simp only [regionLegal, Bool.not_eq_true, Bool.not_eq_false', Bool.and_eq_true, decide_eq_true_eq] at h
  obtain ⟨⟨⟨-, hp⟩, -⟩, -⟩ := h
  exact hp

theorem regionCreateBody_steady (q : Req) (s : State) : Steady s (regionCreateBody q s).1 := by
  unfold regionCreateBody
  extract_lets kind mode cache target pages t2 base need id off reg u
  split
  · exact .refl s
  · split
    · exact .refl s
    · rename_i hlegal
      split
      · exact .refl s
      · rename_i hroom
        have hu : Steady s u := .ite (.refl s) (Steady.refl s).wakeRegion.zeroRange
        have hrgn : u.rgn = s.rgn := by
          simp only [u]
          split <;> rfl
        have hfew : s.rgn.regions.length < 64 := by
          simp only [Bool.or_eq_true, decide_eq_true_eq, not_or] at hroom
          omega
        obtain ⟨hid, hnew, -⟩ := freeRegionId_lowest hfew
        refine hu.upd rfl rfl fun hi => { hi.laws with rgn := hi.rgn.add hid ?_ (regionLegal_pages hlegal) }
        rw [hrgn]
        exact hnew

theorem regionRegisterBody_steady (q : Req) (s : State) : Steady s (regionRegisterBody q s).1 := by
  unfold regionRegisterBody
  extract_lets sources off
  split
  · exact .refl s
  · split
    · exact .refl s
    · rename_i r hr
      split
      · exact .refl s
      · split
        · exact .refl s
        · split
          · exact .refl s
          · exact (Steady.refl s).upd rfl rfl fun hi => { hi.laws with rgn := hi.rgn.put (hi.rgn.pages hr :) }

theorem Rgn.setBias_lawful {g : Rgn} (h : g.Lawful) (region first count : Nat) (b : Bool) : (g.setBias region first count b).Lawful := by
  unfold Rgn.setBias
  split
  · exact h
  · rename_i r hr
    exact h.put (h.pages hr :)

theorem Rgn.pageRange_pages {g : Rgn} {q : Req} {r : Region} (h : g.Lawful) (hr : g.pageRange q = some r) : r.pages ≤ 2 ^ 26 :=
  h.pages (Rgn.pageRange_some hr)

theorem biasSharedBody_steady (q : Req) (s : State) : Steady s (biasSharedBody q s).1 := by
  unfold biasSharedBody
  split
  · exact .refl s
  · split
    · exact .refl s
    · extract_lets sp u
      have hu : Steady s u := (Steady.refl s).cleanRange.fence
      exact hu.upd rfl rfl fun hi => { hi.laws with rgn := Rgn.setBias_lawful hi.rgn _ _ _ _ }

theorem Steady.backInvalidate {lo n : Nat} (h : Steady s t) : Steady s (t.backInvalidate lo n) := h.upd rfl rfl fun hi => { hi.laws with
    coh := hi.coh.same rfl }

theorem biasDeviceBody_steady (q : Req) (s : State) : Steady s (biasDeviceBody q s).1 := by
  unfold biasDeviceBody
  split
  · exact .refl s
  · rename_i r hr
    split
    · exact .refl s
    · split
      · exact .refl s
      · extract_lets first count sp u
        have hu : Steady s u := (Steady.refl s).cleanRange.backInvalidate.fence
        have hrgn : u.rgn = s.rgn := rfl
        split
        · exact hu.upd rfl rfl fun hi => { hi.laws with rgn := Rgn.setBias_lawful hi.rgn _ _ _ _ }
        · exact hu.upd rfl rfl fun hi => { hi.laws with rgn := hi.rgn.put (Rgn.pageRange_pages hi.rgn (hrgn ▸ hr) :) }

theorem Steady.settleBias (h : Steady s t) : Steady s t.settleBias := by
  unfold State.settleBias
  split
  · dsimp only
    split
    · exact h
    · split
      · exact h.backInvalidate
      · exact Steady.finishProg (h.upd rfl rfl fun hi => { hi.laws with rgn := Rgn.setBias_lawful hi.rgn _ _ _ _ })
  · exact h

/-! ### Pages that move, and pins -/

theorem Store.moveRange_wf {m : Store} (h : m.wf = true) (src dst n : Nat) : (m.moveRange src dst n).wf = true :=
  foldl_keeps (P := fun x : Store => x.wf = true) (fun _ _ hx => Store.wf_write hx _ _) _ _ (Store.wf_zero h dst n)

theorem Steady.migrate {id page : Nat} {toT2 : Bool} (h : Steady s t) : Steady s (t.migrate id page toT2) := by
  unfold State.migrate
  split
  · exact h
  · rename_i r hr
    extract_lets t2 t3 src dst u hit kept
    have hu : Steady s u := h.invalRange.wakeRange.wakeRange
    have hrgn : u.rgn = t.rgn := by
      have hkeeps := ((t.invalRange_keeps src pageBytes).mono (by decide : ∀ p ∈ _, p ∈ [Part.mem, .coh, .out])).trans
        (((State.wakeRange_keeps _ src pageBytes).mono (by decide)).trans ((State.wakeRange_keeps _ dst pageBytes).mono (by decide)))
      exact hkeeps .rgn (by decide)
    clear_value u
    exact hu.upd rfl rfl fun hi => { hi.laws with
        mem := Store.moveRange_wf hi.mem _ _ _, coh := hi.coh.same rfl, rgn := hi.rgn.put (hi.rgn.pages (hrgn ▸ hr) :) }

theorem Steady.pinPage {id page : Nat} {range : List Nat} (h : Steady s t) : Steady s (t.pinPage id range page) := by
  unfold State.pinPage
  split
  · exact h
  · split
    · exact h
    · split
      · exact h.migrate
      · split
        · exact h.migrate.migrate
        · exact h

theorem objectPinBody_steady (q : Req) (s : State) : Steady s (objectPinBody q s).1 := by
  unfold objectPinBody
  split
  · exact .refl s
  · rename_i r hr
    extract_lets target range toT2 others moves g u v
    split
    · exact .refl s
    · split
      · exact (Steady.refl s).upd rfl rfl fun hi => { hi.laws with rgn := hi.rgn.put (Rgn.pageRange_pages hi.rgn hr :) }
      · split
        · exact .refl s
        · split
          · exact .refl s
          · have hu : Steady s u := (Steady.refl s).upd rfl rfl fun hi => { hi.laws with
              rgn := (Rgn.foldl_lawful (fun g p hg => Rgn.abandonMigration_lawful hg _ _) _ hi.rgn).put (Rgn.pageRange_pages hi.rgn hr :) }
            exact .ite (hu.foldl fun x _ => (Steady.refl x).pinPage)
              (hu.foldl fun x _ => .ite (Steady.refl x).migrate (.refl x))

/-! ### Mappings -/

theorem mapBody_steady (q : Req) (s : State) : Steady s (mapBody q s).1 := by
  unfold mapBody
  extract_lets d
  split
  · exact .refl s
  · split
    · exact .refl s
    · rename_i r hr
      split
      · exact .refl s
      · split
        · exact .refl s
        · split
          · exact .refl s
          · rename_i g hg
            exact (Steady.refl s).withTables fun hi => (mapTable_lawful hi.rgn hg).put (hi.rgn.pages hr :)

theorem unmapBody_steady (q : Req) (s : State) : Steady s (unmapBody q s).1 := by
  unfold unmapBody
  split
  · exact .refl s
  · split
    · exact .refl s
    · rename_i r hr
      split
      · exact .refl s
      · split
        · exact .refl s
        · exact (Steady.refl s).upd rfl rfl fun hi => { hi.laws with rgn := Rgn.unmap_lawful hi.rgn (hi.rgn.pages hr) }

theorem regionInfoBody_steady (q : Req) (s : State) : Steady s (regionInfoBody q s).1 := by
  unfold regionInfoBody
  split
  · exact .refl s
  · split <;> exact .refl s

end Sys2Proof.Machine
end

section
/-! SUPPORT. DMA channels leave the queue alone and keep the invariant (R474 to R483). -/

namespace Sys2Proof.Machine

variable {s t u : State}

theorem Steady.setChan {n : Nat} {c : Chan} (h : Steady s t) : Steady s (t.setChan n c) := h.same rfl

theorem Steady.dmaFault {n code va : Nat} (h : Steady s t) : Steady s (t.dmaFault n code va) := by
  unfold State.dmaFault
  extract_lets tag u
  have hu : Steady s u := .ite h.raise h
  exact hu.setChan.raise

theorem dmaSubmitBody_steady (q : Req) (s : State) : Steady s (dmaSubmitBody q s).1 := by
  unfold dmaSubmitBody
  extract_lets d n
  clear_value d n
  split
  · exact .refl s
  · split
    · exact .refl s
    · split
      · exact .refl s
      · split
        · exact .refl s
        · split
          · exact .refl s
          · exact (Steady.refl s).setChan

theorem dmaStatusBody_steady (q : Req) (s : State) : Steady s (dmaStatusBody q s).1 := by
  unfold dmaStatusBody
  split <;> exact .refl s

theorem Rgn.Lawful.demanded {g : Rgn} (h : g.Lawful) (l : List Miss) : ({ g with demands := l } : Rgn).Lawful := ⟨h.tbl, h.ids, h.sizes⟩

theorem Steady.dmaObstacle {n : Nat} {o : AccRes × Nat × Nat × Bool} (h : Steady s t) : Steady s (t.dmaObstacle n o) := by
  unfold State.dmaObstacle
  extract_lets wait
  split
  · exact (h.setRgn fun hi => hi.rgn.demanded _).setChan
  · exact h.dmaFault
  · exact h.dmaFault
  · exact h.setChan
  · exact h
  · exact h.recallHost
  · exact h.dmaFault
  · exact h

theorem Steady.wakeChans (h : Steady s t) : Steady s t.wakeChans := h.same rfl

theorem Steady.dmaLook {n : Nat} {d : DmaSet} (h : Steady s t) : Steady s (t.dmaLook n d) :=
  h.foldl fun u _ => (Steady.refl u).lookRange

theorem Steady.undefineDst {l : List DmaSet} (h : Steady s t) : Steady s (t.undefineDst l) :=
  h.foldl fun u _ => (Steady.refl u).undefineVa

theorem Steady.dmaHostLost (h : Steady s t) : Steady s t.dmaHostLost := by
  have hu := h.undefineDst (l := t.dma.chans.flatMap fun c => c.2.hostLost t.rgn)
  exact hu.same rfl

theorem Steady.dmaStaleLost (h : Steady s t) : Steady s t.dmaStaleLost := by
  have hu := h.undefineDst (l := t.dma.chans.flatMap fun c => if t.waitsStale c.1 c.2 then [c.2.active] else [])
  exact hu.same rfl

theorem Steady.dmaAbort {tag a b : Nat} (h : Steady s t) (ha : t.dmaAbort tag = some (u, a, b)) : Steady s u := by
  obtain ⟨x, -, hx⟩ := Option.map_eq_some_iff.1 ha
  dsimp only at hx
  split at hx
  · split at hx
    · cases hx
      exact h
    · cases hx
      exact h.setChan
  · split at hx
    · cases hx
      exact h
    · cases hx
      exact h.setChan

end Sys2Proof.Machine
end

section
/-! SUPPORT. Coherence leaves the queue alone and keeps the invariant: what a core comes to hold is a whole line, and a request
that is kept lies inside its line (R262 to R270, R462, R542). -/

namespace Sys2Proof.Machine

variable {s t u : State}

/-! ### Copies of lines -/

/-- A core comes to hold one more line. -/
theorem Coh.Lawful.hold {c c' : Coh} {x : CoreLine} (h : c.Lawful) (hx : x.data.length = 64) (cached : c'.cached = c.cached ++ [x])
    (wbs : c'.wbs = c.wbs) (txns : c'.txns = c.txns) (waiting : c'.waiting = c.waiting) : c'.Lawful := by
  refine ⟨fun y hy => ?_, fun y hy => h.fits y (by rwa [txns, waiting] at hy)⟩
  rw [cached, wbs, List.append_assoc, List.singleton_append, List.mem_append, List.mem_cons] at hy
  obtain hy | rfl | hy := hy
  · exact h.lines y (List.mem_append_left _ hy)
  · exact hx
  · exact h.lines y (List.mem_append_right _ hy)

theorem Coh.place_requests (c : Coh) (g : Rgn) (r : Region) (first n : Nat) :
    (c.place g r first n).txns = c.txns ∧ (c.place g r first n).waiting = c.waiting := by
  unfold Coh.place
  split <;> exact ⟨rfl, rfl⟩

theorem Steady.dropCopies {line : Nat} {but : Option Nat} (h : Steady s t) : Steady s (t.dropCopies line but) :=
  h.cleanRange.upd rfl rfl fun hi => { hi.laws with
      coh := hi.coh.sub (List.filter_subset_self _) (List.Subset.refl _) (List.Subset.refl _) (List.Subset.refl _) }

theorem Steady.sendBinv {line : Nat} {keep : Bool} (h : Steady s t) : Steady s (t.sendBinv line keep) := by
  unfold State.sendBinv
  split
  · exact h
  · exact h.upd rfl rfl fun hi => { hi.laws with coh := hi.coh.same rfl }

theorem Steady.evictEntry {line : Nat} (h : Steady s t) : Steady s (t.evictEntry line) := h.dropCopies.count

theorem Steady.makeDirRoom {line : Nat} (h : Steady s t) : Steady s (t.makeDirRoom line).1 := by
  unfold State.makeDirRoom
  split
  · exact h
  · dsimp only
    split
    · exact h
    · split
      · exact h.evictEntry
      · dsimp only
        split
        · exact h.sendBinv
        · exact h

theorem Steady.takeOwned {n line off o : Nat} {r : Region} {d : Bytes} (h : Steady s t) (hd : s.Inv → o + d.length ≤ 64) :
    Steady s (t.takeOwned n r line off o d) := by
  have hdropped : Steady s { (t.dropCopies line (some n)) with rgn := t.rgn.writeAbandons r.id (off / pageBytes) } :=
    ⟨(h.dropCopies (line := line) (but := some n)).queue, fun hs =>
      have hi := (h.dropCopies (line := line) (but := some n)).inv hs
      have hg := Rgn.writeAbandons_lawful (h.inv hs).rgn r.id (off / pageBytes)
      { hi with tbl := hg.tbl, ids := hg.ids, sizes := hg.sizes }, (h.dropCopies (line := line) (but := some n)).ctrs⟩
  have htaken := (hdropped.wakeRange (lo := line * 64) (n := 64)).heatAccess (id := r.id) (off := off) (len := 1)
  unfold State.takeOwned
  extract_lets _ u₀ u data e c
  have hu : Steady s u := htaken
  clear_value u
  split
  · exact hu.writeKey
  · obtain ⟨-, hwbs⟩ := c.place_lines u.rgn r line 1
    obtain ⟨htxns, hwaiting⟩ := c.place_requests u.rgn r line 1
    refine ⟨hu.queue, fun hs => ?_, hu.ctrs⟩
    have hlen : data.length = 64 := by
      have hread : (u.mem.read (line * 64) 64).length = 64 := Mem.read_length _ _ _
      rw [show data = overlay (u.mem.read (line * 64) 64) o d from rfl, overlay_length (by rw [hread]; exact hd hs), hread]
    have hi := hu.inv hs
    have hcoh := (Coh.setDir_lawful hi.coh { u.coh.dirOf line with owner := some n, sharers := [] }).hold (x := ⟨n, line, !d.isEmpty, data⟩)
      (c' := { c.place u.rgn r line 1 with cached := c.cached ++ [⟨n, line, !d.isEmpty, data⟩] }) hlen rfl
      hwbs htxns hwaiting
    exact { hi with lines := hcoh.lines, fits := hcoh.fits }

/-! ### Requests at their homes -/

theorem Steady.answerRead {x : Txn} {line : Nat} (h : Steady s t) : Steady s (t.answerRead x line) := by
  unfold State.answerRead
  split
  · split
    · exact h.emit
    · exact h.emit
  · exact h.emit

theorem Steady.lineReached {r : Region} {off line : Nat} (h : Steady s t) : Steady s (t.lineReached r off line) :=
  h.cleanRange.wakeRange.heatAccess

theorem Steady.lineFetched {r : Region} {off line : Nat} (h : Steady s t) : Steady s (t.lineFetched r off line) := by
  unfold State.lineFetched
  extract_lets u
  have hu : Steady s u := h.lineReached
  exact .ite (hu.upd rfl rfl fun hi => { hi.laws with coh := Coh.place_lawful hi.coh _ _ _ _ }) hu

theorem Steady.readTaken {x : Txn} {migrating : Bool} {line : Nat} (h : Steady s t) : Steady s (t.readTaken x migrating line) := by
  unfold State.readTaken
  split
  · exact .ite h (h.upd rfl rfl fun hi => { hi.laws with coh := (Coh.setDir_lawful hi.coh _).hold (Mem.read_length _ _ _) rfl rfl rfl rfl })
  · exact h
  · exact .ite (h.dropCopies.upd rfl rfl fun hi => { hi.laws with coh := Coh.setDir_lawful hi.coh _ }) h

theorem Steady.serveRead {x : Txn} {r : Region} {line : Nat} (h : Steady s t) : Steady s (t.serveRead x r line) := by
  have hanswered : Steady s ((t.lineFetched r x.off line).answerRead x line) := h.lineFetched.answerRead
  rw [State.serveRead_eq rfl]
  exact .ite hanswered hanswered.readTaken

theorem Steady.serveAmo {n line off w o v : Nat} {r : Region} {op : AmoOp} (h : Steady s t) (hw : s.Inv → o + w ≤ 64) :
    Steady s (t.serveAmo n r line off op w o v) := by
  unfold State.serveAmo
  extract_lets u k old new v
  have hu : Steady s u := h.cleanRange
  have hnew : s.Inv → o + new.length ≤ 64 := by
    rw [show new.length = w from leBytes_length _ _]
    exact hw
  split
  · exact hu.emit
  · exact (Steady.ite hu.writeRegion (hu.takeOwned hnew)).emit

theorem CohOp.fits_amo {a : AmoOp} {w o v : Nat} (h : (CohOp.amo a w o v).fits = true) : o + w ≤ 64 := by
  simp only [CohOp.fits, Bool.and_eq_true, Bool.or_eq_true, beq_iff_eq, decide_eq_true_eq] at h
  obtain ⟨⟨rfl | rfl, hmod⟩, hlt⟩ := h <;> omega

theorem Steady.hostStored {line o : Nat} {d : Bytes} (h : Steady s t) : Steady s (t.hostStored line o d) := by
  have hu : Steady s ((t.dropCopies line none).wakeRange (line * 64) 64) := h.dropCopies.wakeRange
  exact (hu.setMem fun hi => Mem.write_wf hi.mem _ _).combineRange

theorem Steady.setResv {l : List (Nat × Nat)} (h : Steady s t) : Steady s { t with coh := { t.coh with resv := l } } :=
  h.upd rfl rfl fun hi => { hi.laws with coh := hi.coh.same rfl }

theorem Steady.serveTxn {x : Txn} (h : Steady s t) (hx : s.Inv → x.op.fits = true) : Steady s (t.serveTxn x).1 := by
  unfold State.serveTxn
  split
  · split
    · exact h.emit
    · exact h
  · rename_i r _
    dsimp only
    split
    case h_1 =>
      split
      · split
        · exact h
        · dsimp only
          split
          · refine Steady.heatAccess (Steady.wakeRange (h.upd rfl rfl fun hi => { hi.laws with mem := Mem.putLine_wf hi.mem _ _, coh := ?_ }))
            exact hi.coh.sub (List.Subset.refl _) List.erase_subset (List.Subset.refl _) (List.Subset.refl _)
          · exact h.upd rfl rfl fun hi => { hi.laws with
              coh := hi.coh.sub (List.Subset.refl _) List.erase_subset (List.Subset.refl _) (List.Subset.refl _) }
      · exact h
    case h_2 => exact h
    case h_3 => exact h
    case h_4 => exact .ite h.evictEntry.sendBinv h.evictEntry
    case h_5 =>
      split
      · exact h
      split
      · exact h
      split
      · exact h.sendBinv
      split
      · exact h.sendBinv
      have hroom : Steady s (if x.tracked then t.makeDirRoom (r.key x.off / 64) else (t, true)).1 := by
        split
        · exact h.makeDirRoom
        · exact h
      generalize (if x.tracked then t.makeDirRoom (r.key x.off / 64) else (t, true)) = y at hroom ⊢
      generalize y.1 = u at hroom ⊢
      split
      · exact hroom
      split
      case h_1 => exact hroom.serveRead
      case h_2 o d _ _ hop _ => exact hroom.takeOwned fun hs => by simpa [hop, CohOp.fits] using hx hs
      case h_3 => exact hroom.writeRegion
      case h_4 => exact hroom.hostStored
      case h_5 hop _ =>
        split
        · exact hroom.emit
        · exact hroom.serveAmo fun hs => CohOp.fits_amo (hop ▸ hx hs)
      case h_6 =>
        dsimp only
        split
        · exact hroom.serveRead.setResv
        · exact hroom.serveRead.setResv
      case h_7 o d _ _ hop _ =>
        exact (Steady.ite (hroom.takeOwned fun hs => by simpa [hop, CohOp.fits] using hx hs) hroom).setResv.emit
      case h_8 => exact hroom.writeRegion
      case h_9 => exact hroom

theorem Steady.coreWaits {x : Txn} {w : Bool} (h : Steady s t) : Steady s (t.coreWaits x w) :=
  h.keeps (t.coreWaits_keeps x w) (by decide)

/-- A request that fits its line is kept. -/
theorem Coh.Lawful.request {c c' : Coh} {x : Txn} (h : c.Lawful) (hx : x.op.fits = true)
    (txns : c'.txns ⊆ x :: (c.txns ++ c.waiting)) (waiting : c'.waiting ⊆ x :: (c.txns ++ c.waiting))
    (cached : c'.cached = c.cached) (wbs : c'.wbs = c.wbs) : c'.Lawful := by
  refine ⟨fun y hy => h.lines y (by rwa [cached, wbs] at hy), fun y hy => ?_⟩
  obtain rfl | hy := List.mem_cons.1 (List.append_subset.2 ⟨txns, waiting⟩ hy)
  · exact hx
  · exact h.fits y hy

theorem Steady.keepTxn {x y : Txn} (h : Steady s t) (hx : s.Inv → x.op.fits = true) (hy : y.op = x.op) :
    Steady s { t with coh := { t.coh with txns := t.coh.txns ++ [y] } } where
  queue := h.queue
  inv hs :=
    have hi := h.inv hs
    have hcoh : ({ t.coh with txns := t.coh.txns ++ [y] } : Coh).Lawful :=
      hi.coh.request (x := y) (hy ▸ hx hs) (by simp [List.subset_def]; grind) (by simp [List.subset_def]; grind) rfl rfl
    { hi with lines := hcoh.lines, fits := hcoh.fits }
  ctrs := h.ctrs

theorem Steady.unwait {x : Txn} (h : Steady s t) : Steady s { t with coh := { t.coh with waiting := t.coh.waiting.erase x } } :=
  h.upd rfl rfl fun hi => { hi.laws with coh := hi.coh.sub (List.Subset.refl _) (List.Subset.refl _) (List.Subset.refl _) List.erase_subset }

/-- The next request that waits for a line is one that the home has kept. -/
theorem Steady.waiting_fits {p : Txn → Bool} {x : Txn} (h : Steady s t) (hx : t.coh.waiting.find? p = some x) (hs : s.Inv) :
    x.op.fits = true := (h.inv hs).fits x (List.mem_append_right _ (List.mem_of_find?_eq_some hx))

theorem Steady.runTxn : ∀ {n : Nat} {t : State} {x : Txn}, Steady s t → (s.Inv → x.op.fits = true) → Steady s (runTxn n t x) := by
  intro n
  induction n with
  | zero =>
    intro t x h hx
    have hserved := h.serveTxn hx
    unfold Machine.runTxn
    dsimp only
    split
    · exact (hserved.keepTxn (y := { x with held := true }) hx rfl).coreWaits
    · exact (hserved.keepTxn (y := { x with held := false }) hx rfl).coreWaits
    · exact hserved.coreWaits
  | succ n ih =>
    intro t x h hx
    have hserved := h.serveTxn hx
    unfold Machine.runTxn
    dsimp only
    split
    · exact (hserved.keepTxn (y := { x with held := true }) hx rfl).coreWaits
    · exact (hserved.keepTxn (y := { x with held := false }) hx rfl).coreWaits
    · have hended : Steady s ((t.serveTxn x).1.coreWaits x false) := hserved.coreWaits
      split
      · rename_i y hy
        exact ih hended.unwait (hended.waiting_fits hy)
      · exact hended

theorem Steady.request {x : Txn} (h : Steady s t) (hx : s.Inv → x.op.fits = true) : Steady s (t.request x) := by
  unfold State.request
  split
  · refine Steady.coreWaits ⟨h.queue, fun hs => ?_, h.ctrs⟩
    have hi := h.inv hs
    have hcoh : ({ t.coh with waiting := t.coh.waiting ++ [x] } : Coh).Lawful :=
      hi.coh.request (hx hs) (by simp [List.subset_def]; grind) (by simp [List.subset_def]; grind) rfl rfl
    exact { hi with lines := hcoh.lines, fits := hcoh.fits }
  · exact h.runTxn hx

theorem Steady.nextTxn {x : Txn} (h : Steady s t) : Steady s (t.nextTxn x) := by
  unfold State.nextTxn
  split
  · rename_i y hy
    exact h.unwait.runTxn (h.waiting_fits hy)
  · exact h

/-! ### Windows -/

theorem Steady.refuseWindow {source off : Nat} {write : Bool} (h : Steady s t) : Steady s (t.refuseWindow source off write) :=
  (Steady.ite h h.emit).raise

theorem Steady.serveWindow {w : HeldWindow} (h : Steady s t) : Steady s (t.serveWindow w).1 := by
  unfold State.serveWindow
  extract_lets len
  split
  · exact h.refuseWindow
  · split
    · exact h.refuseWindow
    · split
      · exact h
      · split
        · rename_i u hu
          exact h.regionWait hu
        · dsimp only
          split
          · exact h.writeRegion
          · exact .ite h.readRegion.emit h.readRegion.emit

theorem Steady.takeWindow {w : HeldWindow} (h : Steady s t) : Steady s (t.takeWindow w) := by
  have hserved : Steady s (if t.hst.held.any (fun v => v.source == w.source && v.requester == w.requester) then (t, false)
      else t.serveWindow w).1 := by
    split
    · exact h
    · exact h.serveWindow
  exact .ite hserved (hserved.same rfl)

theorem Steady.windowAccess {source requester off : Nat} {acc : Access} (h : Steady s t) :
    Steady s (t.windowAccess source requester off acc) := .ite h h.takeWindow

theorem Steady.retryWindows (h : Steady s t) : Steady s t.retryWindows :=
  (h.same rfl : Steady s { t with hst := { t.hst with held := [] } }).foldl fun u _ => (Steady.refl u).takeWindow

theorem Steady.dropTxn {x : Txn} (h : Steady s t) : Steady s { t with coh := { t.coh with txns := t.coh.txns.erase x } } :=
  h.upd rfl rfl fun hi => { hi.laws with coh := hi.coh.sub (List.Subset.refl _) (List.Subset.refl _) List.erase_subset (List.Subset.refl _) }

/-- A fold over a list whose members matter. -/
theorem Steady.foldl_mem {α : Type} {f : State → α → State} {l : List α} (h : Steady s t)
    (hf : ∀ u, ∀ a ∈ l, Steady s u → Steady s (f u a)) : Steady s (l.foldl f t) :=
  List.foldlRecOn l f h fun u hu a ha => hf u a ha hu

theorem Steady.retryHeld (h : Steady s t) : Steady s t.retryHeld := by
  refine Steady.retryWindows (h.foldl_mem fun u x hx hu => hu.dropTxn.runTxn fun hs => ?_)
  exact (h.inv hs).fits x (List.mem_append_left _ (List.mem_of_mem_filter hx))

/-! ### The commands -/

theorem execCoherenceRequest_steady (who : CohAgent) (region off : Nat) (op : CohOp) (s : State) :
    ∃ t, execCoherenceRequest who region off op s = .next t ∧ Steady s t := by
  refine ⟨_, rfl, ?_⟩
  have h := Steady.refl s
  dsimp only
  split
  · exact h
  · split
    · split
      · exact h.dropTxn.nextTxn.retryWindows
      · exact h
    · exact .ite h (h.serveTxn fun _ => rfl)
    · split
      · split
        · rename_i y hy
          refine h.upd rfl rfl fun hi => { hi.laws with coh := hi.coh.mono (fun x hx _ => ?_) fun _ hx _ => hx }
          have hmem : y ∈ s.coh.cached := List.mem_of_find?_eq_some hy
          obtain hx | hx := List.mem_append.1 hx
          · exact List.mem_append_left _ (List.erase_subset hx)
          · obtain hx | hx := List.mem_append.1 hx
            · exact List.mem_append_right _ hx
            · exact List.mem_append_left _ (List.mem_singleton.1 hx ▸ hmem)
        · exact h
      · exact h
    · exact h.request fun _ => rfl
    · split
      · rename_i hfits
        exact h.request fun _ => (Bool.and_eq_true _ _ ▸ hfits).2
      · exact h

theorem execHostSnoop_steady (hpa : Nat) (inv : Bool) (s : State) : ∃ t, execHostSnoop hpa inv s = .next t ∧ Steady s t := by
  refine ⟨_, rfl, ?_⟩
  have h := Steady.refl s
  extract_lets line dirty u v
  have hu : Steady s u := .ite h.dropCopies h.cleanRange
  have hv : Steady s v := hu.emit
  clear_value v
  split
  · exact h
  · split
    · split
      · split
        · split
          · exact hv.serveRead
          · exact hv.serveRead
          · exact hv.takeOwned fun _ => by simp
        · exact hv
      · exact hv
    · exact hv

theorem execHostHdmAccess_steady (hpa : Nat) (caching : Bool) (acc : Access) (s : State) :
    ∃ t, execHostHdmAccess hpa caching acc s = .next t ∧ Steady s t := by
  refine ⟨_, rfl, ?_⟩
  have h := Steady.refl s
  dsimp only
  split
  · exact h
  · split
    · exact h
    · cases acc with
      | read n =>
        dsimp only
        split
        · exact h
        · split
          · exact h.raise.emit
          · exact h.request fun _ => rfl
      | write d =>
        dsimp only
        split
        · exact h
        · rename_i hlen
          split
          · exact h.raise
          · simp only [Bool.or_eq_true, decide_eq_true_eq, not_or, Nat.not_lt] at hlen
            exact h.request fun _ => decide_eq_true hlen.2

theorem execBackInvalidateAnswer_steady (hpa : Nat) (data : Option Bytes) (s : State) :
    ∃ t, execBackInvalidateAnswer hpa data s = .next t ∧ Steady s t := by
  refine ⟨_, rfl, ?_⟩
  have h := Steady.refl s
  split
  · exact h
  · extract_lets old u e c
    have hu : Steady s u := by
      simp only [u]
      split
      · exact h.upd rfl rfl fun hi => { hi.laws with mem := Mem.putLine_wf hi.mem _ _ }
      · exact h
    have hc : u.Inv → c.Lawful := by
      intro hi
      simp only [c]
      split
      · exact Coh.setDir_lawful hi.coh _
      · exact hi.coh
    clear_value c
    exact Steady.retryHeld (Steady.settleBias (hu.upd rfl rfl fun hi => { hi.laws with coh := (hc hi).same rfl }))

theorem AddFmt.fits_aligned {f : AddFmt} {off v : Nat} (h : off % f.width = 0) : (CohOp.madd f (off % 64) v).fits = true := by
  have hw : f.width ∣ 64 := by cases f <;> decide
  simp [CohOp.fits, Nat.mod_mod_of_dvd _ hw, h, Nat.mod_lt]

theorem execMemorySideAdd_steady (region off : Nat) (fmt : AddFmt) (v : Nat) (s : State) :
    ∃ t, execMemorySideAdd region off fmt v s = .next t ∧ Steady s t := by
  refine ⟨_, rfl, ?_⟩
  split
  · rename_i hal
    simp only [Bool.and_eq_true, beq_iff_eq] at hal
    exact (Steady.refl s).request fun _ => AddFmt.fits_aligned hal.2
  · exact .refl s

theorem execWcDrainAge_steady (region off : Nat) (s : State) : ∃ t, execWcDrainAge region off s = .next t ∧ Steady s t := by
  refine ⟨_, rfl, ?_⟩
  split
  · exact (Steady.refl s).same rfl
  · exact .refl s

theorem execHeatDecay_steady (s : State) : ∃ t, execHeatDecay s = .next t ∧ Steady s t :=
  ⟨_, rfl, (Steady.refl s).upd rfl rfl fun hi => { hi.laws with rgn := hi.rgn.map (fun _ => rfl) fun r hr => (hi.rgn.sizes r hr).2 }⟩

theorem execMigrationCopyDone_steady (region page : Nat) (s : State) :
    ∃ t, execMigrationCopyDone region page s = .next t ∧ Steady s t := by
  refine ⟨_, rfl, ?_⟩
  have h := Steady.refl s
  split
  · dsimp only
    split
    · exact h
    · have habandoned : Steady s { s with rgn := s.rgn.abandonMigration region page } :=
        h.upd rfl rfl fun hi => { hi.laws with rgn := Rgn.abandonMigration_lawful hi.rgn _ _ }
      exact (habandoned.migrate.setRgn fun hi => Rgn.promoteHot_lawful hi.rgn).count
  · exact h

theorem execBandwidthWindow_steady (waiting : List (Nat × List Nat)) (s : State) :
    ∃ t, execBandwidthWindow waiting s = .next t ∧ Steady s t := ⟨_, rfl, ((Steady.refl s).same rfl)⟩

end Sys2Proof.Machine
end

section
/-! SUPPORT. The work of a step, its vote and its verdict leave the queue alone and keep the invariant (R299, R305, R312, R332 to
R344, R634). -/

namespace Sys2Proof.Machine

variable {s t u : State}

/-! ### Slots -/

theorem Steady.slotWrite {d : ShardDef} {slot off : Nat} {b : Bytes} (h : Steady s t) : Steady s (t.slotWrite d slot off b) := by
  unfold State.slotWrite
  split
  · exact h.writeRegion
  · exact h

theorem Steady.slotsWait (h : Steady s t) (hw : t.slotsWait = some u) : Steady s u := by
  obtain ⟨d, -, hd⟩ := List.exists_of_findSome?_eq_some hw
  obtain ⟨a, -, ha⟩ := Option.bind_eq_some_iff.1 hd
  exact h.regionWait ha

theorem Steady.onSlots {f : State → State} (h : Steady s t) (hf : Steady s (f t)) : Steady s (t.onSlots f) := by
  unfold State.onSlots
  split
  · rename_i u hu
    exact h.slotsWait hu
  · exact hf

theorem Steady.freshLines {d : ShardDef} {slot : Nat} (h : Steady s t) : Steady s (t.freshLines d slot) := by
  unfold State.freshLines
  split
  · exact h
  · exact h.foldl fun u _ => (Steady.refl u).writeRegion

theorem Steady.writeSegCrc {d : ShardDef} {slot j ring : Nat} (h : Steady s t) : Steady s (t.writeSegCrc d slot j ring) := h.slotWrite

theorem Steady.updateSeg {d : ShardDef} {a : AuParams} {c : AuConst} {k : Option Nat} {src dst j : Nat} (h : Steady s t) :
    Steady s (t.updateSeg d a c k src dst j).1 := by
  unfold State.updateSeg
  extract_lets n g mo es at4 u₁ u₂ u₃ dg u₄ bad
  have h₁ : Steady s u₁ := h.slotWrite
  have h₂ : Steady s u₂ := .ite h₁.slotWrite h₁
  exact h₂.slotWrite.slotWrite

theorem Steady.writeSeal {d : ShardDef} {slot mode nonfinite sumsq : Nat} {hdr : SlotHdr} (h : Steady s t) :
    Steady s (t.writeSeal d slot hdr mode nonfinite sumsq) := h.slotWrite

theorem Steady.recompute {d : ShardDef} {a : AuParams} {src dst mode : Nat} {hdr : SlotHdr} {keep : Option Nat} (h : Steady s t) :
    Steady s (t.recompute d a src dst hdr mode keep) := by
  unfold State.recompute
  extract_lets src0 _ c₁ c₂ u₁ u₂ k x
  have h₂ : Steady s u₂ := h.slotWrite.slotWrite
  have hx : Steady s x.1 := h₂.foldl_fst (x := (u₂, 0, [])) fun v _ => (Steady.refl v.1).updateSeg
  exact hx.writeSeal

/-! ### The step's record, phases and end -/

theorem Steady.onStep {f : Step → Step} (h : Steady s t) : Steady s (t.onStep f) := h.same rfl

theorem Steady.addEntry {e : Bytes} (h : Steady s t) : Steady s (t.addEntry e) := h.onStep

theorem Steady.faultEntry {op mb kind va region page line : Nat} (h : Steady s t) :
    Steady s (t.faultEntry op mb kind va region page line) := h.keeps (t.faultEntry_keeps _ _ _ _ _ _ _) (by decide)

theorem Steady.phaseStart {i : Nat} (h : Steady s t) : Steady s (t.phaseStart i) := by
  unfold State.phaseStart
  split
  · exact h
  · exact .ite h h.onStep.trace

theorem Steady.phaseEnd {i : Nat} (h : Steady s t) : Steady s (t.phaseEnd i) := by
  unfold State.phaseEnd
  split
  · exact h
  · exact h.onStep.trace

theorem Steady.dropWork (h : Steady s t) : Steady s t.dropWork := h.same rfl

theorem Steady.freeSlots {x : Step} (h : Steady s t) : Steady s (t.freeSlots x) := h.same rfl

theorem Steady.abortQueued (h : Steady s t) : Steady s t.abortQueued := h.keeps t.abortQueued_keeps (by decide)

theorem Steady.setStp {p : Stp} (h : Steady s t) : Steady s { t with stp := p } := h.same rfl

theorem Steady.endStep {code cls : Nat} {ls : Int} (h : Steady s t) : Steady s (t.endStep code cls ls) := by
  unfold State.endStep
  split
  · exact h
  · dsimp only
    refine Steady.raise ?_
    have hended : ∀ {x p}, Steady s { (t.dropWork).freeSlots x with stp := p } := h.dropWork.freeSlots.setStp
    exact .ite hended hended.abortQueued

theorem Steady.policy {committed skipped : Bool} (h : Steady s t) : Steady s (t.policy committed skipped).1 :=
  h.keeps (t.policy_keeps _ _) (by decide)

theorem Steady.commitState {ring round : Nat} {ls : Int} {but : List Nat} (h : Steady s t) :
    Steady s (t.commitState ring round ls but) := h.fence.same rfl

theorem Steady.commitStep {v : Verdict} (h : Steady s t) : Steady s (t.commitStep v) := by
  unfold State.commitStep
  split
  · exact h
  · rename_i st _
    extract_lets u₁ u₂ _ u₃ u₄ x
    have h₂ : Steady s u₂ := h.phaseStart.commitState
    have h₄ : Steady s u₄ := h₂.same rfl
    exact h₄.policy.phaseEnd.endStep

/-! ### The verdict -/

theorem Steady.redoFails {d : ShardDef} {op l : Nat} (h : Steady s t) : Steady s (t.redoFails d op l) := h.raise.faultEntry.onStep

theorem Steady.clipRound {st : Step} {k : Nat} (h : Steady s t) : Steady s (t.clipRound st k) := by
  unfold State.clipRound
  split
  · exact h
  · refine h.foldl fun u d => ?_
    split
    · split
      · exact (Steady.refl u).redoFails
      · exact (Steady.refl u).recompute
    · exact .refl u

theorem Steady.refereeRound (h : Steady s t) : Steady s t.refereeRound := h.keeps t.refereeRound_keeps (by decide)

theorem Steady.hopeless (h : Steady s t) : Steady s t.hopeless := h.onStep

theorem Steady.noteVerdict {st : Step} {v : Verdict} {watch : List WatchEntry} (h : Steady s t) :
    Steady s (t.noteVerdict st v watch) := by
  unfold State.noteVerdict
  extract_lets u₁ u₂ u₃ u₄ cs
  have h₂ : Steady s u₂ := h.onStep.setStp
  have h₄ : Steady s u₄ := h₂.phaseEnd.trace
  exact .ite h₄.onStep h₄

theorem Steady.nextRound {st : Step} {k : Option Nat} (h : Steady s t) : Steady s (t.nextRound st k) := h.phaseStart.setStp

theorem Steady.nextClip {st : Step} {v : Verdict} (h : Steady s t) : Steady s (t.nextClip st v) := h.nextRound.addEntry.clipRound

theorem Steady.decideVerdict {v : Verdict} {watch : List WatchEntry} (h : Steady s t) : Steady s (t.decideVerdict v watch) := by
  cases hact : t.stp.active with
  | none =>
    unfold State.decideVerdict
    rw [hact]
    exact h
  | some st =>
    have hnoted : Steady s (t.noteVerdict st v watch) := h.noteVerdict
    rw [State.decideVerdict_eq hact]
    cases v.rule with
    | commit => exact hnoted.commitStep
    | skip | hold => exact hnoted.policy.endStep
    | clip => exact hnoted.nextClip
    | referee c => exact (Steady.ite hnoted.nextClip hnoted.nextRound).refereeRound.hopeless

theorem Moved.steady {round : Nat} {v : Verdict} {w : List WatchEntry} (h : Steady s t) (hm : Moved t round v w u) : Steady s u := by
  cases hm with
  | stands => exact h.emits.onStep
  | decides => exact h.emits.decideVerdict

theorem Steady.verdictMove (h : Steady s t) (hm : t.verdictMove = some u) : Steady s u := by
  obtain ⟨st, r, -, -, ⟨w, hm⟩ | ⟨-, m, v, w, hm⟩⟩ := State.verdictMove_cases hm
  · exact hm.steady h
  · exact hm.steady (h.setStp : Steady s (t.takeVerdict m))

theorem Steady.verdictMoves : ∀ {n : Nat} {t : State}, Steady s t → Steady s (verdictMoves n t) := by
  intro n
  induction n with
  | zero => exact fun h => h
  | succ n ih =>
    intro t h
    unfold Machine.verdictMoves
    split
    · rename_i u hu
      exact ih (h.verdictMove hu)
    · exact h

theorem Steady.vote {v : Verdict} {clear : Bool} (h : Steady s t) : Steady s (t.vote v clear) := by
  cases hact : t.stp.active with
  | none =>
    unfold State.vote
    rw [hact]
    exact h
  | some st =>
    rw [State.vote_eq hact]
    exact Steady.verdictMoves (h.phaseStart.fence.onStep.setStp : Steady s (t.voted v clear st))

/-! ### Local holds -/

theorem Steady.floodNotice {ring attempt round but : Nat} (h : Steady s t) : Steady s (t.floodNotice ring attempt round but) := h.emits

theorem Steady.stopStep (h : Steady s t) : Steady s t.stopStep := h.dropWork.onStep

theorem Steady.endFree {code : Nat} (h : Steady s t) : Steady s (t.endFree code) := by
  unfold State.endFree
  split
  · exact h
  · exact h.endStep

theorem Steady.localHold {code : Nat} (h : Steady s t) : Steady s (t.localHold code) := by
  obtain he | ⟨f, he⟩ | he | ⟨st, -, he⟩ := t.localHold_cases code <;> rw [he]
  · exact h
  · exact h.onStep
  · exact h.endFree
  · exact h.stopStep.onStep.floodNotice.vote

theorem Steady.owedHold (h : Steady s t) : Steady s t.owedHold := by
  unfold State.owedHold
  split
  · exact .ite h.localHold h
  · exact h

theorem Steady.ghostVote {ring code : Nat} (h : Steady s t) : Steady s (t.ghostVote ring code) :=
  .ite h (Steady.vote (Steady.floodNotice h.setStp))

/-! ### Failing units and memory errors -/

theorem Steady.unitFails {x : UnitRef} (h : Steady s t) : Steady s (t.unitFails x) :=
  (h.same rfl : Steady s { t with aon := { t.aon with faultN := false } }).raise.localHold

theorem Steady.badLine {k line : Nat} (h : Steady s t) : Steady s (t.badLine k line) := by
  unfold State.badLine
  extract_lets _ u
  have hu : Steady s u := h.same rfl
  exact .ite h (.ite hu.unitFails hu)

theorem Steady.markPoison {line : Nat} (h : Steady s t) : Steady s (t.markPoison line) := h.same rfl

theorem Steady.countBad {line : Nat} (h : Steady s t) : Steady s (t.countBad line) := by
  unfold State.countBad
  split
  · exact h
  · exact h.badLine

theorem Steady.poisonLine {line : Nat} (h : Steady s t) : Steady s (t.poisonLine line) := h.markPoison.countBad

theorem Steady.correctIn {k : Nat} (h : Steady s t) : Steady s (t.correctIn k) := by
  unfold State.correctIn
  extract_lets now old mine _ u v
  have hu : Steady s u := h.same rfl
  exact .ite hu.count.raise hu.count

theorem Steady.correctLine {line : Nat} (h : Steady s t) : Steady s (t.correctLine line) := by
  unfold State.correctLine
  split
  · exact h
  · exact h.correctIn

theorem Steady.eccRead {line : Nat} {e : Ecc} (h : Steady s t) : Steady s (t.eccRead line e) := by
  cases e with
  | ok => exact h
  | corrected => exact h.correctLine
  | uncorrectable => exact h.poisonLine

/-! ### Instances -/

theorem Steady.setInst {op mb : Nat} {x : InstState} (h : Steady s t) : Steady s (t.setInst op mb x) := h.onStep

theorem Steady.issue {p : Plan} {st : Step} {op mb : Nat} (h : Steady s t) : Steady s (t.issue p st op mb) := by
  unfold State.issue
  refine Steady.trace ?_
  split
  · exact h.onStep.phaseStart
  · exact h.onStep

theorem Steady.enter {code op mb : Nat} {x : Step × Plan} (h : Steady s t) (he : t.enter code op mb = some (u, x)) : Steady s u := by
  unfold State.enter at he
  split at he
  · cases he
  · split at he
    · cases he
    · split at he
      · cases he
        exact h.issue
      · split at he
        · split at he
          · cases he
            exact h.setInst
          · cases he
        · cases he

theorem Steady.traceTask {x : Task} {ended : Bool} (h : Steady s t) : Steady s (t.traceTask x ended) := h.trace

theorem Steady.startTask {a : Place} {op mb : Nat} (h : Steady s t) : Steady s (t.startTask a op mb) := by
  have hwoken : Steady s ((t.wakeBlock (.groveClock a.grove)).wakeBlock (.grovePower a.grove)) := h.wakeBlock.wakeBlock
  exact .ite h (Steady.traceTask (hwoken.same rfl))

theorem Steady.setEng {e : Eng} (h : Steady s t) : Steady s { t with eng := e } := h.same rfl

theorem Steady.endTasks {op mb : Nat} (h : Steady s t) : Steady s (t.endTasks op mb) :=
  h.setEng.foldl fun u _ => (Steady.refl u).traceTask

theorem Steady.computed {op mb : Nat} (h : Steady s t) : Steady s (t.computed op mb) := h.setInst

theorem Steady.instDone {op mb code : Nat} (h : Steady s t) : Steady s (t.instDone op mb code) := by
  have hended : Steady s ((((t.fence.setInst op mb (.done code)).trace 0 false 0x02 uRanger 0
    (leBytes 2 op ++ leBytes 1 mb ++ leBytes 1 code))).endTasks op mb) := h.fence.setInst.trace.endTasks
  unfold State.instDone
  extract_lets u v
  have hv : Steady s v := hended
  split
  · exact hv
  · split
    · exact hv
    · exact .ite hv.phaseEnd hv

theorem Steady.instFails {op mb code : Nat} (h : Steady s t) : Steady s (t.instFails op mb code) := h.instDone.localHold

theorem Steady.obstacle {op mb : Nat} {o : AccRes × Nat × Nat × Bool} (h : Steady s t) : Steady s (t.obstacle op mb o) := by
  unfold State.obstacle
  split
  · exact h.setInst
  · exact h.recallHost
  · exact h
  · exact h
  · exact (Steady.ite h.raise h).trace.faultEntry.instFails
  · exact h.raise.faultEntry.instFails

theorem Steady.resolveCount {cache : Nat} {a : Nat × Nat × Bool} (h : Steady s t) (hr : t.resolveCount cache a = some u) : Steady s u := by
  refine h.foldlM (fun x c v hv => ?_) hr
  split at hv
  · cases hv
    exact .refl x
  · obtain ⟨y, hy, rfl⟩ := Option.map_eq_some_iff.1 hv
    split at hy
    · obtain ⟨g, hg, rfl⟩ := Option.map_eq_some_iff.1 hy
      exact ((Steady.refl x).withTables fun hi => Rgn.resolve_lawful hi.rgn hg).count.look
    · cases hy
      exact (Steady.refl x).look

theorem Steady.permit {op mb cache : Nat} {accs : List (Nat × Nat × Bool)} (h : Steady s t) :
    Steady s (t.permit op mb cache accs).1 := by
  unfold State.permit
  split
  · dsimp only
    exact h.obstacle
  · rename_i u hu
    have hu : Steady s u := h.foldlM (fun x a v hv => (Steady.refl x).resolveCount hv) hu
    split
    · exact hu
    · exact hu.obstacle

theorem Steady.endHostWait {kept : Bool} (h : Steady s t) : Steady s (t.endHostWait kept) := by
  unfold State.endHostWait
  split
  · exact h
  · exact h.foldl fun u _ => .ite (Steady.refl u).setInst (Steady.refl u).instFails

/-! ### Patrol scrub and bridge groups -/

theorem execPatrolScrub_steady (stack : Fin 24) (lines : List (Nat × Nat × Ecc)) (s : State) :
    ∃ t, execPatrolScrub stack lines s = .next t ∧ Steady s t := by
  refine ⟨_, rfl, .ite (.refl s) ((Steady.refl s).foldl fun u l => ?_)⟩
  have h := Steady.refl u
  split
  · dsimp only
    split
    · exact h
    · exact .ite h.wakeRange.eccRead.raise h.wakeRange.eccRead
  · extract_lets _ v w
    have hv : Steady u v := h.same rfl
    split
    · exact hv
    · exact hv.correctIn
    · exact (Steady.ite hv.markPoison hv).badLine.raise

theorem execBridgeCrcFail_steady (failed : BridgeTransfer) (s : State) : ∃ t, execBridgeCrcFail failed s = .next t ∧ Steady s t := by
  refine ⟨_, rfl, ?_⟩
  extract_lets n _ u
  have hu : Steady s u := (Steady.refl s).same rfl
  exact .ite (.refl s) (.ite (Steady.unitFails (hu.same rfl)) hu)

theorem execUnitFailure_steady (x : UnitRef) (s : State) : ∃ t, execUnitFailure x s = .next t ∧ Steady s t := by
  refine ⟨_, rfl, ?_⟩
  split
  · exact (Steady.refl s).unitFails
  · exact .refl s

end Sys2Proof.Machine
end

section
/-! SUPPORT. Fabric ports, flow contexts and the flits they send and receive leave the queue alone and keep the invariant (R372
to R387). -/

namespace Sys2Proof.Machine

variable {s t u : State}

/-! ### Ports -/

theorem Steady.setPort {n : Nat} {p : Port} (h : Steady s t) : Steady s (t.setPort n p) := h.same rfl

theorem Steady.portState {n pi : Nat} {p : Port} (h : Steady s t) : Steady s (t.portState n p pi) := .ite h.setPort h.setPort.trace

theorem Steady.fabricNote {addr code : Nat} {ports : List Nat} (h : Steady s t) : Steady s (t.fabricNote addr ports code) := h.raise

theorem Steady.setFab {f : Fab} (h : Steady s t) : Steady s { t with fab := f } := h.same rfl

theorem Steady.floodRecord {r : LinkState} {but : Nat} (h : Steady s t) : Steady s (t.floodRecord r but) := h.emits

theorem Steady.linkChange (h : Steady s t) : Steady s t.linkChange := h.keeps t.linkChange_keeps (by decide)

theorem Steady.portSend {n : Nat} {x : Flit} (h : Steady s t) : Steady s (t.portSend n x) := by
  unfold State.portSend
  split
  · exact h
  · exact .ite h.setPort.emit.count h.setPort

theorem Steady.sendFlit {b vc : Nat} {x : Flit} (h : Steady s t) : Steady s (t.sendFlit b vc x) := by
  unfold State.sendFlit
  split
  · exact h.portSend
  · exact h

theorem Steady.drainPort : ∀ {k n : Nat} {t : State}, Steady s t → Steady s (drainPort k t n) := by
  intro k
  induction k with
  | zero => exact fun h => h
  | succ k ih =>
    intro n t h
    unfold Machine.drainPort
    split
    · split
      · exact .ite (ih h.setPort.portSend) h
      · exact h
    · exact h

theorem Steady.drain {n : Nat} (h : Steady s t) : Steady s (t.drain n) := by
  unfold State.drain
  split
  · exact h.drainPort
  · exact h

/-! ### Sending on a flow context -/

theorem Steady.setCtx {c : SendCtx} (h : Steady s t) : Steady s (t.setCtx c) := h.same rfl

theorem Steady.ctxFailNote {dst : Nat} (h : Steady s t) : Steady s (t.ctxFailNote dst) := h.raise.same rfl

theorem Steady.endCtx {c : SendCtx} {code : Nat} (h : Steady s t) : Steady s (t.endCtx c code) := by
  unfold State.endCtx
  extract_lets u
  have hu : Steady s u := h.setCtx
  clear_value u
  split
  · exact .ite hu.instFails hu
  · exact hu

theorem Steady.failCtx {c : SendCtx} (h : Steady s t) : Steady s (t.failCtx c) := h.ctxFailNote.endCtx

theorem Steady.launch {me : Nat} {r : Bool × Nat} {x : Flit} (h : Steady s t) : Steady s (t.launch me r x) := by
  unfold State.launch
  extract_lets y
  split
  · exact h.sendFlit
  · exact h

theorem Steady.pumpCtx : ∀ {k n : Nat} {t : State}, Steady s t → Steady s (pumpCtx k t n) := by
  intro k
  induction k with
  | zero => exact fun h => h
  | succ k ih =>
    intro n t h
    unfold Machine.pumpCtx
    split
    · split
      · exact h
      · split
        · exact h
        · split
          · exact h.failCtx
          · exact ih h.setCtx.launch
    · exact h

theorem Steady.pump {n : Nat} (h : Steady s t) : Steady s (t.pump n) := by
  unfold State.pump
  split
  · exact h.pumpCtx
  · exact h

theorem Steady.sendMessage {n : Nat} {b : Bytes} (h : Steady s t) : Steady s (t.sendMessage n b) := by
  unfold State.sendMessage
  split
  · exact .ite h h.setCtx.pump
  · exact h

theorem Steady.askFails {op mb dst : Nat} (h : Steady s t) : Steady s (t.askFails op mb dst) := h.ctxFailNote.instFails

theorem Steady.checkReach (h : Steady s t) : Steady s t.checkReach := by
  unfold State.checkReach
  extract_lets u
  have hu : Steady s u := h.foldl fun v _ => (Steady.refl v).failCtx
  clear_value u
  split
  · exact hu
  · refine hu.foldl fun v i => ?_
    split
    · exact .ite (Steady.refl v).askFails (.refl v)
    · exact .refl v

/-! ### Ports that go down, retrain and replay -/

theorem Steady.handOffFlits {n : Nat} {drop : Bool} (h : Steady s t) : Steady s (t.handOffFlits n drop) := by
  unfold State.handOffFlits
  split
  · exact h
  · extract_lets flits others u v
    have hv : Steady s v := (h.setPort : Steady s u).foldl fun w _ => (Steady.refl w).sendFlit
    clear_value v
    split
    · exact h.setPort
    · split
      · exact hv.setPort
      · exact hv

theorem Steady.portDown {n : Nat} (h : Steady s t) : Steady s (t.portDown n) := by
  unfold State.portDown
  extract_lets u
  have hu : Steady s u := h.handOffFlits
  clear_value u
  split
  · exact hu
  · exact hu.portState.fabricNote.linkChange.checkReach

theorem Steady.portRetrain {n : Nat} (h : Steady s t) : Steady s (t.portRetrain n) := by
  unfold State.portRetrain
  split
  · exact h
  · extract_lets now l u v
    have hu : Steady s u := h.setPort
    have hv : Steady s v := hu.handOffFlits
    clear_value u v
    split
    · exact hu.portDown
    · split
      · exact hv.portState
      · exact hv

theorem Steady.replay {n : Nat} {seq : BitVec 8} (h : Steady s t) : Steady s (t.replay n seq) := by
  unfold State.replay
  split
  · exact h
  · extract_lets keep again u v
    have hv : Steady s v := h.portState.count.emits
    exact .ite h (.ite hv.portRetrain hv)

theorem execNakReceive_steady (port : Fin 36) (seq : BitVec 8) (s : State) : ∃ t, execNakReceive port seq s = .next t ∧ Steady s t :=
  ⟨_, rfl, .ite (Steady.refl s).replay (.refl s)⟩

theorem execFlitAckTimeout_steady (port : Fin 36) (s : State) : ∃ t, execFlitAckTimeout port s = .next t ∧ Steady s t := by
  refine ⟨_, rfl, ?_⟩
  split
  · split
    · exact .ite (Steady.refl s).replay (.refl s)
    · exact .refl s
  · exact .refl s

theorem execRetrainTimeout_steady (port : Fin 36) (s : State) : ∃ t, execRetrainTimeout port s = .next t ∧ Steady s t := by
  refine ⟨_, rfl, ?_⟩
  split
  · exact .ite (Steady.refl s).portDown (.refl s)
  · exact .refl s

theorem execPortRetryTimer_steady (port : Fin 36) (s : State) : ∃ t, execPortRetryTimer port s = .next t ∧ Steady s t := by
  refine ⟨_, rfl, ?_⟩
  split
  · exact .ite (Steady.refl s).portState (.refl s)
  · exact .refl s

theorem execE2eAck_steady (ctx cseq : Nat) (m : E2eMsg) (s : State) : ∃ t, execE2eAck ctx cseq m s = .next t ∧ Steady s t := by
  refine ⟨_, rfl, ?_⟩
  have h := Steady.refl s
  split
  · exact h
  · dsimp only
    split
    · exact h
    · split
      · exact h.setCtx.pump
      · exact h.setCtx.pump
      · exact h.endCtx
      · exact h.failCtx

theorem execContextStallTimeout_steady (ctx : Nat) (s : State) : ∃ t, execContextStallTimeout ctx s = .next t ∧ Steady s t := by
  refine ⟨_, rfl, ?_⟩
  have h := Steady.refl s
  split
  · split
    · exact h
    · split
      · exact h.failCtx
      · exact .ite h.failCtx (h.setCtx.count.foldl fun u _ => (Steady.refl u).launch)
  · exact h

/-! ### Receiving -/

theorem Steady.setRctx {c : RecvCtx} (h : Steady s t) : Steady s (t.setRctx c) := h.same rfl

theorem Steady.ackCtx {c : RecvCtx} (h : Steady s t) : Steady s (t.ackCtx c) := h.setRctx.emit

theorem Steady.settleRctx {r : RecvCtx × Bool} (h : Steady s t) : Steady s (t.settleRctx r) :=
  .ite h.setRctx (.ite h.setRctx.emit.ctxFailNote h.setRctx.emit)

theorem Steady.ctxFlit {x : Flit} (h : Steady s t) : Steady s (t.ctxFlit x) := by
  unfold State.ctxFlit
  extract_lets _ u
  have hu : Steady s u := .ite h h.setFab
  clear_value u
  split
  · exact hu.emit
  · exact .ite hu (.ite hu.settleRctx.ackCtx hu.settleRctx)

theorem execFlowAckInterval_steady (src ctx : Nat) (s : State) : ∃ t, execFlowAckInterval src ctx s = .next t ∧ Steady s t := by
  refine ⟨_, rfl, ?_⟩
  split
  · exact .ite (Steady.refl s).ackCtx (.refl s)
  · exact .refl s

theorem Steady.nakPort {n : Nat} (h : Steady s t) : Steady s (t.nakPort n) := by
  unfold State.nakPort
  split
  · exact .ite h h.portState.portSend
  · exact h

theorem Steady.settlePort {n : Nat} (h : Steady s t) : Steady s (t.settlePort n) := by
  unfold State.settlePort
  split
  · exact .ite h.portState h
  · exact h

theorem Steady.routeFlit {x : Flit} (h : Steady s t) : Steady s (t.routeFlit x) := by
  unfold State.routeFlit
  split
  · exact h
  · split
    · exact h.ctxFlit
    · split
      · exact h.sendFlit
      · exact h

theorem execFlitReceive_steady (port : Fin 36) (flit : Bytes) (corrected uncorrectable : Nat) (laneErr : List Nat) (s : State) :
    ∃ t, execFlitReceive port flit corrected uncorrectable laneErr s = .next t ∧ Steady s t := by
  refine ⟨_, rfl, ?_⟩
  split
  · exact .refl s
  · extract_lets p u
    have hu : Steady s u := (Steady.refl s).setPort.count
    clear_value u
    split
    · exact .refl s
    · split
      · exact hu.nakPort
      · split
        extract_lets p' v q w
        have hv : Steady s v := hu.setPort.drain.settlePort
        have hw : Steady s w := hv.setPort.settlePort
        clear_value v w
        exact .ite hv (.ite hv.nakPort (.ite hw.routeFlit hw))

end Sys2Proof.Machine
end

section
/-! SUPPORT. Tensors that are read and written, and the accesses of mailbox slots, leave the queue alone and keep the invariant
(R83, R454, R484 to R487, R501, R513). -/

namespace Sys2Proof.Machine

variable {s t u : State}

/-! ### Tensors -/

theorem Steady.readTile {d : TD} {i : Nat} (h : Steady s t) : Steady s (t.readTile d i).2.2 := by
  unfold State.readTile
  extract_lets a x y
  have hx : Steady s x.2 := h.readVa
  simp only [y]
  split
  · exact hx
  · exact hx.readVa

theorem Steady.loadSome {keep : List Nat → Bool} {d : TD} (h : Steady s t) : Steady s (t.loadSome keep d).2 := by
  refine h.foldl_snd (x := (#[], t)) fun v c => ?_
  split
  · exact (Steady.refl v.2).readTile
  · exact .refl v.2

theorem Steady.load {d : TD} (h : Steady s t) : Steady s (t.load d).2 := h.loadSome

theorem Steady.loadOpt {d : Option TD} {keep : List Nat → Bool} (h : Steady s t) : Steady s (t.loadOpt d keep).2 := by
  unfold State.loadOpt
  split
  · rename_i x
    have hx : Steady s (t.loadSome keep x).2 := h.loadSome
    exact hx
  · exact h

theorem Steady.writeTile {d : TD} {i : Nat} {el side : Bytes} (h : Steady s t) : Steady s (t.writeTile d i el side) :=
  .ite h.writeVa h.writeVa.writeVa

theorem Steady.storeTiles {d : TD} {cs : List (List Nat)} {f : List Nat → Val} (h : Steady s t) :
    Steady s (t.storeTiles d cs f).1 := h.foldl_fst (x := (t, 0, 0)) fun v _ => (Steady.refl v.1).writeTile

theorem Steady.watchAdd {desc conv sat : Nat} (h : Steady s t) : Steady s (t.watchAdd desc conv sat) := h.onStep

theorem Steady.storeOut {p : Plan} {op slot : Nat} {d : TD} {f : List Nat → Val} (h : Steady s t) :
    Steady s (t.storeOut p op slot d f) := h.storeTiles.watchAdd

theorem Steady.nonfiniteAdd {desc n : Nat} (h : Steady s t) : Steady s (t.nonfiniteAdd desc n) := .ite h h.onStep

theorem Steady.flatVals {d : TD} {k : Nat} (h : Steady s t) : Steady s (t.flatVals d k).2 := h.readTile

/-! ### Slots -/

theorem Steady.handOver {k : Nat} (h : Steady s t) : Steady s (t.handOver k) := by
  refine .ite h (.ite h.raise (Steady.drainUndefined ?_))
  exact h.upd rfl rfl fun hi => { hi.laws with mbx := Store.wf_write hi.mbx _ _ }

theorem Steady.slotStore {k off : Nat} {d : Bytes} (h : Steady s t) : Steady s (t.slotStore k off d) := by
  unfold State.slotStore
  extract_lets cells _ u hands
  have hcells : t.mbx.cells.wf = true → cells.wf = true :=
    foldl_keeps (P := fun c : Store => c.wf = true) (fun c i hc => by
      dsimp only
      split
      · exact hc
      · exact Store.wf_write hc _ _) _ _
  have hu : Steady s u := h.upd rfl rfl fun hi => { hi.laws with mbx := hcells hi.mbx }
  exact .ite h (.ite h.raise (.ite hu.handOver hu))

theorem Steady.bar0Access {off : Nat} {acc : Access} (h : Steady s t) : Steady s (t.bar0Access off acc) := by
  refine .ite h ?_
  cases acc with
  | read n => exact .ite h.emit h.emit.raise
  | write d => exact .ite (.ite h.slotStore h) h.emit.raise

theorem Steady.coreSlotAccess {n off : Nat} {acc : Access} (h : Steady s t) : Steady s (t.coreSlotAccess n off acc) := by
  cases acc with
  | read k => exact .ite h.emit h.emit
  | write d => exact .ite h.slotStore h.emit

theorem execMbxOwnWrite_steady (k : SlotId) (s : State) : ∃ t, execMbxOwnWrite k s = .next t ∧ Steady s t :=
  ⟨_, rfl, .ite (.refl s) (Steady.refl s).handOver⟩

theorem execSlotWrite_steady (by_ : Issuer) (addr : Nat) (acc : Access) (s : State) :
    ∃ t, execSlotWrite by_ addr acc s = .next t ∧ Steady s t := by
  refine ⟨_, rfl, ?_⟩
  cases by_ with
  | host => exact (Steady.refl s).bar0Access
  | core n => exact .ite (Steady.refl s).coreSlotAccess (.refl s)

theorem Att.ack_length {a : Att} (h : a.list.length ≤ 256) (x : BitVec 16) : (a.ack x).list.length ≤ 256 :=
  (List.length_filter_le _ _).trans h

theorem queryBody_steady (r : Req) (s : State) : Steady s (queryBody r s).1 := by
  have h := Steady.refl s
  unfold queryBody
  split
  · exact h
  · split
    · exact h
    · exact .ite (h.upd rfl rfl fun hi => { hi.laws with attn := Att.ack_length hi.attn _ }) h

end Sys2Proof.Machine
end

section
/-! SUPPORT. Repairs, the referee and recovery by slot state leave the queue alone and keep the invariant (R313 to R315, R345, R354,
R355, R529). -/

namespace Sys2Proof.Machine

variable {s t u : State}

/-! ### Repairs -/

theorem Steady.setTrn {g : Trn} (h : Steady s t) : Steady s { t with trn := g } := h.same rfl

theorem Steady.repairNote {d : ShardDef} {row : Nat} (h : Steady s t) : Steady s (t.repairNote d row) := h.raise.addEntry

theorem Steady.poisonEntry {d : ShardDef} (h : Steady s t) : Steady s (t.poisonEntry d) := by
  unfold State.poisonEntry
  split
  · exact h.faultEntry
  · exact h

theorem Steady.loseShard {d : ShardDef} (h : Steady s t) : Steady s (t.loseShard d) := by
  unfold State.loseShard
  extract_lets _ u
  have hu : Steady s u := h.setTrn
  exact hu.poisonEntry.raise.addEntry.localHold

theorem Steady.askTwin {d : ShardDef} {other : Nat} (h : Steady s t) : Steady s (t.askTwin d other) := by
  unfold State.askTwin
  split
  · exact h.emit
  · exact h

theorem Steady.fetchTwin {d : ShardDef} (h : Steady s t) : Steady s (t.fetchTwin d) := by
  unfold State.fetchTwin
  split
  · exact .ite h.loseShard h.askTwin.setTrn
  · exact h.loseShard

theorem Steady.readyCommitted {d : ShardDef} (h : Steady s t) : Steady s (t.readyCommitted d).1 := by
  unfold State.readyCommitted
  extract_lets x slot other hdr
  clear_value x slot other hdr
  split
  · exact h
  · split
    · exact h
    · split
      · split
        · exact h.freshLines.recompute.repairNote
        · exact h.fetchTwin
      · exact h.fetchTwin

theorem Steady.repairData {d : ShardDef} {ring : Nat} {slot : Bytes} (h : Steady s t) : Steady s (t.repairData d ring slot) := by
  unfold State.repairData
  extract_lets good prog c u _ v _ w
  have hu : Steady s u := h.slotWrite.fence
  have hv : Steady s v := h.slotWrite.fence
  have hw : Steady s w := hv.setTrn
  clear_value good prog u w
  exact .ite (.ite h.finishProg hu.setTrn.finishProg) (.ite (.ite h.loseShard hw.repairNote) h)

/-! ### The referee -/

theorem Steady.settleReferee {shard : Nat} (h : Steady s t) : Steady s (t.settleReferee shard) := by
  unfold State.settleReferee
  split
  · extract_lets _ tell
    have htell : ∀ w, Steady s (tell w) := fun w => h.emits.setTrn
    clear_value tell
    split
    · exact htell _
    · split
      · split
        · exact htell _
        · exact h.emits.setTrn
      · exact h
  · exact h

theorem Steady.endDispute {shard loser : Nat} (h : Steady s t) : Steady s (t.endDispute shard loser) := h.onStep.addEntry

theorem Steady.answerFetch {src : Nat} {d : ShardDef} (h : Steady s t) : Steady s (t.answerFetch src d) := by
  unfold State.answerFetch
  split
  · exact h
  · exact .ite h.raise.localHold.emit h.emit

theorem Steady.takeFetch {src shard ring : Nat} (h : Steady s t) : Steady s (t.takeFetch src shard ring) := by
  unfold State.takeFetch
  split
  · exact h
  · exact .ite h (.ite h.setTrn h.answerFetch)

theorem Steady.serveFetches (h : Steady s t) : Steady s t.serveFetches := h.setTrn.foldl fun u _ => (Steady.refl u).takeFetch

theorem execRefereeFetch_steady (m : RefereeMsg) (s : State) : ∃ t, execRefereeFetch m s = .next t ∧ Steady s t := by
  refine ⟨_, rfl, (Steady.refl s).onSlots ?_⟩
  have h := Steady.refl s
  dsimp only
  split
  · exact h
  · cases m with
    | request src shard ring => exact h.takeFetch
    | agreed shard => exact .ite h.onStep h
    | data src shard selRing slot ctl gred blaze =>
      dsimp only
      split
      · exact h
      · exact .ite h.repairData.serveFetches h.setTrn.settleReferee
    | poisoned src shard =>
      dsimp only
      split
      · exact h
      · exact .ite h.repairData h.setTrn.settleReferee
    | result shard winner =>
      dsimp only
      split
      · exact h
      · split
        · split
          · split
            · exact h.endDispute.emit
            · exact h
          · exact h
        · exact h.onStep
    | winnerSlot src shard slot =>
      dsimp only
      split
      · exact .ite h (.ite h.slotWrite.fence.endDispute.raise.setTrn.raise h.slotWrite.fence.endDispute.raise.setTrn)
      · exact h

/-! ### The whole-step action -/

theorem Steady.redo {d : ShardDef} {step : Option Step} {k : Option (Option Nat)} (h : Steady s t) : Steady s (t.redo d step k) := by
  unfold State.redo
  split
  · exact h
  · exact h.recompute

theorem Steady.setPln {p : Pln} (h : Steady s t) : Steady s { t with pln := p } := h.same rfl

theorem Steady.resumeCommit {r : Resume} {round : Nat} (h : Steady s t) : Steady s (t.resumeCommit r round) := by
  unfold State.resumeCommit
  extract_lets k want but hdrs u₁ ls allow u₂ _ u₃ u₄ _ u₅
  have h₁ : Steady s u₁ := by
    refine h.foldl fun v d => .ite (.refl v) ?_
    split
    · exact .ite (.refl v) (Steady.refl v).redo
    · exact (Steady.refl v).redo
    · exact .refl v
  clear_value u₁
  have h₃ : Steady s u₃ := h₁.commitState.setStp
  clear_value u₃
  have h₄ : Steady s u₄ := by
    simp only [u₄]
    split
    · exact h₃.setPln
    · exact h₃
  clear_value u₄
  have h₅ : Steady s u₅ := by
    simp only [u₅]
    split
    · exact h₄.policy.endStep
    · split
      · exact h₄.endStep
      · exact h₄.raise
  clear_value u₅
  exact (h₅.foldl fun v d => (Steady.refl v).raise.fetchTwin).serveFetches

theorem Steady.settleClasses {n : Nat} (h : Steady s t) : Steady s (t.settleClasses n) := by
  have hagain : Steady s (State.settleClasses.again n t) := h.foldl fun v d => .ite (Steady.refl v).redo (.refl v)
  unfold State.settleClasses
  split
  · exact .ite h.resumeCommit hagain
  · exact hagain

theorem Steady.resumeVote {r : Resume} {st : Step} {v : Verdict} (h : Steady s t) : Steady s (t.resumeVote r st v) := by
  unfold State.resumeVote
  extract_lets owed bad _ u w st' _ u' u''
  have hu : Steady s u := h.foldl fun v d => (Steady.refl v).redo
  clear_value u owed bad
  have hu'' : Steady s u'' := Steady.ite hu.setStp.floodNotice hu.setStp
  clear_value u''
  split
  · exact (h.setStp.redoFails).localHold
  · exact hu''.verdictMoves.owedHold

theorem Steady.resumeHold {r : Resume} (h : Steady s t) : Steady s (t.resumeHold r) := by
  unfold State.resumeHold
  split
  · exact h.ghostVote
  · exact h.setStp.localHold

theorem Steady.applyResume {r : Resume} (h : Steady s t) : Steady s (t.applyResume r) := by
  unfold State.applyResume
  extract_lets _ u own allow r' whole
  have hu : Steady s u := h.setStp
  clear_value u own allow whole r'
  split
  · exact hu.resumeCommit
  · split
    · exact .ite hu.resumeVote hu.resumeHold
    · exact hu.resumeHold

theorem Steady.settleResume (h : Steady s t) : Steady s t.settleResume := by
  unfold State.settleResume
  split
  · exact .ite h.applyResume h
  · exact h

theorem Steady.beginResume (h : Steady s t) : Steady s t.beginResume := by
  unfold State.beginResume
  split
  · extract_lets ns _ u
    have hu : Steady s u := h.setStp
    exact .ite h hu.emits.settleResume
  · exact h

theorem execVerdictHistoryRequest_steady (m : HistoryMsg) (s : State) :
    ∃ t, execVerdictHistoryRequest m s = .next t ∧ Steady s t := by
  refine ⟨_, rfl, (Steady.refl s).onSlots ?_⟩
  have h := Steady.refl s
  dsimp only
  split
  · exact h
  · cases m with
    | request src =>
      dsimp only
      split
      · exact h.emit
      · exact h
    | answer src vs =>
      dsimp only
      split
      · exact h.setStp.settleResume
      · exact h

end Sys2Proof.Machine
end

section
/-! SUPPORT. Commands about training state, and the arrival update, leave the queue alone and keep the invariant (R275 to R288, R299 to
R304, R526 to R529). -/

namespace Sys2Proof.Machine

variable {s t u : State}

/-! ### Shards, exports and imports -/

theorem shardDefineBody_steady (q : Req) (s : State) : Steady s (shardDefineBody q s).1 := by
  unfold shardDefineBody
  extract_lets d
  clear_value d
  split
  · exact .refl s
  · split
    · exact .refl s
    · split
      · exact .refl s
      · exact (Steady.refl s).setTrn

theorem Steady.poisonReply {r : Region} {line : Nat} (h : Steady s t) : Steady s (t.poisonReply r line) := h.raise

theorem Steady.sxWait {r : Region} {off n : Nat} {store : Bool} (h : Steady s t) (hw : t.sxWait r off n store = some u) : Steady s u := by
  obtain hw | ⟨-, hw⟩ := (Option.orElse_eq_some _ _ _).1 hw
  · exact h.slotsWait hw
  · exact h.regionWait hw

theorem Steady.exportTo {r : Region} {off ring : Nat} {b : Bytes} (h : Steady s t) : Steady s (t.exportTo r off ring b).1 := by
  unfold State.exportTo
  split
  · exact h
  · exact h.writeRegion.fence

theorem Steady.undefineTo {r : Region} {off n : Nat} (h : Steady s t) : Steady s (t.undefineTo r off n) := .ite h h.undefineRegion

theorem Steady.cmdRead_ok {va len : Nat} {b : Bytes} (h : Steady s t) (hr : t.cmdRead va len = .ok (b, u)) : Steady s u := by
  unfold State.cmdRead at hr
  split at hr
  · cases hr
  · rename_i v hv
    have hu : (v.readVa va len).2 = u := congrArg Prod.snd (Except.ok.inj hr)
    exact hu ▸ (h.cmdAccess_ok hv).readVa

theorem Steady.cmdRead_error {va len code : Nat} (h : Steady s t) (hr : t.cmdRead va len = .error (code, u)) : Steady s u := by
  unfold State.cmdRead at hr
  split at hr
  · rename_i e he
    cases hr
    exact h.cmdAccess_error he
  · cases hr

theorem stateExportBody_steady (q : Req) (s : State) : Steady s (stateExportBody q s).1 := by
  have h := Steady.refl s
  unfold stateExportBody
  split
  · exact h
  · extract_lets off len id x
    clear_value off len id x
    split
    · split
      · exact h
      · split
        · exact h
        · split
          · exact h
          · split
            · exact h
            · split
              · rename_i v _ hv
                exact h.sxWait hv
              · exact h.poisonReply.cmdFailed h.poisonReply.undefineTo
              · exact h.exportTo
    · split
      · exact h
      · extract_lets n
        split
        · exact h
        · split
          · exact h
          · split
            · exact h
            · split
              · rename_i v hv
                exact h.regionWait hv
              · split
                · rename_i c v hv
                  exact (h.cmdRead_error hv).cmdFailed (h.cmdRead_error hv).undefineTo
                · rename_i b v hv
                  exact (h.cmdRead_ok hv).exportTo

theorem Steady.undefineSlot {d : ShardDef} {slot : Nat} (h : Steady s t) : Steady s (t.undefineSlot d slot) := by
  unfold State.undefineSlot
  split
  · exact h.undefineRegion.undefineRegion
  · exact h

theorem stateImportBody_steady (q : Req) (s : State) : Steady s (stateImportBody q s).1 := by
  have h := Steady.refl s
  unfold stateImportBody
  split
  · exact h
  · rename_i r _
    extract_lets off len id fetch blocked
    have hfetch : ∀ {v : State} {n : Nat}, Steady s v → Steady s (fetch v n).2 := fun hv => hv.readRegion
    have hblocked : ∀ {n : Nat} {undef : State → State} {x : State × Resp}, (∀ v, Steady v (undef v)) →
        blocked s n undef = some x → Steady s x.1 := by
      intro n undef x hundef hx
      simp only [blocked] at hx
      split at hx
      · cases hx
        exact h
      · split at hx
        · rename_i v hv
          cases hx
          exact h.sxWait hv
        · obtain ⟨l, -, rfl⟩ := Option.map_eq_some_iff.1 hx
          exact h.poisonReply.cmdFailed (h.poisonReply.trans (hundef _))
    clear_value off len id fetch blocked
    split
    · split
      · exact h
      · extract_lets n x slot v w
        split
        · exact h
        · split
          · exact h
          · split
            · rename_i x hx
              exact hblocked (fun v => (Steady.refl v).undefineSlot) hx
            · have hv : Steady s v := (hfetch h).slotWrite
              have hw : Steady s w := hv.slotWrite.fence
              clear_value w
              split
              · exact hw
              · exact hw.setTrn
    · split
      · exact h
      · extract_lets n x w ring ls
        split
        · exact h
        · split
          · exact h
          · split
            · rename_i x hx
              exact hblocked (fun v => (Steady.refl v).undefineVa) hx
            · have hx : Steady s x.2 := hfetch h
              clear_value x w ring ls
              split
              · exact h
              · split
                · rename_i c v hv
                  exact (hx.cmdAccess_error hv).cmdFailed (hx.cmdAccess_error hv).undefineVa
                · rename_i v hv
                  exact (hx.cmdAccess_ok hv).writeVa.fence.setTrn

theorem State.askTwin_mbx (s : State) (d : ShardDef) (other : Nat) : (s.askTwin d other).mbx = s.mbx := by
  unfold State.askTwin
  split <;> rfl

theorem execShardRepair_steady (k : SlotId) (s : State) : ∃ t, execShardRepair k s = .next t ∧ Steady s t := by
  refine ⟨_, rfl, (Steady.refl s).take fun q s => ?_⟩
  have h := Steady.refl s
  dsimp only
  split
  · exact h
  · split
    · exact h
    · split
      · exact h
      · split
        · exact h
        · split
          · exact h
          · exact h.askTwin.upd rfl rfl fun hi => { hi.laws with mbx := (s.askTwin_mbx _ _) ▸ hi.mbx }

theorem blazeReadBody_steady (q : Req) (s : State) : Steady s (blazeReadBody q s).1 := by
  have h := Steady.refl s
  unfold blazeReadBody
  split
  · exact h
  · split
    · exact h
    · extract_lets x check
      split
      · rename_i v _ hv
        exact h.slotsWait hv
      · exact h.poisonReply
      · exact h

/-! ### The arrival update -/

theorem Steady.openUpdate {d : ShardDef} (h : Steady s t) : Steady s (t.openUpdate d) := by
  unfold State.openUpdate
  split
  · exact h
  · split
    · exact h
    · extract_lets u
      split
      · exact h
      · split
        rename_i v good hready
        have hv : Steady s v := by
          have hready' := h.readyCommitted (d := d)
          rwa [hready] at hready'
        extract_lets slot w x
        have hx : Steady s x := Steady.foldl (hv.slotWrite.fence) fun y _ => (Steady.refl y).writeSegCrc
        clear_value x
        exact .ite hv.setTrn hx.setTrn

theorem Steady.gredArrive {d : ShardDef} {j : Nat} {b : Bytes} (h : Steady s t) : Steady s (t.gredArrive d j b) := by
  unfold State.gredArrive
  split
  · exact h
  · extract_lets slot u x v
    have hu : Steady s u := h.slotWrite
    have hv : Steady s v := .ite hu.writeSegCrc.fence hu
    clear_value v
    exact hv.setTrn.openUpdate

theorem Steady.updateDone {shard : Nat} (h : Steady s t) : Steady s (t.updateDone shard) := by
  unfold State.updateDone
  split
  · split
    · exact h
    · split
      · split
        · exact .ite h.computed h
        · exact h
      · exact h
  · exact h

theorem execArrivalUpdate_steady (op : Nat) (place : Place) (s : State) : ∃ t, execArrivalUpdate op place s = .next t ∧ Steady s t := by
  refine ⟨_, rfl, (Steady.refl s).onSlots ?_⟩
  have h := Steady.refl s
  split
  · exact h
  · rename_i v _ _ hv
    have hv := h.enter hv
    split
    · exact hv
    · exact hv.startTask.openUpdate.updateDone

theorem execSegmentUpdateDone_steady (shard seg : Nat) (s : State) :
    ∃ t, execSegmentUpdateDone shard seg s = .next t ∧ Steady s t := by
  refine ⟨_, rfl, (Steady.refl s).onSlots ?_⟩
  split
  · exact .refl s
  · rename_i d _
    extract_lets u
    have hu : Steady s u := .ite (Steady.refl s).openUpdate (.refl s)
    clear_value u
    split
    · split
      · exact hu
      · split
        · exact hu
        · split
          · exact hu.obstacle
          · extract_lets a c r x v w
            have hv : Steady s v := hu.updateSeg.fence
            have hw : Steady s w := hv.writeSeal.fence
            clear_value v w
            exact .ite hv.setTrn hw.setTrn.updateDone
    · exact hu

end Sys2Proof.Machine
end

section
/-! SUPPORT. Chain collectives, peer reads and delivered messages leave the queue alone and keep the invariant (R206, R290, R291, R345,
R384, R386, R406 to R421). -/

namespace Sys2Proof.Machine

variable {s t u : State}

/-! ### The reduction -/

theorem Steady.setChain {c : Chain} (h : Steady s t) : Steady s (t.setChain c) := h.same rfl

theorem Steady.sendChain {p : Plan} {op dst : Nat} {m : ChainMsg} (h : Steady s t) : Steady s (t.sendChain p op dst m) := by
  unfold State.sendChain
  split
  · exact h.sendMessage
  · exact h

theorem Steady.quantTile {p : Plan} {op k : Nat} {g e q eNew : TD} {dl : Int} {valid : Bool} (h : Steady s t) :
    Steady s (t.quantTile p op g e q eNew k dl valid) := by
  have hread : Steady s ((t.flatVals g k).2.flatVals e k).2 := h.flatVals.flatVals
  unfold State.quantTile
  dsimp only
  generalize ((t.flatVals g k).2.flatVals e k).2 = v at hread
  exact hread.writeTile.nonfiniteAdd.writeTile

theorem Steady.segsWait {d : TD} {params : Nat} {segs : List Nat} (h : Steady s t) (hw : t.segsWait d params segs = some u) :
    Steady s u := by
  obtain ⟨x, -, hx⟩ := List.exists_of_findSome?_eq_some hw
  split at hx
  · cases hx
    exact h.recallHost
  · cases hx
    exact h
  · cases hx
    exact h
  · cases hx

theorem Steady.contribOf {q : TD} {params j : Nat} (h : Steady s t) : Steady s (t.contribOf q params j).2 :=
  h.foldl_snd (x := ([], t)) fun v _ => (Steady.refl v.2).flatVals

theorem Steady.reduceDone {d : ShardDef} {c : Chain} {onLine : Bool} (h : Steady s t) : Steady s (t.reduceDone d c onLine) :=
  .ite h.computed h

theorem Steady.passSum {st : Step} {p : Plan} {d : ShardDef} {me j : Nat} {c : Chain} {run : List Nat} (h : Steady s t) :
    Steady s (t.passSum st p d me c j run) := by
  unfold State.passSum
  extract_lets l b v msg x y
  have hv : Steady s v := h.setChain
  have hx : Steady s x := hv.gredArrive
  have hy : Steady s y := .ite (.ite hx.sendChain hx) hv.sendChain
  clear_value y
  split
  · exact hy.reduceDone
  · exact hy

theorem Steady.badHop {src : Nat} (h : Steady s t) : Steady s (t.badHop src) := h.fabricNote.localHold

theorem Steady.takeReduce {st : Step} {p : Plan} {m : ChainMsg} {raw : Bytes} (h : Steady s t) : Steady s (t.takeReduce st p m raw) := by
  unfold State.takeReduce
  split
  · extract_lets l c
    clear_value l c
    split
    · exact .ite h.badHop (.ite h h.setChain.gredArrive.reduceDone)
    · split
      · exact h.badHop
      · split
        · exact h
        · split
          · split
            · rename_i v hv
              exact (h.segsWait hv).setFab
            · exact h.contribOf.passSum
          · exact h
  · exact h.setFab

/-! ### The all-gather -/

theorem Steady.writeSegRecords {d : TD} {params j : Nat} {b : Bytes} (h : Steady s t) : Steady s (t.writeSegRecords d params j b) :=
  h.foldl_fst (x := (t, b)) fun v _ => (Steady.refl v.1).writeTile

theorem Steady.convertSeg {d : ShardDef} {x : TD} {j : Nat} (h : Steady s t) : Steady s (t.convertSeg d x j) := by
  unfold State.convertSeg
  extract_lets w a
  exact .ite h.writeSegRecords (h.foldl fun v _ => (Steady.refl v).storeTiles)

theorem Steady.servePoison {va reg page line : Nat} (h : Steady s t) : Steady s (t.servePoison va reg page line) := h.raise.localHold

theorem Steady.segRecords {d : TD} {params j : Nat} (h : Steady s t) : Steady s (t.segRecords d params j).2 :=
  h.foldl_snd (x := ([], t)) fun v _ => (Steady.refl v.2).readTile

theorem Steady.serveSegs {st : Step} {d : ShardDef} {x : TD} {c : Chain} {hop : Nat} {digests : Bool} {segs : List Nat}
    {send : State → ChainMsg → State} (h : Steady s t) (hsend : ∀ v m, Steady v (send v m)) :
    Steady s (t.serveSegs st d x c hop digests segs send) := by
  unfold State.serveSegs
  extract_lets v
  have hv : Steady s v := .ite (h.foldl hsend) h
  refine hv.foldl fun w j => ?_
  dsimp only
  split
  · exact (Steady.refl w).servePoison
  · exact ((Steady.refl w).segRecords).trans (hsend _ _)

theorem Steady.serveGather {shard n : Nat} (h : Steady s t) : Steady s (t.serveGather shard n) := by
  unfold State.serveGather
  split
  · split
    · exact h
    · split
      · exact h
      · extract_lets l segs
        split
        · rename_i v hv
          exact h.segsWait hv
        · exact h.setChain.serveSegs fun v m => (Steady.refl v).sendChain
  · exact h

theorem Steady.refetch {d : ShardDef} {c : Chain} {key : Nat} (h : Steady s t) : Steady s (t.refetch d c key) :=
  .ite h.raise.instFails h.setChain.emit

theorem Steady.gatherDone {d : ShardDef} {c : Chain} (h : Steady s t) : Steady s (t.gatherDone d c) := .ite h.computed h

theorem Steady.takeGather {p : Plan} {n : Nat} {m : ChainMsg} {raw : Bytes} (h : Steady s t) : Steady s (t.takeGather p n m raw) := by
  unfold State.takeGather
  extract_lets _ hold
  have hhold : Steady s hold := h.setFab
  clear_value hold
  split
  · rename_i d c me _ _ _
    extract_lets l key es c'
    clear_value c'
    split
    · exact h.badHop
    · split
      · exact .ite h (.ite h.setChain (.ite h.setChain.serveGather h.refetch))
      · split
        · exact hhold
        · split
          · exact h
          · split
            · exact h.refetch
            · split
              · exact h
              · rename_i x _
                extract_lets spans
                have hpermit : Steady s (t.permit c.op 0 (agentCache 0) (spans.map fun x => (x.va, x.len, true))).1 := h.permit
                split
                · rename_i v heq
                  rw [heq] at hpermit
                  exact hpermit.setFab
                · rename_i v heq
                  rw [heq] at hpermit
                  exact hpermit.writeSegRecords.setChain.serveGather.gatherDone
  · exact hhold

/-! ### Arrival -/

theorem Steady.chainArrives {n : Nat} {b : Bytes} (h : Steady s t) : Steady s (t.chainArrives n b) := by
  unfold State.chainArrives
  extract_lets m
  split
  · exact h
  · exact h.setFab
  · split
    · exact h
    · exact .ite h.takeReduce (.ite h.takeGather h)

theorem Steady.redeliver (h : Steady s t) : Steady s t.redeliver := h.setFab.foldl fun v _ => (Steady.refl v).chainArrives

theorem execChainMessage_steady (msg : Bytes) (s : State) : ∃ t, execChainMessage msg s = .next t ∧ Steady s t :=
  ⟨_, rfl, (Steady.refl s).onSlots (.ite (Steady.refl s).chainArrives (.refl s))⟩

theorem execGatherMessage_steady (gather : Nat) (msg : Bytes) (s : State) : ∃ t, execGatherMessage gather msg s = .next t ∧ Steady s t :=
  ⟨_, rfl, .ite (Steady.refl s).chainArrives.redeliver (.refl s)⟩

theorem Steady.gatherAsked {g : GatherReq} (h : Steady s t) : Steady s (t.gatherAsked g) := by
  unfold State.gatherAsked
  extract_lets src shard n
  split
  · extract_lets l
    split
    · exact h.setChain.serveGather
    · split
      · split
        · split
          · rename_i v hv
            exact (h.segsWait hv).setFab
          · exact h.serveSegs fun v m => (Steady.refl v).emit
        · exact h
      · exact h
  · exact h

theorem execGatherRequest_steady (src shard attempt ring gather : Nat) (s : State) :
    ∃ t, execGatherRequest src shard attempt ring gather s = .next t ∧ Steady s t := by
  refine ⟨_, rfl, ?_⟩
  have h := Steady.refl s
  split
  · exact h
  · extract_lets g _ keep
    have hkeep : Steady s keep := h.setFab
    clear_value keep
    split
    · exact h
    · exact hkeep
    · exact .ite h.gatherAsked hkeep

end Sys2Proof.Machine
end

section
/-! SUPPORT. CHAIN_REDUCE, ALLGATHER, peer reads and delivered messages leave the queue alone and keep the invariant (R206, R345,
R384, R386, R406 to R421). -/

namespace Sys2Proof.Machine

variable {s t u : State}

theorem execChainReduce_steady (op : Nat) (place : Place) (s : State) : ∃ t, execChainReduce op place s = .next t ∧ Steady s t := by
  refine ⟨_, rfl, (Steady.refl s).onSlots ?_⟩
  split
  · exact .refl s
  · rename_i v st p he
    have h := (Steady.refl s).enter he
    clear he
    split
    · rename_i d me _ _
      split
      · exact h
      · extract_lets c
        clear_value c
        split
        · rename_i g e eNew q _ _ _
          have hpermit : Steady s (v.permit op 0 place.grove
            (g.accs false ++ e.accs false ++ eNew.accs true ++ q.accs true)).1 := h.permit
          split
          · rename_i w heq
            rw [heq] at hpermit
            exact hpermit
          · rename_i w heq
            rw [heq] at hpermit
            clear heq
            extract_lets rs w₁ w₂ w₃
            have h₁ : Steady s w₁ := hpermit.foldl fun x k => (Steady.refl x).quantTile
            clear_value w₁
            have h₂ : Steady s w₂ := h₁.startTask.setChain
            clear_value w₂
            refine Steady.redeliver (.ite (h₂.foldl fun x j => ?_) h₂)
            dsimp only
            split
            · exact ((Steady.refl x).contribOf).passSum
            · exact (Steady.refl x).contribOf
        · exact h.setChain.redeliver
    · exact h

theorem Steady.servePeer {r : PeerRead} (h : Steady s t) : Steady s (t.servePeer r) := by
  unfold State.servePeer
  split
  · exact h.emit
  · exact h.emit
  · rename_i v _ hv
    have hv : Steady s v := h.resolveCount hv
    split
    · exact hv.readVa.emit
    · exact hv.recallHost.setFab
    · exact hv.setFab
    · exact hv.setFab
    · exact hv.servePoison
    · exact hv.raise.emit
    · exact hv.emit

theorem Steady.servePeers (h : Steady s t) : Steady s t.servePeers := by
  unfold State.servePeers
  extract_lets now
  exact .ite h (h.setFab.foldl fun x r => (Steady.refl x).servePeer)

theorem execPeerReadRequest_steady (src ring va len : Nat) (s : State) :
    ∃ t, execPeerReadRequest src ring va len s = .next t ∧ Steady s t :=
  ⟨_, rfl, .ite (Steady.refl s).setFab.servePeers (.refl s)⟩

theorem Steady.consumed {c : RecvCtx} {rest : List Bytes} (h : Steady s t) : Steady s (t.consumed c rest) :=
  .ite h.settleRctx.ackCtx h.settleRctx

theorem Steady.takePush {src va : Nat} {b : Bytes} (h : Steady s t) : Steady s (t.takePush src va b).1 := by
  unfold State.takePush
  split
  · exact h.emit
  · exact h.emit
  · rename_i v _ hv
    have hv : Steady s v := h.resolveCount hv
    split
    · exact h
    · exact h
    · exact h.recallHost
    · exact hv.raise.emit
    · exact hv.emit
    · exact hv.writeVa

theorem execFlowMessageComplete_steady (src ctx : Nat) (dest : Delivery) (s : State) :
    ∃ t, execFlowMessageComplete src ctx dest s = .next t ∧ Steady s t := by
  have h := Steady.refl s
  refine ⟨_, rfl, h.onSlots ?_⟩
  split
  · exact h
  · split
    · exact h
    · split
      · exact h
      · cases dest with
        | chain n => exact .ite h.chainArrives.setFab h.chainArrives.consumed.redeliver
        | tile va => exact .ite h.takePush.consumed h.takePush

theorem Steady.gathersAsked {l : List GatherReq} (h : Steady s t) : Steady s (l.foldl State.gatherAsked t) :=
  h.foldl fun x _ => (Steady.refl x).gatherAsked

theorem execAllGather_steady (op : Nat) (s : State) : ∃ t, execAllGather op s = .next t ∧ Steady s t := by
  refine ⟨_, rfl, (Steady.refl s).onSlots ?_⟩
  split
  · exact .refl s
  · rename_i v st p he
    have h := (Steady.refl s).enter he
    clear he
    split
    · rename_i d me x _ _ _
      extract_lets n l c mine asked
      have hasked : ∀ {w}, Steady s w → Steady s (asked w) := fun hw => hw.setFab.gathersAsked
      clear_value asked mine c
      split
      · exact (hasked h).serveGather.redeliver
      · split
        · split
          · exact h
          · have hpermit : Steady s (v.permit op 0 (agentCache 0) (x.accs true)).1 := h.permit
            split
            · rename_i w heq
              rw [heq] at hpermit
              exact hpermit
            · rename_i w heq
              rw [heq] at hpermit
              clear heq
              extract_lets slot w₁ hd entries c'
              split
              · exact hpermit.obstacle
              · have h₁ : Steady s w₁ := hpermit.foldl fun y j => (Steady.refl y).convertSeg
                clear_value w₁ c'
                exact (hasked h₁.setChain).gatherDone
        · exact .ite h.askFails (hasked h.setChain.emit).redeliver
    · exact h

end Sys2Proof.Machine
end

section
/-! SUPPORT. The mailbox commands on memory, transfers, shards and state, and the transfer engines' steps, leave the queue alone and
keep the invariant (R236 to R272, R454 to R483, R499 to R518). -/

namespace Sys2Proof.Machine

variable {s t u : State}

/-! ### Mailbox commands -/

/-- A command whose whole effect is to take a request. -/
theorem Steady.takes (k : SlotId) (mine : Req → Bool) (s : State) {body : Req → State → State × Resp}
    (hbody : ∀ r u, Steady u (body r u).1) : ∃ t, (.next (s.take k mine body) : Host.Outcome State Fault Refusal) = .next t ∧ Steady s t :=
  ⟨_, rfl, (Steady.refl s).take hbody⟩

theorem execRegionCreate_steady (k : SlotId) (s : State) : ∃ t, execRegionCreate k s = .next t ∧ Steady s t :=
  Steady.takes k _ s regionCreateBody_steady

theorem execRegionRegister_steady (k : SlotId) (s : State) : ∃ t, execRegionRegister k s = .next t ∧ Steady s t :=
  Steady.takes k _ s regionRegisterBody_steady

theorem execBiasSetShared_steady (k : SlotId) (s : State) : ∃ t, execBiasSetShared k s = .next t ∧ Steady s t :=
  Steady.takes k _ s biasSharedBody_steady

theorem execBiasSetDevice_steady (k : SlotId) (s : State) : ∃ t, execBiasSetDevice k s = .next t ∧ Steady s t :=
  Steady.takes k _ s biasDeviceBody_steady

theorem execObjectPin_steady (k : SlotId) (s : State) : ∃ t, execObjectPin k s = .next t ∧ Steady s t :=
  Steady.takes k _ s objectPinBody_steady

theorem execMap_steady (k : SlotId) (s : State) : ∃ t, execMap k s = .next t ∧ Steady s t :=
  Steady.takes k _ s mapBody_steady

theorem execUnmap_steady (k : SlotId) (s : State) : ∃ t, execUnmap k s = .next t ∧ Steady s t :=
  Steady.takes k _ s unmapBody_steady

theorem execRegionInfo_steady (k : SlotId) (s : State) : ∃ t, execRegionInfo k s = .next t ∧ Steady s t :=
  Steady.takes k _ s regionInfoBody_steady

theorem execDmaSubmit_steady (k : SlotId) (s : State) : ∃ t, execDmaSubmit k s = .next t ∧ Steady s t :=
  Steady.takes k _ s dmaSubmitBody_steady

theorem execDmaStatus_steady (k : SlotId) (s : State) : ∃ t, execDmaStatus k s = .next t ∧ Steady s t :=
  Steady.takes k _ s dmaStatusBody_steady

theorem execInfo_steady (k : SlotId) (s : State) : ∃ t, execInfo k s = .next t ∧ Steady s t :=
  Steady.takes k _ s fun _ u => .refl u

theorem execQuery_steady (k : SlotId) (s : State) : ∃ t, execQuery k s = .next t ∧ Steady s t :=
  Steady.takes k _ s queryBody_steady

theorem execShardDefine_steady (k : SlotId) (s : State) : ∃ t, execShardDefine k s = .next t ∧ Steady s t :=
  Steady.takes k _ s shardDefineBody_steady

theorem execStateExport_steady (k : SlotId) (s : State) : ∃ t, execStateExport k s = .next t ∧ Steady s t :=
  Steady.takes k _ s stateExportBody_steady

theorem execStateImport_steady (k : SlotId) (s : State) : ∃ t, execStateImport k s = .next t ∧ Steady s t :=
  Steady.takes k _ s stateImportBody_steady

theorem execBlazeRead_steady (k : SlotId) (s : State) : ∃ t, execBlazeRead k s = .next t ∧ Steady s t :=
  Steady.takes k _ s blazeReadBody_steady

/-! ### The DMA engines -/

theorem execDmaChunk_steady (ch : Fin 128) (s : State) : ∃ t, execDmaChunk ch s = .next t ∧ Steady s t := by
  have h := Steady.refl s
  refine ⟨_, rfl, ?_⟩
  extract_lets c d
  split
  · exact h
  · split
    · exact h.dmaObstacle
    · exact h.dmaLook.readVa.writeVa.count.setChan

theorem execDmaTransferEnd_steady (ch : Fin 128) (s : State) : ∃ t, execDmaTransferEnd ch s = .next t ∧ Steady s t := by
  have h := Steady.refl s
  refine ⟨_, rfl, ?_⟩
  extract_lets c d v final w x
  have hv : Steady s v := h.dmaLook
  have hw : Steady s w := .ite hv hv.writeVa
  have hx : Steady s x := .ite hw.fence.writeVa.emit hw
  split
  · exact h
  · split
    · exact h.dmaObstacle
    · exact hx.setChan

/-! ### The host link -/

theorem Rgn.hostLost_lawful {g : Rgn} (h : g.Lawful) : g.hostLost.Lawful := by
  have hmap := h.map (f := fun r => { r with
    reg := r.reg.map fun x => { x with sources := x.sources / 2 * 2 }, stale := r.stale || r.kind != 0 }) (fun _ => rfl) fun r hr => (h.sizes r hr).2
  exact ⟨hmap.tbl, hmap.ids, hmap.sizes⟩

theorem Steady.dropHostCopies (h : Steady s t) : Steady s t.dropHostCopies :=
  h.upd rfl rfl fun hi => { hi.laws with
      coh := hi.coh.sub (List.filter_subset_self _) (List.filter_subset_self _) (List.filter_subset_self _) (List.filter_subset_self _) }

theorem Steady.linkLoss (h : Steady s t) : Steady s t.linkLoss := by
  unfold State.linkLoss
  extract_lets v w
  have hv : Steady s v := h.dropHostCopies.dmaHostLost.settleBias
  clear_value v
  have hw : Steady s w := Steady.retryHeld (hv.same rfl)
  clear_value w
  exact Steady.raise (hw.upd rfl rfl fun hi => { hi.laws with rgn := Rgn.hostLost_lawful hi.rgn })

theorem execHostLinkLoss_steady (c : LinkLossCause) (s : State) : ∃ t, execHostLinkLoss c s = .next t ∧ Steady s t :=
  ⟨_, rfl, .ite (Steady.refl s).linkLoss (.refl s)⟩

theorem execHostPerstAssert_steady (s : State) : ∃ t, execHostPerstAssert s = .next t ∧ Steady s t := by
  refine ⟨_, rfl, ?_⟩
  extract_lets up _ v w
  have hv : Steady s v := (Steady.refl s).same rfl
  clear_value v
  have hw : Steady s w := .ite hv.linkLoss hv
  clear_value w
  exact hw.same rfl

theorem execHostPerstRelease_steady (s : State) : ∃ t, execHostPerstRelease s = .next t ∧ Steady s t := by
  have h : Steady s { s with aon := { s.aon with perstN := true } } := (Steady.refl s).same rfl
  exact ⟨_, rfl, .ite (h.same rfl) h⟩

theorem execHostLinkUp_steady (width : Nat) (s : State) : ∃ t, execHostLinkUp width s = .next t ∧ Steady s t :=
  ⟨_, rfl, .ite ((Steady.refl s).same rfl) (.refl s)⟩

theorem execHostPortDownAtStart_steady (s : State) : ∃ t, execHostPortDownAtStart s = .next t ∧ Steady s t :=
  ⟨_, rfl, .ite (Steady.raise ((Steady.refl s).same rfl)) (.refl s)⟩

theorem execHostLinkRetrain_steady (width : Nat) (s : State) : ∃ t, execHostLinkRetrain width s = .next t ∧ Steady s t := by
  have h := Steady.refl s
  refine ⟨_, rfl, ?_⟩
  extract_lets _ v
  have hv : Steady s v := h.same rfl
  exact .ite h (.ite hv.raise hv)

theorem execHdmDecoderCommit_steady (base ways : Nat) (s : State) : ∃ t, execHdmDecoderCommit base ways s = .next t ∧ Steady s t :=
  ⟨_, rfl, .ite ((Steady.refl s).upd rfl rfl fun hi => { hi.laws with rgn := ⟨hi.tbl, hi.ids, hi.sizes⟩ }) (.refl s)⟩

theorem execBar2WindowAccess_steady (requester off : Nat) (acc : Access) (s : State) :
    ∃ t, execBar2WindowAccess requester off acc s = .next t ∧ Steady s t :=
  ⟨_, rfl, .ite (Steady.refl s).windowAccess (.refl s)⟩

/-! ### Adapter ports -/

theorem Steady.setHst {g : Hst} (h : Steady s t) : Steady s { t with hst := g } := h.same rfl

theorem Steady.setAdapter {i : Nat} {a : Adapter} (h : Steady s t) : Steady s (t.setAdapter i a) := h.same rfl

theorem Steady.refuseUpstream {port addr : Nat} (h : Steady s t) : Steady s (t.refuseUpstream port addr) := h.emit.raise

theorem execAdapterWindowAccess_steady (port : Fin 4) (addr : Nat) (acc : Access) (s : State) :
    ∃ t, execAdapterWindowAccess port addr acc s = .next t ∧ Steady s t :=
  ⟨_, rfl, .ite (.refl s) (.ite (Steady.refl s).windowAccess (Steady.refl s).refuseUpstream)⟩

theorem Steady.setCore {n : Nat} {c : CoreSt} (h : Steady s t) : Steady s (t.setCore n c) :=
  h.keeps (t.setCore_keeps n c) (by decide)

theorem Steady.imsicWrite {addr data : Nat} (h : Steady s t) (hw : t.imsicWrite addr data = some u) : Steady s u := by
  unfold State.imsicWrite at hw
  extract_lets off n c id add at hw
  clear_value off n c id add
  split at hw
  · cases hw
  · split at hw
    · cases hw
      exact h
    · cases hw
      exact h.setCore

theorem execAdapterInterruptMsg_steady (port : Fin 4) (addr data : Nat) (s : State) :
    ∃ t, execAdapterInterruptMsg port addr data s = .next t ∧ Steady s t := by
  have h := Steady.refl s
  refine ⟨_, rfl, ?_⟩
  split
  · exact h
  · split
    · rename_i v hv
      exact h.imsicWrite hv
    · exact h.refuseUpstream

theorem execAdapterLinkDown_steady (port : Fin 4) (s : State) : ∃ t, execAdapterLinkDown port s = .next t ∧ Steady s t := by
  have h := Steady.refl s
  refine ⟨_, rfl, ?_⟩
  split
  · exact .ite h h.setHst.setAdapter.raise
  · exact h

theorem execAdapterPerstTimeout_steady (port : Fin 4) (s : State) : ∃ t, execAdapterPerstTimeout port s = .next t ∧ Steady s t := by
  have h := Steady.refl s
  refine ⟨_, rfl, ?_⟩
  split
  · exact .ite h.setAdapter h
  · exact h

theorem execAdapterLinkUp_steady (port : Fin 4) (width rate : Nat) (s : State) :
    ∃ t, execAdapterLinkUp port width rate s = .next t ∧ Steady s t := by
  have h := Steady.refl s
  refine ⟨_, rfl, ?_⟩
  split
  · exact .ite h.setAdapter h
  · exact h

/-! ### The server cores -/

theorem Steady.stopCore {n : Nat} (h : Steady s t) : Steady s (t.stopCore n) := by
  unfold State.stopCore
  extract_lets mine lines mem done dir _ v _ w
  have hmem : t.mem.cells.wf = true → mem.cells.wf = true :=
    foldl_keeps (P := fun m : Mem => m.cells.wf = true) (fun m c hm => by
      split
      · exact Mem.putLine_wf hm _ _
      · exact hm) _ _
  have hv : Steady s v := h.upd rfl rfl fun hi => { hi.laws with
      mem := hmem hi.mem,
      coh := hi.coh.sub (List.filter_subset_self _) (List.filter_subset_self _) (List.filter_subset_self _) (List.filter_subset_self _) }
  clear_value v
  have hw : Steady s w := hv.setCore
  clear_value w
  exact hw.foldl fun x _ => (Steady.refl x).nextTxn

theorem Steady.stopCores (h : Steady s t) : Steady s t.stopCores := h.foldl fun x _ => (Steady.refl x).stopCore

theorem coresLoadBody_steady (q : Req) (s : State) : Steady s (coresLoadBody q s).1 := by
  have h := Steady.refl s
  unfold coresLoadBody
  extract_lets src len
  split
  · exact h
  · split
    · exact h
    · split
      · exact h
      · split
        · exact h
        · split
          · rename_i c v hv
            exact (h.cmdAccess_error hv).cmdFailed (h.cmdAccess_error hv).undefineRegion
          · rename_i v hv
            exact (h.cmdAccess_ok hv).readVa.writeRegion.fence

theorem coresStartBody_steady (q : Req) (s : State) : Steady s (coresStartBody q s).1 := by
  have h := Steady.refl s
  unfold coresStartBody
  extract_lets ns entry
  split
  · exact h
  · split
    · exact h
    · exact h.foldl fun x _ => (Steady.refl x).setCore

theorem coresStopBody_steady (q : Req) (s : State) : Steady s (coresStopBody q s).1 := by
  have h := Steady.refl s
  unfold coresStopBody
  split
  · exact h
  · exact h.foldl fun x _ => (Steady.refl x).stopCore

theorem execCoresLoad_steady (k : SlotId) (s : State) : ∃ t, execCoresLoad k s = .next t ∧ Steady s t :=
  Steady.takes k _ s coresLoadBody_steady

theorem execCoresStart_steady (k : SlotId) (s : State) : ∃ t, execCoresStart k s = .next t ∧ Steady s t :=
  Steady.takes k _ s coresStartBody_steady

theorem execCoresStop_steady (k : SlotId) (s : State) : ∃ t, execCoresStop k s = .next t ∧ Steady s t :=
  Steady.takes k _ s coresStopBody_steady

theorem Steady.freeBytes {n : Nat} (h : Steady s t) : Steady s (t.freeBytes n).2 := h.same rfl

theorem Steady.coreIo {n pa : Nat} {acc : CoreAccess} (h : Steady s t) (hw : t.coreIo n pa acc = some u) : Steady s u := by
  unfold State.coreIo at hw
  dsimp only at hw
  split at hw
  · cases hw
    cases acc <;> exact h.emit
  · split at hw
    · cases hw
      cases acc with
      | load k => exact h.emit
      | store d =>
        dsimp only
        split
        · cases hi : t.imsicWrite pa (leNat d) with
          | none => exact h
          | some v => exact h.imsicWrite hi
        · exact h
      | amo => exact h.emit
      | vector w => exact h.emit
    · split at hw
      · cases hw
        cases acc with
        | store d => exact h.setCore
        | load k => exact h.emit
        | amo => exact h.emit
        | vector w => exact h.emit
      · split at hw
        · cases hw
          cases acc with
          | load k => exact (h.emit.ite h).freeBytes.emit
          | store d => exact .ite h.emit h
          | amo => exact .ite h.emit h
          | vector w => exact .ite h.emit h
        · cases hw

theorem execCoreIoAccess_steady (core : Fin 96) (pa : Nat) (acc : CoreAccess) (s : State) :
    ∃ t, execCoreIoAccess core pa acc s = .next t ∧ Steady s t := by
  have h := Steady.refl s
  refine ⟨_, rfl, ?_⟩
  extract_lets n fault
  split
  · exact h
  · split
    · cases acc with
      | load k => exact h.coreSlotAccess
      | store d => exact h.coreSlotAccess
      | amo => exact h.emit
      | vector w => exact h.emit
    · refine .ite h (.ite h.emit ?_)
      cases hio : s.coreIo n pa acc with
      | none => exact h.emit
      | some v => exact h.coreIo hio

theorem execCoreTimerCompare_steady (core : Fin 96) (which : TimerCmp) (s : State) :
    ∃ t, execCoreTimerCompare core which s = .next t ∧ Steady s t :=
  ⟨_, rfl, .ite (.refl s) (Steady.refl s).setCore⟩

theorem execCoreWfi_steady (core : Fin 96) (s : State) : ∃ t, execCoreWfi core s = .next t ∧ Steady s t :=
  ⟨_, rfl, .ite (Steady.refl s).setCore (.refl s)⟩

end Sys2Proof.Machine
end

section
/-! SUPPORT. Discovery, barriers, joining and the fabric's mailbox commands leave the queue alone and keep the invariant (R365 to R402,
R602 to R605). -/

namespace Sys2Proof.Machine

variable {s t u : State}

/-! ### Barriers -/

theorem Steady.becomeMember {l : List Nat} (h : Steady s t) : Steady s (t.becomeMember l) :=
  (Steady.setFab h).fabricNote.checkReach

theorem Steady.readyResult (h : Steady s t) : Steady s t.readyResult := h.becomeMember.beginResume

theorem Steady.partialResult {me : Nat} {l : List Nat} (h : Steady s t) : Steady s (t.partialResult me l) :=
  .ite (Steady.setFab h.becomeMember).beginResume h.setFab

theorem Steady.admitted (h : Steady s t) : Steady s t.admitted := by
  unfold State.admitted
  extract_lets bare _ _ _ u
  have hu : Steady s u := h.same rfl
  clear_value u
  exact hu.linkChange.checkReach.beginResume

theorem Steady.joinResult {me : Nat} {l : List Nat} (h : Steady s t) : Steady s (t.joinResult me l) := by
  unfold State.joinResult
  extract_lets late fresh f v
  have hv : Steady s v := (Steady.setFab h).becomeMember
  exact .ite h (.ite hv.admitted hv.settleResume)

theorem Steady.barrierResult {b : Barrier} {me : Nat} {l : List Nat} (h : Steady s t) : Steady s (t.barrierResult b me l) := by
  unfold State.barrierResult
  extract_lets _ v
  have hv : Steady s v := h.setFab
  exact .ite hv.readyResult (.ite hv.partialResult hv.joinResult)

theorem Steady.barrierMove (h : Steady s t) (hm : t.barrierMove = some u) : Steady s u := by
  unfold State.barrierMove at hm
  split at hm
  · extract_lets line wanted eat next finish go at hm
    have heat : ∀ {v m}, Steady s v → Steady s (eat v m) := fun hv => hv.setFab
    have hfinish : ∀ {v l}, Steady s v → Steady s (finish v l) := by
      intro v l hv
      dsimp only [finish]
      split
      · exact hv.emits.setFab
      · exact hv.emits.setFab
      · exact hv.emits.barrierResult
    have hgo : ∀ {v l}, Steady s v → Steady s (go v l) := by
      intro v l hv
      dsimp only [go]
      split
      · exact hv.emit.setFab
      · exact hfinish hv
    clear_value wanted eat finish go
    split at hm
    · obtain ⟨m, -, hm⟩ := Option.map_eq_some_iff.1 hm
      exact hm ▸ hfinish (heat h)
    · split at hm
      · cases hm
        exact hgo h
      · obtain ⟨m, -, hm⟩ := Option.map_eq_some_iff.1 hm
        exact hm ▸ hgo (heat h)
  · cases hm

theorem Steady.barrierMoves : ∀ {n : Nat} {t : State}, Steady s t → Steady s (barrierMoves n t) := by
  intro n
  induction n with
  | zero => exact id
  | succ n ih =>
    intro t h
    unfold Machine.barrierMoves
    split
    · rename_i v hv
      exact ih (h.barrierMove hv)
    · exact h

theorem Steady.enterBarrier {kind : Nat} {own : List Nat} (h : Steady s t) : Steady s (t.enterBarrier kind own) := h.setFab.barrierMoves

theorem Steady.enterPartial (h : Steady s t) : Steady s t.enterPartial := by
  unfold State.enterPartial
  split
  · exact h
  · exact h.enterBarrier
  · exact h

/-! ### Discovery -/

theorem Steady.sendNotice (h : Steady s t) : Steady s t.sendNotice := by
  unfold State.sendNotice
  split
  · exact h
  · exact h.emits

theorem Steady.mapped (h : Steady s t) : Steady s t.mapped :=
  .ite h (.ite h.enterPartial (.ite h (.ite h.enterBarrier h.enterPartial)))

theorem Steady.formBundles (h : Steady s t) : Steady s t.formBundles := by
  unfold State.formBundles
  split
  · exact h
  · extract_lets _ f r v
    have hv : Steady s v := h.setFab
    clear_value v
    exact .ite (Steady.setFab hv).sendNotice (Steady.setFab hv).floodRecord.mapped

theorem Steady.discover (h : Steady s t) : Steady s t.discover := .ite (.ite h.formBundles h) h.mapped

/-! ### Ports -/

theorem execPortTrained_steady (port : Fin 36) (s : State) : ∃ t, execPortTrained port s = .next t ∧ Steady s t := by
  have h := Steady.refl s
  refine ⟨_, rfl, ?_⟩
  split
  · exact h
  · exact .ite h (.ite h.portState.drain h.portState.emit.discover)

theorem Steady.portJoins {n : Nat} {p : Port} (h : Steady s t) : Steady s (t.portJoins n p) := by
  have hv : Steady s (t.portState n { p with probation := false, verified := true, inBundle := true } 5).linkChange.checkReach :=
    h.portState.linkChange.checkReach
  exact .ite hv.sendNotice hv

theorem Steady.lateBy {far : IdentityMsg} (h : Steady s t) : Steady s (t.lateBy far) := .ite (Steady.setFab h).sendNotice h

theorem execIdentityExchange_steady (port : Fin 36) (far : IdentityMsg) (s : State) :
    ∃ t, execIdentityExchange port far s = .next t ∧ Steady s t := by
  have h := Steady.refl s
  refine ⟨_, rfl, ?_⟩
  split
  · exact h
  · extract_lets q
    split
    · exact h
    · split
      · exact .ite (Steady.discover (.ite h.portState h.portState.fabricNote))
          (.ite h.portState.discover h.portJoins.lateBy.discover)
      · exact Steady.discover (.ite h.portState h.portState.fabricNote)

theorem execPortProbationEnd_steady (port : Fin 36) (s : State) : ∃ t, execPortProbationEnd port s = .next t ∧ Steady s t := by
  have h := Steady.refl s
  refine ⟨_, rfl, ?_⟩
  split
  · exact .ite h.portJoins h
  · exact h

theorem execUnverifiedRetry_steady (port : Fin 36) (s : State) : ∃ t, execUnverifiedRetry port s = .next t ∧ Steady s t := by
  have h := Steady.refl s
  refine ⟨_, rfl, ?_⟩
  split
  · exact .ite h.emit h
  · exact h

theorem execDiscoveryBoundExpiry_steady (step : Nat) (s : State) : ∃ t, execDiscoveryBoundExpiry step s = .next t ∧ Steady s t := by
  have h := Steady.refl s
  refine ⟨_, rfl, ?_⟩
  extract_lets late v
  have hv : Steady s v := h.fabricNote
  clear_value v
  exact .ite h (.ite (Steady.setFab hv).discover (.ite hv.formBundles hv))

theorem execDiscoveryFloodTimeout_steady (s : State) : ∃ t, execDiscoveryFloodTimeout s = .next t ∧ Steady s t :=
  ⟨_, rfl, .ite (.refl s) (Steady.setFab (.refl s)).fabricNote⟩

/-! ### Link-state records -/

theorem Steady.markConflict {a : Nat} (h : Steady s t) : Steady s (t.markConflict a) :=
  .ite h (Steady.setFab h.fabricNote).checkReach

theorem Steady.keepRecord {bundle : Nat} {r : LinkState} (h : Steady s t) : Steady s (t.keepRecord bundle r) :=
  (Steady.setFab h).floodRecord

theorem execLinkStateRecord_steady (bundle : Nat) (r : LinkState) (s : State) :
    ∃ t, execLinkStateRecord bundle r s = .next t ∧ Steady s t := by
  have h := Steady.refl s
  refine ⟨_, rfl, .ite h ?_⟩
  extract_lets old higher clash
  clear_value higher clash
  exact .ite (Steady.markConflict (.ite h.keepRecord (.ite h h.floodRecord))) (.ite h.keepRecord.checkReach.mapped.settleResume h)

/-! ### Barrier messages and joining -/

theorem Steady.holdBarrier {kind : Nat} {m : BarrierMsg} (h : Steady s t) : Steady s (t.holdBarrier kind m) := h.setFab

theorem execReadinessBarrierMessage_steady (m : BarrierMsg) (s : State) :
    ∃ t, execReadinessBarrierMessage m s = .next t ∧ Steady s t := by
  have h := Steady.refl s
  refine ⟨_, rfl, ?_⟩
  split
  · exact .ite h.holdBarrier.barrierMoves h
  · exact .ite h.holdBarrier.barrierMoves h
  · exact h

theorem Steady.partialNow (h : Steady s t) : Steady s t.partialNow := by
  have hv : Steady s { t with fab := { t.fab with expired := true } } := h.setFab
  exact .ite hv.formBundles hv.enterPartial

theorem execPartialWaitExpiry_steady (s : State) : ∃ t, execPartialWaitExpiry s = .next t ∧ Steady s t := by
  have h := Steady.refl s
  refine ⟨_, rfl, ?_⟩
  split
  · exact .ite h.partialNow h
  · exact .ite h.partialNow h
  · exact h

theorem execPartialBarrierMessage_steady (m : BarrierMsg) (s : State) :
    ∃ t, execPartialBarrierMessage m s = .next t ∧ Steady s t := by
  have h := Steady.refl s
  refine ⟨_, rfl, ?_⟩
  split
  · exact .ite h.holdBarrier.partialNow.barrierMoves h
  · exact .ite h.holdBarrier.partialNow.barrierMoves h
  · exact h

theorem execJoinNotice_steady (m : JoinMsg) (s : State) : ∃ t, execJoinNotice m s = .next t ∧ Steady s t := by
  have h := Steady.refl s
  refine ⟨_, rfl, ?_⟩
  split
  · exact h
  · refine .ite h ?_
    cases m with
    | notice n bundle =>
      refine .ite h ?_
      extract_lets _ v w x own add
      have hv : Steady s v := h.setFab
      clear_value v
      have hw : Steady s w := hv.emits
      clear_value w
      have hx : Steady s x := .ite hw.emit hw
      clear_value x
      exact .ite hx hx.enterBarrier
    | reply members => exact .ite h (Steady.setFab h).enterBarrier

theorem execJoinBarrierMessage_steady (m : BarrierMsg) (s : State) : ∃ t, execJoinBarrierMessage m s = .next t ∧ Steady s t :=
  ⟨_, rfl, .ite (Steady.refl s).holdBarrier.barrierMoves (.refl s)⟩

theorem execJoinRetryTimer_steady (s : State) : ∃ t, execJoinRetryTimer s = .next t ∧ Steady s t :=
  ⟨_, rfl, .ite (Steady.refl s).sendNotice (.refl s)⟩

theorem execContinuityRecord_steady (r : Continuity) (s : State) : ∃ t, execContinuityRecord r s = .next t ∧ Steady s t := by
  have h := Steady.refl s
  refine ⟨_, rfl, .ite h ?_⟩
  extract_lets ring _ v
  have hv : Steady s v := h.setPln
  clear_value v
  refine .ite hv (Steady.beginResume ?_)
  exact hv.same rfl

/-! ### The fabric's mailbox commands -/

theorem fabricMapLoadBody_steady (q : Req) (s : State) : Steady s (fabricMapLoadBody q s).1 := by
  have h := Steady.refl s
  unfold fabricMapLoadBody
  extract_lets f n l size wait v
  have hv : Steady s v := h.setFab
  clear_value v wait size
  split
  · exact h
  · split
    · exact h
    · split
      · exact h
      · split
        · exact h
        · split
          · exact h
          · split
            · exact hv.partialNow
            · dsimp only
              split
              · exact .ite hv.enterPartial hv
              · exact hv.mapped

theorem execFabricMapLoad_steady (k : SlotId) (s : State) : ∃ t, execFabricMapLoad k s = .next t ∧ Steady s t :=
  Steady.takes k _ s fabricMapLoadBody_steady

theorem execFabricStatus_steady (k : SlotId) (s : State) : ∃ t, execFabricStatus k s = .next t ∧ Steady s t :=
  Steady.takes k _ s fun _ u => .refl u

theorem execPortInfo_steady (k : SlotId) (s : State) : ∃ t, execPortInfo k s = .next t ∧ Steady s t := by
  refine Steady.takes k _ s fun q u => ?_
  have h := Steady.refl u
  split
  · exact h
  · split
    · exact h
    · exact h

end Sys2Proof.Machine
end

section
/-! SUPPORT. Plans and the Glade leave the queue alone and keep the invariant (R422 to R449, R519 to R521). -/

namespace Sys2Proof.Machine

variable {s t u : State}

/-! ### Plans -/

theorem Steady.loadPlan {b : Bytes} (h : Steady s t) : Steady s (t.loadPlan b).1 := h.same rfl

theorem planLoadBody_steady (q : Req) (s : State) : Steady s (planLoadBody q s).1 := by
  have h := Steady.refl s
  unfold planLoadBody
  extract_lets va len
  split
  · exact h
  · split
    · rename_i c v hv
      exact h.cmdAccess_error hv
    · rename_i v hv
      have hv : Steady s v := h.cmdAccess_ok hv
      extract_lets x
      have hx : Steady s x.2 := hv.readVa
      clear_value x
      split
      · exact hx
      · split
        · exact hx
        · exact hx.loadPlan

theorem execPlanLoad_steady (k : SlotId) (s : State) : ∃ t, execPlanLoad k s = .next t ∧ Steady s t :=
  Steady.takes k _ s planLoadBody_steady

theorem Steady.ite_fst {α : Type} {c : Prop} [Decidable c] {x y : State × α} (hx : Steady s x.1) (hy : Steady s y.1) :
    Steady s (if c then x else y).1 := by
  split
  · exact hx
  · exact hy

theorem planDropBody_steady (q : Req) (s : State) : Steady s (planDropBody q s).1 :=
  .ite_fst (.refl s) (.ite_fst (.refl s) ((Steady.refl s).same rfl))

theorem execPlanDrop_steady (k : SlotId) (s : State) : ∃ t, execPlanDrop k s = .next t ∧ Steady s t :=
  Steady.takes k _ s planDropBody_steady

/-! ### Sources -/

theorem Steady.setGld {g : Gld} (h : Steady s t) : Steady s { t with gld := g } := h.same rfl

theorem Steady.putSource {g : Source} (h : Steady s t) : Steady s (t.putSource g) := h.setGld

theorem gladeSourceBody_steady (q : Req) (s : State) : Steady s (gladeSourceBody q s).1 :=
  .ite_fst (.refl s) (.ite_fst (.refl s) (.ite_fst (.refl s) (Steady.setGld (.refl s)).putSource))

theorem execGladeSource_steady (k : SlotId) (s : State) : ∃ t, execGladeSource k s = .next t ∧ Steady s t :=
  Steady.takes k _ s gladeSourceBody_steady

theorem gladeSetBody_steady (q : Req) (s : State) : Steady s (gladeSetBody q s).1 := by
  have h := Steady.refl s
  unfold gladeSetBody
  split
  · exact h
  · exact .ite_fst h h.putSource

theorem execGladeDisposeSet_steady (k : SlotId) (s : State) : ∃ t, execGladeDisposeSet k s = .next t ∧ Steady s t :=
  Steady.takes k _ s gladeSetBody_steady

theorem gladeOrderBody_steady (q : Req) (s : State) : Steady s (gladeOrderBody q s).1 := by
  have h := Steady.refl s
  unfold gladeOrderBody
  split
  · exact h
  · exact .ite_fst h h.putSource.setGld

theorem execGladeDisposeSubstitute_steady (k : SlotId) (s : State) : ∃ t, execGladeDisposeSubstitute k s = .next t ∧ Steady s t :=
  Steady.takes k _ s gladeOrderBody_steady

theorem gladeStatsBody_steady (q : Req) (s : State) : Steady s (gladeStatsBody q s).1 := by
  have h := Steady.refl s
  unfold gladeStatsBody
  split
  · exact h
  · exact .ite_fst h h

theorem execGladeStats_steady (k : SlotId) (s : State) : ∃ t, execGladeStats k s = .next t ∧ Steady s t :=
  Steady.takes k _ s gladeStatsBody_steady

/-! ### Reads of the Glade -/

/-- The state that a Glade's read leaves, where it leaves one, is steady from `s`. -/
def GRead.SteadyFrom (s : State) : GRead → Prop
  | .bytes _ t => Steady s t
  | .wait t => Steady s t
  | .fail _ t => Steady s t
  | .poison .. => True

theorem Steady.gladeRead {half va len : Nat} (h : Steady s t) : (t.gladeRead half va len).SteadyFrom s := by
  unfold State.gladeRead
  split
  · exact h
  · rename_i v hv
    have hv : Steady s v := h.resolveCount hv
    split
    · exact hv.readVa
    · exact hv
    · exact hv
    · exact hv.recallHost
    · trivial
    · exact hv.raise
    · exact hv

theorem Steady.stageRead {g : Source} {half off len : Nat} (h : Steady s t) : (t.stageRead g half off len).SteadyFrom s := by
  unfold State.stageRead
  split
  · split
    · exact h.gladeRead
    · exact h
  · exact h

/-! ### Prepared slots -/

theorem Steady.putPrep {r : Prep} (h : Steady s t) : Steady s (t.putPrep r) := h.setGld

theorem Steady.batchFails {op mb : Nat} {f : BatchFault} (h : Steady s t) : Steady s (t.batchFails op mb f) :=
  Steady.instFails (.ite h h.faultEntry)

theorem Steady.failGroup {r : Prep} {group : Nat} {f : BatchFault} (h : Steady s t) : Steady s (t.failGroup r group f) := by
  unfold State.failGroup
  split
  · exact .ite h.batchFails h
  · split
    · exact h.putPrep
    · exact h

theorem Steady.gladeNote {r : Prep} {e : Bytes} (h : Steady s t) : Steady s (t.gladeNote r e) := by
  unfold State.gladeNote
  split
  · exact h.addEntry
  · split
    · exact h.putPrep
    · exact h

theorem Steady.setEntry {r : Prep} {k : Nat} {f : PrepEntry → PrepEntry} (h : Steady s t) : Steady s (t.setEntry r k f) := by
  unfold State.setEntry
  split
  · exact h.putPrep
  · exact h

theorem Steady.haltEntry {r : Prep} {k reason : Nat} (h : Steady s t) : Steady s (t.haltEntry r k reason) := by
  unfold State.haltEntry
  split
  · extract_lets v w x y
    have hv : Steady s v := h.putSource
    have hw : Steady s w := hv.setEntry
    clear_value w
    have hx : Steady s x := by
      dsimp only [x]
      split
      · exact hw.putPrep
      · exact hw
    clear_value x
    have hy : Steady s y := hx.gladeNote
    clear_value y
    split
    · split
      · exact .ite hy.instFails hy.localHold
      · exact hy.localHold
    · exact hy
  · exact h

theorem Steady.corruptSample {source index reason : Nat} (h : Steady s t) : Steady s (t.corruptSample source index reason) := by
  unfold State.corruptSample
  refine Steady.raise ?_
  split
  · exact h.putSource
  · exact h

theorem Steady.failAll {r : Prep} {groups : Nat} {f : BatchFault} (h : Steady s t) : Steady s (t.failAll r groups f) :=
  h.putPrep.foldl fun v _ => (Steady.refl v).failGroup

theorem Steady.manifestPoison {g : Source} {r : Prep} {groups region page line : Nat} (h : Steady s t) :
    Steady s (t.manifestPoison g r groups region page line) := h.raise.failAll

theorem Steady.rejectManifest {g : Source} {r : Prep} {groups why : Nat} (h : Steady s t) :
    Steady s (t.rejectManifest g r groups why) := h.putSource.failAll

theorem execManifestReady_steady (source ring : Nat) (s : State) : ∃ t, execManifestReady source ring s = .next t ∧ Steady s t := by
  have h := Steady.refl s
  refine ⟨_, rfl, ?_⟩
  split
  · rename_i g p op _ _
    split
    · exact h
    · extract_lets r
      have hread : (s.gladeRead 0 (g.manifestVa + ring % 8 * g.slotBytes) (128 + 16 * g.maxEntries)).SteadyFrom s := h.gladeRead
      split
      · rename_i heq
        rw [heq] at hread
        exact hread
      · rename_i heq
        rw [heq] at hread
        exact Steady.failAll hread
      · exact h.manifestPoison
      · rename_i heq
        rw [heq] at hread
        exact .ite hread (.ite (Steady.setGld (Steady.putSource hread)) (Steady.rejectManifest hread))
  · exact h

theorem execGladePrepareStep_steady (source ring : Nat) (s : State) : ∃ t, execGladePrepareStep source ring s = .next t ∧ Steady s t := by
  have h := Steady.refl s
  refine ⟨_, rfl, ?_⟩
  split
  · rename_i g p op _ _
    extract_lets low free
    split
    · exact h
    · have hread : (s.gladeRead 0 (g.manifestVa + ring % 8 * g.slotBytes) (128 + 16 * g.maxEntries)).SteadyFrom s := h.gladeRead
      split
      · rename_i heq
        rw [heq] at hread
        exact hread
      · rename_i heq
        rw [heq] at hread
        exact Steady.failAll hread
      · exact h.manifestPoison
      · rename_i heq
        rw [heq] at hread
        refine .ite (Steady.rejectManifest hread) ((Steady.putPrep hread).foldl fun v k => ?_)
        split
        · exact (Steady.refl v).haltEntry
        · exact .refl v
  · exact h

/-! ### Lanes -/

theorem execGladeLaneStart_steady (lane : Fin 32) (source : Nat) (s : State) :
    ∃ t, execGladeLaneStart lane source s = .next t ∧ Steady s t := by
  have h := Steady.refl s
  refine ⟨_, rfl, ?_⟩
  split
  · exact h
  · split
    · exact h
    · split
      · exact (Steady.setGld h.setEntry).wakeBlock
      · exact h

theorem Steady.deliver {r : Prep} {unit : Nat} (h : Steady s t) : Steady s (t.deliver r unit) := by
  unfold State.deliver
  split
  · exact h.putPrep.putSource.count
  · exact h

theorem Steady.timeSample {r : Prep} {index unit n : Nat} (h : Steady s t) : Steady s (t.timeSample r index unit n) := by
  unfold State.timeSample
  split
  · exact h
  · extract_lets limit slow m v w
    have hv : Steady s v := h.putSource
    clear_value v
    have hw : Steady s w := hv.count
    exact .ite hw.gladeNote.count hw

theorem Steady.trySpare {g : Source} {r : Prep} {half i pos : Nat} (h : Steady s t) : Steady s (t.trySpare g r half i pos).1 := by
  have hread : (t.gladeRead half (g.spareVa + 16 * pos) 16).SteadyFrom s := h.gladeRead
  unfold State.trySpare
  split
  · rename_i heq
    rw [heq] at hread
    exact hread
  · rename_i heq
    rw [heq] at hread
    exact hread
  · exact h
  · rename_i e v heq
    rw [heq] at hread
    have hstage : (v.stageRead g half (64 * fld e 11 5) (fld e 8 3)).SteadyFrom s := Steady.stageRead hread
    dsimp only
    split
    · rename_i heq
      rw [heq] at hstage
      exact hstage
    · rename_i heq
      rw [heq] at hstage
      exact hstage
    · exact hread
    · rename_i heq
      rw [heq] at hstage
      split
      · exact hstage
      · exact hstage

theorem Steady.substitute {g : Source} {r : Prep} {half i seed : Nat} :
    ∀ {n : Nat} {t : State}, Steady s t → Steady s (substitute g r half i seed n t).1 := by
  intro n
  induction n with
  | zero => exact id
  | succ n ih =>
    intro t h
    have hspare : Steady s (t.trySpare g r half i (gPick (gDraw seed i 0xF0 (15 - n)) g.spares)).1 := h.trySpare
    unfold Machine.substitute
    split
    · rename_i heq
      rw [heq] at hspare
      exact ih hspare.corruptSample
    · rename_i heq
      rw [heq] at hspare
      exact hspare

theorem Steady.freeLane {lane : Nat} (h : Steady s t) : Steady s (t.freeLane lane) := h.setGld

theorem Steady.entryDone {lane k index n : Nat} {r : Prep} {o : SampleOut} (h : Steady s t) :
    Steady s (t.entryDone lane r k index n o) := by
  unfold State.entryDone
  extract_lets v w
  have hv : Steady s v := by
    dsimp only [v]
    split
    · exact h.undefineVa
    · exact h
  clear_value v
  have hw : Steady s w := hv.freeLane.setEntry
  clear_value w
  exact hw.timeSample.deliver

theorem Steady.substituted {lane k index reason n sub pos : Nat} {r : Prep} {o : SampleOut} (h : Steady s t) :
    Steady s (t.substituted lane r k index reason n sub pos o) := by
  unfold State.substituted
  extract_lets v
  have hv : Steady s v := by
    dsimp only [v]
    split
    · exact h.putSource
    · exact h
  exact hv.gladeNote.entryDone

theorem Steady.dispose {lane k index reason n : Nat} {g : Source} {r : Prep} {sub : Bool} (h : Steady s t) :
    Steady s (t.dispose lane g r k index reason n sub) := by
  unfold State.dispose
  extract_lets seed
  have hsub : Steady s (Machine.substitute g r (lane / 16) index seed 16 t).1 := h.substitute
  split
  · split
    · rename_i heq
      rw [heq] at hsub
      exact hsub.substituted
    · rename_i heq
      rw [heq] at hsub
      exact hsub.freeLane.haltEntry
    · exact h
    · rename_i heq
      rw [heq] at hsub
      exact hsub.freeLane.failGroup
  · exact h.freeLane.haltEntry

theorem Steady.laneEnds {lane k n : Nat} {g : Source} {r : Prep} (h : Steady s t) : Steady s (t.laneEnds lane g r k n) := by
  unfold State.laneEnds
  split
  · exact h.freeLane
  · rename_i e _
    split
    · rename_i why index pos _
      have hspare : Steady s (t.trySpare g r (lane / 16) e.index pos).1 := h.trySpare
      split
      · rename_i heq
        rw [heq] at hspare
        exact hspare.substituted
      · rename_i heq
        rw [heq] at hspare
        exact hspare.freeLane.haltEntry
      · rename_i heq
        rw [heq] at hspare
        exact hspare
      · rename_i heq
        rw [heq] at hspare
        exact hspare.freeLane.failGroup
    · exact h.dispose
    · exact h.freeLane.haltEntry
    · have hstage : (t.stageRead g (lane / 16) e.off e.len).SteadyFrom s := h.stageRead
      split
      · rename_i heq
        rw [heq] at hstage
        exact hstage
      · rename_i heq
        rw [heq] at hstage
        exact (Steady.freeLane hstage).failGroup
      · exact h.corruptSample.dispose
      · rename_i heq
        rw [heq] at hstage
        split
        · exact Steady.entryDone hstage
        · exact (Steady.corruptSample hstage).dispose

theorem execSampleDone_steady (lane : Fin 32) (r : LaneResult) (s : State) : ∃ t, execSampleDone lane r s = .next t ∧ Steady s t := by
  have h := Steady.refl s
  refine ⟨_, rfl, ?_⟩
  split
  · exact h
  · split
    · exact .ite h.laneEnds h
    · exact h.freeLane

theorem execSampleAbandon_steady (lane : Fin 32) (s : State) : ∃ t, execSampleAbandon lane s = .next t ∧ Steady s t := by
  have h := Steady.refl s
  refine ⟨_, rfl, ?_⟩
  split
  · exact h
  · split
    · refine .ite h ?_
      split
      · exact h.count.corruptSample.dispose
      · exact h.freeLane
    · exact h.freeLane

/-! ### GLADE_BATCH -/

theorem Steady.permitted {op mb cache : Nat} {accs : List (Nat × Nat × Bool)} {b : Bool} (h : Steady s t)
    (hp : t.permit op mb cache accs = (u, b)) : Steady s u := by
  have hpermit : Steady s (t.permit op mb cache accs).1 := h.permit
  rwa [hp] at hpermit


theorem Steady.batchStore {p : Plan} {op slot : Nat} {d : TD} {f : List Nat → Val} (h : Steady s t) :
    Steady s (t.batchStore p op slot d f) := h.storeTiles.watchAdd

theorem Steady.storeImages {p : Plan} {op : Nat} {blk : Bytes} {o : TD} {es : List PrepEntry} (h : Steady s t) :
    Steady s (t.storeImages p op blk o es) := by
  unfold State.storeImages
  extract_lets planar n base ts
  refine h.foldl fun v l => ?_
  split
  · exact .refl v
  · exact (Steady.refl v).batchStore

theorem Steady.storeTokens {p : Plan} {op mb ring source : Nat} {blk : Bytes} {o : TD} {o1 : Option TD} {es : List PrepEntry}
    (h : Steady s t) : Steady s (t.storeTokens p op mb ring source blk o o1 es) := by
  unfold State.storeTokens
  extract_lets width k place v w
  have hv : Steady s v := h.batchStore
  clear_value v
  have hw : Steady s w := by
    dsimp only [w]
    split
    · exact hv.batchStore
    · exact hv
  clear_value w
  split
  · exact hw.putSource
  · exact hw

theorem Steady.storeTimed {p : Plan} {op slot : Nat} {d : TD} {outs : List (Nat × List Nat)} (h : Steady s t) :
    Steady s (t.storeTimed p op slot d outs) := h.batchStore

theorem execGladeBatch_steady (op mb : Nat) (s : State) : ∃ t, execGladeBatch op mb s = .next t ∧ Steady s t := by
  refine ⟨_, rfl, ?_⟩
  split
  · exact .refl s
  · rename_i v st p he
    have h : Steady s v := (Steady.refl s).enter he
    clear he
    extract_lets blk o1 ready n
    clear_value o1
    split
    · rename_i r o _ _
      extract_lets es
      split
      · exact h
      · split
        · exact h.batchFails
        · split
          · exact h
          · split
            · rename_i w heq
              exact h.permitted heq
            · rename_i w heq
              have hw : Steady s w := h.permitted heq
              clear heq
              extract_lets timed x₁ x₂ x₃ x₄
              have htimed : Steady s timed := hw.storeTimed
              clear_value timed
              have h₁ : Steady s x₁ := by
                refine .ite hw.storeImages (.ite hw.storeTokens ?_)
                split
                · exact htimed.storeTimed
                · exact htimed
              clear_value x₁
              have h₃ : Steady s x₃ := .ite h₁.fence h₁.fence.writeVa.fence.emit
              clear_value x₃
              have h₄ : Steady s x₄ := by
                dsimp only [x₄]
                split
                · exact h₃.putPrep
                · exact h₃
              exact .ite h₄.computed h₄
    · exact h

theorem execReleaseWord_steady (op mb : Nat) (s : State) : ∃ t, execReleaseWord op mb s = .next t ∧ Steady s t := by
  have h := Steady.refl s
  refine ⟨_, rfl, ?_⟩
  split
  · exact h
  · rename_i st p _
    extract_lets blk va done
    clear_value done
    split
    · exact h
    · split
      · split
        · exact h
        · split
          · rename_i w heq
            exact h.permitted heq
          · rename_i w heq
            have hw : Steady s w := h.permitted heq
            exact .ite hw.readVa.computed hw.readVa
      · exact h

theorem Steady.adoptPreps {st : Step} {p : Plan} (h : Steady s t) : Steady s (t.adoptPreps st p) := by
  unfold State.adoptPreps
  extract_lets fits named v mine adopt _ w
  have hv : Steady s v := h.setGld
  have hw : Steady s w := hv.setGld
  exact hw.onStep

end Sys2Proof.Machine
end

section
/-! SUPPORT. Firmware, identity, counters, Tracks, sampling and the tile mover leave the queue alone and keep the invariant (R185, R243
to R250, R586 to R601, R612 to R629). -/

namespace Sys2Proof.Machine

variable {s t u : State}

/-! ### Firmware and identity -/

theorem Steady.setAon {a : Aon} (h : Steady s t) : Steady s { t with aon := a } := h.same rfl

theorem Steady.freeNat (h : Steady s t) : Steady s t.freeNat.2 := h.same rfl

theorem Steady.undefineBank (h : Steady s t) : Steady s t.undefineBank := Steady.setAon h.freeNat.freeBytes

theorem fwStageBody_steady (q : Req) (s : State) : Steady s (fwStageBody q s).1 := by
  have h := Steady.refl s
  unfold fwStageBody
  extract_lets va len
  split
  · exact h
  · split
    · rename_i c v hv
      exact (h.cmdAccess_error hv).cmdFailed (h.cmdAccess_error hv).undefineBank
    · rename_i v hv
      extract_lets x w
      have hw : Steady s w := (h.cmdAccess_ok hv).readVa
      clear_value x w
      split
      · exact hw
      · exact .ite_fst hw hw.setAon

theorem execFwStage_steady (k : SlotId) (s : State) : ∃ t, execFwStage k s = .next t ∧ Steady s t :=
  Steady.takes k _ s fwStageBody_steady

theorem attestCmd_steady (q : Req) (s : State) : Steady s (attestCmd q s).1 := .ite_fst (.refl s) (.refl s)

theorem execAttest_steady (k : SlotId) (s : State) : ∃ t, execAttest k s = .next t ∧ Steady s t :=
  Steady.takes k _ s attestCmd_steady

theorem idReadBody_steady (answer : Option Bytes) (q : Req) (s : State) : Steady s (idReadBody answer q s).1 := by
  have h := Steady.refl s
  unfold idReadBody
  extract_lets off n
  split
  · exact h
  · refine .ite_fst h ?_
    split
    · exact h
    · exact h

theorem execIdRead_steady (k : SlotId) (answer : Option Bytes) (s : State) : ∃ t, execIdRead k answer s = .next t ∧ Steady s t :=
  Steady.takes k _ s (idReadBody_steady answer)

/-! ### Counters -/

/-- What is observed changes, but not the trace, and no counter that stands at its reset values. -/
theorem Steady.setObs {o : Obs} (h : Steady s t) (ht : o.trace = t.obs.trace) (hc : t.obs.ctrs = [] → o.ctrs = []) :
    Steady s { t with obs := o } :=
  h.trans ⟨rfl, fun hi => State.Laws.toInv { hi.laws with trace := ht ▸ hi.trace }, hc⟩

theorem execCtrConfig_runs (k : SlotId) (s : State) : ∃ t, execCtrConfig k s = .next t ∧ Runs s t := by
  refine ⟨_, rfl, Runs.take fun r u => ?_⟩
  have hset : ∀ l, Runs u { u with obs := { u.obs with ctrs := l } } := fun l => ⟨rfl, fun hi => State.Laws.toInv { hi.laws with }⟩
  unfold ctrConfigBody
  extract_lets n es l
  split
  · exact (Steady.refl u).runs
  · split
    · exact hset l
    · exact (Steady.refl u).runs

/-- A snapshot reads counters; none that stands at its reset values moves. -/
theorem Steady.settleCtrs (h : Steady s t) : Steady s t.settleCtrs := by
  have hruns : Runs t t.settleCtrs := by
    refine foldl_keeps (P := Runs t) (fun v e hv => ?_) t.obs.ctrs t (Steady.refl t).runs
    split
    · exact (hv.trans (Steady.refl v).freeNat.runs).trans ⟨rfl, fun hi => State.Laws.toInv { hi.laws with }⟩
    · exact hv
  refine h.trans ⟨hruns.queue, hruns.inv, fun hc => ?_⟩
  unfold State.settleCtrs
  rw [hc]
  exact hc

theorem ctrSnapshotBody_steady (q : Req) (s : State) : Steady s (ctrSnapshotBody q s).1 := by
  have h := Steady.refl s
  unfold ctrSnapshotBody
  extract_lets va
  have haccess : Steady s (accessed (if va = 0 then .ok s else s.cmdAccess va 8256 true cBAD_ARG)) := by
    split
    · exact h
    · exact h.cmdAccess
  split
  · exact h
  · split
    · exact h
    · split
      · rename_i heq
        rw [heq] at haccess
        exact haccess.cmdFailed (Steady.undefineVa haccess)
      · rename_i v heq
        rw [heq] at haccess
        extract_lets w seq p _ x
        have hw : Steady s w := Steady.settleCtrs haccess
        clear_value w p
        have hx : Steady s x := hw.setObs rfl id
        clear_value x
        exact .ite hx hx.writeVa.fence

theorem execCtrSnapshot_steady (k : SlotId) (s : State) : ∃ t, execCtrSnapshot k s = .next t ∧ Steady s t :=
  Steady.takes k _ s ctrSnapshotBody_steady

/-! ### Tracks -/

theorem traceSetBody_steady (q : Req) (s : State) : Steady s (traceSetBody q s).1 := by
  have h := Steady.refl s
  unfold traceSetBody
  extract_lets ts sampled o
  exact .ite_fst h (.ite_fst h (h.upd rfl rfl fun hi => { hi.laws with trace := rfl }))

theorem execTraceSet_steady (k : SlotId) (s : State) : ∃ t, execTraceSet k s = .next t ∧ Steady s t :=
  Steady.takes k _ s traceSetBody_steady

theorem traceStopBody_steady (q : Req) (s : State) : Steady s (traceStopBody q s).1 := .ite_fst (.refl s) ((Steady.refl s).setObs rfl id)

theorem execTraceStop_steady (k : SlotId) (s : State) : ∃ t, execTraceStop k s = .next t ∧ Steady s t :=
  Steady.takes k _ s traceStopBody_steady

theorem traceCopyBody_steady (q : Req) (s : State) : Steady s (traceCopyBody q s).1 := by
  have h := Steady.refl s
  unfold traceCopyBody
  extract_lets va
  split
  · exact h
  · split
    · exact h
    · split
      · exact h
      · split
        · rename_i c v hv
          exact (h.cmdAccess_error hv).cmdFailed (h.cmdAccess_error hv).undefineVa
        · rename_i v hv
          exact (h.cmdAccess_ok hv).writeVa.fence

theorem execTraceCopy_steady (k : SlotId) (s : State) : ∃ t, execTraceCopy k s = .next t ∧ Steady s t :=
  Steady.takes k _ s traceCopyBody_steady

/-! ### Sampling -/

theorem sampleStartBody_steady (q : Req) (s : State) : Steady s (sampleStartBody q s).1 := by
  have h := Steady.refl s
  unfold sampleStartBody
  extract_lets va n gs period loads stores
  refine .ite_fst h (.ite_fst h (.ite_fst h (.ite_fst h ?_)))
  split
  · exact h
  · rename_i v hv
    have hw : Steady s (v.writeVa va (zeros 16)).fence := (h.resolveRange hv).writeVa.fence
    exact hw.setObs rfl id

theorem execSampleStart_steady (k : SlotId) (s : State) : ∃ t, execSampleStart k s = .next t ∧ Steady s t :=
  Steady.takes k _ s sampleStartBody_steady

theorem sampleStopBody_steady (q : Req) (s : State) : Steady s (sampleStopBody q s).1 := .ite_fst (.refl s) ((Steady.refl s).setObs rfl id)

theorem execSampleStop_steady (k : SlotId) (s : State) : ∃ t, execSampleStop k s = .next t ∧ Steady s t :=
  Steady.takes k _ s sampleStopBody_steady

theorem Steady.ite_snd {α : Type} {c : Prop} [Decidable c] {x y : α × State} (hx : Steady s x.2) (hy : Steady s y.2) :
    Steady s (if c then x else y).2 := by
  split
  · exact hx
  · exact hy

theorem Steady.countMove {grove : Nat} {store : Bool} (h : Steady s t) : Steady s (t.countMove grove store).2 := by
  unfold State.countMove
  split
  · exact h
  · exact .ite_snd h (h.setObs rfl id)

theorem Steady.sampleMove {count : Nat} {b : Bytes} (h : Steady s t) : Steady s (t.sampleMove count b) := by
  unfold State.sampleMove
  split
  · exact h
  · rename_i p hp
    extract_lets cap p₁ v₁ o₁ w p₂ v₂ o₂
    have hw : Steady s w := h.writeVa.fence
    have h₁ : Steady s v₁ := h.writeVa
    have h₂ : Steady s v₂ := hw.writeVa.emit
    have ho₁ : v₁.obs = o₁ := State.writeVa_keeps t _ _ .obs (by decide)
    have ho₂ : v₂.obs = o₂ := State.writeVa_keeps w _ _ .obs (by decide)
    clear_value v₂ o₂ w v₁ o₁ p₁ p₂
    refine .ite h (.ite (h₁.setObs ?_ ?_) (h₂.setObs ?_ ?_))
    · rw [ho₁]
    · exact fun hc => ho₁ ▸ hc
    · rw [ho₂]
    · exact fun hc => ho₂ ▸ hc

/-! ### Tile moves -/

theorem Rgn.Lawful.queues {g g' : Rgn} (h : g.Lawful) (hr : g'.regions = g.regions) (ht : g'.tbl = g.tbl) : g'.Lawful :=
  h.of_regions hr (ht ▸ h.tbl)

theorem Steady.sampleFault {m : TileMove} {fault : Nat} (h : Steady s t) : Steady s (t.sampleFault m fault) := h.freeNat.freeNat.sampleMove

theorem Steady.walkPages {m : TileMove} (h : Steady s t) : Steady s (t.walkPages m) :=
  h.foldl fun v _ => .ite (.refl v) ((Steady.refl v).upd rfl rfl fun hi => { hi.laws with rgn := hi.rgn.queues rfl rfl })

theorem Steady.startMove {m : TileMove} (h : Steady s t) : Steady s (t.startMove m) := by
  unfold State.startMove
  extract_lets x m'
  have hx : Steady s x.2 := h.countMove
  clear_value x
  split
  · exact hx.sampleFault.obstacle
  · exact (Steady.setEng hx).walkPages

theorem execTileMove_steady (place : Place) (op mb : Nat) (store : Bool) (work : StripePieces) (s : State) :
    ∃ t, execTileMove place op mb store work s = .next t ∧ Steady s t := by
  have h := Steady.refl s
  refine ⟨_, rfl, ?_⟩
  split
  · extract_lets m
    split
    · exact h
    · exact .ite h h.startMove
  · exact h

theorem Steady.moveDemands {m : TileMove} {va : Nat} (h : Steady s t) : Steady s (t.moveDemands m va) := by
  unfold State.moveDemands
  extract_lets x v w e
  have hv : Steady s v := h.sampleFault.count
  clear_value v
  have hw : Steady s w := hv.trace
  clear_value w
  exact hw.upd rfl rfl fun hi => { hi.laws with rgn := hi.rgn.queues rfl rfl }

theorem Steady.movesFault {ms : List TileMove} {va kind : Nat} (h : Steady s t) : Steady s (t.movesFault ms va kind) :=
  h.foldl fun v _ => .ite (.refl v) (.ite (Steady.refl v).moveDemands (Steady.refl v).sampleFault.obstacle)

theorem execWalkComplete_steady (cache va : Nat) (store : Bool) (s : State) :
    ∃ t, execWalkComplete cache va store s = .next t ∧ Steady s t := by
  have h := Steady.refl s
  refine ⟨_, rfl, ?_⟩
  extract_lets x ms _ v
  have hv : Steady s v := h.upd rfl rfl fun hi => { hi.laws with rgn := hi.rgn.queues rfl rfl }
  clear_value v
  split
  · exact h
  · split
    · extract_lets w
      have hw : Steady s w := hv.upd rfl rfl fun hi => { hi.laws with rgn := Rgn.fillCache_lawful hi.rgn _ _ _ _ }
      exact .ite hw hw.movesFault
    · exact hv.movesFault

/-! ### Demand faults -/

theorem Steady.demandFails {va : Nat} (h : Steady s t) : Steady s (t.demandFails va) := by
  unfold State.demandFails
  extract_lets ws _ v
  have hv : Steady s v := h.upd rfl rfl fun hi => { hi.laws with rgn := hi.rgn.queues rfl rfl }
  clear_value v
  refine hv.foldl fun w x => ?_
  refine Steady.foldl ((Steady.refl w).foldl fun y m => .ite (Steady.refl y).obstacle (.refl y)) fun y n => ?_
  exact .ite (Steady.refl y).dmaFault (.refl y)

theorem Steady.demandReady (h : Steady s t) : Steady s t.demandReady := by
  unfold State.demandReady
  extract_lets waits _ v ms
  have hv : Steady s v := h.upd rfl rfl fun hi => { hi.laws with rgn := hi.rgn.queues rfl rfl }
  clear_value v
  refine Steady.wakeChans (hv.foldl fun y m => ?_)
  have hy : Steady y ({ y with eng := { y.eng with moves := y.eng.moves.filter (· != m) } }.startMove { m with demand := false }) :=
    (Steady.setEng (.refl y)).startMove
  exact .ite hy hy.setEng

theorem execDemandFaultResolve_steady (va : Nat) (s : State) : ∃ t, execDemandFaultResolve va s = .next t ∧ Steady s t := by
  have h := Steady.refl s
  refine ⟨_, rfl, ?_⟩
  split
  · exact h
  · split
    · exact h
    · split
      · split
        · rename_i g hg
          exact (h.withTables fun hi => Rgn.resolve_lawful hi.rgn hg).count.demandReady
        · exact h.demandFails
      · exact h.demandReady

/-! ### A move's last byte -/

theorem Steady.deliverRecs {p : Plan} {a : Place} {op mb stripe : Nat} {rs : List Rec} (h : Steady s t) :
    Steady s (t.deliverRecs p a op mb stripe rs) := h.foldl fun v _ => Steady.setEng (Steady.refl v).readTile

theorem Steady.storeRecs {m : TileMove} {rs : List Rec} (h : Steady s t) : Steady s (t.storeRecs m rs) := by
  refine h.foldl fun v r => ?_
  split
  · exact .refl v
  · exact (Steady.setEng (.refl v)).writeTile

theorem Steady.eccLines {lines : List Nat} {ecc : List Ecc} (h : Steady s t) : Steady s (t.eccLines lines ecc).1 := by
  refine h.foldl_fst (x := (t, [])) fun v x => ?_
  split
  · exact .refl _
  · exact (Steady.refl v.1).correctLine
  · exact (Steady.refl v.1).markPoison

theorem Steady.moveRoom {m : TileMove} {rs : List Rec} (h : Steady s t) (hr : t.moveRoom m rs = some u) : Steady s u := by
  unfold State.moveRoom at hr
  split at hr
  · cases hr
    exact h
  · obtain ⟨e, -, hr⟩ := Option.map_eq_some_iff.1 hr
    exact hr ▸ h.setEng

theorem Steady.endMove {p : Plan} {m : TileMove} {rs : List Rec} {lat xlat : Nat} (h : Steady s t) :
    Steady s (t.endMove p m rs lat xlat) := by
  unfold State.endMove
  extract_lets _ v tier w
  have hv : Steady s v := (Steady.setEng h).setInst
  clear_value v
  exact Steady.sampleMove (.ite hv.storeRecs hv.deliverRecs)

end Sys2Proof.Machine
end

section
/-! SUPPORT. The matrix engine, the output stage and the vector engine leave the queue alone and keep the invariant (R87 to R132, R164 to
R182). -/

namespace Sys2Proof.Machine

variable {s t u : State}

/-! ### The matrix engine -/

theorem Steady.addCounts {ty op : Nat} {ns : List Nat} (h : Steady s t) : Steady s (t.addCounts ty op ns) := h.onStep

theorem Steady.issueOn {code op mb : Nat} {l : List Place} (h : Steady s t) : Steady s (t.issueOn code op mb l) := by
  unfold State.issueOn
  split
  · exact h
  · rename_i v _ _ he
    exact (h.enter he).foldl fun w _ => (Steady.refl w).startTask

theorem execMatmul_steady (op mb : Nat) (l : List Place) (s : State) : ∃ t, execMatmul op mb l s = .next t ∧ Steady s t :=
  ⟨_, rfl, (Steady.refl s).issueOn⟩

theorem execConv_steady (op mb : Nat) (l : List Place) (s : State) : ∃ t, execConv op mb l s = .next t ∧ Steady s t :=
  ⟨_, rfl, (Steady.refl s).issueOn⟩

theorem Obs.putRow_trace {o : Obs} (h : o.trace.wf = true) (ty : Nat) (west : Bool) (kind num : Nat) (tick : BitVec 64)
    (chunk row cn : Nat) (v : List Nat) : (o.putRow ty west kind num tick chunk row cn v).trace.wf = true :=
  foldl_keeps (P := fun o : Obs => o.trace.wf = true) (fun _ _ ho => Obs.put_trace ho _ _ _ _ _ _ _) _ _ h

theorem Obs.putRow_ctrs (o : Obs) (ty : Nat) (west : Bool) (kind num : Nat) (tick : BitVec 64) (chunk row cn : Nat) (v : List Nat) :
    (o.putRow ty west kind num tick chunk row cn v).ctrs = o.ctrs :=
  foldl_keeps (P := fun o' : Obs => o'.ctrs = o.ctrs) (fun o' _ ho => (o'.put_ctrs _ _ _ _ _ _ _).trans ho) _ _ rfl

theorem Steady.debugPass {w : Bool} {kind num op block chunk cn : Nat} {cs ps : List Nat} (h : Steady s t) :
    Steady s (t.debugPass w kind num op block chunk cn cs ps) := by
  refine h.foldl fun v row => ?_
  extract_lets o
  have ho : v.Inv → o.trace.wf = true := fun hi => Obs.putRow_trace hi.trace _ _ _ _ _ _ _ _ _
  have hc : o.ctrs = v.obs.ctrs := Obs.putRow_ctrs _ _ _ _ _ _ _ _ _ _
  clear_value o
  have ho' : v.Inv → (o.putRow 0x11 w kind num v.aon.tick chunk row cn ps).trace.wf = true := fun hi =>
    Obs.putRow_trace (ho hi) _ _ _ _ _ _ _ _ _
  have hc' := (o.putRow_ctrs 0x11 w kind num v.aon.tick chunk row cn ps).trans hc
  generalize o.putRow 0x11 w kind num v.aon.tick chunk row cn ps = o' at ho' hc' ⊢
  exact (Steady.refl v).upd rfl hc' fun hi => { hi.laws with trace := ho' hi }

theorem Steady.traceLevel {w : Bool} {kind num op block level : Nat} (h : Steady s t) :
    Steady s (t.traceLevel w kind num op block level) := by
  have hv : Steady s (t.trace 2 w 0x05 kind num (leBytes 2 op ++ zeros 2 ++ leBytes 4 block ++ leBytes 1 level)) := h.trace
  exact .ite hv (hv.upd rfl (Obs.put_ctrs _ _ _ _ _ _ _ _) fun hi => { hi.laws with trace := Obs.put_trace hi.trace _ _ _ _ _ _ _ })

theorem Steady.rerun {x : Run} {level : Nat} (h : Steady s t) : Steady s (t.rerun x level) := (Steady.setEng h).traceLevel

theorem Steady.passDone {q : Prod} {k : Blk} {x : Run} {p : PassIn} (h : Steady s t) : Steady s (t.passDone q k x p) := by
  unfold State.passDone
  extract_lets r g v _ w y
  have hv : Steady s v := h.count.count.debugPass
  clear_value v
  have hw : Steady s w := hv.setEng
  clear_value w
  exact .ite hw.count.rerun hw.setEng

theorem execPass_steady (op mb block seg : Nat) (place : Place) (s : State) :
    ∃ t, execPass op mb block seg place s = .next t ∧ Steady s t := by
  have h := Steady.refl s
  refine ⟨_, rfl, ?_⟩
  split
  · split
    · exact h
    · split
      · exact h
      · split
        · exact h
        · exact (Steady.setEng h).passDone
  · exact h

/-! ### Segments -/

theorem Steady.putBlock {q : Prod} {block level : Nat} {a : Place} {sums : List Nat} {failed : Bool} (h : Steady s t) :
    Steady s (t.putBlock q block a level sums failed) := h.setEng

theorem execSegmentCombine_steady (op mb block : Nat) (s : State) : ∃ t, execSegmentCombine op mb block s = .next t ∧ Steady s t := by
  have h := Steady.refl s
  have hrerun : ∀ {l : List Run} {n}, Steady s (l.foldl (fun s r => s.rerun r n) s) :=
    h.foldl fun v _ => (Steady.refl v).rerun
  refine ⟨_, rfl, ?_⟩
  split
  · exact h
  · split
    · exact .ite h (.ite h.putBlock (.ite hrerun (.ite (.ite h.traceLevel.putBlock hrerun) h.putBlock)))
    · exact h

/-! ### The output stage -/

theorem Steady.putResult {p : Plan} {a : Place} {op mb slot : Nat} {d : TD} {c : List Nat} {f : Nat → Nat → Val} (h : Steady s t) :
    Steady s (t.putResult p a op mb slot d c f) := h.keeps (t.putResult_keeps p a op mb slot d c f) (by decide)

theorem Steady.putTile {p : Plan} {q : Prod} {k : Blk} {a : Place} (h : Steady s t) : Steady s (t.putTile p q k a) :=
  h.keeps (t.putTile_keeps p q k a) (by decide)

theorem Steady.drainable {q : Prod} {block : Nat} {b : Block} (h : Steady s t) (hd : t.drainable q block = some (u, b)) : Steady s u := by
  unfold State.drainable at hd
  split at hd
  · split at hd
    · cases hd
    · cases hd
      exact h
  · split at hd
    · split at hd
      · split at hd
        · obtain ⟨b, -, hb⟩ := Option.map_eq_some_iff.1 hd
          cases hb
          exact h.putBlock
        · cases hd
      · cases hd
    · cases hd

theorem Steady.drainBlock {p : Plan} {q : Prod} {k : Blk} {b : Block} {cols : Option Loaded} (h : Steady s t) :
    Steady s (t.drainBlock p q k b cols) := by
  unfold State.drainBlock
  extract_lets o lvl v w b'
  have hv : Steady s v := .ite h h.count
  clear_value v
  have hw : Steady s w := hv.addCounts
  exact (Steady.setEng hw).putTile

theorem execOutputStageDrain_steady (op mb block : Nat) (s : State) :
    ∃ t, execOutputStageDrain op mb block s = .next t ∧ Steady s t := by
  have h := Steady.refl s
  refine ⟨_, rfl, ?_⟩
  split
  · exact h
  · split
    · exact h
    · split
      · rename_i hd
        split
        · exact h
        · split
          · exact h
          · extract_lets v
            have hv : Steady s v := (h.drainable hd).drainBlock
            split
            · exact h
            · exact hv.setEng
      · exact h

theorem Steady.productDone {op mb : Nat} (h : Steady s t) : Steady s (t.productDone op mb) := by
  unfold State.productDone
  split
  · exact h
  · extract_lets mine left
    split
    · exact h
    · split
      · exact h.computed
      · exact h.onStep.setInst

theorem execTileMoveComplete_steady (place : Place) (ecc : List Ecc) (lat xlat : Nat) (s : State) :
    ∃ t, execTileMoveComplete place ecc lat xlat s = .next t ∧ Steady s t := by
  have h := Steady.refl s
  refine ⟨_, rfl, ?_⟩
  split
  · exact h
  · rename_i m _
    split
    · exact h
    · split
      · exact h
      · extract_lets x v
        have hv : Steady s v := .ite_fst h h.eccLines
        clear_value v
        split
        · exact hv
        · split
          · exact hv.obstacle.foldl fun w _ => (Steady.refl w).countBad
          · split
            · exact hv
            · rename_i hroom
              obtain ⟨rs, -, hroom⟩ := Option.bind_eq_some_iff.1 hroom
              obtain ⟨w, hw, hroom⟩ := Option.map_eq_some_iff.1 hroom
              cases hroom
              exact .ite (hv.moveRoom hw).endMove.productDone (hv.moveRoom hw).endMove

/-! ### The vector engine -/

theorem Steady.storeGrove {p : Plan} {op slot : Nat} {d : TD} {f : List Nat → Val} (h : Steady s t) :
    Steady s (t.storeGrove p op slot d f) :=
  h.foldl fun v _ => (Steady.refl v).writeTile.watchAdd.nonfiniteAdd

theorem Steady.storeGroveOpt {p : Plan} {op slot : Nat} {d : Option TD} {f : List Nat → Val} (h : Steady s t) :
    Steady s (t.storeGroveOpt p op slot d f) := by
  cases d with
  | none => exact h
  | some d => exact h.storeGrove

theorem Steady.loadAll {keep : Keep} {ts : List (Option TD)} (h : Steady s t) : Steady s (t.loadAll keep ts).2 :=
  h.foldl_snd (x := ([], t)) fun v _ => (Steady.refl v.2).loadOpt

/-- A one-event operation is steady when its work is. -/
theorem Steady.bulkSome {code op mb : Nat} {place : Place} {keep : Plan → State → Keep} {work : Bulk → State → State}
    (hwork : ∀ b u, Steady u (work b u)) (h : Steady s t) : Steady s (t.bulkSome code op mb place keep work) := by
  unfold State.bulkSome
  split
  · exact h
  · split
    · exact h
    · rename_i v st p he
      extract_lets w ins outs
      have hw : Steady s w := (h.enter he).startTask
      clear_value w
      split
      · rename_i heq
        exact hw.permitted heq
      · rename_i heq
        exact ((hw.permitted heq).loadAll.trans (hwork _ _)).computed

theorem Steady.bulkAt {code op mb : Nat} {place : Place} {work : Bulk → State → State} (hwork : ∀ b u, Steady u (work b u))
    (h : Steady s t) : Steady s (t.bulkAt code op mb place work) := h.bulkSome hwork

theorem Steady.vector {mode op mb : Nat} {place : Place} {work : Bulk → State → State} {keep : Plan → State → Keep}
    (hwork : ∀ b u, Steady u (work b u)) (h : Steady s t) : Steady s (t.vector mode op mb place work keep) :=
  .ite (h.bulkSome hwork) h

theorem Bulk.elementwise_steady (op : Nat) (b : Bulk) (s : State) : Steady s (b.elementwise op s) :=
  (Steady.refl s).storeGroveOpt.storeGroveOpt

theorem Bulk.reduce_steady (op : Nat) (b : Bulk) (s : State) : Steady s (b.reduce op s) := (Steady.refl s).storeGroveOpt.storeGroveOpt

theorem Bulk.gather_steady (op : Nat) (b : Bulk) (s : State) : Steady s (b.gather op s) :=
  (Steady.refl s).storeGroveOpt.storeGroveOpt.addCounts

theorem Bulk.scatter_steady (op : Nat) (b : Bulk) (s : State) : Steady s (b.scatter op s) :=
  (Steady.refl s).storeGroveOpt.storeGroveOpt.addCounts

theorem execVectorElementwise_steady (op mb : Nat) (place : Place) (s : State) :
    ∃ t, execVectorElementwise op mb place s = .next t ∧ Steady s t :=
  ⟨_, rfl, (Steady.refl s).vector (Bulk.elementwise_steady op)⟩

theorem execVectorReduce_steady (op mb : Nat) (place : Place) (s : State) :
    ∃ t, execVectorReduce op mb place s = .next t ∧ Steady s t :=
  ⟨_, rfl, (Steady.refl s).vector (Bulk.reduce_steady op)⟩

theorem execVectorGather_steady (op mb : Nat) (place : Place) (s : State) :
    ∃ t, execVectorGather op mb place s = .next t ∧ Steady s t :=
  ⟨_, rfl, (Steady.refl s).vector (Bulk.gather_steady op)⟩

theorem execVectorScatter_steady (op mb : Nat) (place : Place) (s : State) :
    ∃ t, execVectorScatter op mb place s = .next t ∧ Steady s t :=
  ⟨_, rfl, (Steady.refl s).vector (Bulk.scatter_steady op)⟩

theorem execActBackward_steady (op mb : Nat) (place : Place) (s : State) :
    ∃ t, execActBackward op mb place s = .next t ∧ Steady s t := by
  refine ⟨_, rfl, (Steady.refl s).bulkAt fun b u => ?_⟩
  dsimp only
  split
  · exact (Steady.refl u).storeGroveOpt
  · exact .refl u

theorem execGradGather_steady (op mb : Nat) (place : Place) (s : State) :
    ∃ t, execGradGather op mb place s = .next t ∧ Steady s t := by
  refine ⟨_, rfl, (Steady.refl s).bulkAt fun b u => ?_⟩
  split
  · exact (Steady.refl u).storeGroveOpt
  · exact .refl u

end Sys2Proof.Machine
end

section
/-! SUPPORT. Pooling, the Sapling engines, boxes, MOVE and PREFETCH leave the queue alone and keep the invariant (R150 to R162, R204 to
R209). -/

namespace Sys2Proof.Machine

variable {s t u : State}

/-! ### Pooling, the Sapling engines and boxes -/

theorem execPool_steady (op mb : Nat) (place : Place) (s : State) : ∃ t, execPool op mb place s = .next t ∧ Steady s t := by
  refine ⟨_, rfl, (Steady.refl s).bulkAt fun b u => ?_⟩
  dsimp only
  split
  · exact (Steady.refl u).storeGroveOpt
  · exact (Steady.refl u).storeGroveOpt
  · exact .refl u

theorem Steady.saplingTrace {op block engine cn final : Nat} {levels : List (List (List Nat × List Nat))} (h : Steady s t) :
    Steady s (t.saplingTrace op block engine cn levels final) := by
  refine h.foldl fun v l => ?_
  have hv : Steady v (l.1.zipIdx.foldl (fun s x => s.debugPass (decide (2 ≤ engine)) uSapling engine op block x.2 cn x.1.1 x.1.2) v) :=
    (Steady.refl v).foldl fun w _ => (Steady.refl w).debugPass
  exact .ite hv.traceLevel hv

theorem execSaplingConv_steady (op mb : Nat) (engines : List (Fin 4)) (s : State) :
    ∃ t, execSaplingConv op mb engines s = .next t ∧ Steady s t := by
  refine ⟨_, rfl, ?_⟩
  split
  · exact .refl s
  · split
    · exact .refl s
    · rename_i v st p he
      have h : Steady s v := (Steady.refl s).enter he
      clear he
      split
      · exact h
      · rename_i q _
        extract_lets accs half
        have hwoken : Steady s (engines.foldl (fun s e => s.wakeBlock (.sapling e)) v) := h.foldl fun w _ => (Steady.refl w).wakeBlock
        clear_value accs half
        split
        · rename_i heq
          exact hwoken.permitted heq
        · rename_i w heq
          have hw : Steady s w := hwoken.permitted heq
          clear heq
          extract_lets a b l x₁ blocks x₂ arr at_ x₃ x₄ level x₅
          have h₁ : Steady s x₁ := hw.load.load.loadOpt
          clear_value x₁ a b l
          have h₂ : Steady s x₂ := h₁.foldl fun y _ => (Steady.refl y).saplingTrace
          clear_value x₂ blocks at_
          have h₃ : Steady s x₃ := h₂.storeOut
          clear_value x₃
          have h₄ : Steady s x₄ := by
            dsimp only [x₄]
            split
            · exact h₃.storeOut
            · exact h₃
          clear_value x₄
          have h₅ : Steady s x₅ := h₄.addCounts
          clear_value x₅
          split
          · exact h₅.computed
          · exact h₅.onStep.setInst

theorem execBoxDecode_steady (op mb : Nat) (place : Place) (s : State) :
    ∃ t, execBoxDecode op mb place s = .next t ∧ Steady s t := by
  refine ⟨_, rfl, (Steady.refl s).bulkAt fun b u => ?_⟩
  dsimp only
  split
  · exact (Steady.refl u).storeGroveOpt
  · exact .refl u

theorem execSuppress_steady (op mb : Nat) (place : Place) (s : State) :
    ∃ t, execSuppress op mb place s = .next t ∧ Steady s t := by
  refine ⟨_, rfl, (Steady.refl s).bulkAt fun b u => ?_⟩
  dsimp only
  split
  · exact (Steady.refl u).storeGroveOpt.storeGroveOpt.addCounts
  · exact .refl u

/-! ### MOVE -/

theorem Steady.addTile {d e : TD} {c : List Nat} {el : Bytes} (h : Steady s t) : Steady s (t.addTile d c e el) := by
  unfold State.addTile
  extract_lets idx r src old fmt code
  have hr : Steady s r.2.2 := h.readTile
  clear_value r code
  exact hr.writeVa

theorem Steady.copyTiles {blk : Bytes} {add : Bool} {x o : TD} (h : Steady s t) : Steady s (t.copyTiles blk add x o) := by
  refine h.foldl fun v c => ?_
  extract_lets r y
  have hr : Steady v r.2.2 := (Steady.refl v).readTile
  clear_value r y
  exact .ite hr.addTile hr.writeTile

theorem Steady.moveRefused {op mb va : Nat} (h : Steady s t) : Steady s (t.moveRefused op mb va) := h.faultEntry.instFails

theorem Steady.movePush {p : Plan} {op mb : Nat} {x o : TD} (h : Steady s t) : Steady s (t.movePush p op mb x o) := by
  unfold State.movePush
  extract_lets blk
  split
  · rename_i heq
    exact h.permitted heq
  · rename_i heq
    have hw := h.permitted heq
    split
    · exact hw
    · refine hw.setInst.foldl fun v c => ?_
      extract_lets r y
      have hr : Steady v r.2.2 := (Steady.refl v).readTile
      clear_value r y
      exact .ite hr.sendMessage (.ite hr.sendMessage.sendMessage hr.sendMessage)

theorem Steady.movePull {p : Plan} {op mb : Nat} {x o : TD} {ds : List Bytes} (h : Steady s t) :
    Steady s (t.movePull p op mb x o ds) := by
  unfold State.movePull
  split
  · exact h
  · split
    · rename_i heq
      exact h.permitted heq
    · rename_i heq
      exact ((h.permitted heq).foldl fun v _ => (Steady.refl v).writeTile).computed

theorem Steady.moveBegins {st : Step} {p : Plan} {op mb : Nat} {x o : TD} (h : Steady s t) :
    Steady s (t.moveBegins st p op mb x o) := by
  unfold State.moveBegins
  extract_lets blk add reads
  split
  · exact h.movePush
  · split
    · exact .ite h.askFails h.setInst.emits
    · split
      · rename_i heq
        exact h.permitted heq
      · rename_i heq
        exact (h.permitted heq).copyTiles.computed

theorem Steady.moveAnswered {p : Plan} {op mb : Nat} {x o : TD} {ds : List Bytes} (h : Steady s t) :
    Steady s (t.moveAnswered p op mb x o ds) := .ite h.moveRefused (.ite (.ite h.computed h) h.movePull)

theorem execMove_steady (op mb : Nat) (data : Option (List Bytes)) (s : State) : ∃ t, execMove op mb data s = .next t ∧ Steady s t := by
  have h := Steady.refl s
  refine ⟨_, rfl, ?_⟩
  cases data with
  | none =>
    dsimp only
    split
    · exact h
    · rename_i he
      split
      · exact (h.enter he).moveBegins
      · exact h.enter he
  | some ds =>
    dsimp only
    split
    · exact h
    · split
      · exact .ite h.moveAnswered h
      · exact h

/-! ### PREFETCH -/

theorem Steady.placeTensor {d : TD} (h : Steady s t) : Steady s (t.placeTensor d) := by
  refine h.foldl_fst (x := (t, [0, 0])) fun v x => (Steady.refl v.1).foldl_fst fun w c => ?_
  split
  · extract_lets k
    refine .ite_fst (.refl _) ((Steady.refl w.1).foldl_fst fun y l => ?_)
    exact .ite_fst ((Steady.refl y.1).upd rfl rfl fun hi => { hi.laws with coh := Coh.place_lawful hi.coh _ _ _ _ }) (.refl _)
  · exact .refl _

/-- A page that takes new heat, and is promoted where there is room. -/
theorem Rgn.Lawful.heated {g : Rgn} (h : g.Lawful) {id page k : Nat} {r : Region} (hr : g.get id = some r) (heat : AL Nat) :
    ((g.put { r with heat := heat }).promote k page).Lawful :=
  Rgn.promote_lawful (h.put (r := { r with heat := heat }) (h.pages hr :)) _ _

theorem Steady.promoteTensor {d : TD} (h : Steady s t) : Steady s (t.promoteTensor d) := by
  refine h.foldl fun v x => (Steady.refl v).foldl fun w c => ?_
  split
  · rename_i r off hspot
    obtain ⟨n, e, -, hget, -⟩ := Rgn.place_ok.1 hspot
    exact .ite ((Steady.refl w).upd rfl rfl fun hi => { hi.laws with rgn := hi.rgn.heated hget _ }) (.refl w)
  · exact .refl w

theorem execPrefetch_steady (op mb : Nat) (s : State) : ∃ t, execPrefetch op mb s = .next t ∧ Steady s t := by
  refine ⟨_, rfl, ?_⟩
  split
  · exact .refl s
  · rename_i he
    have h := (Steady.refl s).enter he
    split
    · exact h
    · split
      · rename_i heq
        exact h.permitted heq
      · rename_i heq
        exact Steady.computed (.ite (h.permitted heq).placeTensor (h.permitted heq).promoteTensor)

end Sys2Proof.Machine
end

section
/-! SUPPORT. Steps, verdict messages, the session, ABORT and a context reset leave the queue alone and keep the invariant (R310 to R362,
R419 to R421, R472, R512 to R525, R580, R634). -/

namespace Sys2Proof.Machine

variable {s t u : State}

/-! ### STEP_SUBMIT and STEP_REPLAY -/

/-- What reading the record of a replay leaves behind. -/
def replayState : Except (Nat × State) (Bytes × State) → State
  | .ok x => x.2
  | .error x => x.2

theorem Steady.replaySource {ring attempt va : Nat} (h : Steady s t) : Steady s (replayState (t.replaySource ring attempt va)) := by
  unfold State.replaySource
  split
  · split
    · exact h
    · exact h
  · split
    · exact h
    · split
      · rename_i x hx
        obtain ⟨c, v⟩ := x
        exact h.cmdAccess_error hx
      · rename_i v hv
        extract_lets hd
        have hread : Steady s hd.2 := (h.cmdAccess_ok hv).readVa
        clear_value hd
        split
        · exact hread
        · split
          · rename_i x hx
            obtain ⟨c, v⟩ := x
            exact hread.cmdAccess_error hx
          · rename_i v hv
            exact (hread.cmdAccess_ok hv).readVa

theorem Steady.acceptStep {q : Req} {p : Plan} {n : Nat} {src : Option Bytes} (h : Steady s t) : Steady s (t.acceptStep q p n src).1 := by
  unfold State.acceptStep
  refine .ite_fst h (.ite_fst h (.ite_fst h (.ite_fst h ?_)))
  split
  · rename_i v hv
    split at hv
    · exact h.slotsWait hv
    · cases hv
  · extract_lets v a ls st rs
    have hv : Steady s v := .ite h.settleClasses h
    clear_value v
    refine .ite_fst hv ?_
    exact hv.same rfl

theorem stepSubmitBody_steady (q : Req) (s : State) : Steady s (stepSubmitBody q s).1 := by
  have h := Steady.refl s
  unfold stepSubmitBody
  split
  · exact h
  · exact .ite_fst h h.acceptStep

theorem execStepSubmit_steady (k : SlotId) (s : State) : ∃ t, execStepSubmit k s = .next t ∧ Steady s t :=
  Steady.takes k _ s stepSubmitBody_steady

theorem stepReplayBody_steady (q : Req) (s : State) : Steady s (stepReplayBody q s).1 := by
  have h := Steady.refl s
  have hsource : Steady s (replayState (s.replaySource (q.f 8 8) (q.f 2 2) (q.f 0x10 8))) := h.replaySource
  unfold stepReplayBody
  split
  · exact h
  · split
    · exact h
    · split
      · rename_i heq
        rw [heq] at hsource
        exact hsource
      · rename_i heq
        rw [heq] at hsource
        exact Steady.acceptStep hsource

theorem execStepReplay_steady (k : SlotId) (s : State) : ∃ t, execStepReplay k s = .next t ∧ Steady s t :=
  Steady.takes k _ s stepReplayBody_steady

/-! ### MODE_SCHEDULE, RING_QUERY, STEP_RECORD -/

theorem modeScheduleBody_steady (q : Req) (s : State) : Steady s (modeScheduleBody q s).1 := by
  have h := Steady.refl s
  unfold modeScheduleBody
  extract_lets m n
  split
  · exact h
  · exact .ite_fst h (.ite_fst h h.setPln)

theorem execModeSchedule_steady (k : SlotId) (s : State) : ∃ t, execModeSchedule k s = .next t ∧ Steady s t :=
  Steady.takes k _ s modeScheduleBody_steady

theorem ringQueryBody_steady (q : Req) (s : State) : Steady s (ringQueryBody q s).1 := .ite_fst (.refl s) (.refl s)

theorem execRingQuery_steady (k : SlotId) (s : State) : ∃ t, execRingQuery k s = .next t ∧ Steady s t :=
  Steady.takes k _ s ringQueryBody_steady

theorem stepRecordBody_steady (q : Req) (s : State) : Steady s (stepRecordBody q s).1 := by
  have h := Steady.refl s
  unfold stepRecordBody
  extract_lets off va
  split
  · exact h
  · refine .ite_fst h (.ite_fst h ?_)
    split
    · rename_i hv
      exact (h.cmdAccess_error hv).cmdFailed (h.cmdAccess_error hv).undefineVa
    · rename_i hv
      exact (h.cmdAccess_ok hv).writeVa.fence

theorem execStepRecord_steady (k : SlotId) (s : State) : ∃ t, execStepRecord k s = .next t ∧ Steady s t :=
  Steady.takes k _ s stepRecordBody_steady

/-! ### Hold notices and the start of a step -/

theorem Steady.heedNotices (h : Steady s t) : Steady s t.heedNotices := by
  unfold State.heedNotices
  split
  · exact h
  · exact .ite h.stopStep.vote h

theorem execHoldNotice_steady (ring attempt round bundle : Nat) (s : State) :
    ∃ t, execHoldNotice ring attempt round bundle s = .next t ∧ Steady s t :=
  ⟨_, rfl, .ite (.refl s) (Steady.setStp (.refl s)).floodNotice.heedNotices⟩

theorem Steady.startStep {q : Step} (h : Steady s t) : Steady s (t.startStep q) := by
  unfold State.startStep
  extract_lets _ v
  have hv : Steady s v := .ite h h.setPln
  clear_value v
  split
  · exact hv
  · extract_lets q₁ _ w x y
    have hw : Steady s w := hv.same rfl
    clear_value w
    have hx : Steady s x := hw.adoptPreps
    clear_value x
    have hy : Steady s y := hx.heedNotices.redeliver.servePeers
    exact .ite hx.localHold (.ite hy.endFree hy)

theorem execStepStart_steady (s : State) : ∃ t, execStepStart s = .next t ∧ Steady s t := by
  have h := Steady.refl s
  refine ⟨_, rfl, ?_⟩
  split
  · exact .ite h.startStep h
  · exact h

/-! ### Instances complete; the vote -/

theorem execInstanceComplete_steady (op mb : Nat) (s : State) : ∃ t, execInstanceComplete op mb s = .next t ∧ Steady s t := by
  have h := Steady.refl s
  refine ⟨_, rfl, ?_⟩
  split
  · exact h
  · split
    · rename_i c _
      extract_lets v
      have hv : Steady s v := Steady.servePeers (.ite h.instDone h.instFails)
      clear_value v
      refine .ite h ?_
      split
      · exact .ite hv.endFree hv
      · exact hv
    · exact h

theorem execVerdict_steady (op : Nat) (s : State) : ∃ t, execVerdict op s = .next t ∧ Steady s t := by
  have h := Steady.refl s
  refine ⟨_, rfl, ?_⟩
  split
  · rename_i he
    exact h.enter he
  · exact h

theorem Steady.sweepNotes {p : Plan} (h : Steady s t) : Steady s (t.sweepNotes p) := by
  unfold State.sweepNotes
  extract_lets bad v
  have hv : Steady s v := h.foldl fun w b => by
    split
    · exact (Steady.refl w).setChain
    · exact .refl w
  clear_value v
  exact hv.onStep.emits

theorem execVoteRecordWrite_steady (twins : List (Nat × BitVec 64)) (s : State) :
    ∃ t, execVoteRecordWrite twins s = .next t ∧ Steady s t := by
  have h := Steady.refl s
  refine ⟨_, rfl, h.onSlots ?_⟩
  split
  · exact h
  · rename_i st p _
    refine .ite h (.ite ?_ (.ite h.vote.serveFetches h))
    split
    · refine .ite ?_ h
      extract_lets v
      have hv : Steady s v := h.sweepNotes.onStep
      clear_value v
      split
      · exact hv.heedNotices.vote.owedHold.serveFetches
      · exact hv
    · exact h

theorem Steady.hearVerdict {m : VerdictMsg} (h : Steady s t) : Steady s (t.hearVerdict m) :=
  (Steady.setStp h).verdictMoves.owedHold.heedNotices.serveFetches

theorem execVerdictMessage_steady (m : VerdictPart) (s : State) : ∃ t, execVerdictMessage m s = .next t ∧ Steady s t := by
  have h := Steady.refl s
  refine ⟨_, rfl, h.onSlots (.ite h ?_)⟩
  cases m with
  | verdict axis bcast src v => exact .ite h.raise.localHold (.ite h.setStp h.hearVerdict)
  | watch axis bcast src es last =>
    dsimp only
    split
    · exact h
    · exact .ite (Steady.setStp h).hearVerdict h.setStp

theorem execVerdictTimeout_steady (s : State) : ∃ t, execVerdictTimeout s = .next t ∧ Steady s t := by
  have h := Steady.refl s
  refine ⟨_, rfl, ?_⟩
  split
  · exact .ite h.raise h
  · exact h

/-! ### HELLO -/

theorem Steady.failStaleTxns (h : Steady s t) : Steady s t.failStaleTxns := by
  unfold State.failStaleTxns
  extract_lets hits lost _ v
  have hv : Steady s v := h.upd rfl rfl fun hi => { hi.laws with
      coh := hi.coh.sub (List.Subset.refl _) (List.Subset.refl _) (List.filter_subset_self _) (List.filter_subset_self _) }
  clear_value v
  refine hv.foldl fun w x => ?_
  split
  · exact (Steady.refl w).coreWaits.emit
  · exact .refl w

theorem Steady.gladeHostLost (h : Steady s t) : Steady s t.gladeHostLost := by
  refine h.foldl fun v l => ?_
  split
  · split
    · exact .ite (Steady.refl v).freeLane.setEntry.failGroup (.refl v)
    · exact .refl v
  · exact .refl v

theorem Rgn.endStale_lawful {g : Rgn} (h : g.Lawful) :
    ({ g with regions := g.regions.map fun r => { r with stale := false } } : Rgn).Lawful :=
  h.map (f := fun r => { r with stale := false }) (fun _ => rfl) fun r hr => (h.sizes r hr).2

theorem Steady.endStale {kept : Bool} (h : Steady s t) : Steady s (t.endStale kept) := by
  unfold State.endStale
  extract_lets v w lost _ refused x fresh _ y
  have hv : Steady s v := .ite h h.failStaleTxns.gladeHostLost.dmaStaleLost
  clear_value v
  have hw : Steady s w := hv.endHostWait
  clear_value w
  have hx : Steady s x := .ite hw (hw.same rfl)
  clear_value x
  have hy : Steady s y := hx.upd rfl rfl fun hi => { hi.laws with rgn := Rgn.endStale_lawful hi.rgn }
  exact hy.retryHeld.wakeChans.servePeers

theorem helloBody_steady (q : Req) (s : State) : Steady s (helloBody q s).1 := by
  have h := Steady.refl s
  unfold helloBody
  extract_lets kept _ v
  have hv : Steady s v := .ite h (Steady.endStale (h.same rfl))
  exact .ite_fst h (.ite_fst h hv)

theorem execHello_steady (k : SlotId) (s : State) : ∃ t, execHello k s = .next t ∧ Steady s t :=
  Steady.takes k _ s helloBody_steady

/-! ### ABORT -/

theorem Steady.abortActive {st : Step} (h : Steady s t) : Steady s (t.abortActive st) := .ite h.endFree (Steady.setStp h).localHold

theorem Steady.abortOwed {tag : Nat} (h : Steady s t) : Steady s (t.abortOwed tag) := h.setStp

theorem abortBody_steady (q : Req) (s : State) : Steady s (abortBody q s).1 := by
  have h := Steady.refl s
  unfold abortBody
  extract_lets tag live
  refine .ite_fst h ?_
  split
  · split
    · exact h.abortQueued
    · exact h.abortActive
    · exact h.abortOwed
    · exact h
    · exact h
  · split
    · rename_i hd
      exact h.dmaAbort hd
    · exact h

theorem execAbort_steady (k : SlotId) (s : State) : ∃ t, execAbort k s = .next t ∧ Steady s t :=
  Steady.takes k _ s abortBody_steady

/-! ### A context reset -/

theorem Rgn.reset_lawful : Rgn.reset.Lawful := ⟨rfl, List.nodup_nil, nofun⟩

theorem Coh.reset_lawful : Coh.reset.Lawful := ⟨nofun, nofun⟩

theorem Steady.contextReset (h : Steady s t) : Steady s t.contextReset := by
  have hv : Steady s ({ t with dma := t.dma.endAll cABORTED }.stopCores.fence.freeBacking) :=
    (Steady.same h rfl : Steady s { t with dma := t.dma.endAll cABORTED }).stopCores.fence.freeBacking
  refine Steady.retryWindows (hv.upd rfl rfl fun hi => { hi.laws with rgn := Rgn.reset_lawful.queues rfl rfl, coh := Coh.reset_lawful })

theorem contextBody_steady (q : Req) (s : State) : Steady s (contextBody q s).1 :=
  .ite_fst (.refl s) (.ite_fst (.refl s) (Steady.refl s).contextReset)

theorem execDeviceResetContext_steady (k : SlotId) (s : State) : ∃ t, execDeviceResetContext k s = .next t ∧ Steady s t :=
  Steady.takes k _ s contextBody_steady

end Sys2Proof.Machine
end

section
/-! SUPPORT. Starts, resets, thermal events, low-power states and the prefetch engine leave the queue alone and keep the invariant (R44,
R200 to R203, R219, R554 to R581, R591). -/

namespace Sys2Proof.Machine

variable {s t u : State}

/-! ### Starts -/

theorem Steady.setDev {d : Dev} (h : Steady s t) : Steady s { t with dev := d } := h.same rfl

theorem Steady.bootBank {r : Running} (h : Steady s t) (hb : t.bootBank = some (u, r)) : Steady s u := by
  unfold State.bootBank at hb
  extract_lets b boots at hb
  clear_value boots
  split at hb
  · cases hb
    exact h
  · obtain ⟨x, -, hx⟩ := Option.map_eq_some_iff.1 hb
    cases hx
    exact Steady.raise h.setDev

theorem Steady.readIdentity {inp : StartInputs} (h : Steady s t) : Steady s (t.readIdentity inp) := by
  unfold State.readIdentity
  extract_lets record topo ap f fresh _ _ _ v w x y
  have hv : Steady s v := h.same rfl
  clear_value v
  have hw : Steady s w := .ite hv hv.raise
  clear_value w
  have hx : Steady s x := .ite hw.raise hw
  clear_value x
  have hy : Steady s y := by
    dsimp only [y]
    split
    · exact hx.raise
    · exact hx
    · exact hx.raise
  exact hy.foldl fun z _ => (Steady.refl z).raise

theorem Steady.startFails {step : Nat} {cold : Bool} {us : List SelfTestEntry} {code : Nat} (h : Steady s t) :
    Steady s (t.startFails step cold us code) := by
  unfold State.startFails
  extract_lets _ _ v w
  have hv : Steady s v := h.same rfl
  clear_value v
  exact Steady.drainUndefined (.ite hv.raise (hv.foldl fun z _ => (Steady.refl z).raise))

theorem Steady.settleStart (h : Steady s t) : Steady s t.settleStart := .ite h.settleClasses h

theorem Steady.becomeReady (h : Steady s t) : Steady s t.becomeReady := by
  unfold State.becomeReady
  refine Steady.discover (Steady.drainUndefined (Steady.settleStart ?_))
  exact h.same rfl

theorem Steady.startAt {step : Nat} {cold : Bool} {inp : StartInputs} {next : State → State} (h : Steady s t)
    (hnext : ∀ v, Steady s v → Steady s (next v)) : Steady s (t.startAt step cold inp next) :=
  .ite h.setDev (.ite (hnext _ h.setDev) (Steady.startFails h.setDev))

theorem Steady.startSteps {cold : Bool} {inp : StartInputs} (h : Steady s t) : Steady s (t.startSteps cold inp) := by
  refine h.startAt fun v hv => ?_
  split
  · exact Steady.startFails hv.setDev
  · rename_i w r hb
    refine Steady.startAt (Steady.same (hv.bootBank hb) rfl) fun v hv => ?_
    refine hv.readIdentity.drainUndefined.startAt fun v hv => ?_
    refine hv.startAt fun v hv => ?_
    refine Steady.startAt (Steady.same hv rfl) fun v hv => ?_
    exact hv.startAt fun v hv => hv.becomeReady

/-! ### Without power -/

/-- Without power the queue stays and the invariant holds as it does at reset, host memory staying canonical. -/
theorem Steady.unpowered (h : Steady s t) : Steady s t.unpowered := by
  have hv : Steady s t.freeBacking := h.freeBacking
  unfold State.unpowered
  extract_lets v
  exact hv.trans ⟨rfl, fun hi => State.Laws.toInv ⟨Store.wfFrom_filter _ hi.mem, rfl, Rgn.reset_lawful, Coh.reset_lawful, rfl, Nat.zero_le _⟩,
    fun _ => rfl⟩

theorem execPwrgdRise_steady (s : State) : ∃ t, execPwrgdRise s = .next t ∧ Steady s t :=
  ⟨_, rfl, .ite (.refl s) (Steady.refl s).setAon⟩

theorem execPwrgdFall_steady (s : State) : ∃ t, execPwrgdFall s = .next t ∧ Steady s t :=
  ⟨_, rfl, .ite (Steady.refl s).unpowered (.refl s)⟩

theorem Steady.coldStart {inp : StartInputs} (h : Steady s t) : Steady s (t.coldStart inp) := by
  unfold State.coldStart
  extract_lets v _ _ w
  have hv : Steady s v := h.unpowered
  clear_value v
  have hw : Steady s w := hv.same rfl
  clear_value w
  refine .ite hw (Steady.startSteps ?_)
  exact hw.same rfl

/-! ### Warm resets -/

theorem Steady.quiesce (h : Steady s t) : Steady s t.quiesce := by
  unfold State.quiesce
  extract_lets v wbs mem w
  have hv : Steady s v := h.stopCores
  clear_value v
  have hmem : v.mem.cells.wf = true → mem.cells.wf = true :=
    foldl_keeps (P := fun m : Mem => m.cells.wf = true) (fun m c hm => Mem.putLine_wf hm _ _) _ _
  clear_value mem
  have hw : Steady s w := (Steady.upd hv rfl rfl fun hi => { hi.laws with mem := hmem hi.mem } :
      Steady s { v with mem := mem }).fence.dropHostCopies.settleBias
  clear_value w
  exact hw.upd rfl rfl fun hi => { hi.laws with rgn := Rgn.hostLost_lawful hi.rgn }

theorem Steady.undefineOutputs {st : Step} (h : Steady s t) : Steady s (t.undefineOutputs st) := by
  unfold State.undefineOutputs
  split
  · exact h
  · exact h.foldl fun v _ => (Steady.refl v).foldl fun w _ => (Steady.refl w).foldl fun x _ => (Steady.refl x).undefineVa

theorem Steady.parkStep (h : Steady s t) : Steady s t.parkStep := by
  unfold State.parkStep
  extract_lets free v w owed
  have hv : Steady s v := .ite h.abortQueued h
  clear_value v
  have hw : Steady s w := by
    dsimp only [w]
    split
    · exact .ite hv.undefineOutputs.endFree hv
    · exact hv
  exact hw.setStp

theorem Rgn.calm_lawful {g : Rgn} (h : g.Lawful) :
    ({ g with regions := g.regions.map fun r => { r with heat := [], flipping := [] } } : Rgn).Lawful :=
  h.map (f := fun r => { r with heat := [], flipping := [] }) (fun _ => rfl) fun r hr => (h.sizes r hr).2

theorem Steady.resetBlocks (h : Steady s t) : Steady s t.resetBlocks := by
  unfold State.resetBlocks
  extract_lets calm src
  exact h.trans ⟨rfl, fun hi => State.Laws.toInv { hi.laws with
    mbx := rfl, rgn := (Rgn.calm_lawful hi.rgn).queues rfl rfl, coh := Coh.reset_lawful, trace := rfl }, fun _ => rfl⟩

theorem Steady.halt (h : Steady s t) : Steady s t.halt := h.parkStep.quiesce.resetBlocks

theorem Steady.restart {inp : StartInputs} (h : Steady s t) : Steady s (t.restart inp) := Steady.startSteps (h.same rfl)

theorem execWarmReset_steady (s : State) : ∃ t, execWarmReset s = .next t ∧ Steady s t := by
  have h := Steady.refl s
  refine ⟨_, rfl, ?_⟩
  extract_lets _ v _ again w
  have hagain : Steady s again := h.unpowered.setAon
  have hw : Steady s { w with aon := { w.aon with resetN := false, resetWait := true } } := h.halt.setAon
  clear_value v again w
  refine .ite h (.ite h.setAon ?_)
  split
  · exact hagain
  · exact .ite hagain (.ite h.setAon hw)

theorem execResetNRise_steady (inp : StartInputs) (s : State) : ∃ t, execResetNRise inp s = .next t ∧ Steady s t := by
  have h := Steady.refl s
  refine ⟨_, rfl, ?_⟩
  extract_lets _ up
  have hup : Steady s up := h.setAon
  clear_value up
  exact .ite h (.ite hup (.ite h.coldStart (.ite (Steady.restart hup.setAon) hup)))

theorem execStartBoundExceeded_steady (units : List SelfTestEntry) (s : State) :
    ∃ t, execStartBoundExceeded units s = .next t ∧ Steady s t := by
  have h := Steady.refl s
  refine ⟨_, rfl, ?_⟩
  split
  · exact .ite h.startFails h
  · exact h

theorem Steady.thenReset {inp : StartInputs} (h : Steady s t) : Steady s (u.thenReset inp t) :=
  .ite (Steady.restart h.halt.setAon) h

theorem warmBody_steady (q : Req) (s : State) : Steady s (warmBody q s).1 := .ite_fst (.refl s) (Steady.refl s).setAon

theorem execDeviceResetWarm_steady (k : SlotId) (inp : StartInputs) (s : State) :
    ∃ t, execDeviceResetWarm k inp s = .next t ∧ Steady s t :=
  ⟨_, rfl, ((Steady.refl s).take warmBody_steady).thenReset⟩

theorem fwActivateBody_steady (q : Req) (s : State) : Steady s (fwActivateBody q s).1 := by
  have h := Steady.refl s
  unfold fwActivateBody
  refine .ite_fst h ?_
  split
  · exact h
  · exact .ite_fst h (.ite_fst h h.setAon)

theorem execFwActivate_steady (k : SlotId) (inp : StartInputs) (s : State) : ∃ t, execFwActivate k inp s = .next t ∧ Steady s t :=
  ⟨_, rfl, ((Steady.refl s).take fwActivateBody_steady).thenReset⟩

/-! ### Thermal events -/

theorem execThermalTrip_steady (b : ThermalBlock) (temp : Nat) (s : State) : ∃ t, execThermalTrip b temp s = .next t ∧ Steady s t := by
  have h := Steady.refl s
  refine ⟨_, rfl, ?_⟩
  split
  · exact h
  · exact .ite h (Steady.raise h.setAon)

theorem execThermalRestore_steady (b : ThermalBlock) (temp : Nat) (s : State) :
    ∃ t, execThermalRestore b temp s = .next t ∧ Steady s t :=
  ⟨_, rfl, .ite (.refl s) (Steady.raise (Steady.refl s).setAon)⟩

theorem execThermalCritical_steady (b : ThermalBlock) (temp : Nat) (s : State) :
    ∃ t, execThermalCritical b temp s = .next t ∧ Steady s t := by
  have h := Steady.refl s
  refine ⟨_, rfl, ?_⟩
  extract_lets _ _ v
  have hv : Steady s v := h.same rfl
  clear_value v
  exact .ite h hv.raise.localHold.drainUndefined

/-! ### Low-power states -/

theorem execLowPowerEntry_steady (b : LowPowerBlock) (s : State) : ∃ t, execLowPowerEntry b s = .next t ∧ Steady s t := by
  have h := Steady.refl s
  refine ⟨_, rfl, ?_⟩
  extract_lets _ enter
  have henter : Steady s enter := h.setAon
  clear_value enter
  refine .ite h ?_
  cases b with
  | groveClock n => exact .ite henter h
  | grovePower n => exact .ite henter.setEng h
  | sapling n => exact henter
  | lane n => exact .ite henter h
  | core n => exact .ite henter h
  | ranger n => exact .ite h (.ite h.setAon h.setAon)

theorem execStackSelfRefreshEntry_steady (n : Fin 24) (s : State) : ∃ t, execStackSelfRefreshEntry n s = .next t ∧ Steady s t :=
  ⟨_, rfl, .ite (.refl s) ((Steady.refl s).same rfl)⟩

/-! ### The prefetch engine -/

theorem Steady.prefetchStops {st : Step} {op mb : Nat} {o : AccRes × Nat × Nat × Bool} (h : Steady s t) :
    Steady s (t.prefetchStops st op mb o) := by
  unfold State.prefetchStops
  split
  · exact h.raise
  · exact .ite h.obstacle h.raise
  · exact h

theorem execPrefetchFetch_steady (place : Place) (op mb : Nat) (work : StripePieces) (s : State) :
    ∃ t, execPrefetchFetch place op mb work s = .next t ∧ Steady s t := by
  have h := Steady.refl s
  refine ⟨_, rfl, ?_⟩
  split
  · split
    · exact h
    · refine .ite h ?_
      extract_lets accs cache
      split
      · exact (h.foldl fun v _ => (Steady.refl v).lookRange).deliverRecs
      · exact h.prefetchStops
  · exact h

end Sys2Proof.Machine
end

section
/-! PROOF. Every command answers a next state, leaves the queue alone and keeps the invariant; so a step keeps the invariant (R487, R500,
R509). -/

namespace Sys2Proof.Machine

theorem runs_of_steady {o : Host.Outcome State Fault Refusal} {s : State} (h : ∃ t, o = .next t ∧ Steady s t) : ∃ t, o = .next t ∧ Runs s t := by
  obtain ⟨t, ht, hsteady⟩ := h
  exact ⟨t, ht, hsteady.runs⟩

/-- Whatever the command, it answers a state whose queue is the same and that keeps the invariant. -/
theorem exec_runs (c : Instr) (s : State) : ∃ t, exec c s = .next t ∧ Runs s t :=
  match c with
  | .mbxOwnWrite slot => runs_of_steady (execMbxOwnWrite_steady slot s)
  | .slotWrite by_ addr acc => runs_of_steady (execSlotWrite_steady by_ addr acc s)
  | .hello slot => runs_of_steady (execHello_steady slot s)
  | .info slot => runs_of_steady (execInfo_steady slot s)
  | .query slot => runs_of_steady (execQuery_steady slot s)
  | .abort slot => runs_of_steady (execAbort_steady slot s)
  | .deviceResetContext slot => runs_of_steady (execDeviceResetContext_steady slot s)
  | .deviceResetWarm slot inp => runs_of_steady (execDeviceResetWarm_steady slot inp s)
  | .regionCreate slot => runs_of_steady (execRegionCreate_steady slot s)
  | .regionRegister slot => runs_of_steady (execRegionRegister_steady slot s)
  | .biasSetShared slot => runs_of_steady (execBiasSetShared_steady slot s)
  | .biasSetDevice slot => runs_of_steady (execBiasSetDevice_steady slot s)
  | .backInvalidateAnswer hpa data => runs_of_steady (execBackInvalidateAnswer_steady hpa data s)
  | .objectPin slot => runs_of_steady (execObjectPin_steady slot s)
  | .map slot => runs_of_steady (execMap_steady slot s)
  | .unmap slot => runs_of_steady (execUnmap_steady slot s)
  | .regionInfo slot => runs_of_steady (execRegionInfo_steady slot s)
  | .planLoad slot => runs_of_steady (execPlanLoad_steady slot s)
  | .planDrop slot => runs_of_steady (execPlanDrop_steady slot s)
  | .stepSubmit slot => runs_of_steady (execStepSubmit_steady slot s)
  | .stepReplay slot => runs_of_steady (execStepReplay_steady slot s)
  | .modeSchedule slot => runs_of_steady (execModeSchedule_steady slot s)
  | .ringQuery slot => runs_of_steady (execRingQuery_steady slot s)
  | .stepRecord slot => runs_of_steady (execStepRecord_steady slot s)
  | .shardDefine slot => runs_of_steady (execShardDefine_steady slot s)
  | .stateExport slot => runs_of_steady (execStateExport_steady slot s)
  | .stateImport slot => runs_of_steady (execStateImport_steady slot s)
  | .shardRepair slot => runs_of_steady (execShardRepair_steady slot s)
  | .blazeRead slot => runs_of_steady (execBlazeRead_steady slot s)
  | .gladeSource slot => runs_of_steady (execGladeSource_steady slot s)
  | .gladeDisposeSet slot => runs_of_steady (execGladeDisposeSet_steady slot s)
  | .gladeDisposeSubstitute slot => runs_of_steady (execGladeDisposeSubstitute_steady slot s)
  | .gladeStats slot => runs_of_steady (execGladeStats_steady slot s)
  | .fabricStatus slot => runs_of_steady (execFabricStatus_steady slot s)
  | .fabricMapLoad slot => runs_of_steady (execFabricMapLoad_steady slot s)
  | .portInfo slot => runs_of_steady (execPortInfo_steady slot s)
  | .dmaSubmit slot => runs_of_steady (execDmaSubmit_steady slot s)
  | .dmaStatus slot => runs_of_steady (execDmaStatus_steady slot s)
  | .ctrConfig slot => execCtrConfig_runs slot s
  | .ctrSnapshot slot => runs_of_steady (execCtrSnapshot_steady slot s)
  | .traceSet slot => runs_of_steady (execTraceSet_steady slot s)
  | .traceStop slot => runs_of_steady (execTraceStop_steady slot s)
  | .traceCopy slot => runs_of_steady (execTraceCopy_steady slot s)
  | .sampleStart slot => runs_of_steady (execSampleStart_steady slot s)
  | .sampleStop slot => runs_of_steady (execSampleStop_steady slot s)
  | .attest slot => runs_of_steady (execAttest_steady slot s)
  | .idRead slot answer => runs_of_steady (execIdRead_steady slot answer s)
  | .fwStage slot => runs_of_steady (execFwStage_steady slot s)
  | .fwActivate slot inp => runs_of_steady (execFwActivate_steady slot inp s)
  | .coresLoad slot => runs_of_steady (execCoresLoad_steady slot s)
  | .coresStart slot => runs_of_steady (execCoresStart_steady slot s)
  | .coresStop slot => runs_of_steady (execCoresStop_steady slot s)
  | .pwrgdRise => runs_of_steady (execPwrgdRise_steady s)
  | .pwrgdFall => runs_of_steady (execPwrgdFall_steady s)
  | .resetNRise inp => runs_of_steady (execResetNRise_steady inp s)
  | .startBoundExceeded units => runs_of_steady (execStartBoundExceeded_steady units s)
  | .warmReset => runs_of_steady (execWarmReset_steady s)
  | .thermalTrip b temp => runs_of_steady (execThermalTrip_steady b temp s)
  | .thermalRestore b temp => runs_of_steady (execThermalRestore_steady b temp s)
  | .thermalCritical b temp => runs_of_steady (execThermalCritical_steady b temp s)
  | .lowPowerEntry b => runs_of_steady (execLowPowerEntry_steady b s)
  | .stackSelfRefreshEntry n => runs_of_steady (execStackSelfRefreshEntry_steady n s)
  | .hostPerstAssert => runs_of_steady (execHostPerstAssert_steady s)
  | .hostLinkRetrain width => runs_of_steady (execHostLinkRetrain_steady width s)
  | .hostLinkLoss cause => runs_of_steady (execHostLinkLoss_steady cause s)
  | .hostLinkUp width => runs_of_steady (execHostLinkUp_steady width s)
  | .hdmDecoderCommit base ways => runs_of_steady (execHdmDecoderCommit_steady base ways s)
  | .hostHdmAccess hpa caching acc => runs_of_steady (execHostHdmAccess_steady hpa caching acc s)
  | .hostSnoop hpa inv => runs_of_steady (execHostSnoop_steady hpa inv s)
  | .coherenceRequest who region off op => runs_of_steady (execCoherenceRequest_steady who region off op s)
  | .bar2WindowAccess requester off acc => runs_of_steady (execBar2WindowAccess_steady requester off acc s)
  | .adapterWindowAccess port addr acc => runs_of_steady (execAdapterWindowAccess_steady port addr acc s)
  | .adapterInterruptMsg port addr data => runs_of_steady (execAdapterInterruptMsg_steady port addr data s)
  | .adapterLinkDown port => runs_of_steady (execAdapterLinkDown_steady port s)
  | .adapterPerstTimeout port => runs_of_steady (execAdapterPerstTimeout_steady port s)
  | .adapterLinkUp port width rate => runs_of_steady (execAdapterLinkUp_steady port width rate s)
  | .bridgeCrcFail failed => runs_of_steady (execBridgeCrcFail_steady failed s)
  | .matmul op mb places => runs_of_steady (execMatmul_steady op mb places s)
  | .conv op mb places => runs_of_steady (execConv_steady op mb places s)
  | .pool op mb place => runs_of_steady (execPool_steady op mb place s)
  | .boxDecode op mb place => runs_of_steady (execBoxDecode_steady op mb place s)
  | .suppress op mb place => runs_of_steady (execSuppress_steady op mb place s)
  | .saplingConv op mb engines => runs_of_steady (execSaplingConv_steady op mb engines s)
  | .vectorElementwise op mb place => runs_of_steady (execVectorElementwise_steady op mb place s)
  | .vectorReduce op mb place => runs_of_steady (execVectorReduce_steady op mb place s)
  | .vectorGather op mb place => runs_of_steady (execVectorGather_steady op mb place s)
  | .vectorScatter op mb place => runs_of_steady (execVectorScatter_steady op mb place s)
  | .actBackward op mb place => runs_of_steady (execActBackward_steady op mb place s)
  | .gradGather op mb place => runs_of_steady (execGradGather_steady op mb place s)
  | .chainReduce op place => runs_of_steady (execChainReduce_steady op place s)
  | .allGather op => runs_of_steady (execAllGather_steady op s)
  | .verdict op => runs_of_steady (execVerdict_steady op s)
  | .arrivalUpdate op place => runs_of_steady (execArrivalUpdate_steady op place s)
  | .gladeBatch op mb => runs_of_steady (execGladeBatch_steady op mb s)
  | .move op mb data => runs_of_steady (execMove_steady op mb data s)
  | .prefetch op mb => runs_of_steady (execPrefetch_steady op mb s)
  | .instanceComplete op mb => runs_of_steady (execInstanceComplete_steady op mb s)
  | .pass op mb block seg place => runs_of_steady (execPass_steady op mb block seg place s)
  | .segmentCombine op mb block => runs_of_steady (execSegmentCombine_steady op mb block s)
  | .outputStageDrain op mb block => runs_of_steady (execOutputStageDrain_steady op mb block s)
  | .tileMove place op mb store work => runs_of_steady (execTileMove_steady place op mb store work s)
  | .walkComplete cache va store => runs_of_steady (execWalkComplete_steady cache va store s)
  | .demandFaultResolve va => runs_of_steady (execDemandFaultResolve_steady va s)
  | .tileMoveComplete place ecc lat xlat => runs_of_steady (execTileMoveComplete_steady place ecc lat xlat s)
  | .migrationCopyDone region page => runs_of_steady (execMigrationCopyDone_steady region page s)
  | .prefetchFetch place op mb work => runs_of_steady (execPrefetchFetch_steady place op mb work s)
  | .wcDrainAge region off => runs_of_steady (execWcDrainAge_steady region off s)
  | .memorySideAdd region off fmt v => runs_of_steady (execMemorySideAdd_steady region off fmt v s)
  | .heatDecay => runs_of_steady (execHeatDecay_steady s)
  | .bandwidthWindow waiting => runs_of_steady (execBandwidthWindow_steady waiting s)
  | .patrolScrub stack lines => runs_of_steady (execPatrolScrub_steady stack lines s)
  | .stepStart => runs_of_steady (execStepStart_steady s)
  | .voteRecordWrite twins => runs_of_steady (execVoteRecordWrite_steady twins s)
  | .verdictMessage m => runs_of_steady (execVerdictMessage_steady m s)
  | .verdictTimeout => runs_of_steady (execVerdictTimeout_steady s)
  | .holdNotice ring attempt round bundle => runs_of_steady (execHoldNotice_steady ring attempt round bundle s)
  | .segmentUpdateDone shard seg => runs_of_steady (execSegmentUpdateDone_steady shard seg s)
  | .chainMessage msg => runs_of_steady (execChainMessage_steady msg s)
  | .gatherRequest src shard attempt ring gather => runs_of_steady (execGatherRequest_steady src shard attempt ring gather s)
  | .gatherMessage gather msg => runs_of_steady (execGatherMessage_steady gather msg s)
  | .peerReadRequest src ring va len => runs_of_steady (execPeerReadRequest_steady src ring va len s)
  | .flitReceive port flit corrected uncorrectable laneErr => runs_of_steady (execFlitReceive_steady port flit corrected uncorrectable laneErr s)
  | .nakReceive port seq => runs_of_steady (execNakReceive_steady port seq s)
  | .flitAckTimeout port => runs_of_steady (execFlitAckTimeout_steady port s)
  | .retrainTimeout port => runs_of_steady (execRetrainTimeout_steady port s)
  | .portRetryTimer port => runs_of_steady (execPortRetryTimer_steady port s)
  | .portTrained port => runs_of_steady (execPortTrained_steady port s)
  | .portProbationEnd port => runs_of_steady (execPortProbationEnd_steady port s)
  | .identityExchange port far => runs_of_steady (execIdentityExchange_steady port far s)
  | .unverifiedRetry port => runs_of_steady (execUnverifiedRetry_steady port s)
  | .linkStateRecord bundle r => runs_of_steady (execLinkStateRecord_steady bundle r s)
  | .discoveryFloodTimeout => runs_of_steady (execDiscoveryFloodTimeout_steady s)
  | .readinessBarrierMessage m => runs_of_steady (execReadinessBarrierMessage_steady m s)
  | .partialWaitExpiry => runs_of_steady (execPartialWaitExpiry_steady s)
  | .partialBarrierMessage m => runs_of_steady (execPartialBarrierMessage_steady m s)
  | .flowMessageComplete src ctx dest => runs_of_steady (execFlowMessageComplete_steady src ctx dest s)
  | .e2eAck ctx cseq m => runs_of_steady (execE2eAck_steady ctx cseq m s)
  | .contextStallTimeout ctx => runs_of_steady (execContextStallTimeout_steady ctx s)
  | .joinNotice m => runs_of_steady (execJoinNotice_steady m s)
  | .joinBarrierMessage m => runs_of_steady (execJoinBarrierMessage_steady m s)
  | .joinRetryTimer => runs_of_steady (execJoinRetryTimer_steady s)
  | .continuityRecord r => runs_of_steady (execContinuityRecord_steady r s)
  | .dmaChunk ch => runs_of_steady (execDmaChunk_steady ch s)
  | .dmaTransferEnd ch => runs_of_steady (execDmaTransferEnd_steady ch s)
  | .manifestReady source ring => runs_of_steady (execManifestReady_steady source ring s)
  | .gladePrepareStep source ring => runs_of_steady (execGladePrepareStep_steady source ring s)
  | .gladeLaneStart lane source => runs_of_steady (execGladeLaneStart_steady lane source s)
  | .sampleDone lane r => runs_of_steady (execSampleDone_steady lane r s)
  | .sampleAbandon lane => runs_of_steady (execSampleAbandon_steady lane s)
  | .releaseWord op mb => runs_of_steady (execReleaseWord_steady op mb s)
  | .coreIoAccess core pa acc => runs_of_steady (execCoreIoAccess_steady core pa acc s)
  | .coreTimerCompare core which => runs_of_steady (execCoreTimerCompare_steady core which s)
  | .coreWfi core => runs_of_steady (execCoreWfi_steady core s)
  | .unitFailure u => runs_of_steady (execUnitFailure_steady u s)
  | .discoveryBoundExpiry step => runs_of_steady (execDiscoveryBoundExpiry_steady step s)
  | .flowAckInterval src ctx => runs_of_steady (execFlowAckInterval_steady src ctx s)
  | .hostPortDownAtStart => runs_of_steady (execHostPortDownAtStart_steady s)
  | .hostPerstRelease => runs_of_steady (execHostPerstRelease_steady s)
  | .refereeFetch m => runs_of_steady (execRefereeFetch_steady m s)
  | .verdictHistoryRequest m => runs_of_steady (execVerdictHistoryRequest_steady m s)

/-- Settles O3: each command's meaning is a next state, reached by operations that leave the queue alone. -/
theorem everyCommandRuns : Obligations.EveryCommandRuns := by
  intro c s
  obtain ⟨t, ht, hruns⟩ := exec_runs c s
  exact ⟨t, ht, hruns.queue⟩

/-- DEV_TICK advances, and that is all. -/
theorem Steady.idle {s t : State} (h : Steady s t) : Steady s t.idle := .ite h.setAon h

/-- The invariant says nothing of the queue. -/
theorem State.Inv.requeued {s : State} (h : s.Inv) (l : List Instr) : State.Inv { s with pending := l } :=
  ⟨h.mem, h.mbx, h.tbl, h.trace, h.attn, h.lines, h.fits, h.ids, h.sizes⟩

/-- Settles O5: the step takes the command at the front off the queue, of which the invariant says nothing, and the command's effect is
made of operations each of which keeps every part of the invariant. -/
theorem stepKeepsInv : Obligations.StepKeepsInv := by
  intro s t hs hstep
  unfold step at hstep
  split at hstep
  · cases hstep
    exact (Steady.refl s).idle.inv hs
  · rename_i c rest _
    obtain ⟨u, hu, hruns⟩ := exec_runs c { s with pending := rest }
    cases hstep.symm.trans hu
    exact hruns.inv (hs.requeued rest)

end Sys2Proof.Machine
end

section
/-! SUPPORT. What a recovery and a discovery leave: whatever the step that is owed comes to, the slots, the cores, the transfers and
the always-on domain stay, and the device stays READY (R313, R355, R392). -/

namespace Sys2Proof.Machine

/-- The parts that a recovery, and the discovery before it, can change. -/
def wakeParts : List Part := [.out, .att, .dev, .mem, .rgn, .coh, .pln, .stp, .trn, .eng, .fab, .gld, .obs]

/-- From `s` to `t` the parts that a recovery does not reach are as they were, and of DEV only that the device has joined is new. -/
structure Wakes (s t : State) : Prop where
  keeps : Keeps wakeParts s t
  dev : t.dev = { s.dev with joined := t.dev.joined }

variable {s t u : State}

theorem Wakes.refl (s : State) : Wakes s s := ⟨.refl _ s, rfl⟩

theorem Wakes.trans (h : Wakes s t) (k : Wakes t u) : Wakes s u := by
  refine ⟨h.keeps.trans k.keeps, k.dev.trans ?_⟩
  rw [h.dev]

theorem Wakes.works {l : List Part} (h : Wakes s t) (hk : Keeps l t u) (hl : ∀ p ∈ l, p ∈ workParts) : Wakes s u := by
  have hdev : u.dev = t.dev := hk .dev fun hd => absurd (hl _ hd) (by decide)
  have hwork : Keeps wakeParts t u := hk.mono fun p hp => (by decide : ∀ p ∈ workParts, p ∈ wakeParts) p (hl p hp)
  exact h.trans ⟨hwork, hdev ▸ rfl⟩

theorem Wakes.ite {c : Prop} [Decidable c] (ht : Wakes s t) (hu : Wakes s u) : Wakes s (if c then t else u) := by
  split
  · exact ht
  · exact hu

theorem Wakes.foldl {α : Type} {f : State → α → State} {l : List α} (h : Wakes s t) (hf : ∀ u a, Wakes u (f u a)) : Wakes s (l.foldl f t) :=
  foldl_keeps (P := Wakes s) (fun u a hu => hu.trans (hf u a)) l t h

/-! ### Shared operations -/

theorem Wakes.setStp {p : Stp} (h : Wakes s t) : Wakes s { t with stp := p } := h.works (l := [.stp]) (.of_patch rfl) (by decide)

theorem Wakes.setTrn {g : Trn} (h : Wakes s t) : Wakes s { t with trn := g } := h.works (l := [.trn]) (.of_patch rfl) (by decide)

theorem Wakes.setPln {p : Pln} (h : Wakes s t) : Wakes s { t with pln := p } := h.works (l := [.pln]) (.of_patch rfl) (by decide)

theorem Wakes.setFab {f : Fab} (h : Wakes s t) : Wakes s { t with fab := f } := h.works (l := [.fab]) (.of_patch rfl) (by decide)

theorem Wakes.emit {o : Output} (h : Wakes s t) : Wakes s (t.emit o) := h.works (t.emit_keeps o) (by decide)

theorem Wakes.emits {os : List Output} (h : Wakes s t) : Wakes s (t.emits os) := h.works (t.emits_keeps os) (by decide)

theorem Wakes.raise {c k g a b : Nat} (h : Wakes s t) : Wakes s (t.raise c k g a b) := h.works (t.raise_keeps _ _ _ _ _) (by decide)

theorem Wakes.onStep {f : Step → Step} (h : Wakes s t) : Wakes s (t.onStep f) := h.works (t.onStep_keeps f) (by decide)

theorem Wakes.localHold {code : Nat} (h : Wakes s t) : Wakes s (t.localHold code) := h.works (t.localHold_keeps code) (by decide)

theorem Wakes.instFails {op mb code : Nat} (h : Wakes s t) : Wakes s (t.instFails op mb code) := h.works (t.instFails_keeps _ _ _) (by decide)

theorem Wakes.endStep {code cls : Nat} {ls : Int} (h : Wakes s t) : Wakes s (t.endStep code cls ls) :=
  h.works (t.endStep_keeps _ _ _) (by decide)

/-! ### Recovery -/

theorem Wakes.poisonEntry {d : ShardDef} (h : Wakes s t) : Wakes s (t.poisonEntry d) := by
  unfold State.poisonEntry
  split
  · exact h.works (t.faultEntry_keeps _ _ _ _ _ _ _) (by decide)
  · exact h

theorem Wakes.loseShard {d : ShardDef} (h : Wakes s t) : Wakes s (t.loseShard d) := h.setTrn.poisonEntry.raise.onStep.localHold

theorem Wakes.askTwin {d : ShardDef} {other : Nat} (h : Wakes s t) : Wakes s (t.askTwin d other) := by
  unfold State.askTwin
  split
  · exact h.emit
  · exact h

theorem Wakes.fetchTwin {d : ShardDef} (h : Wakes s t) : Wakes s (t.fetchTwin d) := by
  unfold State.fetchTwin
  split
  · exact .ite h.loseShard h.askTwin.setTrn
  · exact h.loseShard

theorem Wakes.answerFetch {src : Nat} {d : ShardDef} (h : Wakes s t) : Wakes s (t.answerFetch src d) := by
  unfold State.answerFetch
  split
  · exact h
  · exact .ite h.raise.localHold.emit h.emit

theorem Wakes.takeFetch {src shard ring : Nat} (h : Wakes s t) : Wakes s (t.takeFetch src shard ring) := by
  unfold State.takeFetch
  split
  · exact h
  · exact .ite h (.ite h.setTrn h.answerFetch)

theorem Wakes.serveFetches (h : Wakes s t) : Wakes s t.serveFetches := h.setTrn.foldl fun u _ => (Wakes.refl u).takeFetch

theorem State.redo_keeps (s : State) (d : ShardDef) (step : Option Step) (k : Option (Option Nat)) :
    Keeps [.mem, .coh, .out, .rgn] s (s.redo d step k) := by
  unfold State.redo
  split
  · exact .refl _ s
  · exact s.recompute_keeps _ _ _ _ _ _ _

theorem Wakes.redo {d : ShardDef} {step : Option Step} {k : Option (Option Nat)} (h : Wakes s t) : Wakes s (t.redo d step k) :=
  h.works (t.redo_keeps _ _ _) (by decide)

/-- The recomputation of the shards that a completed commit takes along (R355). -/
theorem State.redoHeld_keeps (s : State) (l but : List ShardDef) (n want : Nat) (step : Option Step) (k : Option (Option Nat)) :
    Keeps [.mem, .coh, .out, .rgn] s (l.foldl (fun (s : State) d =>
      if but.contains d then s
      else match s.classify d n with
        | .sealed q => if q = want then s else s.redo d step k
        | .recomputable => s.redo d step k
        | _ => s) s) := by
  refine Keeps.foldl (fun v d => ?_) l s
  split
  · exact .refl _ v
  · split
    · split
      · exact .refl _ v
      · exact v.redo_keeps _ _ _
    · exact v.redo_keeps _ _ _
    · exact .refl _ v

theorem State.commitState_keeps (s : State) (ring round : Nat) (ls : Int) (but : List Nat) :
    Keeps [.mem, .trn] s (s.commitState ring round ls but) := .of_patch rfl

theorem Wakes.resumeCommit {r : Resume} {round : Nat} (h : Wakes s t) : Wakes s (t.resumeCommit r round) := by
  unfold State.resumeCommit
  extract_lets k want but hdrs u₁ ls allow u₂ _ u₃ u₄ _ u₅
  have h₁ : Wakes s u₁ := h.works (t.redoHeld_keeps _ but r.ring want r.step (some k)) (by decide)
  clear_value u₁
  have h₃ : Wakes s u₃ := (h₁.works (u₁.commitState_keeps _ _ _ _) (by decide)).setStp
  clear_value u₃
  have h₄ : Wakes s u₄ := by
    dsimp only [u₄]
    split
    · exact h₃.setPln
    · exact h₃
  clear_value u₄
  have h₅ : Wakes s u₅ := by
    dsimp only [u₅]
    split
    · exact (h₄.works (u₄.policy_keeps true false) (by decide)).endStep
    · split
      · exact h₄.endStep
      · exact h₄.raise
  clear_value u₅
  exact (h₅.foldl fun v d => (Wakes.refl v).raise.fetchTwin).serveFetches

theorem State.settleAgain_keeps (n : Nat) (s : State) : Keeps [.mem, .coh, .out, .rgn] s (State.settleClasses.again n s) := by
  refine Keeps.foldl (fun v d => ?_) s.held s
  split
  · exact v.redo_keeps _ _ _
  · exact .refl _ v

theorem Wakes.settleClasses {n : Nat} (h : Wakes s t) : Wakes s (t.settleClasses n) := by
  have hagain := h.works (State.settleAgain_keeps n t) (by decide)
  unfold State.settleClasses
  split
  · exact .ite h.resumeCommit hagain
  · exact hagain

theorem Wakes.settleStart (h : Wakes s t) : Wakes s t.settleStart := .ite h.settleClasses h

theorem Wakes.owedHold (h : Wakes s t) : Wakes s t.owedHold := by
  unfold State.owedHold
  split
  · exact .ite h.localHold h
  · exact h

theorem Wakes.ghostVote {ring code : Nat} (h : Wakes s t) : Wakes s (t.ghostVote ring code) :=
  .ite h (Wakes.works (Wakes.emits h.setStp) (State.vote_keeps _ _ _) (by decide))

theorem Wakes.resumeVote {r : Resume} {st : Step} {v : Verdict} (h : Wakes s t) : Wakes s (t.resumeVote r st v) := by
  unfold State.resumeVote
  extract_lets owed bad _ u w st' _ u' u''
  have hu : Wakes s u := h.foldl fun v d => (Wakes.refl v).redo
  clear_value u owed bad
  have hu'' : Wakes s u'' := Wakes.ite hu.setStp.emits hu.setStp
  clear_value u''
  split
  · exact ((h.setStp).works (State.redoFails_keeps _ _ _ _) (by decide)).localHold
  · exact (hu''.works (verdictMoves_keeps 8 u'') (by decide)).owedHold

theorem Wakes.resumeHold {r : Resume} (h : Wakes s t) : Wakes s (t.resumeHold r) := by
  unfold State.resumeHold
  split
  · exact h.ghostVote
  · exact h.setStp.localHold

theorem Wakes.applyResume {r : Resume} (h : Wakes s t) : Wakes s (t.applyResume r) := by
  unfold State.applyResume
  extract_lets _ u own allow r' whole
  have hu : Wakes s u := h.setStp
  clear_value u own allow whole r'
  split
  · exact hu.resumeCommit
  · split
    · exact .ite hu.resumeVote hu.resumeHold
    · exact hu.resumeHold

theorem Wakes.settleResume (h : Wakes s t) : Wakes s t.settleResume := by
  unfold State.settleResume
  split
  · exact .ite h.applyResume h
  · exact h

theorem Wakes.beginResume (h : Wakes s t) : Wakes s t.beginResume := by
  unfold State.beginResume
  split
  · extract_lets ns _ u
    have hu : Wakes s u := h.setStp
    exact .ite h hu.emits.settleResume
  · exact h

/-! ### Barriers -/

theorem Wakes.ctxFailNote {dst : Nat} (h : Wakes s t) : Wakes s (t.ctxFailNote dst) := h.raise.setFab

theorem Wakes.failCtx {c : SendCtx} (h : Wakes s t) : Wakes s (t.failCtx c) := by
  unfold State.failCtx State.endCtx
  extract_lets u
  have hu : Wakes s u := h.ctxFailNote.setFab
  clear_value u
  split
  · exact .ite hu.instFails hu
  · exact hu

theorem Wakes.checkReach (h : Wakes s t) : Wakes s t.checkReach := by
  unfold State.checkReach
  extract_lets u
  have hu : Wakes s u := h.foldl fun v _ => (Wakes.refl v).failCtx
  clear_value u
  split
  · exact hu
  · refine hu.foldl fun v i => ?_
    split
    · exact .ite (Wakes.refl v).ctxFailNote.instFails (.refl v)
    · exact .refl v

theorem Wakes.becomeMember {l : List Nat} (h : Wakes s t) : Wakes s (t.becomeMember l) := (Wakes.raise h.setFab).checkReach

theorem Wakes.partialResult {me : Nat} {l : List Nat} (h : Wakes s t) : Wakes s (t.partialResult me l) :=
  .ite (Wakes.setFab h.becomeMember).beginResume h.setFab

theorem Wakes.admitted (h : Wakes s t) : Wakes s t.admitted := by
  unfold State.admitted
  extract_lets bare _ _ _ u
  have hu : Wakes s u := h.trans ⟨.of_patch rfl, rfl⟩
  clear_value u
  exact (hu.works u.linkChange_keeps (by decide)).checkReach.beginResume

theorem Wakes.joinResult {me : Nat} {l : List Nat} (h : Wakes s t) : Wakes s (t.joinResult me l) := by
  unfold State.joinResult
  extract_lets late fresh f v
  have hv : Wakes s v := (Wakes.setFab h).becomeMember
  exact .ite h (.ite hv.admitted hv.settleResume)

theorem Wakes.barrierResult {b : Barrier} {me : Nat} {l : List Nat} (h : Wakes s t) : Wakes s (t.barrierResult b me l) := by
  unfold State.barrierResult
  extract_lets _ v
  have hv : Wakes s v := h.setFab
  exact .ite hv.becomeMember.beginResume (.ite hv.partialResult hv.joinResult)

theorem Wakes.barrierMove (h : Wakes s t) (hm : t.barrierMove = some u) : Wakes s u := by
  unfold State.barrierMove at hm
  split at hm
  · extract_lets line wanted eat next finish go at hm
    have heat : ∀ {v m}, Wakes s v → Wakes s (eat v m) := fun hv => hv.setFab
    have hfinish : ∀ {v l}, Wakes s v → Wakes s (finish v l) := by
      intro v l hv
      dsimp only [finish]
      split
      · exact hv.emits.setFab
      · exact hv.emits.setFab
      · exact hv.emits.barrierResult
    have hgo : ∀ {v l}, Wakes s v → Wakes s (go v l) := by
      intro v l hv
      dsimp only [go]
      split
      · exact hv.emit.setFab
      · exact hfinish hv
    clear_value wanted eat finish go
    split at hm
    · obtain ⟨m, -, hm⟩ := Option.map_eq_some_iff.1 hm
      exact hm ▸ hfinish (heat h)
    · split at hm
      · cases hm
        exact hgo h
      · obtain ⟨m, -, hm⟩ := Option.map_eq_some_iff.1 hm
        exact hm ▸ hgo (heat h)
  · cases hm

theorem Wakes.barrierMoves : ∀ {n : Nat} {t : State}, Wakes s t → Wakes s (barrierMoves n t) := by
  intro n
  induction n with
  | zero => exact id
  | succ n ih =>
    intro t h
    unfold Machine.barrierMoves
    split
    · rename_i v hv
      exact ih (h.barrierMove hv)
    · exact h

/-! ### Discovery -/

theorem Wakes.enterBarrier {kind : Nat} {own : List Nat} (h : Wakes s t) : Wakes s (t.enterBarrier kind own) := h.setFab.barrierMoves

theorem Wakes.enterPartial (h : Wakes s t) : Wakes s t.enterPartial := by
  unfold State.enterPartial
  split
  · exact h
  · exact h.enterBarrier
  · exact h

theorem Wakes.mapped (h : Wakes s t) : Wakes s t.mapped :=
  .ite h (.ite h.enterPartial (.ite h (.ite h.enterBarrier h.enterPartial)))

theorem Wakes.sendNotice (h : Wakes s t) : Wakes s t.sendNotice := by
  unfold State.sendNotice
  split
  · exact h
  · exact h.emits

theorem Wakes.formBundles (h : Wakes s t) : Wakes s t.formBundles := by
  unfold State.formBundles
  split
  · exact h
  · extract_lets _ f r v
    have hv : Wakes s v := h.setFab
    clear_value v
    exact .ite (Wakes.setFab hv).sendNotice (Wakes.emits (Wakes.setFab hv)).mapped

theorem Wakes.discover (h : Wakes s t) : Wakes s t.discover := .ite (.ite h.formBundles h) h.mapped

end Sys2Proof.Machine
end

section
/-! SUPPORT. Where no step is owed after a warm reset, what the device keeps is left alone by the settling of its shards (R313,
R580); the selector after FW_ACTIVATE (R588, R591). -/

namespace Sys2Proof.Machine

/-- With no step active, the settling of shards leaves plans, the definitions of shards, and the fabric. -/
structure Calm (s t : State) : Prop where
  active : t.stp.active = none
  resume : t.stp.resume = s.stp.resume
  plans : t.pln.plans = s.pln.plans
  shards : t.trn.shards = s.trn.shards
  fab : t.fab = s.fab

variable {s t u : State}

theorem Calm.refl (h : s.stp.active = none) : Calm s s := ⟨h, rfl, rfl, rfl, rfl⟩

theorem Calm.keeps {l : List Part} (h : Calm s t) (hk : Keeps l t u) (hl : ∀ p ∈ l, p ∉ [Part.stp, .pln, .trn, .fab]) : Calm s u := by
  have hstp : u.stp = t.stp := hk .stp fun hp => hl _ hp (by decide)
  have hpln : u.pln = t.pln := hk .pln fun hp => hl _ hp (by decide)
  have htrn : u.trn = t.trn := hk .trn fun hp => hl _ hp (by decide)
  have hfab : u.fab = t.fab := hk .fab fun hp => hl _ hp (by decide)
  exact ⟨hstp ▸ h.active, hstp ▸ h.resume, hpln ▸ h.plans, htrn ▸ h.shards, hfab ▸ h.fab⟩

theorem Calm.foldl {α : Type} {f : State → α → State} {l : List α} (h : Calm s t) (hf : ∀ u a, Calm s u → Calm s (f u a)) :
    Calm s (l.foldl f t) := foldl_keeps (P := Calm s) hf l t h

theorem Calm.emit {o : Output} (h : Calm s t) : Calm s (t.emit o) := h.keeps (t.emit_keeps o) (by decide)

theorem Calm.raise {c k g a b : Nat} (h : Calm s t) : Calm s (t.raise c k g a b) := h.keeps (t.raise_keeps _ _ _ _ _) (by decide)

theorem Calm.setTrn {g : Trn} (h : Calm s t) (hg : g.shards = t.trn.shards) : Calm s { t with trn := g } :=
  ⟨h.active, h.resume, h.plans, hg.trans h.shards, h.fab⟩

theorem Calm.onStep {f : Step → Step} (h : Calm s t) : Calm s (t.onStep f) :=
  ⟨by simp [State.onStep, h.active], h.resume, h.plans, h.shards, h.fab⟩

theorem Calm.localHold {code : Nat} (h : Calm s t) : Calm s (t.localHold code) := by
  rw [State.localHold_idle h.active]
  exact h

theorem Calm.poisonEntry {d : ShardDef} (h : Calm s t) : Calm s (t.poisonEntry d) := by
  unfold State.poisonEntry
  split
  · unfold State.faultEntry
    split
    · exact h
    · exact h.onStep
  · exact h

theorem Calm.loseShard {d : ShardDef} (h : Calm s t) : Calm s (t.loseShard d) := by
  unfold State.loseShard
  extract_lets _ v
  have hv : Calm s v := h.setTrn rfl
  exact hv.poisonEntry.raise.onStep.localHold

theorem Calm.fetchTwin {d : ShardDef} (h : Calm s t) : Calm s (t.fetchTwin d) := by
  unfold State.fetchTwin
  split
  · rename_i o _
    split
    · exact h.loseShard
    · have hasked : Calm s (t.askTwin d o) ∧ (t.askTwin d o).trn = t.trn := by
        unfold State.askTwin
        split
        · exact ⟨h.emit, rfl⟩
        · exact ⟨h, rfl⟩
      exact hasked.1.setTrn (congrArg Trn.shards hasked.2.symm :)
  · exact h.loseShard

theorem Calm.answerFetch {src : Nat} {d : ShardDef} (h : Calm s t) : Calm s (t.answerFetch src d) := by
  unfold State.answerFetch
  split
  · exact h
  · dsimp only
    split
    · exact h.raise.localHold.emit
    · exact h.emit

theorem Calm.takeFetch {src shard ring : Nat} (h : Calm s t) : Calm s (t.takeFetch src shard ring) := by
  unfold State.takeFetch
  split
  · exact h
  · split
    · exact h
    · split
      · exact h.setTrn rfl
      · exact h.answerFetch

theorem Calm.serveFetches (h : Calm s t) : Calm s t.serveFetches := by
  have hv : Calm s { t with trn := { t.trn with fetches := [] } } := h.setTrn rfl
  exact hv.foldl fun _ _ hu => hu.takeFetch

/-- A commit that is completed for no step of the device's own selects slots, and restores what stays behind (R355). -/
theorem Calm.resumeCommit {r : Resume} {round : Nat} (h : Calm s t) (hr : r.step = none) : Calm s (t.resumeCommit r round) := by
  obtain ⟨ring, step, begun, awaiting, heard⟩ := r
  cases hr
  unfold State.resumeCommit
  extract_lets k want but hdrs u₁ ls allow u₂ _ u₃ u₄ _ u₅
  have h₁ : Calm s u₁ := h.keeps (t.redoHeld_keeps _ but ring want none (some k)) (by decide)
  clear_value u₁
  have h₂ : Calm s u₂ := ⟨h₁.active, h₁.resume, h₁.plans, h₁.shards, h₁.fab⟩
  clear_value u₂
  have h₃ : Calm s u₃ := ⟨rfl, h₂.resume, h₂.plans, h₂.shards, h₂.fab⟩
  have h₄ : Calm s u₄ := h₃
  clear_value u₄
  have h₅ : Calm s u₅ := h₄.raise
  clear_value u₅
  exact Calm.serveFetches (h₅.foldl fun _ _ hu => hu.raise.fetchTwin)

theorem Calm.settleClasses {n : Nat} (h : Calm s t) : Calm s (t.settleClasses n) := by
  have hagain := h.keeps (State.settleAgain_keeps n t) (by decide)
  unfold State.settleClasses
  split
  · split
    · exact h.resumeCommit rfl
    · exact hagain
  · exact hagain

theorem Calm.settleStart (h : Calm s t) : Calm s t.settleStart := by
  unfold State.settleStart
  split
  · exact h.settleClasses
  · exact h

theorem Calm.atRest (h : Calm s t) (hs : s.AtRest) : t.AtRest := by
  obtain ⟨⟨hsend, -⟩, hsettled, hforming⟩ := hs
  exact ⟨⟨h.fab ▸ hsend, h.active⟩, h.resume.trans hsettled, h.fab ▸ hforming⟩

theorem State.mem_of_held {d : ShardDef} (h : d ∈ s.held) : d ∈ s.trn.shards := (List.mem_filter.1 (mem_sortBy.1 h)).1

/-- A commit has been interrupted at a shard whose selector is one ring behind (R313). -/
theorem State.classify_interrupted {d : ShardDef} {n : Nat} (h : s.classify d n = .interrupted) : (s.trn.selOf d.shard).ring + 1 = n := by
  by_contra hne
  unfold State.classify at h
  simp only [hne, decide_false, Bool.false_and, Bool.false_eq_true, if_false] at h
  split at h
  · cases h
  · split at h
    · cases h
    · split at h
      · cases h
      · split at h
        · split at h
          · cases h
          · cases h
        · cases h

/-- Where the commit record leaves no shard behind, none is interrupted, and the selectors stay (R313). -/
theorem State.settleClasses_keeps {n : Nat} (h : NoneInterrupted s) : Keeps [.mem, .coh, .out, .rgn] s (s.settleClasses n) := by
  unfold State.settleClasses
  split
  · rename_i m round hcommit
    rw [if_neg]
    · exact State.settleAgain_keeps n s
    · intro howed
      obtain ⟨hm, hany⟩ := Bool.and_eq_true_iff.1 howed
      obtain ⟨d, hd, hclass⟩ := List.any_eq_true.1 hany
      have hring := State.classify_interrupted (eq_of_beq hclass)
      exact h _ hcommit d (State.mem_of_held hd) (hring.trans (of_decide_eq_true hm).symm)
  · exact State.settleAgain_keeps n s

theorem State.settleStart_keeps (h : NoneInterrupted s) : Keeps [.mem, .coh, .out, .rgn] s s.settleStart := by
  unfold State.settleStart
  split
  · exact State.settleClasses_keeps h
  · exact .refl _ s

/-! ### The selector -/

/-- Of two copies the selector is one; with none in force the second is not valid. -/
theorem Aon.selector_pair {a : Aon} {x y : SelCopy} (h : a.selCopies = [x, y]) :
    (a.selector = none → y.valid = false) ∧ ∀ c, a.selector = some c → c = x ∨ c = y := by
  unfold Aon.selector
  rw [h]
  cases hx : x.valid <;> cases hy : y.valid <;> simp [hx, hy]
  split <;> simp

/-- A valid copy that no other valid one outnumbers is in force, whichever of the two it is (R588). -/
theorem Aon.selector_newest {a : Aon} {x y : SelCopy} (hx : x.valid = true) (hy : y.valid = true → y.seq < x.seq)
    (h : a.selCopies = [x, y] ∨ a.selCopies = [y, x]) : a.selector = some x := by
  unfold Aon.selector
  obtain h | h := h <;> rw [h] <;> cases hval : y.valid <;> simp [hx, hval]
  · exact fun hlt => absurd (hy hval) (by omega)
  · exact fun hle => absurd (hy hval) (by omega)

/-- The copy that FW_ACTIVATE writes has the higher sequence number, so the bank that it names is selected (R588, R591). -/
theorem Aon.selectBank_selected {a : Aon} {bank : Nat} (hlen : a.selCopies.length = 2) (hseq : ∀ c ∈ a.selCopies, c.seq + 1 < 2 ^ 32) :
    ({ a with selCopies := a.selectBank bank } : Aon).selectedBank = bank := by
  obtain ⟨x, y, hxy⟩ := List.length_eq_two.1 hlen
  obtain ⟨hnone, hsome⟩ := Aon.selector_pair hxy
  have hnewest : ∀ {new other : SelCopy}, new.valid = true → new.bank = bank → (other.valid = true → other.seq < new.seq) →
      (a.selectBank bank = [new, other] ∨ a.selectBank bank = [other, new]) →
      ({ a with selCopies := a.selectBank bank } : Aon).selectedBank = bank := by
    intro new other hvalid hbank hlt hcopies
    unfold Aon.selectedBank
    rw [Aon.selector_newest (a := { a with selCopies := a.selectBank bank }) hvalid hlt hcopies]
    exact hbank
  cases hsel : a.selector with
  | none =>
    refine hnewest (new := ⟨bank, 1, true⟩) (other := y) rfl rfl (fun hy => absurd hy (by simp [hnone hsel])) (.inl ?_)
    unfold Aon.selectBank
    rw [hsel, hxy]
    rfl
  | some c =>
    have hnext : (c.seq + 1) % 2 ^ 32 = c.seq + 1 := by
      refine Nat.mod_eq_of_lt (hseq c ?_)
      rw [hxy]
      obtain rfl | rfl := hsome c hsel
      · exact List.mem_cons_self
      · exact List.mem_cons_of_mem _ List.mem_cons_self
    have hbank : a.selectBank bank = a.selCopies.set (if a.selCopies.head? = some c then 1 else 0) ⟨bank, c.seq + 1, true⟩ := by
      unfold Aon.selectBank
      rw [hsel]
      show a.selCopies.set _ (⟨bank, (c.seq + 1) % 2 ^ 32, true⟩ : SelCopy) = _
      rw [hnext]
    rw [hxy] at hbank
    by_cases hx : x = c
    · refine hnewest (new := ⟨bank, c.seq + 1, true⟩) (other := x) rfl rfl (fun _ => ?_) (.inr ?_)
      · rw [hx]
        exact Nat.lt_succ_self _
      · simpa [hx] using hbank
    · obtain rfl := (hsome c hsel).resolve_left (Ne.symm hx)
      refine hnewest (new := ⟨bank, c.seq + 1, true⟩) (other := c) rfl rfl (fun _ => Nat.lt_succ_self _) (.inl ?_)
      simpa [hx] using hbank

end Sys2Proof.Machine
end

section
/-! SUPPORT. A warm reset that a command asks for: the device comes to rest, starts again from its selected bank, and is READY (R493,
R516, R577, R580, R591). -/

namespace Sys2Proof.Machine

/-! ### The step that a warm reset owes -/

theorem Stp.moveWord_resume (p : Stp) (tag : Nat) (w : WordState) : (p.moveWord tag w).resume = p.resume := by
  unfold Stp.moveWord
  split <;> rfl

theorem State.abortQueued_resume (s : State) : s.abortQueued.stp.resume = s.stp.resume := by
  unfold State.abortQueued
  split
  · rfl
  · exact Stp.moveWord_resume _ _ _

theorem State.stepsEnded_idle {s : State} (h : s.stp.active = none) :
    s.stepsEnded.stp.active = none ∧ s.stepsEnded.stp.resume = s.stp.resume := by
  unfold State.stepsEnded
  extract_lets free u
  have hu : u.stp.active = none ∧ u.stp.resume = s.stp.resume := by
    dsimp only [u]
    split
    · exact ⟨s.abortQueued_active.trans h, s.abortQueued_resume⟩
    · exact ⟨h, rfl⟩
  clear_value u
  obtain ⟨hactive, hresume⟩ := hu
  rw [hactive]
  exact ⟨hactive, hresume⟩

/-- With no step active and none owed, none is owed after the reset (R355). -/
theorem State.halt_resume {s : State} (hactive : s.stp.active = none) (hresume : s.stp.resume = none) : s.halt.stp.resume = none := by
  obtain ⟨hended, howed⟩ := State.stepsEnded_idle hactive
  have hpark : s.parkStep.stp.resume = none := by
    show (match s.stepsEnded.stp.active with
      | some st => some _
      | none => s.stepsEnded.stp.resume.map _) = none
    rw [hended, howed, hresume]
    rfl
  exact (congrArg Stp.resume (s.parkStep.quiesce_keeps.1 .stp (by decide) :)).trans hpark

/-! ### The start after it -/

/-- Steps 1 to 4 of R577, and the host port trains again. -/
def State.warmBegun (s : State) : State :=
  { s.halt with
    aon := { s.halt.aon with resetWait := false }
    hst := { s.halt.hst with link := if s.halt.aon.perstN then .training else .down } }

theorem State.thenReset_eq {s after : State} (hafter : after.aon.resetWait = true) (hs : s.aon.resetWait = false) (inp : StartInputs) :
    s.thenReset inp after = after.warmBegun.startSteps false inp := by
  unfold State.thenReset
  rw [if_pos (by simp [hafter, hs])]
  rfl

theorem State.warmBegun_aon (s : State) : s.warmBegun.aon = { s.aon.halted with resetWait := false } :=
  congrArg (fun a : Aon => { a with resetWait := false }) s.halt_halted.aon

/-- The start after a warm reset, as far as the commands that ask for one speak of it. -/
structure Restarted (s t : State) (r : Running) : Prop where
  aon : t.aon = ({ s.aon.halted with resetWait := false } : Aon).started r
  mode : t.dev.mode = .ready
  serving : t.dev.serving = true
  running : t.dev.running = some r
  mbx : t.mbx = Mbx.reset
  cor : t.cor = Cor.reset
  dma : t.dma = Dma.reset
  ctrs : t.obs.ctrs = []
  kept : s.stp.active = none → s.stp.resume = none → t.pln.plans = s.pln.plans ∧ t.trn.shards = s.trn.shards
  settled : s.stp.active = none → s.stp.resume = none → NoneInterrupted s → t.trn.sel = s.trn.sel ∧ t.trn.commit = s.trn.commit

/-- What READY keeps, and what it keeps besides where no step is at work or owed (R313). -/
structure Readies (s t : State) : Prop where
  wakes : Wakes s.readied t
  kept : s.AtRest → t.pln.plans = s.pln.plans ∧ t.trn.shards = s.trn.shards
  settled : s.AtRest → NoneInterrupted s → t.trn = s.trn

theorem State.becomeReady_readies {s : State} (hl : s.mbx.latch = []) : Readies s s.becomeReady := by
  have hsettles : Wakes s.readied s.readied.settleStart := (Wakes.refl _).settleStart
  have hlatch : s.readied.settleStart.mbx.latch = [] := (congrArg Mbx.latch (hsettles.keeps .mbx (by decide) :)).trans hl
  have heq : s.becomeReady = s.readied.settleStart.discover := congrArg State.discover (State.drainUndefined_empty hlatch)
  have hrest : s.AtRest → s.readied.AtRest := fun h => ⟨h.idle, h.settled, h.forming⟩
  have hcalm : s.AtRest → Calm s.readied s.readied.settleStart := fun h => (Calm.refl (s := s.readied) h.idle.2).settleStart
  have hdiscovers : s.AtRest → Discovers s.readied.settleStart s.readied.settleStart.discover := fun h =>
    State.discover_discovers ((hcalm h).atRest (hrest h))
  rw [heq]
  refine ⟨hsettles.discover, fun h => ⟨?_, ?_⟩, fun h hnone => ?_⟩
  · exact (congrArg Pln.plans ((hdiscovers h).keeps .pln (by decide) :)).trans (hcalm h).plans
  · exact (congrArg Trn.shards ((hdiscovers h).keeps .trn (by decide) :)).trans (hcalm h).shards
  · exact ((hdiscovers h).keeps .trn (by decide)).trans (State.settleStart_keeps (s := s.readied) hnone .trn (by decide))

/-- The images that verify, the bank to run and the banks stay over a warm reset. -/
theorem State.warmBegun_bankVerifies (s : State) (n : Nat) :
    (s.warmBegun.atStep 7 false).aon.bankVerifies n = s.aon.bankVerifies n := by
  show s.warmBegun.aon.bankVerifies n = _
  rw [s.warmBegun_aon]
  exact congrArg Option.isNone (Aon.verifyImage_congr rfl rfl rfl _)

theorem State.warmBegun_selectedBank (s : State) : (s.warmBegun.atStep 7 false).aon.selectedBank = s.aon.selectedBank :=
  (congrArg Aon.selectedBank s.warmBegun_aon :)

theorem State.warmBegun_banks (s : State) : (s.warmBegun.atStep 7 false).aon.banks = s.aon.banks := (congrArg Aon.banks s.warmBegun_aon :)

/-- A warm reset whose start finds an image, and in which nothing fails, ends READY. -/
theorem State.warmBegun_restarts {s u : State} {inp : StartInputs} {r : Running} (hf : inp.failed = []) (hs : inp.stall = none)
    (hboot : (s.warmBegun.atStep 7 false).bootBank = some (u, r)) (hu : Keeps [.att, .dev, .obs] (s.warmBegun.atStep 7 false) u) :
    Restarted s (s.warmBegun.startSteps false inp) r := by
  have h := s.halt_halted
  have haon : (s.warmBegun.atStep 7 false).aon = { s.aon.halted with resetWait := false } := s.warmBegun_aon
  have hmbx : u.mbx = Mbx.reset := (hu .mbx (by decide)).trans (h.rest .mbx (by decide))
  have hctrs : (s.warmBegun.startSteps false inp).obs.ctrs = [] :=
    (Steady.refl s.warmBegun).startSteps.ctrs (congrArg Obs.ctrs (h.rest .obs (by decide) :))
  rw [State.startSteps_clean hf hs hboot (congrArg Mbx.latch hmbx)] at hctrs ⊢
  have hread := (u.runs r false).readIdentity_keeps inp
  generalize (u.runs r false).readIdentity inp = v at hread hctrs ⊢
  have hvaon : v.aon = { ({ s.aon.halted with resetWait := false } : Aon) with primary := .awake, mate := .awake } :=
    (hread .aon (by decide) : v.aon = { u.aon with primary := .awake, mate := .awake }).trans
      (congrArg (fun a : Aon => { a with primary := .awake, mate := .awake }) ((hu .aon (by decide)).trans haon))
  have hvmbx : v.mbx = Mbx.reset := (hread .mbx (by decide)).trans hmbx
  have hvdev : v.dev = ((u.runs r false).identified inp).dev := hread .dev (by decide)
  have hvpln : v.pln = s.halt.pln := (hread .pln (by decide)).trans (hu .pln (by decide))
  have hvtrn : v.trn = s.trn.lasting := ((hread .trn (by decide)).trans (hu .trn (by decide))).trans h.trn
  have hvcor : v.cor = Cor.reset := ((hread .cor (by decide)).trans (hu .cor (by decide))).trans (h.rest .cor (by decide))
  have hvdma : v.dma = Dma.reset := ((hread .dma (by decide)).trans (hu .dma (by decide))).trans (h.rest .dma (by decide))
  have hstp : u.stp = s.halt.stp := hu .stp (by decide)
  have hrest : s.stp.active = none → s.stp.resume = none → (v.tested false).AtRest := fun hactive hresume =>
    (State.identified_atRest (s := u.runs r false) ((congrArg Stp.active hstp).trans h.active)
      ((congrArg Stp.resume hstp).trans (State.halt_resume hactive hresume)) inp).congr (hread .fab (by decide)) (hread .stp (by decide))
  obtain ⟨⟨hkeeps, hdev⟩, hkept, hsettled⟩ := State.becomeReady_readies (s := v.tested false) (congrArg Mbx.latch hvmbx)
  have hrunning : (v.tested false).dev.running = some r := congrArg Dev.running hvdev
  generalize (v.tested false).becomeReady = t at hkeeps hdev hkept hsettled hctrs ⊢
  have htrn : s.stp.active = none → s.stp.resume = none → t.trn.shards = s.trn.shards := fun ha hr =>
    (hkept (hrest ha hr)).2.trans (congrArg Trn.shards hvtrn :)
  exact {
    aon := by
      rw [hkeeps .aon (by decide), State.readied_aon hrunning]
      show { v.aon.blow r with faultN := true, activating := false } = _
      rw [hvaon]
      rfl
    mode := congrArg Dev.mode hdev
    serving := (congrArg Dev.serving hdev).trans (congrArg Dev.serving hvdev :)
    running := (congrArg Dev.running hdev).trans hrunning
    mbx := (hkeeps .mbx (by decide)).trans hvmbx
    cor := (hkeeps .cor (by decide)).trans hvcor
    dma := (hkeeps .dma (by decide)).trans hvdma
    ctrs := hctrs
    kept := fun ha hr => ⟨(hkept (hrest ha hr)).1.trans ((congrArg Pln.plans hvpln :).trans h.plans), htrn ha hr⟩
    settled := fun ha hr hnone => by
      have hvnone : NoneInterrupted (v.tested false) := by
        show ∀ x, v.trn.commit = some x → ∀ d ∈ v.trn.shards, (v.trn.selOf d.shard).ring + 1 ≠ x.1
        rw [hvtrn]
        exact hnone
      have hsame : t.trn = v.trn := hsettled (hrest ha hr) hvnone
      rw [hsame, hvtrn]
      exact ⟨rfl, rfl⟩ }

/-! ### The commands -/

/-- A command that is accepted changes, beyond what its body does, its slot only. -/
theorem IsServed.take_keeps {s u : State} {k : SlotId} {op code : Nat} {d : Bytes} {body : Req → State → State × Resp}
    (h : IsServed s k op) (hbody : body (s.asks k) (s.taken k) = (u, some (code, d))) (hcode : code ≠ cWAIT) :
    Keeps [.mbx] u (s.take k (·.opcode == op) body) := by
  obtain ⟨hserves, hfront, hop, hpre⟩ := h
  have htake : s.take k (·.opcode == op) body = (u.reply k (s.asks k).tag code d).drainUndefined := by
    rw [State.take_served hserves hfront (by simp [hop]) hpre, show s.mbx.req k = s.asks k from rfl, hbody]
    exact if_neg hcode
  rw [htake]
  exact Keeps.trans (.of_patch rfl) (State.drainUndefined_keeps _)

theorem State.serves_iff {s : State} : s.serves = true ↔ s.aon.pwrgd = true ∧ s.aon.resetWait = false ∧ s.dev.serving = true := by
  simp [State.serves, and_assoc]

/-- What a command whose body asks for a warm reset hands to it. -/
structure AsksReset (s after : State) (a : Aon) : Prop where
  aon : ∃ p, after.aon = { a with resetWait := true, primary := p }
  rest : Keeps [.aon, .mbx] s after

theorem AsksReset.thenReset {s after : State} {a : Aon} (h : AsksReset s after a) (hs : s.serves = true) (inp : StartInputs) :
    s.thenReset inp after = after.warmBegun.startSteps false inp := by
  obtain ⟨p, haon⟩ := h.aon
  exact State.thenReset_eq (congrArg Aon.resetWait haon) (State.serves_iff.1 hs).2.1 inp

theorem AsksReset.bankVerifies {s after : State} {a : Aon} (h : AsksReset s after a) (n : Nat) :
    (after.warmBegun.atStep 7 false).aon.bankVerifies n = a.bankVerifies n := by
  obtain ⟨p, haon⟩ := h.aon
  rw [State.warmBegun_bankVerifies, haon]
  exact congrArg Option.isNone (Aon.verifyImage_congr rfl rfl rfl _)

theorem AsksReset.selectedBank {s after : State} {a : Aon} (h : AsksReset s after a) :
    (after.warmBegun.atStep 7 false).aon.selectedBank = a.selectedBank := by
  obtain ⟨p, haon⟩ := h.aon
  rw [State.warmBegun_selectedBank, haon]
  rfl

theorem AsksReset.banks {s after : State} {a : Aon} (h : AsksReset s after a) : (after.warmBegun.atStep 7 false).aon.banks = a.banks := by
  obtain ⟨p, haon⟩ := h.aon
  rw [State.warmBegun_banks, haon]

/-- The reset that the command asks for ends READY where one of the banks verifies (R588). -/
theorem AsksReset.restarts {s after : State} {a : Aon} {inp : StartInputs} (h : AsksReset s after a) (hserves : s.serves = true)
    (hf : inp.failed = []) (hs : inp.stall = none)
    (hbanks : a.bankVerifies a.selectedBank = true ∨ a.bankVerifies (1 - a.selectedBank) = true) :
    ∃ r, Restarted after (s.thenReset inp after) r := by
  have hfall : (after.warmBegun.atStep 7 false).dev.fallback = false := congrArg Dev.fallback after.halt_halted.dev
  rw [← h.selectedBank, ← h.bankVerifies, ← h.bankVerifies] at hbanks
  obtain ⟨u, n, fallback, hboot, -, -, hu⟩ := State.bootBank_boots hfall hbanks
  rw [h.thenReset hserves]
  exact ⟨_, State.warmBegun_restarts hf hs hboot hu⟩

/-- Where the selected bank verifies, its image runs (R588). -/
theorem AsksReset.restarts_selected {s after : State} {a : Aon} {inp : StartInputs} (h : AsksReset s after a) (hserves : s.serves = true)
    (hf : inp.failed = []) (hs : inp.stall = none) (hbank : a.bankVerifies a.selectedBank = true) :
    Restarted after (s.thenReset inp after) (runningOf a.selectedBank (a.banks.getD a.selectedBank [])) := by
  rw [← h.selectedBank, ← h.bankVerifies] at hbank
  have hboot := State.bootBank_selected hbank
  rw [h.selectedBank, h.banks] at hboot
  rw [h.thenReset hserves]
  exact State.warmBegun_restarts hf hs hboot (.refl _ _)

/-- What of the always-on domain the commands' statements name. -/
theorem AsksReset.started {s after t : State} {a : Aon} {r : Running} (h : AsksReset s after a) (hr : Restarted after t r) :
    t.aon.pwrgd = a.pwrgd ∧ t.aon.resetWait = false ∧ t.aon.tick = a.tick ∧ t.aon.activating = false
      ∧ t.aon.selectedBank = a.selectedBank := by
  obtain ⟨p, haon⟩ := h.aon
  rw [hr.aon, haon]
  exact ⟨rfl, rfl, rfl, rfl, rfl⟩

/-- Without a step at work or owed, the plans and shards stay. -/
theorem AsksReset.kept {s after t : State} {a : Aon} {r : Running} (h : AsksReset s after a) (hr : Restarted after t r)
    (hactive : s.stp.active = none) (hresume : s.stp.resume = none) : t.pln.plans = s.pln.plans ∧ t.trn.shards = s.trn.shards := by
  have hstp : after.stp = s.stp := h.rest .stp (by decide)
  have hpln : after.pln = s.pln := h.rest .pln (by decide)
  have htrn : after.trn = s.trn := h.rest .trn (by decide)
  obtain ⟨hplans, hshards⟩ := hr.kept (hstp ▸ hactive) (hstp ▸ hresume)
  exact ⟨hplans.trans (congrArg Pln.plans hpln), hshards.trans (congrArg Trn.shards htrn)⟩

theorem AsksReset.settled {s after t : State} {a : Aon} {r : Running} (h : AsksReset s after a) (hr : Restarted after t r)
    (hactive : s.stp.active = none) (hresume : s.stp.resume = none) (hnone : NoneInterrupted s) :
    t.trn.sel = s.trn.sel ∧ t.trn.commit = s.trn.commit := by
  have hstp : after.stp = s.stp := h.rest .stp (by decide)
  have htrn : after.trn = s.trn := h.rest .trn (by decide)
  have hnone' : NoneInterrupted after := by
    unfold NoneInterrupted
    rw [htrn]
    exact hnone
  obtain ⟨hsel, hcommit⟩ := hr.settled (hstp ▸ hactive) (hstp ▸ hresume) hnone'
  exact ⟨hsel.trans (congrArg Trn.sel htrn), hcommit.trans (congrArg Trn.commit htrn)⟩

theorem execDeviceResetWarm_asks {s : State} {k : SlotId} (h : IsServed s k 0x0105) (hkind : drKind (s.asks k) = 1)
    (hok : drOk (s.asks k) = true) :
    AsksReset s (s.take k (fun q => q.opcode == 0x0105 && drKind q == 1) warmBody) s.aon := by
  have hbody : warmBody (s.asks k) (s.taken k)
      = ({ s.taken k with aon := { (s.taken k).aon with resetWait := true } }, some (cACCEPTED, [])) := if_neg (by simp [hok])
  have hkeeps := h.take_keeps hbody (by decide)
  rw [h.take_row (mine := fun q => q.opcode == 0x0105 && drKind q == 1) (body := warmBody) (by simp [h.opcode, hkind])]
  generalize s.take k _ warmBody = after at hkeeps ⊢
  have haon : after.aon = { (s.taken k).aon with resetWait := true } := hkeeps .aon (by decide)
  refine ⟨⟨(s.taken k).aon.primary, ?_⟩, Keeps.trans (.of_patch rfl) (hkeeps.mono (by decide))⟩
  rw [haon]
  rfl

theorem execFwActivate_asks {s : State} {k : SlotId} {b : Bytes} (h : IsServed s k 0x0904) (hz : (s.asks k).zb 4 4 = true)
    (hstaged : s.stagedImage = some b) (hversion : imgVersion b = (s.asks k).f 0 4) (hactive : s.stepActive = false) :
    AsksReset s (s.take k (·.opcode == 0x0904) fwActivateBody)
      { s.aon with selCopies := s.aon.selectBank s.idleBank, activating := true } := by
  have hstaged' : (s.taken k).stagedImage = some b := hstaged
  have hactive' : (s.taken k).stepActive = false := hactive
  have hbody : fwActivateBody (s.asks k) (s.taken k) = ({ s.taken k with aon := { (s.taken k).aon with
      selCopies := (s.taken k).aon.selectBank (s.taken k).idleBank, activating := true, resetWait := true } }, some (cACCEPTED, [])) := by
    unfold fwActivateBody
    rw [if_neg (by simp [hz]), hstaged']
    dsimp only
    rw [if_neg (by simp [hversion]), if_neg (by simp [hactive'])]
    rfl
  have hkeeps := h.take_keeps hbody (by decide)
  generalize s.take k _ fwActivateBody = after at hkeeps ⊢
  have haon : after.aon = { (s.taken k).aon with
    selCopies := (s.taken k).aon.selectBank (s.taken k).idleBank, activating := true, resetWait := true } := hkeeps .aon (by decide)
  refine ⟨⟨(s.taken k).aon.primary, ?_⟩, Keeps.trans (.of_patch rfl) (hkeeps.mono (by decide))⟩
  rw [haon]
  rfl

/-- A staged image stands in the idle bank, and verifies there (R590). -/
theorem State.stagedImage_some {s : State} {b : Bytes} (h : s.stagedImage = some b) :
    s.aon.bankVerifies s.idleBank = true ∧ s.aon.banks.getD s.idleBank [] = b := by
  unfold State.stagedImage at h
  dsimp only at h
  split at h
  · exact ⟨by assumption, Option.some.inj h⟩
  · cases h

theorem State.stepActive_none {s : State} (h : s.stepActive = false) : s.stp.active = none := by
  cases hactive : s.stp.active with
  | none => rfl
  | some st => simp [State.stepActive, Stp.current, hactive] at h

/-- Settles O9: each command's body asks for the reset; the halt keeps what R580 keeps, the start boots the selected bank, and what READY
does then leaves the slots and, with no step owed, the plans and shards. -/
theorem warmResetByCommand : Obligations.WarmResetByCommand := by
  unfold Obligations.WarmResetByCommand
  refine ⟨fun s k inp hserved hkind hok ⟨himage, hf, hs⟩ hresetN => ?_,
    fun s k inp b hserved hz hstaged hversion hactive hresetN hlen hseq hf hs => ?_⟩
  · have hasks := execDeviceResetWarm_asks hserved hkind hok
    have hserves : s.serves = true := hserved.1
    obtain ⟨r, hr⟩ := hasks.restarts hserves hf hs himage
    obtain ⟨hpwr, hwait, htick, -, -⟩ := hasks.started hr
    refine ⟨_, rfl, hr.mode, State.serves_iff.2 ⟨hpwr.trans (State.serves_iff.1 hserves).1, hwait, hr.serving⟩, ?_, ?_, ?_, hr.ctrs, htick,
      fun ha howed hnone => ?_⟩
    · rw [hr.mbx]
      rfl
    · rw [hr.cor]
      rfl
    · rw [hr.dma]
      rfl
    · obtain ⟨hplans, hshards⟩ := hasks.kept hr ha howed
      exact ⟨hplans, hshards, hasks.settled hr ha howed hnone⟩
  · have hasks := execFwActivate_asks hserved hz hstaged hversion hactive
    have hserves : s.serves = true := hserved.1
    have hselected : ({ s.aon with selCopies := s.aon.selectBank s.idleBank, activating := true } : Aon).selectedBank = s.idleBank :=
      Aon.selectBank_selected hlen hseq
    obtain ⟨hverifies, hbank⟩ := State.stagedImage_some hstaged
    have hverifies' : ({ s.aon with selCopies := s.aon.selectBank s.idleBank, activating := true } : Aon).bankVerifies s.idleBank = true :=
      (congrArg Option.isNone (Aon.verifyImage_congr rfl rfl rfl _)).trans hverifies
    have hr := hasks.restarts_selected hserves hf hs (hselected.symm ▸ hverifies')
    obtain ⟨-, -, -, hdone, hsel⟩ := hasks.started hr
    refine ⟨_, rfl, hr.mode, hsel.trans hselected, ?_, ?_, hdone, fun howed => hasks.kept hr (State.stepActive_none hactive) howed⟩
    · rw [hr.running, hselected]
      exact congrArg (fun x => some (runningOf s.idleBank x)) hbank
    · rw [hr.mbx]
      rfl

end Sys2Proof.Machine
end
